-- ==== Sys2Proof/Word.lean ====
section
/-! DEFINITION. Word.lean: the word types of the module. -/

namespace Sys2Proof

/-- A 64-bit general register, a TTC value or the raw value of a signal. -/
abbrev Word := BitVec 64
/-- One byte. -/
abbrev Byte := BitVec 8
/-- One 32-bit register or instruction word. -/
abbrev Reg32 := BitVec 32
/-- A signal identifier, 24 bits (R71). -/
abbrev Sid := BitVec 24
/-- A minor cycle counter value, 32 bits, compared by signed difference (R9). -/
abbrev Mcc := BitVec 32
/-- A SHA-384 value, 48 bytes (R67). -/
abbrev Hash := BitVec 384
/-- An IPv4 address. -/
abbrev Ip4 := BitVec 32
/-- A 48-bit MAC address. -/
abbrev Mac := BitVec 48

end Sys2Proof
end

