-- ==== Sys2Proof/Tile.lean ====
section
/-! DEFINITION. Tile.lean: the instruction formats of the tile instruction set and the rows of its opcode table
(06_tile_instruction_set, R124 to R127). -/

namespace Sys2Proof

/-- A tile number, 0 to 47 (R98). -/
abbrev TileNo := Fin 48

/-- A register number G0 to G31 (R123). -/
abbrev GReg := BitVec 5

/-- The slot of a bundle an instruction stands in (R122). -/
inductive Slot where
  | s0
  | s1
  deriving DecidableEq, Repr

/-- Format RR of R124. -/
structure RR where
  rd : GReg
  ra : GReg
  rb : GReg := 0
  ty : BitVec 4 := 0
  fn : BitVec 7 := 0
  deriving DecidableEq, Repr

/-- Format RI of R124. -/
structure RI where
  rd : GReg
  ra : GReg := 0
  ty : BitVec 4 := 0
  imm : BitVec 12
  deriving DecidableEq, Repr

/-- Format CI of R124. -/
structure CI where
  rd : GReg
  ra : GReg
  ty : BitVec 4
  cond : BitVec 3
  imm : BitVec 9
  deriving DecidableEq, Repr

/-- Format L of R124. -/
structure LF where
  rd : GReg
  imm : BitVec 48
  deriving DecidableEq, Repr

/-- Format M of R124: `r` is RD for a load and RS for a store. -/
structure MF where
  r : GReg
  ra : GReg
  ty : BitVec 4
  off : BitVec 12
  deriving DecidableEq, Repr

/-- Format B of R124. -/
structure BF where
  ra : GReg := 0
  disp : BitVec 16
  deriving DecidableEq, Repr

/-- Format LP of R124. -/
structure LPF where
  ra : GReg
  bound : BitVec 11
  len : BitVec 10
  deriving DecidableEq, Repr

/-- Format FB of R124. -/
structure FBF where
  rd : GReg
  ra : GReg
  rb : GReg := 0
  inst : BitVec 11
  deriving DecidableEq, Repr

/-- Format E of R124. -/
structure EF where
  ra : GReg
  sev : BitVec 3
  code : BitVec 16
  deriving DecidableEq, Repr

/-- The fields of one instruction in its format (R124). -/
inductive TFields where
  | z
  | rr (f : RR)
  | ri (f : RI)
  | ci (f : CI)
  | l (f : LF)
  | m (f : MF)
  | b (f : BF)
  | lp (f : LPF)
  | fb (f : FBF)
  | a (ra : GReg)
  | x (xfer : BitVec 13)
  | e (f : EF)
  deriving DecidableEq, Repr

/-- The format letters of R124. -/
inductive Fmt where
  | Z | RR | RI | CI | L | M | B | LP | FB | A | X | E
  deriving DecidableEq, Repr

/-- The type classes of R125. -/
inductive TyClass where
  | bit | int | float
  deriving DecidableEq, Repr

/-- A row of the opcode table: opcode, format, whether slot 1 may hold it, and the cycle counts for the
int and bit classes, for REAL and for LREAL; none is the table's dash (R127). `bitOnly` and `intOnly`
narrow the first column to one class (R127, R128). -/
structure OpRow where
  op : Nat
  name : String
  fmt : Fmt
  either : Bool
  cInt : Option Nat
  cReal : Option Nat
  cLreal : Option Nat
  bitOnly : Bool := false
  intOnly : Bool := false
  deriving DecidableEq, Repr

/-- One decoded tile instruction. -/
structure TInstr where
  op : BitVec 6
  f : TFields
  deriving DecidableEq, Repr

end Sys2Proof
end

