-- ==== Sys2Proof/Types.lean ====
section
/-! DEFINITION. Types.lean: the fixed sets of names the manual uses across its chapters: statuses, severities,
sources, ports, units, module states, roles. -/

namespace Sys2Proof

/-- The status codes of R229. -/
inductive Status where
  | ok | deferred | retry
  | refusedCapacity | refusedPolicy | refusedPower | refusedFrozen
  | unitReset | epochStale | timeout | remoteError | holdViolation
  | authRequired | versionFloor | busyOtherImage | checkFailed | signatureFailed
  | incompatible | notApplicable | internal
  deriving DecidableEq, Repr

/-- The severities of R466. -/
inductive Sev where
  | trace | info | notice | warning | error | critical | safety | security
  deriving DecidableEq, Repr

/-- The module states in the encoding common to STATE, PENDING and the telegrams (R201). -/
inductive MState where
  | boot | config | stop | run | hold | safeHalt | dormant
  deriving DecidableEq, Repr

/-- The ports by PORT_ID of R76. -/
inductive Port where
  | ecnA | ecnB | maint | mvb | can0 | can1 | glL | glR
  deriving DecidableEq, Repr

/-- The target units of the TXE by UNIT number (R230). -/
inductive TUnit where
  | ethA | ethB | ethM | mvb | can0 | can1 | gw | glL | glR | peerL | peerR | runtime | fabric
  deriving DecidableEq, Repr

/-- The roles of a token (R408) in rising order of authority, none first. -/
inductive Role where
  | none | viewer | maintainer | engineer | safetyEngineer
  deriving DecidableEq, Repr

/-- The value of a signal and its quality byte. -/
structure SigVal where
  val : Word := 0
  q : Byte := 0
  deriving DecidableEq, Repr

/-- A safety variable at a check point: its 64-bit code word, its static signature and its declared range (R368, R370). -/
structure CodedVar where
  word : Word
  sig : Nat := 1
  lo : Int := -2147483648
  hi : Int := 2147483647
  deriving DecidableEq, Repr

/-- Where a CAN_RECV puts its frame, ARG0, and SEM, the semaphore under which it runs, or 0xFF (R297). -/
structure RecvTo where
  addr : Word
  sem : Nat := 255
  deriving DecidableEq, Repr

/-- The fields every submission entry has: REQ_ID and the FLAGS WAIT and POSTED (R227). -/
structure SubReq where
  req : BitVec 16 := 0
  wait : Bool := false
  posted : Bool := false
  deriving DecidableEq, Repr

/-- A trusted kernel call as the request buffer and the GO write give it: slot, session handle, SEQ and RESP_MAX (R411,
R412). -/
structure CallReq where
  slot : Nat := 0
  session : BitVec 16 := 0
  seq : Reg32 := 0
  respMax : Nat := 0
  deriving DecidableEq, Repr

end Sys2Proof
end

