-- ==== Sys2Proof/Image.lean ====
section
/-! DEFINITION. Image.lean: the configuration image as data: header, directory, sections and their records
(04_configuration_image), with the tile program, slot schedule, gateway entry and safety parameter formats of
their own chapters. The bytes of a section are not held: where a rule compares a hash or verifies a signature, the
record holds the stated value and the value the bytes give, or the verdict (assumption 5). -/

namespace Sys2Proof

/-- A signature block (R67); `zero7` and `tail` are its bytes that must be zero, the tail's 27 as one number. `ecdsaOk` and `mldsaOk` are the verdicts of the two algorithms against the key
pair of KEY_ID, whose arithmetic the manual takes from outside (assumption 5). -/
structure SigBlock where
  magicOk : Bool := true
  len : Nat := 0xD80
  keyClass : Byte := 0x01
  keyId : BitVec 128 := 0
  ecdsaOk : Bool := true
  mldsaOk : Bool := true
  zero7 : Byte := 0
  tail : BitVec 216 := 0
  deriving DecidableEq, Repr

/-- A directory entry (R66); `calcHash` is SHA-384 over the section's bytes. -/
structure DirEntry where
  id : Nat
  recordLen : Nat := 0
  offset : Nat := 0
  length : Nat := 0
  recordCount : Nat := 0
  hash : Hash := 0
  calcHash : Hash := 0
  deriving DecidableEq, Repr

/-- The header (R65); `zero29` and `zeroB0` are its bytes that must be zero. `calcHash` is SHA-384 as R67 computes it, `storedLen` the length
the file has. -/
structure ImgHeader where
  magic : Reg32 := 0x49435653
  fmtMajor : Nat := 1
  fmtMinor : Nat := 0
  hdrLen : Nat := 0x100
  part : BitVec 128 := 0x5354522D56504D343800000000000000
  version : Reg32 := 0
  imageLen : Nat := 0
  storedLen : Nat := 0
  sectionCount : Nat := 13
  dirEntryLen : Nat := 64
  dirOffset : Nat := 0x100
  declaredClass : Byte := 0xFF
  baseHash : Hash := 0
  imageHash : Hash := 0
  calcHash : Hash := 0
  sigblkOffset : Nat := 0
  buildTime : Word := 0
  toolId : Reg32 := 0
  projectId : BitVec 128 := 0
  zero29 : BitVec 56 := 0
  zeroB0 : BitVec 640 := 0
  deriving DecidableEq, Repr

/-- The ASCII bytes "STR-VPM48" padded with zero bytes (R65). -/
def partName : BitVec 128 := 0x5354522D56504D343800000000000000

/-- A tile record of STRUCT (R70). -/
structure TileRec where
  tile : Nat
  task : Byte := 0xFF
  slackEvt : BitVec 16 := 0
  codeOffset : Nat := 0
  codeLen : Nat := 0
  wcetCyc : Nat := 0
  deriving DecidableEq, Repr

/-- An entry of the slot schedule (R111); `flagsHigh` is FLAGS[7:1]. -/
structure XferEnt where
  task : Nat
  src : Nat
  dst : Nat
  colFirst : Bool := false
  startSlot : Nat
  slotCount : Nat
  words : Nat
  srcOff : Nat
  dstOff : Nat
  flagsHigh : BitVec 7 := 0
  deriving DecidableEq, Repr

/-- The header of the slot schedule: MAGIC, SLOT_CLK, ENTRY_COUNT and, as one number, its bytes that must be zero (R111). -/
structure XferHead where
  magic : Reg32 := 0x534E5653
  slotClk : Nat := 16
  count : Nat := 0
  rest : Nat := 0
  deriving DecidableEq, Repr

/-- A window descriptor; `rest` is its bits 63 to 45 (R102). -/
structure WinDesc where
  pimWord : Nat
  count : Nat
  winWord : Nat
  drain : Bool := false
  evt : Bool := false
  evtTask : Nat := 0
  rest : BitVec 19 := 0
  deriving DecidableEq, Repr

/-- A bundle: slot 0 and slot 1 (R122). -/
structure Bundle where
  w0 : Reg32 := 0
  w1 : Reg32 := 0
  deriving DecidableEq, Repr

/-- A handler table entry with the handler's code; `zero1` and `zero6` are its bytes that must be zero (R121). -/
structure HandlerEnt where
  evtTask : Nat
  descFirst : Nat := 0
  descCount : Nat := 0
  entry : Nat := 0
  wcetCyc : Nat := 0
  zero1 : Byte := 0
  zero6 : BitVec 16 := 0
  code : List Bundle := []
  deriving DecidableEq, Repr

/-- A tile program (R120); `flagsHigh` is FLAGS[7:1]. `accessProved` is what the trusted kernel's proof of the R131 access rules finds
of accesses whose address the code does not fix, and `netTimingOk` the word-timing conditions of R112 for those: analyses the manual
requires without giving their method (assumption 6); `writesOwn` that its code writes no SID whose writer is not its task (V18). `mainLocal` lists the local-data byte ranges the main program accesses. -/
structure TileProg where
  magic : Reg32 := 0x50545653
  isaVersion : Nat := 1
  handlersOnly : Bool := false
  flagsHigh : BitVec 7 := 0
  hdrLen : Nat := 0x40
  fillCount : Nat := 0
  drainCount : Nat := 0
  descOffset : Nat := 0x40
  handlerOffset : Nat := 0
  mainEntry : Nat := 0x40
  localInitOffset : Nat := 0x40
  slackCyc : Nat := 0
  progWcet : Nat := 0
  layoutId : BitVec 128 := 0
  descs : List WinDesc := []
  handlers : List HandlerEnt := []
  main : List Bundle := []
  localInit : List Byte := []
  mainLocal : List (Nat × Nat) := []
  accessProved : Bool := true
  netTimingOk : Bool := true
  writesOwn : Bool := true
  deriving DecidableEq, Repr

/-- A SIGMAP record (R71); `flagsHigh` is FLAGS[15:8]. -/
structure SigRec where
  sid : Sid
  ty : Byte := 0
  pimOffset : Nat := 0
  dir : Nat := 0
  retained : Bool := false
  voted : Bool := false
  mirrored : Bool := false
  safe : Bool := false
  forceAllowed : Bool := false
  writer : Byte := 0xFE
  substMode : Nat := 0
  freshMs : Nat := 0
  unit : Nat := 0
  rangeMin : Reg32 := 0
  rangeMax : Reg32 := 0
  substValue : Reg32 := 0
  initValue : Reg32 := 0
  flagsHigh : Byte := 0
  deriving DecidableEq, Repr

/-- A TASKS record (R74); `rest` is its bytes that must be zero, those of the other records likewise, as one number. -/
structure TaskRec where
  id : Nat
  kind : Nat := 0
  priority : Nat := 0
  periodExp : Nat := 0
  engine : Nat := 0
  ovrLimit : Nat := 1
  ovrReaction : Nat := 0
  triggerSid : Sid := 0
  slackNs : Nat := 0
  phase : Nat := 0
  rest : Nat := 0
  deriving DecidableEq, Repr

/-- The IOMAP records by KIND (R76). A record of KIND 0x00 or another undefined one is `undefined`, and so is one of a defined KIND whose DIR or other
code R76 does not define. -/
inductive IoRec where
  | port (id enable mode : Nat) (ip mask : Ip4) (vlan pcp : Nat)
  | pdPub (comId : Nat) (sidFirst : Sid) (sidCount payloadLen : Nat) (dest : Ip4) (periodExp outGroup : Nat)
      (timed sdt planeA planeB pull : Bool) (pcp smi : Nat)
  | pdSub (comId : Nat) (sidFirst : Sid) (sidCount payloadLen : Nat) (src : Ip4) (timed sdt pull : Bool) (pullExp smi : Nat)
  | mdSession (comId role maxLen timeoutMs : Nat)
  | outGroup (id launchUs : Nat)
  | mvbRole (role devAddr : Nat)
  | mvbPort (addr fcode : Nat) (source : Bool) (outGroup : Nat)
  | mvbMfl (addr fcode slot : Nat)
  | canPort (port mode nomKbps dataKbps : Nat)
  | canId (port : Nat) (tx : Bool) (dlc : Nat) (ext fd brs : Bool) (ident periodExp outGroup : Nat)
  | node (moduleId : Nat)
  | safeIo (channel : Nat) (sid : Sid)
  | updNeighbour (ip : Ip4) (planeMask : Nat)
  | undefined (kind : Nat)
  deriving DecidableEq, Repr

/-- The header of an IOMAP record: KIND, the zero byte and LEN, with the record's unlisted bytes and undefined FLAGS bits as one number
(R75, R76). -/
structure IoHead where
  kind : Nat
  zero : Byte := 0
  len : Nat
  rest : Nat := 0
  deriving DecidableEq, Repr

/-- A GWMAP entry (R289). -/
structure GwEnt where
  sid : Sid
  bus : Nat := 0
  toBus : Bool := false
  doorbell : Bool := false
  compat : Bool := false
  frame : Nat := 0
  bitOff : Nat := 0
  bitLen : Nat := 1
  signed : Bool := false
  little : Bool := false
  float32 : Bool := false
  scale : Reg32 := 0x3F800000
  offset : Reg32 := 0
  round : Nat := 0
  sigBit : Nat := 0
  span : Nat := 1
  pollExp : Nat := 0
  validOff : Nat := 0xFFFF
  pollFrame : Nat := 0xFFFF
  rest : Nat := 0
  deriving DecidableEq, Repr

/-- A gate list of TSN: port, ENTRY_COUNT and entries (gates, interval in ns) (R78). -/
structure TsnList where
  port : Nat
  count : Nat := 0
  rest : Nat := 0
  entries : List (Byte × Nat) := []
  deriving DecidableEq, Repr

/-- A speed source record of the safety block (R374). -/
structure SrcRec where
  subIndex : Nat := 0
  fieldOff : Nat := 0
  indep : Nat := 0
  enabled : Bool := false
  validBit : Nat := 0xFFFF
  deriving DecidableEq, Repr

/-- A task record of the safety block (R365). -/
structure SafeTask where
  task : Nat
  wcetUs : Nat
  flowFirst : Nat := 0
  flowCount : Nat := 0
  deriving DecidableEq, Repr

/-- An SDT record of the safety block (R365). -/
structure SdtRec where
  pub : Bool := false
  iomapIndex : Nat := 0
  smi : Nat := 0
  udv : Nat := 0
  rxPeriodMs : Nat := 0
  latMaxMs : Nat := 0
  cmThr : Nat := 0
  copyOffset : Nat := 0
  cstUuid : BitVec 128 := 0
  deriving DecidableEq, Repr

/-- The safety parameter block (R364, R365): LEN, the offsets of its arrays and, as one number, its bytes that must be zero. -/
structure SafetyBlock where
  sig : SigBlock := {}
  magicOk : Bool := true
  len : Nat := 0x160
  taskOffset : Nat := 0x160
  sdtOffset : Nat := 0x160
  flowOffset : Nat := 0x160
  rest : Nat := 0
  paramVersion : Reg32 := 0
  codeA : Nat := 65521
  sdtSkewMaxMs : Nat := 10
  sdtSingleMax : Nat := 3
  funcEn : BitVec 5 := 0
  tasks : List SafeTask := []
  sdt : List SdtRec := []
  flows : List Reg32 := []
  sources : List SrcRec := []
  funcTask : Nat := 0xFF
  soWiring : Nat := 0
  ssvTolAbs : Nat := 100
  ssvTolRel : Nat := 30
  slsMax : Nat := 0
  slsSid : Sid := 0
  slsWarn : Nat := 30
  slsHyst : Nat := 20
  sdiDist : Nat := 500
  sdiVdir : Nat := 50
  sdiDirSid : Sid := 0
  sdiAckSid : Sid := 0
  ssmVmax : Nat := 20
  ssmTimeMs : Nat := 2000
  sldMax : Nat := 100
  sldEnSid : Sid := 0
  sldRefSid : Sid := 0
  reactSls : BitVec 3 := 0
  reactSdi : BitVec 3 := 0
  reactSld : BitVec 3 := 0
  permitSsm : BitVec 2 := 0
  resultSids : List Sid := []
  siDiscMs : Nat := 100
  siMode : BitVec 2 := 0
  soTestMs : Nat := 1000
  soPulseUs : Nat := 250
  canaryRestart : Nat := 0
  deriving DecidableEq, Repr

/-- The GROUP record (R80): `group` is bit 0 of MODE, `modeHigh` the rest of that byte. -/
structure GroupRec where
  group : Bool := false
  modeHigh : BitVec 7 := 0
  rest : Nat := 0
  groupId : Nat := 0
  rackId : Nat := 0
  protoMajor : Nat := 1
  protoMinor : Nat := 0
  nMiss : Nat := 2
  probationS : Nat := 60
  rotateMin : Nat := 1440
  onlineMaxClass : Nat := 1
  deriving DecidableEq, Repr

/-- The POWER record (R80). -/
structure PowerRec where
  capTokens : Nat := 480
  acMaxStep : Nat := 7
  shedOrder : List Nat := []
  rest : Nat := 0
  deriving DecidableEq, Repr

/-- The TIME record (R80); `flagsHigh` is FLAGS[7:5]. -/
structure TimeRec where
  flagsHigh : BitVec 3 := 0
  rest : Nat := 0
  tbaseUs : Nat := 1000
  syncRef : Nat := 3
  resyncAtMajor : Bool := false
  ptpMaster : Bool := false
  syncOut : Bool := false
  ptpA : Bool := false
  ptpB : Bool := false
  slew : Nat := 20
  window : Nat := 50
  stepMaxUs : Nat := 100
  refExp : Nat := 0
  deriving DecidableEq, Repr

/-- A SETTINGS record (R81). -/
structure SettingRec where
  addr : Reg32
  mask : Reg32
  value : Reg32
  rest : Reg32 := 0
  deriving DecidableEq, Repr

/-- A whole configuration image (R64, R69); `gaps` is what stands between the end of one part and the start of the next, `ioHeads` the headers of
the IOMAP records. -/
structure ConfImage where
  hdr : ImgHeader := {}
  dir : List DirEntry := []
  sig : SigBlock := {}
  tiles : List TileRec := []
  xferHead : XferHead := {}
  xfers : List XferEnt := []
  progs : List TileProg := []
  sigs : List SigRec := []
  tasks : List TaskRec := []
  iomap : List IoRec := []
  ioHeads : List IoHead := []
  gaps : List Byte := []
  gwmap : List GwEnt := []
  tsn : List TsnList := []
  safety : SafetyBlock := {}
  group : GroupRec := {}
  power : PowerRec := {}
  time : TimeRec := {}
  settings : List SettingRec := []
  deriving DecidableEq, Repr

end Sys2Proof
end

