-- ==== Sys2Proof/Machine/Bits.lean ====
section
/-! DEFINITION. Machine/Bits.lean: bits, bytes, saturating counters, signed differences and lists: the helpers that all meanings use. -/

namespace Sys2Proof

/-- A counter that saturates at all ones, raised by one. -/
def satInc (x : BitVec w) : BitVec w := if x = BitVec.allOnes w then x else x + 1

/-- A counter that saturates at all ones, raised by n. -/
def satAdd (x : BitVec w) (n : Nat) : BitVec w :=
  if x.toNat + n < 2 ^ w then BitVec.ofNat w (x.toNat + n) else BitVec.allOnes w

/-- A counter lowered by 1, not below 0. -/
def satDec (x : BitVec w) : BitVec w := if x = 0 then x else x - 1

/-- The signed difference a - b of two wrapping counters (R9). -/
def sdiff (a b : BitVec w) : Int := (a - b).toInt

/-- a is at or before b by signed difference (R9). -/
def atOrBefore (a b : BitVec w) : Bool := decide (sdiff a b ≤ 0)

/-- b is later than a by signed difference (R9). -/
def before (a b : BitVec w) : Bool := decide (0 < sdiff b a)

/-- Bit n of a word as a Bool. -/
def bit (x : BitVec w) (n : Nat) : Bool := x.getLsbD n

/-- x with bit n set. -/
def setBit (x : BitVec w) (n : Nat) : BitVec w := x ||| (1#w <<< n)

/-- x with bit n clear. -/
def clrBit (x : BitVec w) (n : Nat) : BitVec w := x &&& ~~~(1#w <<< n)

/-- A Bool as a one-bit number in a word of any width. -/
def b2w (b : Bool) : BitVec w := if b then 1 else 0

/-- Position i of a list replaced; a position past the end changes nothing. -/
def setNth : List α → Nat → α → List α
  | [], _, _ => []
  | _ :: xs, 0, y => y :: xs
  | x :: xs, i + 1, y => x :: setNth xs i y

/-- Position i of a list changed by f; a position past the end changes nothing. -/
def modNth : List α → Nat → (α → α) → List α
  | [], _, _ => []
  | x :: xs, 0, f => f x :: xs
  | x :: xs, i + 1, f => x :: modNth xs i f

/-- Position i of a list, or d past its end. -/
def nthD : List α → Nat → α → α
  | [], _, d => d
  | x :: _, 0, _ => x
  | _ :: xs, i + 1, d => nthD xs i d

/-- x put into a sorted list before the first element it does not follow. -/
def insertBy (le : α → α → Bool) (x : α) : List α → List α
  | [] => [x]
  | y :: ys => if le x y then x :: y :: ys else y :: insertBy le x ys

/-- A list sorted by le. -/
def sortBy (le : α → α → Bool) : List α → List α
  | [] => []
  | x :: xs => insertBy le x (sortBy le xs)

/-- The smallest n with n * d at least a (division rounding up); 0 for d = 0. -/
def ceilDiv (a d : Nat) : Nat := (a + (d - 1)) / d

/-- x limited to lo .. hi. -/
def clampInt (x lo hi : Int) : Int := max lo (min x hi)

/-- Little-endian bytes, n of them, of a number (R5). -/
def leBytes : Nat → Nat → List Byte
  | 0, _ => []
  | n + 1, x => BitVec.ofNat 8 (x % 256) :: leBytes n (x / 256)

/-- Fields one after another, each a size in bytes and a number, little-endian (R5, R64). -/
def layout (l : List (Nat × Nat)) : List Byte := l.flatMap (fun x => leBytes x.1 x.2)

/-- The number that little-endian bytes spell (R5). -/
def leNat : List Byte → Nat
  | [] => 0
  | b :: bs => b.toNat + 256 * leNat bs

@[simp] theorem setNth_length (xs : List α) (i : Nat) (y : α) : (setNth xs i y).length = xs.length := by
  induction xs generalizing i with
  | nil => rfl
  | cons x xs ih => cases i with
    | zero => rfl
    | succ i => simp [setNth, ih]

@[simp] theorem modNth_length (xs : List α) (i : Nat) (f : α → α) : (modNth xs i f).length = xs.length := by
  induction xs generalizing i with
  | nil => rfl
  | cons x xs ih => cases i with
    | zero => rfl
    | succ i => simp [modNth, ih]

end Sys2Proof
end

