-- ==== Sys2Proof/Machine/TileEnc.lean ====
section
/-! DEFINITION. Machine/TileEnc.lean: the type codes, the opcode table and the words of the tile instruction set
(06_tile_instruction_set, R124 to R127). -/

namespace Sys2Proof

/-- The class of a type code (R125). -/
def tyClass (ty : BitVec 4) : TyClass :=
  match ty.toNat with
  | 0 | 13 | 14 | 15 => .bit
  | 9 | 10 => .float
  | _ => .int

/-- The size of a type in bytes (R125). -/
def tySize (ty : BitVec 4) : Nat :=
  match ty.toNat with
  | 0 | 1 | 5 | 13 => 1
  | 2 | 6 | 14 => 2
  | 4 | 8 | 10 | 12 => 8
  | _ => 4

/-- The width of a type in bits; a BOOL is one bit (R125, R126). -/
def tyWidth (ty : BitVec 4) : Nat := if ty = 0 then 1 else 8 * tySize ty

/-- Whether a type is a signed integer (R125). -/
def tySigned (ty : BitVec 4) : Bool :=
  match ty.toNat with
  | 1 | 2 | 3 | 4 | 11 | 12 => true
  | _ => false

/-- The opcode table of R127, first half. -/
def opTableA : List OpRow := [
  ⟨0x00, "NOP", .Z, true, some 1, some 1, some 1, false, false⟩,
  ⟨0x01, "MOV", .RR, true, some 1, some 1, some 1, false, false⟩,
  ⟨0x02, "LIMM", .L, true, some 1, some 1, some 1, false, false⟩,
  ⟨0x03, "ADD", .RR, true, some 1, some 3, some 3, false, true⟩,
  ⟨0x04, "ADDI", .RI, true, some 1, none, none, false, true⟩,
  ⟨0x05, "SUB", .RR, true, some 1, some 3, some 3, false, true⟩,
  ⟨0x06, "NEG", .RR, true, some 1, some 1, some 1, false, true⟩,
  ⟨0x07, "ABS", .RR, true, some 1, some 1, some 1, false, true⟩,
  ⟨0x08, "MIN", .RR, true, some 1, some 2, some 2, false, false⟩,
  ⟨0x09, "MAX", .RR, true, some 1, some 2, some 2, false, false⟩,
  ⟨0x0A, "LIM", .RR, true, some 1, some 2, some 2, false, false⟩,
  ⟨0x0B, "MUL", .RR, true, some 3, some 3, some 4, false, true⟩,
  ⟨0x0C, "MAC", .RR, true, some 3, some 4, some 5, false, true⟩,
  ⟨0x0D, "DIV", .RR, false, some 20, some 12, some 20, false, true⟩,
  ⟨0x0E, "MOD", .RR, false, some 20, none, none, false, true⟩,
  ⟨0x0F, "SQRT", .RR, false, none, some 12, some 20, false, false⟩,
  ⟨0x10, "AND", .RR, true, some 1, none, none, true, false⟩,
  ⟨0x11, "OR", .RR, true, some 1, none, none, true, false⟩,
  ⟨0x12, "XOR", .RR, true, some 1, none, none, true, false⟩,
  ⟨0x13, "NOT", .RR, true, some 1, none, none, true, false⟩,
  ⟨0x14, "SHL", .RR, true, some 1, none, none, false, false⟩,
  ⟨0x15, "SHR", .RR, true, some 1, none, none, false, false⟩,
  ⟨0x16, "CMP", .RR, true, some 1, some 2, some 2, false, false⟩,
  ⟨0x17, "CMPI", .CI, true, some 1, some 2, some 2, false, false⟩,
  ⟨0x18, "SEL", .RR, true, some 1, some 1, some 1, false, false⟩,
  ⟨0x19, "CVT", .RR, true, some 1, some 3, some 3, false, false⟩]

/-- The opcode table of R127, second half. The cycles of SLACK are the program's SLACK_CYC. -/
def opTableB : List OpRow := [
  ⟨0x1A, "LD", .M, false, some 2, some 2, some 2, false, false⟩,
  ⟨0x1B, "ST", .M, false, some 1, some 1, some 1, false, false⟩,
  ⟨0x1C, "LOOP", .LP, false, some 1, some 1, some 1, false, false⟩,
  ⟨0x1D, "BR", .B, false, some 1, some 1, some 1, false, false⟩,
  ⟨0x1E, "BRF", .B, false, some 1, some 1, some 1, false, false⟩,
  ⟨0x1F, "BRK", .B, false, some 1, some 1, some 1, false, false⟩,
  ⟨0x20, "TON", .FB, false, some 6, some 6, some 6, false, false⟩,
  ⟨0x21, "TOF", .FB, false, some 6, some 6, some 6, false, false⟩,
  ⟨0x22, "TP", .FB, false, some 6, some 6, some 6, false, false⟩,
  ⟨0x23, "RTRIG", .FB, false, some 2, some 2, some 2, false, false⟩,
  ⟨0x24, "FTRIG", .FB, false, some 2, some 2, some 2, false, false⟩,
  ⟨0x25, "CTU", .FB, false, some 4, some 4, some 4, false, false⟩,
  ⟨0x26, "CTD", .FB, false, some 4, some 4, some 4, false, false⟩,
  ⟨0x27, "PT1", .FB, false, some 12, some 12, some 12, false, false⟩,
  ⟨0x28, "RAMP", .FB, false, some 10, some 10, some 10, false, false⟩,
  ⟨0x29, "PID", .FB, false, some 40, some 40, some 40, false, false⟩,
  ⟨0x2A, "QMRG", .RR, true, some 1, some 1, some 1, false, false⟩,
  ⟨0x2B, "QTST", .RR, true, some 1, some 1, some 1, false, false⟩,
  ⟨0x2C, "QSET", .RI, true, some 1, some 1, some 1, false, false⟩,
  ⟨0x2D, "LAUNCH", .A, false, some 2, some 2, some 2, false, false⟩,
  ⟨0x2E, "EVREC", .E, false, some 4, some 4, some 4, false, false⟩,
  ⟨0x2F, "XMIT", .X, false, some 1, some 1, some 1, false, false⟩,
  ⟨0x30, "SLACK", .Z, false, some 0, some 0, some 0, false, false⟩,
  ⟨0x31, "END", .Z, false, some 1, some 1, some 1, false, false⟩,
  ⟨0x32, "GETF", .RR, true, some 1, some 1, some 1, false, false⟩]

/-- The row of an opcode; opcodes 0x33 to 0x3F have none (R127). -/
def opRow (op : Nat) : Option OpRow := (opTableA ++ opTableB).find? (fun r => r.op == op)

/-- The cycle count of an opcode at a type code; none where the opcode refuses the class (R127, R128). -/
def opCycles (op : Nat) (ty : BitVec 4) : Option Nat :=
  match opRow op with
  | none => none
  | some r =>
    match tyClass ty with
    | .float => if ty = 9 then r.cReal else r.cLreal
    | .bit => if r.intOnly then none else r.cInt
    | .int => if r.bitOnly then none else r.cInt

/-- The cycle count of CVT: 1 between int and bit, 3 with float (R127). -/
def cvtCycles (dst src : BitVec 4) : Nat :=
  if tyClass dst = .float ∨ tyClass src = .float then 3 else 1

/-- Whether a type class is admitted by the opcode and the unused fields of an RR word are zero
(R124, R127, R128, R143); FN bit 0 (SAT) of a float ADD, SUB, MUL or MAC, for which R128 gives it no meaning, counts as an unused field (DESIGN
CHOICE, assumption 169). -/
def rrOk (op : Nat) (f : RR) : Bool :=
  (opCycles op f.ty).isSome &&
  (match op with
   | 0x01 => f.rb == 0 && f.fn == 0
   | 0x03 | 0x05 | 0x0B | 0x0C => f.fn == 0 || (f.fn == 1 && tyClass f.ty == .int)
   | 0x06 | 0x07 | 0x0F | 0x13 => f.rb == 0 && f.fn == 0
   | 0x0A => f.rb != 31 && f.fn == 0
   | 0x14 => tyClass f.ty != .float && (f.fn == 0 || f.fn == 2)
   | 0x15 => tyClass f.ty != .float && (f.fn == 0 || f.fn == 1 || f.fn == 2)
   | 0x16 => decide (f.fn.toNat ≤ 5)
   | 0x19 => f.rb == 0 && decide (f.fn.toNat ≤ 15)
   | 0x2A => f.ty == 0 && f.fn == 0
   | 0x2B => f.rb == 0 && f.ty == 0 && decide (f.fn.toNat ≤ 1)
   | 0x32 => f.ra == 0 && f.rb == 0 && f.ty == 0 && decide (f.fn.toNat ≤ 1)
   | _ => f.fn == 0)

/-- Whether an instruction of any format is defined with its unused fields zero (R124, R127, R143). -/
def fieldsOk (op : Nat) (f : TFields) : Bool :=
  match opRow op with
  | none => false
  | some r =>
    match r.fmt, f with
    | .Z, .z => true
    | .RR, .rr f => rrOk op f
    | .RI, .ri f => if op = 0x04 then (opCycles op f.ty).isSome else f.ra == 0 && f.ty == 0
    | .CI, .ci f => decide (f.cond.toNat ≤ 5)
    | .L, .l _ => true
    | .M, .m _ => true
    | .B, .b f => if op = 0x1F then f.disp == 0 else f.disp != 0 && (op == 0x1E || f.ra == 0)
    | .LP, .lp _ => true
    | .FB, .fb f => if op = 0x23 ∨ op = 0x24 ∨ op = 0x27 ∨ op = 0x28 then f.rb == 0 else true
    | .A, .a _ => true
    | .X, .x _ => true
    | .E, .e f => decide (f.sev.toNat ≤ 4)
    | _, _ => false

/-- The opcode OP in bits [31:26] over the other 26 bits (R124). -/
def packOp (op : BitVec 6) (body : BitVec 26) : Reg32 := op ++ body

/-- The word or two words of an instruction (R124). -/
def encodeTile (op : BitVec 6) : TFields → Reg32 × Option Reg32
  | .z => (packOp op 0, none)
  | .rr f => (packOp op (f.rd ++ f.ra ++ f.rb ++ f.ty ++ f.fn), none)
  | .ri f => (packOp op (f.rd ++ f.ra ++ f.ty ++ f.imm), none)
  | .ci f => (packOp op (f.rd ++ f.ra ++ f.ty ++ f.cond ++ f.imm), none)
  | .l f => (packOp op (f.rd ++ (0#5) ++ f.imm.extractLsb' 32 16), some (f.imm.extractLsb' 0 32))
  | .m f => (packOp op (f.r ++ f.ra ++ f.ty ++ f.off), none)
  | .b f => (packOp op (f.ra ++ (0#5) ++ f.disp), none)
  | .lp f => (packOp op (f.ra ++ f.bound ++ f.len), none)
  | .fb f => (packOp op (f.rd ++ f.ra ++ f.rb ++ f.inst), none)
  | .a ra => (packOp op (ra ++ (0#21)), none)
  | .x n => (packOp op ((0#13) ++ n), none)
  | .e f => (packOp op (f.ra ++ f.sev ++ (0#2) ++ f.code), none)

/-- The fields of a word in a given format; `hi` is the word above it, read by LIMM alone. A word whose
always-zero bits are not zero has none (R124). -/
def fieldsOf (fmt : Fmt) (w hi : Reg32) : Option TFields :=
  match fmt with
  | .Z => if w.extractLsb' 0 26 = 0 then some .z else none
  | .RR => some (.rr ⟨w.extractLsb' 21 5, w.extractLsb' 16 5, w.extractLsb' 11 5, w.extractLsb' 7 4, w.extractLsb' 0 7⟩)
  | .RI => some (.ri ⟨w.extractLsb' 21 5, w.extractLsb' 16 5, w.extractLsb' 12 4, w.extractLsb' 0 12⟩)
  | .CI => some (.ci ⟨w.extractLsb' 21 5, w.extractLsb' 16 5, w.extractLsb' 12 4, w.extractLsb' 9 3, w.extractLsb' 0 9⟩)
  | .L => if w.extractLsb' 16 5 = 0 then some (.l ⟨w.extractLsb' 21 5, w.extractLsb' 0 16 ++ hi⟩) else none
  | .M => some (.m ⟨w.extractLsb' 21 5, w.extractLsb' 16 5, w.extractLsb' 12 4, w.extractLsb' 0 12⟩)
  | .B => if w.extractLsb' 16 5 = 0 then some (.b ⟨w.extractLsb' 21 5, w.extractLsb' 0 16⟩) else none
  | .LP => some (.lp ⟨w.extractLsb' 21 5, w.extractLsb' 10 11, w.extractLsb' 0 10⟩)
  | .FB => some (.fb ⟨w.extractLsb' 21 5, w.extractLsb' 16 5, w.extractLsb' 11 5, w.extractLsb' 0 11⟩)
  | .A => if w.extractLsb' 0 21 = 0 then some (.a (w.extractLsb' 21 5)) else none
  | .X => if w.extractLsb' 13 13 = 0 then some (.x (w.extractLsb' 0 13)) else none
  | .E => if w.extractLsb' 16 2 = 0 then some (.e ⟨w.extractLsb' 21 5, w.extractLsb' 18 3, w.extractLsb' 0 16⟩) else none

/-- The instruction of a word, or none where the opcode or an always-zero field is not defined (R124, R127). -/
def decodeTile (w hi : Reg32) : Option TInstr :=
  let op : BitVec 6 := w.extractLsb' 26 6
  match opRow op.toNat with
  | none => none
  | some r =>
    match fieldsOf r.fmt w hi with
    | none => none
    | some f => if fieldsOk op.toNat f then some ⟨op, f⟩ else none

end Sys2Proof
end

