-- ==== Sys2Proof/Machine/Codes.lean ====
section
/-! DEFINITION. Machine/Codes.lean: the codes of the manual's names: statuses (R229), severities, sources and records (R466, R470, R471),
module states (R201), qualities (R205), types of an image's records (R71, R76). -/

namespace Sys2Proof

/-- The code of a status (R229). -/
def Status.code : Status → BitVec 8
  | .ok => 0x00 | .deferred => 0x01 | .retry => 0x02
  | .refusedCapacity => 0x10 | .refusedPolicy => 0x11 | .refusedPower => 0x12 | .refusedFrozen => 0x13
  | .unitReset => 0x20 | .epochStale => 0x21 | .timeout => 0x22 | .remoteError => 0x23 | .holdViolation => 0x24
  | .authRequired => 0x30 | .versionFloor => 0x31 | .busyOtherImage => 0x32 | .checkFailed => 0x33
  | .signatureFailed => 0x34 | .incompatible => 0x35 | .notApplicable => 0x36 | .internal => 0xFF

/-- The status of a code; a reserved one does not occur (R229). -/
def statusOfCode (c : BitVec 8) : Status :=
  ([Status.ok, .deferred, .retry, .refusedCapacity, .refusedPolicy, .refusedPower, .refusedFrozen, .unitReset, .epochStale, .timeout,
    .remoteError, .holdViolation, .authRequired, .versionFloor, .busyOtherImage, .checkFailed, .signatureFailed, .incompatible,
    .notApplicable].find? (fun s => s.code == c)).getD .internal

/-- The number of a severity (R466). -/
def Sev.num : Sev → Nat
  | .trace => 0 | .info => 1 | .notice => 2 | .warning => 3 | .error => 4 | .critical => 5 | .safety => 6 | .security => 7

/-- The severity of a number; numbers above 7 do not occur. -/
def Sev.ofNum : Nat → Sev
  | 0 => .trace | 1 => .info | 2 => .notice | 3 => .warning | 4 => .error | 5 => .critical | 6 => .safety | _ => .security

/-- The number of a module state (R201). -/
def MState.num : MState → Nat
  | .boot => 0 | .config => 1 | .stop => 2 | .run => 3 | .hold => 4 | .safeHalt => 5 | .dormant => 6

/-- PORT_ID of a port (R76). -/
def Port.num : Port → Nat
  | .ecnA => 0 | .ecnB => 1 | .maint => 2 | .mvb => 3 | .can0 => 4 | .can1 => 5 | .glL => 6 | .glR => 7

/-- The port of a PORT_ID (R76). -/
def Port.ofNat? : Nat → Option Port
  | 0 => some .ecnA | 1 => some .ecnB | 2 => some .maint | 3 => some .mvb
  | 4 => some .can0 | 5 => some .can1 | 6 => some .glL | 7 => some .glR | _ => none

/-- The eight ports in order of PORT_ID. -/
def Port.all : List Port := [.ecnA, .ecnB, .maint, .mvb, .can0, .can1, .glL, .glR]

/-- UNIT number (R230). -/
def TUnit.num : TUnit → Nat
  | .ethA => 1 | .ethB => 2 | .ethM => 3 | .mvb => 4 | .can0 => 5 | .can1 => 6 | .gw => 7
  | .glL => 8 | .glR => 9 | .peerL => 10 | .peerR => 11 | .runtime => 12 | .fabric => 13

/-- The TXE unit of a port (R230). -/
def Port.unit : Port → TUnit
  | .ecnA => .ethA | .ecnB => .ethB | .maint => .ethM | .mvb => .mvb
  | .can0 => .can0 | .can1 => .can1 | .glL => .glL | .glR => .glR

/-- The record sources of R470 that are not tiles or tasks. -/
def srcBootRom : BitVec 12 := 0x001

/-- Trusted kernel (R470). -/
def srcTk : BitVec 12 := 0x002

/-- Canary (R470). -/
def srcCanary : BitVec 12 := 0x003

/-- Event recorder (R470). -/
def srcEvr : BitVec 12 := 0x004

/-- Clocks (R470). -/
def srcClk : BitVec 12 := 0x010

/-- Power governor (R470). -/
def srcPgv : BitVec 12 := 0x020

/-- Resets and Cullet (R470). -/
def srcRst : BitVec 12 := 0x030

/-- Cycle timer (R470). -/
def srcCyc : BitVec 12 := 0x040

/-- Modes, forces and configuration image (R470). -/
def srcGlb : BitVec 12 := 0x050

/-- A tile (R470). -/
def srcTile (t : TileNo) : BitVec 12 := BitVec.ofNat 12 (0x100 + t.val)

/-- The fabric common page (R470). -/
def srcFab : BitVec 12 := 0x130

/-- A task's EVREC record, by writer code 0x00 to 0x2F (R470). -/
def srcTask (code : Nat) : BitVec 12 := BitVec.ofNat 12 (0x200 + code)

/-- The image bus arbiter and PIM (R470). -/
def srcPima : BitVec 12 := 0x300

/-- The TXE (R470). -/
def srcTxe : BitVec 12 := 0x310

/-- A port's own source (R470). -/
def Port.src : Port → BitVec 12
  | .ecnA => 0x400 | .ecnB => 0x401 | .maint => 0x402 | .mvb => 0x410
  | .can0 => 0x420 | .can1 => 0x421 | .glL => 0x520 | .glR => 0x521

/-- The gateway (R470). -/
def srcGw : BitVec 12 := 0x430

/-- The time base (R470). -/
def srcTime : BitVec 12 := 0x500

/-- The replica group (R470). -/
def srcGrp : BitVec 12 := 0x510

/-- The safety island (R470). -/
def srcSafe : BitVec 12 := 0x600

/-- Field update (R470). -/
def srcUpd : BitVec 12 := 0x700

/-- Sessions, calls and key store (R470). -/
def srcTkmb : BitVec 12 := 0x710

/-- CODE of a record: kind in [15:12], detail in [11:0] (R471). -/
def recCode (kind detail : Nat) : BitVec 16 := BitVec.ofNat 16 (kind * 4096 + detail % 4096)

/-- A STATE record's code. -/
def cState (d : Nat) : BitVec 16 := recCode 0 d

/-- A FAULT record's code. -/
def cFault (d : Nat) : BitVec 16 := recCode 1 d

/-- A CLEARED record's code. -/
def cCleared (d : Nat) : BitVec 16 := recCode 2 d

/-- A REFUSED record's code. -/
def cRefused (st : Status) : BitVec 16 := recCode 3 st.code.toNat

/-- A FAILED record's code. -/
def cFailed (st : Status) : BitVec 16 := recCode 4 st.code.toNat

/-- A COMMAND record's code. -/
def cCommand (call : Nat) : BitVec 16 := recCode 5 call

/-- A CHANGE record's code. -/
def cChange (d : Nat) : BitVec 16 := recCode 6 d

/-- A RECORDER record's code. -/
def cRecorder (d : Nat) : BitVec 16 := recCode 15 d

/-- The rank of a role. -/
def Role.rank : Role → Nat
  | .none => 0 | .viewer => 1 | .maintainer => 2 | .engineer => 3 | .safetyEngineer => 4

/-- Big-endian bytes, n of them, of a number (R5). -/
def beBytes (n x : Nat) : List Byte := (leBytes n x).reverse

/-- When, under which tag and which epochs a posted write was issued: MCC, target unit epoch, fabric epoch at posting (R235). -/
structure Issue where
  tag : BitVec 18 := 0
  mcc : BitVec 32 := 0
  unitEpoch : BitVec 4 := 0
  fabEpoch : BitVec 4 := 0
  deriving DecidableEq, Repr

/-- The primary quality codes of R205. -/
def qGood : BitVec 4 := 0x0

/-- UNINIT (R205). -/
def qUninit : BitVec 4 := 0x1

/-- STALE (R205). -/
def qStale : BitVec 4 := 0x2

/-- COMM_LOST (R205). -/
def qCommLost : BitVec 4 := 0x3

/-- SUBST (R205). -/
def qSubst : BitVec 4 := 0x4

/-- WRITE_FAILED (R205). -/
def qWriteFailed : BitVec 4 := 0x5

/-- SINGLE_PLANE (R205). -/
def qSinglePlane : BitVec 4 := 0x6

/-- PLANE_MISMATCH (R205). -/
def qPlaneMismatch : BitVec 4 := 0x7

/-- RANGE (R205). -/
def qRange : BitVec 4 := 0x8

/-- VOTE_MINORITY (R205). -/
def qVoteMinority : BitVec 4 := 0x9

/-- INVALID (R205). -/
def qInvalid : BitVec 4 := 0xF

/-- The primary code of a quality byte. -/
def qCode (q : Byte) : BitVec 4 := q.extractLsb' 0 4

/-- The rank of a primary code in the precedence of R138, highest rank first in the table. -/
def qRank (c : BitVec 4) : Nat :=
  match c.toNat with
  | 0 => 0 | 6 => 1 | 4 => 2 | 8 => 3 | 5 => 4 | 9 => 5 | 7 => 6 | 1 => 7 | 2 => 8 | 3 => 9 | _ => 10

/-- A code as it is stored: the reserved codes 0xA to 0xE become INVALID (R138, R207). -/
def qNorm (c : BitVec 4) : BitVec 4 := if 10 ≤ c.toNat ∧ c.toNat ≤ 14 then qInvalid else c

/-- The code of higher precedence of two (R138). -/
def qMax (a b : BitVec 4) : BitVec 4 := if qRank (qNorm a) < qRank (qNorm b) then qNorm b else qNorm a

/-- A quality byte from its code and flags (R205, R206). -/
def mkQ (code : BitVec 4) (forced sim safe changed : Bool) : Byte :=
  b2w (w := 1) changed ++ b2w (w := 1) safe ++ b2w (w := 1) sim ++ b2w (w := 1) forced ++ code

/-- The 4-bit type code of a SIGMAP record (R125). -/
def SigRec.t (r : SigRec) : BitVec 4 := r.ty.extractLsb' 0 4

/-- KIND of a record (R76). -/
def IoRec.kind : IoRec → Nat
  | .port .. => 1 | .pdPub .. => 2 | .pdSub .. => 3 | .mdSession .. => 4 | .outGroup .. => 5 | .mvbRole .. => 6
  | .mvbPort .. => 7 | .mvbMfl .. => 8 | .canPort .. => 9 | .canId .. => 10 | .node .. => 11 | .safeIo .. => 12
  | .updNeighbour .. => 13 | .undefined k => k

/-- The maximum number of records of a KIND; 0 for an undefined one (R76). -/
def ioKindMax : Nat → Nat
  | 1 => 8 | 2 => 4096 | 3 => 4096 | 4 => 256 | 5 => 64 | 6 => 1 | 7 => 4096 | 8 => 4096 | 9 => 2 | 10 => 1024
  | 11 => 1 | 12 => 4 | 13 => 8 | _ => 0

end Sys2Proof
end

