-- ==== Sys2Proof/Machine/StSys.lean ====
section
/-! DEFINITION. Machine/StSys.lean: the part of State that is the time base (13_time_base), the power governor, the resets
and the Cullet (18_power_resets_retention). A field's default is its value at reset. -/

namespace Sys2Proof.Machine

/-- TIME_STATUS.STATE (R313, R322). -/
inductive TbState where
  | free | acquiring | locked | holdover
  deriving DecidableEq, Repr

/-- TIME_STATUS.STATE number (R322). -/
def TbState.num : TbState → Nat
  | .free => 0 | .acquiring => 1 | .locked => 2 | .holdover => 3

/-- The dataset a master announces, in the fields IEEE 1588 compares, and its timeSource, by default INTERNAL_OSCILLATOR (R309, R319, assumption 213). -/
structure PtpDs where
  prio1 : Byte := 0x80
  cls : Byte := 248
  acc : Byte := 0xFE
  var : BitVec 16 := 0xFFFF
  prio2 : Byte := 0x80
  id : Word := 0
  timeSource : Byte := 0xA0
  deriving DecidableEq, Repr

/-- A PTP message as the time base uses it (R307, R310): a Sync carries the master's corrected origin time, its Follow_Up taken
in, a Pdelay_Resp the two times of the peer; a delay request names its sender's clockIdentity and the answer the requester's (R308). `other` stands
for management and signalling. -/
inductive PtpMsg where
  | announce (ds : PtpDs) (logSync logAnnounce : Int)
  | sync (id : Word) (t1 : Word)
  | delayReq (id : Word)
  | delayResp (id t4 : Word)
  | pdelayReq (id : Word)
  | pdelayResp (id t2 t3 : Word)
  | other
  deriving DecidableEq, Repr

/-- One plane's PTP clock: the best master's dataset, mean path delay in ns, corrections in force, whether the module is
grandmaster there, the last measured offset, the times of the last Sync and of the own delay request; `gmId` is the clockIdentity that TIME_GM shows,
`timedOut` that its announce receipt timeout has passed without a master (R309, R310, R322). -/
structure PtpPlane where
  best : Option PtpDs := none
  path : Int := 0
  egress : BitVec 16 := 0
  ingress : BitVec 16 := 0
  asGm : Bool := false
  offset : Option Int := none
  sync : Option (Word × Word) := none
  req : Option Word := none
  restartDue : Bool := false
  gmId : Word := 0
  timedOut : Bool := false
  deriving DecidableEq, Repr

/-- A step waiting for its boundary: `refusedCase` 0 one of confirmed offsets, else the case by which a refused one is accepted (R314, R315, R317). -/
structure StepDue where
  target : Mcc
  refusedCase : Nat
  keyId : BitVec 128 := 0
  deriving DecidableEq, Repr

/-- The time base (R322). `last3` holds the three measurements before the present one, `kept` the newest ones that stand
in a row within 1,000 ns of one another, `gmAt` when the module became grandmaster, `lockRun` those within 100 ns, `confirmed` the offset last confirmed, `holdFrom` the operating time at which a holdover
began, `measures` the number of measurements so far, `frac` the part of a ns that the fractional correction has gathered, in 10^-9 ns
(R52), `phasePpb` the phase term of the slew (R312), `lockBase` and `lockFrom` the operating
time in LOCKED before and since its present start, `freqHist` the frequency estimates of its last 64 s (R318). -/
structure TimeBase where
  ttc : Word := 0
  frac : Int := 0
  acceptPending : Bool := false
  planeDiff : Bool := false
  selB : Bool := false
  stepRefused : Bool := false
  valid : Bool := false
  state : TbState := .free
  offset : Int := 0
  freqPpb : Int := 0
  phasePpb : Int := 0
  hold : Reg32 := 0
  pendingUs : Int := 0
  refusedCnt : BitVec 16 := 0
  acceptedCnt : BitVec 16 := 0
  ptpCfg : Reg32 := 0x00808000
  asymA : Int := 0
  asymB : Int := 0
  a : PtpPlane := {}
  b : PtpPlane := {}
  syncIn : Word := 0
  discards : BitVec 16 := 0
  syncs : BitVec 16 := 0
  last3 : List Int := []
  kept : List Int := []
  gmAt : Word := 0
  confirmed : Option Int := none
  lockRun : Nat := 0
  diffRun : Nat := 0
  sameRun : Nat := 0
  stepDue : Option StepDue := none
  holdFrom : Option Nat := none
  measures : Nat := 0
  freqHist : List (Nat × Int) := []
  lockBase : Nat := 0
  lockFrom : Option Nat := none
  deriving DecidableEq, Repr

/-- One accounted unit of the governor: declared and measured charge, windows of history (R445, R448). -/
structure PwrUnit where
  declared : Nat := 0
  windows : List Nat := []
  warned : Bool := false
  on : Bool := false
  deriving DecidableEq, Repr

/-- The power governor (R463). -/
structure Pgv where
  limit : BitVec 9 := 0x1E0
  tokens : BitVec 9 := 0
  reserved : BitVec 9 := 0
  portsCharge : BitVec 9 := 0
  clusterCharge : BitVec 9 := 0
  dmaCharge : BitVec 8 := 0
  headroom : Int := 0
  acStatus : Byte := 0
  granted : BitVec 3 := 0
  step : BitVec 3 := 7
  portRefused : Byte := 0
  portPowered : Byte := 0
  peak : BitVec 9 := 0
  input : BitVec 9 := 0
  currentMa : BitVec 16 := 0
  voltMv : BitVec 16 := 0
  unitSel : BitVec 5 := 0
  portSheds : BitVec 16 := 0
  acDown : BitVec 16 := 0
  edgeC : BitVec 8 := 0
  derating : Bool := false
  thermStep : BitVec 3 := 7
  units : List PwrUnit := List.replicate 18 {}
  overRun : Nat := 0
  stalled : Bool := false
  dmaPaused : Nat := 0
  dmaStreams : Nat := 0
  stable : Nat := 0
  deriving DecidableEq, Repr

/-- What caused the last block reset (R464). -/
inductive ResetSource where
  | none | command | watchdog | clockFault | escalation | activation | shedding | uncorrectable | deadline | class3
  deriving DecidableEq, Repr

/-- RST_CAUSE.SOURCE number (R464). -/
def ResetSource.num : ResetSource → Nat
  | .none => 0 | .command => 1 | .watchdog => 2 | .clockFault => 3 | .escalation => 4 | .activation => 5
  | .shedding => 6 | .uncorrectable => 7 | .deadline => 8 | .class3 => 9

/-- The resets (R464). `wdogEnd` is the TTC at which the armed watchdog expires, `wdogStall` that at which a stall suspended it. `moduleDue` is a recognised MODULE reset that has not taken effect (R453), `bootReason` as
TKMB_STATUS shows it (R451), `portHeld` the units in PORT reset by PORT_ID, bit 8 the gateway, `portNoFw` the ports whose firmware passes in no
slot (R416). -/
structure Rst where
  dormantPending : Bool := false
  dormantMcc : Mcc := 0
  wdogArmed : Bool := false
  wdogEnd : Word := 0
  wdogStall : Option Word := none
  source : ResetSource := .none
  kind : BitVec 4 := 0
  runtimeCnt : BitVec 16 := 0
  portCnt : BitVec 16 := 0
  wdogMs : BitVec 16 := 0x07D0
  ctrlUnit : BitVec 4 := 0
  retainMcc : Mcc := 0
  countersRepaired : Bool := false
  bootctlRepaired : Bool := false
  cstoreRepaired : Bool := false
  retainFallback : Bool := false
  retainLost : Bool := false
  moduleDue : Bool := false
  clusterHeld : Bool := true
  clusterLocked : Bool := false
  runtimeReady : Bool := false
  lastFaultReset : Option Nat := none
  faultLed1Hz : Bool := false
  portHeld : BitVec 9 := 0x1FF
  portNoFw : Byte := 0
  bootReason : BitVec 2 := 0
  deriving DecidableEq, Repr

/-- The counters record (R458). -/
structure Counters where
  seq : Reg32 := 0
  optime : BitVec 40 := 0
  lastTime : Word := 0
  pwrCycles : Reg32 := 0
  moduleCnt : BitVec 16 := 0
  canaryCnt : BitVec 16 := 0
  keystoreFloor : Reg32 := 0
  canaryFs : BitVec 16 := 0
  canaryCause : Byte := 0
  epoch : BitVec 4 := 0
  cleanEnd : Bool := false
  bootPending : BitVec 5 := 0
  canaryRstT : List Nat := []
  deriving DecidableEq, Repr

/-- A boot-control entry of one image type (R424): slot 0 A, 1 B. -/
structure BootEnt where
  slotB : Bool := false
  state : Nat := 0
  fails : Nat := 0
  lehrLeft : Reg32 := 0
  version : Reg32 := 0
  floor : Reg32 := 0
  deriving DecidableEq, Repr

/-- Two copies of a record, A and B: each is absent when its MAGIC, CRC or ECC is not good, else SEQ and content (R459). -/
structure TwoCopy (α : Type) where
  a : Option (Reg32 × α) := none
  b : Option (Reg32 × α) := none
  deriving DecidableEq, Repr

/-- A C-field store entry (R458). -/
structure CField where
  addr : Reg32
  written : Reg32
  value : Reg32
  deriving DecidableEq, Repr

/-- A retained entry: SID, TYPE and value (R461). -/
structure RetEnt where
  sid : Sid
  ty : Byte
  val : Word
  deriving DecidableEq, Repr

/-- A retained generation (R461). -/
structure RetGen where
  mcc : Mcc
  hash : Hash
  ents : List RetEnt
  deriving DecidableEq, Repr

/-- The Cullet: what survives power (R458). `optime` is the operating
time in 0.1 s with `opNs` ns of the running tenth, from which the counters record is written. -/
structure Cullet where
  optime : BitVec 40 := 0
  opNs : Nat := 0
  pwrCycles : Reg32 := 0
  counters : TwoCopy Counters := {}
  cur : Counters := {}
  bootctl : TwoCopy (List BootEnt) := {}
  boot : List BootEnt := List.replicate 5 {}
  cstore : TwoCopy (List CField) := {}
  cfields : List CField := []
  retained : TwoCopy RetGen := {}
  deriving DecidableEq, Repr

/-- The copy a reader takes: of the good copies the one with the later SEQ by signed difference (R459). -/
def TwoCopy.newer (t : TwoCopy α) : Option (Reg32 × α) :=
  match t.a, t.b with
  | none, y => y
  | x, none => x
  | some (i, x), some (j, y) => if before i j then some (j, y) else some (i, x)

/-- The older copy written with SEQ + 1 (R459). -/
def TwoCopy.write (t : TwoCopy α) (x : α) : TwoCopy α :=
  match t.a, t.b with
  | none, none => { t with a := some (1, x) }
  | some (i, _), none => { t with b := some (i + 1, x) }
  | none, some (j, _) => { t with a := some (j + 1, x) }
  | some (i, _), some (j, _) => if before i j then { t with a := some (j + 1, x) } else { t with b := some (i + 1, x) }

end Sys2Proof.Machine
end

