-- ==== Sys2Proof/Machine/StTxe.lean ====
section
/-! DEFINITION. Machine/StTxe.lean: the part of State that is the TXE and the image bus arbiters
(10_transactions_and_image_bus). A field's default is its value at reset. -/

namespace Sys2Proof.Machine

/-- An entry of the posted-write error log and of an error mailbox (R235). -/
structure FailEnt where
  tag : BitVec 18
  status : Status
  unit : TUnit
  issuer : Byte
  unitEpoch : BitVec 4
  fabEpoch : BitVec 4
  sid : Sid
  issueMcc : Mcc
  failMcc : Mcc
  addr : Reg32
  failTtc : Word
  deriving DecidableEq, Repr

/-- The 32 bytes of an entry, little-endian (R235). -/
def FailEnt.bytes (e : FailEnt) : List Byte :=
  leBytes 4 e.tag.toNat ++ [e.status.code, BitVec.ofNat 8 e.unit.num, e.issuer, e.unitEpoch ++ e.fabEpoch] ++
  leBytes 4 e.sid.toNat ++ leBytes 4 e.issueMcc.toNat ++ leBytes 4 e.failMcc.toNat ++ leBytes 4 e.addr.toNat ++
  leBytes 8 e.failTtc.toNat

/-- The requester classes (R224). -/
inductive TxClass where
  | pd | md | bridge | group | dma | maint
  deriving DecidableEq, Repr

/-- The number of a class (R224). -/
def TxClass.num : TxClass → Nat
  | .pd => 0 | .md => 1 | .bridge => 2 | .group => 3 | .dma => 4 | .maint => 5

/-- An atomic function of SIG_ATOMIC (R227). -/
inductive AtomFn where
  | cas | addSat | or | and
  deriving DecidableEq, Repr

/-- One signal write or doorbell of a reception (R209, R293); `keep` as in a staging entry. -/
structure RxWrite where
  sid : Sid
  val : Word := 0
  code : BitVec 4 := 0
  doorbell : Bool := false
  keep : Bool := false
  deriving DecidableEq, Repr

/-- The SDTv2 trailer of a data set: user data version, safe sequence counter and safety code, with the verdict of the safety code over the
bytes as received, whose arithmetic IEC 61375-2-3 Annex B owns (R258, R263). -/
structure SdtTrailer where
  codeOk : Bool := true
  ssc : Reg32 := 0
  udv : BitVec 16 := 0
  code : Reg32 := 0
  deriving DecidableEq, Repr

/-- An accepted data set of a safe subscription with its trailer, as its copy area takes it (R371); `index` is the PD_SUB record's. -/
structure SafeCopy where
  index : Nat
  data : List Byte
  tr : SdtTrailer := {}
  deriving DecidableEq, Repr

/-- A reception that waits for a tag in its port's receive buffer (R225). -/
structure RxWait where
  port : Port
  cls : TxClass
  writes : List RxWrite
  copy : Option SafeCopy := none
  deriving DecidableEq, Repr

/-- What a tag in flight is for. -/
inductive TagReq where
  | pull (sub : Nat)
  | mdRequest (session expected got : Nat) (id : BitVec 128) (len : Nat)
  | mdReceive (session : Nat) (addr : Word) (len : Nat)
  | mdSend (session len : Nat)
  | atomic (sid : Sid) (fn : AtomFn) (operand compare : Word)
  | sigWrite (sid : Sid) (val : Word)
  | dma (ver : Mcc) (addr : Word) (count : Nat)
  | dump
  | mvbRead (port : Nat) (addr : Word) (len : Nat) (sem : Nat)
  | mvbWrite (port : Nat) (data : List Byte) (sem : Nat)
  | canSend (ident : Reg32) (data : List Byte) (fd brs : Bool) (sem : Nat)
  | canRecv (ident : Reg32) (addr : Word) (len sem : Nat)
  | gwSem (unit sem first last : Nat)
  | gwSemRel (sem : Nat)
  | poll (entry : Nat)
  | glRead (off len : Nat) (addr : Word) (sem : Nat)
  | glWrite (off : Nat) (data : List Byte) (sem : Nat)
  | glSem (sem first last : Nat)
  | glSemRel (sem : Nat)
  | glDoorbell (val : Reg32)
  | reception (x : RxWait)
  deriving DecidableEq, Repr

/-- A tag in flight (R223, R231, R235): `ring` names the ring and REQ_ID of the submission it serves, if one; `sent` is clear while no frame of an
MD message has left; `again` marks one that waits to be reissued after a RETRY, `hold` an atomic operation that has its PIM hold (R241). -/
structure TagEnt where
  tag : BitVec 18
  unit : TUnit
  cls : TxClass
  req : TagReq
  ring : Option (Nat × BitVec 16) := none
  posted : Bool := false
  sent : Bool := true
  drop : Bool := false
  retries : Nat := 0
  again : Bool := false
  hold : Bool := false
  issueMcc : Mcc := 0
  fabEpoch : BitVec 4 := 0
  due : Option Word := none
  deriving DecidableEq, Repr

/-- A ring pair (R227, R247): `interim` marks an interim completion written for the entry at the head; `held` the
completion records that wait for room in the completion queue. -/
structure Ring where
  base : Word := 0
  enable : Bool := false
  size : BitVec 5 := 0
  sqHead : BitVec 16 := 0
  sqTail : BitVec 16 := 0
  cqTail : BitVec 16 := 0
  cqHead : BitVec 16 := 0
  interim : Bool := false
  held : List (List Byte) := []
  deriving DecidableEq, Repr

/-- The TXE (R222 to R237, R247). `log` holds the posted-write error log, newest first, with the index of the newest;
`allocs` counts the tags allocated so far; `cool` the numbers that may not be issued again before a TTC (R232). -/
structure Txe where
  mail : List (Nat × FailEnt) := []
  safeMail : List (Nat × FailEnt) := []
  quota : List Nat := [256, 256, 128, 128, 64, 32]
  quotaNext : Option (List Nat) := none
  tags : List TagEnt := []
  cool : List (Nat × Word) := []
  allocs : Nat := 0
  epochs : List (BitVec 4) := List.replicate 13 0
  refused : BitVec 16 := 0
  deferred : BitVec 16 := 0
  stale : BitVec 16 := 0
  unitReset : BitVec 16 := 0
  timeout : BitVec 16 := 0
  orphan : BitVec 16 := 0
  log : List FailEnt := []
  newest : Nat := 0
  lost : BitVec 16 := 0
  rings : List Ring := List.replicate 3 {}
  rx : List RxWait := []
  noted : List Nat := []
  rxNoted : List Nat := []
  deriving DecidableEq, Repr

/-- The image bus arbiters (R238 to R246): `waits` holds FAB_MAX and OTHER_MAX of each bank. -/
structure Arb where
  holdMax : BitVec 7 := 0x10
  freeze : BitVec 16 := 0
  idle : BitVec 16 := 0
  quar : BitVec 16 := 0
  violCnt : BitVec 16 := 0
  violBanks : BitVec 16 := 0
  waits : List (BitVec 16 × BitVec 16) := List.replicate 16 (0, 0)
  deriving DecidableEq, Repr

end Sys2Proof.Machine
end

