-- ==== Sys2Proof/Machine/StEth.lean ====
section
/-! DEFINITION. Machine/StEth.lean: the part of State that is the Ethernet ports, TRDP, SDT and MD
(11_ethernet_ports_and_trdp). A field's default is its value at reset. -/

namespace Sys2Proof.Machine

/-- TRDP message types (R248). -/
inductive TrdpType where
  | pd | pr | pp | mn | mr | mp | mq | mc | me | pe
  deriving DecidableEq, Repr

/-- A TRDP header as rules name it (R259, R260). -/
structure TrdpHdr where
  fcsOk : Bool := true
  verOk : Bool := true
  mtype : TrdpType
  comId : Nat
  seq : Reg32 := 0
  etbTopo : Reg32 := 0
  opTopo : Reg32 := 0
  len : Nat := 0
  replyIp : Ip4 := 0
  session : BitVec 128 := 0
  deriving DecidableEq, Repr

/-- What a frame carries; of a PTP message its domainNumber and whether it comes under Ethertype 0x88F7 (R253, R307). -/
inductive EthPay where
  | pd (h : TrdpHdr) (data : List Byte) (sdt : SdtTrailer := {})
  | md (h : TrdpHdr) (data : List Byte) (more : Bool := false) (offset : Nat := 0)
  | arpRequest (ip : Ip4)
  | arpReply (ip : Ip4) (mac : Mac)
  | prpSupervision
  | ptp (m : PtpMsg) (domain : Byte := 0) (l2 : Bool := false)
  | host (data : List Byte)
  | unsupported
  deriving DecidableEq, Repr

/-- A frame at a port: addresses, VLAN, PCP, redundancy control trailer (LAN B or not, sequence number), length in
bytes (R253 to R257). -/
structure EthFrame where
  src : Mac := 0
  srcIp : Ip4 := 0
  dstIp : Ip4 := 0
  dstMac : Mac := 0
  vid : Option Nat := none
  pcp : Nat := 0
  rct : Option (Bool × BitVec 16) := none
  bytes : Nat := 64
  pay : EthPay
  deriving DecidableEq, Repr

/-- A frame in an egress queue: the publication it carries or the tag of the MD message, if one; whether it answers a pull, and whether its
telegram has been counted as sent on the other plane (R233, R259, R273). -/
structure TxFrame where
  frame : EthFrame
  pub : Option Nat := none
  tag : Option (BitVec 18) := none
  pull : Bool := false
  counted : Bool := false
  deriving DecidableEq, Repr

/-- One Ethernet port (R272): egress queues by traffic class, the running gate list entry, the host queue rings.
`txOk` is clear from link-up until the first boundary after it (R249). -/
structure EthPort where
  up : Bool := false
  downCnt : Byte := 0
  speed : BitVec 2 := 0
  enable : Bool := false
  rxCnt : Reg32 := 0
  fcs : BitVec 16 := 0
  filtered : BitVec 16 := 0
  txCnt : Reg32 := 0
  replaced : BitVec 16 := 0
  nonActive : BitVec 16 := 0
  gclCur : Nat := 0
  gclEndTtc : Word := 0
  gclSel : Byte := 0
  txOk : Bool := false
  queues : List (List TxFrame) := List.replicate 8 []
  hqTx : Ring := {}
  hqRx : Ring := {}
  deriving DecidableEq, Repr

/-- A sender's last accepted counter on a subscription, with the plane that delivered it and when (R260). -/
structure SenderCnt where
  src : Ip4
  seq : Reg32
  planeB : Bool
  last : Word := 0
  deriving DecidableEq, Repr

/-- A source MAC address of the node table: the sequence numbers passed, when its last frame came (R255). -/
structure PrpNode where
  mac : Mac
  seqs : List (BitVec 16) := []
  last : Word := 0
  deriving DecidableEq, Repr

/-- A safe copy, received or held for its twin: its data set and trailer, the telegram's sender and sequence counter, whether it is a Pp, its time
stamp; `due` is when the timer of a held one expires (R260, R263, R310). -/
structure HeldCopy where
  ssc : Reg32
  planeB : Bool
  data : List Byte
  due : Word
  tr : SdtTrailer := {}
  src : Ip4 := 0
  seq : Reg32 := 0
  pp : Bool := false
  stamp : Word := 0
  deriving DecidableEq, Repr

/-- The state of a subscription; `stamp` is the time stamp of its last accepted telegram (R260, R263, R273, R310). -/
structure SubStat where
  senders : List SenderCnt := []
  noted : List Ip4 := []
  held : Option HeldCopy := none
  consumed : Option Reg32 := none
  singleA : Nat := 0
  singleB : Nat := 0
  pfA : Bool := false
  pfB : Bool := false
  rejects : BitVec 16 := 0
  hdrFlags : Byte := 0
  mcc : Mcc := 0
  cnt : Reg32 := 0
  mismatchNoted : Bool := false
  stamp : Word := 0
  deriving DecidableEq, Repr

/-- The state of a publication (R259, R273). -/
structure PubStat where
  mcc : Mcc := 0
  cnt : Reg32 := 0
  replacedNoted : Bool := false
  deriving DecidableEq, Repr

/-- A posted RECEIVE buffer, an MD exchange in flight and a reassembly (R266, R267). -/
structure MdBuf where
  session : Nat
  addr : Word
  len : Nat
  tag : BitVec 18
  deriving DecidableEq, Repr

/-- A reassembly in flight: sender, session identifier, when it began, bytes so far by offset (R266). -/
structure MdReasm where
  src : Ip4
  session : BitVec 128
  since : Word := 0
  parts : List (Nat × List Byte) := []
  deriving DecidableEq, Repr

/-- An exchange whose reply the runtime may still send: the reply token and what it answers (R267). -/
structure MdToken where
  token : Reg32
  session : Nat
  peer : Ip4
  comId : Nat
  id : BitVec 128
  deriving DecidableEq, Repr

/-- The offloads and the three ports; `mdStamp` is the time stamp of the last MD telegram taken (R249 to R273, R310). -/
structure Eth where
  ports : List EthPort := [{}, {}, {}]
  etbTopo : Reg32 := 0
  opTopo : Reg32 := 0
  topoDue : Option (Reg32 × Reg32) := none
  pdSub : Bool := false
  pdIdx : BitVec 12 := 0
  subs : List SubStat := []
  pubs : List PubStat := []
  dups : BitVec 16 := 0
  wrongLan : BitVec 16 := 0
  tableFull : BitVec 16 := 0
  supervision : BitVec 16 := 0
  prpSeq : BitVec 16 := 0
  nodes : List PrpNode := []
  supAt : Word := 0
  arpAt : Word := 0
  tableFullNoted : Bool := false
  statusNoted : Bool := false
  sdtFault : BitVec 2 := 0
  mismatch : BitVec 16 := 0
  single : BitVec 16 := 0
  mdDropped : BitVec 16 := 0
  bufs : List MdBuf := []
  reasm : List MdReasm := []
  tokens : List MdToken := []
  tokenNext : Reg32 := 1
  hdrTrdp : BitVec 16 := 0
  hdrTimed : BitVec 16 := 0
  arp : List (Ip4 × Mac) := []
  unresolved : List Ip4 := []
  arpNoted : List Ip4 := []
  timedHeld : List (Reg32 × RxWait) := []
  timedLate : BitVec 16 := 0
  mdStamp : Word := 0
  deriving DecidableEq, Repr

end Sys2Proof.Machine
end

