-- ==== Sys2Proof/Machine/StBus.lean ====
section
/-! DEFINITION. Machine/StBus.lean: the part of State that is MVB, the CAN ports and the signal gateway
(12_legacy_buses_and_gateway). A field's default is its value at reset. -/

namespace Sys2Proof.Machine

/-- One of the two buffers of an MVB port that is current (R279): what the next poll reads, or what was received last. -/
structure MvbBuf where
  addr : Nat
  data : List Byte
  deriving DecidableEq, Repr

/-- A line of the MVB: faults, good and bad frames in a row (R278, R303). -/
structure MvbLine where
  fault : Bool := false
  good : Nat := 0
  bad : Nat := 0
  err : BitVec 16 := 0
  deriving DecidableEq, Repr

/-- A poll in progress: F-code and address, with the data it answers when the module sources the port (R279, R298). -/
structure MvbPoll where
  fcode : Nat
  addr : Nat
  data : Option (List Byte) := none
  deriving DecidableEq, Repr

/-- The MVB block (R303). `due` are the polls of the running basic period still to come, `dstat` the device status words
by record. -/
structure Mvb where
  lineA : MvbLine := {}
  lineB : MvbLine := {}
  frames : Reg32 := 0
  noReply : BitVec 16 := 0
  bp : Nat := 0
  dstatSel : Byte := 0
  dstat : List (Nat × Nat × BitVec 16) := []
  retry : BitVec 16 := 0
  bufs : List MvbBuf := []
  rxBufs : List MvbBuf := []
  poll : Option MvbPoll := none
  due : List (Nat × Nat) := []
  launched : List (Nat × Issue) := []
  begun : Option (Mcc × Nat) := none
  bpStart : Word := 0
  bothNoted : Bool := false
  deriving DecidableEq, Repr

/-- What a CAN frame in the controller is for. -/
inductive CanSrc where
  | record (index : Nat)
  | raw (tag : BitVec 18)
  | nmt
  | sync
  | poll (entry : Nat)
  deriving DecidableEq, Repr

/-- A CAN frame. -/
structure CanFrame where
  ident : BitVec 29
  ext : Bool := false
  fd : Bool := false
  brs : Bool := false
  remote : Bool := false
  data : List Byte := []
  deriving DecidableEq, Repr

/-- A frame that waits in a CAN controller; `ready` is the TTC at which it is requested. -/
structure CanPend where
  frame : CanFrame
  src : CanSrc
  mcc : Mcc := 0
  ready : Word := 0
  iss : Issue := {}
  deriving DecidableEq, Repr

/-- A CAN controller (R304); `freeAt` is the TTC since which no frame of its own has been on the bus (R163). -/
structure Can where
  enabled : Bool := false
  monitor : Bool := false
  txErr : Byte := 0
  rxErr : Byte := 0
  busOff : Bool := false
  rxCnt : Reg32 := 0
  txCnt : Reg32 := 0
  busOffCnt : BitVec 16 := 0
  errFrames : BitVec 16 := 0
  replaced : BitVec 16 := 0
  unmatched : BitVec 16 := 0
  txFailed : BitVec 16 := 0
  lastNmt : Byte := 0
  synced : Option Mcc := none
  pend : List CanPend := []
  freeAt : Word := 0
  deriving DecidableEq, Repr

/-- A semaphore (R299, R357): held by the submission of a tag over a range of a unit. `revoked` stays until the next
grant; `own` marks a bridge semaphore that this end's own side holds (R329). -/
structure Sema where
  unit : Nat := 0
  first : Nat := 0
  last : Nat := 0
  held : Bool := false
  revoked : Bool := false
  own : Bool := false
  deriving DecidableEq, Repr

/-- The newest copy of a slice of a spanning SID (R294). -/
structure Slice where
  entry : Nat
  raw : Nat
  mcc : Mcc
  valid : Bool
  deriving DecidableEq, Repr

/-- The signal gateway (R305); `polled` are the payloads of the POLL_FRAME records as last packed (R293, R301). -/
structure Gw where
  sat : BitVec 16 := 0
  nan : BitVec 16 := 0
  dbLost : BitVec 16 := 0
  dbRaised : BitVec 16 := 0
  pollTo : BitVec 16 := 0
  polls : BitVec 16 := 0
  sems : List Sema := List.replicate 32 {}
  semTo : BitVec 16 := 0
  refused : BitVec 16 := 0
  retries : BitVec 16 := 0
  spanStale : BitVec 16 := 0
  bells : List (Nat × Nat) := []
  polled : List (Nat × List Byte) := []
  slices : List Slice := []
  deriving DecidableEq, Repr

end Sys2Proof.Machine
end

