-- ==== Sys2Proof/Machine/StFabric.lean ====
section
/-! DEFINITION. Machine/StFabric.lean: the part of State that is the cycle fabric: the 48 tiles with registers, flags,
scratchpads and counters, and the fabric-wide registers (05_cycle_fabric, 06_tile_instruction_set). A field's
default is its value at reset. -/

namespace Sys2Proof.Machine

/-- Byte memory: address and byte, addresses strictly rising, no entry zero (an unlisted byte reads zero, R121). -/
abbrev Mem := List (Nat × BitVec 8)

/-- PHASE of a tile (R119). -/
inductive TPhase where
  | reset | idle | fill | program | slack | drain | unused
  deriving DecidableEq, Repr

/-- A running loop: its first and last bundle and the executions of the body left, the running one included (R132). -/
structure LoopFrame where
  first : Nat
  last : Nat
  left : Nat
  deriving DecidableEq, Repr

/-- An event record staged by EVREC (R141). -/
structure StagedRec where
  sev : Nat
  code : BitVec 16
  payload : Word
  deriving DecidableEq, Repr

/-- How a slot-0 instruction moves control at the end of its bundle (R132). -/
inductive Ctl where
  | seq
  | jump (d : Nat)
  | loop (len count : Nat)
  | brk
  | stop
  deriving DecidableEq, Repr

/-- What the slot-0 instruction of the open bundle will do at its end: the register write, the flags it sets,
whether it clears the flags, its cycles and its control transfer (R122). -/
structure HalfBundle where
  wr : Option (GReg × Word) := none
  set : BitVec 5 := 0
  clr : Bool := false
  cyc : Nat := 0
  ctl : Ctl := .seq
  deriving DecidableEq, Repr

/-- An event queue entry (R176). -/
structure EvtEntry where
  val : Word
  q : Byte
  ttc : Word
  mcc : Mcc
  doorbell : Bool
  deriving DecidableEq, Repr

/-- The handler running on a tile: event task, its queue entry, start time, image version, flags, position,
accepted LAUNCH time and staged records (R121, R123, R140, R141, R178). -/
structure HandlerRun where
  task : Nat
  entry : EvtEntry
  startTtc : Word
  imgMcc : Mcc
  tsf : BitVec 5 := 0
  pc : Nat := 0
  loops : List LoopFrame := []
  launch : Option Word := none
  recs : List StagedRec := []
  cyc : Nat := 0
  slack : Bool := false
  ended : Bool := false
  deriving DecidableEq, Repr

/-- One tile (R99, R100, R119, R123). `budget` and `relTtc` are what the deadline counter was loaded with and when (R114), `doneCyc` the cycles of
the running instance once its drain is complete (R119), `winStart` and `winLeft` the start of the open window and the cycles left in a
slack window (R107, R108). -/
structure Tile where
  regs : List Word := List.replicate 32 0
  tsf : BitVec 5 := 0
  pc : Nat := 0
  loops : List LoopFrame := []
  open0 : Option HalfBundle := none
  mem : Mem := []
  phase : TPhase := .reset
  hand : Option HandlerRun := none
  recs : List StagedRec := []
  sent : List Nat := []
  cyc : Nat := 0
  deadline : Nat := 0
  budget : Nat := 0
  relTtc : Word := 0
  doneCyc : Reg32 := 0
  winStart : Word := 0
  winLeft : Nat := 0
  inst : Bool := false
  relMcc : Mcc := 0
  layout : BitVec 128 := 0
  resets : List Nat := []
  epoch : BitVec 4 := 0
  codeHalf : BitVec 1 := 0
  task : Byte := 0xFF
  wcet : Reg32 := 0
  lastCyc : Reg32 := 0
  maxCyc : Reg32 := 0
  corr : BitVec 16 := 0
  uncorr : BitVec 8 := 0
  instances : Reg32 := 0
  handlers : BitVec 16 := 0
  windows : BitVec 16 := 0
  dbgEn : Bool := false
  deriving DecidableEq, Repr

/-- FAB_STATUS.STATE (R119). -/
inductive FabState where
  | reset | loading | ready | running | halted
  deriving DecidableEq, Repr


/-- The fabric: tiles and common page (R119); `lastEsc` holds the operating time of the last FABRIC reset caused by
escalation, `escalated` whether there was one (R117). -/
structure Fabric where
  tiles : List Tile := List.replicate 48 {}
  epoch : BitVec 4 := 0
  state : FabState := .reset
  fault : BitVec 48 := 0
  netCorr : BitVec 16 := 0
  netUncorr : BitVec 16 := 0
  lastEsc : Option Nat := none
  escalated : Bool := false
  resetTile : BitVec 6 := 0
  deriving DecidableEq, Repr

/-- Tile n of the fabric; outside 0 to 47 a tile at reset. -/
def Fabric.tile (f : Fabric) (n : TileNo) : Tile := nthD f.tiles n.val {}

/-- The fabric with tile n changed. -/
def Fabric.modTile (f : Fabric) (n : TileNo) (g : Tile → Tile) : Fabric :=
  { f with tiles := modNth f.tiles n.val g }

/-- FAB_STATUS.STATE number (R119). -/
def FabState.num : FabState → Nat
  | .reset => 0 | .loading => 1 | .ready => 2 | .running => 3 | .halted => 4

/-- PHASE number (R119). -/
def TPhase.num : TPhase → Nat
  | .reset => 0 | .idle => 1 | .fill => 2 | .program => 3 | .slack => 4 | .drain => 5 | .unused => 6

end Sys2Proof.Machine
end

