-- ==== Sys2Proof/Machine/StCycle.lean ====
section
/-! DEFINITION. Machine/StCycle.lean: the part of State that is the cycle timer and launch (07_cycle_boundary_and_launch),
tasks, modes and forces (08_tasks_modes_forcing) and the process image (09_process_image). A field's default is its
value at reset. -/

namespace Sys2Proof.Machine

/-- LOST_CAUSE (R172). -/
inductive LostCause where
  | none | phase | refAbsent | noRef
  deriving DecidableEq, Repr

/-- LOST_CAUSE number (R172). -/
def LostCause.num : LostCause → Nat
  | .none => 0 | .phase => 1 | .refAbsent => 2 | .noRef => 3

/-- What a pending launch sends: the packed frame or port data it makes current, with its issue as a posted write (R235, R296). -/
inductive LaunchItem where
  | mvb (addr : Nat) (data : List Byte) (iss : Issue := {})
  | can (index : Nat) (data : List Byte) (iss : Issue := {})
  deriving DecidableEq, Repr

/-- A pending launch: LTN32 and its values (R167). -/
structure Launch where
  ltn : Reg32
  ttc : Word
  items : List LaunchItem
  deriving DecidableEq, Repr

/-- The CYC block (R172) and the state its rules name. -/
structure Cyc where
  running : Bool := false
  mcc : Mcc := 0
  started : Bool := false
  bttc : Word := 0
  bttcPrev : Word := 0
  timerTtc : Word := 0
  phaseErr : Int := 0
  residual : Int := 0
  lenNs : Nat := 0
  ePrev : Int := 0
  cPrev : Int := 0
  lateErr : Option Int := none
  pendRef : Option Word := none
  matchedNow : Bool := false
  matchedPrev : Bool := false
  refPresent : Bool := false
  everMatched : Bool := false
  due : Option Mcc := none
  missRun : Nat := 0
  goodRun : Nat := 0
  syncLost : Bool := false
  lostCause : LostCause := .none
  lostMcc : Mcc := 0
  resyncUsed : Bool := false
  resyncLast : Bool := false
  slewing : Bool := false
  slewLimited : Bool := false
  resynced : Bool := false
  seek : Bool := false
  extraRef : BitVec 16 := 0
  missedRef : BitVec 16 := 0
  resyncCnt : BitVec 16 := 0
  lostCnt : BitVec 16 := 0
  late : BitVec 16 := 0
  collapsed : BitVec 16 := 0
  queues : List (List Launch) := List.replicate 64 []
  collapseNoted : List Nat := []
  offsets : List Nat := List.replicate 64 0
  evtLaunch : List (Option Launch) := List.replicate 16 none
  soLaunch : Option (Bool × Bool) := none
  deriving DecidableEq, Repr

/-- Why STOP was entered (R191). -/
inductive StopCause where
  | none | command | overrun | fabricHalted | autoDisabled | class3 | mismatch | notFormed | tkActivation
  deriving DecidableEq, Repr

/-- STOP_CAUSE number (R191). -/
def StopCause.num : StopCause → Nat
  | .none => 0 | .command => 1 | .overrun => 2 | .fabricHalted => 3 | .autoDisabled => 4 | .class3 => 5
  | .mismatch => 6 | .notFormed => 7 | .tkActivation => 8

/-- A pending mode command (R185). -/
inductive ModeCmd where
  | startWarm | startCold | stop | hold | cont | step (n : Nat) | dormant
  deriving DecidableEq, Repr

/-- A task instance in flight; `recs` are the records that its drained tiles staged, each with its tile (R141, R181). -/
structure Instance where
  task : Nat
  rel : Mcc
  fin : Mcc
  complete : Bool := false
  shortening : Int := 0
  discard : Bool := false
  broken : Bool := false
  tilesDone : List Nat := []
  recs : List (Nat × StagedRec) := []
  deriving DecidableEq, Repr

/-- A task's registers and latches (R201); `overrunning` says that its last instance was an overrun, whatever CONSEC has
restarted at (R182, R183). -/
structure TaskStat where
  overrunning : Bool := false
  reacted : Bool := false
  ovrCnt : BitVec 16 := 0
  consec : BitVec 8 := 0
  substNow : Bool := false
  deriving DecidableEq, Repr

/-- An event task's queue and registers (R176, R201). -/
structure EvtStat where
  queue : List EvtEntry := []
  drops : BitVec 16 := 0
  active : Bool := false
  highWater : BitVec 7 := 0
  dropNoted : Bool := false
  deriving DecidableEq, Repr

/-- A force (R194). -/
structure Force where
  sid : Sid
  val : Word
  code : BitVec 4
  orphan : Bool := false
  deriving DecidableEq, Repr

/-- An accepted force command not yet in effect (R195). -/
structure ForceCmd where
  sid : Sid
  set : Option (Word × BitVec 4)
  eff : Mcc
  deriving DecidableEq, Repr

/-- The outputs of an ended handler waiting for the boundary (R179). -/
structure HandlerOut where
  task : Nat
  tile : TileNo
  writes : List (Sid × Word × Byte)
  launch : Option Word
  recs : List StagedRec
  deriving DecidableEq, Repr

/-- Modes, tasks, events and forces of the GLB block (R201). `relDone` is the last boundary whose release has taken
place, `runAt` the one at which RUN last began (R188). -/
structure Glb where
  state : MState := .boot
  stopCause : StopCause := .none
  lastRestart : BitVec 2 := 0
  holdDrained : Bool := false
  stepping : Bool := false
  pendCmd : Option ModeCmd := none
  modeMcc : Mcc := 0
  tgtMcc : Mcc := 0
  auto : BitVec 2 := 1
  autoDue : Bool := false
  autoArmed : Bool := false
  stepLeft : Nat := 0
  tasks : List TaskStat := List.replicate 32 {}
  evts : List EvtStat := List.replicate 16 {}
  inst : List Instance := []
  handOuts : List HandlerOut := []
  taskRel : Reg32 := 0
  ovrLatch : Reg32 := 0
  forces : List Force := []
  forceCmds : List ForceCmd := []
  haltStop : Bool := false
  relDone : Option Mcc := none
  runAt : Option Mcc := none
  trigNoted : List (Sid × Mcc) := []
  deriving DecidableEq, Repr

/-- Who a staging entry is reserved for (R211). -/
inductive StgOwner where
  | fabric | safety | settling | txe
  deriving DecidableEq, Repr

/-- A staging entry (R208, R211). `inst` names the task instance it belongs to; `keep` marks a code that comes without a value and
leaves the age (R263). -/
structure StgEnt where
  sid : Sid
  val : Word
  code : BitVec 4
  sim : Bool
  target : Mcc
  owner : StgOwner
  inst : Option (Nat × Mcc) := none
  keep : Bool := false
  deriving DecidableEq, Repr

/-- The dynamic state of a signal (R202). -/
structure SigDyn where
  sid : Sid
  val : Word
  code : BitVec 4
  sim : Bool := false
  last : Option Mcc := none
  wroteNow : Bool := false
  wf : Bool := false
  aged : Nat := 0
  subst : Bool := false
  bad : Bool := false
  deriving DecidableEq, Repr

/-- A published signal with the address and type it had in that version (R212, R215). -/
structure PubSig where
  sid : Sid
  off : Nat
  ty : BitVec 4
  v : SigVal
  deriving DecidableEq, Repr

/-- One of the four published images (R212), with the boundary's TTC and the flags of a timed header at it (R166, R261). -/
structure Published where
  ver : Mcc
  sigs : List PubSig
  eccWords : List Nat := []
  copies : List (Nat × List Byte) := []
  bttc : Word := 0
  flags : Byte := 0
  deriving DecidableEq, Repr

/-- A snapshot context (R214). -/
structure SnapCtx where
  ver : Mcc := 0
  expired : Bool := false
  notYet : Bool := false
  ecc : Bool := false
  data : Word := 0
  deriving DecidableEq, Repr

/-- GLB_CI_STATUS.SHADOW (R96). -/
inductive ShadowSt where
  | empty | loading | valid | invalid
  deriving DecidableEq, Repr

/-- GLB_CI_STATUS.SWAP (R96). -/
inductive SwapSt where
  | idle | proposed | committed | aborted
  deriving DecidableEq, Repr

/-- The configuration planes and the GLB_CI registers (R87, R96). `affected` are the tasks a class 2 swap holds back until
their first release at or after `affectUntil` (R90). `loadStop` says that the load of the shadow plane was accepted in STOP (R90,
R91), `swappedAt` the boundary of the last swap, whose outputs keep the launch offsets of the plane before it (R88). `offered` is the image of
the activation that is being validated or has failed, which the shadow plane takes only after V01 to V26 (R87). -/
structure Ci where
  lastStatus : Byte := 0
  lastCheck : BitVec 16 := 0
  shadow : ShadowSt := .empty
  swap : SwapSt := .idle
  cls : BitVec 2 := 0
  plane : BitVec 1 := 0
  activeValid : Bool := false
  supMinorMax : Nat := 0
  swapMcc : Mcc := 0
  swapDue : Bool := false
  aborts : Nat := 0
  affected : List Nat := []
  affectUntil : Mcc := 0
  loadStop : Bool := false
  swappedAt : Option Mcc := none
  act : ConfImage := {}
  shd : ConfImage := {}
  offered : Option ConfImage := none
  supMajor : Byte := 1
  deriving DecidableEq, Repr

/-- The process image and the image half of the PIMA block (R202 to R221). -/
structure Pim where
  dyn : List SigDyn := []
  settledMcc : Option Mcc := none
  ring : List Published := []
  staging : List StgEnt := []
  hwm : BitVec 17 := 0
  defer : Reg32 := 0
  corr : BitVec 16 := 0
  uncorr : BitVec 16 := 0
  aged : Nat := 0
  wfCnt : Nat := 0
  uninit : Nat := 0
  snaps : List SnapCtx := List.replicate 8 {}
  dropped : List Nat := []
  badWords : List Nat := []
  softWords : List Nat := []
  eccNoted : List Nat := []
  wfPend : List Sid := []
  wfClear : List Sid := []
  copies : List SafeCopy := []
  copyStg : List SafeCopy := []
  deriving DecidableEq, Repr

end Sys2Proof.Machine
end

