-- ==== Sys2Proof/Machine/StSafe.lean ====
section
/-! DEFINITION. Machine/StSafe.lean: the part of State that is the safety island and the Canary (15_safety_island). A
field's default is its value at reset. -/

namespace Sys2Proof.Machine

/-- A safe output (R381 to R383, SAFE_SO): `switch2` says which switch the next test opens or closes; `highRel` counts
the releases of FUNC_TASK since FAULT_HIGH; `okRel` the releases in a row with a correct readback. -/
structure SafeOut where
  cmd : Bool := false
  readback : Bool := false
  faultHigh : Bool := false
  faultLow : Bool := false
  testOk : Bool := false
  switch2 : Bool := false
  highRel : Nat := 0
  okRel : Nat := 0
  badNow : Bool := false
  deriving DecidableEq, Repr

/-- A safe input pair (R384, R385, SAFE_SI). -/
structure SafePair where
  ch1 : Bool := false
  ch2 : Bool := false
  value : Bool := false
  disc : Bool := false
  cross : Bool := false
  stuck : Bool := false
  fault : Bool := false
  deriving DecidableEq, Repr

/-- A member's own votes for one boundary, or a peer's (R338): SID, primary code and value; SID 0 the safe-output
commands (R381). -/
structure VoteEnt where
  sid : Sid
  code : BitVec 4
  val : Word
  deriving DecidableEq, Repr

/-- The island state that the transfer set carries (R394). -/
structure IslandState where
  ssvState : Nat := 0
  agreeUs : Nat := 0
  ssmUs : Nat := 0
  ssmRun : Bool := false
  da : Nat := 0
  dl : Nat := 0
  sldRef : Bool := false
  rollaway : Bool := false
  cause : Byte := 0
  soLatch : List (Bool × Bool) := []
  siFault : List Bool := []
  discUs : List Nat := []
  deriving DecidableEq, Repr

/-- The safety island and the Canary (R361 to R400). `cause` 0 means that the island is not in its safe state;
`soMoved` says that a command changed in this minor cycle (R399), `canaryNew` marks a latched Canary cause that the trusted kernel has not yet written, `canaryCounted` one that the history holds (R391); `pulseAt` is the start of the last dark pulse (R384), `silentAt` that of the
fail-silence (R391), `t1` and `t2` say that the test outputs T1
and T2 are energised (R31, R384). -/
structure Safe where
  t1 : Bool := false
  t2 : Bool := false
  running : Bool := false
  cause : Byte := 0
  ssvState : Nat := 0
  agreeUs : Nat := 0
  ssv : Nat := 0
  ssvDir : Int := 0
  sls : Nat := 2
  limit : Nat := 0
  ssm : Bool := false
  ssmUs : Nat := 0
  ssmRun : Bool := false
  da : Nat := 0
  sdiD : Int := 0
  rollaway : Bool := false
  ackPrev : Bool := false
  sld : Nat := 0
  dl : Nat := 0
  sldRef : Bool := false
  refPrev : Bool := false
  srcValid : Byte := 0
  srcAgree : Byte := 0
  so : List SafeOut := [{}, {}]
  si : List SafePair := [{}, {}]
  discUs : List Nat := [0, 0]
  pulseAt : Option Word := none
  soMoved : Bool := false
  codeErr : BitVec 16 := 0
  eccCorr : BitVec 16 := 0
  restarts1h : Byte := 0
  lastUs : BitVec 16 := 0
  maxUs : BitVec 16 := 0
  paramCopy : SafetyBlock := {}
  causeNow : Bool := false
  absentRun : Nat := 0
  ackDue : Option Mcc := none
  codeFailed : List Nat := []
  tokens : List (Nat × Mcc) := []
  sdtCounters : List (Nat × Reg32) := []
  sdtSingles : List (Nat × Nat) := []
  failSilent : Bool := false
  silentAt : Word := 0
  canaryLatch : Byte := 0
  canaryNew : Bool := false
  canaryCounted : Bool := false
  armed : Bool := false
  faultLed : Bool := false
  mailbox : List (Nat × List Byte) := []
  deriving DecidableEq, Repr

end Sys2Proof.Machine
end

