-- ==== Sys2Proof/Machine/StGroup.lean ====
section
/-! DEFINITION. Machine/StGroup.lean: the frames of the group links and the part of State that is the replica group
(14_replica_group). A field's default is its value at reset. -/

namespace Sys2Proof.Machine

/-- A member's role in the encoding of R331. -/
inductive GRole where
  | none | active | standby | arbiter | probation | out
  deriving DecidableEq, Repr

/-- ROLE number (R331). -/
def GRole.num : GRole → Nat
  | .none => 0 | .active => 1 | .standby => 2 | .arbiter => 3 | .probation => 4 | .out => 5

/-- A voting member has one of these roles (R324). -/
def GRole.voting : GRole → Bool
  | .active => true | .standby => true | .arbiter => true | _ => false

/-- The group states of R341. -/
inductive GState where
  | forming | nominal | degraded2 | single | maintenance
  deriving DecidableEq, Repr

/-- STATE number (R341). -/
def GState.num : GState → Nat
  | .forming => 0 | .nominal => 1 | .degraded2 => 2 | .single => 3 | .maintenance => 4

/-- A group link by the module's own end: GL-L reaches position p - 1, GL-R position p + 1 (R323). -/
inductive GLink where
  | left | right
  deriving DecidableEq, Repr

/-- The other link. -/
def GLink.other : GLink → GLink
  | .left => .right | .right => .left

/-- The port of a link. -/
def GLink.port : GLink → Port
  | .left => .glL | .right => .glR

/-- The TXE unit of the peer over a link (R230). -/
def GLink.peer : GLink → TUnit
  | .left => .peerL | .right => .peerR

/-- The heartbeat payload (R331); `latent` is the sender's latent marks, which R343 has the members unite and for which no frame has a field
(assumption 180). -/
structure HbPay where
  position : Nat := 0
  role : GRole := .none
  gstate : GState := .forming
  mstate : MState := .boot
  mcc : Mcc := 0
  bttc : Word := 0
  captured : Bool := false
  timeValid : Bool := false
  driving : Bool := false
  stepRefused : Bool := false
  forceAny : Bool := false
  activeRef : Bool := false
  epoch : BitVec 4 := 0
  proto : Nat × Nat := (1, 0)
  rotSeq : Reg32 := 0
  rotLeft : Reg32 := 0
  forceGen : BitVec 16 := 0
  observed : BitVec 5 := 0
  rack : BitVec 6 := 0
  hash : Hash := 0
  serial : Word := 0
  groupId : Nat := 0
  latent : BitVec 3 := 0
  deriving DecidableEq, Repr

/-- The KINDs of an ORDER (R327). -/
inductive OrderKind where
  | takeover | exclude | adoptMcc | roles
  deriving DecidableEq, Repr

/-- The payload of an ORDER (R327); positions 0 for none. -/
structure OrderMsg where
  issuer : Nat
  target : Mcc
  active : Nat := 0
  standby : Nat := 0
  arbiter : Nat := 0
  subject : Nat := 0
  arg : Reg32 := 0
  deriving DecidableEq, Repr

/-- The content of a TARGET: its KIND and ARGUMENT (R327). `safeAck` and `clearLatent` are the calls SAFE_ACK
and GROUP_CLEAR_LATENT that R186 carries to the ACTIVE and R327 gives no KIND of their own: they travel with KIND 1. A time step
carries the case by which a refused step is accepted, 0 for none, and the KEY_ID of its token in ARGUMENT (R317). -/
inductive TargetArg where
  | mode (c : ModeCmd)
  | safeAck
  | clearLatent (pos : Nat)
  | force (c : List ForceCmd)
  | timeStep (refusedCase : Nat) (keyId : BitVec 128)
  | roleSwap
  | maintEnter
  | maintLeave
  deriving DecidableEq, Repr

/-- An entry of an input delta (R334). `topo` carries the ACTIVE's topology counters, which R335 and R271 distribute with the
agreement, `restart` its restart values of the MIRRORED signals (R340); R334 gives neither a KIND. -/
inductive DeltaEnt where
  | word (written same : Bool) (pimWord : Nat) (bytes : List Byte)
  | bell (sid : Sid) (count : Nat)
  | mask (m : Reg32)
  | mark (sid : Sid)
  | topo (etb op : Reg32)
  | restart (l : List (Sid × Word × BitVec 4))
  deriving DecidableEq, Repr

/-- A part of the transfer set (R349); `counters` are the SDT counters of the island's state (R394). -/
inductive XferPart where
  | counts (mcc : Mcc) (rotSeq rotLeft : Reg32) (latent : BitVec 3)
  | forces (l : List Force)
  | image (l : List SigDyn)
  | values (l : List (Sid × Word × BitVec 4))
  | events (l : List (Nat × List EvtEntry))
  | targets (l : List (Mcc × TargetArg))
  | island (i : IslandState)
  | counters (l : List (Nat × Reg32))
  deriving DecidableEq, Repr

/-- The frames of R327 by type and payload. -/
inductive GlBody where
  | hb (p : HbPay)
  | hbRelay (p : HbPay)
  | order (k : OrderKind) (o : OrderMsg)
  | ack (type : Nat) (id : Reg32) (st : Status)
  | target (mcc : Mcc) (a : TargetArg)
  | propose (h : Hash) (mcc : Mcc)
  | accept (h : Hash) (st : Status)
  | commit (h : Hash) (mcc : Mcc)
  | abort (h : Hash)
  | delta (es : List DeltaEnt)
  | deltaEnd (entries frames : Nat)
  | vote (es : List VoteEnt)
  | mirror (es : List DeltaEnt)
  | rdReq (off words sem : Nat)
  | wrReq (off sem : Nat) (posted : Bool) (data : List Byte)
  | semAcq (sem first last : Nat)
  | semRel (sem : Nat)
  | doorbell (v : Reg32)
  | xferReq (serial : Word)
  | rdRsp (st : Status) (data : List Byte)
  | wrRsp (st : Status)
  | semRsp (st : Status)
  | retry
  | xferData (off : Nat) (p : XferPart)
  | credit
  deriving DecidableEq, Repr

/-- TYPE of a frame (R327). -/
def GlBody.type : GlBody → Nat
  | .hb .. => 0x01 | .hbRelay .. => 0x02 | .order .. => 0x03 | .ack .. => 0x04 | .target .. => 0x05
  | .propose .. => 0x06 | .accept .. => 0x07 | .commit .. => 0x08 | .abort .. => 0x09
  | .delta .. => 0x10 | .deltaEnd .. => 0x11 | .vote .. => 0x12 | .mirror .. => 0x13
  | .rdReq .. => 0x20 | .wrReq .. => 0x21 | .semAcq .. => 0x22 | .semRel .. => 0x23 | .doorbell .. => 0x24
  | .xferReq .. => 0x25 | .rdRsp .. => 0x30 | .wrRsp .. => 0x31 | .semRsp .. => 0x32 | .retry => 0x33
  | .xferData .. => 0x34 | .credit => 0x3F

/-- The virtual channel of a frame type (R327). -/
def GlBody.vc (b : GlBody) : Nat :=
  if b.type = 0x3F then 0 else b.type / 16

/-- A frame header (R326); TYPE and VC follow from the body, and a TYPE that R327 does not list shows as `listed` clear. `len` is LEN. -/
structure GlHdr where
  crcOk : Bool := true
  listed : Bool := true
  len : Nat := 0
  src : Nat := 0
  dst : Nat := 0
  relayed : Bool := false
  epoch : BitVec 4 := 0
  vseq : Byte := 0
  tag : BitVec 18 := 0
  mcc : Mcc := 0
  cred : List Byte := [0, 0, 0, 0]
  deriving DecidableEq, Repr

/-- Bytes 4 to 7 of the header (R326, used by ACK). -/
def GlHdr.id (h : GlHdr) : Reg32 := h.epoch ++ h.vseq ++ (0 : BitVec 2) ++ h.tag

/-- A frame. -/
structure GlFrame where
  hdr : GlHdr
  body : GlBody
  deriving DecidableEq, Repr

/-- A group link bridge (R360): epoch and position that the peer announces, per VC the next sequence number sent, what the far side freed, what this side freed; frames
waiting for credit; semaphores over the own shared region; doorbell queue. `wrong` marks a link whose heartbeat names the wrong
position (R499). -/
structure Bridge where
  up : Bool := false
  downCnt : Byte := 0
  txFrames : Reg32 := 0
  rxFrames : Reg32 := 0
  crc : BitVec 16 := 0
  block : BitVec 16 := 0
  missRelayed : BitVec 16 := 0
  missDirect : BitVec 16 := 0
  retrySent : BitVec 16 := 0
  retryRcvd : BitVec 16 := 0
  sems : List Sema := List.replicate 64 {}
  semTo : BitVec 16 := 0
  sharedBase : Word := 0
  sharedEn : Bool := false
  deltaRx : Nat := 0
  deltaTx : Nat := 0
  bells : List Reg32 := []
  txSeq : List Byte := [0, 0, 0, 0]
  farFreed : List Byte := [0, 0, 0, 0]
  freed : List Byte := [0, 0, 0, 0]
  queues : List (List GlFrame) := [[], [], [], []]
  crcRun : Nat := 0
  wrong : Bool := false
  peerEpoch : BitVec 4 := 0
  peerPos : BitVec 2 := 0
  deriving DecidableEq, Repr

/-- What this member knows of a peer: its last heartbeat, the MCC of the last one on each path, boundaries in a row without one, what it sent for agreement and voting. -/
structure Peer where
  hb : Option HbPay := none
  direct : Option Mcc := none
  relayed : Option Mcc := none
  adoptSent : Bool := false
  hashNoted : Bool := false
  misses : Nat := 0
  failSilent : Bool := false
  lost : Bool := false
  delta : List DeltaEnt := []
  frames : Nat := 0
  deltaEnd : Option (Nat × Nat) := none
  deltaMcc : Mcc := 0
  votes : Option (List VoteEnt) := none
  votesMcc : Mcc := 0
  minority : Nat := 0
  observed : BitVec 5 := 0
  accepted : Bool := false
  deriving DecidableEq, Repr

/-- Roles to come at a boundary: of positions 1 to 3 (R344, R346, R351, R353). -/
structure RolesDue where
  at_ : Mcc
  roles : List GRole
  takeover : Bool := false
  repeat_ : Bool := false
  rotate : Bool := false
  swap : Bool := false
  undo : Bool := false
  marked : Nat := 0
  deriving DecidableEq, Repr

/-- A planned swap under its drive check (R351 to R353). -/
structure SwapCheck where
  at_ : Mcc
  oldRoles : List GRole
  oldSeq : Reg32
  seen : BitVec 5 := 0
  deriving DecidableEq, Repr

/-- A mirror in progress: its boundary, the own buffer, how many PIM words it has, those still to send with their content, those that have come,
and by position the contents that another member's words give where they differ from the own buffer (R340). -/
structure MirrorRun where
  at_ : Mcc
  buf : List (Sid × Word × BitVec 4) := []
  words : Nat := 0
  left : List (Nat × List Byte) := []
  got : List Nat := []
  diff : List (Nat × Sid × Word × BitVec 4) := []
  deriving DecidableEq, Repr

/-- The ID that a frame of another member bears on the link by which it was forwarded, and the ID under which it came (R326, R358). -/
structure HopId where
  given : Reg32
  came : Reg32
  deriving DecidableEq, Repr

/-- A proposed swap of the configuration planes (R94). -/
structure SwapRun where
  hash : Hash
  target : Mcc
  committed : Bool := false
  inTime : Bool := false
  deriving DecidableEq, Repr

/-- The group (R359). `roles` are those of positions 1 to 3. -/
structure Grp where
  state : GState := .forming
  role : GRole := .none
  formed : Bool := false
  roles : List GRole := [.none, .none, .none]
  rotSeq : Reg32 := 0
  rotLeft : Reg32 := 0x5A0
  latent : BitVec 3 := 0
  latentSerial : List Word := [0, 0, 0]
  takeovers : BitVec 16 := 0
  repeats : BitVec 16 := 0
  minorities : BitVec 16 := 0
  noMajority : BitVec 16 := 0
  deferred : BitVec 16 := 0
  inMinority : BitVec 16 := 0
  skew : Int := 0
  skewRun : Nat := 0
  outTimes : List Nat := []
  outForGood : Bool := false
  probLeft : Nat := 0
  probWait : List Nat := []
  proto : Nat × Nat := (1, 0)
  runProto : Nat × Nat := (0, 0)
  lastTo : Mcc := 0
  activeRef : Bool := true
  peerL : Peer := {}
  peerR : Peer := {}
  brL : Bridge := {}
  brR : Bridge := {}
  forceGen : BitVec 16 := 0
  observed : BitVec 5 := 0
  observedHb : BitVec 5 := 0
  due : Option RolesDue := none
  outDue : Bool := false
  maintDue : Option (Mcc × Bool) := none
  swapDue : Option Mcc := none
  check : Option SwapCheck := none
  swap : Option SwapRun := none
  adoptDue : Option (Mcc × Mcc) := none
  agreedRun : Nat := 0
  firstOp : Option Nat := none
  ownWrites : List StgEnt := []
  held : List StgEnt := []
  ownBells : List (Sid × Nat) := []
  ownDelta : List DeltaEnt := []
  deltaDeferred : List StgEnt := []
  compl : Reg32 := 0
  noMajSids : List Sid := []
  diffs : List (Nat × Sid) := []
  minoritySids : List Sid := []
  overDelta : Bool := false
  ownVotes : List VoteEnt := []
  ownMinority : Nat := 0
  decided : Option (List VoteEnt) := none
  decidedNone : Bool := false
  mirror : Option MirrorRun := none
  xferMcc : Option Mcc := none
  xferAsked : Bool := false
  repeatAt : Option Mcc := none
  prevDyn : List SigDyn := []
  ended : List Instance := []
  ownMarks : List Sid := []
  minorityNext : List Sid := []
  agreedBells : List (Sid × Nat) := []
  swapBack : Bool := false
  formDue : Bool := false
  formTimeout : Bool := false
  latentDue : Option (Mcc × Nat) := none
  warmAt : Option Mcc := none
  hopIds : List HopId := []
  deriving DecidableEq, Repr

/-- The bridge of a link. -/
def Grp.br (g : Grp) : GLink → Bridge
  | .left => g.brL | .right => g.brR

/-- The bridge of a link changed. -/
def Grp.modBr (g : Grp) (l : GLink) (f : Bridge → Bridge) : Grp :=
  match l with
  | .left => { g with brL := f g.brL } | .right => { g with brR := f g.brR }

/-- The peer next over a link. -/
def Grp.peer (g : Grp) : GLink → Peer
  | .left => g.peerL | .right => g.peerR

/-- The peer of a link changed. -/
def Grp.modPeer (g : Grp) (l : GLink) (f : Peer → Peer) : Grp :=
  match l with
  | .left => { g with peerL := f g.peerL } | .right => { g with peerR := f g.peerR }

end Sys2Proof.Machine
end

