-- ==== Sys2Proof/Machine/StTk.lean ====
section
/-! DEFINITION. Machine/StTk.lean: the part of State that is the trusted kernel's key store, fuses, sessions and call
slots (16_trust_and_boot) and the update engine (17_field_update). A field's default is its value at reset. -/

namespace Sys2Proof.Machine

/-- A key record (R405): CLASS, REVOKED, SERIAL_BIND; the public keys are known by KEY_ID (assumption 5). -/
structure KeyRec where
  id : BitVec 128
  cls : Byte
  revoked : Bool := false
  bind : Word := 0
  deriving DecidableEq, Repr

/-- A key store with the root that signs it (R405, R406): `newRoot` a root certificate it carries for a fuse slot,
`revokeRoot` the root slots it revokes. -/
structure KeyStore where
  seq : Reg32 := 0
  formOk : Bool := true
  keys : List KeyRec := []
  root : Hash := 0
  sig : SigBlock := {}
  newRoot : Option (Nat × Hash) := none
  revokeRoot : BitVec 4 := 0
  deriving DecidableEq, Repr

/-- The fuses (R406). -/
structure Fuses where
  serial : Word := 0
  roots : List (Option Hash) := [some 1, some 2, none, none]
  revoked : BitVec 4 := 0
  debugLock : Bool := true
  deriving DecidableEq, Repr

/-- A maintenance token (R408): `formOk` says that MAGIC, VERSION and the zero fields are right. -/
structure Token where
  formOk : Bool := true
  role : Role := .viewer
  serial : Word := 0
  notBefore : Word := 0
  notAfter : Word := 0
  holder : BitVec 128 := 0
  tokenId : Word := 0
  sig : SigBlock := {}
  deriving DecidableEq, Repr

/-- A session (R410): `opEnd` the operating time in ns at which a session opened with TIME_VALID clear ends. -/
structure Session where
  handle : BitVec 16
  role : Role
  tokenId : Word
  keyId : BitVec 128
  notAfter : Word
  opEnd : Option Nat := none
  deriving DecidableEq, Repr

/-- A call slot (R411, R420); `call` is the CALL of the call in progress, `session` the handle it names. -/
structure CallSlot where
  addr : Word := 0
  status : Byte := 0
  busy : Bool := false
  overrun : Bool := false
  interim : Bool := false
  done : Bool := false
  call : BitVec 16 := 0
  seq : Reg32 := 0
  session : BitVec 16 := 0
  frame : Option Reg32 := none
  deriving DecidableEq, Repr

/-- The TKMB block and what the trusted kernel keeps (R404 to R420). -/
structure Tkmb where
  running : Bool := false
  sessions : List Session := []
  opened : Nat := 0
  refusals : List Nat := []
  lockEnd : Option Nat := none
  authFail : BitVec 16 := 0
  writeViol : BitVec 16 := 0
  slots : List CallSlot := List.replicate 8 {}
  fuses : Fuses := {}
  storeA : Option KeyStore := none
  storeB : Option KeyStore := none
  storeInB : Bool := false
  tkVersion : Reg32 := 0
  urVersion : Reg32 := 0
  maintBy : Option (BitVec 16) := none
  settingsReset : Bool := false
  deriving DecidableEq, Repr

/-! ## Field update -/

/-- The image types (R421). -/
inductive ImgType where
  | tk | ur | tilefw | portfw | ci
  deriving DecidableEq, Repr

/-- Type code less one: the index of a type (R421). -/
def ImgType.idx : ImgType → Nat
  | .tk => 0 | .ur => 1 | .tilefw => 2 | .portfw => 3 | .ci => 4

/-- Slot size in bytes (R421). -/
def ImgType.size : ImgType → Nat
  | .tk => 4194304 | .ur => 536870912 | .tilefw => 16777216 | .portfw => 16777216 | .ci => 67108864

/-- Slot states (R444). -/
inductive SlotSt where
  | empty | partly | complete | verifying | verified | active | previous | invalid
  deriving DecidableEq, Repr

/-- Slot state number (R444). -/
def SlotSt.num : SlotSt → Nat
  | .empty => 0 | .partly => 1 | .complete => 2 | .verifying => 3 | .verified => 4 | .active => 5 | .previous => 6
  | .invalid => 7

/-- A manifest (R427): `formOk` says that MAGIC, FMT, the zero fields and BLOCK_COUNT are right, `typeCode` the TYPE byte. -/
structure Manifest where
  formOk : Bool := true
  typeCode : Nat := 5
  delta : Bool := false
  version : Reg32 := 0
  targetLen : Nat := 0
  targetHash : Hash := 0
  sourceHash : Hash := 0
  pkgLen : Nat := 0
  blockCount : Nat := 0
  pkgHash : Hash := 0
  minTk : Reg32 := 0
  part : BitVec 128 := partName
  sig : SigBlock := {}
  deriving DecidableEq, Repr

/-- The type of a TYPE byte (R421). -/
def imgTypeOf : Nat → Option ImgType
  | 1 => some .tk | 2 => some .ur | 3 => some .tilefw | 4 => some .portfw | 5 => some .ci | _ => none

/-- An image as a slot's bytes give it (R422, R423): header fields, the value SHA-384 gives, the verdicts of its
signature block; a CI as data, `store` the key store that a TK package may carry (R405). -/
structure SlotImg where
  version : Reg32 := 0
  hash : Hash := 0
  calcHash : Hash := 0
  part : BitVec 128 := partName
  sig : SigBlock := {}
  minTk : Reg32 := 0
  glProto : Nat × Nat := (1, 0)
  subHashOk : List Bool := List.replicate 8 true
  store : Option KeyStore := none
  ci : ConfImage := {}
  deriving DecidableEq, Repr

/-- What the engine finds when it verifies a COMPLETE slot (R433): the SHA-384 of the payload, whether the delta is
well formed and gives TARGET_LEN, and the image. -/
structure Verified where
  pkgHash : Hash := 0
  deltaOk : Bool := true
  img : SlotImg := {}
  deriving DecidableEq, Repr

/-- One slot: state, its image once verified, the manifest it was downloaded under, and the blocks written of that package, in the slot or in
the type's package area (R431). -/
structure UpdSlot where
  st : SlotSt := .empty
  img : SlotImg := {}
  manifest : Option Manifest := none
  blocks : List (Nat × List Byte) := []
  deriving DecidableEq, Repr

/-- A source of chain messages (R429): a peer on a plane or on MAINT, or the runtime. -/
inductive ChainSrc where
  | ecn (ip : Ip4)
  | maint (ip : Ip4)
  | runtime
  deriving DecidableEq, Repr

/-- A segment of an unfinished block: block, segment, stated CRC, data (R428). -/
structure SegEnt where
  block : Nat
  seg : Nat
  crc : Reg32
  data : List Byte
  deriving DecidableEq, Repr

/-- The header of a chain message as rules name it (R428): `formOk` says that MAGIC, PROTO and the zero bytes are right. -/
structure ChainHdr where
  formOk : Bool := true
  status : Status := .ok
  typeCode : Nat := 5
  version : Reg32 := 0
  target : Hash := 0
  deriving DecidableEq, Repr

/-- A member entry of a reply (R428). -/
structure MemberEnt where
  position : Nat
  status : Status
  slotState : Nat
  nextBlock : Nat
  serial : Word
  deriving DecidableEq, Repr

/-- OP of a COMMAND (R428). -/
inductive ChainOp where
  | activate | confirm | revert | abort
  deriving DecidableEq, Repr

/-- A chain message (R428); `missing` of a STATUS_REPLY lists per member the blocks its bitmap of `blocks` bits
marks missing. -/
inductive ChainMsg where
  | manifest (h : ChainHdr) (m : Manifest)
  | manifestReply (h : ChainHdr) (es : List MemberEnt)
  | segment (h : ChainHdr) (e : SegEnt)
  | statusReq (h : ChainHdr)
  | statusReply (h : ChainHdr) (es : List MemberEnt) (missing : List (List Nat)) (blocks : Nat := 0)
  | command (h : ChainHdr) (op : ChainOp) (tokens : List Token)
  | commandReply (h : ChainHdr) (es : List MemberEnt)
  deriving DecidableEq, Repr

/-- An update session (R430, R431): `got` the received-block bitmap. -/
structure UpdSession where
  manifest : Manifest
  owner : ChainSrc
  got : List Nat := []
  segs : List SegEnt := []
  lastUse : Nat := 0
  resumed : Bool := false
  deriving DecidableEq, Repr

/-- An activation in progress (R434, R435): the call slot or the source of the COMMAND to answer with its header;
`written` once its boot-control record is written (R440). -/
structure Activation where
  ty : ImgType
  tokenId : Word
  slot : Option Nat := none
  src : Option ChainSrc := none
  revert : Bool := false
  written : Bool := false
  hdr : ChainHdr := {}
  deriving DecidableEq, Repr

/-- The update engine (R421 to R444). `slots` holds A and B of each type; `fwd` the forward store, newest block first, `fwdSegs` the
segments of blocks that are only forwarded, `fwdPkgs` the manifests forwarded, `bootTick` the operating time at this boot, `failDue` the types whose trial
failure the trusted kernel counts at its start (R437). -/
structure Upd where
  slots : List (UpdSlot × UpdSlot) := List.replicate 5 ({}, {})
  sessions : List (Option UpdSession) := List.replicate 5 none
  fwd : List (Hash × Nat × List Byte) := []
  fwdSegs : List (Hash × SegEnt) := []
  fwdPkgs : List Manifest := []
  lastStatus : Byte := 0
  lehrMin : BitVec 16 := 0x78
  busyOther : BitVec 16 := 0
  floorCnt : BitVec 16 := 0
  forwarded : BitVec 16 := 0
  notAppl : BitVec 16 := 0
  notApplSeen : List Hash := []
  act : Option Activation := none
  waiting : List Activation := []
  trialStart : List Nat := List.replicate 5 0
  lehrTick : Nat := 0
  bootTick : Nat := 0
  failDue : List Nat := []
  have_ : List (BitVec 16 × BitVec 16) := List.replicate 5 (0, 0)
  portSeq : List Port := []
  deriving DecidableEq, Repr

end Sys2Proof.Machine
end

