-- ==== Sys2Proof/Syntax.lean ====
section
/-! DEFINITION. Syntax.lean: the commands of the block, one constructor per row of the opcode table, with the operands the
row's rule names. -/

namespace Sys2Proof

/-- A command (R1: an event at the module's pins, ports or timers, a register access, a trusted kernel call or a tile
instruction). -/
inductive Instr where
  /-- POWER_UP_THRESHOLD (R33). 24V_IN rises through the power-up threshold and input qualification starts, restarting if it falls back. -/
  | powerUpThreshold
  /-- POWER_GOOD (R33). The 20 ms input qualification ends with every rail in tolerance; the power-on reset is released, the slot straps are latched and boot begins. -/
  | powerGood (canaryOk : Bool)
  /-- LED_TEST_PHASE_END (R29). A phase of the 1.01 s LED test runs out and the LEDs move to the next phase or to their R28 states. -/
  | ledTestPhaseEnd
  /-- TRUSTED_KERNEL_START (R415). The boot ROM finishes verifying and copying the trusted kernel, which starts, restores the Cullet, writes any Canary cause and enters CONFIG. -/
  | trustedKernelStart
  /-- ACTIVE_PLANE_LOADED (R187). Validation and loading of the configuration image and firmware complete; the boundary generator starts and the module passes from CONFIG to STOP. -/
  | activePlaneLoaded
  /-- POWER_FAIL_WARNING (R35). 24V_IN stays below the warning threshold for 200 µs; the module runs from the hold-up store and flushes the event recorder. -/
  | powerFailWarning
  /-- OVER_VOLTAGE_LOCKOUT (R35). 24V_IN rises through the over-voltage lockout; the input is disconnected and the power-fail warning asserted at once. -/
  | overVoltageLockout
  /-- WARNING_CLEAR (R36). 24V_IN has stayed in its release range for 1 ms; the warning clears, the input reconnects and a NOTICE record gives the interruption's duration. -/
  | warningClear
  /-- HOLD_UP_CUTOFF (R37). The hold-up store reaches its cut-off level; the Canary forces fail-silence and the module later goes through a full power-on. -/
  | holdUpCutoff
  /-- OVERVOLTAGE_SUSTAINED (R38). 24V_IN has stayed between 30.0 V and the lockout for more than 1 s; a WARNING record is written and PWR flashes. -/
  | overvoltageSustained
  /-- WAKE_ACCEPT (R40). WAKE has stayed above its high threshold for 10 ms in DORMANT; power-up starts once 24V_IN is above the threshold. -/
  | wakeAccept
  /-- WAKE_EXPIRY (R40). 24V_IN has not risen above the power-up threshold within 10 s of an accepted WAKE; the module stays DORMANT. -/
  | wakeExpiry
  /-- RST_N (R41). RST_N held low for at least 1 ms requests a MODULE reset, unless the cut-off of R37 has begun. -/
  | rstN
  /-- MODULE_RESET_TAKE_EFFECT (R453). After the flush and the retention point, or 10 ms after recognition, the MODULE reset takes effect on every block except the Canary cause latch. -/
  | moduleResetTakeEffect
  /-- SYNC_IN_EDGE (R43). A rising edge on SYNC_IN is time-stamped against the TTC and matched to the nearest boundary as a sync reference. -/
  | syncInEdge
  /-- THERMAL_LIMIT (R47). The card edge exceeds +90 °C for 1 s or a die exceeds +115 °C; the Canary forces fail-silence and the module enters SAFE_HALT. -/
  | thermalLimit
  /-- THERMAL_DERATE (R450). The card-edge temperature crosses a derating threshold and the highest cluster step granted changes. -/
  | thermalDerate (t : BitVec 8)
  /-- CLOCK_FAULT (R61). A clock monitor detects a stopped, unlocked or out-of-window clock and the module reacts as R61 states for that clock. -/
  | clockFault (i : Fin 19)
  /-- CLK_AC_STEP_DONE (R62). A CLK_AC step change ends after at most 10 µs and the PLL_AC lock mask ends; an unlocked PLL then takes the fault reaction. -/
  | clkAcStepDone (locked : Bool)
  /-- BOUNDARY (R149). The cycle timer fires boundary k: the MCC increments, staged outputs are committed, I_k is frozen and boundary work starts. -/
  | boundary
  /-- SETTLING_COMPLETE (R210). Settling of the frozen image ends; P_k is published and PD publications and status telegrams are queued. -/
  | settlingComplete
  /-- TASK_RELEASE (R151). At the release offset after the boundary every task whose release boundary it is is released on its engine. -/
  | taskRelease
  /-- FILL_END (R104). The PROGRAM phase of a tile starts exactly at release plus FILL_CYC. -/
  | fillEnd (t : TileNo)
  /-- DRAIN_COMPLETE (R104). The window engine finishes writing a tile's output window into staging and the tile enters IDLE. -/
  | drainComplete (t : TileNo)
  /-- DEADLINE_EXPIRY (R114). A tile's deadline counter reaches zero before its drain completes; the tile is stopped and reset. -/
  | deadlineExpiry (t : TileNo)
  /-- SCHEDULED_TRANSFER (R109). A fabric network transfer occupies its reserved slots and its words become readable at the destination. -/
  | scheduledTransfer (xfer : Nat)
  /-- EVENT_DISPATCH (R177). A slack window or IDLE point opens and the dispatcher starts the handler of the highest-priority queued event. -/
  | eventDispatch (t : TileNo) (evt : Nat)
  /-- HANDLER_END (R179). A handler ends and its event-window drain stages its outputs for the next boundary. -/
  | handlerEnd (t : TileNo)
  /-- SCRATCHPAD_SCRUB (R99). The scrubber reads and rewrites scratchpad words every 100 ms of operation. -/
  | scratchpadScrub (t : TileNo) (corrected : Nat)
  /-- SCRATCHPAD_ECC_ERROR (R118). An ECC error in a scratchpad is corrected inline or, if uncorrectable, causes a TILE reset. -/
  | scratchpadEccError (t : TileNo) (addr : Nat) (correctable : Bool)
  /-- LINK_ECC_ERROR (R118). An ECC error on a fabric link is corrected or, if uncorrectable, resets the destination tile. -/
  | linkEccError (xfer : Nat) (correctable : Bool)
  /-- FABRIC_RESET (R115). A FABRIC reset reloads all 48 tiles from the active plane and increments the fabric epoch. -/
  | fabricReset (activation : Bool)
  /-- FABRIC_RESET_DONE (R115). A FABRIC reset completes, or the fabric is left HALTED by escalation and the module enters STOP. -/
  | fabricResetDone
  /-- TILE_RESET (R116). A TILE reset reloads one tile's code half and local data and makes any instance in flight incomplete. -/
  | tileReset (t : TileNo)
  /-- TILE_RESET_DONE (R116). A TILE reset completes within 20 µs and the tile takes part again from the next release. -/
  | tileResetDone (t : TileNo)
  /-- NOP (R122). Tile instruction that does nothing. -/
  | nop (t : TileNo) (sl : Slot)
  /-- MOV (R127). Tile instruction copying RA to RD. -/
  | mov (t : TileNo) (sl : Slot) (f : RR)
  /-- LIMM (R126). Tile instruction loading a 48-bit immediate, sign-extended, into RD. -/
  | limm (t : TileNo) (f : LF)
  /-- ADD (R128). Tile instruction adding RA and RB, wrapping or saturating. -/
  | add (t : TileNo) (sl : Slot) (f : RR)
  /-- ADDI (R128). Tile instruction adding a signed 12-bit immediate to RA. -/
  | addi (t : TileNo) (sl : Slot) (f : RI)
  /-- SUB (R128). Tile instruction subtracting RB from RA. -/
  | sub (t : TileNo) (sl : Slot) (f : RR)
  /-- NEG (R128). Tile instruction negating RA with saturation. -/
  | neg (t : TileNo) (sl : Slot) (f : RR)
  /-- ABS (R128). Tile instruction giving the absolute value of RA with saturation. -/
  | abs (t : TileNo) (sl : Slot) (f : RR)
  /-- MIN (R128). Tile instruction giving the minimum of RA and RB. -/
  | min (t : TileNo) (sl : Slot) (f : RR)
  /-- MAX (R128). Tile instruction giving the maximum of RA and RB. -/
  | max (t : TileNo) (sl : Slot) (f : RR)
  /-- LIM (R127). Tile instruction clamping RA to the range in RB and RB+1. -/
  | lim (t : TileNo) (sl : Slot) (f : RR)
  /-- MUL (R128). Tile instruction multiplying RA by RB. -/
  | mul (t : TileNo) (sl : Slot) (f : RR)
  /-- MAC (R128). Tile instruction adding RA times RB to RD. -/
  | mac (t : TileNo) (sl : Slot) (f : RR)
  /-- DIV (R128). Tile instruction dividing RA by RB, with defined results for a zero divisor. -/
  | div (t : TileNo) (f : RR)
  /-- MOD (R128). Tile instruction giving RA modulo RB. -/
  | mod (t : TileNo) (f : RR)
  /-- SQRT (R129). Tile instruction giving the square root of a floating RA. -/
  | sqrt (t : TileNo) (f : RR)
  /-- AND (R127). Tile instruction giving the bitwise AND of RA and RB. -/
  | and (t : TileNo) (sl : Slot) (f : RR)
  /-- OR (R127). Tile instruction giving the bitwise OR of RA and RB. -/
  | or (t : TileNo) (sl : Slot) (f : RR)
  /-- XOR (R127). Tile instruction giving the bitwise XOR of RA and RB. -/
  | xor (t : TileNo) (sl : Slot) (f : RR)
  /-- NOT (R127). Tile instruction giving the bitwise NOT of RA. -/
  | not (t : TileNo) (sl : Slot) (f : RR)
  /-- SHL (R128). Tile instruction shifting or rotating RA left. -/
  | shl (t : TileNo) (sl : Slot) (f : RR)
  /-- SHR (R128). Tile instruction shifting or rotating RA right, logically or arithmetically. -/
  | shr (t : TileNo) (sl : Slot) (f : RR)
  /-- CMP (R124). Tile instruction comparing RA with RB into a BOOL. -/
  | cmp (t : TileNo) (sl : Slot) (f : RR)
  /-- CMPI (R124). Tile instruction comparing RA with an immediate into a BOOL. -/
  | cmpi (t : TileNo) (sl : Slot) (f : CI)
  /-- SEL (R127). Tile instruction selecting RB or RD by RA. -/
  | sel (t : TileNo) (sl : Slot) (f : RR)
  /-- CVT (R130). Tile instruction converting RA between types. -/
  | cvt (t : TileNo) (sl : Slot) (f : RR)
  /-- LD (R131). Tile instruction loading from the scratchpad, with a run-time access check. -/
  | ld (t : TileNo) (f : MF)
  /-- ST (R131). Tile instruction storing to the scratchpad, with a run-time access check. -/
  | st (t : TileNo) (f : MF)
  /-- LOOP (R132). Tile instruction running the following body a bounded number of times. -/
  | loop (t : TileNo) (f : LPF)
  /-- BR (R132). Tile instruction branching forward unconditionally. -/
  | br (t : TileNo) (f : BF)
  /-- BRF (R132). Tile instruction branching forward when RA is true. -/
  | brf (t : TileNo) (f : BF)
  /-- BRK (R132). Tile instruction leaving the innermost loop when RA is true. -/
  | brk (t : TileNo) (f : BF)
  /-- TON (R134). On-delay timer function block in logical time. -/
  | ton (t : TileNo) (f : FBF)
  /-- TOF (R134). Off-delay timer function block in logical time. -/
  | tof (t : TileNo) (f : FBF)
  /-- TP (R134). Pulse timer function block in logical time. -/
  | tp (t : TileNo) (f : FBF)
  /-- RTRIG (R135). Rising-edge function block. -/
  | rtrig (t : TileNo) (f : FBF)
  /-- FTRIG (R135). Falling-edge function block. -/
  | ftrig (t : TileNo) (f : FBF)
  /-- CTU (R135). Up-counter function block. -/
  | ctu (t : TileNo) (f : FBF)
  /-- CTD (R135). Down-counter function block. -/
  | ctd (t : TileNo) (f : FBF)
  /-- PT1 (R136). First-order lag function block on REAL. -/
  | pt1 (t : TileNo) (f : FBF)
  /-- RAMP (R136). Rate-limiter function block on REAL. -/
  | ramp (t : TileNo) (f : FBF)
  /-- PID (R137). PID controller function block with anti-windup. -/
  | pid (t : TileNo) (f : FBF)
  /-- QMRG (R138). Tile instruction merging two quality bytes by precedence. -/
  | qmrg (t : TileNo) (sl : Slot) (f : RR)
  /-- QTST (R138). Tile instruction testing a quality byte's primary code. -/
  | qtst (t : TileNo) (sl : Slot) (f : RR)
  /-- QSET (R138). Tile instruction building a quality byte from an immediate. -/
  | qset (t : TileNo) (sl : Slot) (f : RI)
  /-- LAUNCH (R140). Handler instruction setting an explicit launch time for its outputs. -/
  | launch (t : TileNo) (ra : GReg)
  /-- EVREC (R141). Tile instruction staging an event record with the instance's outputs. -/
  | evrec (t : TileNo) (f : EF)
  /-- XMIT (R139). Tile instruction starting a scheduled fabric network transfer. -/
  | xmit (t : TileNo) (xfer : BitVec 13)
  /-- SLACK (R107). Tile instruction opening a slack window of fixed length in which event handlers may run. -/
  | slack (t : TileNo)
  /-- END (R139). Tile instruction ending the main program or a handler and starting its drain. -/
  | endOp (t : TileNo)
  /-- GETF (R123). Tile instruction reading, and optionally clearing, the tile status flags. -/
  | getf (t : TileNo) (sl : Slot) (f : RR)
  /-- LAUNCH_FIRE (R167). A launch comparator reaches its LTN32 and the output group's values are driven on their ports. -/
  | launchFire (q : Nat)
  /-- SO_LAUNCH (R168). SO0 and SO1 switch to their committed commands 100 µs after the commit boundary. -/
  | soLaunch
  /-- GATE_ENTRY (R162). An 802.1Qbv gate list entry ends and the next entry's gate states take effect. -/
  | gateEntry (p : Fin 3)
  /-- FRAME_TRANSMIT (R257). A queued frame starts in its traffic class's open gate window when it can finish before the gate closes. -/
  | frameTransmit (p : Fin 3)
  /-- FRAME_RECEIVE (R253). A frame received on an Ethernet port passes the MAC, PRP, PTP, ARP, PD, MD and host stages. -/
  | frameReceive (p : Fin 3) (f : Machine.EthFrame) (raw : List Byte) (fcsOk : Bool)
  /-- SDT_SKEW_TIMEOUT (R263). The SDT_SKEW_MAX timer of a held safe copy expires and the copy is accepted as SINGLE_PLANE. -/
  | sdtSkewTimeout (sub : Nat)
  /-- LINK_UP (R249). An Ethernet link comes up; a gratuitous ARP is sent and transmission resumes from the next boundary. -/
  | linkUp (p : Fin 3) (speed : BitVec 2)
  /-- LINK_DOWN (R249). An Ethernet link goes down without a reset of the port. -/
  | linkDown (p : Fin 3)
  /-- PRP_SUPERVISION (R254). Every 2 s the module sends PRP supervision frames on both planes. -/
  | prpSupervision
  /-- PRP_ENTRY_AGE (R255). A duplicate-discard node table entry is forgotten 400 ms after its last frame. -/
  | prpEntryAge (mac : Mac)
  /-- PD_COUNTER_FORGET (R260). A sender's last accepted sequence counter is forgotten after the forget time without a telegram. -/
  | pdCounterForget (sub : Nat) (src : Ip4)
  /-- ARP_REFRESH (R252). Every 60 s the ARP engine refreshes its table entries. -/
  | arpRefresh
  /-- MD_REASSEMBLY_TIMEOUT (R266). An MD reassembly not completed within 2 s is abandoned. -/
  | mdReassemblyTimeout (src : Ip4) (id : BitVec 128)
  /-- HOST_FRAME_SUBMIT (R268). The runtime places a frame on a port's host transmit ring. -/
  | hostFrameSubmit (p : Fin 3) (addr : Word) (len pcp : Nat)
  /-- MVB_BASIC_PERIOD (R164). A basic period begins and the bus administrator schedules its polls. -/
  | mvbBasicPeriod (j : Nat)
  /-- MVB_POLL (R276). The bus administrator sends a master frame polling a due port or device status. -/
  | mvbPoll
  /-- MVB_MASTER_FRAME (R275). A received master frame is answered for a source port or observed. -/
  | mvbMasterFrame (f a : Nat) (lineA lineB : Bool)
  /-- MVB_SLAVE_FRAME (R279). A slave frame is received for a sink port and carried into the image, with line-fault tracking. -/
  | mvbSlaveFrame (data : List Byte) (lineA lineB : Bool)
  /-- CAN_FRAME_RECEIVE (R283). A received CAN frame is matched to a receive record and carried in one TXE tag, or dropped. -/
  | canFrameReceive (n : Nat) (f : Machine.CanFrame)
  /-- CAN_TX_COMPLETE (R284). A transmit frame is sent and acknowledged. -/
  | canTxComplete (n i : Nat)
  /-- CAN_TX_TIMEOUT (R284). A frame that has met an error is not sent within 10 ms or by the next launch and fails as a posted write. -/
  | canTxTimeout (n i : Nat)
  /-- BUS_OFF (R286). A CAN controller enters bus-off and its pending frames fail. -/
  | busOff (n : Nat)
  /-- BUS_OFF_RECOVERY_DONE (R286). The bus-off recovery sequence ends and the controller resumes. -/
  | busOffRecoveryDone (n : Nat)
  /-- CANOPEN_SYNC (R287). The NMT master port sends a SYNC frame 10 µs after a boundary in RUN and HOLD. -/
  | canopenSync (n : Nat)
  /-- SEMAPHORE_REVOKE (R299). A semaphore not released within SEM_HOLD_MAX is revoked. -/
  | semaphoreRevoke (u : Option Machine.GLink) (sem : Nat)
  /-- POSTED_WRITE_FAILURE (R234). A posted write fails on the far side and is logged, mailed, marked WRITE_FAILED and recorded. -/
  | postedWriteFailure (tag : BitVec 18) (st : Status)
  /-- TRANSACTION_COMPLETE (R226). A tagged transaction completes and its result enters staging or its completion is reported. -/
  | transactionComplete (tag : BitVec 18)
  /-- TAG_TIMEOUT (R224). A tag reaches its class timeout and completes TIMEOUT. -/
  | tagTimeout (tag : BitVec 18)
  /-- RETRY_REISSUE (R298). A request answered RETRY is reissued after its backoff, or refused at the 17th RETRY. -/
  | retryReissue (tag : BitVec 18)
  /-- RECEIVE_BUFFER_DEQUEUE (R225). A tag becomes free and the oldest frame waiting in a port's receive buffer takes it. -/
  | receiveBufferDequeue (p : Port)
  /-- STAGING_ENTRY_FREE (R211). A staging entry becomes free and a DEFERRED TXE write arrives. -/
  | stagingEntryFree
  /-- HOLD_CUTOFF (R242). A PIM hold still asserted when its count reaches HOLD_MAX is cut off and the TXE port quarantined. -/
  | holdCutoff (bank : Fin 16) (tag : BitVec 18)
  /-- QUARANTINE_END (R242). The 256-clock quarantine of the TXE port on a bank ends. -/
  | quarantineEnd (bank : Fin 16)
  /-- SIG_WRITE (R227). A ring 1 submission writes a runtime-owned SID through the TXE. -/
  | sigWrite (q : SubReq) (sid : Sid) (v : Word)
  /-- SIG_ATOMIC (R227). A ring 1 submission performs a locked read-modify-write on a runtime-owned SID under a PIM hold. -/
  | sigAtomic (q : SubReq) (sid : Sid) (fn : Machine.AtomFn) (operand cmp : Word)
  /-- DMA_COPY (R227). A ring 1 submission copies a published version to DRAM. -/
  | dmaCopy (q : SubReq) (ver : Mcc) (addr : Word) (count : Nat)
  /-- MD_RECEIVE (R267). A ring 0 submission posts a buffer for received MD messages of a session. -/
  | mdReceive (q : SubReq) (ses : Nat) (addr : Word) (len : Nat)
  /-- MD_NOTIFY (R267). A ring 0 submission sends an MD notification. -/
  | mdNotify (q : SubReq) (ses : Nat) (addr : Word) (len : Nat) (dst : Ip4)
  /-- MD_REQUEST (R267). A ring 0 submission sends an MD request and awaits its replies. -/
  | mdRequest (q : SubReq) (ses : Nat) (addr : Word) (len : Nat) (dst : Ip4) (expected : Nat)
  /-- MD_REPLY (R267). A ring 0 submission sends an MD reply. -/
  | mdReply (q : SubReq) (ses : Nat) (addr : Word) (len : Nat) (token : Reg32)
  /-- MD_REPLY_CONFIRM (R267). A ring 0 submission sends an MD reply that requests confirmation. -/
  | mdReplyConfirm (q : SubReq) (ses : Nat) (addr : Word) (len : Nat) (token : Reg32)
  /-- MD_CONFIRM (R267). A ring 0 submission sends an MD confirmation. -/
  | mdConfirm (q : SubReq) (ses : Nat) (addr : Word) (len : Nat) (token : Reg32)
  /-- MVB_READ (R297). A REMOTE submission reads the current buffer of an MVB port. -/
  | mvbRead (q : SubReq) (port len : Nat) (addr : Word) (sem : Nat)
  /-- MVB_WRITE (R297). A REMOTE submission writes an MVB source port no schedule uses. -/
  | mvbWrite (q : SubReq) (port len : Nat) (addr : Word) (sem : Nat)
  /-- CAN_SEND (R297). A REMOTE submission queues a raw CAN frame. -/
  | canSend (q : SubReq) (n : Nat) (ident : Reg32) (len : Nat) (fd brs : Bool) (addr : Word) (sem : Nat)
  /-- CAN_RECV (R297). A REMOTE submission waits for the first matching CAN frame. -/
  | canRecv (q : SubReq) (n : Nat) (ident : Reg32) (len us : Nat) (addr : RecvTo)
  /-- SEM_ACQ (R299). A REMOTE submission acquires a gateway semaphore over a range. -/
  | semAcq (q : SubReq) (unit sem first last : Nat)
  /-- SEM_REL (R299). A REMOTE submission releases a gateway semaphore. -/
  | semRel (q : SubReq) (sem : Nat)
  /-- GL_READ (R357). A REMOTE submission reads a peer's shared region. -/
  | glRead (q : SubReq) (l : Machine.GLink) (off len : Nat) (addr : Word) (sem : Nat)
  /-- GL_WRITE (R357). A REMOTE submission writes a peer's shared region. -/
  | glWrite (q : SubReq) (l : Machine.GLink) (off len : Nat) (addr : Word) (sem : Nat)
  /-- GL_SEM_ACQ (R357). A REMOTE submission acquires a bridge semaphore of a peer. -/
  | glSemAcq (q : SubReq) (l : Machine.GLink) (sem first last : Nat)
  /-- GL_SEM_REL (R357). A REMOTE submission releases a bridge semaphore of a peer. -/
  | glSemRel (q : SubReq) (l : Machine.GLink) (sem : Nat)
  /-- GL_DOORBELL (R357). A REMOTE submission delivers a doorbell value to a peer's queue. -/
  | glDoorbell (q : SubReq) (l : Machine.GLink) (v : Reg32)
  /-- SNAPSHOT_READ (R214). A core reads the snapshot window and receives the named version, zero, or a flagged error. -/
  | snapshotRead (core : Fin 8) (off : Nat)
  /-- SPLIT_LO_READ (R505). A load of a LO register latches its HI half for the reading core. -/
  | splitLoRead (core : Fin 8) (addr : Reg32)
  /-- TASK_DONE (R174). A write of GLB_TASK_DONE marks an ENGINE 2 instance complete if it names the release MCC in time. -/
  | taskDone (core : Fin 8) (task : Fin 32) (mccLo : BitVec 16)
  /-- GLB_TASK_REL_READ (R201). A read of GLB_TASK_REL returns the released ENGINE 2 tasks and clears them. -/
  | glbTaskRelRead (core : Fin 8)
  /-- GLB_EVT_STAT_READ (R201). A read of GLB_EVT_STATn returns and clears HIGH_WATER. -/
  | glbEvtStatRead (core : Fin 8) (n : Fin 16)
  /-- FAB_TILE_MAX_READ (R119). A read of FAB_TILE_MAX returns and clears the largest instance cycles. -/
  | fabTileMaxRead (core : Fin 8) (n : TileNo)
  /-- PIMA_STG_HWM_READ (R221). A read of PIMA_STG_HWM returns and clears the staging high-water mark. -/
  | pimaStgHwmRead (core : Fin 8)
  /-- PIMA_SNAP_STAT_READ (R214). A read of PIMA_SNAP_STATn returns and clears the snapshot flags. -/
  | pimaSnapStatRead (core n : Fin 8)
  /-- PIMA_WAIT_READ (R246). A read of PIMA_WAITb returns and clears the longest waits on the bank. -/
  | pimaWaitRead (core : Fin 8) (b : Fin 16)
  /-- SAFE_RESP_READ (R400). A read of SAFE_RESP returns and clears MAX_US. -/
  | safeRespRead (core : Fin 8)
  /-- PGV_MEAS_READ (R463). A read of PGV_MEAS returns and clears the peak input. -/
  | pgvMeasRead (core : Fin 8)
  /-- GLX_DB_READ (R360). A read of GLx_DB returns and removes the oldest doorbell value. -/
  | glxDbRead (core : Fin 8) (l : Machine.GLink)
  /-- EVR_READ_REQUEST (R475). A write of EVR_RDn_REQ starts the copy of the next record at or after a SEQ. -/
  | evrReadRequest (core : Fin 8) (q : Reg32)
  /-- EVR_READ_COMPLETE (R475). The record copy completes and VALID, NONE or SKIPPED are set. -/
  | evrReadComplete (core : Fin 8)
  /-- WATCHDOG_KICK (R452). A write of RST_WDOG.KICK restarts the runtime watchdog countdown. -/
  | watchdogKick
  /-- WATCHDOG_EXPIRY (R452). The armed runtime watchdog expires and a RUNTIME reset follows. -/
  | watchdogExpiry
  /-- AC_STEP_REQUEST (R447). A write of PGV_AC_REQ.STEP asks the power governor for a cluster step. -/
  | acStepRequest (st : BitVec 3)
  /-- PMU_EVSEL_WRITE (R484). A write of an event select takes effect, storing EVENT 0 with BADSEL on an undefined selection. -/
  | pmuEvselWrite (core : Fin 8) (i : Fin 13) (n : Fin 8) (v : Reg32)
  /-- COUNTER_CLEAR (R493). A write of PMU_CTRL.CLEAR zeroes CNT0 to CNT7. -/
  | counterClear (core : Fin 8) (i : Fin 13)
  /-- DUMP_ARM (R489). A write of PMU_DUMP_CTRL.ARM starts hardware dumps at the next boundary. -/
  | dumpArm (core : Fin 8) (v : Reg32)
  /-- PMU_COUNTER_WRAP (R482). A programmable counter wraps, setting OVF, advancing a chained counter or raising a sampling interrupt. -/
  | pmuCounterWrap (i : Fin 13) (n : Fin 8) (spc : Word)
  /-- DUMP_RECORD_WRITE (R491). A dump record's DMA completes or is counted LOST. -/
  | dumpRecordWrite
  /-- TK_FIELD_WRITE (R7). A direct runtime write to a TK field is ignored and recorded. -/
  | tkFieldWrite (core : Fin 8) (addr v : Reg32)
  /-- PROTECTED_ACCESS (R402). A cluster access to a protected or unmapped range ends in a bus error and a SECURITY record. -/
  | protectedAccess (core : Fin 8) (addr : Word) (store : Bool)
  /-- REGISTER_WRITE (R504). A write to a register without a row of its own is performed by field access type. -/
  | registerWrite (core : Fin 8) (addr v : Reg32) (whole : Bool)
  /-- SESSION_OPEN (R409). Trusted kernel call that checks a token and opens a session. -/
  | sessionOpen (c : CallReq) (t : Machine.Token)
  /-- SESSION_CLOSE (R410). Trusted kernel call that ends a session. -/
  | sessionClose (c : CallReq)
  /-- SIGMAP_READ (R202). Trusted kernel call returning part of the active or shadow SIGMAP. -/
  | sigmapRead (c : CallReq) (shadow : Bool) (off len : Nat)
  /-- RUNTIME_READY (R415). Trusted kernel call by which the runtime announces it is up and arms the watchdog. -/
  | runtimeReady (c : CallReq)
  /-- FORCE_LIST (R196). Trusted kernel call returning the forces and underlying values. -/
  | forceList (c : CallReq)
  /-- START_WARM (R188). Mode command starting RUN with a WARM restart. -/
  | startWarm (c : CallReq)
  /-- START_COLD (R188). Mode command starting RUN with a COLD restart. -/
  | startCold (c : CallReq)
  /-- STOP (R191). Mode command entering STOP at the next boundary. -/
  | stop (c : CallReq)
  /-- HOLD (R189). Mode command entering HOLD. -/
  | hold (c : CallReq)
  /-- CONTINUE (R187). Mode command returning from HOLD to RUN. -/
  | continue (c : CallReq)
  /-- STEP (R190). Mode command releasing tasks for n boundaries in HOLD. -/
  | step (c : CallReq) (n : Nat)
  /-- AUTOMATIC_START (R192). After reset, or at group formation, GLB_START.AUTO takes the module to RUN or leaves it in STOP. -/
  | automaticStart
  /-- DORMANT_ENTER (R455). Trusted kernel call requesting DORMANT at a boundary at least 1 s ahead. -/
  | dormantEnter (c : CallReq)
  /-- FORCE_SET (R194). Trusted kernel call setting a force on a SID. -/
  | forceSet (c : CallReq) (sid : Sid) (v : Word) (code : BitVec 4)
  /-- FORCE_CLEAR (R195). Trusted kernel call clearing a force on a SID. -/
  | forceClear (c : CallReq) (sid : Sid)
  /-- FORCE_CLEAR_ALL (R195). Trusted kernel call clearing every force the caller's role may clear. -/
  | forceClearAll (c : CallReq)
  /-- TIME_ACCEPT (R317). Trusted kernel call accepting a refused time step. -/
  | timeAccept (c : CallReq)
  /-- SAFE_ACK (R389). Trusted kernel call ending the island safe state when its cause is absent. -/
  | safeAck (c : CallReq)
  /-- ROLE_SWAP (R355). Trusted kernel call starting a planned role swap. -/
  | roleSwap (c : CallReq)
  /-- GROUP_MAINT_ENTER (R355). Trusted kernel call taking the group into MAINTENANCE. -/
  | groupMaintEnter (c : CallReq)
  /-- GROUP_MAINT_LEAVE (R355). Trusted kernel call returning the group from MAINTENANCE to NOMINAL. -/
  | groupMaintLeave (c : CallReq)
  /-- GROUP_CLEAR_LATENT (R355). Trusted kernel call clearing a position's latent fault mark. -/
  | groupClearLatent (c : CallReq) (pos : Nat)
  /-- MAINT_ENABLE (R269). Trusted kernel call enabling the MAINT port. -/
  | maintEnable (c : CallReq)
  /-- MAINT_DISABLE (R269). Trusted kernel call disabling the MAINT port. -/
  | maintDisable (c : CallReq)
  /-- REG_WRITE (R413). Trusted kernel call writing TK fields of a register. -/
  | regWrite (c : CallReq) (addr mask value : Reg32)
  /-- MODULE_RESET (R451). RST_CTRL.MODULE_RESET starts a MODULE reset. -/
  | moduleReset (c : CallReq)
  /-- RUNTIME_RESET (R451). RST_CTRL.RUNTIME_RESET resets the application cluster and DRAM and ends sessions. -/
  | runtimeReset (c : CallReq)
  /-- PORT_RESET (R451). RST_CTRL.PORT_RESET resets a port block and increments its epoch. -/
  | portReset (c : CallReq) (unit : BitVec 4)
  /-- PIM_FREEZE (R243). A write of PIMA_FREEZE freezes or releases PIM banks. -/
  | pimFreeze (c : CallReq) (banks : BitVec 16)
  /-- TXE_QUOTA_WRITE (R224). A quota write changes class quotas from the next boundary or is refused. -/
  | txeQuotaWrite (c : CallReq) (i : Fin 3) (lo hi : BitVec 11)
  /-- PGV_CAP_LIMIT_WRITE (R446). A write of PGV_CAP.LIMIT changes the effective cap or is refused REFUSED_POWER. -/
  | pgvCapLimitWrite (c : CallReq) (limit : BitVec 9)
  /-- SETTINGS_RESET (R417). Trusted kernel call marking every C-class field unwritten from the next MODULE reset. -/
  | settingsReset (c : CallReq)
  /-- TILE_DEBUG_READ (R413). Trusted kernel call reading a tile's scratchpad when debug is enabled. -/
  | tileDebugRead (c : CallReq) (t : TileNo) (addr len : Nat)
  /-- EVR_CLEAR (R476). Trusted kernel call removing records up to a severity and writing a pinned CLEAR record. -/
  | evrClear (c : CallReq) (sev : Nat)
  /-- KEYSTORE_LOAD (R405). Trusted kernel call accepting a new key store. -/
  | keystoreLoad (c : CallReq) (k : Machine.KeyStore)
  /-- UPD_MSG (R443). Trusted kernel call passing one chain message to the update engine. -/
  | updMsg (c : CallReq) (m : Machine.ChainMsg)
  /-- UPD_ACTIVATE (R434). Trusted kernel call activating a verified image. -/
  | updActivate (c : CallReq) (t : Machine.ImgType)
  /-- UPD_CONFIRM (R438). Trusted kernel call confirming an image in TRIAL early. -/
  | updConfirm (c : CallReq) (t : Machine.ImgType)
  /-- UPD_REVERT (R439). Trusted kernel call reverting a type in TRIAL. -/
  | updRevert (c : CallReq) (t : Machine.ImgType)
  /-- UPD_ABORT (R442). Trusted kernel call ending an update session. -/
  | updAbort (c : CallReq) (t : Machine.ImgType)
  /-- UPD_SLOT_INFO (R443). Trusted kernel call returning the manifests of both slots of a type. -/
  | updSlotInfo (c : CallReq) (t : Machine.ImgType)
  /-- SESSION_EXPIRY (R410). A session reaches its end of validity and ends, disabling MAINT if it enabled it. -/
  | sessionExpiry (h : BitVec 16)
  /-- LOCKOUT_END (R409). The 60 s token lockout ends. -/
  | lockoutEnd
  /-- SHADOW_LOAD_DONE (R85). A shadow plane load finishes validation and becomes VALID or INVALID. -/
  | shadowLoadDone
  /-- MANIFEST (R429). A chain MANIFEST is checked and a session opens, continues or is refused, and it is forwarded. -/
  | manifest (src : Machine.ChainSrc) (h : Machine.ChainHdr) (m : Machine.Manifest)
  /-- MANIFEST_REPLY (R428). A MANIFEST_REPLY reporting members' states is received. -/
  | manifestReply (src : Machine.ChainSrc) (h : Machine.ChainHdr) (es : List Machine.MemberEnt)
  /-- SEGMENT (R431). A SEGMENT is received; a completed checked block is written, marked and forwarded. -/
  | segment (h : Machine.ChainHdr) (e : Machine.SegEnt)
  /-- STATUS_REQ (R428). A STATUS_REQ is answered with a STATUS_REPLY bitmap. -/
  | statusReq (src : Machine.ChainSrc) (h : Machine.ChainHdr)
  /-- STATUS_REPLY (R432). A STATUS_REPLY is received and missing blocks still held are resent. -/
  | statusReply (src : Machine.ChainSrc) (h : Machine.ChainHdr) (es : List Machine.MemberEnt) (missing : List (List Nat))
  /-- COMMAND_ACTIVATE (R434). A chain COMMAND with OP ACTIVATE activates an image. -/
  | commandActivate (src : Machine.ChainSrc) (h : Machine.ChainHdr) (ts : List Machine.Token)
  /-- COMMAND_CONFIRM (R438). A chain COMMAND with OP CONFIRM confirms an image in TRIAL. -/
  | commandConfirm (src : Machine.ChainSrc) (h : Machine.ChainHdr) (ts : List Machine.Token)
  /-- COMMAND_REVERT (R439). A chain COMMAND with OP REVERT reverts a type. -/
  | commandRevert (src : Machine.ChainSrc) (h : Machine.ChainHdr) (ts : List Machine.Token)
  /-- COMMAND_ABORT (R442). A chain COMMAND with OP ABORT ends a session. -/
  | commandAbort (src : Machine.ChainSrc) (h : Machine.ChainHdr) (ts : List Machine.Token)
  /-- COMMAND_REPLY (R428). A COMMAND_REPLY is received. -/
  | commandReply (src : Machine.ChainSrc) (h : Machine.ChainHdr) (es : List Machine.MemberEnt)
  /-- VERIFICATION_DONE (R433). Verification of a COMPLETE slot ends and the slot becomes VERIFIED or INVALID. -/
  | verificationDone (t : Machine.ImgType) (v : Machine.Verified)
  /-- UPDATE_SESSION_IDLE (R430). An update session ends after 10 min of operation without a segment or command. -/
  | updateSessionIdle (t : Machine.ImgType)
  /-- HEALTH_REACHED (R436). A type in TRIAL reaches health and its boot-pending mark is cleared. -/
  | healthReached (t : Machine.ImgType)
  /-- LEHR_END (R438). LEHR_LEFT reaches zero and the type is confirmed with its floor raised. -/
  | lehrEnd (t : Machine.ImgType)
  /-- POWER_WINDOW (R449). Each 10 µs window the governor measures, charges, and takes one shedding or restoring step. -/
  | powerWindow (input mv ma : Nat) (units : List Nat)
  /-- RETENTION_POINT (R461). The trusted kernel writes the older retained generation at a retention point. -/
  | retentionPoint
  /-- COUNTERS_RECORD_WRITE (R458). Every second of operation the counters record, with the last known TTC, is written to the Cullet. -/
  | countersRecordWrite
  /-- FLUSH_COMPLETE (R473). An event recorder flush of pending records to the store completes. -/
  | flushComplete
  /-- BACKGROUND_COPY (R473). Pending records are copied to the store in the background. -/
  | backgroundCopy
  /-- TIME_STEP (R315). At t0 + 100 µs of the step boundary the TTC is stepped by the confirmed offset. -/
  | timeStep
  /-- ANNOUNCE_TIMEOUT (R309). The selected master's announce receipt timeout expires and the time base changes plane or master. -/
  | announceTimeout (b : Bool)
  /-- SYNC_TIMEOUT (R313). No valid Sync for 3 intervals with no master on the other plane puts the time base into HOLDOVER. -/
  | syncTimeout
  /-- PTP_DELAY_REQ (R307). The ordinary clock sends its Delay_Req or Pdelay_Req. -/
  | ptpDelayReq (b : Bool)
  /-- PTP_MASTER_SEND (R319). As grandmaster the module sends Sync and Announce messages. -/
  | ptpMasterSend (b : Bool)
  /-- GM_TIME_VALID (R319). After 2 s as grandmaster with TIME_VALID clear, the module sets TIME_VALID on its Cullet time. -/
  | gmTimeValid
  /-- GL_LINK_UP (R325). A group link completes training and block lock. -/
  | glLinkUp (l : Machine.GLink)
  /-- GL_LINK_DOWN (R325). A group link loses block lock for 10 µs or meets too many CRC errors and retrains. -/
  | glLinkDown (l : Machine.GLink)
  /-- HB_SEND (R330). 0.5 µs after the freeze edge each member sends its heartbeat on both links. -/
  | hbSend
  /-- HB (R331). A heartbeat is received from a neighbour, checked and relayed. -/
  | hb (l : Machine.GLink) (h : Machine.GlHdr) (p : Machine.HbPay)
  /-- HB_RELAY (R330). A relayed heartbeat is received. -/
  | hbRelay (l : Machine.GLink) (h : Machine.GlHdr) (p : Machine.HbPay)
  /-- HEARTBEAT_CHECK (R330). At t0 + 30 µs missing heartbeats are counted and a heartbeat loss is declared after N_MISS boundaries. -/
  | heartbeatCheck
  /-- FAIL_SILENT_INDICATION (R332). A neighbour's fail-silent ordered set is recognised and relayed as ORDER EXCLUDE. -/
  | failSilentIndication (l : Machine.GLink)
  /-- ORDER_TAKEOVER (R344). An ORDER TAKEOVER names the failed ACTIVE and the new roles from its target boundary. -/
  | orderTakeover (l : Machine.GLink) (h : Machine.GlHdr) (o : Machine.OrderMsg)
  /-- ORDER_EXCLUDE (R344). An ORDER EXCLUDE removes a failed member from the voting members. -/
  | orderExclude (l : Machine.GLink) (h : Machine.GlHdr) (o : Machine.OrderMsg)
  /-- ORDER_ADOPT_MCC (R343). An ORDER ADOPT_MCC sets the member's MCC 16 boundaries after receipt. -/
  | orderAdoptMcc (l : Machine.GLink) (h : Machine.GlHdr) (o : Machine.OrderMsg)
  /-- ORDER_ROLES (R349). An ORDER ROLES gives a returning member its PROBATION target. -/
  | orderRoles (l : Machine.GLink) (h : Machine.GlHdr) (o : Machine.OrderMsg)
  /-- ACK (R327). An acknowledgement of a control frame is received. -/
  | ack (l : Machine.GLink) (h : Machine.GlHdr) (type : Nat) (id : Reg32) (st : Status)
  /-- TARGET_MODE_COMMAND (R186). A TARGET frame carries a mode command and its target MCC to members. -/
  | targetModeCommand (l : Machine.GLink) (h : Machine.GlHdr) (mcc : Mcc) (a : Machine.TargetArg)
  /-- TARGET_FORCE_CHANGE (R186). A TARGET frame carries a force change and its target MCC. -/
  | targetForceChange (l : Machine.GLink) (h : Machine.GlHdr) (mcc : Mcc) (cs : List Machine.ForceCmd)
  /-- TARGET_TIME_STEP (R315). A TARGET frame carries a time step target. -/
  | targetTimeStep (l : Machine.GLink) (h : Machine.GlHdr) (mcc : Machine.StepDue)
  /-- TARGET_ROLE_SWAP (R351). A TARGET frame carries a rotation or role swap target. -/
  | targetRoleSwap (l : Machine.GLink) (h : Machine.GlHdr) (mcc : Mcc)
  /-- TARGET_MAINT_ENTER (R355). A TARGET frame carries a MAINTENANCE entry target. -/
  | targetMaintEnter (l : Machine.GLink) (h : Machine.GlHdr) (mcc : Mcc)
  /-- TARGET_MAINT_LEAVE (R355). A TARGET frame carries a MAINTENANCE exit target. -/
  | targetMaintLeave (l : Machine.GLink) (h : Machine.GlHdr) (mcc : Mcc)
  /-- PROPOSE (R94). A PROPOSE of an image hash and target swap MCC is received or sent once the shadow is VALID. -/
  | propose (rx : Option (Machine.GLink × Machine.GlHdr × Hash × Mcc))
  /-- ACCEPT (R94). A member's answer to a PROPOSE is received. -/
  | accept (l : Machine.GLink) (h : Machine.GlHdr) (hash : Hash) (st : Status)
  /-- COMMIT (R94). A COMMIT is received and the member swaps at the target if it arrived at least 1 ms before. -/
  | commit (l : Machine.GLink) (h : Machine.GlHdr) (hash : Hash) (mcc : Mcc)
  /-- ABORT (R94). An ABORT of a proposed swap is received or sent 10 ms before the target without full acceptance. -/
  | abort (rx : Option (Machine.GLink × Machine.GlHdr × Hash))
  /-- DELTA (R334). An input delta frame from a peer is received. -/
  | delta (l : Machine.GLink) (h : Machine.GlHdr) (es : List Machine.DeltaEnt)
  /-- DELTA_END (R335). A peer's DELTA_END completes its delta for the boundary. -/
  | deltaEnd (l : Machine.GLink) (h : Machine.GlHdr) (entries frames : Nat)
  /-- INPUT_AGREEMENT (R335). At t0 + 30 µs each member decides the agreed content of every SID and compares completion masks. -/
  | inputAgreement
  /-- VOTE_SEND (R338). At the release point every voting and probation member sends its VOTE on both links. -/
  | voteSend
  /-- VOTE (R338). A peer's VOTE frame is received. -/
  | vote (l : Machine.GLink) (h : Machine.GlHdr) (es : List Machine.VoteEnt)
  /-- VOTE_DECIDE (R339). At t0 + T − 28 µs each member decides every voted signal and detects minorities or no majority. -/
  | voteDecide
  /-- MIRROR (R340). A MIRROR frame is received and compared with the member's own mirror buffer. -/
  | mirror (l : Machine.GLink) (h : Machine.GlHdr) (es : List Machine.DeltaEnt)
  /-- RD_REQ (R357). A peer's read request of the shared region is served. -/
  | rdReq (l : Machine.GLink) (h : Machine.GlHdr) (off words sem : Nat)
  /-- WR_REQ (R357). A peer's write request of the shared region is performed word by word. -/
  | wrReq (l : Machine.GLink) (h : Machine.GlHdr) (off sem : Nat) (posted : Bool) (data : List Byte)
  /-- SEM_ACQ_FRAME (R329). A peer's semaphore acquire request is granted, answered RETRY or resolved as a crossing. -/
  | semAcqFrame (l : Machine.GLink) (h : Machine.GlHdr) (sem first last : Nat)
  /-- SEM_REL_FRAME (R357). A peer's semaphore release is received. -/
  | semRelFrame (l : Machine.GLink) (h : Machine.GlHdr) (sem : Nat)
  /-- DOORBELL (R357). A peer's doorbell value enters the GLx_DB queue. -/
  | doorbell (l : Machine.GLink) (h : Machine.GlHdr) (v : Reg32)
  /-- XFER_REQ (R349). A returning member's transfer request makes the source send the transfer set. -/
  | xferReq (l : Machine.GLink) (h : Machine.GlHdr) (serial : Word)
  /-- RD_RSP (R327). A read response from a peer completes a GL_READ. -/
  | rdRsp (l : Machine.GLink) (h : Machine.GlHdr) (st : Status) (data : List Byte)
  /-- WR_RSP (R327). A write response from a peer completes a GL_WRITE. -/
  | wrRsp (l : Machine.GLink) (h : Machine.GlHdr) (st : Status)
  /-- SEM_RSP (R327). A semaphore response from a peer completes a semaphore request. -/
  | semRsp (l : Machine.GLink) (h : Machine.GlHdr) (st : Status)
  /-- RETRY (R329). A RETRY answer from a peer schedules a reissue. -/
  | retry (l : Machine.GLink) (h : Machine.GlHdr)
  /-- XFER_DATA (R349). A transfer set fragment is received by a returning member. -/
  | xferData (l : Machine.GLink) (h : Machine.GlHdr) (off : Nat) (p : Machine.XferPart)
  /-- CREDIT (R328). A CREDIT frame returns freed receive buffers. -/
  | credit (l : Machine.GLink) (h : Machine.GlHdr)
  /-- CREDIT_RETURN_TIMER (R328). A sender with nothing else to send returns credits at least every 10 µs. -/
  | creditReturnTimer (l : Machine.GLink)
  /-- FORMING_TIMEOUT (R343). After 10 s of operation without a further match the group forms as DEGRADED_2 or SINGLE. -/
  | formingTimeout
  /-- PROBATION_END (R349). A member's PROBATION_S count ends and roles are assigned anew at the next major cycle boundary. -/
  | probationEnd (pos : Nat)
  /-- ROTATION_MINUTE (R351). Each minute of operation GRP_ROT_LEFT decrements and a rotation is targeted at zero. -/
  | rotationMinute
  /-- DRIVE_CHECK (R352). The drive check window after a planned swap ends; a failed check undoes the swap and marks a latent fault. -/
  | driveCheck
  /-- SAFETY_TASK_END (R363). A safety task instance writes its outputs and end token to the Canary. -/
  | safetyTaskEnd (task : Fin 32) (writes : List (Sid × Word × BitVec 4)) (us : Nat) (vars : List CodedVar) (flowOk : Bool)
  /-- SO_READBACK (R382). The steady-state readback at t0 + 300 µs detects FAULT_HIGH or FAULT_LOW. -/
  | soReadback (rb0 rb1 : Bool)
  /-- SO_TEST_PULSE (R383). Every SO_TEST_MS a switch test pulse runs on each output and is judged. -/
  | soTestPulse (pass0 pass1 : Bool)
  /-- INPUT_TEST_PULSE (R384). A dark pulse on T1 or T2 tests its channels for stuck and cross faults. -/
  | inputTestPulse (t2 a1 a2 b1 b2 : Bool)
  /-- SAFE_INPUT_CHANGE (R385). A filtered safe input changes and the pair's SID is written. -/
  | safeInputChange (ch : Fin 4) (v : Bool)
  /-- INPUT_DISCREPANCY_TIMEOUT (R385). A pair's channels disagree longer than SI_DISC_MS and the pair fault is latched. -/
  | inputDiscrepancyTimeout (pair : Fin 2)
  /-- INPUT_FAULT_CLEAR (R385). A pair shows its open state for 100 ms without fault and its fault clears. -/
  | inputFaultClear (pair : Fin 2)
  /-- LIVENESS_PULSE (R390). The island's liveness pulse every 100 µs is checked by the Canary. -/
  | livenessPulse (onTime : Bool)
  /-- CANARY_WATCH (R390). A Canary watch fails and it forces fail-silence. -/
  | canaryWatch (cause : Byte)
  /-- FAIL_SILENCE (R37). The Canary de-energises safe outputs, stops every transmitter and enters SAFE_HALT. -/
  | failSilence (cause : Byte)
  /-- CANARY_RESET (R391). 1 s after fail-silence with restart permitted, the Canary performs a CANARY reset. -/
  | canaryReset
  /-- SRAM_SCRUB (R361). Island SRAM is scrubbed once every 10 s of operation. -/
  | sramScrub (corrected : Nat) (uncorrectable : Bool)
  /-- CORE_SELF_TEST (R392). The core self-test runs every 10 s of operation and requests fail-silence on failure. -/
  | coreSelfTest (pass : Bool)
  /-- RST_N_RELEASE (R41). RST_N rises after being held low, ending a reset held since power good and letting boot proceed. -/
  | rstNRelease
  /-- VSTBY_BELOW_MINIMUM (R457). VSTBY falls below 9.0 V during DORMANT and the wake detector stops. -/
  | vstbyBelowMinimum
  /-- VSTBY_RETURN (R457). VSTBY returns to its range during DORMANT and the wake detector resumes. -/
  | vstbyReturn
  /-- PORT_RESET_DONE (R249). A PORT reset completes within its stated time and the port is reloaded from the active plane and starts again. -/
  | portResetDone (u : Nat)
  /-- CLUSTER_RELEASE (R415). The UR image is verified and loaded into DRAM and the application cluster is released from reset. -/
  | clusterRelease
  /-- LEHR_LEFT_WRITE (R425). Every 10 s of operation LEHR_LEFT is written to the boot-control record. -/
  | lehrLeftWrite
  deriving DecidableEq, Repr

end Sys2Proof
end

