-- ==== Sys2Proof/Decode.lean ====
section
/-! DEFINITION. Decode.lean: the command that a word of the opcode table spells. The table gives its rows no bits (each row's list
of fields is empty): a command is an event at a pin, port or timer, a register access, a call or a tile instruction with operands
of its own, so no word spells one. -/

namespace Sys2Proof

/-- The command that nbits bits w spell: the table gives no row any bits, so none. -/
def decodeTableWord (_nbits _w : Nat) : Option Instr := none

end Sys2Proof
end

