-- ==== Sys2Proof/Config.lean ====
section
/-! DEFINITION. Config.lean: what one module is built or fused with, and the values the manual leaves open.
An `opaque` constant has no body that Lean can evaluate: no proof can rest on a value of it. -/

namespace Sys2Proof.Config

/-- The sign and payload of a NaN result, by opcode and operands; R129 states none and R130 has the members
of a group agree on it (assumption 3). -/
opaque nanFree : Nat → Word → Word → Word → Nat

/-- What LIM gives when its lower limit lies above its upper limit, by type and operands; R127 states no
result there (assumption 4). -/
opaque limEmpty : BitVec 4 → Word → Word → Word → Word

/-- What RAMP gives while the rate of its direction is negative, by x, y and the instance's rates; R136 states
no result there (assumption 4). -/
opaque rampNegative : Word → Word → Word → Nat

/-- The bank of a 32-byte PIM word; R238 gives each bank its words without saying which (assumption 13). -/
opaque bankOf : Nat → Fin 16

/-- Where the TXE begins its choice among the free tag numbers, by the number of tags allocated before; R223 to R225 state no
order (assumption 14). -/
opaque tagPick : Nat → Nat

/-- The TAG field of a completion for which no tag was allocated, by the submission's REQ_ID; R228 states none
(assumption 14). -/
opaque noTag : BitVec 16 → BitVec 18

/-- The raw content of a slice of a spanning signal that has never been received, by its GWMAP entry; R294 gives the code UNINIT and
no value (assumption 15). -/
opaque sliceFree : Nat → Nat

/-- The device status word the module answers, by its bus administrator capability and device-not-ready bits; R277 leaves the
word's layout to IEC 61375-3-1 (assumption 16). -/
opaque devStatus : Bool → Bool → BitVec 16

/-- Where the trusted kernel begins its choice of a session handle, by the number of sessions opened before; R410 gives the handle's
width only (assumption 17). -/
opaque handlePick : Nat → Nat

/-- The bytes of a code half of a tile, by tile, half and offset: the model holds a program as data, not as its bytes
(assumption 18). -/
opaque codeByte : Nat → Nat → Nat → BitVec 8

/-- The SDTv2 safety code of a data set by SMI, user data version and safe sequence counter; R365 leaves its arithmetic and that of the SDTv2
identifier to IEC 61375-2-3 Annex B (assumption 204). -/
opaque safetyCode : Nat → Nat → BitVec 32 → List (BitVec 8) → BitVec 32

/-- The servo's frequency estimate in ppb, by the number of measurements so far and the offset measured; R312 gives its limits and no
rule for it (assumption 19). -/
opaque freqEstimate : Nat → Int → Int

/-- The phase term of the slew in ppb, by the number of measurements so far and the offset measured; R312 gives its limit alone
(assumption 19). -/
opaque phaseTerm : Nat → Int → Int

/-- A byte of another member's status block that its heartbeat does not show, by position, offset and boundary: R270 has the ACTIVE
gather the blocks and R327 gives no frame that carries them (assumption 20). -/
opaque peerByte : Nat → Nat → Nat → BitVec 8

/-- The bytes of the signature of a manifest: the model holds a signature as its verdicts (assumption 5), by TARGET_HASH and offset
(assumption 21). -/
opaque sigByte : BitVec 384 → Nat → BitVec 8

/-- The address in PMU_SPC when an event that the model itself counts wraps a core's counter, by the TTC: R485 has it lie 0 to 8
instructions after the one that caused the wrap (assumption 22). -/
opaque spcFree : BitVec 64 → BitVec 64

/-- What the monitor measures of REFCLK against the SI oscillator over a window of 10 ms, in 0.1 ppm, by the window's end: R60 and R63 give
the unit and no value (assumption 157). -/
opaque refDev : BitVec 64 → Int

/-- The clocks from request to grant at a bank, by bank and TTC, within the bound of R240; R239 fixes the order of the grants and nothing
in the model what requests meet (assumption 185). -/
opaque bankWait : Nat → BitVec 64 → Nat

/-- How many transmit errors beyond the first a CAN frame has met that is not sent in time, by port and TTC: the table has no command for an error
(assumption 101). -/
opaque canErrors : Nat → BitVec 64 → Nat

end Sys2Proof.Config
end

