-- ==== Sys2Proof/Machine/Float.lean ====
section
/-! DEFINITION. Machine/Float.lean: IEEE 754-2019 binary32 and binary64 arithmetic, exact with one rounding to
nearest, ties to even (06_tile_instruction_set, R129). -/

namespace Sys2Proof.Machine

/-- The value a floating bit pattern stands for: a NaN, a signed infinity, or the exact number
(-1)^s * m * 2^e. -/
inductive FVal where
  | nan
  | inf (s : Bool)
  | fin (s : Bool) (m : Nat) (e : Int)
  deriving DecidableEq, Repr

/-- A binary interchange format: exponent width and precision (fraction bits). -/
structure FFmt where
  ew : Nat
  mw : Nat
  deriving DecidableEq, Repr

/-- binary32. -/
def f32 : FFmt := ⟨8, 23⟩
/-- binary64. -/
def f64 : FFmt := ⟨11, 52⟩

/-- The exponent bias of a format. -/
def FFmt.bias (k : FFmt) : Nat := 2 ^ (k.ew - 1) - 1
/-- The exponent of the last bit of a subnormal. -/
def FFmt.emin (k : FFmt) : Int := 1 - (k.bias : Int) - (k.mw : Int)
/-- The all-ones exponent field. -/
def FFmt.emax (k : FFmt) : Nat := 2 ^ k.ew - 1

/-- The value of the low bits of a word. -/
def fdec (k : FFmt) (x : Nat) : FVal :=
  let m := x % 2 ^ k.mw
  let e := (x / 2 ^ k.mw) % 2 ^ k.ew
  let s := (x / 2 ^ (k.mw + k.ew)) % 2 == 1
  if e = k.emax then (if m = 0 then .inf s else .nan)
  else if e = 0 then .fin s m k.emin
  else .fin s (m + 2 ^ k.mw) (k.emin + (e : Int) - 1)

/-- The sign bit in place. -/
def fsign (k : FFmt) (s : Bool) : Nat := if s then 2 ^ (k.mw + k.ew) else 0

/-- The bits of an infinity. -/
def finf (k : FFmt) (s : Bool) : Nat := fsign k s + k.emax * 2 ^ k.mw

/-- A NaN of the format: quiet, with sign and payload taken from a free value (R129 gives no payload). -/
def fnan (k : FFmt) (free : Nat) : Nat :=
  fsign k ((free / 2 ^ k.mw) % 2 == 1) + k.emax * 2 ^ k.mw + (2 ^ (k.mw - 1) + free % 2 ^ (k.mw - 1))

/-- m / 2^n rounded to nearest, ties to even. -/
def rneShift (m n : Nat) : Nat :=
  let q := m / 2 ^ n
  let r := m % 2 ^ n
  let h := 2 ^ n / 2
  if n = 0 then m
  else if r > h ∨ (r = h ∧ q % 2 = 1) then q + 1 else q

/-- The result of one rounding: the bits, and whether a finite value overflowed to infinity. -/
structure FRes where
  bits : Nat
  ovf : Bool := false
  deriving DecidableEq, Repr

/-- The exact number (-1)^s * m * 2^e rounded once into the format (R129). -/
def fround (k : FFmt) (s : Bool) (m : Nat) (e : Int) : FRes :=
  if m = 0 then ⟨fsign k s, false⟩
  else
    let len : Int := (Nat.log2 m : Int) + 1
    let sh : Int := max (len - (k.mw + 1 : Int)) (k.emin - e)
    let q := if sh ≤ 0 then m * 2 ^ ((-sh).toNat) else rneShift m sh.toNat
    let e' := e + sh
    let (q, e') := if q = 2 ^ (k.mw + 1) then (2 ^ k.mw, e' + 1) else (q, e')
    if q < 2 ^ k.mw then ⟨fsign k s + q, false⟩
    else
      let be : Int := e' - k.emin + 1
      if be ≥ (k.emax : Int) then ⟨finf k s, true⟩
      else ⟨fsign k s + be.toNat * 2 ^ k.mw + (q - 2 ^ k.mw), false⟩

/-- A floating result: a NaN to be given a free payload, or bits with flags. -/
inductive FOut where
  | nan
  | bits (b : Nat) (ovf div0 : Bool)
  deriving DecidableEq, Repr

/-- A rounding as an operation's result. -/
def FRes.out (r : FRes) (d0 : Bool := false) : FOut := .bits r.bits r.ovf d0

/-- Whether an operation's result is a NaN, an infinity included. -/
def isNan (k : FFmt) (x : Nat) : Bool := fdec k x == .nan

/-- The exact sum of two finite numbers, at the lower of their exponents. -/
def dyAdd (s1 : Bool) (m1 : Nat) (e1 : Int) (s2 : Bool) (m2 : Nat) (e2 : Int) : Int × Int :=
  let e := min e1 e2
  let a : Int := (m1 : Int) * 2 ^ (e1 - e).toNat
  let b : Int := (m2 : Int) * 2 ^ (e2 - e).toNat
  ((if s1 then -a else a) + (if s2 then -b else b), e)

/-- The sum of two finite numbers rounded once; an exact zero is +0 unless both signs are minus. -/
def faddFin (k : FFmt) (s1 : Bool) (m1 : Nat) (e1 : Int) (s2 : Bool) (m2 : Nat) (e2 : Int) : FOut :=
  let (v, e) := dyAdd s1 m1 e1 s2 m2 e2
  if v = 0 then .bits (fsign k (s1 && s2)) false false
  else (fround k (decide (v < 0)) v.natAbs e).out

/-- a + b. -/
def fadd (k : FFmt) (a b : Nat) : FOut :=
  match fdec k a, fdec k b with
  | .nan, _ => .nan
  | _, .nan => .nan
  | .inf s, .inf t => if s = t then .bits (finf k s) false false else .nan
  | .inf s, .fin .. => .bits (finf k s) false false
  | .fin .., .inf t => .bits (finf k t) false false
  | .fin s1 m1 e1, .fin s2 m2 e2 => faddFin k s1 m1 e1 s2 m2 e2

/-- -a: the sign bit inverted. -/
def fneg (k : FFmt) (a : Nat) : Nat :=
  let h := 2 ^ (k.mw + k.ew)
  let x := a % (2 * h)
  if x < h then x + h else x - h

/-- |a|: the sign bit cleared. -/
def fabs (k : FFmt) (a : Nat) : Nat := a % 2 ^ (k.mw + k.ew)

/-- a - b. -/
def fsub (k : FFmt) (a b : Nat) : FOut :=
  if isNan k b then .nan else fadd k a (fneg k b)

/-- a * b. -/
def fmul (k : FFmt) (a b : Nat) : FOut :=
  match fdec k a, fdec k b with
  | .nan, _ => .nan
  | _, .nan => .nan
  | .inf s, .inf t => .bits (finf k (s != t)) false false
  | .inf s, .fin t m _ => if m = 0 then .nan else .bits (finf k (s != t)) false false
  | .fin s m _, .inf t => if m = 0 then .nan else .bits (finf k (s != t)) false false
  | .fin s1 m1 e1, .fin s2 m2 e2 => (fround k (s1 != s2) (m1 * m2) (e1 + e2)).out

/-- c + a * b with one rounding (R127, MAC). -/
def ffma (k : FFmt) (c a b : Nat) : FOut :=
  match fdec k c, fdec k a, fdec k b with
  | .nan, _, _ => .nan
  | _, .nan, _ => .nan
  | _, _, .nan => .nan
  | c', .inf s, .inf t => addInf k c' (s != t)
  | c', .inf s, .fin t m _ => if m = 0 then .nan else addInf k c' (s != t)
  | c', .fin s m _, .inf t => if m = 0 then .nan else addInf k c' (s != t)
  | .inf s, .fin .., .fin .. => .bits (finf k s) false false
  | .fin s m e, .fin s1 m1 e1, .fin s2 m2 e2 => faddFin k s m e (s1 != s2) (m1 * m2) (e1 + e2)
where
  /-- c plus an infinite product. -/
  addInf (k : FFmt) (c : FVal) (s : Bool) : FOut :=
    match c with
    | .inf t => if t = s then .bits (finf k s) false false else .nan
    | _ => .bits (finf k s) false false

/-- a / b; a finite value other than zero divided by zero gives a signed infinity and DIV0 (R129). -/
def fdiv (k : FFmt) (a b : Nat) : FOut :=
  match fdec k a, fdec k b with
  | .nan, _ => .nan
  | _, .nan => .nan
  | .inf _, .inf _ => .nan
  | .inf s, .fin t _ _ => .bits (finf k (s != t)) false false
  | .fin s _ _, .inf t => .bits (fsign k (s != t)) false false
  | .fin s1 m1 e1, .fin s2 m2 e2 =>
    if m2 = 0 then (if m1 = 0 then .nan else .bits (finf k (s1 != s2)) false true)
    else
      let sh := 2 * k.mw + 8
      let n := m1 * 2 ^ sh
      let q := n / m2
      let st := if n % m2 = 0 then 0 else 1
      (fround k (s1 != s2) (2 * q + st) (e1 - e2 - (sh : Int) - 1)).out

/-- The integer square root by bits: the largest r below 2^n with r * r at most x. -/
def isqrtBits (x : Nat) : Nat → Nat → Nat
  | 0, r => r
  | n + 1, r => let t := r + 2 ^ n; isqrtBits x n (if t * t ≤ x then t else r)

/-- Square root; of a negative number a NaN, of minus zero minus zero (R129). -/
def fsqrt (k : FFmt) (a : Nat) : FOut :=
  match fdec k a with
  | .nan => .nan
  | .inf s => if s then .nan else .bits (finf k false) false false
  | .fin s m e =>
    if m = 0 then .bits (fsign k s) false false
    else if s then .nan
    else
      let sh := 2 * k.mw + 8
      let sh := if (e - (sh : Int)) % 2 = 0 then sh else sh + 1
      let n := m * 2 ^ sh
      let r := isqrtBits n ((Nat.log2 n) / 2 + 1) 0
      let st := if r * r = n then 0 else 1
      (fround k false (2 * r + st) ((e - (sh : Int)) / 2 - 1)).out

/-- The order of two numbers that are not NaN: less, equal or greater. -/
def fcmp (k : FFmt) (a b : Nat) : Option Ordering :=
  match fdec k a, fdec k b with
  | .nan, _ => none
  | _, .nan => none
  | .inf s, .inf t => some (if s = t then .eq else if s then .lt else .gt)
  | .inf s, .fin .. => some (if s then .lt else .gt)
  | .fin .., .inf t => some (if t then .gt else .lt)
  | .fin s1 m1 e1, .fin s2 m2 e2 =>
    let (v, _) := dyAdd s1 m1 e1 (!s2) m2 e2
    some (if v < 0 then .lt else if v = 0 then .eq else .gt)

/-- a < b, false on a NaN. -/
def flt (k : FFmt) (a b : Nat) : Bool := fcmp k a b == some .lt
/-- a ≤ b, false on a NaN. -/
def fle (k : FFmt) (a b : Nat) : Bool := fcmp k a b == some .lt || fcmp k a b == some .eq
/-- a = b, false on a NaN. -/
def feq (k : FFmt) (a b : Nat) : Bool := fcmp k a b == some .eq

/-- The lesser of two numbers that are not NaN, minus zero below plus zero. -/
def fmin (k : FFmt) (a b : Nat) : Nat :=
  if flt k a b then a else if flt k b a then b else if fdec k a == .fin true 0 k.emin then a else b

/-- The greater of two numbers that are not NaN, minus zero below plus zero. -/
def fmax (k : FFmt) (a b : Nat) : Nat :=
  if flt k a b then b else if flt k b a then a else if fdec k a == .fin true 0 k.emin then b else a

/-- An integer rounded into the format (R130). -/
def fofInt (k : FFmt) (i : Int) : FRes := fround k (decide (i < 0)) i.natAbs 0

/-- A float converted between the formats; none is a NaN (R130). -/
def fconv (src dst : FFmt) (a : Nat) : FOut :=
  match fdec src a with
  | .nan => .nan
  | .inf s => .bits (finf dst s) false false
  | .fin s m e => (fround dst s m e).out

/-- A float rounded to the nearest integer, ties to even; an infinity is the given bound of its sign, a NaN none (R130). -/
def ftoInt (k : FFmt) (a : Nat) (lo hi : Int) : Option Int :=
  match fdec k a with
  | .nan => none
  | .inf s => some (if s then lo - 1 else hi + 1)
  | .fin s m e =>
    let n := if e ≥ 0 then m * 2 ^ e.toNat else rneShift m (-e).toNat
    some (if s then -(n : Int) else (n : Int))

/-- dt in seconds: the binary32 number of a count of microseconds times the binary32 number 10⁻⁶ (R136, R137; assumption 11). -/
def f32OfMicros (us : Nat) : FOut := fmul f32 (fofInt f32 us).bits 0x358637BD

end Sys2Proof.Machine
end

