-- ==== Sys2Proof/Machine/StEvr.lean ====
section
/-! DEFINITION. Machine/StEvr.lean: the part of State that is the event recorder (19_event_recorder). A field's default
is its value at reset. -/

namespace Sys2Proof.Machine

/-- A record (R465, R468, R469). `mcc` and `subject` are payload bytes 0 to 7, `detail` bytes 8 to 23; for a task
record `mcc` and `subject` hold RA (R469). -/
structure Rec where
  seq : Reg32
  optime : BitVec 40
  sinceInvalid : Bool := false
  bootRom : Bool := false
  deferredTime : Bool := false
  sev : Sev
  src : BitVec 12
  pwr : Reg32
  ttc : Word
  code : BitVec 16
  gen : BitVec 16
  mcc : Reg32
  subject : Reg32
  detail : List Byte
  sinceLast : Reg32
  suppressed : Reg32
  deriving DecidableEq, Repr

/-- A slot of the store; a slot that is not listed is empty, `bad` marks one whose CRC fails (R474). -/
structure StoreSlot where
  slot : Nat
  r : Rec
  bad : Bool := false
  pinned : Bool := false
  deriving DecidableEq, Repr

/-- A read context (R475, R479). -/
structure ReadCtx where
  req : Reg32 := 0
  gen : BitVec 16 := 0
  ring : Bool := false
  skipped : Bool := false
  none : Bool := false
  valid : Bool := false
  busy : Bool := false
  words : List Reg32 := List.replicate 16 0
  deriving DecidableEq, Repr

/-- An entry of the since-last table (R468): source, code, last OPTIME, occurrences suppressed. -/
structure SinceEnt where
  src : BitVec 12
  code : BitVec 16
  optime : BitVec 40
  suppressed : Reg32 := 0
  deriving DecidableEq, Repr

/-- The recorder. `ring` holds the newest record first; `pending` the SEQ of the pending records in ascending
order; `clearWait` the clears accepted during a flush (R476). -/
structure Evr where
  ring : List Rec := []
  pending : List Reg32 := []
  store : List StoreSlot := []
  nextSeq : Reg32 := 1
  newest : Reg32 := 0
  gen : BitVec 16 := 0
  flushing : Bool := false
  drops : List (BitVec 16) := List.replicate 8 0
  dropChanged : Bool := false
  overwritten : BitVec 16 := 0
  notStored : BitVec 8 := 0
  bad : BitVec 8 := 0
  since : List SinceEnt := []
  ctx : List ReadCtx := List.replicate 8 {}
  clearWait : List (Nat × BitVec 64) := []
  deriving DecidableEq, Repr

end Sys2Proof.Machine
end

