-- ==== Sys2Proof/Machine/StOut.lean ====
section
/-! DEFINITION. Machine/StOut.lean: what the module sends out. State.out is the model's own log of it: every frame, pulse
and interrupt a command makes the module give, newest first. No meaning reads it. -/

namespace Sys2Proof.Machine

/-- Something that leaves the module. -/
inductive Out where
  | eth (p : Port) (f : EthFrame)
  | mvbMaster (fcode addr : Nat)
  | mvbSlave (addr : Nat) (data : List Byte)
  | can (p : Port) (f : CanFrame)
  | gl (l : GLink) (f : GlFrame)
  | failSilentSet (l : GLink)
  | syncOut (mcc : Mcc)
  | safeOut (so0 so1 : Bool)
  | dataToTk (src : Nat)
  | busError (core : Nat)
  | loaded (core : Nat) (value : Reg32)
  | loaded64 (core : Nat) (value : Word)
  | irqCall (slot : Nat)
  | irqPmu (core : Nat)
  | irqTask (task : Nat) (rel : Mcc) (priority : Nat)
  | irqDormant (mcc : Mcc)
  | chain (f : EthFrame)
  | chainOut (dst : ChainSrc) (planes : Nat) (m : ChainMsg)
  deriving DecidableEq, Repr

end Sys2Proof.Machine
end

