-- ==== Sys2Proof/Machine/StPin.lean ====
section
/-! DEFINITION. Machine/StPin.lean: the part of State that is supplies, straps, LEDs (02_connectors_supplies_environment),
clocks (03_clock_domains), identification (22_register_map) and the performance counters (20_performance_counters). A
field's default is its value at reset. -/

namespace Sys2Proof.Machine

/-- The slot straps as the pins read: GPOS tied bits, RACK_ID and RACK_PAR (R34). -/
structure Straps where
  gpos : BitVec 3 := 0
  rack : BitVec 6 := 0x3F
  par : Bool := true
  deriving DecidableEq, Repr

/-- A power-fail warning: over-voltage or undervoltage, the TTC at which the input left its range (R35, R36). -/
structure PfWarn where
  overVoltage : Bool
  since : Word
  deriving DecidableEq, Repr

/-- Supplies, pins and LEDs. `ledPhase` 1 to 4 are the phases of the LED test (R29), `supplyHigh` that 24V_IN has risen
through the power-up threshold, `store` the energy in the hold-up store in nJ, `charged` that it has been full since power good (R33, R523), `glbId`, `glbCaps` and `glbRegmap` the
identification registers that are fixed (R1, R509). -/
structure Pin where
  qualifying : Bool := false
  powerGood : Bool := false
  warn : Option PfWarn := none
  cutOff : Bool := false
  supplyHigh : Bool := false
  wakeAccepted : Bool := false
  vstbyLow : Bool := false
  rstHeld : Bool := false
  straps : Straps := {}
  latched : Option Straps := none
  ledPhase : Nat := 0
  hwRev : Reg32 := 0
  mfg : Reg32 := 0
  glbId : Reg32 := 0x55530048
  glbCaps : Reg32 := 0x3008100D
  glbRegmap : Reg32 := 0x0100
  store : Nat := 0
  charged : Bool := false
  deriving DecidableEq, Repr

/-- The CLK block (R63): 19 bits in the order of CLK_STATUS and CLK_FAULT; `maxStep` is CLK_AC_STEP.MAX_STEP, `devNs` the time in ns
of the running 10 ms window of CLK_REF_DEV, `first` the clock fault that is the primary cause with the clocks recorded since. -/
structure Clk where
  ok : BitVec 19 := 0
  fault : BitVec 19 := 0
  refDev : BitVec 16 := 0
  devNs : Nat := 0
  maxStep : BitVec 3 := 0
  acMask : Bool := false
  first : Option (Word × List Nat) := none
  deriving DecidableEq, Repr

/-- One monitor instance (R481 to R485, R493): `cycT` the fixed counter in tenths of a cycle. -/
structure PmuInst where
  en : Byte := 0
  userEn : Bool := false
  gen : BitVec 16 := 0
  badsel : Bool := false
  ovf : Byte := 0
  cycT : Nat := 0
  filtCtrl : Reg32 := 0
  filtBase : Reg32 := 0
  filtLimit : Reg32 := 0
  spc : Word := 0
  cnt : List (BitVec 48) := List.replicate 8 0
  evsel : List Reg32 := List.replicate 8 0
  irq : Bool := false
  deriving DecidableEq, Repr

/-- A dump record being written: its bytes and DRAM address (R490, R491). -/
structure DumpRec where
  addr : Word
  bytes : List Byte
  deriving DecidableEq, Repr

/-- The PMU (R493). `prev` holds instance and CONFIG_GEN of the blocks of the previous record. -/
structure Pmu where
  inst : List PmuInst := List.replicate 13 {}
  arm : Bool := false
  interval : BitVec 16 := 0
  sel : BitVec 13 := 0
  base : Word := 0
  size : BitVec 5 := 0
  tail : BitVec 16 := 0
  head : BitVec 16 := 0
  lost : BitVec 16 := 0
  seq : Reg32 := 0
  next : Option Mcc := none
  active : Option DumpRec := none
  prev : List (Nat × BitVec 16) := []
  ovfSince : List Nat := []
  deriving DecidableEq, Repr

end Sys2Proof.Machine
end

