-- ==== Sys2Proof/Machine/State.lean ====
section
/-! DEFINITION. Machine/State.lean: the whole state of the block, its faults and refusals, and its state at reset. -/

namespace Sys2Proof.Machine

/-- The module: one field per unit of the manual, with the queue of the commands that wait (`pending`, first in, first
out), the application cluster's DRAM (R503), the core accesses that the HOST port FIFO holds while the cores stall (`host`, R58), and the model's own log of what has left the module (`out`). -/
structure State where
  pending : List Instr := []
  ci : Ci := {}
  fab : Fabric := {}
  cyc : Cyc := {}
  glb : Glb := {}
  pim : Pim := {}
  arb : Arb := {}
  txe : Txe := {}
  eth : Eth := {}
  mvb : Mvb := {}
  can0 : Can := {}
  can1 : Can := {}
  gw : Gw := {}
  tb : TimeBase := {}
  grp : Grp := {}
  safe : Safe := {}
  tk : Tkmb := {}
  upd : Upd := {}
  pgv : Pgv := {}
  rst : Rst := {}
  cul : Cullet := {}
  evr : Evr := {}
  pmu : Pmu := {}
  pin : Pin := {}
  clk : Clk := {}
  dram : Mem := []
  host : List Instr := []
  latches : List (Nat × Nat × Reg32) := []
  out : List Out := []
  deriving DecidableEq, Repr

/-- Why the machine stops. No command of the manual's table stops it, so no meaning answers with it; it is
there for the interface's three outcomes. Safe. -/
inductive Fault where
  /-- Raised by no command. Safe. -/
  | none
  deriving DecidableEq, Repr

/-- Why a command has no meaning. -/
inductive Refusal where
  /-- Raised by an arm of `exec` whose command has no meaning yet. Safe: nothing can be proved of it. -/
  | notModelled (mnemonic : String)
  deriving DecidableEq, Repr

/-- The module before its first power-up: not powered, every register at the value its chapter gives for power-on, memory,
queues, the Cullet and the image stores empty. POWER_UP_THRESHOLD, POWER_GOOD, TRUSTED_KERNEL_START and
ACTIVE_PLANE_LOADED bring it up, in that order (R33, R187, R415, R424, R454). -/
def State.reset : State := {}

end Sys2Proof.Machine
end

