-- ==== Sys2Proof/Machine/Ops.lean ====
section
/-! DEFINITION. Machine/Ops.lean: the named operations the meanings share: byte memory, the event recorder's writing of a
record, tiles, and lookups in the active image. -/

namespace Sys2Proof.Machine

/-! ## Byte memory -/

/-- The byte at an address; an unlisted byte reads zero (R121). -/
def Mem.read : Mem → Nat → BitVec 8
  | [], _ => 0
  | (a, b) :: m, x => if a = x then b else if x < a then 0 else Mem.read m x

/-- One byte written; a zero byte is not listed, so equal memories are equal lists. -/
def Mem.write : Mem → Nat → BitVec 8 → Mem
  | [], x, v => if v = 0 then [] else [(x, v)]
  | (a, b) :: m, x, v =>
    if x < a then (if v = 0 then (a, b) :: m else (x, v) :: (a, b) :: m)
    else if x = a then (if v = 0 then m else (x, v) :: m)
    else (a, b) :: Mem.write m x v

/-- The canonical form: addresses rising from `lo` on, no zero byte. -/
def Mem.wfFrom : Nat → Mem → Bool
  | _, [] => true
  | lo, (a, b) :: m => decide (lo ≤ a) && decide (b ≠ 0) && Mem.wfFrom (a + 1) m

/-- A memory in canonical form. -/
def Mem.wf (m : Mem) : Bool := Mem.wfFrom 0 m

/-- n bytes from an address as a little-endian number (R100, R204). -/
def Mem.readLE (m : Mem) (a : Nat) : Nat → Nat
  | 0 => 0
  | n + 1 => (m.read a).toNat + 256 * Mem.readLE m (a + 1) n

/-- A number written as n little-endian bytes. -/
def Mem.writeLE (m : Mem) (a : Nat) : Nat → Nat → Mem
  | 0, _ => m
  | n + 1, v => Mem.writeLE (m.write a (BitVec.ofNat 8 (v % 256))) (a + 1) n (v / 256)

/-- A list of bytes written from an address on. -/
def Mem.writeList (m : Mem) (a : Nat) : List (BitVec 8) → Mem
  | [] => m
  | b :: bs => Mem.writeList (m.write a b) (a + 1) bs

/-- n bytes from an address on. -/
def Mem.readList (m : Mem) (a : Nat) : Nat → List (BitVec 8)
  | 0 => []
  | n + 1 => m.read a :: Mem.readList m (a + 1) n

/-- The memory without the bytes of lo ≤ address < hi, which then read zero. -/
def Mem.clear (m : Mem) (lo hi : Nat) : Mem := m.filter (fun c => decide (c.1 < lo) || decide (hi ≤ c.1))

/-! ## Time -/

/-- The clock of monitor instance i in tenths of a cycle per ns: the cores at the granted step, stopped while the cluster is stalled and during
a step change, every other instance at 800 MHz (R52, R58, R449, R481, R482). -/
def pmuRate (s : State) (i : Nat) : Nat := if 8 ≤ i then 8 else if s.clk.acMask || s.pgv.stalled then 0 else 6 + 2 * s.pgv.granted.toNat

/-- Whether an instance is a core's (R481). -/
def isAc (i : Nat) : Bool := decide (i < 8)

/-- A monitor instance changed. -/
def modPmu (s : State) (i : Nat) (f : PmuInst → PmuInst) : State := { s with pmu := { s.pmu with inst := modNth s.pmu.inst i f } }

/-- Whether counter j of an instance counts event ev now: enabled, MODE 0, not chained (R482 to R484). -/
def pmuHit (p : PmuInst) (j ev : Nat) : Bool :=
  let e := nthD p.evsel j 0
  bit p.en j && !bit e 11 && !(j % 2 == 1 && bit e 12) && (e.extractLsb' 0 10 : BitVec 10).toNat == ev

/-- How often counter j wraps when n is added. -/
def pmuWraps (p : PmuInst) (j n : Nat) : Nat := ((nthD p.cnt j 0).toNat + n) / 2 ^ 48

/-- n added to counter j of instance i: a wrap sets OVF and, on a core's counter with IRQ, raises the core's performance interrupt (R482,
R485). -/
def pmuAdd (i j n : Nat) (spc : Word) (p : PmuInst) : PmuInst :=
  let w := decide (0 < pmuWraps p j n)
  let irq := w && isAc i && bit (nthD p.evsel j 0) 13
  { p with
    cnt := modNth p.cnt j (· + BitVec.ofNat 48 n), ovf := if w then setBit p.ovf j else p.ovf
    irq := p.irq || irq, spc := if irq then spc else p.spc }

/-- n events at counter j, and the wraps at the counter chained to it (R483). -/
def pmuAddCh (i j n : Nat) (spc : Word) (p : PmuInst) : PmuInst :=
  let w := pmuWraps p j n
  let q := pmuAdd i j n spc p
  if 0 < w ∧ j % 2 = 0 ∧ bit (nthD p.evsel (j + 1) 0) 12 = true ∧ bit p.en (j + 1) = true then pmuAdd i (j + 1) w spc q else q

/-- n events of number ev at an instance: every counter that counts them (R482, R484, R487). -/
def pmuEvent (i ev n : Nat) (spc : Word) (p : PmuInst) : PmuInst :=
  (List.range 8).foldl (fun q j => if pmuHit p j ev then pmuAddCh i j n spc q else q) p

/-- Whether the application cores stand still: during a step change of CLK_AC, or stalled by the governor (R58, R449). -/
def coresStopped (s : State) : Bool := s.clk.acMask || s.pgv.stalled

/-- An access `c` of a core; a cluster in reset gets a bus error and nothing happens; while the cores stand still the HOST port FIFO holds it
(R58, R449, R452, R503, R511; assumption 160). -/
def coreAccess (s : State) (core : Fin 8) (c : Instr) (k : State → State) : State :=
  if s.rst.clusterHeld then { s with out := .busError core.val :: s.out }
  else if coresStopped s then { s with host := s.host ++ [c] }
  else k s

/-- A store `c` of the runtime that names no core: a cluster in reset makes none; while the cores stand still the HOST port FIFO holds it (R58, R449,
assumption 160). -/
def coreStall (s : State) (c : Instr) (k : State → State) : State :=
  if s.rst.clusterHeld then s
  else if coresStopped s then { s with host := s.host ++ [c] }
  else k s

/-- n events of number ev observed by instance i (R487). -/
def pmuCount (s : State) (i ev n : Nat) : State :=
  let p := nthD s.pmu.inst i {}
  let q := pmuEvent i ev n (Config.spcFree s.tb.ttc) { p with ovf := 0, irq := false }
  let s1 := modPmu s i (fun _ => { q with ovf := p.ovf ||| q.ovf, irq := p.irq || q.irq })
  let s2 := if q.ovf = 0 ∨ s1.pmu.ovfSince.contains i = true then s1
    else { s1 with pmu := { s1.pmu with ovfSince := i :: s1.pmu.ovfSince } }
  if q.irq then { s2 with out := .irqPmu i :: s2.out } else s2

/-- n ns at an instance: the fixed counter, and the counters that count its clock (R482, R487). -/
def pmuTick (n : Nat) (s : State) (i : Nat) : State :=
  let t := (nthD s.pmu.inst i {}).cycT
  let t' := t + n * pmuRate s i
  pmuCount (modPmu s i (fun p => { p with cycT := t' })) i 0x001 (t' / 10 - t / 10)

/-- n ns at all instances. -/
def pmuPass (s : State) (n : Nat) : State := (List.range 13).foldl (pmuTick n) s

/-- The energy of a full hold-up store in nJ: 60 W for 20 ms (R33, R523). -/
def storeFull : Nat := 1200000000

/-- What reaches the store of the recharge in nJ in n ns: of its floor of 17 tokens 1.8 W, and of each token of headroom the same share (R446,
R523, assumption 36). -/
def rechargeNj (s : State) (n : Nat) : Nat := n * (17 + s.pgv.headroom.toNat) * 18 / 170

/-- The store's content after n ns: during a power-fail warning it gives what the input last drew, 0.125 W a token; else it fills, in the 400 ms
after power good at 3 W and later by the recharge (R33, R35, R37, R446, R523; DESIGN CHOICE, assumption 36). -/
def storeAfter (s : State) (n : Nat) : Nat :=
  if s.pin.warn.isSome then s.pin.store - n * s.pgv.input.toNat / 8
  else min storeFull (s.pin.store + if s.pin.charged then rechargeNj s n else n * 3)

/-- CLK_REF_DEV after n ns: a new measurement at the end of each window of 10 ms, within the limit of R60 that the monitor reports (R60, R63). -/
def devAfter (c : Clk) (ttc : Word) (n : Nat) : Clk :=
  let d := Config.refDev (ttc + BitVec.ofNat 64 n)
  { c with
    devNs := (c.devNs + n) % 10000000
    refDev := if 10000000 ≤ c.devNs + n then BitVec.ofInt 16 (max (-2000) (min d 2000)) else c.refDev }

/-- n ns pass: the TTC advances, and the operating time with it while the trusted kernel runs and the module is not dormant; the hold-up store
fills or empties, the window of CLK_REF_DEV goes on (R10, R60, R306, R523). -/
def passTime (s : State) (n : Nat) : State :=
  let tot := s.cul.opNs + n
  let s1 := pmuPass s n
  { s1 with
    tb := { s1.tb with ttc := s.tb.ttc + BitVec.ofNat 64 n }
    pin := { s1.pin with store := storeAfter s n, charged := s.pin.charged || storeAfter s n == storeFull }
    clk := devAfter s1.clk s.tb.ttc n
    cul := if s.tk.running = false ∨ s.glb.state = .dormant then s.cul
           else { s.cul with optime := s.cul.optime + BitVec.ofNat 40 (tot / 100000000), opNs := tot % 100000000 } }

/-- What the servo's correction adds to 8 ns of CLK_TTC, in 10^-9 ns (R52, R312). -/
def tickFrac (tb : TimeBase) : Int := tb.frac + 8 * (tb.freqPpb - tb.phasePpb)

/-- The ns of one tick of CLK_TTC: 8 and what the fractional correction has gathered (R52). -/
def tickNs (tb : TimeBase) : Nat := (8 + tickFrac tb / 1000000000).toNat

/-- A step with nothing waiting: one tick of CLK_TTC, 8 ns plus the fractional correction of the servo, while the module has power and is not
dormant (R52, R306; DESIGN CHOICE, assumption 1). -/
def idle (s : State) : State :=
  if s.pin.powerGood && s.glb.state != .dormant then
    let s1 := passTime s (tickNs s.tb)
    { s1 with tb := { s1.tb with frac := tickFrac s.tb % 1000000000 } }
  else s

/-- Time passes to a TTC that lies ahead; one that does not lie ahead changes nothing. -/
def passTo (s : State) (t : Word) : State :=
  if 0 < (t - s.tb.ttc).toInt then passTime s (t - s.tb.ttc).toNat else s

/-- CLK_STATUS.RXCLK_OK of the receive clock of ECN-A, ECN-B, MAINT, GL-L or GL-R, 0 to 4 (R63). -/
def rxClk (s : State) (i : Nat) (v : Bool) : State :=
  { s with clk := { s.clk with ok := if v then setBit s.clk.ok (14 + i) else clrBit s.clk.ok (14 + i) } }

/-! ## The event recorder -/

/-- The since-last entry of a source and code (R468). -/
def sinceOf (l : List SinceEnt) (src : BitVec 12) (code : BitVec 16) : Option SinceEnt :=
  l.find? (fun e => e.src == src && e.code == code)

/-- The since-last table after a use of a pair: the most recently used first, at most 1,024 (R468). -/
def sinceUse (l : List SinceEnt) (e : SinceEnt) : List SinceEnt :=
  (e :: l.filter (fun x => !(x.src == e.src && x.code == e.code))).take 1024

/-- The next SEQ: 0 is skipped (R465). -/
def seqNext (x : Reg32) : Reg32 := if x + 1 = 0 then 1 else x + 1

/-- The severity of a ring record by SEQ. -/
def sevOf (ring : List Rec) (q : Reg32) : Nat :=
  match ring.find? (fun r => r.seq == q) with
  | some r => r.sev.num
  | none => 0

/-- The least severity among the pending records. -/
def minSev (ring : List Rec) : List Reg32 → Nat
  | [] => 8
  | q :: qs => min (sevOf ring q) (minSev ring qs)

/-- The list without its first element that satisfies p. -/
def dropFirst (p : α → Bool) : List α → List α
  | [] => []
  | x :: xs => if p x then xs else x :: dropFirst p xs

/-- The pending set after a new record of INFO or above, at most 512, and whether one was not stored (R472). -/
def pendAdd (ring : List Rec) (pend : List Reg32) (r : Rec) : List Reg32 × Bool :=
  if r.sev = .trace then (pend, false)
  else if pend.length < 512 then (pend ++ [r.seq], false)
  else
    let m := minSev ring pend
    if r.sev.num ≤ m then (pend, true)
    else (dropFirst (fun q => sevOf ring q == m) pend ++ [r.seq], true)

/-- A record put into the ring of 16,384; the oldest goes when it is full and counts when it was pending (R472).
A severity of ERROR or above starts a flush (R466, R473). -/
def Evr.write (e : Evr) (r : Rec) : Evr :=
  let full := decide (e.ring.length ≥ 16384)
  let lost := if full then e.ring.getLast? else none
  let lostPend := match lost with
    | some x => e.pending.contains x.seq
    | none => false
  let pend0 := match lost with
    | some x => e.pending.filter (· != x.seq)
    | none => e.pending
  let ring := r :: (if full then e.ring.dropLast else e.ring)
  let (pend, ns) := pendAdd ring pend0 r
  { e with
    ring := ring
    pending := pend
    newest := r.seq
    nextSeq := seqNext r.seq
    overwritten := if lostPend then satInc e.overwritten else e.overwritten
    notStored := if ns then satInc e.notStored else e.notStored
    flushing := e.flushing || decide (4 ≤ r.sev.num) }

/-- The record of an event now: SEQ, OPTIME, PWR_CYCLES, TTC (zero while TIME_VALID is clear), generation and the
since-last fields (R465, R467, R468, R469). -/
def mkRec (s : State) (sev : Sev) (src : BitVec 12) (code : BitVec 16) (mcc subject : Reg32) (detail : List Byte) : Rec :=
  let p := sinceOf s.evr.since src code
  { seq := s.evr.nextSeq, optime := s.cul.optime, sev, src, code, mcc, subject
    pwr := s.cul.pwrCycles
    ttc := if s.tb.valid then s.tb.ttc else 0
    gen := s.evr.gen
    detail := detail.take 16
    sinceInvalid := p.isNone
    bootRom := !s.tk.running
    sinceLast := match p with
      | none => 0xFFFFFFFF
      | some e => BitVec.ofNat 32 (min (s.cul.optime.toNat - e.optime.toNat) 0xFFFFFFFE)
    suppressed := match p with
      | none => 0
      | some e => e.suppressed }

/-- A record raised now; `subject` is the SID, tag, position, port, tile, task or address the owning rule names. -/
def recordAs (s : State) (r : Rec) : State :=
  { s with evr := { (s.evr.write r) with
      since := sinceUse s.evr.since ⟨r.src, r.code, r.optime, 0⟩ } }

/-- A record of a source that is no task (R469). -/
def record (s : State) (sev : Sev) (src : BitVec 12) (code : BitVec 16) (subject : Nat := 0) (detail : List Byte := []) : State :=
  recordAs s (mkRec s sev src code s.cyc.mcc (BitVec.ofNat 32 subject) detail)

/-- An occurrence that a limit such as "once per major cycle" keeps from being written (R468). -/
def suppress (s : State) (src : BitVec 12) (code : BitVec 16) : State :=
  { s with evr := { s.evr with since := s.evr.since.map (fun e =>
      if e.src == src && e.code == code then { e with suppressed := satInc e.suppressed } else e) } }

/-! ## The active image -/

/-- The record of a signal in an image, if the image defines it. -/
def sigRec (g : ConfImage) (sid : Sid) : Option SigRec := g.sigs.find? (fun r => r.sid == sid)

/-- The record of a task in an image. -/
def taskRec (g : ConfImage) (id : Nat) : Option TaskRec := g.tasks.find? (fun r => r.id == id)

/-- T_base in ns of the active plane (R146). -/
def tbaseNs (s : State) : Nat := s.ci.act.time.tbaseUs * 1000

/-- Whether the image is a group's (R80). -/
def inGroup (s : State) : Bool := s.ci.act.group.group

/-- n_max: the largest PERIOD_EXP of a task (R147). -/
def nMax (g : ConfImage) : Nat := (g.tasks.map (·.periodExp)).foldl max 0

/-- A boundary whose MCC is a multiple of 2^n_max (R147). -/
def isMajor (g : ConfImage) (m : Mcc) : Bool := m.toNat % 2 ^ nMax g == 0

/-- The image of the plane that a code half names (R87, R100). -/
def planeImg (s : State) (half : BitVec 1) : ConfImage := if half = s.ci.plane then s.ci.act else s.ci.shd

/-- The program a tile runs: the image of the plane its code half names (R87, R100). -/
def tileProg (s : State) (n : TileNo) (half : BitVec 1) : TileProg := nthD (planeImg s half).progs n.val {}

/-- The tile record of the active plane (R70). -/
def tileRec (g : ConfImage) (n : TileNo) : TileRec := nthD g.tiles n.val { tile := n.val }

/-- The tiles whose record names a task, in ascending order (R105). -/
def tilesOf (g : ConfImage) (task : Nat) : List Nat :=
  ((List.range 48).zip g.tiles).filterMap (fun (i, r) => if r.task.toNat = task then some i else none)

/-! ## Tiles -/

/-- The state with tile n changed. -/
def modTile (s : State) (n : TileNo) (g : Tile → Tile) : State := { s with fab := s.fab.modTile n g }

/-- A tile's memory with its local data set to the initial image, the rest of local data zero (R121, R144). -/
def initLocal (p : TileProg) (m : Mem) : Mem := (m.clear 0x20000 0x30000).writeList 0x20000 p.localInit

/-- A tile's memory after the initialisation of R121: local data, and the windows and the network buffers zero; the mailbox and the release
block stay. -/
def initMem (p : TileProg) (m : Mem) : Mem := initLocal p (m.clear 0x30000 0x3F000)

/-- A tile's local data, windows and network buffers initialised (R121). -/
def Tile.init (t : Tile) (p : TileProg) : Tile := { t with mem := initMem p t.mem, layout := p.layoutId }

/-- A tile's local data alone initialised, at a class 1 swap (R144). -/
def Tile.initData (t : Tile) (p : TileProg) : Tile := { t with mem := initLocal p t.mem, layout := p.layoutId }

/-- The instant at which a tile stands in its instance, on the TTC: the release and the cycles run since, 1.25 ns each (R104). -/
def Tile.now (t : Tile) : Word := t.relTtc + BitVec.ofNat 64 (5 * t.cyc / 4)

/-- The event task's queue with an entry put back at its head and no handler executing (R118). -/
def requeue (g : Glb) (h : HandlerRun) : Glb :=
  { g with evts := modNth g.evts h.task (fun e => { e with queue := h.entry :: e.queue, active := false }) }

/-- Every instance of a task in flight made incomplete (R106, R116). -/
def breakTask (g : Glb) (task : Nat) : Glb :=
  { g with inst := g.inst.map (fun i => if i.task = task then { i with broken := true } else i) }

/-- The code half that a tile's initialisation reads: the active plane's, but that of an instance or a handler still on it (R118, R121). -/
def Tile.initHalf (t : Tile) (plane : BitVec 1) : BitVec 1 :=
  if t.inst || t.hand.isSome || t.phase == .reset then t.codeHalf else plane

/-- The tile initialised at a COLD or WARM restart: data of the plane that its next release runs (R118, R121). -/
def Tile.restartInit (t : Tile) (s : State) (n : TileNo) : Tile :=
  let half := t.initHalf s.ci.plane
  { t.init (tileProg s n half) with codeHalf := half }

/-- The tile held in reset: epoch raised, V fields of its page returned, S fields kept, no instance, no handler (R116,
R119). -/
def Tile.held (t : Tile) : Tile :=
  { t with
    phase := .reset, hand := none, open0 := none, recs := [], sent := [], cyc := 0, deadline := 0, budget := 0, inst := false
    tsf := 0, pc := 0, loops := []
    epoch := t.epoch + 1
    codeHalf := 0, task := 0xFF, wcet := 0, lastCyc := 0, instances := 0, handlers := 0, windows := 0, dbgEn := false }

/-- All tiles held in reset by a FABRIC reset, which also abandons the unfinished instances and the handlers of the fabric and
clears the FABRIC monitor (R106, R115, R481). -/
def fabricHold (s : State) (esc : Bool) : State :=
  let hs := s.fab.tiles.filterMap (·.hand)
  let g := hs.foldl requeue s.glb
  { s with
    pmu := { s.pmu with inst := setNth s.pmu.inst 8 {}, prev := s.pmu.prev.filter (fun x => x.1 != 8) }
    glb := { g with inst := g.inst.map (fun i =>
      if (match taskRec s.ci.act i.task with
          | some r => r.engine == 0 && !i.complete
          | none => false) then { i with broken := true } else i) }
    fab := { s.fab with
      tiles := s.fab.tiles.map Tile.held
      epoch := s.fab.epoch + 1, state := .loading, escalated := esc, resetTile := 0 } }

/-- The ages within 60 s of operation: the entries of a list of operating times (0.1 s) that lie in it. -/
def within60 (now : BitVec 40) (l : List Nat) : List Nat := l.filter (fun t => decide (now.toNat < t + 600))

/-- A FABRIC reset caused by escalation; a second one within 60 s of operation leaves the fabric HALTED and sends the
module into STOP (R117). -/
def fabricEscalate (s : State) : State :=
  let again := match s.fab.lastEsc with
    | some t => decide (s.cul.optime.toNat < t + 600)
    | none => false
  let s1 := fabricHold s true
  let s2 := { s1 with fab := { s1.fab with lastEsc := some s.cul.optime.toNat }
                      rst := { s1.rst with source := .escalation, kind := 5 } }
  if again then
    record { s2 with fab := { s2.fab with state := .halted }, glb := { s2.glb with haltStop := true } }
      .critical srcFab (cState 4)
  else s2

/-- The record of a TILE reset by the tile's situation (R118): WARNING while a handler runs, NOTICE while the tile is otherwise idle; with an
instance in flight the record of the cause stands alone, and a commanded reset, which has none, writes ERROR (DESIGN CHOICE, assumption 166). -/
def tileResetRecord (s : State) (n : TileNo) (commanded : Bool) : State :=
  let t := s.fab.tile n
  if t.hand.isSome then record s .warning (srcTile n) (cFault 0) n.val
  else if !t.inst then record s .notice (srcTile n) (cFault 0) n.val
  else if commanded then record s .error (srcTile n) (cFault 0) n.val
  else s

/-- A TILE reset of tile n (R116): the tile is held until its reset ends, its FAULT bit latched, the instance of its
task incomplete, a running handler's event put back; a third one within 60 s of operation escalates (R117). A
HALTED fabric stays as it is. -/
def resetTile (s : State) (n : TileNo) : State :=
  let t := s.fab.tile n
  let g1 := match t.hand with
    | some h => requeue s.glb h
    | none => s.glb
  let g2 := if t.inst then breakTask g1 t.task.toNat else g1
  let recent := s.cul.optime.toNat :: within60 s.cul.optime t.resets
  let s1 := pmuCount { s with
    glb := g2
    fab := { (s.fab.modTile n (fun t => { t.held with resets := recent })) with fault := setBit s.fab.fault n.val } } 8 0x209 1
  if recent.length ≥ 3 then fabricEscalate s1 else s1

/-- A TILE reset of a cause, with the record of the tile's situation (R116, R118, R464). -/
def tileReset (s : State) (n : TileNo) (src : ResetSource) : State :=
  if s.fab.state = .halted then s
  else resetTile (tileResetRecord { s with rst := { s.rst with source := src, kind := 6 } } n (src == .command)) n

/-- The tile is stopped by an access outside R131 or a reserved opcode: an ERROR record naming tile and address, and a
TILE reset exactly as for an expired deadline counter (R131, R145). -/
def tileTrap (s : State) (n : TileNo) (addr : Nat) : State :=
  tileReset (record s .error (srcTile n) (cFault 0) n.val (beBytes 4 addr)) n .deadline

end Sys2Proof.Machine
end

