-- ==== Sys2Proof/Machine/Operands.lean ====
section
/-! DEFINITION. Machine/Operands.lean: how a tile instruction reads its operands at the width of its TYPE and writes its
result (06_tile_instruction_set, R125, R126). -/

namespace Sys2Proof.Machine

/-- A general register; G0 reads as zero (R123). -/
def Tile.reg (t : Tile) (r : GReg) : Word := if r = 0 then 0 else nthD t.regs r.toNat 0

/-- A general register written; a write to G0 is discarded (R123). -/
def Tile.setReg (t : Tile) (r : GReg) (v : Word) : Tile :=
  if r = 0 then t else { t with regs := setNth t.regs r.toNat v }

/-- The low bits of a register at the width of an int or bit type, as the number they stand for (R126, R128). -/
def opnd (ty : BitVec 4) (w : Word) : Int :=
  if tySigned ty then (w.setWidth (tyWidth ty)).toInt else ((w.setWidth (tyWidth ty)).toNat : Int)

/-- A number written at a type modulo 2^width: signed integers sign-extended, the others zero-extended (R126, R128). -/
def wrapTo (ty : BitVec 4) (i : Int) : Word :=
  let x : BitVec (tyWidth ty) := BitVec.ofInt (tyWidth ty) i
  if tySigned ty then x.signExtend 64 else x.setWidth 64

/-- The least value of an int or bit type. -/
def tyMin (ty : BitVec 4) : Int := if tySigned ty then -(2 ^ (tyWidth ty - 1) : Int) else 0

/-- The greatest value of an int or bit type. -/
def tyMax (ty : BitVec 4) : Int := if tySigned ty then (2 ^ (tyWidth ty - 1) : Int) - 1 else (2 ^ tyWidth ty : Int) - 1

/-- The floating format of REAL or LREAL. -/
def tyFmt (ty : BitVec 4) : FFmt := if ty = 10 then f64 else f32

/-- The bits of a floating operand: bits [31:0] for REAL. -/
def fbits (ty : BitVec 4) (w : Word) : Nat := if ty = 10 then w.toNat else w.toNat % 2 ^ 32

/-- A register read at a type and written back at it (R126): what MOV and SEL carry. -/
def retype (ty : BitVec 4) (w : Word) : Word :=
  match tyClass ty with
  | .float => BitVec.ofNat 64 (fbits ty w)
  | _ => wrapTo ty (opnd ty w)

/-- A BOOL operand: true when bit 0 is set (R126). -/
def isTrue (w : Word) : Bool := w.getLsbD 0

end Sys2Proof.Machine
end

