-- ==== Sys2Proof/Machine/Flags.lean ====
section
/-! DEFINITION. Machine/Flags.lean: the tile status flags and how a result sets them (06_tile_instruction_set, R123, R128,
R129). -/

namespace Sys2Proof.Machine

/-- TSF bit 0 (R123). -/
def fOVF : BitVec 5 := 1
/-- TSF bit 1 (R123). -/
def fDIV0 : BitVec 5 := 2
/-- TSF bit 2 (R123). -/
def fINV : BitVec 5 := 4
/-- TSF bit 3 (R123). -/
def fLNCH : BitVec 5 := 8
/-- TSF bit 4 (R123). -/
def fEVDROP : BitVec 5 := 16

/-- A result: the value for RD and the flags it sets. -/
abbrev Res := Word × BitVec 5

/-- A flag set when a condition holds. -/
def flagIf (c : Bool) (f : BitVec 5) : BitVec 5 := if c then f else 0

/-- Whether a true result lies outside a type. -/
def outOf (ty : BitVec 4) (i : Int) : Bool := decide (i < tyMin ty) || decide (tyMax ty < i)

/-- An integer result that wraps, setting OVF when out of range (R128). -/
def wrapRes (ty : BitVec 4) (i : Int) : Res := (wrapTo ty i, flagIf (outOf ty i) fOVF)

/-- An integer result that saturates, setting OVF when out of range (R128). -/
def satRes (ty : BitVec 4) (i : Int) : Res := (wrapTo ty (clampInt i (tyMin ty) (tyMax ty)), flagIf (outOf ty i) fOVF)

/-- Wrapping or saturating by FN bit 0 (R128). -/
def intRes (sat : Bool) (ty : BitVec 4) (i : Int) : Res := if sat then satRes ty i else wrapRes ty i

/-- A floating result: a NaN of free sign and payload sets INV, an overflow OVF, a division by zero DIV0 (R129). -/
def fltRes (op : Nat) (ty : BitVec 4) (a b c : Word) (o : FOut) : Res :=
  match o with
  | .nan => (BitVec.ofNat 64 (fnan (tyFmt ty) (Config.nanFree op a b c)), fINV)
  | .bits n ovf d0 => (BitVec.ofNat 64 n, flagIf ovf fOVF ||| flagIf d0 fDIV0)

/-- A BOOL result. -/
def boolRes (b : Bool) : Res := (b2w b, 0)

end Sys2Proof.Machine
end

