-- ==== Sys2Proof/Machine/TileAlu.lean ====
section
/-! DEFINITION. Machine/TileAlu.lean: the results of the tile's arithmetic, logic, comparison, conversion and quality
instructions as functions of their operands (06_tile_instruction_set, R127 to R130, R138). -/

namespace Sys2Proof.Machine

/-- ADD (R127, R128, R129). -/
def resAdd (f : RR) (a b : Word) : Res :=
  match tyClass f.ty with
  | .float => fltRes 0x03 f.ty a b 0 (fadd (tyFmt f.ty) (fbits f.ty a) (fbits f.ty b))
  | _ => intRes (bit f.fn 0) f.ty (opnd f.ty a + opnd f.ty b)

/-- SUB (R127, R128, R129). -/
def resSub (f : RR) (a b : Word) : Res :=
  match tyClass f.ty with
  | .float => fltRes 0x05 f.ty a b 0 (fsub (tyFmt f.ty) (fbits f.ty a) (fbits f.ty b))
  | _ => intRes (bit f.fn 0) f.ty (opnd f.ty a - opnd f.ty b)

/-- MUL (R127, R128, R129). -/
def resMul (f : RR) (a b : Word) : Res :=
  match tyClass f.ty with
  | .float => fltRes 0x0B f.ty a b 0 (fmul (tyFmt f.ty) (fbits f.ty a) (fbits f.ty b))
  | _ => intRes (bit f.fn 0) f.ty (opnd f.ty a * opnd f.ty b)

/-- MAC: d + a * b, fused with one rounding in REAL and LREAL (R127, R128). -/
def resMac (f : RR) (d a b : Word) : Res :=
  match tyClass f.ty with
  | .float => fltRes 0x0C f.ty d a b (ffma (tyFmt f.ty) (fbits f.ty d) (fbits f.ty a) (fbits f.ty b))
  | _ => intRes (bit f.fn 0) f.ty (opnd f.ty d + opnd f.ty a * opnd f.ty b)

/-- ADDI: wraps, as RI has no SAT bit (R127, R128). -/
def resAddi (f : RI) (a : Word) : Res := wrapRes f.ty (opnd f.ty a + f.imm.toInt)

/-- NEG: always saturates on integers; in floating point the sign inverted, a NaN result setting INV (R128, R129). -/
def resNeg (f : RR) (a : Word) : Res :=
  match tyClass f.ty with
  | .float => (BitVec.ofNat 64 (fneg (tyFmt f.ty) (fbits f.ty a)), flagIf (isNan (tyFmt f.ty) (fbits f.ty a)) fINV)
  | _ => satRes f.ty (-(opnd f.ty a))

/-- ABS: always saturates on integers; in floating point the sign cleared, a NaN result setting INV (R128, R129). -/
def resAbs (f : RR) (a : Word) : Res :=
  match tyClass f.ty with
  | .float => (BitVec.ofNat 64 (fabs (tyFmt f.ty) (fbits f.ty a)), flagIf (isNan (tyFmt f.ty) (fbits f.ty a)) fINV)
  | _ => satRes f.ty (if opnd f.ty a < 0 then -(opnd f.ty a) else opnd f.ty a)

/-- Whether a floating operand is a NaN. -/
def opNan (ty : BitVec 4) (w : Word) : Bool := isNan (tyFmt ty) (fbits ty w)

/-- MIN: NaN when an operand is NaN (R127, R129). -/
def resMin (f : RR) (a b : Word) : Res :=
  match tyClass f.ty with
  | .float =>
    if opNan f.ty a || opNan f.ty b then fltRes 0x08 f.ty a b 0 .nan
    else (BitVec.ofNat 64 (fmin (tyFmt f.ty) (fbits f.ty a) (fbits f.ty b)), 0)
  | _ => (wrapTo f.ty (min (opnd f.ty a) (opnd f.ty b)), 0)

/-- MAX: NaN when an operand is NaN (R127, R129). -/
def resMax (f : RR) (a b : Word) : Res :=
  match tyClass f.ty with
  | .float =>
    if opNan f.ty a || opNan f.ty b then fltRes 0x09 f.ty a b 0 .nan
    else (BitVec.ofNat 64 (fmax (tyFmt f.ty) (fbits f.ty a) (fbits f.ty b)), 0)
  | _ => (wrapTo f.ty (max (opnd f.ty a) (opnd f.ty b)), 0)

/-- LIM: a clamped to [lo, hi]; NaN when an operand is NaN; a free value where lo lies above hi (R127, R129,
assumption 4). -/
def resLim (f : RR) (a lo hi : Word) : Res :=
  match tyClass f.ty with
  | .float =>
    if opNan f.ty a || opNan f.ty lo || opNan f.ty hi then fltRes 0x0A f.ty a lo hi .nan
    else if flt (tyFmt f.ty) (fbits f.ty hi) (fbits f.ty lo) then (retype f.ty (Config.limEmpty f.ty a lo hi), 0)
    else (BitVec.ofNat 64 (fmin (tyFmt f.ty) (fmax (tyFmt f.ty) (fbits f.ty a) (fbits f.ty lo)) (fbits f.ty hi)), 0)
  | _ =>
    if opnd f.ty hi < opnd f.ty lo then (retype f.ty (Config.limEmpty f.ty a lo hi), 0)
    else (wrapTo f.ty (clampInt (opnd f.ty a) (opnd f.ty lo) (opnd f.ty hi)), 0)

/-- Whether a floating bit pattern is a zero. -/
def isZeroF (k : FFmt) (x : Nat) : Bool := x % 2 ^ (k.mw + k.ew) == 0

/-- DIV: truncates toward zero; a zero divisor sets DIV0 whatever the dividend (R123); a zero divisor sets DIV0 and gives zero, the maximum or the minimum by the sign of the
dividend; the signed minimum by -1 saturates (R128, R129). -/
def resDiv (f : RR) (a b : Word) : Res :=
  match tyClass f.ty with
  | .float =>
    let r := fltRes 0x0D f.ty a b 0 (fdiv (tyFmt f.ty) (fbits f.ty a) (fbits f.ty b))
    (r.1, r.2 ||| flagIf (isZeroF (tyFmt f.ty) (fbits f.ty b)) fDIV0)
  | _ =>
    let x := opnd f.ty a
    let y := opnd f.ty b
    if y = 0 then (wrapTo f.ty (if x = 0 then 0 else if 0 < x then tyMax f.ty else tyMin f.ty), fDIV0)
    else satRes f.ty (x.tdiv y)

/-- MOD: the remainder has the sign of the dividend; a zero divisor gives zero and sets DIV0 (R128). -/
def resMod (f : RR) (a b : Word) : Res :=
  let y := opnd f.ty b
  if y = 0 then (0, fDIV0) else (wrapTo f.ty ((opnd f.ty a).tmod y), 0)

/-- SQRT (R127, R129). -/
def resSqrt (f : RR) (a : Word) : Res := fltRes 0x0F f.ty a 0 0 (fsqrt (tyFmt f.ty) (fbits f.ty a))

/-- SHL: FN 0 shifts, FN 2 rotates; a count of the width or more shifts to zero (R127, R128). -/
def resShl (f : RR) (a b : Word) : Res :=
  let w := tyWidth f.ty
  let n := (b.extractLsb' 0 6).toNat
  let x : BitVec w := a.setWidth w
  let y : BitVec w := if f.fn = 2 then x.rotateLeft n else x <<< n
  (retype f.ty (y.setWidth 64), 0)

/-- SHR: FN 0 logical, 1 arithmetic, 2 rotate; a count of the width or more gives zero or all sign bits (R127, R128). -/
def resShr (f : RR) (a b : Word) : Res :=
  let w := tyWidth f.ty
  let n := (b.extractLsb' 0 6).toNat
  let x : BitVec w := a.setWidth w
  let y : BitVec w := if f.fn = 2 then x.rotateRight n else if f.fn = 1 then x.sshiftRight n else x >>> n
  (retype f.ty (y.setWidth 64), 0)

/-- The comparison COND or FN[2:0]: 0 EQ, 1 NE, 2 LT, 3 LE, 4 GT, 5 GE (R124); an unordered pair satisfies NE alone. -/
def condOf (c : Nat) (o : Option Ordering) : Bool :=
  match o, c with
  | some .eq, 0 => true | some .eq, 3 => true | some .eq, 5 => true
  | some .lt, 1 => true | some .lt, 2 => true | some .lt, 3 => true
  | some .gt, 1 => true | some .gt, 4 => true | some .gt, 5 => true
  | none, 1 => true
  | _, _ => false

/-- The order of two operands at a type (R128, R129). -/
def ordOf (ty : BitVec 4) (a b : Word) : Option Ordering :=
  match tyClass ty with
  | .float => fcmp (tyFmt ty) (fbits ty a) (fbits ty b)
  | _ => some (compare (opnd ty a) (opnd ty b))

/-- CMP (R127). -/
def resCmp (f : RR) (a b : Word) : Res := boolRes (condOf (f.fn.toNat % 8) (ordOf f.ty a b))

/-- CVT from a type to a type (R130). -/
def resCvt (dst src : BitVec 4) (a : Word) : Res :=
  match tyClass src, tyClass dst with
  | .float, .float =>
    if src = dst then
      (match fdec (tyFmt dst) (fbits src a) with
       | .nan => fltRes 0x19 dst a 0 0 .nan
       | _ => (BitVec.ofNat 64 (fbits src a), 0))
    else fltRes 0x19 dst a 0 0 (fconv (tyFmt src) (tyFmt dst) (fbits src a))
  | .float, _ =>
    if dst = 0 then
      (match fdec (tyFmt src) (fbits src a) with
       | .nan => (0, fINV)
       | .inf _ => (1, 0)
       | .fin _ m _ => (if m = 0 then 0 else 1, 0))
    else
      (match ftoInt (tyFmt src) (fbits src a) (tyMin dst) (tyMax dst) with
       | none => (0, fINV)
       | some i => satRes dst i)
  | _, .float => fltRes 0x19 dst a 0 0 (fofInt (tyFmt dst) (opnd src a)).out
  | _, _ => if dst = 0 then (if opnd src a = 0 then 0 else 1, 0) else satRes dst (opnd src a)

/-- CMPI: IMM9 converted to TYPE as CVT converts a LINT (R127, R130). -/
def resCmpi (f : CI) (a : Word) : Res :=
  boolRes (condOf f.cond.toNat (ordOf f.ty a (resCvt f.ty 0x4 (f.imm.signExtend 64)).1))

/-- QMRG: the primary code of higher precedence; FORCED and SIMULATED by OR, SAFE by AND, CHANGED by OR (R138). -/
def qMerge (a b : Byte) : Byte :=
  mkQ (qMax (qCode a) (qCode b)) (bit a 4 || bit b 4) (bit a 5 || bit b 5) (bit a 6 && bit b 6) (bit a 7 || bit b 7)

/-- QTST: GOOD; with FN bit 0, GOOD, SUBST or SINGLE_PLANE (R138). -/
def qTest (wide : Bool) (q : Byte) : Bool :=
  qCode q == qGood || (wide && (qCode q == qSubst || qCode q == qSinglePlane))

/-- QSET: the primary code and SIMULATED from IMM12, whose other bits are ignored, all other bits zero (R138, assumption 188). -/
def qSetByte (imm : BitVec 12) : Byte := mkQ (imm.extractLsb' 0 4) false (bit imm 5) false false

end Sys2Proof.Machine
end

