-- ==== Sys2Proof/Machine/PimOps.lean ====
section
/-! DEFINITION. Machine/PimOps.lean: the process image: where a signal lies, how a write is staged and committed, how a
frozen image is settled and published (09_process_image). -/

namespace Sys2Proof.Machine

/-! ## Types and values of signals -/

/-- A value as the bytes of its type hold it: the low bytes, 0 or 1 for BOOL (R204). -/
def rawOf (ty : BitVec 4) (w : Word) : Word :=
  if ty = 0 then b2w (isTrue w) else BitVec.ofNat 64 (w.toNat % 2 ^ (8 * tySize ty))

/-- INIT_VALUE or SUBST_VALUE of a type: sign-extended for LINT and LTIME, zero-extended for ULINT, a REAL
converted exactly for LREAL (R204). -/
def imgValue (ty : BitVec 4) (v : Reg32) : Word :=
  match ty.toNat with
  | 4 | 12 => v.signExtend 64
  | 8 => v.setWidth 64
  | 10 => (fltRes 0x19 0xA (v.setWidth 64) 0 0 (fconv f32 f64 v.toNat)).1
  | _ => rawOf ty (v.setWidth 64)

/-- The address of the quality byte of a value (R203). -/
def qualOff (r : SigRec) : Nat :=
  if r.pimOffset < 0x400000 then r.pimOffset + 32 else r.pimOffset + tySize r.t

/-- The PIM words a write of a signal occupies in the staging store: that of the value and that of the quality (R203,
R211). -/
def sigWords (r : SigRec) : List Nat := [r.pimOffset / 32, qualOff r / 32].eraseDups

/-- Whether a value is a NaN in REAL or LREAL (R205). -/
def valNan (ty : BitVec 4) (w : Word) : Bool := tyClass ty == .float && opNan ty w

/-- Whether a value lies outside RANGE_MIN to RANGE_MAX; BOOL and 64-bit types have no range (R71). -/
def outOfRange (r : SigRec) (w : Word) : Bool :=
  if r.t = 0 ∨ tySize r.t = 8 then false
  else match tyClass r.t with
    | .float => flt f32 (fbits 0x9 w) r.rangeMin.toNat || flt f32 r.rangeMax.toNat (fbits 0x9 w)
    | _ => decide (opnd r.t w < opnd r.t (r.rangeMin.setWidth 64)) || decide (opnd r.t (r.rangeMax.setWidth 64) < opnd r.t w)

/-- The value SUBST_MODE defines over a last value: 0 hold last, 1 substitute, 2 zero (R71). -/
def substVal (r : SigRec) (last : Word) : Word :=
  match r.substMode with
  | 1 => imgValue r.t r.substValue
  | 2 => 0
  | _ => last

/-! ## The dynamic table -/

/-- The dynamic state of a signal after the PIM is cleared: INIT_VALUE with UNINIT (R213). -/
def freshDyn (r : SigRec) : SigDyn := { sid := r.sid, val := imgValue r.t r.initValue, code := qUninit }

/-- The dynamic state of a SID. -/
def dynOf (p : Pim) (sid : Sid) : Option SigDyn := p.dyn.find? (fun d => d.sid == sid)

/-- The dynamic state of a SID changed. -/
def Pim.modDyn (p : Pim) (sid : Sid) (f : SigDyn → SigDyn) : Pim :=
  { p with dyn := p.dyn.map (fun d => if d.sid = sid then f d else d) }

/-- The value of a signal in the newest published image. -/
def latest (p : Pim) (sid : Sid) : Option SigVal :=
  match p.ring with
  | [] => none
  | x :: _ => (x.sigs.find? (fun g => g.sid == sid)).map (·.v)

/-- The value of a signal in the published image of a version. -/
def pubVal (p : Pim) (ver : Mcc) (sid : Sid) : Option SigVal :=
  match p.ring.find? (fun x => x.ver == ver) with
  | none => none
  | some x => (x.sigs.find? (fun g => g.sid == sid)).map (·.v)

/-! ## Staging -/

/-- The staging entries of a requester in use, in words (R211). -/
def stgWords (g : ConfImage) (l : List StgEnt) (o : StgOwner) : Nat :=
  ((l.filter (fun e => e.owner == o)).flatMap (fun e =>
    match sigRec g e.sid with
    | some r => (sigWords r).map (fun w => (w, e.target))
    | none => [])).eraseDups.length

/-- The bytes of a copy area: the data set, then the trailer's 16 bytes: six of zero, user data version, safe sequence counter and safety
code (R371, assumption 204). -/
def copyBytes (c : SafeCopy) : List Byte :=
  c.data ++ List.replicate 6 0 ++ beBytes 2 c.tr.udv.toNat ++ beBytes 4 c.tr.ssc.toNat ++ beBytes 4 c.tr.code.toNat

/-- The SDT record of the safety block for a subscription (R365). -/
def sdtSub (g : ConfImage) (i : Nat) : Option SdtRec := g.safety.sdt.find? (fun d => !d.pub && d.iomapIndex == i)

/-- The PIM words of a subscription's copy area (R371). -/
def copyPimWords (g : ConfImage) (c : SafeCopy) : List Nat :=
  ((sdtSub g c.index).map (fun d => (List.range (ceilDiv (copyBytes c).length 32)).map (· + d.copyOffset / 32))).getD []

/-- The staging entries of copy areas, whole words of the TXE (R211, R371). -/
def copyWords (l : List SafeCopy) : Nat := (l.map (fun c => ceilDiv (copyBytes c).length 32)).sum

/-- The staging entries of ended handlers, which each task's drain shares with the writes before it (R208, R211). -/
def handWords (g : ConfImage) (l : List HandlerOut) : Nat :=
  (l.flatMap (fun h => h.writes.flatMap (fun w => match sigRec g w.1 with
    | some r => sigWords r
    | none => []))).eraseDups.length

/-- The staging entries that writes take. -/
def stgUsed (g : ConfImage) (l : List StgEnt) : Nat :=
  stgWords g l .fabric + stgWords g l .safety + stgWords g l .settling + stgWords g l .txe

/-- All staging entries in use: writes, copy areas, the outputs of ended handlers (PIMA_STG_USED, R221). -/
def stgInUse (s : State) : Nat := stgUsed s.ci.act s.pim.staging + copyWords s.pim.copyStg + handWords s.ci.act s.glb.handOuts

/-- PIMA_STG_HWM follows the entries in use (R221). -/
def noteUsed (s : State) : State :=
  let used := BitVec.ofNat 17 (stgInUse s)
  { s with pim := { s.pim with hwm := if s.pim.hwm < used then used else s.pim.hwm } }

/-- The share of the staging store of a requester (R211). -/
def stgShare : StgOwner → Nat
  | .fabric => 30720 | .safety => 2048 | .settling => 16384 | .txe => 16384

/-- Staging entries added, with the high-water mark (R208, R211, R221). -/
def addStaging (s : State) (es : List StgEnt) : State :=
  noteUsed { s with pim := { s.pim with staging := s.pim.staging ++ es } }

/-- The entries that the TXE has reserved for the hold buffers of its holds (R241). -/
def heldWords (s : State) : Nat := (s.txe.tags.map (fun t => match t.hold, t.req with
  | true, .atomic sid .. => ((sigRec s.ci.act sid).map (fun r => (sigWords r).length)).getD 0
  | _, _ => 0)).sum

/-- Whether the TXE share of the staging store can take these entries and a copy area, the reserved ones apart (R211, R241, R371). -/
def txeRoom (s : State) (es : List StgEnt) (copy : Option SafeCopy := none) : Bool :=
  decide (stgWords s.ci.act (s.pim.staging ++ es) .txe + copyWords (s.pim.copyStg ++ copy.toList) + heldWords s ≤ stgShare .txe)

/-- The MCC of the next boundary: the target of a write accepted now (R208). -/
def nextMcc (s : State) : Mcc := if s.cyc.started then s.cyc.mcc + 1 else 0

/-- An entry for a write accepted now from outside a task; a reserved code is stored as INVALID (R207, R208). -/
def stgNow (s : State) (r : SigRec) (v : Word) (code : BitVec 4) (sim : Bool) (o : StgOwner) : StgEnt :=
  { sid := r.sid, val := rawOf r.t v, code := qNorm code, sim, target := nextMcc s, owner := o }

/-- The entries of a discarded instance removed: no trace of them reaches any image (R208). -/
def dropInst (s : State) (task : Nat) (rel : Mcc) : State :=
  { s with pim := { s.pim with staging := s.pim.staging.filter (fun e => e.inst != some (task, rel)) } }

/-! ## Commit and settling -/

/-- A committed write: it sets the writer's last value, code and SIMULATED and the age to zero (R202, R216); in a state
in which tasks run it also ends the STOP or overrun substitution of the signal (R191, R193). A code without a value changes
the code alone (R263). -/
def commitDyn (k : Mcc) (unsub : Bool) (e : StgEnt) (d : SigDyn) : SigDyn :=
  if e.keep then { d with code := e.code }
  else
    { d with val := e.val, code := e.code, sim := e.sim, last := some k, wroteNow := true
             subst := d.subst && !unsub, bad := false }

/-- The staging entries with target k or earlier made part of I_k, in order of acceptance, with the copy areas (R371) and the
WRITE_FAILED marks set or cleared since the boundary before (R210 steps 1 and 5, R219). -/
def commitStaging (s : State) (k : Mcc) : State :=
  let now := s.pim.staging.filter (fun e => atOrBefore e.target k)
  let rest := s.pim.staging.filter (fun e => !atOrBefore e.target k)
  let run := s.glb.state == .run || s.glb.state == .hold
  let p0 := { s.pim with
    dyn := s.pim.dyn.map (fun d =>
      { d with wroteNow := false, wf := (d.wf && !s.pim.wfClear.contains d.sid) || s.pim.wfPend.contains d.sid })
    staging := rest, wfPend := [], wfClear := []
    copies := s.pim.copyStg.foldl (fun l c => c :: l.filter (fun x => x.index != c.index)) s.pim.copies, copyStg := [] }
  { s with pim := now.foldl (fun p e => p.modDyn e.sid (commitDyn k run e)) p0 }

/-- F = ceil(FRESH_MS × 1,000 / TBASE_US) (R216). -/
def freshF (g : ConfImage) (r : SigRec) : Nat := ceilDiv (r.freshMs * 1000) g.time.tbaseUs

/-- The age state of a signal at boundary k: 0 fresh, 1 STALE, 2 COMM_LOST (R216, R217). -/
def ageOf (g : ConfImage) (k : Mcc) (r : SigRec) (d : SigDyn) : Nat :=
  if r.freshMs = 0 || d.wroteNow then 0
  else match d.last with
    | none => 0
    | some m =>
      let age := (k - m).toNat
      if age ≤ freshF g r then 0 else if age ≤ 4 * freshF g r then 1 else 2

/-- Whether the settling of boundary k changes a signal by its age (R210 step 3). -/
def agesNow (g : ConfImage) (k : Mcc) (r : SigRec) (d : SigDyn) : Bool := !d.wroteNow && ageOf g k r d != d.aged

/-- The signals whose change by age finds the settling engine's 16,384 words taken: the first that does not fit and every later one in ascending
SID order, so that none passes another; `seen` are the words taken so far (R211, assumption 202). -/
def carryAges (n : Nat) : List Nat → List SigRec → List Sid
  | _, [] => []
  | seen, r :: rs =>
    let ws := (sigWords r).filter (fun w => !seen.contains w)
    if seen.length + ws.length ≤ n then carryAges n (seen ++ ws) rs else (r :: rs).map (·.sid)

/-- The signals whose change by age at boundary k is carried over to the next one (R211). -/
def carriedOver (s : State) (k : Mcc) : List Sid :=
  carryAges (stgShare .settling) [] (s.ci.act.sigs.filter (fun r => match dynOf s.pim r.sid with
    | some d => agesNow s.ci.act k r d
    | none => false))

/-- The age state a signal shows at boundary k: its own, or the one before while the change is carried over (R211, R217). -/
def shownAge (s : State) (k : Mcc) (r : SigRec) (d : SigDyn) : Nat :=
  if (carriedOver s k).contains r.sid && !d.wroteNow then d.aged else ageOf s.ci.act k r d

/-- The underlying value and primary code of a signal of an age: of all candidate codes the one of highest precedence (R210 steps 3 to 6, R217,
R219, R220); with the substitution of STOP or of an overrun reaction in force, the substitute value, SUBST in place of the writer's code
and the age rules still a candidate (R183, R191, assumption 203). -/
def underlying (r : SigRec) (d : SigDyn) (age : Nat) : Word × BitVec 4 :=
  let base : Word × BitVec 4 :=
    let own := if d.subst then qSubst else qNorm d.code
    let aged := if age = 2 then qMax own qCommLost else if age = 1 then qMax own qStale else own
    if d.subst then (substVal r d.val, aged)
    else
      let c1 := if d.wroteNow && outOfRange r d.val then qMax aged qRange else aged
      (if age = 0 then d.val else substVal r d.val, if d.wroteNow && valNan r.t d.val then qMax c1 qInvalid else c1)
  let c2 := if d.wf then qMax base.2 qWriteFailed else base.2
  (base.1, if d.bad then qMax c2 qInvalid else c2)

/-- The force in effect on a SID. -/
def forceOf (s : State) (sid : Sid) : Option Force := s.glb.forces.find? (fun f => f.sid == sid)

/-- Whether a signal is a SAFE output of an ENGINE 1 task, the six result SIDs apart (R387). -/
def isSafeOut (g : ConfImage) (r : SigRec) : Bool :=
  r.safe && r.dir == 2 && !g.safety.resultSids.contains r.sid &&
  (match taskRec g r.writer.toNat with
   | some t => t.engine == 1
   | none => false)

/-- The underlying value and code with what the module itself puts in their place: the safe value while the island is in
its safe state (R387), the VOTE_MINORITY of an input minority (R335). -/
def ownValue (s : State) (k : Mcc) (r : SigRec) (d : SigDyn) : Word × BitVec 4 :=
  let u := underlying r d (shownAge s k r d)
  if s.safe.cause ≠ 0 ∧ isSafeOut s.ci.act r = true then
    (imgValue r.t r.substValue, if s.safe.cause = 2 then qVoteMinority else qSubst)
  else if s.grp.minoritySids.contains r.sid then (u.1, qMax u.2 qVoteMinority)
  else u

/-- A signal's settled value and quality byte at boundary k: forced values and codes replace the underlying ones with
FORCED set and SIMULATED clear; SAFE by definition; CHANGED against P_{k-1} (R196, R197, R206, R210). -/
def settleSig (s : State) (k : Mcc) (r : SigRec) (d : SigDyn) : SigVal :=
  let u := ownValue s k r d
  let (v, c, fo, sim) : Word × BitVec 4 × Bool × Bool :=
    match forceOf s r.sid with
    | some f => (f.val, f.code, true, false)
    | none => (u.1, u.2, false, d.sim)
  let changed := match latest s.pim r.sid with
    | some p => p.val != v
    | none => false
  { val := v, q := mkQ c fo sim r.safe changed }

/-- The settled image of boundary k, in SIGMAP order. -/
def settleAll (s : State) (k : Mcc) : List PubSig :=
  s.ci.act.sigs.map (fun r =>
    let d := (dynOf s.pim r.sid).getD (freshDyn r)
    { sid := r.sid, off := r.pimOffset, ty := r.t, v := settleSig s k r d })

/-- How many signals of a published image carry one of these codes (R221). -/
def countCodes (l : List PubSig) (cs : List (BitVec 4)) : Nat := (l.filter (fun g => cs.contains (qCode g.v.q))).length

/-! ## Sources and dropout (R522) -/

/-- A source of signals for the dropout records: its kind, its number among its kind and the SUBJECT that names it. -/
structure Source where
  kind : Nat
  no : Nat
  subject : Nat
  deriving DecidableEq, Repr

/-- A source as one number of State.dropped. -/
def Source.key (x : Source) : Nat := x.kind * 2 ^ 40 + x.no

/-- The CAN identifier of CAN_ID record i of an image. -/
def canIdentOf (g : ConfImage) (i : Nat) : Nat :=
  match (g.iomap.filter (fun r => r.kind == 10))[i]? with
  | some (.canId _ _ _ _ _ _ ident _ _) => ident
  | _ => i

/-- The signals of a PD_SUB record: SID_COUNT SIDs from SID_FIRST (R76). -/
def inRun (first : Sid) (count : Nat) (sid : Sid) : Bool :=
  decide (first.toNat ≤ sid.toNat) && decide (sid.toNat < first.toNat + count)

/-- The source of a signal: the PD_SUB record, MVB sink port, CAN receive record or COMPAT entry that carries it, else
its writer code (R522). -/
def sourceOf (g : ConfImage) (r : SigRec) : Source :=
  if r.writer = 0x40 then
    match g.iomap.findSome? (fun io => match io with
      | .pdSub c f n .. => if inRun f n r.sid then some c else none
      | _ => none) with
    | some c => ⟨1, c, c⟩
    | none => ⟨0, r.writer.toNat, r.writer.toNat⟩
  else if r.writer = 0x42 then
    match g.gwmap.find? (fun e => e.sid == r.sid && !e.toBus) with
    | some e => if e.compat then ⟨4, r.sid.toNat, r.sid.toNat⟩ else if e.bus = 0 then ⟨2, e.frame, e.frame⟩
      else ⟨3, e.frame, canIdentOf g e.frame⟩
    | none => ⟨0, r.writer.toNat, r.writer.toNat⟩
  else ⟨0, r.writer.toNat, r.writer.toNat⟩

/-- The sources whose first signal turns STALE at boundary k, with how many do (R522). -/
def newDrops (s : State) (k : Mcc) : List (Source × Nat) :=
  let stale := s.ci.act.sigs.filter (fun r =>
    match dynOf s.pim r.sid with
    | some d => shownAge s k r d == 1 && d.aged == 0
    | none => false)
  let srcs := (stale.map (sourceOf s.ci.act)).eraseDups.filter (fun x => !s.pim.dropped.contains x.key)
  srcs.map (fun x => (x, (stale.filter (fun r => sourceOf s.ci.act r == x)).length))

/-- The sources that had dropped out and have a write in image k (R522). -/
def returned (s : State) : List Source :=
  let ws := s.ci.act.sigs.filter (fun r => match dynOf s.pim r.sid with
    | some d => d.wroteNow
    | none => false)
  (ws.map (sourceOf s.ci.act)).eraseDups.filter (fun x => s.pim.dropped.contains x.key)

/-- The dropout and return records of boundary k (R522). -/
def dropoutRecords (s : State) (k : Mcc) : State :=
  let rs := returned s
  let s1 := rs.foldl (fun s x =>
    record { s with pim := { s.pim with dropped := s.pim.dropped.filter (· != x.key) } } .notice srcPima (cCleared 0) x.subject) s
  (newDrops s1 k).foldl (fun s (x, n) =>
    record { s with pim := { s.pim with dropped := x.key :: s.pim.dropped } } .warning srcPima (cFault 0) x.subject (beBytes 4 n)) s1

/-- The ages remembered for the next boundary. -/
def noteAges (s : State) (k : Mcc) : State :=
  { s with pim := { s.pim with dyn := s.pim.dyn.map (fun d =>
      match sigRec s.ci.act d.sid with
      | some r => { d with aged := shownAge s k r d }
      | none => d) } }

/-- The ERROR record of a boundary at which changes by age are carried over, with their number (R211). -/
def carryRecord (s : State) (k : Mcc) : State :=
  let n := (carriedOver s k).length
  if n = 0 then s else record s .error srcPima (cRefused .refusedCapacity) 0 (beBytes 4 n)

/-! ## Memory errors (R214, R220) -/

/-- An uncorrectable error met in a PIM word: counted, an ERROR record naming the word, every signal with a byte in it INVALID from the next
image until it is written (R220). -/
def pimUncorr (s : State) (w : Nat) : State :=
  let hit (sid : Sid) : Bool := match sigRec s.ci.act sid with
    | some r => (sigWords r).contains w
    | none => false
  record { s with pim := { s.pim with
      uncorr := satInc s.pim.uncorr, eccNoted := w :: s.pim.eccNoted
      dyn := s.pim.dyn.map (fun d => if hit d.sid then { d with bad := true } else d) } }
    .error srcPima (cFault 7) w

/-- PIM words asked for by a port of a tile or by another one: the longest wait of each bank follows (R240, R246, assumption 185). -/
def noteWait (s : State) (fab : Bool) (words : List Nat) : State :=
  words.foldl (fun s w =>
    let b := Config.bankOf w
    let n := BitVec.ofNat 16 (Config.bankWait b.val s.tb.ttc % (17 + s.arb.holdMax.toNat))
    { s with arb := { s.arb with waits := modNth s.arb.waits b.val (fun x =>
        if fab then (if x.1 < n then n else x.1, x.2) else (x.1, if x.2 < n then n else x.2)) } }) s

/-- PIM words read from a version whose lanes `bad` hold uncorrectable errors: what correctable errors they hold is corrected and counted, and
each uncorrectable one is noted once (R214, R220). -/
def pimMeet (s : State) (bad : List Nat) (words : List Nat) : State :=
  let soft := s.pim.softWords.filter (fun l => words.contains (l / 4))
  let hit := ((bad.map (· / 4)).eraseDups).filter (fun w => words.contains w && !s.pim.eccNoted.contains w)
  hit.foldl pimUncorr { s with pim := { s.pim with
    corr := satAdd s.pim.corr soft.length, softWords := s.pim.softWords.filter (fun l => !words.contains (l / 4)) } }

/-- The lanes in error of a published version. -/
def badOf (p : Pim) (ver : Mcc) : List Nat := ((p.ring.find? (fun x => x.ver == ver)).map (·.eccWords)).getD []

/-- The errors that stand after a commit: a word that was noted is whole again once each of its signals has been written (R220). -/
def eccLeft (g : ConfImage) (p : Pim) : Pim :=
  let stands (w : Nat) : Bool := !p.eccNoted.contains w || p.dyn.any (fun d => d.bad && (match sigRec g d.sid with
    | some r => (sigWords r).contains w
    | none => false))
  { p with badWords := p.badWords.filter (fun l => stands (l / 4)), eccNoted := p.eccNoted.filter stands }

/-- The flags of a timed header at the present boundary (R261). -/
def timedFlags (s : State) : Byte :=
  let b (i : Nat) (x : Bool) : Byte := if x then setBit 0 i else 0
  b 7 (!s.glb.forces.isEmpty) ||| b 6 (s.glb.state == .hold) ||| b 5 (s.glb.state == .stop) |||
  b 4 (inGroup s && (s.grp.state == .degraded2 || s.grp.state == .single)) ||| b 3 s.tb.valid ||| b 2 s.cyc.syncLost

/-- The copy areas with their PIM addresses (R212, R371). -/
def copyAreas (s : State) : List (Nat × List Byte) :=
  s.pim.copies.filterMap (fun c => (sdtSub s.ci.act c.index).map (fun d => (d.copyOffset, copyBytes c)))

/-- P_k published: the ring of four, the counts of PIMA_QCNT, PIMA_PUB_LATEST (R210 step 8, R212, R221). -/
def publish (s : State) (k : Mcc) : State :=
  let l := settleAll s k
  { s with pim := { s.pim with
      ring := ({ ver := k, sigs := l, eccWords := s.pim.badWords, copies := copyAreas s, bttc := s.cyc.bttc, flags := timedFlags s } :: s.pim.ring).take 4
      settledMcc := some k
      aged := countCodes l [qStale, qCommLost]
      wfCnt := countCodes l [qWriteFailed]
      uninit := countCodes l [qUninit] } }

/-- PIMA_PUB_LATEST (R221). -/
def pubLatest (p : Pim) : Mcc := match p.ring with
  | [] => 0
  | x :: _ => x.ver

/-- PIMA_PUB_OLDEST (R212, R221). -/
def pubOldest (p : Pim) : Mcc := match p.ring.getLast? with
  | none => 0
  | some x => x.ver

/-- The byte of a published image at a PIM address: a value byte, a quality byte, a byte of a copy area, or zero where nothing lies (R203, R212,
R371). -/
def pubByte (x : Published) (a : Nat) : Byte :=
  match x.sigs.findSome? (fun g =>
    if g.off ≤ a ∧ a < g.off + tySize g.ty then some (BitVec.ofNat 8 (g.v.val.toNat / 256 ^ (a - g.off) % 256))
    else if a = (if g.off < 0x400000 then g.off + 32 else g.off + tySize g.ty) then some g.v.q
    else none) with
  | some b => b
  | none => (x.copies.findSome? (fun c => if c.1 ≤ a then c.2[a - c.1]? else none)).getD 0

/-- A write refused by the protection map: a WARNING record, the image unchanged (R73, R220). -/
def refuseWriter (s : State) (sid : Sid) : State := record s .warning srcPima (cRefused .refusedPolicy) sid.toNat

end Sys2Proof.Machine
end

