-- ==== Sys2Proof/Machine/ModeOps.lean ====
section
/-! DEFINITION. Machine/ModeOps.lean: module states, mode commands and their boundaries, restarts and forces
(08_tasks_modes_forcing, R184 to R200). -/

namespace Sys2Proof.Machine

/-! ## Boundaries ahead -/

/-- The time left in the current minor cycle, in ns. -/
def nsToBoundary (s : State) : Nat := (s.cyc.timerTtc - s.tb.ttc).toInt.toNat

/-- The first boundary at least `ns` after now: the cycles after the current one counted at T_base (R185, R186, R188;
assumption 12). -/
def boundaryAfter (s : State) (ns : Nat) : Mcc :=
  if ns ≤ nsToBoundary s then nextMcc s
  else nextMcc s + BitVec.ofNat 32 (ceilDiv (ns - nsToBoundary s) (tbaseNs s))

/-- The first major cycle boundary at or after a boundary (R147). -/
def majorFrom (g : ConfImage) (m : Mcc) : Mcc :=
  let p := 2 ^ nMax g
  m + BitVec.ofNat 32 ((p - m.toNat % p) % p)

/-! ## Records and states -/

/-- The state a mode command leads to, as PENDING shows it (R201). -/
def ModeCmd.target : ModeCmd → MState
  | .startWarm => .run | .startCold => .run | .stop => .stop | .hold => .hold | .cont => .run | .step _ => .hold
  | .dormant => .dormant

/-- The CALL code of a mode command (R413). -/
def ModeCmd.call : ModeCmd → Nat
  | .startWarm => 0x10 | .startCold => 0x11 | .stop => 0x12 | .hold => 0x13 | .cont => 0x14 | .step _ => 0x15 | .dormant => 0x16

/-- Whether a mode command starts RUN. -/
def isStart : ModeCmd → Bool
  | .startWarm => true
  | .startCold => true
  | _ => false

/-- A module state entered at the current boundary, with its STATE record (R187, R471). -/
def setState (s : State) (m : MState) : State :=
  record { s with glb := { s.glb with state := m, modeMcc := s.cyc.mcc } } .info srcGlb (cState m.num)

/-- A pending mode command lapses: PENDING returns to 0xF and a NOTICE record names it (R185). -/
def lapse (s : State) : State :=
  match s.glb.pendCmd with
  | none => s
  | some c => record { s with glb := { s.glb with pendCmd := none }
                              rst := if c = .dormant then { s.rst with dormantPending := false } else s.rst } .notice srcGlb (cRefused .refusedPolicy) c.call

/-- An event queue emptied, its entries counted as drops (R180). -/
def EvtStat.empty (e : EvtStat) : EvtStat := { e with queue := [], drops := satAdd e.drops e.queue.length }

/-- STOP entered at boundary k (R180, R191): the staged outputs of every instance in flight are discarded without an
overrun, every DIR 2 signal takes its SUBST_MODE value with SUBST, the event queues are emptied, the safety
tasks end, so that both safe outputs are commanded off at the launch of R168. -/
def enterStop (s : State) (c : StopCause) : State :=
  let s1 := s.glb.inst.foldl (fun s i => dropInst s i.task i.rel) s
  let outs := (s.ci.act.sigs.filter (fun r => r.dir == 2)).map (·.sid)
  let s2 := { s1 with
    glb := { s1.glb with
      inst := [], handOuts := [], stopCause := c, stepping := false, stepLeft := 0, holdDrained := false
      evts := s1.glb.evts.map EvtStat.empty, haltStop := false
      tasks := s1.glb.tasks.map (fun t => { t with substNow := false }) }
    cyc := { s1.cyc with soLaunch := some (false, false) }
    fab := { s1.fab with tiles := s1.fab.tiles.map (fun t => { t with recs := [] }) }
    pim := { s1.pim with dyn := s1.pim.dyn.map (fun d => if outs.contains d.sid then { d with subst := true } else d) } }
  setState s2 .stop

/-- STOP entered for a reason of the module's own: a pending command lapses first (R185, R191). -/
def ownStop (s : State) (c : StopCause) : State := enterStop (lapse s) c

/-- SAFE_HALT: boundaries stop, pending launches are dropped, nothing transmits (R148, R171, R184, R187). -/
def enterSafeHalt (s : State) : State :=
  let s1 := lapse s
  setState { s1 with
    cyc := { s1.cyc with running := false, queues := List.replicate 64 [], evtLaunch := List.replicate 16 none, soLaunch := none }
    glb := { s1.glb with inst := [], handOuts := [] } } .safeHalt

/-! ## Restart (R193) -/

/-- The retained value of a signal the Cullet holds under the conditions of R193: same SID and TYPE, within range. -/
def retainedVal (s : State) (r : SigRec) : Option Word :=
  match s.cul.retained.newer with
  | none => none
  | some (_, g) =>
    match g.ents.find? (fun e => e.sid == r.sid && e.ty == r.ty) with
    | none => none
    | some e => if outOfRange r e.val then none else some e.val

/-- The dynamic state of one signal after a restart, and whether a NOTICE record names it (R193); in a group a MIRRORED one takes INIT_VALUE at
a cold start (R340). -/
def restartSig (s : State) (cold : Bool) (r : SigRec) (d : SigDyn) : SigDyn × Bool :=
  let iv := imgValue r.t r.initValue
  let good (v : Word) : SigDyn := { d with val := v, code := qGood, sim := false, last := some s.cyc.mcc, subst := false, wf := false }
  if r.writer = 0xFE then (good iv, false)
  else if r.retained then
    let (v, note) := if cold then (iv, false) else match retainedVal s r with
      | some v => (v, false)
      | none => (iv, true)
    if r.dir = 1 then ({ d with val := v, code := qUninit, sim := false, last := none, subst := false }, note)
    else (good v, note)
  else if r.dir = 0 then (good iv, false)
  else if cold && r.mirrored && inGroup s then
    (if r.dir = 1 then { d with val := iv, code := qUninit, sim := false, last := none, subst := false } else good iv, false)
  else (d, false)

/-- All signals restarted, with a NOTICE record for each RETAINED one that could not be restored (R193). -/
def restartSigs (s : State) (cold : Bool) : State :=
  let res := s.ci.act.sigs.map (fun r => restartSig s cold r ((dynOf s.pim r.sid).getD (freshDyn r)))
  let s1 := { s with pim := { s.pim with dyn := res.map (·.1) } }
  (res.filter (·.2)).foldl (fun s x => record s .notice srcGlb (cChange 2) x.1.sid.toNat) s1

/-- A force's count of the forces in effect for which p holds. -/
def forcesWith (s : State) (p : Force → Bool) : Nat := (s.glb.forces.filter p).length

/-- The retained generation of the image now: for every RETAINED signal the value its writer committed, at most 131,068
entries in SID order (R461). -/
def retGen (s : State) : RetGen :=
  { mcc := pubLatest s.pim, hash := s.ci.act.hdr.imageHash
    ents := ((s.ci.act.sigs.filter (·.retained)).take 131068).map (fun r =>
      { sid := r.sid, ty := r.ty, val := ((dynOf s.pim r.sid).getD (freshDyn r)).val }) }

/-- A retention point: the older generation is written (R461). -/
def retentionPoint (s : State) : State :=
  if s.ci.activeValid then
    { s with cul := { s.cul with retained := s.cul.retained.write (retGen s) }
             rst := { s.rst with retainMcc := pubLatest s.pim } }
  else s

/-- The restart initialisation at boundary b and RUN; a COLD restart cancels accepted force commands too (R188, R193, assumption 191). -/
def enterRun (s : State) (cold : Bool) : State :=
  let s1 := restartSigs s cold
  let n := s1.glb.forces.length
  let s2 := { s1 with
    glb := { s1.glb with
      lastRestart := if cold then 1 else 2, autoDue := false, autoArmed := false
      tasks := s1.glb.tasks.map (fun t => { t with consec := 0, overrunning := false, reacted := false, substNow := false })
      evts := s1.glb.evts.map (fun e => { e with queue := [] })
      forces := if cold then [] else s1.glb.forces
      forceCmds := if cold then [] else s1.glb.forceCmds
      holdDrained := false, stepping := false, stepLeft := 0 }
    fab := { s1.fab with
      tiles := ((List.range 48).zip s1.fab.tiles).map (fun (i, t) =>
        if h : i < 48 then t.restartInit s1 ⟨i, h⟩ else t)
      state := if s1.fab.state = .ready then .running else s1.fab.state } }
  let s3 := if cold && n != 0 then record s2 .notice srcGlb (cChange 4) 0 (beBytes 4 n) else s2
  let s4 := if cold then retentionPoint s3 else s3
  setState s4 .run

/-! ## Mode commands (R185) -/

/-- Whether DORMANT may be entered: STOP, VSTBY in range, no activation in progress, in a group every voting member in STOP (R455). -/
def dormantOk (s : State) : Bool :=
  let stopped := fun (p : Peer) => match p.hb with
    | some h => !h.role.voting || h.mstate == .stop
    | none => true
  s.glb.state == .stop && !s.pin.vstbyLow && s.upd.act.isNone && s.upd.waiting.isEmpty &&
  (!inGroup s || (stopped s.grp.peerL && stopped s.grp.peerR))

/-- The states a mode command is accepted in (R185, R455). -/
def acceptedIn (s : State) : ModeCmd → Bool
  | .startWarm => s.glb.state == .stop
  | .startCold => s.glb.state == .stop
  | .stop => s.glb.state == .run || s.glb.state == .hold
  | .hold => s.glb.state == .run && (!inGroup s || s.grp.state == .maintenance)
  | .cont => s.glb.state == .hold
  | .step n => s.glb.state == .hold && (s.glb.holdDrained || s.glb.stepping) && decide (1 ≤ n) && decide (n ≤ 1024)
  | .dormant => dormantOk s

/-- Whether a command is for the state the module is in while none is pending (R185). -/
def alreadyIn (s : State) : ModeCmd → Bool
  | .startWarm => s.glb.state == .run && s.glb.pendCmd.isNone
  | .startCold => s.glb.state == .run && s.glb.pendCmd.isNone
  | .stop => s.glb.state == .stop && s.glb.pendCmd.isNone
  | .hold => s.glb.state == .hold && s.glb.pendCmd.isNone
  | .cont => s.glb.state == .run && s.glb.pendCmd.isNone
  | .step _ => false
  | .dormant => false

/-- The lead time of a command's boundary in ns (R185, R186, R188, R455). -/
def leadNs (s : State) : ModeCmd → Nat
  | .startWarm => 1000000
  | .startCold => 1000000
  | .dormant => 1000000000
  | _ => if inGroup s then 5000000 else 10000

/-- A command made the pending one, with its boundary; it replaces any other. A START accepted before the DORMANT
boundary cancels the entry; DORMANT is notified to the runtime (R185, R455). -/
def setPending (s : State) (c : ModeCmd) (tgt : Mcc) : State :=
  { s with glb := { s.glb with pendCmd := some c, tgtMcc := tgt }
           out := if c = .dormant then .irqDormant tgt :: s.out else s.out
           rst := if c = .dormant then { s.rst with dormantPending := true, dormantMcc := tgt }
                  else { s.rst with dormantPending := false } }

/-- The status of a mode command from a caller with the required role, and the state after it; in a group its target is
set by the ACTIVE (R185, R186, R191). -/
def modeCommand (s : State) (c : ModeCmd) : State × Status :=
  if inGroup s && (!s.grp.formed || s.grp.role == .out) then (s, .refusedPolicy)
  else if s.glb.pendCmd = some c || alreadyIn s c then (s, .ok)
  else if !acceptedIn s c then (s, .refusedPolicy)
  else if (match c with
      | .step _ => s.glb.stepping
      | _ => false) then (s, .retry)
  else (setPending s c (boundaryAfter s (leadNs s c)), .ok)

/-! ## Forces (R194 to R199) -/

/-- Whether a SID counts as forced once the accepted commands have taken effect (R194). -/
def willBeForced (s : State) (sid : Sid) : Bool :=
  match (s.glb.forceCmds.filter (fun c => c.sid == sid)).getLast? with
  | some c => c.set.isSome
  | none => (forceOf s sid).isSome

/-- The forces held as the table will stand once the accepted commands have taken effect (R194). -/
def heldForces (s : State) : Nat :=
  (((s.glb.forces.map (·.sid)) ++ (s.glb.forceCmds.map (·.sid))).eraseDups.filter (willBeForced s)).length

/-- The primary codes a force may give (R194). -/
def forceCodes : List (BitVec 4) := [qGood, qUninit, qStale, qCommLost, qSubst, qInvalid]

/-- The status of a FORCE_SET: the first condition of R194 that holds. -/
def forceStatus (s : State) (role : Role) (sid : Sid) (v : Word) (code : BitVec 4) : Status :=
  match sigRec s.ci.act sid with
  | none => .refusedPolicy
  | some r =>
    if !r.forceAllowed || r.voted || outOfRange r v || !forceCodes.contains code then .refusedPolicy
    else if r.safe && role != .safetyEngineer then .authRequired
    else if !willBeForced s sid && decide (1024 ≤ heldForces s) then .refusedCapacity
    else .ok

/-- The boundary an accepted force command takes effect at (R186, R195). -/
def forceBoundary (s : State) : Mcc := boundaryAfter s (if inGroup s then 5000000 else 10000)

/-- A force command accepted: only the last one for a SID before the boundary counts (R195). -/
def addForceCmd (s : State) (c : ForceCmd) : State :=
  { s with glb := { s.glb with forceCmds := s.glb.forceCmds.filter (fun x => x.sid != c.sid) ++ [c] } }

/-- The force table after one command (R194, R195). -/
def applyForce (l : List Force) (c : ForceCmd) : List Force :=
  match c.set with
  | none => l.filter (fun f => f.sid != c.sid)
  | some (v, code) =>
    if l.any (fun f => f.sid == c.sid) then l.map (fun f => if f.sid = c.sid then { f with val := v, code } else f)
    else l ++ [{ sid := c.sid, val := v, code }]

/-- The accepted force commands whose boundary is k or earlier take effect (R195). -/
def forcesEffect (s : State) (k : Mcc) : State :=
  let now := s.glb.forceCmds.filter (fun c => atOrBefore c.eff k)
  { s with glb := { s.glb with
      forces := now.foldl applyForce s.glb.forces
      forceCmds := s.glb.forceCmds.filter (fun c => !atOrBefore c.eff k) } }

end Sys2Proof.Machine
end

