-- ==== Sys2Proof/Machine/TaskOps.lean ====
section
/-! DEFINITION. Machine/TaskOps.lean: task instances, windows, events, overruns (05_cycle_fabric, R102 to R108;
08_tasks_modes_forcing, R173 to R183). -/

namespace Sys2Proof.Machine

/-! ## Windows (R102 to R105) -/

/-- The fill descriptors of the main program (R120). -/
def fillDescs (p : TileProg) : List WinDesc := p.descs.take p.fillCount

/-- The drain descriptors of the main program (R120). -/
def drainDescs (p : TileProg) : List WinDesc := (p.descs.drop p.fillCount).take p.drainCount

/-- The descriptors of a handler, by direction (R121). -/
def handDescs (p : TileProg) (h : HandlerEnt) (drain : Bool) : List WinDesc :=
  ((p.descs.drop h.descFirst).take h.descCount).filter (fun d => d.drain == drain)

/-- The PIM words a list of descriptors moves (R103). -/
def descWords (l : List WinDesc) : Nat := (l.map (·.count)).sum

/-- The event-window fill or drain of a handler: the constant and the cost of its words (R103, R142). -/
def evtCyc (p : TileProg) (h : HandlerEnt) (drain : Bool) : Nat := 16 + 90 * descWords (handDescs p h drain)

/-- fill_cyc = 16 + 90 × (w_in + w_mbox), w_mbox 64 on a task's first tile (R103). -/
def fillCyc (g : ConfImage) (n : TileNo) (p : TileProg) : Nat :=
  let first := match (tilesOf g (tileRec g n).task.toNat).head? with
    | some i => i == n.val
    | none => false
  16 + 90 * (descWords (fillDescs p) + if first then 64 else 0)

/-- drain_cyc = 16 + 90 × w_out (R103). -/
def drainCyc (p : TileProg) : Nat := 16 + 90 * descWords (drainDescs p)

/-- The window address of a PIM byte moved by a descriptor whose target window starts at `base`. -/
def winAddr (base : Nat) (d : WinDesc) (pim : Nat) : Nat := base + 32 * d.winWord + (pim - 32 * d.pimWord)

/-- Whether n bytes from a PIM address lie within a descriptor's words. -/
def inDesc (d : WinDesc) (pim n : Nat) : Bool :=
  decide (32 * d.pimWord ≤ pim) && decide (pim + n ≤ 32 * (d.pimWord + d.count))

/-- One descriptor's words copied from an image into a window: every byte of its words, those that belong to no signal
reading zero, then the value and quality bytes of the signals (R102, R203). -/
def fillDesc (sigs : List (SigRec × SigVal)) (base : Nat) (m : Mem) (d : WinDesc) : Mem :=
  let m0 := m.clear (base + 32 * d.winWord) (base + 32 * (d.winWord + d.count))
  sigs.foldl (fun m (r, v) =>
    let m1 := if inDesc d r.pimOffset (tySize r.t) then m.writeLE (winAddr base d r.pimOffset) (tySize r.t) v.val.toNat else m
    if inDesc d (qualOff r) 1 then m1.write (winAddr base d (qualOff r)) v.q else m1) m0

/-- The signals of the published image of a version, with their records. -/
def imageSigs (s : State) (ver : Mcc) : List (SigRec × SigVal) :=
  s.ci.act.sigs.filterMap (fun r => (pubVal s.pim ver r.sid).map (fun v => (r, v)))

/-- A signal's primary code and SIMULATED bit as its writer last gave them, as a quality byte. -/
def lastQ (d : SigDyn) : Byte := mkQ d.code false d.sim false false

/-- The writes a drain makes: for every SID of the writer of which a descriptor carries the value or the quality byte, both from the window;
the byte that no descriptor carries stays as the writer left it, and of two descriptors that carry one the first counts (R102, R121, assumption 187). -/
def drainWrites (g : ConfImage) (pim : Pim) (writer : Nat) (base : Nat) (m : Mem) (ds : List WinDesc) : List (Sid × Word × Byte) :=
  (g.sigs.filter (fun r => r.writer.toNat == writer)).filterMap (fun r =>
    let old := (dynOf pim r.sid).getD (freshDyn r)
    let v := (ds.find? (fun d => inDesc d r.pimOffset (tySize r.t))).map (fun d => BitVec.ofNat 64 (m.readLE (winAddr base d r.pimOffset) (tySize r.t)))
    let q := (ds.find? (fun d => inDesc d (qualOff r) 1)).map (fun d => m.read (winAddr base d (qualOff r)))
    if v.isNone && q.isNone then none else some (r.sid, v.getD old.val, q.getD (lastQ old)))

/-- A drain's writes as staging entries of an instance or handler (R138, R208). -/
def drainEnts (g : ConfImage) (ws : List (Sid × Word × Byte)) (target : Mcc) (inst : Option (Nat × Mcc)) : List StgEnt :=
  ws.filterMap (fun (sid, v, q) => (sigRec g sid).map (fun r =>
    { sid, val := rawOf r.t v, code := qNorm (qCode q), sim := bit q 5, target, owner := .fabric, inst }))

/-! ## Instances (R146, R174, R181) -/

/-- Whether a cyclic task is released at boundary m (R146). -/
def releasedAt (r : TaskRec) (m : Mcc) : Bool := r.kind == 0 && m.toNat % 2 ^ r.periodExp == r.phase

/-- Whether the module's state releases a task of an engine: RUN all, HOLD the safety island, and all others while a
STEP has boundaries left (R184, R189, R190). -/
def releases (s : State) (engine : Nat) : Bool :=
  s.glb.state == .run || (s.glb.state == .hold && (engine == 1 || decide (0 < s.glb.stepLeft)))

/-- The boundary that ends the period of an instance released at m (R146). -/
def periodEnd (r : TaskRec) (m : Mcc) : Mcc := m + BitVec.ofNat 32 (2 ^ r.periodExp)

/-- An instance of a task released at the present boundary; the running cycle's correction counts for it (R157). -/
def newInst (s : State) (r : TaskRec) : Instance :=
  { task := r.id, rel := s.cyc.mcc, fin := periodEnd r s.cyc.mcc, shortening := (tbaseNs s : Int) - (s.cyc.lenNs : Int) }

/-- The instances of a task changed. -/
def modInst (g : Glb) (task : Nat) (rel : Mcc) (f : Instance → Instance) : Glb :=
  { g with inst := g.inst.map (fun i => if i.task = task ∧ i.rel = rel then f i else i) }

/-- The register entry of a cyclic task changed (R201). -/
def modTask (g : Glb) (n : Nat) (f : TaskStat → TaskStat) : Glb := { g with tasks := modNth g.tasks n f }

/-- The fields of the release block that are the tile's own: its number, task, fabric epoch and T_base (R131). -/
def tileBlock (s : State) (n : TileNo) (task : Byte) (m : Mem) : Mem :=
  (((m.write 0x3F810 (BitVec.ofNat 8 n.val)).write 0x3F811 task).write 0x3F812 (s.fab.epoch.setWidth 8)).writeLE 0x3F814 4 s.ci.act.time.tbaseUs

/-- The release block of a tile at a release (R131). -/
def releaseBlock (s : State) (n : TileNo) (task : TaskRec) (m : Mem) : Mem :=
  let off := if inGroup s then 40000 else 10000
  let m1 := m.writeLE 0x3F800 8 (s.cyc.bttc + BitVec.ofNat 64 off).toNat
  let m2 := m1.writeLE 0x3F808 4 s.cyc.mcc.toNat
  tileBlock s n (BitVec.ofNat 8 task.id) (m2.writeLE 0x3F80C 4 (s.ci.act.time.tbaseUs * 2 ^ task.periodExp))

/-! ## Events (R175 to R180) -/

/-- The register entry of an event task changed (R201). -/
def modEvt (g : Glb) (n : Nat) (f : EvtStat → EvtStat) : Glb := { g with evts := modNth g.evts n f }

/-- An event raised for event task n: in STOP neither raised nor queued; a full queue drops it, counts it and writes a
WARNING record at most once per task per major cycle (R175, R176, R180). -/
def raiseEvent (s : State) (n : Nat) (v : SigVal) (doorbell : Bool) : State :=
  if s.glb.state = .run ∨ s.glb.state = .hold then
    let e := nthD s.glb.evts n {}
    let x : EvtEntry := ⟨v.val, v.q, s.tb.ttc, s.cyc.mcc, doorbell⟩
    if e.queue.length < 64 then
      let d := BitVec.ofNat 7 (e.queue.length + 1)
      { s with glb := modEvt s.glb n (fun e =>
          { e with queue := e.queue ++ [x], highWater := if e.highWater < d then d else e.highWater }) }
    else
      let s1 := { s with glb := modEvt s.glb n (fun e => { e with drops := satInc e.drops, dropNoted := true }) }
      if e.dropNoted then suppress s1 srcGlb (cRefused .refusedCapacity)
      else record s1 .warning srcGlb (cRefused .refusedCapacity) (0x20 + n)
  else s

/-- The event tasks that a SID triggers (R175). -/
def triggered (g : ConfImage) (sid : Sid) : List Nat :=
  (g.tasks.filter (fun t => t.kind == 1 && t.triggerSid == sid)).map (fun t => t.id - 0x20)

/-- Events raised for every task that a SID triggers. -/
def raiseFor (s : State) (sid : Sid) (v : SigVal) (doorbell : Bool) : State :=
  (triggered s.ci.act sid).foldl (fun s n => raiseEvent s n v doorbell) s

/-- A value with the quality byte of a signal: SAFE by definition, CHANGED against the newest published image (R206). -/
def sigNow (s : State) (sid : Sid) (v : Word) (code : BitVec 4) (forced sim : Bool) : SigVal :=
  let safe := match sigRec s.ci.act sid with
    | some r => r.safe
    | none => false
  let changed := match latest s.pim sid with
    | some p => p.val != v
    | none => false
  ⟨v, mkQ code forced sim safe changed⟩

/-- What a trigger stands at: a force in effect, else the newest staged write, else the published image, else the table (R175, R196). -/
def stagedSig (s : State) (sid : Sid) : SigVal :=
  match forceOf s sid with
  | some f => sigNow s sid f.val f.code true false
  | none =>
    match (s.pim.staging.filter (fun e => e.sid == sid && e.inst.isNone)).getLast? with
    | some e => sigNow s sid e.val e.code false e.sim
    | none => match latest s.pim sid, dynOf s.pim sid with
      | some v, _ => v
      | none, some d => sigNow s sid d.val d.code false d.sim
      | none, none => sigNow s sid 0 qUninit false false

/-- The value and primary code a trigger stands at. -/
def stagedVal (s : State) (sid : Sid) : Word × BitVec 4 := ((stagedSig s sid).val, qCode (stagedSig s sid).q)

/-- Events of a change that shows in I_m: raised now, and noted, so that the settling of I_m raises none for it (R175). -/
def raiseNoted (s : State) (sid : Sid) (v : SigVal) (m : Mcc) : State :=
  let s1 := raiseFor s sid v false
  { s1 with glb := { s1.glb with trigNoted := (sid, m) :: s1.glb.trigNoted } }

/-- A write accepted into staging from outside the tasks; standalone a change of a trigger's value or code raises its
event at once (R175, R208). -/
def acceptWrite (s : State) (e : StgEnt) : State :=
  let old := stagedVal s e.sid
  let s1 := addStaging s [e]
  if inGroup s || (forceOf s e.sid).isSome || (old.1 = e.val && old.2 == e.code) || (triggered s.ci.act e.sid).isEmpty then s1
  else raiseNoted s1 e.sid (sigNow s e.sid e.val e.code false e.sim) e.target

/-- Whether a signal shows the same value and primary code in two images. -/
def shownSame (o g : PubSig) : Bool := o.v.val == g.v.val && qCode o.v.q == qCode g.v.q

/-- Standalone the events of what the settling of I_k itself changed: a trigger that ageing, a substitution or a mark now shows otherwise, and
that no write or commit has raised (R175, R210). -/
def agedEvents (s : State) (k : Mcc) (old new : List PubSig) : State :=
  let s1 := new.foldl (fun s g =>
    match old.find? (fun o => o.sid == g.sid) with
    | some o =>
      if shownSame o g || s.glb.trigNoted.any (fun x => x.1 == g.sid && atOrBefore x.2 k) then s else raiseFor s g.sid g.v false
    | none => s) s
  { s1 with glb := { s1.glb with trigNoted := s1.glb.trigNoted.filter (fun x => !atOrBefore x.2 k) } }

/-- Events of a settled image in a group: each trigger whose value or code differs from the image before (R175). -/
def settledEvents (s : State) (old new : List PubSig) : State :=
  new.foldl (fun s g =>
    match old.find? (fun o => o.sid == g.sid) with
    | some o => if shownSame o g then s else raiseFor s g.sid g.v false
    | none => s) s

/-- Whether a class 2 swap still holds a task back (R90). -/
def heldTask (s : State) (task : Nat) : Bool := s.ci.affected.contains task && before s.cyc.mcc s.ci.affectUntil

/-- The event tasks a tile may take an event for: enabled there, with a queued event and no handler executing, in
order of priority, ties to the lower number (R107, R173, R177); none that a swap holds back (R90). -/
def dispatchable (s : State) (n : TileNo) : List Nat :=
  let en := (tileRec s.ci.act n).slackEvt
  let c := (List.range 16).filter (fun e => bit en e && !(nthD s.glb.evts e {}).queue.isEmpty && !(nthD s.glb.evts e {}).active && !heldTask s (0x20 + e))
  let prio : Nat → Nat := fun e => match taskRec s.ci.act (0x20 + e) with
    | some r => r.priority
    | none => 32
  c.filter (fun e => c.all (fun x => decide (prio e < prio x) || (prio e == prio x && decide (e ≤ x))))

/-! ## Overruns (R181 to R183) -/

/-- The signals of DIR 2 that a task writes. -/
def outputsOf (g : ConfImage) (task : Nat) : List Sid :=
  (g.sigs.filter (fun r => r.dir == 2 && r.writer.toNat == task)).map (·.sid)

/-- The outputs of a task put at their SUBST_MODE value with SUBST (R183). -/
def substOutputs (s : State) (task : Nat) : State :=
  let l := outputsOf s.ci.act task
  { s with pim := { s.pim with dyn := s.pim.dyn.map (fun d => if l.contains d.sid then { d with subst := true } else d) } }

/-- The reaction a task's overruns have: reaction 2 for ENGINE 1 whatever the image holds (R183). -/
def reactionOf (r : TaskRec) : Nat := if r.engine = 1 then 2 else r.ovrReaction

/-- An overrun of task r counted: staged outputs gone, OVR latched and counted, a WARNING record for the first one after
a complete instance (R182). -/
def countOverrun (s : State) (r : TaskRec) (rel : Mcc) : State :=
  let t := nthD s.glb.tasks r.id {}
  let s1 := pmuCount (dropInst s r.id rel) 8 0x204 (if r.engine = 0 then 1 else 0)
  let s2 := { s1 with glb := { (modTask s1.glb r.id (fun t => { t with ovrCnt := satInc t.ovrCnt, consec := satInc t.consec, overrunning := true })) with
      ovrLatch := setBit s1.glb.ovrLatch r.id } }
  if !t.overrunning then record s2 .warning srcGlb (cFault 0) r.id else s2

/-- The reaction at the boundary at which CONSEC, which was `was`, reaches OVR_LIMIT: continue, STOP with cause 2, or safe outputs; an ERROR
record and REACTED. Safe outputs already in force are recorded anew only where CONSEC reaches the limit anew (R183). -/
def ovrReact (s : State) (r : TaskRec) (was : Byte) : State :=
  let t := nthD s.glb.tasks r.id {}
  if t.consec.toNat < r.ovrLimit ∨ (t.substNow = true ∧ reactionOf r = 2 ∧ r.ovrLimit ≤ was.toNat) then s
  else
    let s1 := record { s with glb := modTask s.glb r.id (fun t => { t with reacted := true }) } .error srcGlb (cFault 0) r.id
    match reactionOf r with
    | 0 => { s1 with glb := modTask s1.glb r.id (fun t => { t with consec := 0 }) }
    | 1 => if s1.glb.state = .stop then s1 else ownStop s1 .overrun
    | _ => substOutputs { s1 with glb := modTask s1.glb r.id (fun t => { t with substNow := true }) } r.id

/-- An overrun counted, with its reaction (R182, R183). -/
def overrun (s : State) (r : TaskRec) (rel : Mcc) : State := ovrReact (countOverrun s r rel) r (nthD s.glb.tasks r.id {}).consec

/-- A record staged by EVREC written with its commit: it takes the time of the boundary, DEFERRED_TIME set, and the
task-record payload (R141, R467, R469). -/
def writeStaged (s : State) (writer : Nat) (tile : Nat) (x : StagedRec) : State :=
  let d := beBytes 4 s.cyc.mcc.toNat ++ beBytes 1 tile ++ beBytes 1 writer
  recordAs s { (mkRec s (Sev.ofNum x.sev) (srcTask writer) x.code (x.payload.extractLsb' 32 32) (x.payload.extractLsb' 0 32) d) with
    deferredTime := true, ttc := if s.tb.valid then s.cyc.bttc else 0 }

/-- The records of an instance written in the order of its tiles (R141). -/
def writeTaskRecs (s : State) (i : Instance) : State :=
  (sortBy (fun a b => decide (a.1 ≤ b.1)) i.recs).foldl (fun s x => writeStaged s i.task x.1 x.2) s

/-- The outputs of a complete instance at the boundary that ends its period: they stand, but under overrun reaction 2 they are discarded and the
substitution applied again (R106, R183). -/
def commitOuts (s : State) (r : TaskRec) (i : Instance) : State :=
  if (nthD s.glb.tasks r.id {}).substNow then substOutputs (dropInst s i.task i.rel) r.id else s

/-- An instance judged complete: CONSEC back to 0, its records written where its outputs stand (R141, R182, R183). -/
def noteComplete (s : State) (r : TaskRec) (i : Instance) : State :=
  let s1 := { s with glb := modTask s.glb r.id (fun t => { t with consec := 0, overrunning := false }) }
  if (nthD s.glb.tasks r.id {}).substNow then s1 else writeTaskRecs s1 i

/-- A complete instance committed at the boundary that ends its period (R106, R141, R182, R183). -/
def commitInst (s : State) (r : TaskRec) (i : Instance) : State := noteComplete (commitOuts s r i) r i

/-- One instance whose period ends now: discarded without an overrun by a class 2 swap, committed when complete, else
an overrun with its reaction (R90, R106, R182, R183). -/
def endInst (s : State) (i : Instance) : State :=
  match taskRec s.ci.act i.task with
  | none => dropInst s i.task i.rel
  | some r =>
    if i.discard then dropInst s i.task i.rel
    else if i.complete && !i.broken then commitInst s r i
    else
      let s2 := overrun s r i.rel
      if (nthD s2.glb.tasks r.id {}).substNow then substOutputs s2 r.id else s2

/-- Whether an instance comes before another in the order of R173: higher priority first, ties to the lower task. -/
def instBefore (g : ConfImage) (a b : Instance) : Bool :=
  let p := fun (i : Instance) => match taskRec g i.task with
    | some r => r.priority
    | none => 32
  decide (p a < p b) || (p a == p b && decide (a.task ≤ b.task))

/-- All instances whose period ends at boundary k (R149, R182). -/
def endInstances (s : State) (k : Mcc) : State :=
  let now := sortBy (instBefore s.ci.act) (s.glb.inst.filter (fun i => atOrBefore i.fin k))
  let s1 := { s with glb := { s.glb with inst := s.glb.inst.filter (fun i => !atOrBefore i.fin k) } }
  now.foldl endInst s1

/-- Whether overruns are judged by the group's completion masks: those of the voting members and of one in PROBATION (R337). -/
def judgedByGroup (s : State) : Bool := inGroup s && s.grp.formed && (s.grp.role.voting || s.grp.role == .probation)

/-- A fabric release missed while the fabric is in reset counts as an overrun of its task (R115, R181); in a formed group as an instance that
cannot complete, which the members judge at the end of its period (R337). -/
def missedRelease (s : State) (r : TaskRec) : State :=
  if judgedByGroup s then { s with glb := { s.glb with inst := s.glb.inst ++ [{ newInst s r with broken := true }] } }
  else overrun s r s.cyc.mcc

end Sys2Proof.Machine
end

