-- ==== Sys2Proof/Machine/CycOps.lean ====
section
/-! DEFINITION. Machine/CycOps.lean: the cycle timer's correction, the sync reference and the launch queues
(07_cycle_boundary_and_launch, R154 to R170). -/

namespace Sys2Proof.Machine

/-- slew_ns = CYC_SLEW × 100 (R156). -/
def slewNs (g : ConfImage) : Int := g.time.slew * 100

/-- window_ns = CYC_WINDOW × T_base / 1,000 (R156). -/
def windowNs (g : ConfImage) : Int := (g.time.window * (g.time.tbaseUs * 1000) / 1000 : Nat)

/-- The signed distance of a TTC from the nearest multiple of T_base (R155, SYNC_REF 0). -/
def gridErr (t : Word) (tb : Nat) : Int :=
  if tb = 0 then 0
  else ((t.toNat + tb / 2) % tb : Nat) - ((tb / 2 : Nat) : Int)

/-- The release offset in ns: 10 µs standalone, 40 µs in a group (R151, R152). -/
def releaseOffNs (s : State) : Nat := if inGroup s then 40000 else 10000

/-- The worst case of a task in ns: WCET_CYC × 1.25 ns of its longest tile, rounded up, or the stated worst case of a
safety task (R84, R157). -/
def wcetNs (g : ConfImage) (r : TaskRec) : Nat :=
  if r.engine = 0 then
    ceilDiv (5 * ((g.tiles.filter (fun t => t.task.toNat == r.id)).map (·.wcetCyc)).foldl max 0) 4
  else match g.safety.tasks.find? (fun t => t.task == r.id) with
    | some t => t.wcetUs * 1000
    | none => 0

/-- The allowance of one task: period - release offset - worst case - margin - net shortening since release (R157). -/
def allowanceNs (s : State) (r : TaskRec) (short : Int) : Int :=
  let period : Int := tbaseNs s * 2 ^ r.periodExp
  let margin : Int := if r.engine = 1 ∧ inGroup s then 60000 else 0
  period - releaseOffNs s - wcetNs s.ci.act r - margin - short

/-- The allowances at boundary k: of every fabric or safety instance in flight past k and of every such task released
at k (R157). -/
def allowances (s : State) (k : Mcc) : List Int :=
  let fs := s.glb.inst.filterMap (fun i => match taskRec s.ci.act i.task with
    | some r => if r.engine ≠ 2 ∧ before k i.fin then some (allowanceNs s r i.shortening) else none
    | none => none)
  let rs := s.ci.act.tasks.filterMap (fun r =>
    if r.engine ≠ 2 ∧ releasedAt r k ∧ releases s r.engine then some (allowanceNs s r 0) else none)
  fs ++ rs

/-- The least of the allowances; without a task in flight none limits the correction. -/
def leastAllowance : List Int → Option Int
  | [] => none
  | x :: xs => match leastAllowance xs with
    | none => some x
    | some y => some (min x y)

/-- Whether boundary k is due with SYNC_REF 2: j + n × 2^m after the last match j (R155). -/
def isDue (s : State) (k : Mcc) : Bool :=
  match s.cyc.due with
  | none => false
  | some j => (k - j).toNat % 2 ^ s.ci.act.time.refExp == 0

/-- Whether a boundary without a matched reference counts as missed (R155). -/
def countsMissed (s : State) (k : Mcc) : Bool :=
  match s.ci.act.time.syncRef with
  | 1 => true
  | 2 => isDue s k
  | _ => false

/-- SYNC_LOST set with a cause: counted in LOST_CNT, a WARNING record with e and MCC (R158, R160, R171). -/
def loseSync (s : State) (c : LostCause) (e : Int) : State :=
  record { s with cyc := { s.cyc with
      syncLost := true, lostCause := c, lostMcc := s.cyc.mcc, goodRun := 0, resyncUsed := false, lostCnt := satInc s.cyc.lostCnt } }
    .warning srcCyc (cState c.num) s.cyc.mcc.toNat (beBytes 4 (BitVec.ofInt 32 e).toNat)

/-- SYNC_LOST cleared, the corrections of R156 resuming. -/
def clearLost (s : State) : State :=
  { s with cyc := { s.cyc with syncLost := false, lostCause := .none, goodRun := 0, resyncUsed := false } }

/-- The boundary after a RESYNC, with no reference measured: SYNC_LOST ends where the predicted error lies inside the window (R159). -/
def resyncedIn (s : State) (e : Int) : State :=
  if s.cyc.syncLost && s.cyc.resyncLast && decide (e.natAbs ≤ (windowNs s.ci.act).toNat) then clearLost s else s

/-- A matched reference measured e while SYNC_LOST is set: the leaving rules of R158 to R160 for each cause. -/
def lostMeasure (s : State) (e : Int) : State :=
  if !s.cyc.syncLost then s
  else
    let inside := decide (e.natAbs ≤ (windowNs s.ci.act).toNat)
    match s.cyc.lostCause with
    | .refAbsent => if inside then clearLost s else s
    | .noRef => if inside then clearLost s else { s with cyc := { s.cyc with lostCause := .phase, goodRun := 0 } }
    | _ =>
      if s.cyc.resyncLast && inside then clearLost s
      else if inside then
        (if s.cyc.goodRun + 1 ≥ 4 then clearLost s else { s with cyc := { s.cyc with goodRun := s.cyc.goodRun + 1 } })
      else { s with cyc := { s.cyc with goodRun := 0 } }

/-- The reference bookkeeping of the cycle that ends at boundary k: a boundary before k without a match counts as missed,
and 16 in a row make the reference absent (R155). `was` says that there was a boundary before. With SYNC_REF 0 it is present once TIME_VALID is set. -/
def refBook (s : State) (k : Mcc) (was : Bool) : State :=
  let miss := was && !s.cyc.matchedNow && countsMissed s (k - 1)
  let run := if s.cyc.matchedNow then 0 else if miss then s.cyc.missRun + 1 else s.cyc.missRun
  let present := match s.ci.act.time.syncRef with
    | 0 => s.tb.valid
    | 3 => true
    | 1 => decide (run < 16)
    | _ => s.cyc.everMatched && decide (run < 16)
  let s1 := { s with cyc := { s.cyc with
    missRun := run, matchedNow := false
    missedRef := if miss then satInc s.cyc.missedRef else s.cyc.missedRef
    refPresent := present } }
  if s.cyc.refPresent && !present && !s.cyc.syncLost then loseSync s1 .refAbsent s.cyc.ePrev else s1

/-- Whether RESYNC is performed at boundary k: at any in STOP, in RUN and HOLD at a major cycle boundary after the one that set SYNC_LOST
(R159; log 173). `lent` says that the ACTIVE's boundary time serves as the reference (R333). -/
def resyncAt (s : State) (k : Mcc) (lent : Bool) : Bool :=
  s.cyc.syncLost && (s.cyc.refPresent || lent) &&
  (s.glb.state == .stop ||
   ((s.glb.state == .run || s.glb.state == .hold) && s.ci.act.time.resyncAtMajor && isMajor s.ci.act k && s.cyc.lostMcc != k &&
     !s.cyc.resyncUsed))

/-- The correction of minor cycle k and its length (R156, R157, R159): first the error is measured or predicted, then
the loss of sync judged, then the correction clamped to the slew and, when it shortens, to the allowance. A member that uses the ACTIVE's
boundary times keeps the book of its own reference (R333). -/
def correct (s : State) (k : Mcc) : State :=
  let tb := tbaseNs s
  let sref := s.ci.act.time.syncRef
  let own : Option Int :=
    if sref = 0 then (if s.tb.valid then some (gridErr s.cyc.bttc tb) else none)
    else match s.cyc.pendRef with
      | some r => some ((s.cyc.bttc - r).toInt)
      | none => none
  let lent := inGroup s && !s.grp.activeRef
  let seen := if lent then none else own
  let e : Int := match seen with
    | some x => x
    | none => match s.cyc.lateErr with
      | some l => l - s.cyc.cPrev
      | none => s.cyc.ePrev - s.cyc.cPrev
  let measured := seen.isSome || s.cyc.lateErr.isSome
  let s0 := { s with cyc := { s.cyc with
    matchedNow := own.isSome
    everMatched := s.cyc.everMatched || own.isSome
    due := if sref = 2 ∧ own.isSome then some k else s.cyc.due
    refPresent := s.cyc.refPresent || own.isSome
    phaseErr := match seen with
      | some x => x
      | none => s.cyc.phaseErr
    pendRef := none, lateErr := none } }
  let s1 := if measured then lostMeasure s0 e else resyncedIn s0 e
  let s2 := if sref ≠ 3 ∧ !s1.cyc.syncLost ∧ windowNs s.ci.act < e.natAbs then loseSync s1 .phase e else s1
  let rs := sref ≠ 3 && resyncAt s2 k (lent && s.cyc.lateErr.isSome)
  let c0 : Int := if s2.cyc.syncLost && !s2.cyc.seek then 0 else clampInt e (-(slewNs s.ci.act)) (slewNs s.ci.act)
  let lim := leastAllowance (allowances s2 k)
  let c1 : Int := match lim with
    | some a => if 0 < c0 then min c0 a else c0
    | none => c0
  let c : Int := if sref = 3 then 0 else c1
  let len : Nat := if rs then tb + ((-e) % (tb : Int)).toNat else ((tb : Int) - c).toNat
  let s3 := { s2 with
    cyc := { s2.cyc with
      residual := e, ePrev := e, cPrev := if rs then e else c, lenNs := len
      slewing := !rs && c != 0, slewLimited := !rs && c1 != c0
      resyncLast := rs
      resyncUsed := s2.cyc.resyncUsed || (rs && s.glb.state != .stop)
      resynced := s2.cyc.resynced || rs
      resyncCnt := if rs then satInc s2.cyc.resyncCnt else s2.cyc.resyncCnt
      timerTtc := s2.cyc.bttc + BitVec.ofNat 64 len }
    glb := { s2.glb with inst := s2.glb.inst.map (fun i => { i with shortening := i.shortening + ((tb : Int) - len) }) } }
  if rs then record s3 .notice srcCyc (cCleared s.cyc.lostCause.num) k.toNat (beBytes 4 (BitVec.ofInt 32 e).toNat) else s3

/-- A reference instant seen now (SYNC_REF 1 and 2): matched to the nearest boundary, the last one or the next; a second
match of one boundary is ignored and counted. A match to the last boundary is late: it shows in CYC_PHASE_ERR and
enters the correction of the next boundary (R155, R156). -/
def seeReference (s : State) (t : Word) : State :=
  if !s.cyc.started then s
  else if (t - s.cyc.bttc).toInt ≤ (s.cyc.lenNs / 2 : Nat) then
    if s.cyc.matchedNow then { s with cyc := { s.cyc with extraRef := satInc s.cyc.extraRef } }
    else
      let e := (s.cyc.bttc - t).toInt
      { s with cyc := { s.cyc with
          matchedNow := true, everMatched := true, refPresent := true, lateErr := some e, phaseErr := e, missRun := 0
          due := if s.ci.act.time.syncRef = 2 then some s.cyc.mcc else s.cyc.due } }
  else if s.cyc.pendRef.isSome then { s with cyc := { s.cyc with extraRef := satInc s.cyc.extraRef } }
  else { s with cyc := { s.cyc with pendRef := some t } }

/-- The ACTIVE's boundary time as the reference of the running boundary: the error enters the next correction, and the own reference stays as it is
(R333). -/
def lendReference (s : State) (e : Int) : State := { s with cyc := { s.cyc with lateErr := some e, phaseErr := e } }

/-- t0 of the running minor cycle on the TTC as it now stands: the boundary's instant, moved with the TTC by a step of train time
within the cycle (R315). -/
def t0 (s : State) : Word := s.cyc.timerTtc - BitVec.ofNat 64 s.cyc.lenNs

/-! ## Launch (R166 to R170) -/

/-- The effective offset of an output group of an image in µs: at least 10; 0 for a group without a record (R166). -/
def groupOffset (g : ConfImage) (og : Nat) : Option Nat :=
  g.iomap.findSome? (fun r => match r with
    | .outGroup i us => if i = og then some (max us 10) else none
    | _ => none)

/-- The effective offsets of all 64 output groups of an image (CYC_OG_STATUS, R172). -/
def groupOffsets (g : ConfImage) : List Nat := (List.range 64).map (fun i => (groupOffset g i).getD 0)

/-- The launch queue of an output group. -/
def launchQueue (s : State) (og : Nat) : List Launch := nthD s.cyc.queues og []

/-- A launch put into its group's queue; a full queue of 32 has its newest entry replaced, counted in COLLAPSED, with a WARNING record once
per group per major cycle (R167). -/
def queueNew (s : State) (og : Nat) (l : Launch) : State :=
  let q := launchQueue s og
  if q.length < 32 then { s with cyc := { s.cyc with queues := setNth s.cyc.queues og (q ++ [l]) } }
  else
    let s1 := { s with cyc := { s.cyc with
      queues := setNth s.cyc.queues og (q.dropLast ++ [l]), collapsed := satInc s.cyc.collapsed
      collapseNoted := og :: s.cyc.collapseNoted } }
    if s.cyc.collapseNoted.contains og then suppress s1 srcCyc (cRefused .refusedCapacity)
    else record s1 .warning srcCyc (cRefused .refusedCapacity) og

/-- Whether a comparator finds a launch due: (int32)(TTC[31:0] - ltn32) ≥ 0 (R167). -/
def launchDue (s : State) (l : Launch) : Bool := decide (0 ≤ sdiff (s.tb.ttc.setWidth 32 : Reg32) l.ltn)

/-- The pending launches of a resetting bus port discarded (R170). -/
def dropLaunches (s : State) (p : LaunchItem → Bool) : State :=
  let strip := fun (l : Launch) => { l with items := l.items.filter (fun i => !p i) }
  { s with cyc := { s.cyc with
      queues := s.cyc.queues.map (fun q => (q.map strip).filter (fun l => !l.items.isEmpty))
      evtLaunch := s.cyc.evtLaunch.map (fun o => (o.map strip).filter (fun l => !l.items.isEmpty)) } }

end Sys2Proof.Machine
end

