-- ==== Sys2Proof/Machine/FabricEvents.lean ====
section
/-! DEFINITION. Machine/FabricEvents.lean: releases, windows, transfers, handlers, faults and resets of the fabric
(05_cycle_fabric). -/

namespace Sys2Proof.Machine

/-- The mailbox entries that a task's first tile receives at a release: the oldest 64 of those that reached the mailbox before the release
boundary (R105, R236). -/
def mailDue (s : State) (task : Nat) : List (Nat × FailEnt) :=
  (s.txe.mail.filter (fun e => e.1 == task && e.2.failMcc != s.cyc.mcc)).take 64

/-- The mailbox region filled, the unused entries reading zero (R105). -/
def mailboxFill (s : State) (task : Nat) (m : Mem) : Mem :=
  (m.clear 0x3F000 0x3F800).writeList 0x3F000 ((mailDue s task).flatMap (fun e => e.2.bytes))

/-- The mailbox of a task after a delivery of its n oldest entries. -/
def mailTake (l : List (Nat × FailEnt)) (task : Nat) : Nat → List (Nat × FailEnt)
  | 0 => l
  | n + 1 => mailTake (dropFirst (fun e => e.1 == task) l) task n

/-- The PIM words that descriptors read. -/
def descPim (ds : List WinDesc) : List Nat := ds.flatMap (fun d => (List.range d.count).map (d.pimWord + ·))

/-- A window fill meets the errors of the words it reads; an uncorrectable one leaves the instance it fills incomplete (R106, R220). -/
def fillMeets (s : State) (ds : List WinDesc) (ver : Mcc) (task : Option Nat) : State :=
  let bad := badOf s.pim ver
  let ws := if bad.isEmpty && s.pim.softWords.isEmpty then [] else descPim ds
  let s1 := noteWait (pimMeet s bad ws) true (descPim ds)
  match task with
  | some n => if bad.any (fun l => ws.contains (l / 4)) then { s1 with glb := breakTask s1.glb n } else s1
  | none => s1

/-- One tile released for its task: the code half of the active plane from now on, with its local data initialised
where R144 says so; flags cleared; the deadline counter loaded with WCET_CYC; the input window filled from the image of
the release; FILL (R104, R105, R114, R118, R119, R123). -/
def releaseTile (s : State) (r : TaskRec) (n : TileNo) : State :=
  let t := s.fab.tile n
  if t.phase = .reset then { s with glb := breakTask s.glb r.id }
  else
    let p := tileProg s n s.ci.plane
    let fresh := t.codeHalf != s.ci.plane && t.layout != p.layoutId
    let t1 := if fresh then t.initData p else t
    let first := (tilesOf s.ci.act r.id).head? == some n.val
    let m1 := releaseBlock s n r t1.mem
    let m2 := (fillDescs p).foldl (fillDesc (imageSigs s s.cyc.mcc) 0x30000) m1
    let m3 := if first then mailboxFill s r.id m2 else m2
    let w := (tileRec s.ci.act n).wcetCyc
    let s1 := modTile s n (fun t => { t1 with
      mem := m3, phase := .fill, tsf := 0, pc := 0, loops := [], open0 := none, recs := [], sent := []
      cyc := 0, deadline := w, budget := w, relTtc := s.tb.ttc, inst := true, relMcc := s.cyc.mcc, codeHalf := s.ci.plane
      layout := p.layoutId, task := BitVec.ofNat 8 r.id, wcet := BitVec.ofNat 32 w
      hand := t.hand })
    let s2 := if first then { s1 with txe := { s1.txe with mail := mailTake s1.txe.mail r.id (mailDue s r.id).length } } else s1
    let s3 := fillMeets s2 (fillDescs p) s.cyc.mcc (some r.id)
    if fresh then record s3 .notice (srcTile n) (cChange 5) n.val else s3

/-- A fabric task released on all its tiles; while the fabric is in reset the release is missed and counts as an overrun
(R104, R115). -/
def releaseFabric (s : State) (r : TaskRec) : State :=
  if s.fab.state ≠ .running then missedRelease s r
  else
    let i := newInst s r
    let s1 := { s with glb := { s.glb with inst := s.glb.inst ++ [i] } }
    (tilesOf s.ci.act r.id).foldl (fun s i => if h : i < 48 then releaseTile s r ⟨i, h⟩ else s) s1

/-- FILL_END: the fill is done at exactly release + FILL_CYC and the PROGRAM phase begins (R104). -/
def execFillEnd (n : TileNo) (s : State) : Host.Outcome State Fault Refusal :=
  let t := s.fab.tile n
  let c := fillCyc (planeImg s t.codeHalf) n (tileProg s n t.codeHalf)
  .next (if t.phase = .fill then
    modTile (pmuCount s 8 0x205 ((c - 16) / 90)) n (fun t => { t with phase := .program, cyc := t.cyc + c, deadline := t.deadline - c })
  else s)

/-- The counters of a task's tiles with one more complete instance (R119). -/
def countComplete (s : State) (task : Nat) : State :=
  (tilesOf s.ci.act task).foldl (fun s i => if h : i < 48 then modTile s ⟨i, h⟩ (fun t => { t with
      lastCyc := t.doneCyc, maxCyc := if t.maxCyc < t.doneCyc then t.doneCyc else t.maxCyc, instances := t.instances + 1 }) else s) s

/-- A tile's drain done, DRAIN_CYC after END (assumption 167): its outputs staged for the boundary that ends the instance's period; the
instance complete once every tile of the task has drained, which then count it with their cycles, and keeping the records they staged (R104, R106, R119, R141). -/
def drainTile (s : State) (n : TileNo) : State :=
  let t := s.fab.tile n
  let p := tileProg s n t.codeHalf
  let task := t.task.toNat
  let c := t.cyc + drainCyc p
  let idle (s : State) : State := modTile s n (fun t => { t with
    phase := .idle, inst := false, recs := []
    deadline := 0, cyc := c, doneCyc := BitVec.ofNat 32 c, winStart := { t with cyc := c }.now })
  match s.glb.inst.find? (fun i => i.task == task && i.rel == t.relMcc) with
  | none => idle s
  | some i =>
    let ws := drainWrites s.ci.act s.pim task 0x38000 t.mem (drainDescs p)
    let done := i.tilesDone ++ [n.val]
    let whole := (tilesOf s.ci.act task).all (fun x => done.contains x) && !i.broken
    let s1 := pmuCount (pmuCount (noteWait (addStaging s (drainEnts s.ci.act ws i.fin (some (task, i.rel)))) true (descPim (drainDescs p))) 8 0x206 (descWords (drainDescs p)))
      8 0x200 (if whole then 1 else 0)
    let s2 := idle { s1 with glb := modInst s1.glb task i.rel (fun i => { i with
      tilesDone := done, complete := whole, recs := i.recs ++ t.recs.map (fun x => (n.val, x)) }) }
    if whole then countComplete s2 task else s2

/-- Whether the deadline counter of a tile with an instance in flight has reached zero: by the cycles it has run, those that its fill or its
drain still takes included, or by the time since the release (R104, R114). -/
def deadlineDue (s : State) (n : TileNo) : Bool :=
  let t := s.fab.tile n
  let p := tileProg s n t.codeHalf
  t.inst && (t.deadline == 0 || (t.phase == .fill && decide (t.deadline < fillCyc (planeImg s t.codeHalf) n p)) ||
    (t.phase == .drain && decide (t.deadline < drainCyc p)) || decide (5 * (t.budget : Int) ≤ 4 * (s.tb.ttc - t.relTtc).toInt))

/-- DRAIN_COMPLETE: the drain ends, unless the deadline counter is zero first (R104, R106, R114). -/
def execDrainComplete (n : TileNo) (s : State) : Host.Outcome State Fault Refusal :=
  let t := s.fab.tile n
  .next (if t.phase = .drain ∧ drainCyc (tileProg s n t.codeHalf) ≤ t.deadline then drainTile s n else s)

/-- DEADLINE_EXPIRY: the counter of a tile with an instance in flight reaches zero before its DRAIN is complete: the tile is
stopped, an ERROR record gives the cycles consumed, those the counter was loaded with, and a TILE reset follows (R114, R118). -/
def execDeadlineExpiry (n : TileNo) (s : State) : Host.Outcome State Fault Refusal :=
  .next (if deadlineDue s n then
    tileReset (record s .error (srcTile n) (cFault 8) n.val (beBytes 4 (s.fab.tile n).budget)) n .deadline
  else s)

/-- The schedule entry of a number: that of the plane whose code half its source tile runs, the active plane's first while its XMIT has
executed, so that an instance that a swap leaves running keeps the entries that its code names (R90, R110, R111, R118). -/
def xferOf (s : State) (xfer : Nat) : Option XferEnt :=
  let runs (half : BitVec 1) (x : XferEnt) : Bool := if h : x.src < 48 then
      (s.fab.tile ⟨x.src, h⟩).codeHalf == half && (s.fab.tile ⟨x.src, h⟩).sent.contains xfer else false
  let old := s.ci.plane + 1
  match (planeImg s old).xfers[xfer]? with
  | some x => if runs old x && !((s.ci.act.xfers[xfer]?).any (runs s.ci.plane)) then some x else s.ci.act.xfers[xfer]?
  | none => s.ci.act.xfers[xfer]?

/-- SCHEDULED_TRANSFER: the words of an entry whose XMIT has executed move from the source's to the destination's network
buffers; without the XMIT nothing is sent (R109, R110). -/
def execScheduledTransfer (xfer : Nat) (s : State) : Host.Outcome State Fault Refusal :=
  .next (match xferOf s xfer with
    | none => s
    | some x =>
      if h : x.src < 48 ∧ x.dst < 48 then
        let a := s.fab.tile ⟨x.src, h.1⟩
        let d := s.fab.tile ⟨x.dst, h.2⟩
        if a.sent.contains xfer && a.phase != .reset && d.phase != .reset then
          let ws := a.mem.readList (0x3C000 + 8 * x.srcOff) (8 * x.words)
          let s1 := modTile s ⟨x.dst, h.2⟩ (fun t => { t with mem := t.mem.writeList (0x3C000 + 8 * x.dstOff) ws })
          modTile (pmuCount s1 8 0x207 ((x.words + 15) / 16)) ⟨x.src, h.1⟩ (fun t => { t with sent := t.sent.filter (· != xfer) })
        else s
      else s)

/-! ## Handlers -/

/-- The release block for a handler that starts: the tile's own fields and the handler's (R131). -/
def handlerBlock (s : State) (n : TileNo) (m : Mem) (mcc : Mcc) (task : Nat) : Mem :=
  let m1 := tileBlock s n (tileRec s.ci.act n).task m
  ((m1.writeLE 0x3F820 8 s.tb.ttc.toNat).writeLE 0x3F828 4 mcc.toNat).write 0x3F82C (BitVec.ofNat 8 task)

/-- The code half that a handler on the tile runs from: of a tile without a task that of the active plane (R87, R118). -/
def servHalf (s : State) (n : TileNo) : BitVec 1 :=
  if (tileRec s.ci.act n).task = 0xFF then s.ci.plane else (s.fab.tile n).codeHalf

/-- A tile without a task takes the code half of the active plane with its next handler; its local data stays where LOCAL_LAYOUT_ID is the same
(R87, R118, R144). -/
def switchHalf (s : State) (n : TileNo) : State :=
  let t := s.fab.tile n
  if t.codeHalf = servHalf s n then s
  else
    let p := tileProg s n s.ci.plane
    let fresh := t.layout != p.layoutId
    let t1 := if fresh then t.initData p else t
    let s1 := modTile s n (fun _ => { t1 with codeHalf := s.ci.plane })
    if fresh then record s1 .notice (srcTile n) (cChange 5) n.val else s1

/-- The predicted instant of a tile's next release; none for a tile without a task (R107, R146). -/
def nextRelease (s : State) (n : TileNo) : Option Word :=
  match taskRec s.ci.act (tileRec s.ci.act n).task.toNat with
  | none => none
  | some r =>
    let off := BitVec.ofNat 64 (releaseOffNs s)
    let p := 2 ^ r.periodExp
    let m := p - (s.cyc.mcc.toNat + p - r.phase) % p
    if releasedAt r s.cyc.mcc ∧ s.glb.relDone ≠ some s.cyc.mcc then some (t0 s + off)
    else some (s.cyc.timerTtc + BitVec.ofNat 64 ((m - 1) * tbaseNs s) + off)

/-- Whether a handler fits the window that a tile offers: the cycles left of a slack window; in the IDLE phase of a tile with a task up to 10 µs
before the next release; without limit on a tile without a task (R107, R108). -/
def fitsWindow (s : State) (n : TileNo) (h : HandlerEnt) : Bool :=
  if (s.fab.tile n).phase = .slack then decide (h.wcetCyc ≤ (s.fab.tile n).winLeft)
  else match nextRelease s n with
    | none => true
    | some x => !s.cyc.running || decide ((ceilDiv (5 * h.wcetCyc) 4 : Int) + 10000 ≤ (x - s.tb.ttc).toInt)

/-- Whether handlers may start in the running minor cycle: in a group, and in the first cycle of RUN, from the release offset on (R178, R188). -/
def handlersOpen (s : State) : Bool :=
  (!inGroup s && s.glb.runAt != some s.cyc.mcc) || s.glb.relDone == some s.cyc.mcc || decide ((releaseOffNs s : Int) ≤ (s.tb.ttc - t0 s).toInt)

/-- The handler that a tile would run for an event task now: the tile offers a window in which it fits, and the task is the one that the
dispatcher chooses there (R107, R108, R177). -/
def servable (s : State) (n : TileNo) (task : Nat) : Option HandlerEnt :=
  let t := s.fab.tile n
  let free := t.hand.isNone && t.open0.isNone && (t.phase == .idle || t.phase == .slack)
  let may := s.glb.state == .run || (s.glb.state == .hold && decide (0 < s.glb.stepLeft))
  if free && may && s.fab.state == .running && handlersOpen s && (dispatchable s n).contains task then
    ((tileProg s n (servHalf s n)).handlers.find? (fun h => h.evtTask == task)).filter (fitsWindow s n)
  else none

/-- The start of the window that a tile offers; of a tile without a task the dispatch instant (R107, R108). -/
def windowStart (s : State) (n : TileNo) : Word :=
  if (tileRec s.ci.act n).task = 0xFF ∧ (s.fab.tile n).phase ≠ .slack then s.tb.ttc else (s.fab.tile n).winStart

/-- Whether no other tile's window that could take the task's event starts before this one, nor at the same instant with a lower number (R108). -/
def firstWindow (s : State) (n : TileNo) (task : Nat) : Bool :=
  (List.range 48).all (fun i => if h : i < 48 then
    i == n.val || (servable s ⟨i, h⟩ task).isNone || before (windowStart s n) (windowStart s ⟨i, h⟩) ||
      (windowStart s n == windowStart s ⟨i, h⟩ && decide (n.val < i))
  else true)

/-- The handler of an event task started on a tile with the task's oldest entry: the event window filled from the newest settled image,
standalone with the trigger's value and quality from the entry written over it, the handler's flags cleared (R123, R177, R178). -/
def startHandler (s0 : State) (n : TileNo) (task : Nat) (h : HandlerEnt) (x : EvtEntry) : State :=
  let s := switchHalf s0 n
  let t := s.fab.tile n
  let p := tileProg s n t.codeHalf
  let ver := s.pim.settledMcc.getD 0
  let ds := handDescs p h false
  let trig : List (SigRec × SigVal) := match taskRec s.ci.act (0x20 + task) with
    | some r => match sigRec s.ci.act r.triggerSid with
      | some g => [(g, ⟨x.val, x.q⟩)]
      | none => []
    | none => []
  let sigs := imageSigs s ver
  let sigs' := if inGroup s then sigs else sigs.map (fun g => match trig.find? (fun u => u.1.sid == g.1.sid) with
    | some u => u
    | none => g)
  let m1 := ds.foldl (fillDesc sigs' 0x3E000) t.mem
  let s := fillMeets s ds ver none
  let run : HandlerRun := { task, entry := x, startTtc := s.tb.ttc, imgMcc := ver, slack := t.phase == .slack }
  modTile (pmuCount { s with glb := modEvt s.glb task (fun e => { e with queue := e.queue.drop 1, active := true }) } 8 0x205 (descWords ds)) n
    (fun t => { t with mem := handlerBlock s n m1 ver task, hand := some run })

/-- EVENT_DISPATCH: the oldest entry of the event task of highest priority given to the window that starts first (R107, R108, R177, R178). -/
def execEventDispatch (n : TileNo) (task : Nat) (s : State) : Host.Outcome State Fault Refusal :=
  .next (match servable s n task, (nthD s.glb.evts task {}).queue with
    | some h, x :: _ => if firstWindow s n task then startHandler s n task h x else s
    | _, _ => s)

/-- HANDLER_END: the event-window drain of a handler that has executed END; its outputs wait for the first boundary after it,
or are discarded in STOP (R139, R178 to R180). -/
def execHandlerEnd (n : TileNo) (s : State) : Host.Outcome State Fault Refusal :=
  let t := s.fab.tile n
  .next (match t.hand with
    | none => s
    | some h =>
      if !h.ended then s
      else
        let p := tileProg s n t.codeHalf
        let ent := p.handlers.find? (fun e => e.evtTask == h.task)
        let ds := ent.elim [] (fun e => handDescs p e true)
        let used := ent.elim 0 (fun e => evtCyc p e false + h.cyc + evtCyc p e true)
        let ws := drainWrites s.ci.act s.pim (0x20 + h.task) 0x3E000 t.mem ds
        let keep := s.glb.state == .run || s.glb.state == .hold
        let out : HandlerOut := ⟨h.task, n, ws, h.launch, h.recs⟩
        modTile (pmuCount (pmuCount (noteUsed { s with glb := { (modEvt s.glb h.task (fun e => { e with active := false })) with
            handOuts := if keep then s.glb.handOuts ++ [out] else s.glb.handOuts } }) 8 0x203 1) 8 0x206 (descWords ds)) n
          (fun t => { t with hand := none, handlers := t.handlers + 1, winLeft := if h.slack then t.winLeft - used else t.winLeft }))

/-! ## Faults and resets -/

/-- SCRATCHPAD_SCRUB: the scrubber rewrites every word and corrects what it finds; each corrected word counts (R99,
R118). -/
def execScratchpadScrub (n : TileNo) (corrected : Nat) (s : State) : Host.Outcome State Fault Refusal :=
  .next (modTile (pmuCount s 8 0x208 corrected) n (fun t => { t with corr := satAdd t.corr corrected }))

/-- SCRATCHPAD_ECC_ERROR: a correctable error is corrected and counted; an uncorrectable one counts, writes an ERROR record
naming tile and address, and causes a TILE reset (R118). -/
def execScratchpadEccError (n : TileNo) (addr : Nat) (correctable : Bool) (s : State) : Host.Outcome State Fault Refusal :=
  .next (if correctable then modTile (pmuCount s 8 0x208 1) n (fun t => { t with corr := satInc t.corr })
    else
      let s1 := record (modTile s n (fun t => { t with uncorr := satInc t.uncorr })) .error (srcTile n) (cFault 7) n.val (beBytes 4 addr)
      tileReset s1 n .uncorrectable)

/-- LINK_ECC_ERROR: a correctable error is counted; an uncorrectable one counts, writes an ERROR record naming the transfer
and resets the destination tile (R118). -/
def execLinkEccError (xfer : Nat) (correctable : Bool) (s : State) : Host.Outcome State Fault Refusal :=
  .next (if correctable then pmuCount { s with fab := { s.fab with netCorr := satInc s.fab.netCorr } } 8 0x208 1
    else
      let s1 := record { s with fab := { s.fab with netUncorr := satInc s.fab.netUncorr } } .error srcFab (cFault 7) xfer
      match xferOf s xfer with
      | none => s1
      | some x => if h : x.dst < 48 then
          tileReset s1 ⟨x.dst, h⟩ .uncorrectable else s1)

/-- FABRIC_RESET by trusted kernel command or TILEFW activation (R115); on the ACTIVE member of a group an activation is
refused (R118). A HALTED fabric is released by no such reset (R117). While a swap is PROPOSED a NOTICE record is written. -/
def fabricReset (s : State) (activation : Bool) : State :=
  if s.fab.state = .halted then s
  else if activation && inGroup s && s.grp.role == .active then
    record s .warning srcFab (cRefused .refusedPolicy)
  else
    let s1 := fabricHold s false
    let s2 := { s1 with rst := { s1.rst with source := if activation then .activation else .command, kind := 5 } }
    if s.ci.swap = .proposed then record s2 .notice srcFab (cFault (if activation then 5 else 1)) else s2

/-- FABRIC_RESET (R115). -/
def execFabricReset (activation : Bool) (s : State) : Host.Outcome State Fault Refusal := .next (fabricReset s activation)

/-- A tile out of reset: idle, or unused where its record gives it neither task nor events, with its page showing the
active plane and its data initialised (R113, R115, R116, R119, R121). -/
def Tile.restart (t : Tile) (g : ConfImage) (n : TileNo) (p : TileProg) (plane : BitVec 1) : Tile :=
  let r := tileRec g n
  { (t.init p) with
    phase := if r.task = 0xFF ∧ r.slackEvt = 0 then .unused else .idle
    task := r.task, wcet := BitVec.ofNat 32 r.wcetCyc, codeHalf := plane }

/-- All tiles out of reset from the active plane. FAB_STATUS.STATE is LOADING from the start of a FABRIC reset to its end, then RUNNING in RUN and
HOLD, else READY, which RUN turns into RUNNING for good (DESIGN CHOICE, assumption 168). -/
def restartTiles (s : State) : State :=
  { s with fab := { s.fab with
      tiles := ((List.range 48).zip s.fab.tiles).map (fun (i, t) =>
        if h : i < 48 then { (t.restart s.ci.act ⟨i, h⟩ (tileProg s ⟨i, h⟩ s.ci.plane) s.ci.plane) with winStart := s.tb.ttc } else t)
      state := if s.glb.state = .run ∨ s.glb.state = .hold then .running else .ready } }

/-- The task part of a WARM restart of the fabric: event queues emptied, CONSEC and REACTED of its tasks cleared (R115, R193). -/
def restartTasks (s : State) : State :=
  let fabTask (n : Nat) : Bool := match taskRec s.ci.act n with
    | some r => r.kind == 0 && r.engine == 0
    | none => false
  { s with glb := { s.glb with
      tasks := ((List.range s.glb.tasks.length).zip s.glb.tasks).map (fun (n, t) =>
        if fabTask n then { t with consec := 0, overrunning := false, reacted := false, substNow := false } else t)
      evts := s.glb.evts.map (fun e => { e with queue := [] }) } }

/-- FABRIC_RESET_DONE: all 48 tiles reloaded from the active plane; each task is released at its next release boundary and initialises as in a
WARM restart (R115). -/
def execFabricResetDone (s : State) : Host.Outcome State Fault Refusal :=
  .next (if s.fab.state = .loading then
    let s1 := restartTasks (restartTiles s)
    { s1 with fab := { s1.fab with escalated := false } }
  else s)

/-- TILE_RESET by trusted kernel command (R116, R118, R119). -/
def tileResetCmd (s : State) (n : TileNo) : State := tileReset s n .command

/-- TILE_RESET (R116). -/
def execTileReset (n : TileNo) (s : State) : Host.Outcome State Fault Refusal := .next (tileResetCmd s n)

/-- TILE_RESET_DONE: the tile is reloaded and takes part again from its task's next release (R116). -/
def execTileResetDone (n : TileNo) (s : State) : Host.Outcome State Fault Refusal :=
  let t := s.fab.tile n
  .next (if t.phase = .reset ∧ (s.fab.state = .running ∨ s.fab.state = .ready) then
    modTile s n (fun t => { (t.restart s.ci.act n (tileProg s n s.ci.plane) s.ci.plane) with winStart := s.tb.ttc })
  else s)

end Sys2Proof.Machine
end

