-- ==== Sys2Proof/Machine/TxeOps.lean ====
section
/-! DEFINITION. Machine/TxeOps.lean: tags, completions, epochs, posted-write failures, receptions (10_transactions_and_image_bus,
R222 to R237). -/

namespace Sys2Proof.Machine

/-! ## DRAM -/

/-- Whether n bytes from an address lie in the DRAM range (R503). -/
def inDram (a : Word) (n : Nat) : Bool := decide (0x100000000 ≤ a.toNat) && decide (a.toNat + n ≤ 0x500000000)

/-- Bytes written to DRAM; an address outside the range takes nothing (R503). -/
def dramWrite (s : State) (a : Word) (l : List Byte) : State :=
  if inDram a l.length then
    pmuCount { s with dram := s.dram.writeList a.toNat l } 11 0x2C5 ((a.toNat % 64 + l.length + 63) / 64)
  else s

/-! ## Rings and completions (R227, R228) -/

/-- Ring n changed. -/
def modRing (s : State) (n : Nat) (f : Ring → Ring) : State := { s with txe := { s.txe with rings := modNth s.txe.rings n f } }

/-- Whether the completion queue has a free entry (R247). -/
def Ring.room (r : Ring) : Bool := decide ((r.cqTail - r.cqHead).toNat < 2 ^ r.size.toNat)

/-- The address of the completion entry the TXE writes next (R227). -/
def Ring.cqAddr (r : Ring) : Word :=
  r.base + BitVec.ofNat 64 (32 * 2 ^ r.size.toNat + 32 * (r.cqTail.toNat % 2 ^ r.size.toNat))

/-- A completion record put into its queue, or held while the queue is full; a disabled ring takes none (R227, R247). -/
def pushCompl (s : State) (n : Nat) (rec : List Byte) : State :=
  let r := nthD s.txe.rings n {}
  if !r.enable then s
  else if r.held.isEmpty && r.room then
    modRing (dramWrite s r.cqAddr rec) n (fun r => { r with cqTail := r.cqTail + 1 })
  else modRing s n (fun r => { r with held := r.held ++ [rec] })

/-- Held records written while the completion queue has room. -/
def drainHeld (s : State) (n : Nat) : Nat → State
  | 0 => s
  | k + 1 =>
    let r := nthD s.txe.rings n {}
    match r.held with
    | x :: xs =>
      if r.room then
        drainHeld (modRing (dramWrite s r.cqAddr x) n (fun r => { r with cqTail := r.cqTail + 1, held := xs })) n k
      else s
    | [] => s

/-- The fields of a completion record (R228). -/
structure Compl where
  tag : BitVec 18
  st : Status
  unit : Nat
  interim : Bool := false
  posted : Bool := false
  logged : Bool := false
  split : Bool := false
  target : Mcc := 0
  sid : Sid := 0
  len : Nat := 0
  retries : Nat := 0
  req : BitVec 16
  deriving DecidableEq, Repr

/-- The 32 bytes of a completion record (R228). -/
def complBytes (ttc : Word) (c : Compl) : List Byte :=
  leBytes 4 c.tag.toNat ++ [c.st.code, BitVec.ofNat 8 c.unit] ++
  leBytes 2 ((if c.interim then 1 else 0) + (if c.posted then 2 else 0) + (if c.logged then 4 else 0) + if c.split then 8 else 0) ++
  leBytes 4 c.target.toNat ++ leBytes 4 c.sid.toNat ++ leBytes 8 ttc.toNat ++ leBytes 4 c.len ++ leBytes 2 c.retries ++
  leBytes 2 c.req.toNat

/-- A completion reported in ring n at the present TTC. -/
def complete (s : State) (n : Nat) (c : Compl) : State := pushCompl s n (complBytes s.tb.ttc c)

/-! ## Tags (R223 to R225, R232) -/

/-- The epoch of a unit (R230). -/
def epochOf (s : State) (u : TUnit) : BitVec 4 :=
  if u = .fabric then s.fab.epoch else nthD s.txe.epochs (u.num - 1) 0

/-- Tags of a class in use. -/
def classUse (s : State) (c : TxClass) : Nat := (s.txe.tags.filter (fun t => t.cls == c)).length

/-- The quota of a class in force. -/
def quotaOf (s : State) (c : TxClass) : Nat := nthD s.txe.quota c.num 0

/-- The classes. -/
def TxClass.all : List TxClass := [.pd, .md, .bridge, .group, .dma, .maint]

/-- The size of the shared pool: the tags no quota claims (R224). -/
def poolSize (s : State) : Nat := 1024 - s.txe.quota.sum

/-- The pool tags in use: what each class holds beyond its quota (R224, R225). -/
def poolUse (s : State) : Nat := (TxClass.all.map (fun c => classUse s c - quotaOf s c)).sum

/-- TXE_STATUS.POOL_FREE (R247). -/
def poolFree (s : State) : Nat := poolSize s - poolUse s

/-- Whether a tag number may be issued now: not in flight and not within 2 ms of a UNIT_RESET or TIMEOUT (R223, R232). -/
def numFree (s : State) (n : Nat) : Bool :=
  !s.txe.tags.any (fun t => t.tag.toNat % 1024 == n) &&
  !s.txe.cool.any (fun c => c.1 == n && decide (0 < (c.2 - s.tb.ttc).toInt))

/-- The number the TXE issues next: the first free one from where it begins its choice (assumption 14). -/
def tagNum (s : State) : Option Nat :=
  let k := Config.tagPick s.txe.allocs % 1024
  ((List.range 1024).map (fun i => (k + i) % 1024)).find? (numFree s)

/-- The numbers that may not be issued again yet, those in flight apart (R232). -/
def coolNow (s : State) : Nat :=
  (((s.txe.cool.filter (fun c => decide (0 < (c.2 - s.tb.ttc).toInt))).map (·.1)).eraseDups.filter
    (fun n => !s.txe.tags.any (fun t => t.tag.toNat % 1024 == n))).length

/-- Whether a class gets a tag: from its quota, else from the shared pool, while a number is left that may be issued (R223, R225, R232). -/
def tagFree (s : State) (c : TxClass) : Bool :=
  (decide (classUse s c < quotaOf s c) || decide (0 < poolFree s)) && decide (s.txe.tags.length + coolNow s < 1024)

/-- A tag allocated for a request, with the target unit's epoch at issue (R223). -/
def allocTag (s : State) (u : TUnit) (c : TxClass) (q : TagReq) (ring : Option (Nat × BitVec 16)) (posted : Bool)
    (due : Option Word) : State × BitVec 18 :=
  let tag : BitVec 18 := BitVec.ofNat 4 c.num ++ epochOf s u ++ BitVec.ofNat 10 ((tagNum s).getD 0)
  ({ (pmuCount s 10 0x287 1) with txe := { s.txe with
      allocs := s.txe.allocs + 1
      tags := s.txe.tags ++ [{ tag, unit := u, cls := c, req := q, ring, posted, issueMcc := s.cyc.mcc
                               fabEpoch := s.fab.epoch, due }] } }, tag)

/-- A tag of a class that its transaction needs within one command only: allocated and free again (R222, assumption 183). -/
def passTag (s : State) : State :=
  { (pmuCount s 10 0x287 1) with txe := { s.txe with allocs := s.txe.allocs + 1 } }

/-- An answer DEFERRED counted (R247). -/
def noteDeferred (s : State) : State := { s with txe := { s.txe with deferred := satInc s.txe.deferred } }

/-- The TTC n ns from now. -/
def ttcIn (s : State) (n : Nat) : Word := s.tb.ttc + BitVec.ofNat 64 n

/-- A tag with changes. -/
def modTag (s : State) (tag : BitVec 18) (f : TagEnt → TagEnt) : State :=
  { s with txe := { s.txe with tags := s.txe.tags.map (fun t => if t.tag = tag then f t else t) } }

/-- The tag in flight of a value. -/
def tagOf (s : State) (tag : BitVec 18) : Option TagEnt := s.txe.tags.find? (fun t => t.tag == tag)

/-- A tag that had to wait or was refused for want of tags noted: counted, with a WARNING record once per class per major
cycle (R245, R247). -/
def noteTags (s : State) (c : TxClass) (st : Status) : State :=
  let s1 := { (pmuCount s 10 0x288 (if st = .deferred then 1 else 0)) with txe := { s.txe with
    deferred := if st = .deferred then satInc s.txe.deferred else s.txe.deferred
    refused := if st = .refusedCapacity then satInc s.txe.refused else s.txe.refused
    noted := c.num :: s.txe.noted } }
  if s.txe.noted.contains c.num then suppress s1 srcTxe (cRefused .refusedCapacity)
  else record s1 .warning srcTxe (cRefused .refusedCapacity) c.num

/-! ## Posted-write failures (R234 to R236, R219) -/

/-- An entry in the posted-write error log of 64, the first at index 1 (R234, R247, assumption 193). -/
def logFail (x : Txe) (e : FailEnt) : Txe :=
  { x with
    log := e :: x.log.take 63
    newest := (x.newest + 1) % 64
    lost := if x.log.length ≥ 64 then satInc x.lost else x.lost }

/-- Whether ring 1 can take one more LOGGED completion: enabled, with fewer than 256 that wait for room (R236). -/
def ringTakes (s : State) : Bool :=
  let r := nthD s.txe.rings 1 {}
  r.enable && decide ((r.held.filter (fun b => bit (nthD b 6 0) 2)).length < 256)

/-- The delivery of a failure to its issuer (R236): a fabric task's or a safety task's mailbox of 256, a completion record in
ring 1 with LOGGED set for an ENGINE 2 task or the runtime, nothing for an event task. What ring 1 cannot take, or a RUNTIME reset has had
dropped (`drop`), counts as ORPHAN (R233). -/
def mailFail (s : State) (e : FailEnt) (req : BitVec 16) (drop : Bool := false) (retries : Nat := 0) : State :=
  let w := e.issuer.toNat
  let engine : Option Nat := (taskRec s.ci.act w).map (fun r => r.engine)
  let full (l : List (Nat × FailEnt)) : Bool := decide (256 ≤ (l.filter (fun x => x.1 == w)).length)
  let orphan := { s with txe := { s.txe with orphan := satInc s.txe.orphan } }
  if w < 0x20 ∧ engine = some 0 then
    (if full s.txe.mail then orphan else { s with txe := { s.txe with mail := s.txe.mail ++ [(w, e)] } })
  else if w < 0x20 ∧ engine = some 1 then
    (if full s.txe.safeMail then orphan else { s with txe := { s.txe with safeMail := s.txe.safeMail ++ [(w, e)] } })
  else if w = 0x50 ∨ (w < 0x20 ∧ engine = some 2) then
    (if drop || !ringTakes s then orphan
     else complete s 1 { tag := e.tag, st := e.status, unit := e.unit.num, posted := true, logged := true, sid := e.sid, retries, req })
  else s

/-- The source of the records of a unit (R470). -/
def unitSrc : TUnit → BitVec 12
  | .ethA => 0x400 | .ethB => 0x401 | .ethM => 0x402 | .mvb => 0x410 | .can0 => 0x420 | .can1 => 0x421 | .gw => srcGw
  | .glL => 0x520 | .glR => 0x521 | .peerL => 0x520 | .peerR => 0x521 | .runtime => srcTxe | .fabric => srcFab

/-- A posted write's failure, learnt now: the log, the issuer's mailbox, the WRITE_FAILED marks of the SIDs, a WARNING
record (R219, R234). Of a failure and a delivery in one minor cycle the later one stands. -/
def failPosted (s : State) (e : FailEnt) (marks : List Sid) (req : BitVec 16) (drop : Bool := false) (retries : Nat := 0) : State :=
  let s1 := mailFail { s with txe := logFail s.txe e } e req drop retries
  record { s1 with pim := { s1.pim with wfPend := s1.pim.wfPend ++ marks, wfClear := s1.pim.wfClear.filter (fun x => !marks.contains x) } } .warning (unitSrc e.unit) (cFailed e.status) e.sid.toNat

/-- The log entry of a failed tag (R235). -/
def tagFail (s : State) (t : TagEnt) (st : Status) (issuer : Byte) (sid : Sid) (addr : Reg32) : FailEnt :=
  { tag := t.tag, status := st, unit := t.unit, issuer, unitEpoch := t.tag.extractLsb' 10 4, fabEpoch := t.fabEpoch, sid
    issueMcc := t.issueMcc, failMcc := s.cyc.mcc, addr, failTtc := s.tb.ttc }

/-- The far-side address of a request (R235). -/
def TagReq.addr : TagReq → Reg32
  | .mvbWrite p _ _ => BitVec.ofNat 32 p
  | .canSend i _ _ _ _ => i
  | .glWrite off _ _ => BitVec.ofNat 32 off
  | _ => 0

/-! ## Completion (R226, R231, R233) -/

/-- The completion record of a tag. -/
def complOf (t : TagEnt) (st : Status) (target : Mcc) (sid : Sid) (len : Nat) (split : Bool) : Compl :=
  { tag := t.tag, st, unit := t.unit.num, posted := t.posted, split, target, sid, len, retries := t.retries
    req := (t.ring.map (·.2)).getD 0 }

/-- The banks that atomic operations among some tags hold (R241). -/
def holdBanks (s : State) (l : List TagEnt) : BitVec 16 :=
  l.foldl (fun m t => match t.hold, t.req with
    | true, .atomic sid .. => ((sigRec s.ci.act sid).map sigWords).getD [] |>.foldl (fun m w => setBit m (Config.bankOf w).val) m
    | _, _ => m) 0

/-- A tag completes: it leaves the tags in flight, is counted, and its completion is reported; a posted write reports
nothing on success, and its failure is logged; a dropped completion counts as ORPHAN; a hold ends, and a frozen bank that nothing holds any
more is idle (R226, R232 to R234, R243). -/
def finishTag (s : State) (t : TagEnt) (st : Status) (target : Mcc := 0) (sid : Sid := 0) (len : Nat := 0)
    (split : Bool := false) : State :=
  let s1 := { s with
    txe := { s.txe with
      tags := s.txe.tags.filter (fun x => x.tag != t.tag)
      unitReset := if st = .unitReset then satInc s.txe.unitReset else s.txe.unitReset
      timeout := if st = .timeout then satInc s.txe.timeout else s.txe.timeout
      refused := if st = .refusedCapacity then satInc s.txe.refused else s.txe.refused
      cool := if st = .unitReset ∨ st = .timeout then (t.tag.toNat % 1024, ttcIn s 2000000) :: s.txe.cool else s.txe.cool }
    arb := if t.hold then
        { s.arb with idle := s.arb.freeze &&& ~~~holdBanks s (s.txe.tags.filter (fun x => x.tag != t.tag)) } else s.arb }
  if t.posted then
    (if st = .remoteError ∨ st = .timeout ∨ st = .unitReset then
      failPosted s1 (tagFail s1 t st 0x50 sid t.req.addr) [] ((t.ring.map (·.2)).getD 0) t.drop t.retries
    else s1)
  else match t.ring with
    | none => s1
    | some (n, _) =>
      if t.drop then { s1 with txe := { s1.txe with orphan := satInc s1.txe.orphan } }
      else complete s1 n (complOf t st target sid len split)

/-- The tags addressed to a unit completed UNIT_RESET (R231). -/
def resetTags (s : State) (u : TUnit) : State :=
  (s.txe.tags.filter (fun t => t.unit == u)).foldl (fun s t => finishTag s t .unitReset) s

/-- A unit's epoch incremented: its tags complete UNIT_RESET (R230, R231). -/
def bumpEpoch (s : State) (u : TUnit) : State :=
  resetTags { s with txe := { s.txe with epochs := modNth s.txe.epochs (u.num - 1) (· + 1) } } u

/-- Whether a request writes at a far unit (R226). -/
def TagReq.writesFar : TagReq → Bool
  | .mvbWrite .. => true
  | .canSend .. => true
  | .glWrite .. => true
  | .glDoorbell _ => true
  | _ => false

/-- The older writes of a tag's unit and class that have not completed (R226). -/
def writesAhead (s : State) (t : TagEnt) : List TagEnt :=
  if t.req.writesFar then
    (s.txe.tags.takeWhile (fun x => x.tag != t.tag)).filter (fun x => x.req.writesFar && x.unit == t.unit && x.cls == t.cls)
  else []

/-- A tag that waits to be issued again (R298, R329). -/
def waitAgain (s : State) (t : TagEnt) : State := modTag s t.tag (fun t => { t with again := true })

/-! ## Submissions (R225, R227) -/

/-- An entry taken from a submission ring. -/
def takeEntry (s : State) (n : Nat) : State := modRing s n (fun r => { r with sqHead := r.sqHead + 1, interim := false })

/-- A submission completed at once, without a tag. -/
def refuseEntry (s : State) (n : Nat) (req : BitVec 16) (unit : Nat) (st : Status) (sid : Sid := 0) : State :=
  complete (takeEntry s n) n { tag := Config.noTag req, st, unit, sid, req }

/-- The TXE takes the entry at the head of a submission ring. Without a free tag an entry with WAIT set stays at the head,
with one interim DEFERRED completion, and one with WAIT clear completes REFUSED_CAPACITY; with a tag `run` continues
(R225, R227). A ring that is disabled or empty holds no entry. -/
def submit (s : State) (n : Nat) (req : BitVec 16) (wait : Bool) (u : TUnit) (c : TxClass) (run : State → State) : State :=
  let r := nthD s.txe.rings n {}
  if !r.enable || r.sqHead == r.sqTail then s
  else if tagFree s c then run (takeEntry s n)
  else if wait then
    (if r.interim then s
     else complete (modRing (noteTags s c .deferred) n (fun r => { r with interim := true })) n
       { tag := Config.noTag req, st := .deferred, unit := u.num, interim := true, req })
  else refuseEntry (noteTags s c .refusedCapacity) n req u.num .refusedCapacity

/-- A submission that its own rule refuses, before a tag is taken; REFUSED_CAPACITY is counted (R247). -/
def submitRefused (s : State) (n : Nat) (req : BitVec 16) (unit : Nat) (st : Status) (sid : Sid := 0) : State :=
  let r := nthD s.txe.rings n {}
  if !r.enable || r.sqHead == r.sqTail then s
  else refuseEntry { s with txe := { s.txe with refused := if st = .refusedCapacity then satInc s.txe.refused else s.txe.refused } } n req unit st sid

/-! ## Receptions (R209, R225, R293) -/

/-- Whether a bank that a signal's words lie in is frozen (R243; assumption 13). -/
def sigFrozen (s : State) (r : SigRec) : Bool := (sigWords r).any (fun w => bit s.arb.freeze (Config.bankOf w).val)

/-- Whether a bank that a signal's words lie in has the TXE port quarantined (R242). -/
def sigQuar (s : State) (r : SigRec) : Bool := (sigWords r).any (fun w => bit s.arb.quar (Config.bankOf w).val)

/-- The staging entries of a reception's writes. -/
def rxEnts (s : State) (ws : List RxWrite) : List StgEnt :=
  ws.filterMap (fun w => if w.doorbell then none else (sigRec s.ci.act w.sid).map (fun r => { stgNow s r w.val w.code false .txe with keep := w.keep }))

/-- Writes accepted into staging, each raising its event standalone (R175, R208). -/
def acceptAll (s : State) (es : List StgEnt) : State := es.foldl acceptWrite s

/-- One more doorbell of a SID in a count by SID. -/
def countBell (l : List (Sid × Nat)) (sid : Sid) : List (Sid × Nat) :=
  match l with
  | [] => [(sid, 1)]
  | x :: xs => if x.1 = sid then (sid, x.2 + 1) :: xs else x :: countBell xs sid

/-- One doorbell: standalone it raises its event at once, in a group it is counted for agreement (R175, R300, R334). -/
def ringBell (s : State) (sid : Sid) : State :=
  match inGroup s with
  | true => { s with grp := { s.grp with ownBells := countBell s.grp.ownBells sid } }
  | false =>
    raiseFor s sid (stagedSig s sid) true

/-- The doorbells of a reception. -/
def ringBells (s : State) (ws : List RxWrite) : State := (ws.filter (fun w => w.doorbell)).foldl (fun s w => ringBell s w.sid) s

/-- The words of the image that a reception writes, those of its copy area with them (R209, R371). -/
def rxWords (s : State) (x : RxWait) : List Nat :=
  (x.writes.filter (fun w => !w.doorbell)).flatMap (fun w => ((sigRec s.ci.act w.sid).map sigWords).getD []) ++
  x.copy.toList.flatMap (copyPimWords s.ci.act)

/-- The WRITER code of the unit whose receptions a class carries (R72). -/
def rxWriter : TxClass → Byte
  | .pd => 0x40
  | .md => 0x41
  | .bridge => 0x42
  | _ => 0x50

/-- Whether a unit is the writer of the SID that a reception writes; a doorbell writes nothing (R73). -/
def ownsWrite (g : ConfImage) (c : TxClass) (w : RxWrite) : Bool :=
  w.doorbell || (match sigRec g w.sid with
    | some r => r.writer == rxWriter c
    | none => true)

/-- The protection map refuses a reception's writes to SIDs of another writer (R73). -/
def refuseForeign (s : State) (x : RxWait) : State :=
  (x.writes.filter (fun w => !ownsWrite s.ci.act x.cls w)).foldl (fun s w => refuseWriter s w.sid) s

/-- A reception without its writes to SIDs of another writer. -/
def ownPart (s : State) (x : RxWait) : RxWait := { x with writes := x.writes.filter (ownsWrite s.ci.act x.cls) }

/-- The own writes of a reception that arrives enter staging whole, its copy area with them, its doorbells follow (R209, R211, R293, R371). -/
def arriveOwn (s : State) (x : RxWait) : State :=
  let s0 := noteUsed { s with pim := { s.pim with copyStg := s.pim.copyStg ++ x.copy.toList } }
  ringBells (noteWait (acceptAll s0 (rxEnts s x.writes)) false (rxWords s x)) x.writes

/-- A reception that arrives: the protection map in force then judges its writes, those that waited over a swap again (R73, R209). -/
def arrive (s : State) (x : RxWait) : State := arriveOwn (refuseForeign s x) (ownPart s x)

/-- Whether a bank that a reception writes has the TXE port quarantined (R242). -/
def rxQuar (s : State) (x : RxWait) : Bool := (rxWords s x).any (fun w => bit s.arb.quar (Config.bankOf w).val)

/-- Whether a reception touches a frozen bank, for which it is refused whole (R209, R243). -/
def rxFrozen (s : State) (x : RxWait) : Bool := (rxWords s x).any (fun w => bit s.arb.freeze (Config.bankOf w).val)

/-- Whether a reception that holds its tag can arrive now: no bank that it writes is under quarantine, and the TXE's share takes its entries
(R211, R242). -/
def canArrive (s : State) (x : RxWait) : Bool := !rxQuar s x && txeRoom s (rxEnts s x.writes) x.copy

/-- Whether some tags hold a reception of a port: a later one of that port waits behind it (R226). -/
def rxAhead (l : List TagEnt) (p : Port) : Bool := l.any (fun t => match t.req with
  | .reception y => y.port == p
  | _ => false)

/-- A waiting reception that ends: it arrives, or a frozen bank refuses it whole, and its tag completes (R211, R243). -/
def takeRx (s : State) (t : TagEnt) (x : RxWait) : State :=
  if rxFrozen s x then finishTag s t .refusedFrozen else arrive (finishTag s t .ok) x

/-- A reception with its tag: it arrives and its tag is free again, or it waits and keeps the tag, DEFERRED while the TXE's share is full, behind
an earlier one of its port; one that touches a frozen bank completes REFUSED_FROZEN (R211, R222, R226, R242, R243). -/
def deliverRx (s : State) (x : RxWait) : State :=
  if rxFrozen s x then passTag s
  else if canArrive s x && !rxAhead s.txe.tags x.port then arrive (passTag s) x
  else
    let r := allocTag s x.port.unit x.cls (.reception x) none false none
    let s1 := modTag r.1 r.2 (fun t => { t with again := true })
    if canArrive s x || rxQuar s x then s1
    else noteDeferred { (pmuCount s1 10 0x286 1) with pim := { s1.pim with defer := satInc s1.pim.defer } }

/-- A reception carried in one tag of its class (R209, R225, R243): refused whole while it touches a frozen bank; without a
tag it waits in its port's receive buffer of 64; with the buffer full it is dropped. -/
def carryOwn (s : State) (x : RxWait) : State :=
  let queued := (s.txe.rx.filter (fun y => y.port == x.port)).length
  if rxFrozen s x then s
  else if decide (queued = 0) && tagFree s x.cls then deliverRx s x
  else if queued < 64 then
    let s1 := noteTags s x.cls .deferred
    { s1 with txe := { s1.txe with rx := s1.txe.rx ++ [x] } }
  else
    let s1 := { s with txe := { s.txe with refused := satInc s.txe.refused, rxNoted := x.port.num :: s.txe.rxNoted } }
    if s.txe.rxNoted.contains x.port.num then suppress s1 x.port.src (cRefused .refusedCapacity)
    else record s1 .warning x.port.src (cRefused .refusedCapacity) x.port.num

/-- A reception carried: each write to a SID of another writer is refused by the protection map, the others are carried (R73, R209). -/
def carryRx (s : State) (x : RxWait) : State :=
  carryOwn (refuseForeign s x) (ownPart s x)

/-- The writer of a SID in the active image. -/
def writerOf (s : State) (sid : Sid) : Option Byte := (sigRec s.ci.act sid).map (·.writer)

end Sys2Proof.Machine
end

