-- ==== Sys2Proof/Machine/SafetyOps.lean ====
section
/-! DEFINITION. Machine/SafetyOps.lean: the safety functions, the safe outputs' commands and the island safe state
(15_safety_island, R363 to R389). -/

namespace Sys2Proof.Machine

/-! ## The island safe state (R387, R388) -/

/-- Both safe outputs commanded off. -/
def soOff (s : State) : State :=
  { s with
    safe := { s.safe with so := s.safe.so.map (fun o => { o with cmd := false }) }
    cyc := { s.cyc with soLaunch := none }
    out := .safeOut false false :: s.out }

/-- The island safe state entered with a cause, both outputs de-energised, a SAFETY record; a further cause is noted as
present. In a group a member that enters it alone asks for its own exclusion and goes OUT, which causes 0x02 and a
majority's 0x03 do not (R387, R388). -/
def enterIsland (s : State) (cause : Byte) (alone : Bool) : State :=
  let s1 := { s with safe := { s.safe with causeNow := true, cause := if s.safe.cause = 0 then cause else s.safe.cause } }
  let s2 := record (soOff s1) .safety srcSafe (cFault cause.toNat) cause.toNat
  if inGroup s && alone then { s2 with grp := { s2.grp with outDue := true } } else s2

/-- The island state after a WARM restart: everything about speed and distance proven again, the latches kept (R393). -/
def Safe.warm (f : Safe) : Safe :=
  { f with
    ssvState := 0, agreeUs := 0, ssv := 0, ssvDir := 0, sls := 2, ssm := false, ssmUs := 0, ssmRun := false
    da := 0, dl := 0, sldRef := false, sld := 0, sdtCounters := [] }

/-- The island state after a COLD restart or a reset that clears the PIM (R393). -/
def Safe.cold (f : Safe) : Safe :=
  { f.warm with
    rollaway := false, cause := 0, causeNow := false, absentRun := 0, ackDue := none
    so := f.so.map (fun o => { o with faultHigh := false, faultLow := false, highRel := 0, okRel := 0 })
    si := f.si.map (fun p => { p with fault := false, disc := false, stuck := false, cross := false }) }

/-! ## Speed (R371 to R375) -/

/-- Whether the SI port meets an uncorrectable error in a word of the release image (R220). -/
def siBad (s : State) (ws : List Nat) : Bool := (badOf s.pim s.cyc.mcc).any (fun l => ws.contains (l / 4))

/-- A signal of the release image with its primary code; one whose words the SI port reports in error counts as INVALID (R220, R373). -/
def safeIn (s : State) (sid : Sid) : Option (Word × BitVec 4) :=
  if sid = 0 then none else (pubVal s.pim s.cyc.mcc sid).map (fun v =>
    (v.val, if siBad s (((sigRec s.ci.act sid).map sigWords).getD []) then qInvalid else qCode v.q))

/-- Codes with which a safe input counts (R376, R377, R381). -/
def usable (c : BitVec 4) : Bool := c == qGood || c == qSubst || c == qSinglePlane

/-- A BOOL input of the release image that is 1 with a usable code. -/
def safeBool (s : State) (sid : Sid) : Bool :=
  match safeIn s sid with
  | some (v, c) => isTrue v && usable c
  | none => false

/-- The PD_SUB records of an image in IOMAP order. -/
def pdSubs (g : ConfImage) : List IoRec := g.iomap.filter (fun r => r.kind == 3)

/-- The PD_PUB records of an image in IOMAP order. -/
def pdPubs (g : ConfImage) : List IoRec := g.iomap.filter (fun r => r.kind == 2)

/-- The first SID of a PD record. -/
def pdFirst : IoRec → Sid
  | .pdPub _ f .. => f
  | .pdSub _ f .. => f
  | _ => 0

/-- A DINT, big-endian, at an offset of a data set (R374). -/
def dintAt (l : List Byte) (off : Nat) : Int :=
  (BitVec.ofNat 32 (leNat ((l.drop off).take 4).reverse)).toInt

/-- Bit b of a data set, counted from the most significant bit of byte 0 (R288, R374). -/
def dataBit (l : List Byte) (b : Nat) : Bool := bit (nthD l (b / 8) 0) (7 - b % 8)

/-- The island's last counter of an SDT record (R394). -/
def sdtLast (s : State) (n : Nat) : Option Reg32 := (s.safe.sdtCounters.find? (fun x => x.1 == n)).map (·.2)

/-- Whether the island's repetition of the SDTv2 check fails on the copy in an SDT record's copy area: its safety code, its user data version, a
counter earlier than the last one that passed, or an uncorrectable error in its words (R220, R264, R371, R372, assumption 206). -/
def copyBad (s : State) (n : Nat) (d : SdtRec) (c : SafeCopy) : Bool :=
  !c.tr.codeOk || c.tr.udv.toNat != d.udv || ((sdtLast s n).map (fun q => before c.tr.ssc q)).getD false || siBad s (copyPimWords s.ci.act c)

/-- The SDT record of an enabled source with the copy in its copy area. -/
def sourceCopy (s : State) (x : SrcRec) : Option (SdtRec × SafeCopy) :=
  if !x.enabled then none
  else (s.ci.act.safety.sdt[x.subIndex]?).bind (fun d => (s.pim.copies.find? (fun c => c.index == d.iomapIndex)).map (fun c => (d, c)))

/-- The speed of source i where it is valid at this release: a copy accepted by the offload stands in its copy area and passes the repeated check,
the subscription's first SID is GOOD or SINGLE_PLANE, and its validity bit is 1 (R372). -/
def sourceSpeed (s : State) (x : SrcRec) : Option Int :=
  match sourceCopy s x with
  | none => none
  | some (d, c) => match (pdSubs s.ci.act)[d.iomapIndex]? with
    | none => none
    | some sub =>
      let ok := match safeIn s (pdFirst sub) with
        | some (_, q) => q == qGood || q == qSinglePlane
        | none => false
      if ok && !copyBad s x.subIndex d c && (x.validBit == 0xFFFF || dataBit c.data x.validBit) then some (dintAt c.data x.fieldOff) else none

/-- The enabled sources whose accepted copy fails the repetition of the SDTv2 check (R372). -/
def badSources (s : State) : List Nat :=
  ((List.range 8).zip s.ci.act.safety.sources).filterMap (fun (i, x) => match sourceCopy s x with
    | some (d, c) => if copyBad s x.subIndex d c then some i else none
    | none => none)

/-- The counters of the copies that pass the repeated check kept, one for each SDT record (R371, R394). -/
def keepCounters (s : State) : State :=
  s.ci.act.safety.sources.foldl (fun t x => match sourceCopy s x with
    | some (d, c) => if copyBad s x.subIndex d c then t
      else { t with safe := { t.safe with sdtCounters := (x.subIndex, c.tr.ssc) :: t.safe.sdtCounters.filter (fun y => y.1 != x.subIndex) } }
    | none => t) s

/-- The signals that FUNC_TASK reads, which the safety block names: a field of 0 names none (R376, R377, R379). -/
def funcReads (b : SafetyBlock) : List Sid := [b.slsSid, b.sdiDirSid, b.sdiAckSid, b.sldEnSid, b.sldRefSid].filter (· != 0)

/-- The words of the release image that FUNC_TASK reads through the SI port: its signals, the first SIDs and the copy areas of the enabled sources
(R371 to R379). -/
def islandWords (s : State) : List Nat :=
  let src := s.ci.act.safety.sources.filterMap (sourceCopy s)
  let first := src.filterMap (fun x => ((pdSubs s.ci.act)[x.1.iomapIndex]?).map pdFirst)
  (funcReads s.ci.act.safety ++ first).flatMap (fun sid => ((sigRec s.ci.act sid).map sigWords).getD []) ++ src.flatMap (fun x => copyPimWords s.ci.act x.2)

/-- The reads of a FUNC_TASK release: the waits of their banks, and what errors they meet in the release image (R220, R246). -/
def islandReads (s : State) : State := noteWait (pimMeet s (badOf s.pim s.cyc.mcc) (islandWords s)) false (islandWords s)

/-- A valid source: index, independence group, speed. -/
structure Src where
  idx : Nat
  indep : Nat
  v : Int
  deriving DecidableEq, Repr

/-- The valid sources of this release in index order. -/
def validSources (s : State) : List Src :=
  ((List.range 8).zip s.ci.act.safety.sources).filterMap (fun (i, x) => (sourceSpeed s x).map (fun v => ⟨i, x.indep, v⟩))

/-- Two sources agree (R374). -/
def srcAgree (b : SafetyBlock) (x y : Src) : Bool :=
  x.indep != y.indep &&
  decide ((x.v - y.v).natAbs ≤ max b.ssvTolAbs (b.ssvTolRel * max x.v.natAbs y.v.natAbs / 1000))

/-- The valid sources that agree with another. -/
def agreeing (b : SafetyBlock) (l : List Src) : List Src := l.filter (fun x => l.any (fun y => srcAgree b x y))

/-- The largest magnitude among sources. -/
def maxAbs (l : List Src) : Nat := (l.map (fun x => x.v.natAbs)).foldl max 0

/-- A set of source indices as bits. -/
def srcBits (l : List Src) : Byte := l.foldl (fun b x => setBit b x.idx) 0

/-- The period of FUNC_TASK in µs. -/
def funcPeriodUs (s : State) : Nat :=
  match taskRec s.ci.act s.ci.act.safety.funcTask with
  | some r => s.ci.act.time.tbaseUs * 2 ^ r.periodExp
  | none => 0

/-- SSV at a release (R375). -/
def evalSsv (b : SafetyBlock) (p : Nat) (l : List Src) (f : Safe) : Safe :=
  let ag := agreeing b l
  let f1 := { f with srcValid := srcBits l, srcAgree := srcBits ag }
  if ag.isEmpty then { f1 with ssvState := 0, agreeUs := 0, ssv := maxAbs l, ssvDir := 0 }
  else
    let t := f.agreeUs + p
    let pos := ag.all (fun x => decide ((b.sdiVdir : Int) ≤ x.v))
    let neg := ag.all (fun x => decide (x.v ≤ -(b.sdiVdir : Int)))
    { f1 with ssvState := if 2000000 ≤ t then 2 else 1, agreeUs := t, ssv := maxAbs ag
              ssvDir := if pos then 1 else if neg then -1 else 0 }

/-- The SLS limit L in 0.01 km/h (R376). -/
def slsLimit (s : State) : Nat :=
  let b := s.ci.act.safety
  if b.slsSid = 0 then 10 * b.slsMax
  else match safeIn s b.slsSid with
    | some (v, c) => if usable c then 10 * min b.slsMax v.toNat else 0
    | none => 0

/-- SLS at a release (R376). -/
def evalSls (b : SafetyBlock) (lim : Nat) (f : Safe) : Safe :=
  let proven := f.ssvState == 2
  let v : Int := f.ssv
  let l : Int := lim
  let r := if !proven || decide (l < v) then 2
    else if f.sls == 2 && decide (l - 10 * b.slsHyst < v) then 2
    else if v ≤ l - 10 * b.slsWarn then 0 else 1
  { f with sls := r, limit := lim }

/-- SSM at a release: the time counts from the first standing release (R378). -/
def evalSsm (b : SafetyBlock) (p : Nat) (l : List Src) (f : Safe) : Safe :=
  let still := !l.isEmpty && l.all (fun x => decide (x.v.natAbs ≤ b.ssmVmax))
  let t := if !still then 0 else if f.ssmRun then f.ssmUs + p else 0
  { f with ssmRun := still, ssmUs := t, ssm := still && f.ssvState == 2 && decide (b.ssmTimeMs * 1000 ≤ t) }

/-- Distance travelled in one period at v in 0.01 km/h, in µm, rounded up (R377, R379). -/
def travelUm (v p : Nat) : Nat := ceilDiv (v * p * 25) 9000

/-- SDI at a release (R377). -/
def evalSdi (b : SafetyBlock) (p : Nat) (l : List Src) (d : Int) (ack : Bool) (f : Safe) : Safe :=
  let a : Src → Nat := fun x =>
    if d = 0 ∨ x.v.natAbs < b.sdiVdir then x.v.natAbs else (max 0 (-(d * x.v))).toNat
  let with_ := !l.isEmpty && l.all (fun x => decide (d ≠ 0) && decide (b.sdiVdir ≤ x.v.natAbs) && decide (0 < d * x.v))
  let da := if d ≠ f.sdiD ∨ with_ then 0 else f.da + travelUm ((l.map a).foldl max 0) p
  let clear := ack && !f.ackPrev && f.ssm
  let da1 := if clear then 0 else da
  let roll := if clear then false else f.rollaway || decide (1000 * b.sdiDist < da) || l.isEmpty
  { f with da := da1, sdiD := d, ackPrev := ack, rollaway := roll }

/-- SLD at a release (R379). -/
def evalSld (b : SafetyBlock) (p : Nat) (l : List Src) (en ref : Bool) (f : Safe) : Safe :=
  let set := en && ref && !f.refPrev && f.ssm
  let has := en && (f.sldRef || set)
  let dl := if !has ∨ set then 0 else f.dl + travelUm (maxAbs l) p
  let r := if !en then 0 else if !has then 2
    else if set then 1
    else if f.sld == 3 || decide (100000 * b.sldMax < dl) || l.isEmpty then 3 else 1
  { f with sldRef := has, dl := dl, sld := r, refPrev := ref }

/-- The selected direction d (R377). -/
def selDir (s : State) : Int :=
  match safeIn s s.ci.act.safety.sdiDirSid with
  | some (v, c) =>
    let x : Int := (v.setWidth 8 : BitVec 8).toInt
    if usable c ∧ (x = 1 ∨ x = -1) then x else 0
  | none => 0

/-- The functions that FUNC_EN enables evaluated at a release of FUNC_TASK, SSM before SDI and SLD, which use its result
(R375 to R379). -/
def evalFunctions (s : State) : State :=
  let b := s.ci.act.safety
  let p := funcPeriodUs s
  let l := validSources s
  let on (i : Nat) : Bool := bit b.funcEn i
  let f0 := if on 0 then evalSsv b p l s.safe else s.safe
  let f1 := if on 1 then evalSls b (slsLimit s) f0 else f0
  let f2 := if on 3 then evalSsm b p l f1 else f1
  let f3 := if on 2 then evalSdi b p l (selDir s) (safeBool s b.sdiAckSid) f2 else f2
  let f4 := if on 4 then evalSld b p l (safeBool s b.sldEnSid) (safeBool s b.sldRefSid) f3 else f3
  { s with safe := f4 }

/-- The reactions in force: bits 0 and 1 the outputs, bit 2 the island safe state (R376, R377, R379). -/
def reactions (b : SafetyBlock) (f : Safe) : BitVec 3 :=
  (if bit b.funcEn 1 && f.sls == 2 then b.reactSls else 0) |||
  (if bit b.funcEn 2 && f.rollaway then b.reactSdi else 0) |||
  (if bit b.funcEn 4 && (f.sld == 2 || f.sld == 3) then b.reactSld else 0)

/-- The result SIDs with their values: SSV with its sign, SSV_STATE, SLS, SDI, SSM, SLD, each of a function that FUNC_EN
enables (R364, R375 to R379). -/
def results (s : State) : List (Sid × Word) :=
  let b := s.ci.act.safety
  let f := s.safe
  let ssv := BitVec.ofInt 64 (if f.ssvDir < 0 then -(f.ssv : Int) else f.ssv)
  let vals : List (Nat × Word) := [(0, ssv), (0, BitVec.ofNat 64 f.ssvState), (1, BitVec.ofNat 64 f.sls), (2, b2w f.rollaway),
    (3, b2w f.ssm), (4, BitVec.ofNat 64 f.sld)]
  (b.resultSids.zip vals).filterMap (fun (sid, i, v) => if bit b.funcEn i && sid != 0 then some (sid, v) else none)

/-- Whether a SAFE signal is forced: SAFE_STATUS.FORCED_SAFE (R373). -/
def forcedSafe (s : State) : Bool :=
  s.glb.forces.any (fun f => match sigRec s.ci.act f.sid with
    | some r => r.safe
    | none => false)

/-- The causes whose condition stands at a release of FUNC_TASK: a safe output whose readback is wrong, a parameter copy that
differs, a reaction with bit 2 (R388). -/
def causeStands (s : State) : Bool :=
  s.safe.so.any (fun o => o.faultHigh && o.badNow) || s.safe.paramCopy != s.ci.act.safety || bit (reactions s.ci.act.safety s.safe) 2

/-- An accepted SAFE_ACK takes effect at a release: the safe state and the fault latches end, or stay when the cause has
returned (R389). Whether it did is the second component. -/
def ackEffect (s : State) : State × Bool :=
  if 2 ≤ s.safe.absentRun then
    ({ s with safe := { s.safe with
        cause := 0, ackDue := none
        so := s.safe.so.map (fun o =>
          { o with faultLow := false, faultHigh := o.faultHigh && decide (o.okRel < 2)
                   highRel := if o.faultHigh && decide (o.okRel < 2) then o.highRel else 0 }) } }, true)
  else (record { s with safe := { s.safe with ackDue := none } } .safety srcSafe (cRefused .refusedPolicy), false)

/-- The records of a release at which SSV is no longer supported by an agreeing pair (R399). -/
def ssvRecord (s : State) (old : Safe) : State :=
  if bit s.ci.act.safety.funcEn 0 && old.ssvState != 0 && s.safe.ssvState == 0 then record s .safety srcSafe (cChange 0) else s

/-- The island's work at a release of FUNC_TASK: the parameter copy checked, the coded state of a task whose check failed
taken anew, a SAFETY record for each copy whose repeated check fails, the functions evaluated, causes and reactions judged (R366, R370, R375 to R379, R388). -/
def releaseFunc (s : State) : State :=
  let b := s.ci.act.safety
  let s0 := if s.safe.codeFailed.contains b.funcTask then
      { s with safe := { s.safe.warm with codeFailed := s.safe.codeFailed.filter (· != b.funcTask) } } else s
  let ev := ssvRecord (evalFunctions s0) s0.safe
  let s1 := islandReads ((badSources s0).foldl (fun s i => record s .safety srcSafe (cFault 0) i)
    { ev with safe := { ev.safe with sdtCounters := (keepCounters s0).safe.sdtCounters } })
  let s2 := if s1.safe.paramCopy ≠ b then enterIsland s1 0x06 true else s1
  let s3 := if bit (reactions b s2.safe) 2 && s2.safe.cause == 0 then enterIsland s2 0x07 true else s2
  let present := s3.safe.causeNow || causeStands s3
  { s3 with safe := { s3.safe with
      causeNow := false
      absentRun := if present then 0 else s3.safe.absentRun + 1
      so := s3.safe.so.map (fun o => { o with
        okRel := if o.badNow then 0 else o.okRel + 1
        highRel := if o.faultHigh then o.highRel + 1 else 0 }) } }

/-! ## Safe outputs (R381) -/

/-- The SID that demands a channel (R76, R381). -/
def demandSid (g : ConfImage) (n : Nat) : Option Sid :=
  g.iomap.findSome? (fun r => match r with
    | .safeIo c sid => if c = n then some sid else none
    | _ => none)

/-- The command of output n, given the demand's value and code (R381). -/
def soCommand (s : State) (n : Nat) (demand : Option (Word × BitVec 4)) : Bool :=
  let b := s.ci.act.safety
  let o := nthD s.safe.so n {}
  (match demand with
   | some (v, c) => isTrue v && usable c
   | none => false) &&
  !bit (reactions b s.safe) n &&
  (!bit b.permitSsm n || s.safe.ssm) &&
  s.safe.cause == 0 && !o.faultHigh && !o.faultLow &&
  (s.glb.state == .run || s.glb.state == .hold)

/-- The demand of output n as the image of boundary k carries it, a force applied (R373, R381). -/
def demandAt (s : State) (k : Mcc) (n : Nat) : Option (Word × BitVec 4) :=
  match demandSid s.ci.act n with
  | none => none
  | some sid => match sigRec s.ci.act sid with
    | none => none
    | some r =>
      let v := settleSig s k r ((dynOf s.pim sid).getD (freshDyn r))
      some (v.val, qCode v.q)

/-- The demand of output n as the next commit will carry it: the newest staged value, else the image's (R381, for a vote). -/
def demandStaged (s : State) (n : Nat) : Option (Word × BitVec 4) :=
  match demandSid s.ci.act n with
  | none => none
  | some sid => match forceOf s sid, (s.pim.staging.filter (fun e => e.sid == sid)).getLast? with
    | some f, _ => some (f.val, f.code)
    | none, some e => some (e.val, e.code)
    | none, none => demandAt s s.cyc.mcc n

/-- The commands of both outputs committed: they launch 100 µs after the boundary (R168, R381). -/
def commitSo (s : State) (c0 c1 : Bool) : State := { s with cyc := { s.cyc with soLaunch := some (c0, c1) } }

end Sys2Proof.Machine
end

