-- ==== Sys2Proof/Machine/TkOps.lean ====
section
/-! DEFINITION. Machine/TkOps.lean: sessions, roles and the answering of trusted kernel calls (16_trust_and_boot, R407 to
R413). -/

namespace Sys2Proof.Machine

/-! ## Sessions -/

/-- The session of a handle; handle 0 names none (R410, R412). -/
def sessionOf (s : State) (h : BitVec 16) : Option Session :=
  if h = 0 then none else s.tk.sessions.find? (fun x => x.handle == h)

/-- The operating time in ns: OPTIME's 0.1 s and the part of the running one (R10). -/
def opTimeNs (s : State) : Nat := s.cul.optime.toNat * 100000000 + s.cul.opNs

/-- The ns until a session's validity ends: NOT_AFTER once TIME_VALID is set, the bound of operating time for one opened without
it (R410). -/
def sessionLeft (s : State) (x : Session) : Option Nat :=
  let a := if s.tb.valid then some (x.notAfter - s.tb.ttc).toInt.toNat else none
  let b := x.opEnd.map (fun e => e - opTimeNs s)
  match a, b with
  | some a, some b => some (min a b)
  | some a, none => some a
  | none, b => b

/-- The role a handle gives while its session is valid (R410). -/
def roleOf (s : State) (h : BitVec 16) : Role :=
  match sessionOf s h with
  | some x => if sessionLeft s x = some 0 then .none else x.role
  | none => .none

/-- The TOKEN_ID of a handle. -/
def tokenOf (s : State) (h : BitVec 16) : Word :=
  match sessionOf s h with
  | some x => x.tokenId
  | none => 0

/-- The KEY_ID of a handle. -/
def keyOf (s : State) (h : BitVec 16) : BitVec 128 :=
  match sessionOf s h with
  | some x => x.keyId
  | none => 0

/-- MAINT disabled: the port goes down with its PHY (R269). -/
def maintOff (s : State) : State :=
  { s with
    eth := { s.eth with ports := modNth s.eth.ports 2 (fun p => { p with enable := false, up := false, speed := 0 }) }
    pgv := { s.pgv with portPowered := clrBit s.pgv.portPowered 2 }
    tk := { s.tk with maintBy := none } }

/-- A session ends; MAINT is disabled when it enabled it; a call of it in progress runs on, with a NOTICE record (R269, R410,
R419). -/
def endSession (s : State) (h : BitVec 16) : State :=
  let s1 := { s with tk := { s.tk with sessions := s.tk.sessions.filter (fun x => x.handle != h) } }
  let s2 := if s.tk.maintBy = some h then maintOff s1 else s1
  match s.tk.slots.find? (fun x => x.busy && x.session == h) with
  | some x => record s2 .notice srcTkmb (cChange 0) x.call.toNat (beBytes 8 (tokenOf s h).toNat)
  | none => s2

/-- All sessions end (R410). -/
def endSessions (s : State) : State := s.tk.sessions.foldl (fun s x => endSession s x.handle) s

/-! ## Calls -/

/-- A call slot changed. -/
def modSlot (s : State) (n : Nat) (f : CallSlot → CallSlot) : State :=
  { s with tk := { s.tk with slots := modNth s.tk.slots n f } }

/-- The response written into the request buffer (R412). -/
def respBytes (st : Status) (seq : Reg32) (data : List Byte) : List Byte :=
  [st.code, 0, 0, 0] ++ leBytes 4 seq.toNat ++ leBytes 4 data.length ++ List.replicate 20 0 ++ data

/-- A call answered: the buffer, STATUS and DONE, the slot's interrupt; DEFERRED is an interim answer, after which the call
stays in progress (R411). -/
def answer (s : State) (n : Nat) (st : Status) (data : List Byte) : State :=
  let x := nthD s.tk.slots n {}
  let s1 := modSlot s n (fun x => { x with status := st.code, done := true, interim := st == .deferred, busy := st == .deferred })
  let s2 := dramWrite s1 x.addr (respBytes st x.seq data)
  { s2 with out := .irqCall n :: s2.out }

/-- What a call's own rule gives: state, status and response data. -/
abbrev CallRes := State × Status × List Byte

/-- A trusted kernel call: a cluster held in reset makes none; a GO on a busy slot is ignored and sets OVERRUN; a caller without a session of
the required role completes AUTH_REQUIRED and counts in AUTH_FAIL (R411, R413, R415, R420). -/
def callOn (s : State) (c : CallReq) (call : Nat) (need : Role) (k : State → CallRes) : State :=
  let x := nthD s.tk.slots c.slot {}
  if s.rst.clusterHeld then s
  else if x.busy then modSlot s c.slot (fun x => { x with overrun := true })
  else
    let s1 := modSlot s c.slot (fun x => { x with call := BitVec.ofNat 16 call, seq := c.seq, session := c.session, interim := false, frame := none })
    let r : CallRes := if (roleOf s1 c.session).rank < need.rank then (s1, .authRequired, []) else k s1
    let s2 := if r.2.1 = .authRequired then { r.1 with tk := { r.1.tk with authFail := satInc r.1.tk.authFail } } else r.1
    answer s2 c.slot r.2.1 (r.2.2.take c.respMax)

/-- The calls of a code that were answered DEFERRED completed with their final status (R411). -/
def finishCalls (s : State) (call : Nat) (st : Status) : State :=
  (List.range 8).foldl (fun s n =>
    let x := nthD s.tk.slots n {}
    if x.busy && x.call == BitVec.ofNat 16 call then answer s n st [] else s) s

/-- A COMMAND record of a call with the token that gave it (R471). -/
def commandRec (s : State) (sev : Sev) (src : BitVec 12) (call subject : Nat) (h : BitVec 16) : State :=
  record s sev src (cCommand call) subject (beBytes 8 (tokenOf s h).toNat)

/-! ## Two-copy writes of what the trusted kernel keeps (R458, R459) -/

/-- The boot-control record written (R424, R459). -/
def writeBoot (s : State) (b : List BootEnt) : State :=
  { s with cul := { s.cul with boot := b, bootctl := s.cul.bootctl.write b } }

/-- The counters record changed and written (R458). -/
def writeCounters (s : State) (f : Counters → Counters) : State :=
  let c := f { s.cul.cur with optime := s.cul.optime, pwrCycles := s.cul.pwrCycles, lastTime := s.tb.ttc }
  let c1 := { c with seq := c.seq + 1 }
  { s with cul := { s.cul with cur := c1, counters := s.cul.counters.write c1 } }

/-- The bits of a C field's Cullet value replaced: each bit names itself written (R414, R458). -/
def cfieldPut (l : List CField) (addr mask value : Reg32) : List CField :=
  if l.any (fun c => c.addr == addr) then
    l.map (fun c => if c.addr = addr then
      { c with written := c.written ||| mask, value := (c.value &&& ~~~mask) ||| (value &&& mask) } else c)
  else l ++ [⟨addr, mask, value &&& mask⟩]

/-- A C field's Cullet value written (R414). -/
def cfieldWrite (s : State) (addr mask value : Reg32) : State :=
  let l := cfieldPut s.cul.cfields addr mask value
  { s with cul := { s.cul with cfields := l, cstore := s.cul.cstore.write l } }

end Sys2Proof.Machine
end

