-- ==== Sys2Proof/Machine/EvrOps.lean ====
section
/-! DEFINITION. Machine/EvrOps.lean: the event recorder's store, flushes, clears and reads (19_event_recorder, R465, R472 to
R479). -/

namespace Sys2Proof.Machine

/-! ## The bytes of a record (R465, R468, R469) -/

/-- One bit step of CRC-32C, reflected. -/
def crcBit (c : Reg32) : Reg32 := if bit c 0 then (c >>> 1) ^^^ 0x82F63B78 else c >>> 1

/-- One byte of CRC-32C. -/
def crcByte (c : Reg32) (b : Byte) : Reg32 :=
  crcBit (crcBit (crcBit (crcBit (crcBit (crcBit (crcBit (crcBit (c ^^^ b.setWidth 32))))))))

/-- CRC-32C of a byte string. -/
def crc32c (l : List Byte) : Reg32 := ~~~(l.foldl crcByte 0xFFFFFFFF)

/-- Bytes brought to a length with zero bytes. -/
def padTo (n : Nat) (l : List Byte) : List Byte := (l ++ List.replicate n 0).take n

/-- FLAGS of a record (R465). -/
def Rec.flags (r : Rec) : Byte :=
  (if r.sinceInvalid then 1 else 0) ||| (if r.bootRom then 2 else 0) ||| (if r.deferredTime then 4 else 0)

/-- The 60 bytes before the CRC, big-endian. -/
def Rec.head (r : Rec) : List Byte :=
  beBytes 4 r.seq.toNat ++ beBytes 5 r.optime.toNat ++ [r.flags] ++ beBytes 2 (r.sev.num * 8192 + r.src.toNat * 2) ++
  beBytes 4 r.pwr.toNat ++ beBytes 8 r.ttc.toNat ++ beBytes 2 r.code.toNat ++ beBytes 2 r.gen.toNat ++
  beBytes 4 r.mcc.toNat ++ beBytes 4 r.subject.toNat ++ padTo 16 r.detail ++ beBytes 4 r.sinceLast.toNat ++ beBytes 4 r.suppressed.toNat

/-- The 64 bytes of a record (R465). -/
def Rec.bytes (r : Rec) : List Byte := r.head ++ beBytes 4 (crc32c r.head).toNat

/-- Bytes as 32-bit words, the first byte in bits 31 to 24 (R479). -/
def beWords : Nat → List Byte → List Reg32
  | 0, _ => []
  | n + 1, l => BitVec.ofNat 32 (leNat (l.take 4).reverse) :: beWords n (l.drop 4)

/-! ## The store (R474) -/

/-- The lowest slot from `n` on that a list in slot order does not hold. -/
def freeSlot (n : Nat) : List StoreSlot → Nat
  | [] => n
  | x :: xs => if x.slot = n then freeSlot (n + 1) xs else n

/-- A slot put into the store, in slot order, in place of what it held. -/
def putSlot (x : StoreSlot) : List StoreSlot → List StoreSlot
  | [] => [x]
  | y :: ys => if x.slot < y.slot then x :: y :: ys else if x.slot = y.slot then x :: ys else y :: putSlot x ys

/-- The slots that hold a record. -/
def goodSlots (l : List StoreSlot) : List StoreSlot := l.filter (fun x => !x.bad)

/-- The one of lowest SEQ, by signed difference (R9). -/
def lowestSeq : List StoreSlot → Option StoreSlot
  | [] => none
  | x :: xs => match lowestSeq xs with
    | none => some x
    | some y => some (if before y.r.seq x.r.seq then y else x)

/-- Whether a record is a CLEAR (R476). -/
def isClear (r : Rec) : Bool := r.src == srcEvr && r.code == cRecorder 1

/-- Whether fewer than 64 CLEAR records of the store have a higher SEQ. -/
def amongClears (l : List StoreSlot) (q : Reg32) : Bool :=
  decide ((l.filter (fun x => isClear x.r && before q x.r.seq)).length < 64)

/-- The 64 CLEAR records of highest SEQ pinned (R476). -/
def pinClears (l : List StoreSlot) : List StoreSlot :=
  l.map (fun x => { x with pinned := isClear x.r && !x.bad && amongClears l x.r.seq })

/-- A record copied to the store: the lowest empty slot, else the slot of lowest SEQ among those of equal or lower severity that
are not pinned, else nowhere, counted by severity (R474). A bad slot counts as empty. -/
def Evr.put (e : Evr) (r : Rec) : Evr :=
  let l := goodSlots e.store
  if l.length < 49152 then { e with store := pinClears (putSlot { slot := freeSlot 0 l, r } l) }
  else match lowestSeq (l.filter (fun x => !x.pinned && decide (x.r.sev.num ≤ r.sev.num))) with
    | some y => { e with store := pinClears (putSlot { slot := y.slot, r } l) }
    | none => { e with drops := modNth e.drops r.sev.num satInc, dropChanged := true }

/-- The oldest pending record copied to the store (R473). -/
def Evr.copyOne (e : Evr) : Evr :=
  match e.pending with
  | [] => e
  | q :: qs =>
    let e1 := { e with pending := qs }
    match e.ring.find? (fun r => r.seq == q) with
    | some r => e1.put r
    | none => e1

/-- Records copied to the store, at most n. -/
def Evr.copyMany (e : Evr) : Nat → Evr
  | 0 => e
  | n + 1 => if e.pending.isEmpty then e else e.copyOne.copyMany n

/-- The DROP_SUMMARY record of the first flush after a drop counter has changed (R474). -/
def dropSummary (s : State) : State :=
  if s.evr.dropChanged then
    record { s with evr := { s.evr with dropChanged := false } } .notice srcEvr (cRecorder 2) 0
      ((s.evr.drops.drop 1).flatMap (fun d => beBytes 2 d.toNat))
  else s

/-! ## Clear (R476) -/

/-- Whether a record goes with a clear up to a severity. -/
def clears (sev : Nat) (r : Rec) : Bool := decide (r.sev.num ≤ sev)

/-- A clear up to a severity under a token: the records removed, counters zero, the next generation, a pinned CLEAR record in the
store. -/
def clearEvr (s : State) (sev : Nat) (token : Word) : State :=
  let e := s.evr
  let gone := ((e.store.filter (fun x => clears sev x.r && !x.pinned && !x.bad)).map (·.r.seq) ++
    (e.ring.filter (clears sev)).map (·.seq)).eraseDups
  let e1 := { e with
    store := e.store.filter (fun x => !clears sev x.r || x.pinned || x.bad)
    ring := e.ring.filter (fun r => !clears sev r)
    pending := e.pending.filter (fun q => decide (sev < sevOf e.ring q))
    drops := List.replicate 8 0, notStored := 0, gen := e.gen + 1 }
  let s1 := record { s with evr := e1 } .security srcEvr (cRecorder 1) sev (beBytes 8 token.toNat ++ beBytes 4 gone.length)
  match s1.evr.ring with
  | r :: _ => { s1 with evr := { s1.evr.put r with pending := s1.evr.pending.filter (· != r.seq) } }
  | [] => s1

/-- A flush done: the drop summary and every pending record in the store; the clears that waited take effect and their calls complete; the
counters record is written with it (R458, R473, R476). -/
def flushDone (s : State) : State :=
  let s1 := writeCounters (dropSummary s) id
  let s2 := { s1 with evr := { (s1.evr.copyMany 513) with flushing := false } }
  match s2.evr.clearWait with
  | [] => s2
  | l => finishCalls (l.foldl (fun s x => clearEvr s x.1 x.2) { s2 with evr := { s2.evr with clearWait := [] } }) 0x70 .ok

/-! ## Boot (R478) -/

/-- The later of two SEQ by signed difference. -/
def seqMax (a b : Reg32) : Reg32 := if before a b then b else a

/-- Generation and next SEQ as the store gives them, before any record of a boot (R465, R474). -/
def storeRebuild (s : State) : State :=
  let e := s.evr
  let top := (goodSlots e.store).foldl (fun (o : Option Rec) x => match o with
    | none => some x.r
    | some r => some (if before r.seq x.r.seq then x.r else r)) none
  match top with
  | some r => { s with evr := { e with nextSeq := seqNext r.seq, newest := r.seq, gen := r.gen } }
  | none => s

/-- The store scanned at boot, with a STORE_SCAN record (R474, R478). -/
def storeScan (s : State) : State :=
  let good := goodSlots s.evr.store
  let bad := s.evr.store.length - good.length
  record { s with evr := { s.evr with store := pinClears good, bad := BitVec.ofNat 8 (min bad 255) } } .info srcEvr (cRecorder 3) 0
    (beBytes 4 good.length ++ beBytes 4 bad)

/-! ## Reads (R475) -/

/-- A record at or after a SEQ kept when it is the earliest found. -/
def earlier (q : Reg32) (o : Option (Rec × Bool)) (x : Rec × Bool) : Option (Rec × Bool) :=
  if before x.1.seq q then o
  else match o with
    | none => some x
    | some y => if before x.1.seq y.1.seq then some x else some y

/-- The record of lowest SEQ not earlier than q, and whether it is the ring's. -/
def findRec (e : Evr) (q : Reg32) : Option (Rec × Bool) :=
  ((goodSlots e.store).map (fun x => (x.r, false))).foldl (earlier q) ((e.ring.map (fun r => (r, true))).foldl (earlier q) none)

/-- EVR_READ_REQUEST: a core writes EVR_RDn_REQ. -/
def execEvrReadRequest (core : Fin 8) (q : Reg32) (s : State) : Host.Outcome State Fault Refusal :=
  .next (coreAccess s core (.evrReadRequest core q) (fun s => { s with evr := { s.evr with ctx := modNth s.evr.ctx core.val (fun c =>
    { c with req := q, valid := false, none := false, skipped := false, busy := true }) } }))

/-- A copy into a read context: VALID comes with the whole record; NONE when there is none at or after the SEQ asked for. -/
def readCtx (s : State) (c : ReadCtx) : ReadCtx :=
  match findRec s.evr c.req with
  | none => { c with busy := false, valid := true, none := true, skipped := false, gen := s.evr.gen }
  | some (r, ring) => { c with
      busy := false, valid := true, none := false, skipped := r.seq != c.req, ring, gen := s.evr.gen
      words := beWords 16 r.bytes }

/-- EVR_READ_COMPLETE, within 2 µs. -/
def execEvrReadComplete (core : Fin 8) (s : State) : Host.Outcome State Fault Refusal :=
  .next (if (nthD s.evr.ctx core.val {}).busy then { s with evr := { s.evr with ctx := modNth s.evr.ctx core.val (readCtx s) } } else s)

/-- BACKGROUND_COPY of the oldest pending record (R473). -/
def execBackgroundCopy (s : State) : Host.Outcome State Fault Refusal :=
  .next (if s.evr.flushing then s else { s with evr := s.evr.copyOne })

/-- EVR_CLEAR of MAX_SEV (R476). -/
def execEvrClear (c : CallReq) (sev : Nat) (s : State) : Host.Outcome State Fault Refusal :=
  .next (callOn s c 0x70 (if 6 ≤ sev ∧ sev ≤ 7 then .safetyEngineer else .maintainer) (fun s =>
    if sev = 0 ∨ 7 < sev ∨ ¬(s.glb.state = .stop ∨ s.glb.state = .run ∨ s.glb.state = .hold) then (s, .refusedPolicy, [])
    else if s.evr.flushing then ({ s with evr := { s.evr with clearWait := s.evr.clearWait ++ [(sev, tokenOf s c.session)] } }, .deferred, [])
    else (clearEvr s sev (tokenOf s c.session), .ok, [])))

end Sys2Proof.Machine
end

