-- ==== Sys2Proof/Machine/GroupOps.lean ====
section
/-! DEFINITION. Machine/GroupOps.lean: the group links, roles, failure and takeover, formation and return (14_replica_group,
R323 to R333, R341 to R356). -/

namespace Sys2Proof.Machine

/-! ## Positions and links (R323, R325 to R328, R499) -/

/-- Own position as the latched strap gives it: exactly one of the three bits tied; 0 none (R34). -/
def ownPos (s : State) : Nat :=
  match s.pin.latched with
  | some x => if x.gpos = 1 then 1 else if x.gpos = 2 then 2 else if x.gpos = 4 then 3 else 0
  | none => 0

/-- Own rack identity (R34). -/
def ownRack (s : State) : BitVec 6 :=
  match s.pin.latched with
  | some x => x.rack
  | none => 0

/-- How many bits of a word are 1. -/
def ones (x : BitVec w) : Nat := ((List.range w).filter (fun i => x.getLsbD i)).length

/-- Whether the module's straps let it join the group of its image: a valid position, odd rack parity, the rack identity of
the GROUP section (R14, R34). -/
def joinable (s : State) : Bool :=
  match s.pin.latched with
  | some x => ownPos s != 0 && (ones x.rack + if x.par then 1 else 0) % 2 == 1 && x.rack.toNat == s.ci.act.group.rackId
  | none => false

/-- The position at the far end of a link: p + 1 over GL-R, p - 1 over GL-L, modulo 3 (R323). -/
def posOver (p : Nat) : GLink → Nat
  | .right => p % 3 + 1
  | .left => (p + 1) % 3 + 1

/-- The link that leads directly to a position. -/
def linkTo (own pos : Nat) : GLink := if posOver own .right = pos then .right else .left

/-- The position over a link of this module. -/
def peerPos (s : State) (l : GLink) : Nat := posOver (ownPos s) l

/-- Whether frames pass on a link (R325, R499). -/
def linkOk (s : State) (l : GLink) : Bool := inGroup s && (s.grp.br l).up && !(s.grp.br l).wrong

/-- The state with the bridge of a link changed. -/
def modBr (s : State) (l : GLink) (f : Bridge → Bridge) : State := { s with grp := s.grp.modBr l f }

/-- The state with what is known of the peer over a link changed. -/
def modPeer (s : State) (l : GLink) (f : Peer → Peer) : State := { s with grp := s.grp.modPeer l f }

/-- The receive buffers of a VC (R328). -/
def vcBufs : Nat → Nat
  | 0 => 8 | _ => 32

/-- Credits held for a VC: buffers less the frames sent and not yet freed (R328, GLx_CREDIT). -/
def credits (b : Bridge) (vc : Nat) : Nat := vcBufs vc - (nthD b.txSeq vc 0 - nthD b.farFreed vc 0).toNat

/-- The bytes of a delta entry in a frame (R334). -/
def DeltaEnt.size : DeltaEnt → Nat
  | .word _ same _ _ => if same then 4 else 36
  | .bell .. => 8 | .mask .. => 8 | .mark .. => 4 | .topo .. => 0 | .restart .. => 0

/-- The size of a list of entries. -/
def deltaSize (l : List DeltaEnt) : Nat := (l.map DeltaEnt.size).sum

/-- The bytes that a part of the transfer set takes, whose form the manual leaves open (R349, assumption 198). -/
def XferPart.size : XferPart → Nat
  | .counts .. => 16
  | .forces l => 16 * l.length
  | .image l => 32 * l.length
  | .values l => 16 * l.length
  | .events l => (l.map (fun x => 8 + 24 * x.2.length)).sum
  | .targets l => 32 * l.length
  | .island i => 96 + i.discUs.length * 4
  | .counters l => 8 * l.length

/-- LEN of a frame's payload in whole 8-byte words (R325, R327). A force change of several SIDs is one TARGET (assumption 198). -/
def GlBody.len : GlBody → Nat
  | .hb .. => 96 | .hbRelay .. => 96 | .order .. => 16 | .ack .. => 8 | .target .. => 32
  | .propose .. => 56 | .accept .. => 56 | .commit .. => 56 | .abort .. => 48
  | .delta es => 8 * ceilDiv (deltaSize es) 8 | .deltaEnd .. => 8 | .vote es => 8 + 16 * es.length | .mirror es => 8 * ceilDiv (deltaSize es) 8
  | .rdReq .. => 16 | .wrReq _ _ _ d => 16 + d.length | .semAcq .. => 16 | .semRel .. => 8 | .doorbell .. => 8 | .xferReq .. => 8
  | .rdRsp _ d => 8 + d.length | .wrRsp .. => 8 | .semRsp .. => 8 | .retry => 8 | .xferData _ p => 8 + p.size | .credit => 0

/-- A list cut into pieces of n elements, none of it left out. -/
def pieces (n : Nat) (l : List α) : List (List α) := (List.range (ceilDiv l.length n)).map (fun i => (l.drop (n * i)).take n)

/-- A frame put on the line: its LEN, and VSEQ and CRED as they are at the moment (R326, R328). -/
def emitFrame (s : State) (l : GLink) (vc : Nat) (f : GlFrame) : State :=
  let b := s.grp.br l
  let g : GlFrame := { f with hdr := { f.hdr with len := f.body.len, vseq := nthD b.txSeq vc 0, cred := b.freed } }
  let s1 := modBr (pmuCount s 12 0x300 1) l (fun b => { b with txSeq := modNth b.txSeq vc (· + 1), txFrames := b.txFrames + 1 })
  { s1 with out := .gl l g :: s1.out }

/-- The frames of one VC sent in order while credits last; the rest wait (R328). -/
def pumpVc (l : GLink) (vc : Nat) : List GlFrame → State → State
  | [], s => modBr s l (fun b => { b with queues := setNth b.queues vc [] })
  | f :: fs, s =>
    if 0 < credits (s.grp.br l) vc then pumpVc l vc fs (emitFrame s l vc f)
    else modBr s l (fun b => { b with queues := setNth b.queues vc (f :: fs) })

/-- The waiting frames of a link sent in strict priority VC0, VC1, VC3, VC2 (R328). -/
def pump (s : State) (l : GLink) : State :=
  [0, 1, 3, 2].foldl (fun s vc => pumpVc l vc (nthD (s.grp.br l).queues vc []) s) s

/-- A frame given to a link that is up; on a link that is down it is not sent (R325). -/
def putFrame (s : State) (l : GLink) (f : GlFrame) : State :=
  if linkOk s l then
    pump (modBr s l (fun b => { b with queues := modNth b.queues f.body.vc (· ++ [f]) })) l
  else s

/-- Whether a frame begins an exchange of its own, which takes a tag of class GROUP (R222): no answer and no credit. -/
def GlBody.begins (b : GlBody) : Bool := decide (b.type < 0x30) && b.type != 0x04

/-- A frame of this module to a position over a link, under the tag given, or one that its exchange takes and frees at once with TAG zero (R222,
R326, assumption 183). -/
def glSend (s : State) (l : GLink) (dst : Nat) (b : GlBody) (tag : BitVec 18 := 0) : State :=
  putFrame (if tag = 0 && b.begins then passTag s else s) l { hdr := { src := ownPos s, dst, epoch := s.cul.cur.epoch, tag, mcc := s.cyc.mcc }, body := b }

/-- A frame to a position on its direct path, or on the relayed one while the direct link is down (R323, R358). -/
def sendPeer (s : State) (pos : Nat) (b : GlBody) : State :=
  let l := linkTo (ownPos s) pos
  glSend s (if linkOk s l then l else l.other) pos b

/-- VSEQ of the next frame given to a VC of a bridge (R326). -/
def Bridge.nextSeq (b : Bridge) (vc : Nat) : Byte := nthD b.txSeq vc 0 + BitVec.ofNat 8 (nthD b.queues vc []).length

/-- The ID that the next frame of this module to a position bears in its header (R326). -/
def nextFrameId (s : State) (pos vc : Nat) : Reg32 :=
  let l := linkTo (ownPos s) pos
  GlHdr.id { epoch := s.cul.cur.epoch, vseq := (s.grp.br (if linkOk s l then l else l.other)).nextSeq vc }

/-- A frame for another position forwarded on the other link with RELAYED set. The ID that it bears there is noted, and an acknowledgement that
names such an ID goes back under the one by which the frame came, which its sender knows (R323, R327, R358, assumption 199). -/
def relay (s : State) (l : GLink) (h : GlHdr) (b : GlBody) : State :=
  let given := GlHdr.id { h with vseq := (s.grp.br l.other).nextSeq b.vc }
  let b1 : GlBody := match b with
    | .ack t id st => .ack t ((s.grp.hopIds.find? (fun x => x.given == id)).elim id HopId.came) st
    | b => b
  let s1 := match b with
    | .ack .. => s
    | _ => { s with grp := { s.grp with hopIds := (⟨given, h.id⟩ :: s.grp.hopIds).take 16 } }
  putFrame s1 l.other { hdr := { h with relayed := true }, body := b1 }

/-- A frame to both other positions, each on one path. -/
def sendPeers (s : State) (b : GlBody) : State := sendPeer (sendPeer s (peerPos s .left) b) (peerPos s .right) b

/-- A frame to both other positions on every path that is up (R94, R344). -/
def sendEvery (s : State) (b : GlBody) : State :=
  [GLink.left, .right].foldl (fun s l => glSend (glSend s l (peerPos s l) b) l (peerPos s l.other) b) s

/-- A link that goes down: no reset of the bridge; counted, with a WARNING record (R325, R358). -/
def linkDown (s : State) (l : GLink) : State :=
  record (rxClk (modBr s l (fun b => { b with up := false, downCnt := satInc b.downCnt, crcRun := 0 })) (l.port.num - 3) false) .warning l.port.src (cFault 0) l.port.num

/-- A frame that fails its CRC: discarded and counted; more than 16 in one minor cycle take the link down (R325, R328). -/
def crcError (s : State) (l : GLink) : State :=
  let s1 := modBr s l (fun b => { b with crc := satInc b.crc, crcRun := b.crcRun + 1 })
  if 16 < (s1.grp.br l).crcRun then linkDown s1 l else s1

/-- A frame received: its credits taken, its buffer freed; one of a TYPE not listed discarded and counted, frames of VC0 and VC1 for another position
forwarded, all others handled by `k` (R323, R327, R328, R358). -/
def glRecv (s : State) (l : GLink) (h : GlHdr) (b : GlBody) (k : State → State) : State :=
  if !linkOk s l then s
  else if !h.crcOk then crcError s l
  else
    let s1 := modBr (pmuCount s 12 0x301 1) l (fun x => { x with rxFrames := x.rxFrames + 1, farFreed := h.cred, freed := setNth x.freed b.vc (h.vseq + 1) })
    let s2 := pump s1 l
    if !h.listed then modBr s2 l (fun x => { x with block := satInc x.block })
    else if b.vc ≤ 1 && h.dst != 0 && h.dst != ownPos s then relay s2 l h b
    else k s2

/-- The acknowledgement of a control frame to its sender (R327). -/
def ackFrame (s : State) (h : GlHdr) (b : GlBody) (st : Status) : State := sendPeer s h.src (.ack b.type h.id st)

/-! ## Roles (R341, R342) -/

/-- The role of a position. -/
def roleAt (roles : List GRole) (p : Nat) : GRole := if p = 0 then .none else nthD roles (p - 1) .none

/-- The positions of the voting members. -/
def voters (roles : List GRole) : List Nat := [1, 2, 3].filter (fun p => (roleAt roles p).voting)

/-- The permutation P_n of a ROT_SEQ (R342). -/
def permutation (seq : Reg32) : List Nat :=
  match seq.toNat % 3 with
  | 0 => [1, 2, 3] | 1 => [2, 3, 1] | _ => [3, 1, 2]

/-- The roles that the present members take in the order of the permutation; a marked position does not count as present;
a voting member no longer present is OUT (R342). -/
def assignRoles (seq : Reg32) (latent : BitVec 3) (present : List Nat) (old : List GRole) : List GRole :=
  let ord := (permutation seq).filter (fun p => present.contains p && !bit latent (p - 1))
  [1, 2, 3].map (fun p =>
    if ord[0]? = some p then .active else if ord[1]? = some p then .standby else if ord[2]? = some p then .arbiter
    else if (roleAt old p).voting || present.contains p then .out else roleAt old p)

/-- The group state with these roles; MAINTENANCE stays while three vote (R341). -/
def groupState (old : GState) (roles : List GRole) : GState :=
  match (voters roles).length with
  | 3 => if old = .maintenance then .maintenance else .nominal
  | 2 => .degraded2
  | 1 => .single
  | _ => .forming

/-- Whether this module drives the shared ports: standalone always, in a group as ACTIVE (R15). -/
def drives (s : State) : Bool := !inGroup s || (s.grp.formed && s.grp.role == .active)

/-- Whether a topology counter written here comes into force nowhere: on a member of a formed group that is not the ACTIVE (R271). -/
def topoDropped (s : State) : Bool := inGroup s && s.grp.formed && s.grp.role != .active

/-- The position of the ACTIVE; 0 none. -/
def activePos (s : State) : Nat := (([1, 2, 3].filter (fun p => roleAt s.grp.roles p == .active)).head?).getD 0

/-- This module goes OUT now: its safe outputs in their safe state, the time noted; the third time within one hour of
operation for good, with a CRITICAL record (R324, R350). -/
def goOut (s : State) : State :=
  let now := s.cul.optime.toNat
  let ts := now :: s.grp.outTimes.filter (fun t => decide (now < t + 36000))
  let roles := setNth s.grp.roles (ownPos s - 1) GRole.out
  let s1 := soOff { s with grp := { s.grp with
    role := .out, roles, state := groupState s.grp.state roles, outDue := false, outTimes := ts, xferAsked := false
    xferMcc := none, probLeft := 0, mirror := none, check := none, swapDue := none } }
  let s2 := { s1 with grp := { s1.grp with outForGood := s.grp.outForGood || decide (3 ≤ ts.length) } }
  if decide (3 ≤ ts.length) && !s.grp.outForGood then record s2 .critical srcGrp (cFault 0) (ownPos s) else s2

/-- The heartbeat of a position, if one has come. -/
def hbOf (s : State) (pos : Nat) : Option HbPay := (s.grp.peer (linkTo (ownPos s) pos)).hb

/-- PROBATION begins, in the group's module state; local data starts from its initial image (R349). -/
def joinGroup (s : State) : State :=
  let m := match hbOf s (activePos s) with
    | some h => h.mstate
    | none => s.glb.state
  let s1 := { s with
    grp := { s.grp with formed := true, probLeft := s.ci.act.group.probationS, xferMcc := none, xferAsked := false }
    fab := { s.fab with
      tiles := ((List.range 48).zip s.fab.tiles).map (fun (i, t) =>
        if h : i < 48 then t.restartInit s ⟨i, h⟩ else t)
      state := if s.fab.state = .ready ∧ m = .run then .running else s.fab.state } }
  if m = s.glb.state then s1 else setState s1 m

/-- The lower of two protocol versions. -/
def protoMin (a b : Nat × Nat) : Nat × Nat := if a.1 < b.1 ∨ (a.1 = b.1 ∧ a.2 < b.2) then a else b

/-- The version that the group runs under given roles: the lowest of its members, the one in PROBATION with them (R356). -/
def protoOf (s : State) (roles : List GRole) : Nat × Nat :=
  [1, 2, 3].foldl (fun v p =>
    if p ≠ ownPos s ∧ ((roleAt roles p).voting || roleAt roles p == .probation) = true then (match hbOf s p with
      | some h => protoMin v h.proto
      | none => v)
    else v) s.grp.proto

/-- A module that is not the ACTIVE of its group is grandmaster on no plane (R319). -/
def TimeBase.slaveOnly (t : TimeBase) : TimeBase := { t with a := { t.a with asGm := false }, b := { t.b with asGm := false } }

/-- Roles that take effect at boundary k (R319, R342, R346, R349, R350). -/
def setRoles (s : State) (roles : List GRole) : State :=
  let own := roleAt roles (ownPos s)
  let s0 := { s with
    tb := if own = .active then s.tb else s.tb.slaveOnly
    grp := { s.grp with roles, state := groupState s.grp.state roles, runProto := protoOf s roles } }
  if own = .out ∧ s.grp.role ≠ .out then goOut s0
  else if own = .probation ∧ s.grp.role ≠ .probation then
    joinGroup { s0 with grp := { s0.grp with role := own } }
  else { s0 with grp := { s0.grp with role := own } }

/-! ## Failure (R344, R345, R347) -/

/-- Whether the release point of the running minor cycle has passed (R338, R347). -/
def releasePassed (s : State) : Bool := decide ((s.cyc.timerTtc - s.tb.ttc).toInt ≤ 60000)

/-- A peer declared failed: its TXE epoch increments and its tags complete UNIT_RESET (R331). -/
def peerLost (s : State) (pos : Nat) : State :=
  let l := linkTo (ownPos s) pos
  if (s.grp.peer l).lost then s else bumpEpoch (modPeer s l (fun p => { p with lost := true })) l.peer

/-- The roles before a planned swap that is not yet proven, with its ROT_SEQ; a failure drops the swap (R358). -/
def dropSwap (s : State) : State :=
  match s.grp.check with
  | some c => { s with grp := { s.grp with check := none, swapDue := none, rotSeq := c.oldSeq, roles := c.oldRoles } }
  | none => { s with grp := { s.grp with swapDue := none } }

/-- The failure of a voting member declared: ORDER TAKEOVER for the ACTIVE, EXCLUDE for another, on every path, with the new
roles at the next boundary at least 5 µs away; recognition at or after the release point makes one release repeat (R344,
R347). -/
def declareFailed (s : State) (subj : Nat) : State :=
  let s1 := dropSwap s
  let base := match s1.grp.due with
    | some d => if d.swap then s1.grp.roles else d.roles
    | none => s1.grp.roles
  if !(roleAt base subj).voting then s1
  else
    let takes := roleAt base subj == .active
    let roles := assignRoles s1.grp.rotSeq s1.grp.latent ((voters base).filter (· != subj)) base
    let at_ := boundaryAfter s1 5000
    let pre := match s1.grp.due with
      | some d => !d.swap && d.takeover
      | none => false
    let preRep := match s1.grp.due with
      | some d => !d.swap && d.repeat_
      | none => false
    let find := fun (r : GRole) => (([1, 2, 3].filter (fun p => roleAt roles p == r)).head?).getD 0
    let o : OrderMsg := { issuer := ownPos s, target := at_, active := find .active, standby := find .standby, arbiter := find .arbiter, subject := subj }
    let s2 := { s1 with grp := { s1.grp with due := some { at_, roles, takeover := takes || pre, repeat_ := (takes && releasePassed s) || preRep } } }
    sendEvery (peerLost s2 subj) (.order (if takes then .takeover else .exclude) o)

/-- Whether the ARBITER is known to have failed (R358). -/
def arbiterFailed (s : State) : Bool :=
  [GLink.left, .right].any (fun l =>
    roleAt s.grp.roles (peerPos s l) == .arbiter && ((s.grp.peer l).failSilent || decide (0 < (s.grp.peer l).misses)))

/-- Whether this member declares the failure of another: the ARBITER for the ACTIVE, the ACTIVE for the others, the survivor in
DEGRADED_2, where a STANDBY acts on the indication only; with the ARBITER gone too, the STANDBY acts on the ACTIVE's
indication (R344, R345, R358). -/
def mayDeclare (s : State) (subj : Nat) (indication : Bool) : Bool :=
  let r := s.grp.role
  let a := roleAt s.grp.roles subj == .active
  s.grp.formed && (roleAt s.grp.roles subj).voting && subj != ownPos s &&
  (if s.grp.state = .degraded2 then r == .active || (r.voting && a && indication)
   else if a then r == .arbiter || (r == .standby && indication && arbiterFailed s)
   else r == .active)

/-- A peer's fail-silent indication taken in: every silent peer that this member may declare is declared (R332, R344). -/
def silentIndication (s : State) (pos : Nat) : State :=
  let s1 := peerLost (modPeer s (linkTo (ownPos s) pos) (fun p => { p with failSilent := true })) pos
  [GLink.left, .right].foldl (fun s l =>
    if (s.grp.peer l).failSilent && mayDeclare s (peerPos s l) true then declareFailed s (peerPos s l) else s) s1

/-- The roles an ORDER names (R327, R344). -/
def orderRoles (old : List GRole) (o : OrderMsg) : List GRole :=
  [1, 2, 3].map (fun p =>
    if p = o.active then .active else if p = o.standby then .standby else if p = o.arbiter then .arbiter
    else if (roleAt old p).voting then .out else roleAt old p)

/-- An ORDER TAKEOVER or EXCLUDE received: acknowledged, its roles taken at its boundary; ARG 0xFFFF_FFFF relays an indication
(R332, R344). A second copy of the same order changes nothing. -/
def takeOrder (s : State) (h : GlHdr) (k : OrderKind) (o : OrderMsg) : State :=
  if o.arg = 0xFFFFFFFF then (if o.subject = ownPos s then s else silentIndication s o.subject)
  else
    let s1 := ackFrame s h (.order k o) .ok
    let s2 := dropSwap s1
    let roles := orderRoles s2.grp.roles o
    let same := match s.grp.due with
      | some d => d.at_ == o.target && d.roles == roles
      | none => false
    if same then s1
    else
      let s3 := if o.subject = ownPos s then s2 else peerLost s2 o.subject
      let d : RolesDue := { at_ := o.target, roles, takeover := k == .takeover, repeat_ := k == .takeover && releasePassed s }
      { s3 with grp := { s3.grp with due := some d } }

/-! ## Formation (R343, R356) -/

/-- A group protocol version that may run with another: same major, minor at most one apart (R356). -/
def protoFits (a b : Nat × Nat) : Bool := a.1 == b.1 && decide (a.2 ≤ b.2 + 1) && decide (b.2 ≤ a.2 + 1)

/-- The difference of the own boundary time to a peer's, in ns, of the running boundary or the one before, whichever the peer's heartbeat is closer
to: before formation the counts differ (R333, R343). -/
def skewTo (s : State) (h : HbPay) : Int :=
  let a := (s.cyc.bttc - h.bttc).toInt
  let b := (s.cyc.bttcPrev - h.bttc).toInt
  if a.natAbs ≤ b.natAbs then a else b

/-- Whether a heartbeat matches: GROUP_ID, rack identity and hash equal, another position, protocol compatible, skew within
±10 µs (R343 step 1). -/
def hbMatches (s : State) (h : HbPay) : Bool :=
  h.groupId == s.ci.act.group.groupId && h.rack == ownRack s && h.hash == s.ci.act.hdr.imageHash &&
  h.position != ownPos s && protoFits h.proto s.grp.proto && decide ((skewTo s h).natAbs ≤ 10000)

/-- The peers that match, by link. -/
def matched (s : State) : List GLink :=
  [GLink.left, .right].filter (fun l => match (s.grp.peer l).hb with
    | some h => hbMatches s h
    | none => false)

/-- The heartbeat of a matched peer. -/
def matchedHb (s : State) : List HbPay := (matched s).filterMap (fun l => (s.grp.peer l).hb)

/-- The group formed at boundary k: rotation state of the matched member with the highest ROT_SEQ, the union of the latent marks, roles by the
permutation, the state by the number of members; AUTO takes effect (R192, R343, R356). -/
def formGroup (s : State) : State :=
  let hs := matchedHb s
  let best := hs.foldl (fun (b : Reg32 × Reg32) h => if b.1 < h.rotSeq then (h.rotSeq, h.rotLeft) else b) (s.grp.rotSeq, s.grp.rotLeft)
  let present := ownPos s :: hs.map (·.position)
  let latent := hs.foldl (fun m h => m ||| h.latent) s.grp.latent
  let roles := assignRoles best.1 latent present s.grp.roles
  let s1 := setRoles { s with grp := { s.grp with
    latent, latentSerial := hs.foldl (fun l h => if bit latent (h.position - 1) && nthD l (h.position - 1) 0 == 0 then setNth l (h.position - 1) h.serial else l) s.grp.latentSerial
    formed := true, rotSeq := best.1, rotLeft := best.2, formDue := false } } roles
  record { s1 with glb := { s1.glb with autoDue := true } } .info srcGrp (cState s1.grp.state.num) (ownPos s)

/-- Whether the group forms at this boundary: three agreed images held, with three members or after the 10 s of R343. -/
def formsNow (s : State) : Bool :=
  inGroup s && !s.grp.formed && joinable s && decide (3 ≤ s.grp.agreedRun) &&
  ((matched s).length == 2 || s.grp.formTimeout) && (matchedHb s).all (fun h => h.gstate == .forming)

/-! ## Targets (R186, R355) -/

/-- Whether a slot waits for the acknowledgement of a frame that passed its call to the ACTIVE; a SAFE_ACK that the ACTIVE has accepted waits
on, for its release (R186, R389). -/
def ackEnds (x : CallSlot) (id : Reg32) (st : Status) : Bool := x.busy && x.frame == some id && !(st == .ok && x.call == 0x31)

/-- The calls that an acknowledgement of the ACTIVE ends. -/
def ackSlots (s : State) (id : Reg32) (st : Status) : State :=
  (List.range 8).foldl (fun s n => if ackEnds (nthD s.tk.slots n {}) id st then answer s n st [] else s) s

/-- The CALL code of what a TARGET carries (R413). -/
def TargetArg.call : TargetArg → Nat
  | .mode c => c.call | .safeAck => 0x31 | .clearLatent _ => 0x43 | .force _ => 0x20 | .timeStep .. => 0x30 | .roleSwap => 0x40 | .maintEnter => 0x41 | .maintLeave => 0x42

/-- The first boundary at least 5 ms after acceptance (R186). -/
def groupTarget (s : State) : Mcc := boundaryAfter s 5000000

/-- The target of a planned swap: the next major cycle boundary at least 10 ms ahead (R351). -/
def swapTarget (s : State) : Mcc := majorFrom s.ci.act (boundaryAfter s 10000000)

/-- How far the group's count lies ahead of the member's own, while the member has yet to adopt it. -/
def countAhead (s : State) : Mcc :=
  match s.grp.adoptDue with
  | some (at_, v) => v - at_
  | none => 0

/-- A target taken by a member: what it carries takes effect at its boundary (R186, R315, R351, R355). A time step is dated by the own count, as one of
before the formation is. -/
def holdTarget (s : State) (mcc : Mcc) : TargetArg → State
  | .mode c => setPending s c mcc
  | .safeAck => { s with safe := { s.safe with ackDue := some mcc } }
  | .clearLatent p => { s with grp := { s.grp with latentDue := some (mcc, p) } }
  | .force cs => cs.foldl (fun s c => addForceCmd s { c with eff := mcc }) s
  | .timeStep c k => { s with tb := { s.tb with
      stepDue := some { target := mcc - countAhead s, refusedCase := c, keyId := k }, acceptPending := s.tb.acceptPending || c == 1 } }
  | .roleSwap => { s with grp := { s.grp with swapDue := some mcc } }
  | .maintEnter => { s with grp := { s.grp with maintDue := some (mcc, true) } }
  | .maintLeave => { s with grp := { s.grp with maintDue := some (mcc, false) } }

/-- A target set by the ACTIVE: held here and sent to the members (R186). -/
def setTarget (s : State) (mcc : Mcc) (a : TargetArg) : State := sendPeers (holdTarget s mcc a) (.target mcc a)

/-- Whether a module in a group refuses every call that goes to the ACTIVE: before formation and on an OUT member (R186). -/
def groupShut (s : State) : Bool := inGroup s && (!s.grp.formed || s.grp.role == .out || s.grp.role == .none)

/-- A group call in a group: refused before formation and on an OUT member; the ACTIVE decides by `act`; any other member
passes it to the ACTIVE as a TARGET with MCC 0 and answers DEFERRED until the ACTIVE acknowledges that frame (R186). -/
def groupCall (s : State) (slot : Nat) (a : TargetArg) (act : State → State × Status) : CallRes :=
  if groupShut s then (s, .refusedPolicy, [])
  else if s.grp.role == .active then
    let r := act s
    (r.1, r.2, [])
  else (sendPeer (modSlot s slot (fun x => { x with frame := some (nextFrameId s (activePos s) 0) })) (activePos s) (.target 0 a), .deferred, [])

/-- What the ACTIVE does with a group call: its own condition, then the target (R185, R186, R317, R351, R355). -/
def activeCall (s : State) : TargetArg → State × Status
  | .mode c =>
    let r := modeCommand s c
    if r.2 = .ok && r.1.glb.pendCmd == some c && s.glb.pendCmd != some c then
      (setTarget s (boundaryAfter s (leadNs s c)) (.mode c), .ok)
    else r
  | .safeAck =>
    if (s.glb.state == .run || s.glb.state == .hold) && decide (2 ≤ s.safe.absentRun) then (setTarget s (groupTarget s) .safeAck, .ok)
    else (s, .refusedPolicy)
  | .clearLatent p =>
    if 1 ≤ p ∧ p ≤ 3 then (setTarget s (groupTarget s) (.clearLatent p), .ok) else (s, .refusedPolicy)
  | .force cs => (setTarget s (groupTarget s) (.force cs), .ok)
  | .timeStep _ k =>
    if !s.tb.stepRefused then (s, .ok)
    else if s.glb.state == .run || s.glb.state == .hold then (setTarget s (groupTarget s) (.timeStep 1 k), .ok)
    else (s, .refusedPolicy)
  | .roleSwap =>
    if s.grp.state == .nominal || s.grp.state == .degraded2 then (setTarget s (swapTarget s) .roleSwap, .ok) else (s, .refusedPolicy)
  | .maintEnter => if s.grp.state == .nominal then (setTarget s (groupTarget s) .maintEnter, .ok) else (s, .refusedPolicy)
  | .maintLeave =>
    if s.grp.state == .maintenance && s.glb.state != .hold then (setTarget s (groupTarget s) .maintLeave, .ok) else (s, .refusedPolicy)

/-- A TARGET received: from the ACTIVE it is held; with MCC 0 it is a call passed to this member as ACTIVE, whose status the ACK carries
(R186). -/
def takeTarget (s : State) (h : GlHdr) (mcc : Mcc) (a : TargetArg) : State :=
  if s.grp.role = .active then
    let r := activeCall s a
    ackFrame r.1 h (.target mcc a) r.2
  else
    ackFrame (holdTarget s mcc a) h (.target mcc a) .ok

end Sys2Proof.Machine
end

