-- ==== Sys2Proof/Machine/PgvOps.lean ====
section
/-! DEFINITION. Machine/PgvOps.lean: the power governor's accounts and its served, delayed and refused requests (18_power_resets_retention,
R445 to R450). -/

namespace Sys2Proof.Machine

/-! ## Charges (R445, R446, R448) -/

/-- The declared charge of the ports by PORT_ID (R445). -/
def portCharge (p : Nat) : Nat := nthD [8, 8, 8, 4, 2, 2, 8, 8] p 0

/-- The declared charge of the cluster at a CLK_AC step (R445). -/
def acCharge (st : Nat) : Nat := nthD [40, 52, 66, 82, 100, 118, 140, 164] st 164

/-- The DMA transactions in flight: the DMA power streams (R447, R491). -/
def dmaTags (s : State) : List TagEnt :=
  s.txe.tags.filter (fun t => match t.req with
    | .dma .. => true
    | .dump => true
    | _ => false)

/-- The streams that run: those in flight but the newest ones the governor has paused (R449). -/
def dmaRunning (s : State) : Nat := (dmaTags s).length - s.pgv.dmaPaused

/-- Whether a tag's stream is paused: it is among the newest (R449). -/
def dmaPaused (s : State) (t : TagEnt) : Bool := ((dmaTags s).drop (dmaRunning s)).any (fun x => x.tag == t.tag)

/-- The ECN plane of the reservation: the enabled one with the lower PORT_ID (R446). -/
def reservedPlane (g : ConfImage) : Option Nat :=
  g.iomap.foldl (fun o r => match r with
    | .port id en .. => if id ≤ 1 ∧ en = 1 then some (match o with
        | some x => min x id
        | none => id) else o
    | _ => o) none

/-- The declared charge of a unit in its present state (R445): a port draws nothing unpowered, the cluster nothing while held in reset. -/
def declared (s : State) (u : Nat) : Nat :=
  if u < 7 then nthD [128, 23, 10, 10, 8, 4, 17] u 0
  else if u < 15 then (if bit s.pgv.portPowered (u - 7) then portCharge (u - 7) else 0)
  else if u = 15 then 3 * dmaRunning s
  else if s.rst.clusterHeld then 0
  else if u = 16 then (if s.pgv.stalled then 6 else 46)
  else if s.pgv.stalled then 4 else acCharge s.pgv.granted.toNat

/-- Whether a unit is charged its declared figure at all times: the reserved tier (R446). -/
def reservedUnit (s : State) (u : Nat) : Bool := decide (u < 7) || (reservedPlane s.ci.act).map (· + 7) == some u

/-- The charge of a unit: declared until 64 windows of history stand, then 1.125 times the highest of them, within 1 and the declared
figure (R448). -/
def charged (s : State) (u : Nat) : Nat :=
  let w := (nthD s.pgv.units u {}).windows
  let d := declared s u
  if reservedUnit s u || w.length < 64 || d == 0 then d else min d (max 1 (ceilDiv (9 * w.foldl max 0) 8))

/-- The effective cap (R445). -/
def capTokens (s : State) : Nat := min s.ci.act.power.capTokens s.pgv.limit.toNat

/-- The headroom: the effective cap less all charges (R449). -/
def headroom (s : State) : Int := (capTokens s : Int) - (((List.range 18).map (charged s)).sum : Nat)

/-- The highest step the governor may grant: POWER.AC_MAX_STEP and the derating (R447, R450). -/
def maxStep (s : State) : Nat := min s.ci.act.power.acMaxStep s.pgv.thermStep.toNat

/-- The governor's registers and CLK_AC_STEP.MAX_STEP brought up to date with its accounts (R63, R447, R463). -/
def pgvView (s : State) : State :=
  let ch (l : List Nat) : Nat := (l.map (charged s)).sum
  let ports := ((List.range 8).map (· + 7)).filter (fun u => !reservedUnit s u)
  { s with
    pgv := { s.pgv with
      tokens := BitVec.ofNat 9 (capTokens s)
      reserved := BitVec.ofNat 9 (200 + (if (reservedPlane s.ci.act).isSome then 8 else 0))
      portsCharge := BitVec.ofNat 9 (ch ports), clusterCharge := BitVec.ofNat 9 (ch [16, 17]), dmaCharge := BitVec.ofNat 8 (ch [15])
      headroom := headroom s
      units := ((List.range 18).zip s.pgv.units).map (fun (u, x) => { x with declared := declared s u, on := decide (0 < declared s u) }) }
    clk := { s.clk with maxStep := BitVec.ofNat 3 (maxStep s) } }

/-- A unit's history begun anew (R448). -/
def freshUnit (s : State) (u : Nat) : State :=
  { s with pgv := { s.pgv with units := modNth s.pgv.units u (fun x => { x with windows := [] }) } }

/-! ## The cluster's step (R58, R62, R447, R450) -/

/-- CLK_AC changed to a step: the cluster's history begins anew and the PLL_AC monitor is masked (R58, R62, R448). -/
def setStep (s : State) (st : Nat) : State :=
  if s.pgv.granted.toNat = st then s
  else
    let s1 := freshUnit s 17
    { s1 with pgv := { s1.pgv with granted := BitVec.ofNat 3 st }, clk := { s1.clk with acMask := true } }

/-- Whether the headroom covers a step. -/
def stepFits (s : State) (st : Nat) : Bool := decide ((acCharge st : Int) ≤ headroom s + (charged s 17 : Nat))

/-- The highest step up to a limit that the headroom covers; step 0 at the least. -/
def bestStep (s : State) (lim : Nat) : Nat := (((List.range 8).filter (fun i => decide (i ≤ lim) && stepFits s i)).getLast?).getD 0

/-- A request for a step: above POWER.AC_MAX_STEP refused, else the highest affordable one granted, pending while it is below the request
(R447). -/
def requestStep (s : State) (st : Nat) : State :=
  if s.ci.act.power.acMaxStep < st then { s with pgv := { s.pgv with acStatus := Status.refusedPolicy.code } }
  else
    let g := bestStep s (min st (maxStep s))
    let s1 := setStep { s with pgv := { s.pgv with step := BitVec.ofNat 3 st } } g
    pgvView { s1 with pgv := { s1.pgv with acStatus := if g = st then Status.ok.code else Status.deferred.code } }

/-- AC_STEP_REQUEST: a write of PGV_AC_REQ.STEP; one made while the cores stand still waits (R58, R447, R449). -/
def execAcStepRequest (st : BitVec 3) (s : State) : Host.Outcome State Fault Refusal :=
  .next (coreStall s (.acStepRequest st) (fun s => requestStep s st.toNat))

/-! ## Ports (R447) -/

/-- A port asked for at its start: powered, or held down with a WARNING record until the headroom allows (R447). -/
def powerPort (s : State) (p : Nat) : State :=
  if bit s.pgv.portPowered p then s
  else if (portCharge p : Int) ≤ headroom s ∨ reservedPlane s.ci.act = some p then
    freshUnit { s with pgv := { s.pgv with
      portPowered := setBit s.pgv.portPowered p, portRefused := clrBit s.pgv.portRefused p } } (7 + p)
  else record { s with pgv := { s.pgv with portRefused := setBit s.pgv.portRefused p } } .warning srcPgv (cRefused .refusedPower) p

/-- A port that no longer runs: unpowered, its tokens back with the governor (R22, R447). -/
def unpowerPort (s : State) (p : Nat) : State :=
  { s with pgv := { s.pgv with portPowered := clrBit s.pgv.portPowered p, portRefused := clrBit s.pgv.portRefused p } }

/-! ## DMA streams (R447, R491) -/

/-- Whether another DMA stream may start: at most 4, within the headroom, none while streams are paused (R445, R447). -/
def dmaStarts (s : State) : Bool :=
  decide ((dmaTags s).length < 4) && s.pgv.dmaPaused == 0 && decide (3 ≤ headroom s)

end Sys2Proof.Machine
end

