-- ==== Sys2Proof/Machine/ProgBytes.lean ====
section
/-! DEFINITION. Machine/ProgBytes.lean: the bytes of a tile program: header, window descriptors, handler table, bundles and the initial image of
local data, each at its offset (05_cycle_fabric, R100, R102; 06_tile_instruction_set, R120 to R122, R124). -/

namespace Sys2Proof.Machine

/-- The 8 bytes of a window descriptor as a number (R102). -/
def descWord (d : WinDesc) : Nat :=
  d.pimWord + (d.count - 1) * 2 ^ 18 + d.winWord * 2 ^ 28 + (if d.drain then 2 ^ 38 else 0) + (if d.evt then 2 ^ 39 else 0) +
    d.evtTask * 2 ^ 40 + d.rest.toNat * 2 ^ 45

/-- The 64 bytes of the header (R120). -/
def progHead (p : TileProg) : List Byte :=
  layout [(4, p.magic.toNat), (1, p.isaVersion), (1, p.flagsHigh.toNat * 2 + if p.handlersOnly then 1 else 0), (2, p.hdrLen), (2, p.descs.length),
    (2, p.fillCount), (2, p.drainCount), (2, p.handlers.length), (4, p.descOffset), (4, p.handlerOffset), (4, p.mainEntry), (4, p.main.length),
    (4, p.localInitOffset), (4, p.localInit.length), (4, p.slackCyc), (4, p.progWcet)] ++ beBytes 16 p.layoutId.toNat

/-- The 16 bytes of a handler table entry (R121). -/
def handlerBytes (h : HandlerEnt) : List Byte :=
  layout [(1, h.evtTask), (1, h.zero1.toNat), (2, h.descFirst), (2, h.descCount), (2, h.zero6.toNat), (4, h.entry), (4, h.wcetCyc)]

/-- The bytes of bundles: slot 0 at the lower address (R122). -/
def codeBytes (l : List Bundle) : List Byte := l.flatMap (fun b => leBytes 4 b.w0.toNat ++ leBytes 4 b.w1.toNat)

/-- The parts of a program as ranges: offset and length (R120, R121). -/
def progRanges (p : TileProg) : List (Nat × Nat) :=
  ([(0, 0x40), (p.descOffset, 8 * p.descs.length), (p.handlerOffset, 16 * p.handlers.length), (p.mainEntry, 8 * p.main.length)] ++
    p.handlers.map (fun (h : HandlerEnt) => (h.entry, 8 * h.code.length)) ++ [(p.localInitOffset, p.localInit.length)]).filter (fun x => x.2 != 0)

/-- The parts of a program with their bytes, each at its offset. -/
def progParts (p : TileProg) : List (Nat × List Byte) :=
  [(0, progHead p), (p.descOffset, p.descs.flatMap (fun d => leBytes 8 (descWord d))), (p.handlerOffset, p.handlers.flatMap handlerBytes),
    (p.mainEntry, codeBytes p.main)] ++ p.handlers.map (fun h => (h.entry, codeBytes h.code)) ++ [(p.localInitOffset, p.localInit)]

/-- The byte of a program at an offset, if a part of it lies there. -/
def progByte (p : TileProg) (a : Nat) : Option Byte :=
  (progParts p).findSome? (fun x => if x.1 ≤ a then x.2[a - x.1]? else none)

end Sys2Proof.Machine
end

