-- ==== Sys2Proof/Machine/CallEvents.lean ====
section
/-! DEFINITION. Machine/CallEvents.lean: the trusted kernel calls for modes, forces, time, safety, the group, sessions and keys
(08_tasks_modes_forcing, 13_time_base, 14_replica_group, 15_safety_island, 16_trust_and_boot). -/

namespace Sys2Proof.Machine

/-! ## Mode commands (R185, R186, R455) -/

/-- The role a mode command requires (R185, R413). -/
def ModeCmd.role : ModeCmd → Role
  | .startWarm => .maintainer | .startCold => .maintainer | .stop => .maintainer | .dormant => .maintainer
  | .hold => .engineer | .cont => .engineer | .step _ => .engineer

/-- A mode command given as a call: standalone decided here, in a group by the ACTIVE. -/
def modeCall (s : State) (c : CallReq) (m : ModeCmd) : State :=
  callOn s c m.call m.role (fun s =>
    if inGroup s then groupCall s c.slot (.mode m) (fun s => activeCall s (.mode m))
    else
      let r := modeCommand s m
      (r.1, r.2, []))

/-- START_WARM (R188). -/
def execStartWarm (c : CallReq) (s : State) : Host.Outcome State Fault Refusal := .next (modeCall s c .startWarm)
/-- START_COLD (R188). -/
def execStartCold (c : CallReq) (s : State) : Host.Outcome State Fault Refusal := .next (modeCall s c .startCold)
/-- STOP (R191). -/
def execStop (c : CallReq) (s : State) : Host.Outcome State Fault Refusal := .next (modeCall s c .stop)
/-- HOLD (R189). -/
def execHold (c : CallReq) (s : State) : Host.Outcome State Fault Refusal := .next (modeCall s c .hold)
/-- CONTINUE (R185). -/
def execContinue (c : CallReq) (s : State) : Host.Outcome State Fault Refusal := .next (modeCall s c .cont)
/-- STEP n (R190). -/
def execStep (c : CallReq) (n : Nat) (s : State) : Host.Outcome State Fault Refusal := .next (modeCall s c (.step n))
/-- DORMANT_ENTER (R455). -/
def execDormantEnter (c : CallReq) (s : State) : Host.Outcome State Fault Refusal := .next (modeCall s c .dormant)

/-! ## Forces (R194 to R196) -/

/-- Where a force command is accepted: in RUN, STOP and HOLD, in a group once it has formed and not on an OUT member (R185, R186). -/
def forceState (s : State) : Bool := (s.glb.state == .run || s.glb.state == .stop || s.glb.state == .hold) && !groupShut s

/-- The value and code of a SID's force as the accepted commands leave it (R194, R195). -/
def forceNow (s : State) (sid : Sid) : Word × BitVec 4 :=
  match (s.glb.forceCmds.filter (fun c => c.sid == sid)).getLast? with
  | some c => c.set.getD (0, 0)
  | none => ((forceOf s sid).map (fun f => (f.val, f.code))).getD (0, 0)

/-- The record of a force command: SID, value, code and as much of the KEY_ID as the detail holds (R195). -/
def forceRec (s : State) (call : Nat) (sid : Sid) (v : Word) (code : BitVec 4) (h : BitVec 16) : State :=
  let safe := match sigRec s.ci.act sid with
    | some r => r.safe
    | none => false
  record s (if safe then .safety else .notice) srcGlb (cCommand call) sid.toNat
    (beBytes 8 v.toNat ++ [code.setWidth 8] ++ beBytes 16 (keyOf s h).toNat)

/-- Force changes accepted: standalone for the boundary of R195, in a group through the ACTIVE (R186, R195). -/
def forceChange (s : State) (slot : Nat) (cs : List ForceCmd) : CallRes :=
  if inGroup s then groupCall s slot (.force cs) (fun s => activeCall s (.force cs))
  else (cs.foldl (fun s x => addForceCmd s { x with eff := forceBoundary s }) s, .ok, [])

/-- A force change with its record, when it is accepted. -/
def forceDone (r : CallRes) (rec : State → State) : CallRes :=
  if r.2.1 = .ok ∨ r.2.1 = .deferred then (rec r.1, r.2) else r

/-- FORCE_SET (R194, R195). A full table writes a WARNING record (R200). -/
def execForceSet (c : CallReq) (sid : Sid) (v : Word) (code : BitVec 4) (s : State) : Host.Outcome State Fault Refusal :=
  .next (callOn s c 0x20 .engineer (fun s =>
    let x := match sigRec s.ci.act sid with
      | some r => rawOf r.t v
      | none => v
    if !forceState s then (s, .refusedPolicy, [])
    else match forceStatus s (roleOf s c.session) sid x code with
      | .ok => forceDone (forceChange s c.slot [⟨sid, some (x, code), 0⟩]) (fun s => forceRec s 0x20 sid x code c.session)
      | .refusedCapacity => (record s .warning srcGlb (cRefused .refusedCapacity) sid.toNat, .refusedCapacity, [])
      | st => (s, st, [])))

/-- FORCE_CLEAR: of a SID not forced OK without effect and record (assumption 192), else with the value and code of the force in its record; on a SAFE signal for a SAFETY_ENGINEER (R185, R194, R195). -/
def execForceClear (c : CallReq) (sid : Sid) (s : State) : Host.Outcome State Fault Refusal :=
  .next (callOn s c 0x21 .engineer (fun s =>
    let safe := match sigRec s.ci.act sid with
      | some r => r.safe
      | none => false
    if !forceState s then (s, .refusedPolicy, [])
    else if safe && roleOf s c.session != .safetyEngineer then (s, .authRequired, [])
    else if !willBeForced s sid then (s, .ok, [])
    else
      let f := forceNow s sid
      forceDone (forceChange s c.slot [⟨sid, none, 0⟩]) (fun s => forceRec s 0x21 sid f.1 f.2 c.session)))

/-- FORCE_CLEAR_ALL: every force, or those on non-SAFE signals for an ENGINEER, with one record of the numbers cleared and left
(R195). -/
def execForceClearAll (c : CallReq) (s : State) : Host.Outcome State Fault Refusal :=
  .next (callOn s c 0x22 .engineer (fun s =>
    if !forceState s then (s, .refusedPolicy, [])
    else
      let held := ((s.glb.forces.map (·.sid)) ++ (s.glb.forceCmds.map (·.sid))).eraseDups.filter (willBeForced s)
      let may (sid : Sid) : Bool := roleOf s c.session == .safetyEngineer || !(match sigRec s.ci.act sid with
        | some r => r.safe
        | none => false)
      let go := held.filter may
      forceDone (forceChange s c.slot (go.map (fun sid => ⟨sid, none, 0⟩))) (fun s =>
        record s .notice srcGlb (cCommand 0x22) 0
          (beBytes 4 go.length ++ beBytes 4 (held.length - go.length) ++ beBytes 8 (keyOf s c.session).toNat))))

/-- FORCE_LIST: for every force its SID, value and code, and the underlying value and code (R196). -/
def execForceList (c : CallReq) (s : State) : Host.Outcome State Fault Refusal :=
  .next (callOn s c 0x05 .viewer (fun s =>
    (s, .ok, s.glb.forces.flatMap (fun f =>
      let u : Word × BitVec 4 := match sigRec s.ci.act f.sid with
        | some r => ownValue s s.cyc.mcc r ((dynOf s.pim f.sid).getD (freshDyn r))
        | none => (0, qUninit)
      leBytes 4 f.sid.toNat ++ leBytes 8 f.val.toNat ++ leBytes 8 u.1.toNat ++ [f.code.setWidth 8, u.2.setWidth 8, 0, 0]))))

/-! ## Time, safety and group calls -/

/-- TIME_ACCEPT (R317). -/
def execTimeAccept (c : CallReq) (s : State) : Host.Outcome State Fault Refusal :=
  .next (callOn s c 0x30 .engineer (fun s =>
    let key := keyOf s c.session
    if inGroup s then groupCall s c.slot (.timeStep 1 key) (fun s => activeCall s (.timeStep 1 key))
    else if !s.tb.stepRefused then (s, .ok, [])
    else if s.glb.state = .run ∨ s.glb.state = .hold then (holdTarget s (boundaryAfter s 10000) (.timeStep 1 key), .ok, [])
    else (s, .refusedPolicy, [])))

/-- SAFE_ACK: accepted in RUN and HOLD while the cause has been absent at the last two releases of FUNC_TASK; first answered
DEFERRED, final at its release (R389). -/
def execSafeAck (c : CallReq) (s : State) : Host.Outcome State Fault Refusal :=
  .next (callOn s c 0x31 .maintainer (fun s =>
    if inGroup s then
      let r := groupCall s c.slot .safeAck (fun s => activeCall s .safeAck)
      if r.2.1 = .ok then (r.1, .deferred, []) else r
    else if (s.glb.state = .run ∨ s.glb.state = .hold) ∧ 2 ≤ s.safe.absentRun then
      ({ s with safe := { s.safe with ackDue := some (nextMcc s) } }, .deferred, [])
    else (s, .refusedPolicy, [])))

/-- A group call; a standalone module has no group state that accepts it (R355). -/
def grpCall (s : State) (c : CallReq) (need : Role) (a : TargetArg) : State :=
  callOn s c a.call need (fun s => if inGroup s then groupCall s c.slot a (fun s => activeCall s a) else (s, .refusedPolicy, []))

/-- ROLE_SWAP (R351, R355). -/
def execRoleSwap (c : CallReq) (s : State) : Host.Outcome State Fault Refusal := .next (grpCall s c .maintainer .roleSwap)
/-- GROUP_MAINT_ENTER (R355). -/
def execGroupMaintEnter (c : CallReq) (s : State) : Host.Outcome State Fault Refusal := .next (grpCall s c .engineer .maintEnter)
/-- GROUP_MAINT_LEAVE (R355). -/
def execGroupMaintLeave (c : CallReq) (s : State) : Host.Outcome State Fault Refusal := .next (grpCall s c .engineer .maintLeave)
/-- GROUP_CLEAR_LATENT of a position (R353, R355). -/
def execGroupClearLatent (c : CallReq) (pos : Nat) (s : State) : Host.Outcome State Fault Refusal :=
  .next (grpCall s c .maintainer (.clearLatent pos))

/-- Whether MAINT has power or the headroom for it (R447). -/
def maintPower (s : State) : Bool := bit s.pgv.portPowered 2 || decide (8 ≤ headroom s)

/-- ETHM_CTRL.ENABLE set by a session, MAINT powered (R269, R447). -/
def maintOn (s : State) (h : BitVec 16) : State :=
  let s1 := powerPort s 2
  { s1 with eth := { s1.eth with ports := modNth s1.eth.ports 2 (fun p => { p with enable := true }) }
            tk := { s1.tk with maintBy := if (nthD s1.eth.ports 2 {}).enable then s1.tk.maintBy else some h } }

/-- MAINT_ENABLE (R269); refused without the power for the port (R447). -/
def execMaintEnable (c : CallReq) (s : State) : Host.Outcome State Fault Refusal :=
  .next (callOn s c 0x50 .maintainer (fun s => if maintPower s then (maintOn s c.session, .ok, []) else (s, .refusedPower, [])))

/-- MAINT_DISABLE (R269). -/
def execMaintDisable (c : CallReq) (s : State) : Host.Outcome State Fault Refusal :=
  .next (callOn s c 0x51 .maintainer (fun s => (maintOff s, .ok, [])))

/-! ## Sessions (R408 to R410) -/

/-- The key store in force (R405). -/
def curStore (s : State) : Option KeyStore := if s.tk.storeInB then s.tk.storeB else s.tk.storeA

/-- The key record that a signature names, of a class, not revoked (R404, R405, R407). -/
def keyFor (s : State) (cls : Byte) (g : SigBlock) : Option KeyRec :=
  match curStore s with
  | none => none
  | some st => st.keys.find? (fun k => k.id == g.keyId && k.cls == cls && !k.revoked)

/-- Whether a signature block has the form of R67 and verifies against a key of the class it requires (R67, R404). -/
def sigGood (s : State) (cls : Byte) (g : SigBlock) : Bool :=
  g.magicOk && g.zero7 == 0 && g.tail == 0 && g.len == 0xD80 && g.keyClass == cls && (keyFor s cls g).isSome && g.ecdsaOk && g.mldsaOk

/-- The check of a token: the first failing status (R409). -/
def tokenStatus (s : State) (t : Token) : Status :=
  let serialOk := t.serial == s.tk.fuses.serial && (match keyFor s 0x03 t.sig with
    | some k => k.bind == 0 || k.bind == s.tk.fuses.serial
    | none => false)
  let life : Int := (t.notAfter.toNat : Int) - t.notBefore.toNat
  if !t.formOk then .checkFailed
  else if !sigGood s 0x03 t.sig then .signatureFailed
  else if !serialOk then .incompatible
  else if life < 1 ∨ 28800000000000 < life then .refusedPolicy
  else if s.tb.valid && (decide (s.tb.ttc < t.notBefore) || decide (t.notAfter ≤ s.tb.ttc)) then .authRequired
  else if !s.tb.valid && decide (t.notAfter < s.tb.ttc) then .authRequired
  else .ok

/-- A refused token: counted (an AUTH_REQUIRED one with the call), a SECURITY record, and the lockout after five refusals within 60 s of operation (R409, R420). -/
def tokenRefused (s : State) (t : Token) (st : Status) : State :=
  let now := s.cul.optime.toNat
  let l := now :: within60 s.cul.optime s.tk.refusals
  record { s with tk := { s.tk with
      authFail := if st = .authRequired then s.tk.authFail else satInc s.tk.authFail, refusals := l
      lockEnd := if 5 ≤ l.length then some (now + 600) else s.tk.lockEnd } }
    .security srcTkmb (cRefused st) 0 (beBytes 8 t.tokenId.toNat)

/-- A handle no session has: the first from where the choice begins (assumption 17). -/
def newHandle (s : State) : BitVec 16 :=
  let k := Config.handlePick s.tk.opened
  let c := (List.range 9).map (fun i => BitVec.ofNat 16 ((k + i) % 65535 + 1))
  (c.find? (fun h => (sessionOf s h).isNone)).getD 1

/-- SESSION_OPEN: refused during the lockout and with 8 sessions open; otherwise the token decides (R409, R410). -/
def execSessionOpen (c : CallReq) (t : Token) (s : State) : Host.Outcome State Fault Refusal :=
  .next (callOn s c 0x01 .none (fun s =>
    if s.tk.lockEnd.isSome then (record { s with tk := { s.tk with authFail := satInc s.tk.authFail } } .security srcTkmb (cRefused .refusedPolicy) 0 (beBytes 8 t.tokenId.toNat), .refusedPolicy, [])
    else match tokenStatus s t with
      | .ok =>
        if 8 ≤ s.tk.sessions.length then (s, .refusedCapacity, [])
        else
          let h := newHandle s
          let x : Session := { handle := h, role := t.role, tokenId := t.tokenId, keyId := t.sig.keyId, notAfter := t.notAfter
                               opEnd := if s.tb.valid then none
                                        else some (opTimeNs s + (t.notAfter - t.notBefore).toNat) }
          ({ s with tk := { s.tk with sessions := s.tk.sessions ++ [x], opened := s.tk.opened + 1 } }, .ok, leBytes 2 h.toNat)
      | st => (tokenRefused s t st, st, [])))

/-- SESSION_CLOSE of the caller's own session (R410). -/
def execSessionClose (c : CallReq) (s : State) : Host.Outcome State Fault Refusal :=
  .next (callOn s c 0x02 .viewer (fun s => (endSession s c.session, .ok, [])))

/-- SESSION_EXPIRY; the expiry of the token that enabled MAINT writes a NOTICE record (R269, R271, R410). -/
def execSessionExpiry (h : BitVec 16) (s : State) : Host.Outcome State Fault Refusal :=
  .next (match sessionOf s h with
    | none => s
    | some x => match sessionLeft s x with
      | some n =>
        let s1 := passTime s n
        let s2 := if s1.tk.maintBy = some h then record s1 .notice Port.maint.src (cChange 0) 2 (beBytes 8 x.tokenId.toNat) else s1
        endSession s2 h
      | none => s)

/-- LOCKOUT_END: 60 s of operation after the fifth refusal (R409). -/
def execLockoutEnd (s : State) : Host.Outcome State Fault Refusal :=
  .next (match s.tk.lockEnd with
    | none => s
    | some e =>
      let s1 := passTime s (e * 100000000 - opTimeNs s)
      { s1 with tk := { s1.tk with lockEnd := none, refusals := [] } })

/-! ## Reads and settings -/

/-- A SIGMAP record's 32 bytes, little-endian (R64, R71). -/
def SigRec.bytes (r : SigRec) : List Byte :=
  let flags := r.dir + (if r.retained then 8 else 0) + (if r.voted then 16 else 0) + (if r.mirrored then 32 else 0) +
    (if r.safe then 64 else 0) + (if r.forceAllowed then 128 else 0) + 256 * r.flagsHigh.toNat
  leBytes 3 r.sid.toNat ++ [r.ty] ++ leBytes 4 r.pimOffset ++ leBytes 2 flags ++ [r.writer, BitVec.ofNat 8 r.substMode] ++
  leBytes 2 r.freshMs ++ leBytes 2 r.unit ++ leBytes 4 r.rangeMin.toNat ++ leBytes 4 r.rangeMax.toNat ++
  leBytes 4 r.substValue.toNat ++ leBytes 4 r.initValue.toNat

/-- SIGMAP_READ of the active or the shadow image (R202, R413); an image that is not there has nothing to read. -/
def execSigmapRead (c : CallReq) (shadow : Bool) (off len : Nat) (s : State) : Host.Outcome State Fault Refusal :=
  .next (callOn s c 0x03 .none (fun s =>
    if (if shadow then s.ci.shadow == .valid else s.ci.activeValid) then
      (s, .ok, (((if shadow then s.ci.shd else s.ci.act).sigs.flatMap SigRec.bytes).drop off).take len)
    else (s, .refusedPolicy, [])))

/-- RUNTIME_READY: the runtime is up; the watchdog is armed (R415, R452). -/
def execRuntimeReady (c : CallReq) (s : State) : Host.Outcome State Fault Refusal :=
  .next (callOn s c 0x04 .none (fun s =>
    ({ s with rst := { s.rst with runtimeReady := true, wdogArmed := true, wdogEnd := ttcIn s (s.rst.wdogMs.toNat * 1000000) } }, .ok, [])))

/-- SETTINGS_RESET: in STOP; every C field counts as unwritten from the next MODULE reset or power-on (R417). -/
def execSettingsReset (c : CallReq) (s : State) : Host.Outcome State Fault Refusal :=
  .next (callOn s c 0x61 .engineer (fun s =>
    if s.glb.state = .stop then
      (commandRec { s with tk := { s.tk with settingsReset := true } } .notice srcTkmb 0x61 0 c.session, .ok, [])
    else (s, .refusedPolicy, [])))

/-- A byte of a tile's scratchpad; a code half holds its plane's program, and what lies in no part of the program is a free value (R100, R120;
assumption 18). -/
def tileByte (s : State) (n : TileNo) (a : Nat) : Byte :=
  if a < 0x20000 then
    (progByte (tileProg s n (BitVec.ofNat 1 (a / 0x10000))) (a % 0x10000)).getD (Config.codeByte n.val (a / 0x10000) (a % 0x10000))
  else (s.fab.tile n).mem.read a

/-- TILE_DEBUG_READ: refused while DBG_EN is clear (R413). -/
def execTileDebugRead (c : CallReq) (n : TileNo) (addr len : Nat) (s : State) : Host.Outcome State Fault Refusal :=
  .next (callOn s c 0x62 .engineer (fun s =>
    if (s.fab.tile n).dbgEn && decide (addr + len ≤ 0x40000) then (s, .ok, (List.range len).map (fun i => tileByte s n (addr + i)))
    else (s, .refusedPolicy, [])))

/-! ## Key stores (R405 to R407) -/

/-- The fuse slot of a store's root when it is programmed and not revoked (R405, R406). -/
def rootSlot (f : Fuses) (k : KeyStore) : Option Nat :=
  (List.range 4).find? (fun i => nthD f.roots i none == some k.root && !bit f.revoked i)

/-- Whether a key store has the form of R405: MAGIC and zero fields, COUNT 1 to 64, CLASS 0x01 to 0x04 in every record. -/
def storeForm (k : KeyStore) : Bool :=
  k.formOk && !k.keys.isEmpty && decide (k.keys.length ≤ 64) && k.keys.all (fun x => 1 ≤ x.cls && x.cls ≤ 4)

/-- Whether a root that is programmed and not revoked signs a key store, both signatures holding (R67, R404, R405). -/
def storeSigned (s : State) (k : KeyStore) : Bool :=
  (rootSlot s.tk.fuses k).isSome && k.sig.magicOk && k.sig.zero7 == 0 && k.sig.tail == 0 && k.sig.len == 0xD80 && k.sig.keyClass == 0x05 &&
  k.sig.ecdsaOk && k.sig.mldsaOk

/-- The first failing check of a key store (R405). -/
def storeStatus (s : State) (k : KeyStore) : Status :=
  if !storeForm k then .checkFailed
  else if !storeSigned s k then .signatureFailed
  else if k.seq ≤ s.cul.cur.keystoreFloor then .versionFloor
  else .ok

/-- The fuses after a store: a new root in slot 2 or 3, roots revoked by another root's store while one stays (R406). -/
def fuseRoots (f : Fuses) (k : KeyStore) (own : Nat) : Fuses :=
  let f1 := match k.newRoot with
    | some (i, h) => if (i = 2 ∨ i = 3) ∧ nthD f.roots i none = none then { f with roots := setNth f.roots i (some h) } else f
    | none => f
  let rev := f1.revoked ||| (k.revokeRoot &&& ~~~(1#4 <<< own))
  if (List.range 4).any (fun i => (nthD f1.roots i none).isSome && !bit rev i) then { f1 with revoked := rev } else f1

/-- The keys that sign the active objects, each with the number of its image type; 0 the safety parameter block (R407). -/
def activeKeys (s : State) : List (Nat × BitVec 128) :=
  let imgs := ((List.range 5).zip s.cul.boot).map (fun (i, b) =>
    let p := nthD s.upd.slots i ({}, {})
    (i + 1, (if b.slotB then p.2 else p.1).img.sig.keyId))
  (if s.ci.activeValid then [(5, s.ci.act.sig.keyId), (0, s.ci.act.safety.sig.keyId)] else []) ++ imgs.take 4

/-- A new store written: the inactive copy takes it, the floor rises, trusted kernel sessions of revoked keys end, a SECURITY record for each
active object of one (R405, R407). -/
def takeStore (s : State) (k : KeyStore) : State :=
  let gone (id : BitVec 128) : Bool :=
    (match curStore s with
     | some o => o.keys.any (fun x => x.id == id && !x.revoked)
     | none => false) && !k.keys.any (fun x => x.id == id && !x.revoked)
  let own := (rootSlot s.tk.fuses k).getD 0
  let objs := (activeKeys s).filter (fun x => gone x.2)
  let s1 := writeCounters { s with tk := { s.tk with
      fuses := fuseRoots s.tk.fuses k own
      storeA := if s.tk.storeInB then some k else s.tk.storeA
      storeB := if s.tk.storeInB then s.tk.storeB else some k
      storeInB := !s.tk.storeInB } } (fun c => { c with keystoreFloor := k.seq })
  let s2 := (s.tk.sessions.filter (fun x => gone x.keyId)).foldl (fun s x => endSession s x.handle) s1
  objs.foldl (fun s x => record s .security srcTkmb (cFault 0) x.1) s2

end Sys2Proof.Machine
end

