-- ==== Sys2Proof/Machine/AgreeOps.lean ====
section
/-! DEFINITION. Machine/AgreeOps.lean: input agreement, completion masks, votes, mirroring and the transfer set
(14_replica_group, R334 to R340, R349). -/

namespace Sys2Proof.Machine

/-! ## Input deltas (R334) -/

/-- Whether an SID's content is the ACTIVE's alone: MD offload, runtime, ENGINE 2 tasks (R335). -/
def activeOnly (g : ConfImage) (r : SigRec) : Bool :=
  r.writer == 0x41 || r.writer == 0x50 ||
  (match taskRec g r.writer.toNat with
   | some t => t.engine == 2
   | none => false)

/-- Whether an SID is agreed (R335). -/
def agreedSid (g : ConfImage) (r : SigRec) : Bool := r.writer == 0x40 || r.writer == 0x42 || r.writer == 0x44 || activeOnly g r

/-- Whether a staged write waits for agreement rather than being committed by its own member. -/
def isAgreed (g : ConfImage) (sid : Sid) : Bool :=
  match sigRec g sid with
  | some r => agreedSid g r
  | none => false

/-- The content of a PIM word given by a list of values. -/
def wordBytes (sigs : List PubSig) (w : Nat) : List Byte :=
  let here := sigs.filter (fun x => decide (x.off / 32 = w) || decide ((if x.off < 0x400000 then x.off + 32 else x.off + tySize x.ty) / 32 = w))
  (List.range 32).map (fun i => pubByte { ver := 0, sigs := here } (32 * w + i))

/-- A signal's content as its writer last gave it, with the quality code and SIMULATED bit. -/
def dynSig (r : SigRec) (d : SigDyn) : PubSig :=
  { sid := r.sid, off := r.pimOffset, ty := r.t, v := ⟨d.val, mkQ d.code false d.sim false false⟩ }

/-- The agreed signals of an image as the dynamic table holds them. -/
def agreedNow (s : State) : List PubSig :=
  (s.ci.act.sigs.filter (agreedSid s.ci.act)).map (fun r => dynSig r ((dynOf s.pim r.sid).getD (freshDyn r)))

/-- The newest own write of a SID in a list. -/
def lastEnt (l : List StgEnt) (sid : Sid) : Option StgEnt := (l.filter (fun e => e.sid == sid)).getLast?

/-- The content with the member's own receptions over it. -/
def withOwn (l : List StgEnt) (sigs : List PubSig) : List PubSig :=
  sigs.map (fun x => match lastEnt l x.sid with
    | some e => { x with v := ⟨e.val, mkQ e.code false e.sim false false⟩ }
    | none => x)

/-- The PIM words of a list of SIDs in ascending order. -/
def wordsOf (g : ConfImage) (sids : List Sid) : List Nat :=
  sortBy (fun a b => decide (a ≤ b)) ((sids.flatMap (fun sid => match sigRec g sid with
    | some r => sigWords r
    | none => [])).eraseDups)

/-- The word entry of a word, `wr` saying that a write with a value has come: without its bytes when the content is unchanged
(R334). -/
def wordEnt (old new : List PubSig) (wr : List Nat) (w : Nat) : DeltaEnt :=
  let b := wordBytes new w
  if wordBytes old w = b then .word (wr.contains w) true w [] else .word (wr.contains w) false w b

/-- The longest prefix of word entries that fits a number of bytes. -/
def fitEnts : Nat → List DeltaEnt → List DeltaEnt
  | _, [] => []
  | n, e :: es => if e.size ≤ n then e :: fitEnts (n - e.size) es else []

/-- The word of a word entry. -/
def DeltaEnt.wordNo : DeltaEnt → Option Nat
  | .word _ _ w _ => some w
  | _ => none

/-- The completion mask of the instances that end at this boundary (R334). -/
def complMask (l : List Instance) : Reg32 :=
  l.foldl (fun m i => if i.complete && !i.broken && decide (i.task < 32) then setBit m i.task else m) 0

/-- The MIRRORED signals with their content in the dynamic table. -/
def mirroredNow (s : State) : List (Sid × Word × BitVec 4) :=
  (s.ci.act.sigs.filter (·.mirrored)).map (fun r =>
    let d := (dynOf s.pim r.sid).getD (freshDyn r)
    (r.sid, d.val, d.code))

/-- The own delta of boundary k: written words, doorbells, the completion mask, the ACTIVE's marks and topology counters. Words
beyond 12,288 bytes are deferred in ascending order, a signal whole, and counted (R334). -/
def buildDelta (s : State) : State :=
  let g := s.ci.act
  let act := s.grp.role == .active || !s.grp.formed
  let mine := (s.grp.held.filter (fun h => (lastEnt s.grp.ownWrites h.sid).isNone)) ++
    s.grp.ownWrites.filter (fun e => act || (match sigRec g e.sid with
      | some r => !activeOnly g r
      | none => false))
  let sids := (mine.map (·.sid)).eraseDups
  let old := agreedNow s
  let new := withOwn mine old
  let fixed : List DeltaEnt := s.grp.ownBells.map (fun x => .bell x.1 x.2) ++ [.mask (complMask s.grp.ended)] ++
    (if s.grp.role = .active then s.grp.ownMarks.map .mark ++ [.topo s.eth.etbTopo s.eth.opTopo] ++
      (if s.grp.warmAt = some s.cyc.mcc then [.restart (mirroredNow s)] else []) else [])
  let wr := wordsOf g (((mine.filter (fun e => !e.keep)).map (·.sid)).eraseDups)
  let all := (wordsOf g sids).map (wordEnt old new wr)
  let fit := fitEnts (12288 - deltaSize fixed) all
  let kept := fit.filterMap DeltaEnt.wordNo
  let late := sids.filter (fun sid => (wordsOf g [sid]).any (fun w => !kept.contains w))
  let sent := (wordsOf g (sids.filter (fun x => !late.contains x))).map (wordEnt old new wr)
  let cut := all.length - sent.length
  let s1 := { s with
    pim := { s.pim with staging := s.pim.staging ++
      (mine.filter (fun e => late.contains e.sid)).map (fun e => { e with target := e.target + 1 }) }
    grp := { s.grp with
      ownDelta := sent ++ fixed, ownWrites := mine.filter (fun e => !late.contains e.sid), held := [], ownBells := [], ownMarks := []
      deferred := satAdd s.grp.deferred cut } }
  if 0 < cut then
    (if s.grp.overDelta then suppress s1 srcGrp (cRefused .refusedCapacity)
     else record { s1 with grp := { s1.grp with overDelta := true } } .warning srcGrp (cRefused .refusedCapacity) cut)
  else s1

/-- Entries cut into frames of at most 1,024 bytes (R325). -/
def frameCut : Nat → List DeltaEnt → List DeltaEnt → List (List DeltaEnt)
  | _, acc, [] => if acc.isEmpty then [] else [acc.reverse]
  | n, acc, e :: es =>
    if n + e.size ≤ 1024 then frameCut (n + e.size) (e :: acc) es else acc.reverse :: frameCut e.size [e] es

/-- The own delta sent to both peers, DELTA_END last (R334, R335). -/
def sendDelta (s : State) : State :=
  let fs := frameCut 0 [] s.grp.ownDelta
  let s1 := fs.foldl (fun s f => sendPeers s (.delta f)) s
  let s2 := sendPeers s1 (.deltaEnd s.grp.ownDelta.length fs.length)
  let n := deltaSize s.grp.ownDelta
  modBr (modBr (pmuCount s2 12 0x304 (2 * (n / 8))) .left (fun b => { b with deltaTx := n })) .right (fun b => { b with deltaTx := n })

/-! ## Agreement (R335) -/

/-- A member's report of a SID: value, primary code with the SIMULATED bit, written state. -/
structure Report where
  val : Word
  q : Byte
  written : Bool
  deriving DecidableEq, Repr

/-- The word entry of a list of entries. -/
def findWord (es : List DeltaEnt) (w : Nat) : Option (Bool × Bool × List Byte) :=
  es.findSome? (fun e => match e with
    | .word wr same x b => if x = w then some (wr, same, b) else none
    | _ => none)

/-- A member's report of a signal out of its entries; without an entry the content of I_{k-1}, not written (R335). -/
def reportOf (es : List DeltaEnt) (r : SigRec) (old : SigVal) : Report :=
  match findWord es (r.pimOffset / 32) with
  | none => ⟨old.val, old.q, false⟩
  | some (wr, same, b) =>
    let v := if same then old.val else BitVec.ofNat 64 (leNat ((b.drop (r.pimOffset % 32)).take (tySize r.t)))
    let q := match findWord es (qualOff r / 32) with
      | some (_, false, c) => nthD c (qualOff r % 32) 0
      | _ => old.q
    ⟨v, q, wr⟩

/-- The report that more than half of a list gives. -/
def majority [DecidableEq α] (l : List α) : Option α := l.find? (fun x => decide (l.length < 2 * (l.filter (· == x)).length))

/-- The deltas that count at boundary k: the own one and each peer's whose DELTA_END for k with its entry and frame counts has
come (R335). -/
def deltasAt (s : State) (k : Mcc) : List (Nat × List DeltaEnt) :=
  (ownPos s, s.grp.ownDelta) ::
  [GLink.left, .right].filterMap (fun l =>
    let p := s.grp.peer l
    if p.deltaMcc = k ∧ p.deltaEnd = some (p.delta.length, p.frames) then some (peerPos s l, p.delta) else none)

/-- Whether the module agrees with a group that has formed: its own one, or the one whose transfer set it has asked for (R349 step 3). -/
def withGroup (s : State) : Bool := s.grp.formed || s.grp.xferAsked

/-- The members whose reports count: the voting ones, before formation every matched one. -/
def countsIn (s : State) (pos : Nat) : Bool :=
  if withGroup s then (roleAt s.grp.roles pos).voting
  else pos == ownPos s || ((matchedHb s).any (fun h => h.position == pos && h.mcc == s.cyc.mcc))

/-- The agreed content of one signal: the majority's report, or the ACTIVE's alone, or that of I_{k-1}; the second component says
that no majority was found (R335). -/
def agreeOne (s : State) (ds : List (Nat × List DeltaEnt)) (r : SigRec) (old : SigVal) : Report × Bool :=
  let counted := ds.filter (fun d => countsIn s d.1)
  let keep : Report := ⟨old.val, old.q, false⟩
  let ofActive : Report := match ds.find? (fun d => d.1 == activePos s) with
    | some d => reportOf d.2 r old
    | none => keep
  if activeOnly s.ci.act r then (if withGroup s then ofActive else keep, false)
  else match majority (counted.map (fun d => reportOf d.2 r old)) with
    | some x => (x, false)
    | none => (if s.grp.noMajSids.contains r.sid then ofActive else keep, true)

/-- The agreed content of a signal put into the image of boundary k; a written one ends the substitution where tasks run, and the INVALID of a
memory error, as an own write does (R210, R220, R335). -/
def putAgreed (p : Pim) (k : Mcc) (unsub : Bool) (sid : Sid) (x : Report) : Pim :=
  p.modDyn sid (fun d =>
    if x.written then { d with val := x.val, code := qNorm (qCode x.q), sim := bit x.q 5, last := some k, wroteNow := true
                               subst := d.subst && !unsub, bad := false }
    else { d with val := x.val, code := qNorm (qCode x.q), sim := bit x.q 5 })

/-- The median of the counted members' doorbell counts; of two the lower (R335). -/
def medianBell (l : List Nat) : Nat :=
  let o := sortBy (fun a b => decide (a ≤ b)) l
  if o.length = 3 then nthD o 1 0 else o.headD 0

/-- A member's doorbell count for a SID. -/
def bellOf (es : List DeltaEnt) (sid : Sid) : Nat :=
  (es.findSome? (fun e => match e with
    | .bell x n => if x = sid then some n else none
    | _ => none)).getD 0

/-- The agreed doorbells (R335). -/
def agreeBells (s : State) (ds : List (Nat × List DeltaEnt)) : List (Sid × Nat) :=
  let cs := ds.filter (fun d => countsIn s d.1)
  let sids := (cs.flatMap (fun d => d.2.filterMap (fun e => match e with
    | .bell x _ => some x
    | _ => none))).eraseDups
  sids.map (fun sid => (sid, medianBell (cs.map (fun d => bellOf d.2 sid))))

/-- The probation time starts again (R349, R350). -/
def restartProbation (s : State) : State :=
  if s.grp.role = .probation then { s with grp := { s.grp with probLeft := s.ci.act.group.probationS, probWait := s.grp.probWait.filter (· != ownPos s) } } else s

/-- Members newly in input minority: a WARNING record naming each, IN_MINORITY, and the SID marked from the next boundary
(R335). -/
def inputMinority (s : State) (l : List (Nat × Sid)) : State :=
  l.foldl (fun s (pos, sid) =>
    let s1 := { s with grp := { s.grp with
      inMinority := satInc s.grp.inMinority
      minorityNext := if s.grp.minorityNext.contains sid then s.grp.minorityNext else sid :: s.grp.minorityNext } }
    let s2 := record s1 .warning srcGrp (cFault 0) sid.toNat (beBytes 1 pos)
    if pos = ownPos s then restartProbation s2 else s2) s

/-- The ACTIVE's restart values of the MIRRORED signals taken at the boundary of a START_WARM (R340). -/
def takeRestart (s : State) (k : Mcc) (ds : List (Nat × List DeltaEnt)) : State :=
  let l : List (Sid × Word × BitVec 4) := match ds.find? (fun d => d.1 == activePos s) with
    | some d => (d.2.findSome? (fun e => match e with
      | DeltaEnt.restart l => some l
      | _ => none)).getD []
    | none => []
  if s.grp.warmAt = some k then
    { s with pim := l.foldl (fun (p : Pim) (x : Sid × Word × BitVec 4) => p.modDyn x.1 (fun d => { d with val := x.2.1, code := x.2.2 })) s.pim
             grp := { s.grp with warmAt := none } }
  else s

/-- The INFO record of topology counters that the agreement changes on a member (R271, R335). -/
def topoNote (was s : State) : State :=
  if was.eth.etbTopo = s.eth.etbTopo ∧ was.eth.opTopo = s.eth.opTopo then s
  else record s .info Port.ecnA.src (cChange 9) 0 (beBytes 4 s.eth.etbTopo.toNat)

/-- The agreement of boundary k over the values: agreed content, doorbells, WRITE_FAILED marks, topology counters, input
minorities; an own reception that was outvoted is reported once more (R335). -/
def agreeInputs (s : State) (k : Mcc) : State :=
  let g := s.ci.act
  let ds := deltasAt s k
  let touched := g.sigs.filter (fun r => agreedSid g r && ds.any (fun d => (findWord d.2 (r.pimOffset / 32)).isSome || (findWord d.2 (qualOff r / 32)).isSome))
  let old := fun (r : SigRec) => (dynSig r ((dynOf s.pim r.sid).getD (freshDyn r))).v
  let res : List (SigRec × (Report × Bool)) := touched.map (fun r => (r, agreeOne s ds r (old r)))
  let s1 := { s with pim := res.foldl (fun (p : Pim) (x : SigRec × (Report × Bool)) => putAgreed p k (s.glb.state == .run || s.glb.state == .hold) x.1.sid x.2.1) s.pim }
  let diff := res.flatMap (fun (r, x) => if activeOnly g r then [] else
    (ds.filter (fun d => reportOf d.2 r (old r) != x.1)).map (fun d => (d.1, r.sid)))
  let minor := diff.filter (fun d => s.grp.diffs.contains d)
  let heldNow := s.grp.ownWrites.filter (fun e => diff.contains (ownPos s, e.sid) && !s.grp.diffs.contains (ownPos s, e.sid))
  let marks : Option (List Sid) := (ds.find? (fun d => d.1 == activePos s)).map (fun d => d.2.filterMap (fun e => match e with
      | DeltaEnt.mark x => some x
      | _ => none))
  let topo : Option (Reg32 × Reg32) := match ds.find? (fun d => d.1 == activePos s) with
    | some d => d.2.findSome? (fun e => match e with
      | DeltaEnt.topo a b => some (a, b)
      | _ => none)
    | none => none
  let s2 := { s1 with
    pim := match marks with
      | some l => { s1.pim with dyn := s1.pim.dyn.map (fun d => { d with wf := l.contains d.sid }) }
      | none => s1.pim
    eth := match topo with
      | some (a, b) => { s1.eth with etbTopo := a, opTopo := b }
      | none => s1.eth
    grp := { s1.grp with
      noMajSids := (res.filter (fun x => x.2.2)).map (fun x => x.1.sid)
      diffs := diff, held := heldNow, ownWrites := []
      minoritySids := s1.grp.minoritySids.filter (fun x => diff.any (fun d => d.2 == x))
      minorityNext := s1.grp.minorityNext.filter (fun x => diff.any (fun d => d.2 == x))
      agreedBells := agreeBells s ds } }
  inputMinority (takeRestart (topoNote s1 s2) k ds) minor

/-! ## Completion (R337) -/

/-- A member's completion mask in its delta. -/
def maskOf (es : List DeltaEnt) : Reg32 :=
  (es.findSome? (fun e => match e with
    | .mask m => some m
    | _ => none)).getD 0

/-- An overrun of an instance that the members share: counted and reacted to, for a safety task the island safe state with cause
0x03; outputs that this member had committed go back to what they were (R182, R183, R337, R388). -/
def sharedOverrun (s : State) (r : TaskRec) (i : Instance) : State :=
  let outs := (s.ci.act.sigs.filter (fun x => x.writer.toNat == r.id)).map (·.sid)
  let s0 := if i.complete && !i.broken then
      { s with pim := { s.pim with dyn := s.pim.dyn.map (fun d =>
          if outs.contains d.sid then (s.grp.prevDyn.find? (fun x => x.sid == d.sid)).getD d else d) } }
    else s
  let s1 := overrun s0 r i.rel
  let s2 := if (nthD s1.glb.tasks r.id {}).substNow then substOutputs s1 r.id else s1
  if r.engine = 1 then enterIsland s2 0x03 false else s2

/-- One instance that ended at boundary k judged by the masks of the counted members (R337). -/
def judgeInst (s : State) (masks : List (Nat × Reg32)) (i : Instance) : State :=
  match taskRec s.ci.act i.task with
  | none => s
  | some r =>
    let own := i.complete && !i.broken
    let n := masks.length
    let c := (masks.filter (fun m => bit m.2 r.id)).length
    let outOfStep (s : State) : State :=
      record { s with grp := { s.grp with outDue := true } } .error srcGrp (cFault 0) r.id
    if n < 2 * c then
      (if own then noteComplete s r i
       else outOfStep { s with glb := modTask s.glb r.id (fun t => { t with ovrCnt := satInc t.ovrCnt }) })
    else if n < 2 * (n - c) then (if own then outOfStep s else sharedOverrun s r i)
    else sharedOverrun s r i

/-- The completion masks of boundary k compared (R337). -/
def judgeCompletion (s : State) (k : Mcc) : State :=
  if !judgedByGroup s then { s with grp := { s.grp with ended := [] } }
  else
    let masks := ((deltasAt s k).filter (fun d => countsIn s d.1)).map (fun d => (d.1, maskOf d.2))
    let s1 := s.grp.ended.foldl (fun s i => judgeInst s masks i) s
    { s1 with grp := { s1.grp with ended := [] } }

/-! ## Votes (R338, R339) -/

/-- The own votes of the minor cycle: every VOTED signal whose writer's period ends at the next boundary, out of what its complete
instance staged, its value extended by its sign, and the safe-output commands under SID 0 when FUNC_TASK's period ends there (R338, R370, R381). -/
def ownVotes (s : State) : List VoteEnt :=
  let m := nextMcc s
  let ends := fun (task : Nat) => s.glb.inst.any (fun i => i.task == task && i.fin == m && i.complete && !i.broken)
  let es := (s.ci.act.sigs.filter (fun r => r.voted && ends r.writer.toNat)).filterMap (fun r =>
    if s.safe.codeFailed.contains r.writer.toNat then some (⟨r.sid, qInvalid, imgValue r.t r.substValue⟩ : VoteEnt)
    else (lastEnt (s.pim.staging.filter (fun e => e.target == m)) r.sid).map (fun e => ⟨r.sid, e.code, retype r.t e.val⟩))
  let so : List VoteEnt := if ends s.ci.act.safety.funcTask then
      [⟨0, qGood, (if soCommand s 0 (demandStaged s 0) then 1 else 0) + (if soCommand s 1 (demandStaged s 1) then 2 else 0)⟩]
    else []
  es ++ so

/-- The voting members at a release point, but one known to have failed (R339, R347). -/
def votingNow (s : State) : List Nat :=
  (voters (match s.grp.due with
    | some d => if d.swap then s.grp.roles else d.roles
    | none => s.grp.roles)).filter (fun p => roleAt s.grp.roles p |>.voting)

/-- The image hash a member runs: the own one, or what its last heartbeat shows; without a heartbeat it counts as the own one (R23, R331). -/
def hashOf (s : State) (pos : Nat) : Hash :=
  if pos = ownPos s then s.ci.act.hdr.imageHash
  else match (s.grp.peer (linkTo (ownPos s) pos)).hb with
    | some h => h.hash
    | none => s.ci.act.hdr.imageHash

/-- The hash whose members vote: that of two other members where they share one that is not the own, else the own (R23, R95). -/
def voteHash (s : State) : Hash :=
  let own := s.ci.act.hdr.imageHash
  match (votingNow s).filter (· != ownPos s) with
  | [p, q] => if hashOf s p = hashOf s q then hashOf s p else own
  | _ => own

/-- The members that count at a release point: the voting members whose hashes match; members whose hashes differ do not vote together (R23,
R339). -/
def votersNow (s : State) : List Nat := (votingNow s).filter (fun p => hashOf s p == voteHash s)

/-- A member's vote on a SID; none while it is missing. -/
def voteOf (s : State) (pos : Nat) (sid : Sid) : Option VoteEnt :=
  let l := if pos = ownPos s then some s.grp.ownVotes
    else
      let p := s.grp.peer (linkTo (ownPos s) pos)
      if p.votesMcc = s.cyc.mcc then p.votes else none
  match l with
  | some es => es.find? (fun e => e.sid == sid)
  | none => none

/-- The decision on one SID: the committed vote, or none without a majority; with one member its own (R339). -/
def decideOne (s : State) (vs : List Nat) (sid : Sid) : Option VoteEnt :=
  match vs with
  | [p] => voteOf s p sid
  | _ => match majority (vs.map (fun p => voteOf s p sid)) with
    | some (some e) => some e
    | _ => none

/-- A SID that the members vote on this cycle. -/
def votedSids (s : State) (vs : List Nat) : List Sid :=
  (vs.flatMap (fun p =>
    if p = ownPos s then s.grp.ownVotes.map (·.sid)
    else
      let x := s.grp.peer (linkTo (ownPos s) p)
      if x.votesMcc = s.cyc.mcc then (x.votes.getD []).map (·.sid) else [])).eraseDups

/-- The safe state that every voted signal takes without a majority (R339, R387). -/
def voteSafe (s : State) (sids : List Sid) : List VoteEnt :=
  sids.map (fun sid => match sigRec s.ci.act sid with
    | some r => ⟨sid, qVoteMinority, imgValue r.t r.substValue⟩
    | none => ⟨sid, qGood, 0⟩)

/-- A vote minority of a member counted: a WARNING record naming it; at two release points in a row a failure (R339, R344). -/
def noteMinority (s : State) (pos : Nat) (minor : Bool) : State :=
  if pos = ownPos s then
    (if minor then
      let s1 := { s with grp := { s.grp with minorities := satInc s.grp.minorities, ownMinority := s.grp.ownMinority + 1 } }
      record s1 .warning srcGrp (cFault 0) pos
     else { s with grp := { s.grp with ownMinority := 0 } })
  else
    let l := linkTo (ownPos s) pos
    if minor then
      let s1 := modPeer { s with grp := { s.grp with minorities := satInc s.grp.minorities } } l (fun p => { p with minority := p.minority + 1 })
      let s2 := record s1 .warning srcGrp (cFault 0) pos
      if 2 ≤ (s2.grp.peer l).minority && mayDeclare s2 pos false then declareFailed s2 pos else s2
    else modPeer s l (fun p => { p with minority := 0 })

/-- A member in PROBATION whose vote differs from what is committed starts its probation time again (R339, R350). -/
def compareProbation (s : State) (ds : List VoteEnt) : State :=
  if s.grp.role = .probation && ds.any (fun d => voteOf s (ownPos s) d.sid != some d) then restartProbation s else s

/-- The decision of a release point: the votes committed at the next boundary, minorities, the safe state without a majority, and
on a member in PROBATION the comparison of its own vote (R339, R349, R388). -/
def decideVotes (s : State) : State :=
  let vs := votersNow s
  let sids := votedSids s vs
  let ds := sids.map (fun sid => (sid, decideOne s vs sid))
  let s0 := { s with grp := { s.grp with decided := some (ds.filterMap (·.2)), decidedNone := false } }
  if sids.isEmpty then { s with grp := { s.grp with decided := none, decidedNone := false } }
  else if vs.length = 1 then compareProbation s0 (ds.filterMap (·.2))
  else if ds.all (fun d => d.2.isSome) then
    compareProbation (if vs.length = 3 then
        vs.foldl (fun s p => noteMinority s p (ds.any (fun d => voteOf s p d.1 != d.2))) s0
      else vs.foldl (fun s p => noteMinority s p false) s0) (ds.filterMap (·.2))
  else
    let s1 := { s with grp := { s.grp with
      decided := some (voteSafe s sids), decidedNone := true, noMajority := satInc s.grp.noMajority } }
    enterIsland (compareProbation s1 (voteSafe s sids)) 0x02 false

/-- The staged writes with the voted values in their place; a voted signal for which this member staged nothing is committed as voted too (R339). -/
def applyVotes (s : State) (k : Mcc) : State :=
  match s.grp.decided with
  | none => s
  | some vs =>
    let own (e : StgEnt) : Bool := atOrBefore e.target k && e.inst.isSome
    let more := vs.filterMap (fun v => match sigRec s.ci.act v.sid with
      | some r => if s.pim.staging.any (fun e => own e && e.sid == v.sid) then none
                  else some ({ sid := v.sid, val := rawOf r.t v.val, code := v.code, sim := false, target := k, owner := .fabric } : StgEnt)
      | none => none)
    { s with
      pim := { s.pim with staging := s.pim.staging.map (fun e =>
        match vs.find? (fun v => v.sid == e.sid && own e), sigRec s.ci.act e.sid with
        | some v, some r => { e with val := rawOf r.t v.val, code := v.code }
        | _, _ => e) ++ more }
      grp := { s.grp with decided := none } }

/-! ## Mirroring (R340) -/

/-- The signals of a buffer as the words of the PIM. -/
def bufSigs (g : ConfImage) (l : List (Sid × Word × BitVec 4)) : List PubSig :=
  l.filterMap (fun (sid, v, c) => (sigRec g sid).map (fun r =>
    { sid, off := r.pimOffset, ty := r.t, v := ⟨v, mkQ c false false false false⟩ }))

/-- Whether a mirror has been completely sent at boundary k: 256 words of 32 bytes go in each minor cycle (R340). -/
def mirrorSent (m : MirrorRun) (k : Mcc) : Bool := atOrBefore (m.at_ + BitVec.ofNat 32 (ceilDiv m.words 256)) k

/-- A mirror begun at boundary k when one is due: the first major cycle boundary after formation or after the mirror before it
was sent (R340). -/
def mirrorStart (s : State) (k : Mcc) : State :=
  if s.grp.formed && isMajor s.ci.act k && (match s.grp.mirror with
      | some m => mirrorSent m k
      | none => true) && s.ci.act.sigs.any (·.mirrored) then
    let buf := mirroredNow s
    let sigs := bufSigs s.ci.act buf
    let ws := wordsOf s.ci.act (buf.map (·.1))
    { s with grp := { s.grp with mirror := some {
        at_ := k, buf, words := ws.length, left := if s.grp.role = .active then ws.map (fun w => (w, wordBytes sigs w)) else [] } } }
  else s

/-- Words sent to both peers as MIRROR frames (R327, R340). -/
def sendMirror (s : State) (es : List DeltaEnt) : State := (frameCut 0 [] es).foldl (fun s f => sendPeers s (.mirror f)) s

/-- At most 8 KiB of the mirror sent by the ACTIVE in this minor cycle (R340). -/
def mirrorSend (s : State) : State :=
  match s.grp.mirror with
  | some m =>
    if s.grp.role = .active then
      let s1 := sendMirror s ((m.left.take 256).map (fun (w, b) => DeltaEnt.word false false w b))
      { s1 with grp := { s1.grp with mirror := some { m with left := m.left.drop 256 } } }
    else s
  | none => s

/-- The contents of the own buffer that a member's words give otherwise (R340). -/
def mirrorDiff (g : ConfImage) (m : MirrorRun) (es : List DeltaEnt) : List (Sid × Word × BitVec 4) :=
  m.buf.filterMap (fun (sid, v, c) => match sigRec g sid with
    | none => none
    | some r =>
      let x := reportOf es r ⟨v, mkQ c false false false false⟩
      if (findWord es (r.pimOffset / 32)).isSome || (findWord es (qualOff r / 32)).isSome then
        (if x.val = v ∧ qCode x.q = c then none else some (sid, x.val, qCode x.q)) else none)

/-- Mirror words of a member compared with the own buffer, by position; those of the ACTIVE count as come (R340). -/
def mirrorNote (s : State) (pos : Nat) (es : List DeltaEnt) : State :=
  match s.grp.mirror with
  | none => s
  | some m =>
    let found := (mirrorDiff s.ci.act m es).map (fun x => (pos, x))
    { s with grp := { s.grp with mirror := some { m with
        diff := found ++ m.diff.filter (fun d => !found.any (fun f => f.1 == d.1 && f.2.1 == d.2.1))
        got := if pos = activePos s then (m.got ++ es.filterMap DeltaEnt.wordNo).eraseDups else m.got } } }

/-- The own words that differ from those that the ACTIVE's frame gives, reported to both peers (R340, assumption 119). -/
def mirrorReport (s : State) (es : List DeltaEnt) : State :=
  match s.grp.mirror with
  | none => s
  | some m =>
    let sigs := bufSigs s.ci.act m.buf
    let ws := (wordsOf s.ci.act ((mirrorDiff s.ci.act m es).map (·.1))).filter (fun w => (findWord es w).isSome)
    if ws.isEmpty then s else sendMirror s (ws.map (fun w => DeltaEnt.word false false w (wordBytes sigs w)))

/-- Mirror words received from a position: the ACTIVE's are compared and the own differences reported, a report is noted (R340). -/
def mirrorTake (s : State) (pos : Nat) (es : List DeltaEnt) : State :=
  if pos = activePos s then mirrorReport (mirrorNote s pos es) es else mirrorNote s pos es

/-- The content of a mirrored signal that more than half of the voting members hold, else the ACTIVE's; a member that reported no difference holds the
ACTIVE's (R340). -/
def mirrorContent (s : State) (m : MirrorRun) (sid : Sid) (own : Word × BitVec 4) : Word × BitVec 4 :=
  let said (p : Nat) : Option (Word × BitVec 4) := (m.diff.find? (fun d => d.1 == p && d.2.1 == sid)).map (fun d => (d.2.2.1, d.2.2.2))
  let ofActive := (said (activePos s)).getD own
  let held (p : Nat) : Word × BitVec 4 := if p = ownPos s then own else (said p).getD ofActive
  (majority ((voters s.grp.roles).map held)).getD ofActive

/-- Whether every word of a mirror has come to this member, or gone out of the ACTIVE (R340). -/
def mirrorWhole (s : State) (m : MirrorRun) : Bool := if s.grp.role = .active then m.left.isEmpty else m.got.length == m.words

/-- The signals that a complete mirror found to differ corrected at a major cycle boundary, each with a WARNING record on the member that
changes (R340). -/
def mirrorApply (s : State) (k : Mcc) : State :=
  match s.grp.mirror with
  | some m =>
    if mirrorWhole s m && isMajor s.ci.act k && before m.at_ k then
      m.buf.foldl (fun s (sid, v, c) =>
        let x := mirrorContent s m sid (v, c)
        if x = (v, c) then s
        else record { s with pim := s.pim.modDyn sid (fun d => { d with val := x.1, code := x.2 }) } .warning srcGrp (cFault 0) sid.toNat)
        { s with grp := { s.grp with mirror := some { m with diff := [] } } }
    else s
  | none => s

/-! ## Transfer set (R349, R394) -/

/-- The island's state as the transfer set carries it (R394). -/
def islandOf (f : Safe) : IslandState :=
  { ssvState := f.ssvState, agreeUs := f.agreeUs, ssmUs := f.ssmUs, ssmRun := f.ssmRun, da := f.da, dl := f.dl, sldRef := f.sldRef
    rollaway := f.rollaway, cause := f.cause, soLatch := f.so.map (fun o => (o.faultHigh, o.faultLow)), siFault := f.si.map (·.fault)
    discUs := f.discUs }

/-- The island's state taken from a transfer set; an output that the taken state does not permit is off (R381, R387, R394). -/
def takeIsland (f : Safe) (i : IslandState) : Safe :=
  { f with
    ssvState := i.ssvState, agreeUs := i.agreeUs, ssmUs := i.ssmUs, ssmRun := i.ssmRun, da := i.da, dl := i.dl, sldRef := i.sldRef
    rollaway := i.rollaway, cause := i.cause
    so := (f.so.zip i.soLatch).map (fun (o, l) => { o with faultHigh := l.1, faultLow := l.2, cmd := o.cmd && i.cause == 0 && !l.1 && !l.2 })
    si := (f.si.zip i.siFault).map (fun (p, x) => { p with fault := x })
    discUs := i.discUs }

/-- The targets that are held until their boundary: of a mode command, of force commands, of a time step, of a role swap, of MAINTENANCE, of a latent
mark to clear, of a SAFE_ACK (R186, R349). -/
def pendTargets (s : State) : List (Mcc × TargetArg) :=
  (s.glb.pendCmd.toList.map (fun c => (s.glb.tgtMcc, .mode c))) ++ s.glb.forceCmds.map (fun c => (c.eff, .force [c])) ++
  s.tb.stepDue.toList.map (fun d => (d.target, .timeStep d.refusedCase d.keyId)) ++ s.grp.swapDue.toList.map (fun m => (m, .roleSwap)) ++
  s.grp.maintDue.toList.map (fun (m, on) => (m, if on then .maintEnter else .maintLeave)) ++
  s.grp.latentDue.toList.map (fun (m, p) => (m, .clearLatent p)) ++ s.safe.ackDue.toList.map (fun m => (m, .safeAck))

/-- The transfer set of the present boundary (R349). -/
def transferSet (s : State) : List XferPart :=
  [ .counts s.cyc.mcc s.grp.rotSeq s.grp.rotLeft s.grp.latent, .forces s.glb.forces, .image s.pim.dyn
  , .values ((s.ci.act.sigs.filter (fun r => r.mirrored || r.retained)).map (fun r =>
      let d := (dynOf s.pim r.sid).getD (freshDyn r)
      (r.sid, d.val, d.code)))
  , .events ((List.range 16).map (fun i => (i, (nthD s.glb.evts i {}).queue)))
  , .targets (pendTargets s), .island (islandOf s.safe), .counters s.safe.sdtCounters ]

/-- A part of the transfer set cut so that each piece fits a frame of at most 1,024 bytes behind its 8 bytes of offset (R325, R327). -/
def cutPart : XferPart → List XferPart
  | .forces l => (pieces 63 l).map .forces
  | .image l => (pieces 31 l).map .image
  | .values l => (pieces 63 l).map .values
  | .events l => l.flatMap (fun x => (pieces 41 x.2).map (fun q => .events [(x.1, q)]))
  | .targets l => (pieces 31 l).map .targets
  | .counters l => (pieces 127 l).map .counters
  | p => [p]

/-- Parts with their OFFSET in the set (R327). -/
def withOffsets : Nat → List XferPart → List (Nat × XferPart)
  | _, [] => []
  | n, p :: ps => (n, p) :: withOffsets (n + p.size) ps

/-- What is dated by the own count moved with it when the member takes the group's: ages, targets, slices and the due boundaries keep their
distance (R148, R343). -/
def shiftMcc (s : State) (d : Mcc) : State :=
  let ent (e : StgEnt) : StgEnt := { e with target := e.target + d }
  { s with
    pim := { s.pim with
      dyn := s.pim.dyn.map (fun x => { x with last := x.last.map (· + d) })
      staging := s.pim.staging.map ent }
    cyc := { s.cyc with due := s.cyc.due.map (· + d), lostMcc := s.cyc.lostMcc + d }
    mvb := { s.mvb with begun := s.mvb.begun.map (fun x => (x.1 + d, x.2)) }
    gw := { s.gw with slices := s.gw.slices.map (fun x => { x with mcc := x.mcc + d }) }
    tb := { s.tb with stepDue := s.tb.stepDue.map (fun x => { x with target := x.target + d }) }
    pmu := { s.pmu with next := s.pmu.next.map (· + d) }
    ci := { s.ci with swapMcc := if s.ci.swapDue then s.ci.swapMcc + d else s.ci.swapMcc } }

/-- One part of the set taken by a returning member: the counts come first and begin it, and the pieces of a list add up (R349, assumption 198). The group's count is adopted at the member's next boundary, which the source's
heartbeats date (R148), before it judges the targets of that boundary; until then the ages and the time step of the set are dated by the own count. -/
def takePart (s : State) (l : GLink) (p : XferPart) : State :=
  let ahead := countAhead s
  match p with
  | .counts m seq left lat =>
      let now := match (s.grp.peer l).hb with
        | some h => if atOrBefore m h.mcc then h.mcc else m
        | none => m
      { s with
        grp := { s.grp with
          rotSeq := seq, rotLeft := left, latent := lat, xferMcc := some m, adoptDue := some (s.cyc.mcc + 1, now + 1) }
        glb := { s.glb with forces := [], forceCmds := [], evts := s.glb.evts.map (fun e => { e with queue := [] }) }
        safe := { s.safe with sdtCounters := [] } }
  | .forces l => { s with glb := { s.glb with forces := s.glb.forces ++ l } }
  | .image l => { s with pim := l.foldl (fun p d => p.modDyn d.sid (fun _ => { d with last := d.last.map (· - ahead) })) s.pim }
  | .values l => { s with pim := l.foldl (fun p (sid, v, c) => p.modDyn sid (fun d => { d with val := v, code := c })) s.pim }
  | .events l => { s with glb := l.foldl (fun g (n, q) => modEvt g n (fun e => { e with queue := e.queue ++ q })) s.glb }
  | .targets l => l.foldl (fun s x => holdTarget s x.1 x.2) s
  | .island i => { s with safe := takeIsland s.safe i }
  | .counters l => { s with safe := { s.safe with sdtCounters := s.safe.sdtCounters ++ l } }

/-! ## The ACTIVE's boundary times (R333) -/

/-- What a member of a group does with the ACTIVE's heartbeat of its own running boundary: its skew, judged at four boundaries in a row; the
ACTIVE's BTTC as reference while the own one is absent or lost; the ACTIVE's rotation count (R333, R351). -/
def judgeSkew (s : State) (p : HbPay) : State :=
  if p.role ≠ .active ∨ s.grp.role = .active ∨ !s.grp.formed then s
  else
    let k := (s.cyc.bttc - p.bttc).toInt
    let far := decide (10000 < k.natAbs)
    let run := if far then s.grp.skewRun + 1 else 0
    let own := s.cyc.refPresent && !(s.cyc.syncLost && p.captured)
    let s1 := { s with grp := { s.grp with skew := k, skewRun := run, rotLeft := p.rotLeft, activeRef := own } }
    let s2 := if own then s1 else lendReference s1 k
    if 4 ≤ run && (s.grp.role.voting || s.grp.role == .probation) then
      record { s2 with grp := { s2.grp with outDue := true, skewRun := 0 } } .warning srcGrp (cFault 0) (ownPos s)
    else s2

/-- The heartbeat of the ACTIVE that came before this member's own boundary, judged there (R333). -/
def heldHb (s : State) : State :=
  [GLink.left, .right].foldl (fun s l => match (s.grp.peer l).hb with
    | some p => if p.mcc = s.cyc.mcc then judgeSkew s p else s
    | none => s) s

/-! ## The commit of a swap (R94) -/

/-- The time to the start of boundary m in ns, its cycles after the present one counted at T_base. -/
def nsToMcc (s : State) (m : Mcc) : Int := nsToBoundary s + sdiff m (nextMcc s) * (tbaseNs s : Nat)

/-- The ACTIVE commits its proposal on both ring paths (R94 step 4). -/
def commitSwap (s : State) (x : SwapRun) : State :=
  let s1 := { s with
    grp := { s.grp with swap := some { x with committed := true, inTime := true } }
    ci := { s.ci with swap := .committed, swapMcc := x.target, swapDue := true } }
  sendEvery s1 (.commit x.hash x.target)

/-- The voting members other than this one. -/
def presentPeers (s : State) : List GLink := [GLink.left, .right].filter (fun l => (roleAt s.grp.roles (peerPos s l)).voting)

/-- The ACTIVE commits once every present member has accepted, no later than 10 ms before the target (R94 step 4). -/
def acceptedAll (s : State) : State :=
  match s.grp.swap with
  | some x =>
    if s.grp.role = .active && !x.committed && s.ci.swap == .proposed && (presentPeers s).all (fun l => (s.grp.peer l).accepted) &&
        decide (10000000 ≤ nsToMcc s x.target) then commitSwap s x else s
  | none => s

/-! ## What a boundary does to the group -/

/-- A member's own MCC set to the group's at its boundary (R148, R343). -/
def adoptMcc (s : State) : State :=
  match s.grp.adoptDue with
  | some (at_, v) =>
    if s.cyc.mcc = at_ then
      let s1 := shiftMcc s (v - at_)
      { s1 with cyc := { s1.cyc with mcc := v }, grp := { s1.grp with adoptDue := none } }
    else s
  | none => s

/-- Instances that end at a repeated release are discarded without an overrun, and so are the outputs of handlers that would be
committed there (R347). -/
def repeatRelease (s : State) (k : Mcc) : State :=
  { s with
    grp := { s.grp with repeats := satInc s.grp.repeats }
    glb := { s.glb with
      handOuts := [], inst := s.glb.inst.map (fun i => if atOrBefore i.fin k then { i with discard := true } else i) } }

/-- A proposal that was not committed ends with a takeover; the new ACTIVE proposes again (R97). -/
def abortProposal (s : State) : State :=
  match s.grp.swap with
  | some x =>
    if x.committed then s
    else record { s with grp := { s.grp with swap := none }, ci := { s.ci with swap := .aborted } } .notice srcGlb (cRefused .timeout) 0
  | none => s

/-- The roles due at boundary k taken: a takeover counted and recorded, its release repeated when recognised late; a planned
swap's ROT_SEQ and drive check begun (R344, R346, R347, R351 to R353). -/
def rolesDue (s : State) (k : Mcc) : State :=
  match s.grp.due with
  | none => s
  | some d =>
    if !atOrBefore d.at_ k then s
    else
      let old := s.grp.roles
      let seq := s.grp.rotSeq
      let s1 := { s with grp := { s.grp with due := none, mirror := if d.takeover then none else s.grp.mirror } }
      let s2 := if d.rotate then { s1 with grp := { s1.grp with
          rotSeq := seq + 1, rotLeft := BitVec.ofNat 32 s1.ci.act.group.rotateMin } } else s1
      let s3 := if d.marked ≠ 0 then { s2 with grp := { s2.grp with
          latent := setBit s2.grp.latent (d.marked - 1)
          latentSerial := setNth s2.grp.latentSerial (d.marked - 1)
            (if d.marked = ownPos s then s2.tk.fuses.serial
             else match (s2.grp.peer (linkTo (ownPos s) d.marked)).hb with
               | some h => h.serial
               | none => 0) } } else s2
      let s4 := setRoles s3 (if d.rotate then assignRoles s3.grp.rotSeq s3.grp.latent (voters old) old else d.roles)
      let s5 := if d.swap && !d.undo then { s4 with grp := { s4.grp with check := some { at_ := k, oldRoles := old, oldSeq := seq } } } else s4
      if d.takeover then
        let s6 := record { (abortProposal s5) with grp := { (abortProposal s5).grp with takeovers := satInc s5.grp.takeovers, lastTo := k } } .notice srcGrp (cState s5.grp.state.num) (activePos s5)
        if d.repeat_ then repeatRelease s6 k else s6
      else s5

/-- MAINTENANCE entered or left at its target (R355); a probation that ended meanwhile is then followed by new roles. -/
def maintDue (s : State) (k : Mcc) : State :=
  match s.grp.maintDue with
  | some (at_, en) =>
    if atOrBefore at_ k then
      record { s with grp := { s.grp with
        maintDue := none
        state := if en then (if s.grp.state = .nominal then .maintenance else s.grp.state)
                 else if s.grp.state = .maintenance then .nominal else s.grp.state } } .info srcGrp (cState (if en then 4 else 1)) (ownPos s)
    else s
  | none => s

/-- A latent mark cleared at its target (R353, R355). -/
def clearLatentDue (s : State) (k : Mcc) : State :=
  match s.grp.latentDue with
  | some (at_, p) => if atOrBefore at_ k then { s with grp := { s.grp with latentDue := none, latent := clrBit s.grp.latent (p - 1) } } else s
  | none => s

/-- A rotation or role swap at its target (R351): three or two members by the next permutation. -/
def rotateDue (s : State) (k : Mcc) : State :=
  match s.grp.swapDue with
  | some at_ =>
    if atOrBefore at_ k then
      let d : RolesDue := { at_ := k, roles := s.grp.roles, rotate := true, swap := true }
      rolesDue { s with grp := { s.grp with swapDue := none, due := some d } } k
    else s
  | none => s

/-- The roles assigned anew at the next major cycle boundary once a probation has ended; a change of the ACTIVE is a planned
swap with its drive check (R349 step 5). -/
def reassign (s : State) (pos : Nat) : State :=
  let roles := assignRoles s.grp.rotSeq s.grp.latent (pos :: voters s.grp.roles) s.grp.roles
  let act := fun (l : List GRole) => ([1, 2, 3].filter (fun p => roleAt l p == .active)).head?
  { s with grp := { s.grp with due := some { at_ := majorFrom s.ci.act (nextMcc s), roles, swap := act roles != act s.grp.roles } } }

/-- Probations that ended behind a rotation or in MAINTENANCE (R355, R358). -/
def probWaiting (s : State) : State :=
  match s.grp.probWait with
  | p :: ps =>
    if s.grp.due.isSome || s.grp.swapDue.isSome || s.grp.state == .maintenance then s
    else
      let s1 := { s with grp := { s.grp with probWait := ps } }
      if roleAt s.grp.roles p == .probation then reassign s1 p else s1
  | [] => s

/-- What boundary k does to the group before the commit: the MCC adopted, roles, OUT, MAINTENANCE, rotation, formation, marks of
the cycle before; a proposal that only a member now absent had not accepted is committed (R94), and a heartbeat that came early judged. -/
def groupBoundary (s : State) (k : Mcc) : State :=
  if !inGroup s then s
  else
    let s1 := rolesDue s k
    let s2 := if s1.grp.outDue && s1.grp.role != .out then goOut s1 else { s1 with grp := { s1.grp with outDue := false } }
    let s3 := rotateDue (maintDue (clearLatentDue s2 k) k) k
    let s4 := probWaiting (if formsNow s3 then formGroup s3 else s3)
    let s5 := modBr (modBr s4 .left (fun b => { b with crcRun := 0 })) .right (fun b => { b with crcRun := 0 })
    heldHb (acceptedAll (mirrorApply { s5 with grp := { s5.grp with
      minoritySids := (s5.grp.minorityNext ++ s5.grp.minoritySids).eraseDups, minorityNext := []
      overDelta := s5.grp.overDelta && !isMajor s.ci.act k
      observed := 0, observedHb := s5.grp.observed
      firstOp := match s5.grp.firstOp with
        | some x => some x
        | none => some s.cul.optime.toNat } } k))

end Sys2Proof.Machine
end

