-- ==== Sys2Proof/Machine/RemoteOps.lean ====
section
/-! DEFINITION. Machine/RemoteOps.lean: semaphores over ranges, the group links' remote access, and what a RETRY does
(12_legacy_buses_and_gateway, R298, R299; 14_replica_group, R329, R357). -/

namespace Sys2Proof.Machine

/-! ## Semaphores (R299) -/

/-- SEM of an access that runs under no semaphore (R297). -/
def semNone : Nat := 0xFF

/-- What a semaphore bank says to an access. -/
inductive SemAns where
  | go | retry | timeout
  deriving DecidableEq, Repr

/-- Whether a range overlaps one held under another semaphore of the same unit. -/
def semBlocks (l : List Sema) (unit sem first last : Nat) : Bool :=
  ((List.range l.length).zip l).any (fun (i, x) =>
    x.held && i != sem && x.unit == unit && decide (x.first ≤ last) && decide (first ≤ x.last))

/-- An access under a semaphore number: TIMEOUT once it has been revoked, RETRY while another semaphore covers the range (R299). -/
def semCheck (l : List Sema) (unit sem first last : Nat) : SemAns :=
  if sem < l.length ∧ (nthD l sem {}).revoked = true then .timeout
  else if semBlocks l unit sem first last then .retry
  else .go

/-- SEM_ACQ: granted when the semaphore is free and no other covers the range (R299 step 1). -/
def semAcquire (l : List Sema) (unit sem first last : Nat) : Option (List Sema) :=
  if sem < l.length ∧ (nthD l sem {}).held = false ∧ semBlocks l unit sem first last = false then
    some (setNth l sem { unit, first, last, held := true })
  else none

/-- SEM_REL: OK, or TIMEOUT after a revocation (R299 step 3). -/
def semRelease (l : List Sema) (sem : Nat) : List Sema × Status :=
  let x := nthD l sem {}
  if x.revoked then (l, .timeout) else (setNth l sem {}, .ok)

/-- A semaphore revoked after SEM_HOLD_MAX; one that the own side holds is only freed (R299 step 3, R329). -/
def semRevoke (l : List Sema) (sem : Nat) : List Sema :=
  modNth l sem (fun x => if x.held then (if x.own then {} else { x with held := false, revoked := true }) else x)

/-- The own semaphore that the sequence of a bridge takes first, over the same range of the own shared region; one that the sequence still
holds is kept (R329, assumption 122). -/
def semOwn (l : List Sema) (sem first last : Nat) : Option (List Sema) :=
  if (nthD l sem {}).held && (nthD l sem {}).own then some l
  else (semAcquire l 0 sem first last).map (fun x => modNth x sem (fun y => { y with own := true }))

/-- The own semaphore of a sequence freed. -/
def semFree (l : List Sema) (sem : Nat) : List Sema := modNth l sem (fun x => if x.own then {} else x)

/-- SEMAPHORE_REVOKE: of the gateway, or of a bridge: counted, with a WARNING record (R299, R357). -/
def execSemaphoreRevoke (u : Option GLink) (sem : Nat) (s : State) : Host.Outcome State Fault Refusal :=
  .next (match u with
    | none => if (nthD s.gw.sems sem {}).held then
        record { s with gw := { s.gw with sems := semRevoke s.gw.sems sem, semTo := satInc s.gw.semTo } } .warning srcGw (cFailed .timeout) sem
      else s
    | some l => if (nthD (s.grp.br l).sems sem {}).held then
        record (modBr s l (fun b => { b with sems := semRevoke b.sems sem, semTo := satInc b.semTo })) .warning l.port.src (cFailed .timeout) sem
      else s)

/-! ## RETRY (R298, R329) -/

/-- A request answered RETRY: it waits to be reissued; the 17th completes REFUSED_CAPACITY (R298, R329). -/
def tagRetry (s : State) (t : TagEnt) : State :=
  if 16 ≤ t.retries then finishTag (pmuCount s 10 0x289 1) { t with retries := 16 } .refusedCapacity
  else modTag (pmuCount s 10 0x289 1) t.tag (fun t => { t with retries := t.retries + 1, again := true })

/-! ## Remote access over the group links (R357) -/

/-- The peer unit of a link as the target of a tag. -/
def peerTags (s : State) (l : GLink) : List TagEnt := s.txe.tags.filter (fun t => t.unit == l.peer)

/-- The frame of a remote request. -/
def glFrameOf : TagReq → Bool → Option GlBody
  | .glRead off len _ sem, _ => some (.rdReq off (len / 8) sem)
  | .glWrite off data sem, p => some (.wrReq off sem p data)
  | .glSem sem first last, _ => some (.semAcq sem first last)
  | .glSemRel sem, _ => some (.semRel sem)
  | .glDoorbell v, _ => some (.doorbell v)
  | _, _ => none

/-- A remote request put on its link under its tag, a write behind the writes before it, which the far side may still answer RETRY (R226). A
semaphore request is a sequence that takes the own semaphore first, a release frees it (R329, assumption 122). -/
def issueGl (s : State) (l : GLink) (t : TagEnt) : State :=
  let send (s : State) : State := match glFrameOf t.req t.posted with
    | some b => glSend s l (peerPos s l) b t.tag
    | none => s
  if !(writesAhead s t).isEmpty then waitAgain s t
  else match t.req with
  | .glSem sem first last => (match semOwn (s.grp.br l).sems sem first last with
    | some x => send (modBr s l (fun b => { b with sems := x }))
    | none => tagRetry s t)
  | .glSemRel sem => send (modBr s l (fun b => { b with sems := semFree b.sems sem }))
  | _ => send s

/-- A remote submission of ring 1 with a tag of class GROUP and its timeout of 200 µs (R224, R227, R357). -/
def submitGl (s : State) (q : SubReq) (l : GLink) (r : TagReq) : State :=
  submit s 1 q.req q.wait l.peer .group (fun s =>
    let a := allocTag s l.peer .group r (some (1, q.req)) q.posted (some (ttcIn s 200000))
    match tagOf a.1 a.2 with
    | some t => issueGl a.1 l t
    | none => a.1)

/-- Whether a remote length is 8 to 1,024 bytes in whole link words (R357). -/
def glLenOk (len : Nat) : Bool := decide (8 ≤ len) && decide (len ≤ 1024) && len % 8 == 0

/-- GL_READ (R357). -/
def execGlRead (q : SubReq) (l : GLink) (off len : Nat) (addr : Word) (sem : Nat) (s : State) : Host.Outcome State Fault Refusal :=
  .next (if glLenOk len then submitGl s { q with posted := false } l (.glRead off len addr sem)
    else submitRefused s 1 q.req l.peer.num .refusedPolicy)

/-- GL_WRITE of bytes from a DRAM buffer (R357). -/
def execGlWrite (q : SubReq) (l : GLink) (off len : Nat) (addr : Word) (sem : Nat) (s : State) : Host.Outcome State Fault Refusal :=
  .next (if glLenOk len then submitGl s q l (.glWrite off (s.dram.readList addr.toNat len) sem)
    else submitRefused s 1 q.req l.peer.num .refusedPolicy)

/-- GL_SEM_ACQ (R357). -/
def execGlSemAcq (q : SubReq) (l : GLink) (sem first last : Nat) (s : State) : Host.Outcome State Fault Refusal :=
  .next (submitGl s { q with posted := false } l (.glSem sem first last))

/-- GL_SEM_REL (R357). -/
def execGlSemRel (q : SubReq) (l : GLink) (sem : Nat) (s : State) : Host.Outcome State Fault Refusal :=
  .next (submitGl s { q with posted := false } l (.glSemRel sem))

/-- GL_DOORBELL: a zero value completes REFUSED_POLICY (R357). -/
def execGlDoorbell (q : SubReq) (l : GLink) (v : Reg32) (s : State) : Host.Outcome State Fault Refusal :=
  .next (if v = 0 then submitRefused s 1 q.req l.peer.num .refusedPolicy
    else submitGl s { q with posted := false } l (.glDoorbell v))

/-! ## Requests served here -/

/-- A RETRY answered and counted (R329). -/
def glRetry (s : State) (l : GLink) (h : GlHdr) : State :=
  glSend (modBr (pmuCount s 12 0x303 1) l (fun b => { b with retrySent := satInc b.retrySent })) l h.src .retry h.tag

/-- An inbound request: without a free tag of class GROUP it is answered RETRY, with the WARNING record of the class (R225, R245, R329). -/
def inbound (s : State) (l : GLink) (h : GlHdr) (k : State → State) : State :=
  if tagFree s .group then k s else glRetry (noteTags s .group .retry) l h

/-- Whether n bytes at an offset lie in the shared region that this module has enabled (R357). -/
def sharedOk (s : State) (l : GLink) (off n : Nat) : Bool :=
  (s.grp.br l).sharedEn && decide (off + n ≤ 16777216) && inDram ((s.grp.br l).sharedBase + BitVec.ofNat 64 off) n

/-- The bytes of the shared region. -/
def sharedAddr (s : State) (l : GLink) (off : Nat) : Word := (s.grp.br l).sharedBase + BitVec.ofNat 64 off

/-- RD_REQ: a read of the shared region, word by word in order (R357). -/
def execRdReq (l : GLink) (h : GlHdr) (off words sem : Nat) (s : State) : Host.Outcome State Fault Refusal :=
  .next (glRecv s l h (.rdReq off words sem) (fun s => inbound s l h (fun s =>
    if !sharedOk s l off (8 * words) then glSend s l h.src (.rdRsp .remoteError []) h.tag
    else match semCheck (s.grp.br l).sems 0 sem off (off + 8 * words - 1) with
      | .retry => glRetry s l h
      | .timeout => glSend s l h.src (.rdRsp .timeout []) h.tag
      | .go => glSend s l h.src (.rdRsp .ok (s.dram.readList (sharedAddr s l off).toNat (8 * words))) h.tag)))

/-- WR_REQ: a write of the shared region, word by word in order (R357). -/
def execWrReq (l : GLink) (h : GlHdr) (off sem : Nat) (posted : Bool) (data : List Byte) (s : State) :
    Host.Outcome State Fault Refusal :=
  .next (glRecv s l h (.wrReq off sem posted data) (fun s => inbound s l h (fun s =>
    if !sharedOk s l off data.length then glSend s l h.src (.wrRsp .remoteError) h.tag
    else match semCheck (s.grp.br l).sems 0 sem off (off + data.length - 1) with
      | .retry => glRetry s l h
      | .timeout => glSend s l h.src (.wrRsp .timeout) h.tag
      | .go => glSend (dramWrite s (sharedAddr s l off) data) l h.src (.wrRsp .ok) h.tag)))

/-- A crossing on a link: this end's own side holds a range that the request wants while this end asks the far side for one
(R329). -/
def crossing (s : State) (l : GLink) (first last : Nat) : Option Nat :=
  let held := ((List.range 64).zip (s.grp.br l).sems).find? (fun (_, x) =>
    x.held && x.own && decide (x.first ≤ last) && decide (first ≤ x.last))
  let asks := (peerTags s l).any (fun t => match t.req with
    | .glSem .. => true
    | _ => false)
  if asks then held.map (·.1) else none

/-- SEM_ACQ_FRAME: granted, answered RETRY, or resolved as a crossing: the B end, GL-L, releases its own semaphore and grants; the
A end, GL-R, answers RETRY (R329, R357). -/
def execSemAcqFrame (l : GLink) (h : GlHdr) (sem first last : Nat) (s : State) : Host.Outcome State Fault Refusal :=
  .next (glRecv s l h (.semAcq sem first last) (fun s => inbound s l h (fun s =>
    let s1 := match crossing s l first last, l with
      | some i, .left => modBr s l (fun b => { b with sems := setNth b.sems i {} })
      | _, _ => s
    match semAcquire (s1.grp.br l).sems 0 sem first last with
    | some x => glSend (modBr s1 l (fun b => { b with sems := x })) l h.src (.semRsp .ok) h.tag
    | none => glRetry s1 l h)))

/-- SEM_REL_FRAME (R357). -/
def execSemRelFrame (l : GLink) (h : GlHdr) (sem : Nat) (s : State) : Host.Outcome State Fault Refusal :=
  .next (glRecv s l h (.semRel sem) (fun s => inbound s l h (fun s =>
    let r := semRelease (s.grp.br l).sems sem
    glSend (modBr s l (fun b => { b with sems := r.1 })) l h.src (.semRsp r.2) h.tag)))

/-- DOORBELL: the value enters the GLx_DB queue of 16; a full queue answers REFUSED_CAPACITY (R357). -/
def execDoorbell (l : GLink) (h : GlHdr) (v : Reg32) (s : State) : Host.Outcome State Fault Refusal :=
  .next (glRecv s l h (.doorbell v) (fun s => inbound s l h (fun s =>
    if v = 0 then glSend s l h.src (.wrRsp .refusedPolicy) h.tag
    else if (s.grp.br l).bells.length < 16 then
      glSend (modBr s l (fun b => { b with bells := b.bells ++ [v] })) l h.src (.wrRsp .ok) h.tag
    else glSend s l h.src (.wrRsp .refusedCapacity) h.tag)))

/-! ## Answers to requests of this module -/

/-- The answer to a tag of a peer unit; one whose tag carries an old epoch is discarded and counted (R232). -/
def onAnswer (s : State) (l : GLink) (h : GlHdr) (k : State → TagEnt → State) : State :=
  match s.txe.tags.find? (fun t => t.tag == h.tag && t.unit == l.peer) with
  | some t => k s t
  | none =>
    if (h.tag.extractLsb' 10 4 : BitVec 4) ≠ epochOf s l.peer then { s with txe := { s.txe with stale := satInc s.txe.stale } } else s

/-- RD_RSP: the data of a GL_READ written to its buffer; an access longer than 8 bytes was split (R228, R357). -/
def execRdRsp (l : GLink) (h : GlHdr) (st : Status) (data : List Byte) (s : State) : Host.Outcome State Fault Refusal :=
  .next (glRecv s l h (.rdRsp st data) (fun s => onAnswer s l h (fun s t =>
    match t.req with
    | .glRead _ len addr _ =>
      if st = .ok then finishTag (dramWrite s addr (data.take len)) t .ok (len := len) (split := decide (8 < len))
      else finishTag s t st
    | _ => s)))

/-- WR_RSP: a GL_WRITE or GL_DOORBELL answered (R357). -/
def execWrRsp (l : GLink) (h : GlHdr) (st : Status) (s : State) : Host.Outcome State Fault Refusal :=
  .next (glRecv s l h (.wrRsp st) (fun s => onAnswer s l h (fun s t =>
    match t.req with
    | .glWrite _ data _ => finishTag s t st (len := if st = .ok then data.length else 0) (split := decide (8 < data.length))
    | .glDoorbell _ => finishTag s t st
    | _ => s)))

/-- SEM_RSP: a semaphore request answered (R357). -/
def execSemRsp (l : GLink) (h : GlHdr) (st : Status) (s : State) : Host.Outcome State Fault Refusal :=
  .next (glRecv s l h (.semRsp st) (fun s => onAnswer s l h (fun s t =>
    match t.req with
    | .glSem sem .. => finishTag (if st = .ok then s else modBr s l (fun b => { b with sems := semFree b.sems sem })) t st
    | .glSemRel _ => finishTag s t st
    | _ => s)))

/-- RETRY: counted; the request waits to be reissued (R329). -/
def execRetry (l : GLink) (h : GlHdr) (s : State) : Host.Outcome State Fault Refusal :=
  .next (glRecv s l h .retry (fun s =>
    onAnswer (modBr s l (fun b => { b with retryRcvd := satInc b.retryRcvd })) l h (fun s t => tagRetry s t)))

end Sys2Proof.Machine
end

