-- ==== Sys2Proof/Machine/GwOps.lean ====
section
/-! DEFINITION. Machine/GwOps.lean: the signal gateway's conversions and packing (12_legacy_buses_and_gateway, R288 to R294,
R300) and the failures of bus writes (R296). -/

namespace Sys2Proof.Machine

/-! ## Bits of a payload (R288) -/

/-- Payload bits off to off + n - 1, the first one most significant. -/
def extractBig (l : List Byte) (off : Nat) : Nat → Nat
  | 0 => 0
  | n + 1 => 2 * extractBig l off n + (if dataBit l (off + n) then 1 else 0)

/-- The raw value of a field (R288). -/
def extract (l : List Byte) (off len : Nat) (little : Bool) : Nat :=
  if little then leNat ((l.drop (off / 8)).take (len / 8)) else extractBig l off len

/-- One payload bit set or cleared. -/
def putBit (l : List Byte) (b : Nat) (v : Bool) : List Byte :=
  modNth l (b / 8) (fun x => if v then setBit x (7 - b % 8) else clrBit x (7 - b % 8))

/-- The low bits of a number put at off to off + n - 1, the first one most significant. -/
def insertBig (l : List Byte) (off : Nat) : Nat → Nat → List Byte
  | 0, _ => l
  | n + 1, raw => putBit (insertBig l off n (raw / 2)) (off + n) (raw % 2 == 1)

/-- Bytes put from a byte position on. -/
def putBytes (l : List Byte) (i : Nat) : List Byte → List Byte
  | [] => l
  | b :: bs => putBytes (setNth l i b) (i + 1) bs

/-- A field's raw value inserted (R288). -/
def insertField (l : List Byte) (off len : Nat) (little : Bool) (raw : Nat) : List Byte :=
  if little then putBytes l (off / 8) (leBytes (len / 8) raw) else insertBig l off len raw

/-! ## Conversion (R291, R292) -/

/-- The integer nearest to (-1)^s * m * 2^e by ROUND: 0 ties to even, 1 ties away from zero, 2 toward zero, 3 toward minus infinity
(R289). -/
def roundDyadic (mode : Nat) (s : Bool) (m : Nat) (e : Int) : Int :=
  if 0 ≤ e then (if s then -((m * 2 ^ e.toNat : Nat) : Int) else ((m * 2 ^ e.toNat : Nat) : Int))
  else
    let d := 2 ^ (-e).toNat
    let q := m / d
    let r := m % d
    let up : Bool := match mode with
      | 0 => decide (d < 2 * r) || (decide (2 * r = d) && q % 2 == 1)
      | 1 => decide (d ≤ 2 * r)
      | 2 => false
      | _ => s && decide (0 < r)
    let n := if up then q + 1 else q
    if s then -(n : Int) else n

/-- A REAL as binary64, which is exact. -/
def f32to64 (b : Reg32) : FOut := fconv f32 f64 b.toNat

/-- A binary64 operation on two results; a NaN stays one. -/
def fbind (f : Nat → Nat → FOut) (a b : FOut) : FOut :=
  match a, b with
  | .bits x _ _, .bits y _ _ => f x y
  | _, _ => .nan

/-- Whether a REAL is 1.0. -/
def isOne (x : Reg32) : Bool := x == 0x3F800000

/-- Whether a REAL is zero of either sign. -/
def isZeroR (x : Reg32) : Bool := x == 0 || x == 0x80000000

/-- The exact integer path: SCALE 1, OFFSET 0 and a type that is no REAL or LREAL (R291, R292). -/
def exactPath (e : GwEnt) (ty : BitVec 4) : Bool := !e.float32 && isOne e.scale && isZeroR e.offset && tyClass ty != .float

/-- The result of a conversion: the value, its code, whether it saturated and whether it was a NaN. -/
structure Conv where
  val : Word
  code : BitVec 4
  sat : Bool := false
  nan : Bool := false
  deriving DecidableEq, Repr

/-- An integer as a value of a type, saturated with RANGE (R291). -/
def convInt (ty : BitVec 4) (i : Int) : Conv :=
  if ty = 0 then { val := b2w (decide (i ≠ 0)), code := qGood }
  else
    let c := clampInt i (tyMin ty) (tyMax ty)
    { val := wrapTo ty c, code := if c = i then qGood else qRange, sat := decide (c ≠ i) }

/-- A raw field of n bits, already assembled, as a signal value (R291). -/
def convIn (e : GwEnt) (ty : BitVec 4) (n raw : Nat) : Conv :=
  let i : Int := if e.signed && decide (2 ^ (n - 1) ≤ raw) then (raw : Int) - 2 ^ n else raw
  if exactPath e ty then convInt ty i
  else
    let x : FOut := if e.float32 then f32to64 (BitVec.ofNat 32 raw)
      else fbind (fadd f64) (fbind (fmul f64) (fofInt f64 i).out (f32to64 e.scale)) (f32to64 e.offset)
    match x with
    | .nan => { val := if tyClass ty = .float then (fltRes 0x40 ty (BitVec.ofNat 64 raw) 0 0 .nan).1 else 0, code := qInvalid, nan := true }
    | .bits b _ _ =>
      if ty = 0 then { val := b2w (!feq f64 b 0), code := qGood }
      else if ty = 10 then { val := BitVec.ofNat 64 b, code := qGood }
      else if tyClass ty = .float then { val := (fltRes 0x40 ty 0 0 0 (fconv f64 f32 b)).1, code := qGood }
      else match fdec f64 b with
        | .inf s => { val := wrapTo ty (if s then tyMin ty else tyMax ty), code := qRange, sat := true }
        | .fin s m ex => convInt ty (roundDyadic e.round s m ex)
        | .nan => { val := 0, code := qInvalid, nan := true }

/-- The limits of a field (R292). -/
def fieldLim (e : GwEnt) (n : Nat) : Int × Int :=
  if e.signed then (-(2 ^ (n - 1) : Int), (2 ^ (n - 1) : Int) - 1) else (0, (2 ^ n : Int) - 1)

/-- A value of a type as binary64 (R292). -/
def valF64 (ty : BitVec 4) (w : Word) : FOut :=
  if ty = 10 then .bits w.toNat false false
  else if tyClass ty = .float then fconv f32 f64 (fbits ty w)
  else (fofInt f64 (if ty = 0 then (if isTrue w then 1 else 0) else opnd ty w)).out

/-- A signal value as the raw content of a field of n bits; saturation and NaN as in R292, a NaN giving 0. -/
def convOut (e : GwEnt) (ty : BitVec 4) (n : Nat) (w : Word) : Nat × Bool × Bool :=
  let lim := fieldLim e n
  let fit (v : Int) : Nat × Bool × Bool :=
    let c := clampInt v lim.1 lim.2
    ((c % 2 ^ n).toNat, decide (c ≠ v), false)
  if exactPath e ty then fit (if ty = 0 then (if isTrue w then 1 else 0) else opnd ty w)
  else
    let y := fbind (fdiv f64) (fbind (fsub f64) (valF64 ty w) (f32to64 e.offset)) (f32to64 e.scale)
    match y with
    | .nan => (0, false, true)
    | .bits b _ _ =>
      if e.float32 then (match fconv f64 f32 b with
        | .bits x _ _ => (x, false, false)
        | .nan => (0, false, true))
      else match fdec f64 b with
        | .inf s => (((if s then lim.1 else lim.2) % 2 ^ n).toNat, true, false)
        | .fin s m ex => fit (roundDyadic e.round s m ex)
        | .nan => (0, false, true)

/-! ## Receptions (R291, R293, R294, R300) -/

/-- The GWMAP entries with their numbers. -/
def gwEnts (g : ConfImage) : List (Nat × GwEnt) := (List.range g.gwmap.length).zip g.gwmap

/-- The entries of a frame or port in one direction. -/
def entsOf (g : ConfImage) (bus frame : Nat) (toBus : Bool) : List (Nat × GwEnt) :=
  (gwEnts g).filter (fun x => x.2.bus == bus && x.2.frame == frame && x.2.toBus == toBus)

/-- The slices of a SID in one direction. -/
def slicesOf (g : ConfImage) (sid : Sid) (toBus : Bool) : List (Nat × GwEnt) :=
  (gwEnts g).filter (fun x => x.2.sid == sid && x.2.toBus == toBus && !x.2.doorbell)

/-- Whether an entry's validity bit says valid; an entry without one always is. -/
def fieldValid (e : GwEnt) (data : List Byte) : Bool := e.validOff == 0xFFFF || dataBit data e.validOff

/-- What a reception has led to so far: its writes, its doorbells, the gateway. -/
structure GwAcc where
  gw : Gw
  writes : List RxWrite := []
  rings : List RxWrite := []
  jump : List Sid := []
  deriving DecidableEq, Repr

/-- A conversion counted and written. -/
def accWrite (a : GwAcc) (sid : Sid) (c : Conv) (code : BitVec 4) : GwAcc :=
  { a with
    gw := { a.gw with sat := if c.sat then satInc a.gw.sat else a.gw.sat, nan := if c.nan then satInc a.gw.nan else a.gw.nan }
    writes := a.writes ++ [{ sid, val := c.val, code := qMax c.code code }] }

/-- A doorbell entry: the counter compared with its previous value, at most 8 doorbells raised; the first reception only records
it (R300). -/
def accBell (a : GwAcc) (i : Nat) (e : GwEnt) (raw : Nat) : GwAcc :=
  let put := (i, raw) :: a.gw.bells.filter (fun x => x.1 != i)
  match a.gw.bells.find? (fun x => x.1 == i) with
  | none => { a with gw := { a.gw with bells := put } }
  | some (_, old) =>
    let d := (raw + 2 ^ e.bitLen - old) % 2 ^ e.bitLen
    let n := min d 8
    { a with
      gw := { a.gw with bells := put, dbLost := satAdd a.gw.dbLost (d - n), dbRaised := a.gw.dbRaised + BitVec.ofNat 16 n }
      rings := a.rings ++ List.replicate n { sid := e.sid, doorbell := true }
      jump := if 8 < d then a.jump ++ [e.sid] else a.jump }

/-- A slice of a spanning SID: kept, and with SIG_BIT 0 the SID written from the newest copy of every slice (R294). -/
def accSlice (s : State) (a : GwAcc) (i : Nat) (e : GwEnt) (r : SigRec) (raw : Nat) (ok : Bool) : GwAcc :=
  let sl : List Slice := (⟨i, raw, s.cyc.mcc, ok⟩ : Slice) :: a.gw.slices.filter (fun (x : Slice) => x.entry != i)
  let a1 := { a with gw := { a.gw with slices := sl } }
  if e.sigBit ≠ 0 then a1
  else
    let parts := slicesOf s.ci.act e.sid false
    let got : List (Nat × GwEnt × Option Slice) := parts.map (fun (j, p) => (j, p, sl.find? (fun x => x.entry == j)))
    let total := parts.foldl (fun n (_, p) => max n (p.sigBit + p.bitLen)) 0
    let rawAll := got.foldl (fun n (j, p, x) =>
      n + (match x with
        | some y => y.raw
        | none => Config.sliceFree j % 2 ^ p.bitLen) * 2 ^ p.sigBit) 0
    let missing := got.any (fun (_, _, x) => x.isNone)
    let old := r.freshMs ≠ 0 ∧ got.any (fun (_, _, x) => match x with
      | some y => decide (freshF s.ci.act r < (s.cyc.mcc - y.mcc).toNat)
      | none => false) = true
    let bad := got.any (fun (_, _, x) => match x with
      | some y => !y.valid
      | none => false)
    let c0 := if bad then qInvalid else qGood
    let c1 := if missing then qMax c0 qUninit else c0
    let c2 := if old then qMax c1 qStale else c1
    let a2 := if old then { a1 with gw := { a1.gw with spanStale := satInc a1.gw.spanStale } } else a1
    accWrite a2 e.sid (convIn e r.t total rawAll) c2

/-- One entry of a reception. -/
def accEntry (s : State) (data : List Byte) (a : GwAcc) (x : Nat × GwEnt) : GwAcc :=
  let e := x.2
  let raw := extract data e.bitOff e.bitLen e.little
  if e.doorbell then accBell a x.1 e raw
  else match sigRec s.ci.act e.sid with
    | none => a
    | some r =>
      let ok := fieldValid e data
      if 1 < e.span then accSlice s a x.1 e r raw ok
      else accWrite a e.sid (convIn e r.t e.bitLen raw) (if ok then qGood else qInvalid)

/-- A received frame or port converted and carried in one tag of class BRIDGE, data first, then doorbells (R293). A counter that
jumps by more than 8 writes a NOTICE record (R302). A gateway in reset converts nothing (R451). -/
def gwReceive (s : State) (p : Port) (bus frame : Nat) (data : List Byte) : State :=
  let es := entsOf s.ci.act bus frame false
  let a := es.foldl (accEntry s data) { gw := s.gw }
  let s1 := a.jump.foldl (fun s sid => record s .notice srcGw (cFault 0) sid.toNat) { s with gw := a.gw }
  if bit s.rst.portHeld 8 then s
  else carryRx (pmuCount s1 9 0x247 es.length) { port := p, cls := .bridge, writes := a.writes ++ a.rings }

/-! ## Packing (R163, R292 to R294) -/

/-- The bytes of an F-code's port (R274). -/
def mvbSize : Nat → Nat
  | 0 => 2 | 1 => 4 | 2 => 8 | 3 => 16 | 4 => 32 | _ => 2

/-- The length of a DLC code (R283). -/
def dlcLen (c : Nat) : Nat :=
  if c ≤ 8 then c else nthD [12, 16, 20, 24, 32, 48, 64] (c - 9) 64

/-- The raw content of an entry's field from a settled value; a slice takes its bits of the whole (R292, R294). -/
def packEntry (g : ConfImage) (vals : List PubSig) (acc : List Byte × Gw) (x : Nat × GwEnt) : List Byte × Gw :=
  let e := x.2
  match vals.find? (fun v => v.sid == e.sid) with
  | none => acc
  | some v =>
    let total := if 1 < e.span then (slicesOf g e.sid true).foldl (fun n (_, p) => max n (p.sigBit + p.bitLen)) 0 else e.bitLen
    let c := convOut e v.ty total v.v.val
    let raw := (c.1 / 2 ^ e.sigBit) % 2 ^ e.bitLen
    let l1 := insertField acc.1 e.bitOff e.bitLen e.little raw
    let k := qCode v.v.q
    let l2 := if e.validOff = 0xFFFF then l1 else putBit l1 e.validOff (k == qGood || k == qSubst || k == qSinglePlane)
    (l2, { acc.2 with sat := if c.2.1 then satInc acc.2.sat else acc.2.sat, nan := if c.2.2 then satInc acc.2.nan else acc.2.nan })

/-- The payload of a frame or port packed from values; bits that no entry writes are zero (R288, R293). -/
def packFrame (g : ConfImage) (gw : Gw) (vals : List PubSig) (bus frame size : Nat) : List Byte × Gw :=
  (entsOf g bus frame true).foldl (packEntry g vals) (List.replicate size 0, gw)

/-- The CAN_ID records of an image with their indices (R289). -/
def canIds (g : ConfImage) : List (Nat × IoRec) :=
  let l := g.iomap.filter (fun r => r.kind == 10)
  (List.range l.length).zip l

/-- Whether a CAN_ID record is a poll request of a COMPAT entry, which its poll and no launch sends (R301). -/
def isPollFrame (g : ConfImage) (i : Nat) : Bool := g.gwmap.any (fun e => e.compat && e.pollFrame == i)

/-- A frame or port with signals to a bus: an MVB port by address or a CAN_ID record by index. -/
structure OutFrame where
  mvb : Bool
  no : Nat
  deriving DecidableEq, Repr

/-- The issue of a posted write now, under a tag of class BRIDGE that its conversion takes (R222, R235, assumption 183). -/
def issueNow (s : State) (u : TUnit) : Issue :=
  ⟨BitVec.ofNat 4 TxClass.bridge.num ++ epochOf s u ++ BitVec.ofNat 10 ((tagNum s).getD 0), s.cyc.mcc, epochOf s u, s.fab.epoch⟩

/-- The CAN controllers as units. -/
def canUnit (n : Nat) : TUnit := if n = 0 then .can0 else .can1

/-- What boundary k packs: output group and item, every MVB source port and each transmit CAN frame that the boundary selects
(R163, R293), but those in `skip`, which the commit launches at an explicit time (R179); a POLL_FRAME record's payload is kept for its poll (R301). -/
def packAll (s : State) (k : Mcc) (vals : List PubSig) (skip : List OutFrame) : List (Nat × LaunchItem) × Gw :=
  let g := s.ci.act
  let m := g.iomap.foldl (fun (acc : List (Nat × LaunchItem) × Gw) r => match r with
    | .mvbPort addr fcode true og =>
      if skip.contains ⟨true, addr⟩ then acc
      else
        let p := packFrame g acc.2 vals 0 addr (mvbSize fcode)
        (acc.1 ++ [(og, .mvb addr p.1 (issueNow s .mvb))], p.2)
    | _ => acc) ([], s.gw)
  (canIds g).foldl (fun acc (i, r) => match r with
    | .canId port true dlc _ _ _ _ pexp og =>
      if k.toNat % 2 ^ pexp = 0 ∧ skip.contains ⟨false, i⟩ = false then
        let p := packFrame g acc.2 vals (if port = 0 then 1 else 2) i (dlcLen dlc)
        if isPollFrame g i then (acc.1, { p.2 with polled := (i, p.1) :: p.2.polled.filter (fun x => x.1 != i) })
        else (acc.1 ++ [(og, .can i p.1 (issueNow s (canUnit port)))], p.2)
      else acc
    | _ => acc) m

/-- The output groups of packed items. -/
def packGroups (l : List (Nat × LaunchItem)) : List (Nat × List LaunchItem) :=
  (l.map (·.1)).eraseDups.map (fun og => (og, (l.filter (fun x => x.1 == og)).map (·.2)))

/-- The conversions that made a list of items: the entries of its ports and frames (R293, R487). -/
def itemConvs (g : ConfImage) (l : List LaunchItem) : Nat :=
  (l.map (fun x => match x with
    | .mvb a .. => (entsOf g 0 a true).length
    | .can i .. => match (g.iomap.filter (fun r => r.kind == 10))[i]? with
      | some (.canId port ..) => (entsOf g (port + 1) i true).length
      | _ => 0)).sum

/-! ## Posted writes on the buses (R296) -/

/-- The SIDs that a frame carries to a bus. -/
def sidsTo (g : ConfImage) (bus frame : Nat) : List Sid := ((entsOf g bus frame true).map (fun x => x.2.sid)).eraseDups

/-- The writers of a list of SIDs. -/
def writersOf (g : ConfImage) (l : List Sid) : List Byte := (l.filterMap (fun x => (sigRec g x).map (·.writer))).eraseDups

/-- The lowest SID of a list. -/
def minSid (l : List Sid) : Sid := l.foldl (fun a b => if b < a then b else a) (l.headD 0)

/-- A scheduled write that fails: one log entry for each writer packed into the frame, with the tag, the epochs and the MCC of its issue, every SID of that
writer marked (R235, R296). -/
def busFail (s : State) (u : TUnit) (bus frame : Nat) (addr : Reg32) (st : Status) (x : Issue) : State :=
  let g := s.ci.act
  let sids := sidsTo g bus frame
  (writersOf g sids).foldl (fun s w =>
    let mine := sids.filter (fun x => (sigRec g x).map (·.writer) == some w)
    failPosted s { tag := x.tag, status := st, unit := u, issuer := w, unitEpoch := x.unitEpoch, fabEpoch := x.fabEpoch
                   sid := minSid mine, issueMcc := x.mcc, failMcc := s.cyc.mcc, addr, failTtc := s.tb.ttc } mine 0) s

/-- A write delivered on the far side: the marks of its SIDs end with the next boundary (R219, R296). -/
def busDone (s : State) (bus frame : Nat) : State :=
  let sids := sidsTo s.ci.act bus frame
  { s with pim := { s.pim with wfClear := s.pim.wfClear ++ sids, wfPend := s.pim.wfPend.filter (fun x => !sids.contains x) } }

end Sys2Proof.Machine
end

