-- ==== Sys2Proof/Machine/BusOps.lean ====
section
/-! DEFINITION. Machine/BusOps.lean: what MVB, the CAN controllers and the runtime's remote accesses to them share
(12_legacy_buses_and_gateway, R274 to R287, R296 to R301). -/

namespace Sys2Proof.Machine

/-- Whether the module may transmit on a bus or network: it drives the shared ports, the state is STOP, RUN or HOLD and the Canary
has not forced fail-silence (R15, R37, R184). -/
def mayTransmit (s : State) : Bool :=
  drives s && (s.glb.state == .stop || s.glb.state == .run || s.glb.state == .hold) && !s.safe.failSilent

/-- Whether a port is held in reset. -/
def portHeld (s : State) (p : Port) : Bool := bit s.rst.portHeld p.num

/-! ## MVB -/

/-- ROLE and DEVICE_ADDR of the MVB_ROLE record (R275). -/
def mvbRole (g : ConfImage) : Nat × Nat :=
  (g.iomap.findSome? (fun r => match r with
    | .mvbRole role addr => some (role, addr)
    | _ => none)).getD (0, 0)

/-- Whether the module sends master frames now (MVB_STATUS.BA_NOW). -/
def baNow (s : State) : Bool := (mvbRole s.ci.act).1 == 1 && mayTransmit s && !portHeld s .mvb

/-- The MVB_PORT record of an address: F-code, whether the module sources it. -/
def mvbPortOf (g : ConfImage) (addr : Nat) : Option (Nat × Bool) :=
  g.iomap.findSome? (fun r => match r with
    | .mvbPort a f src _ => if a = addr then some (f, src) else none
    | _ => none)

/-- The master frame list in IOMAP order: address, F-code, Q, ORDER (R276). -/
def mflRecs (g : ConfImage) : List (Nat × Nat × Nat × Nat) :=
  g.iomap.filterMap (fun r => match r with
    | .mvbMfl a f slot => some (a, f, slot / 32 % 8, slot % 32)
    | _ => none)

/-- The list with each record's position among those of the same Q. -/
def withPos : List (Nat × Nat × Nat × Nat) → List (Nat × Nat × Nat × Nat) → List (Nat × Nat × Nat × Nat × Nat)
  | _, [] => []
  | before, x :: xs => (x.1, x.2.1, x.2.2.1, x.2.2.2, (before.filter (fun y => y.2.2.1 == x.2.2.1)).length) :: withPos (before ++ [x]) xs

/-- The polls due in basic period n, in ascending ORDER, ties by record order: F-code and address (R276). -/
def duePolls (g : ConfImage) (n : Nat) : List (Nat × Nat) :=
  let l := (withPos [] (mflRecs g)).filter (fun x => n % 2 ^ x.2.2.1 == x.2.2.2.2 % 2 ^ x.2.2.1)
  (sortBy (fun a b => decide (a.2.2.2.1 ≤ b.2.2.2.1)) l).map (fun x => (x.2.1, x.1))

/-- The number of a basic period: of the j-th of the minor cycle (R276). -/
def basicNo (s : State) (j : Nat) : Nat :=
  let tb := s.ci.act.time.tbaseUs
  if tb = 250 then s.cyc.mcc.toNat / 4 else if tb = 500 then s.cyc.mcc.toNat / 2 else s.cyc.mcc.toNat * (tb / 1000) + j

/-- Whether a basic period begins j ms into the running minor cycle, none of it or after it having begun (R164). -/
def periodBegins (s : State) (j : Nat) : Bool :=
  let tb := s.ci.act.time.tbaseUs
  s.cyc.started &&
  (if tb = 250 then j == 0 && s.cyc.mcc.toNat % 4 == 0
   else if tb = 500 then j == 0 && s.cyc.mcc.toNat % 2 == 0
   else tb % 1000 == 0 && decide (j < tb / 1000)) &&
  (match s.mvb.begun with
   | some (k, n) => k != s.cyc.mcc || decide (n < j)
   | none => true)

/-- The buffer of a port that is current. -/
def mvbCur (l : List MvbBuf) (addr : Nat) : Option (List Byte) := (l.find? (fun b => b.addr == addr)).map (·.data)

/-- A buffer made current. -/
def mvbPut (l : List MvbBuf) (addr : Nat) (data : List Byte) : List MvbBuf := ⟨addr, data⟩ :: l.filter (fun b => b.addr != addr)

/-- Whether both lines have a fault (R278). -/
def bothFault (m : Mvb) : Bool := m.lineA.fault && m.lineB.fault

/-- A line after a frame that it delivered or not, while the other did or not; none for a line whose fault bit stays; a frame that neither
delivers leaves a run of bad ones standing (R278, assumption 195). -/
def lineStep (l : MvbLine) (ok other : Bool) : MvbLine :=
  if ok then { l with bad := 0, good := l.good + 1, fault := l.fault && decide (l.good + 1 < 16) }
  else if other then { l with good := 0, bad := l.bad + 1, err := satInc l.err, fault := l.fault || decide (16 ≤ l.bad + 1) }
  else { l with good := 0, err := satInc l.err }

/-- Both lines after a frame, with a WARNING record for a new line fault and an ERROR record when both fail (R278, R302). -/
def mvbLines (s : State) (a b : Bool) : State :=
  let la := lineStep s.mvb.lineA a b
  let lb := lineStep s.mvb.lineB b a
  let s1 := { s with mvb := { s.mvb with lineA := la, lineB := lb, bothNoted := s.mvb.bothNoted && la.fault && lb.fault } }
  let s2 := if la.fault && !s.mvb.lineA.fault then record s1 .warning Port.mvb.src (cFault 0) 0 else s1
  let s3 := if lb.fault && !s.mvb.lineB.fault then record s2 .warning Port.mvb.src (cFault 0) 1 else s2
  if la.fault && lb.fault && !s.mvb.bothNoted then
    record { s3 with mvb := { s3.mvb with bothNoted := true } } .error Port.mvb.src (cFault 0) Port.mvb.num
  else s3

/-- A poll that no slave frame has answered (MVB_NO_REPLY). -/
def endPoll (s : State) : State :=
  match s.mvb.poll with
  | some _ => { s with mvb := { s.mvb with poll := none, noReply := satInc s.mvb.noReply } }
  | none => s

/-- The module's own slave frame: for a source port (`port`) the buffer that stood current when the master frame ended, and the first poll
after a launch on a line without fault completes the write on the far side; else its device status (R277, R279, R296). -/
def mvbAnswer (s : State) (addr : Nat) (data : List Byte) (port : Bool) : State :=
  let s1 := { s with out := .mvbSlave addr data :: s.out, mvb := { s.mvb with poll := none } }
  if port && s.mvb.launched.any (fun x => x.1 == addr) && !bothFault s.mvb then
    busDone { s1 with mvb := { s1.mvb with launched := s1.mvb.launched.filter (fun x => x.1 != addr) } } 0 addr
  else s1

/-- The device status word that the module answers (R277). -/
def ownStatus (s : State) : List Byte :=
  beBytes 2 (Config.devStatus ((mvbRole s.ci.act).1 == 1) (s.glb.state != .run)).toNat

/-! ## CAN -/

/-- The CAN port of a number 0 or 1. -/
def canPort (n : Nat) : Port := if n = 0 then .can0 else .can1

/-- A CAN controller. -/
def canOf (s : State) (n : Nat) : Can := if n = 0 then s.can0 else s.can1

/-- A CAN controller changed. -/
def modCan (s : State) (n : Nat) (f : Can → Can) : State :=
  if n = 0 then { s with can0 := f s.can0 } else { s with can1 := f s.can1 }

/-- MODE and rates of a CAN_PORT record (R281, R287). -/
def canPortOf (g : ConfImage) (n : Nat) : Option (Nat × Nat × Nat) :=
  g.iomap.findSome? (fun r => match r with
    | .canPort p mode nom data => if p = n then some (mode, nom, data) else none
    | _ => none)

/-- The frame of a transmit CAN_ID record. -/
def canFrameOf (g : ConfImage) (i : Nat) (data : List Byte) : Option (Nat × CanFrame) :=
  match (canIds g).find? (fun x => x.1 == i) with
  | some (_, .canId port true _ ext fd brs ident _ _) => some (port, { ident := BitVec.ofNat 29 ident, ext, fd, brs, data })
  | _ => none

/-- A frame put before a controller that is in normal mode, requested now or at a time to come. -/
def canQueue (s : State) (n : Nat) (f : CanFrame) (src : CanSrc) (iss : Issue := {}) (at_ : Option Word := none) : State :=
  let c := canOf s n
  if c.enabled && !c.monitor && mayTransmit s then
    modCan s n (fun c => { c with pend := c.pend ++ [{ frame := f, src, mcc := s.cyc.mcc, ready := at_.getD s.tb.ttc, iss }] }) else s

/-- An NMT command frame: identifier 0, command and node 0 (R287). -/
def canNmt (s : State) (cmd : Byte) : State :=
  [0, 1].foldl (fun s n => match canPortOf s.ci.act n with
    | some (1, _, _) => canQueue s n { ident := 0, data := [cmd, 0] } .nmt
    | _ => s) s

/-- The arbitration field of a frame as a number: the base identifier, the bit that an extended or remote frame sends recessive, the identifier
extension (R163). -/
def canRank (f : CanFrame) : Nat :=
  if f.ext then ((f.ident.toNat / 262144) * 4 + 3) * 524288 + (f.ident.toNat % 262144) * 2 + f.remote.toNat
  else ((f.ident.toNat % 2048) * 4 + 2 * f.remote.toNat) * 524288

/-- The moment from which the i-th frame that waits contends: when it is requested, or when the frame before it left the bus (R163). -/
def contendsAt (c : Can) (p : CanPend) : Word := if 0 ≤ (p.ready - c.freeAt).toInt then p.ready else c.freeAt

/-- Whether the i-th frame that waits can have started: of the frames pending at the moment from which it contends no other one ranks lower, and none
before it the same. A frame requested after one has started waits for its end (R163). -/
def canWins (c : Can) (i : Nat) : Bool :=
  match c.pend[i]? with
  | none => false
  | some p => (c.pend.zip (List.range c.pend.length)).all (fun x =>
      decide ((contendsAt c p - x.1.ready).toInt < 0) ||
      decide (canRank p.frame < canRank x.1.frame) || (canRank p.frame == canRank x.1.frame && decide (i ≤ x.2)))

/-- The transmit errors that a frame has met, one at least and how many more the model does not say: TEC rises by 8 for each and the error frames are
counted (R284, R286, assumption 101). -/
def canErrors (s : State) (n : Nat) : State :=
  let k := 1 + Config.canErrors n s.tb.ttc
  modCan s n (fun c => { c with txErr := satAdd c.txErr (8 * k), errFrames := satAdd c.errFrames k, freeAt := s.tb.ttc })

/-- A pending frame that fails: a posted-write failure of its record, or of the raw frame's submission, counted where it is one (R284, R296, R298). -/
def canFail (s : State) (n : Nat) (p : CanPend) (st : Status) : State :=
  let s1 := modCan s n (fun c => { c with txFailed := satInc c.txFailed })
  match p.src with
  | .record i => busFail s1 (canPort n).unit (n + 1) i (p.frame.ident.setWidth 32) st p.iss
  | .raw t => match tagOf s1 t with
    | some x => finishTag (if x.posted then s1 else s) x st
    | none => s
  | _ => s

/-- A transmit record's frame requested at its launch: it replaces the one before it; one that has met an error fails by CAN_TX_TIMEOUT before
that (R284, assumption 178). -/
def canLaunch (s : State) (i : Nat) (data : List Byte) (iss : Issue) : State :=
  match canFrameOf s.ci.act i data with
  | none => s
  | some (n, f) =>
    let old := (canOf s n).pend.find? (fun p => p.src == .record i)
    let s1 := modCan s n (fun c => { c with pend := c.pend.filter (fun p => p.src != .record i) })
    let s2 := match old with
      | some _ => modCan s1 n (fun c => { c with replaced := satInc c.replaced })
      | none => s1
    canQueue s2 n f (.record i) iss

/-- One item of a launch driven: an MVB buffer made current, a CAN frame requested. With both lines in fault an MVB write fails
(R164, R279, R284, R296). In a group only the ACTIVE drives (R170). -/
def fireItem (s : State) : LaunchItem → State
  | .mvb addr data iss =>
    let s1 := { s with mvb := { s.mvb with bufs := mvbPut s.mvb.bufs addr data } }
    if !mayTransmit s then s1
    else if bothFault s.mvb then busFail s1 .mvb 0 addr (BitVec.ofNat 32 addr) .remoteError iss
    else { s1 with mvb := { s1.mvb with launched := (addr, iss) :: s1.mvb.launched.filter (fun x => x.1 != addr) } }
  | .can i data iss => canLaunch s i data iss

/-- A launch that fires: its items driven. -/
def fireLaunch (s : State) (l : Launch) : State := l.items.foldl fireItem s

/-- A launch that is due where it would be queued: it fires at once and counts as LATE (R167, R169, R171). -/
def fireLate (s : State) (l : Launch) : State := fireLaunch { s with cyc := { s.cyc with late := satInc s.cyc.late } } l

/-- The items of a commit with their group's launch time, computed from the boundary: queued, or fired where that time has come. A group whose
packing takes until later launches as that ends, which counts as LATE (R166, R167, R293). -/
def queueLaunch (s : State) (og : Nat) (items : List LaunchItem) (packed : Word) : State :=
  let t := s.cyc.bttc + BitVec.ofNat 64 (nthD s.cyc.offsets og 0 * 1000)
  let l : Launch := ⟨t.setWidth 32, t, items⟩
  if launchDue s l then fireLate s l
  else if 0 < (packed - t).toInt then
    queueNew { s with cyc := { s.cyc with late := satInc s.cyc.late } } og ⟨packed.setWidth 32, packed, items⟩
  else queueNew s og l

/-- Groups of items with the end of their packing: 2 µs after the boundary and 0.625 ns for each entry packed so far (R293, assumption 201). -/
def packEnds (s : State) : Nat → List (Nat × List LaunchItem) → List (Nat × List LaunchItem × Word)
  | _, [] => []
  | n, x :: xs =>
    let m := n + itemConvs s.ci.act x.2
    (x.1, x.2, s.cyc.bttc + BitVec.ofNat 64 (2000 + ceilDiv (5 * m) 8)) :: packEnds s m xs

/-- The items of boundary k packed from the values of its image and queued for their launches, in ascending launch time (R166,
R167, R293). A gateway in reset packs nothing (R451). -/
def packAndQueue (s : State) (k : Mcc) (vals : List PubSig) (skip : List OutFrame) : State :=
  let p := packAll s k vals skip
  let gs := sortBy (fun a b => decide (nthD s.cyc.offsets a.1 0 ≤ nthD s.cyc.offsets b.1 0)) (packGroups p.1)
  if bit s.rst.portHeld 8 then s
  else (packEnds s 0 gs).foldl (fun s x => queueLaunch s x.1 x.2.1 x.2.2)
    (pmuCount ((List.range p.1.length).foldl (fun s _ => passTag s) { s with gw := p.2 }) 9 0x247 (itemConvs s.ci.act (p.1.map (·.2))))

/-! ## Compatibility polls (R301) -/

/-- The COMPAT entries of a bus whose poll a boundary selects. -/
def compatDue (s : State) (mvb : Bool) : List (Nat × GwEnt) :=
  (gwEnts s.ci.act).filter (fun x => x.2.compat && (x.2.bus == 0) == mvb && s.cyc.mcc.toNat % 2 ^ x.2.pollExp == 0)

/-- A poll under a tag of class BRIDGE; one not answered before it completes TIMEOUT (R301). -/
def pollTag (s : State) (i : Nat) (u : TUnit) : State :=
  let s1 := match s.txe.tags.find? (fun t => t.req == .poll i) with
    | some t => finishTag { s with gw := { s.gw with pollTo := satInc s.gw.pollTo } } t .timeout
    | none => s
  let s2 := { s1 with gw := { s1.gw with polls := s1.gw.polls + 1 } }
  if tagFree s2 .bridge then (allocTag s2 u .bridge (.poll i) none false none).1 else noteTags s2 .bridge .deferred

/-- The payload of a POLL_FRAME record as last packed; before that zeros of its length (R293, R301). -/
def pollData (s : State) (i : Nat) : List Byte :=
  match s.gw.polled.find? (fun x => x.1 == i), (canIds s.ci.act).find? (fun x => x.1 == i) with
  | some x, _ => x.2
  | none, some (_, .canId _ _ dlc ..) => List.replicate (dlcLen dlc) 0
  | _, _ => []

/-- The CAN poll requests of a boundary, 10 µs after it (R301). -/
def canPolls (s : State) : State :=
  if !mayTransmit s then s
  else (compatDue s false).foldl (fun s x =>
    match canFrameOf s.ci.act x.2.pollFrame (pollData s x.2.pollFrame) with
    | some (n, f) => canQueue (pollTag s x.1 (canPort n).unit) n f (.poll x.1) {} (some (t0 s + 10000))
    | none => s) s

/-- The polls that a reception on a frame or port answers. -/
def pollAnswered (s : State) (bus frame : Nat) : State :=
  (entsOf s.ci.act bus frame false).foldl (fun s x =>
    if x.2.compat then match s.txe.tags.find? (fun t => t.req == .poll x.1) with
      | some t => finishTag s t .ok
      | none => s
    else s) s

/-! ## Remote accesses (R297 to R299) -/

/-- A RETRY to a runtime access, counted; the 17th completes REFUSED_CAPACITY (R298). -/
def busRetry (s : State) (t : TagEnt) : State :=
  let s1 := { s with
    gw := { s.gw with retries := satInc s.gw.retries, refused := if 16 ≤ t.retries then satInc s.gw.refused else s.gw.refused }
    mvb := if t.unit = .mvb then { s.mvb with retry := satInc s.mvb.retry } else s.mvb }
  tagRetry s1 t

/-- An access to a range under a semaphore number (R299). -/
def underSem (s : State) (t : TagEnt) (unit sem a : Nat) (k : State → State) : State :=
  match semCheck s.gw.sems unit sem a a with
  | .timeout => finishTag s t .timeout
  | .retry => busRetry s t
  | .go => k s

/-- Raw frames waiting in a controller. -/
def rawCount (c : Can) : Nat := (c.pend.filter (fun p => match p.src with
  | .raw _ => true
  | _ => false)).length

/-- Whether a port has a poll in progress, from its master frame to its slave frame; a poll of a device's status is none (R298). -/
def portPolled (s : State) (port : Nat) : Bool :=
  match s.mvb.poll with
  | some p => p.addr == port && p.fcode != 15
  | none => false

/-- A remote access carried to its unit: refused by a poll in progress, a full raw queue or a semaphore, else under way; an
MVB_WRITE is current at once, a semaphore granted or freed at once; a write waits behind an earlier one of its unit that waits (R226, R297 to
R299). -/
def issueBus (s : State) (t : TagEnt) : State :=
  if (writesAhead s t).any (·.again) then waitAgain s t
  else match t.req with
  | .mvbRead port _ _ sem => underSem s t 4 sem port (fun s => if portPolled s port then busRetry s t else s)
  | .mvbWrite port data sem => underSem s t 4 sem port (fun s =>
      if portPolled s port then busRetry s t
      else if bothFault s.mvb then finishTag s t .remoteError
      else { s with mvb := { s.mvb with bufs := mvbPut s.mvb.bufs port data } })
  | .canSend ident data fd brs sem =>
      let n := if t.unit = .can0 then 0 else 1
      underSem s t (5 + n) sem (ident.toNat % 2 ^ 29) (fun s =>
        if 8 ≤ rawCount (canOf s n) then busRetry s t
        else modCan s n (fun c => { c with pend := c.pend ++
          [{ frame := { ident := ident.setWidth 29, ext := bit ident 31, fd, brs, data }, src := .raw t.tag, mcc := s.cyc.mcc, ready := s.tb.ttc }] }))
  | .canRecv ident _ _ sem => underSem s t (if t.unit = .can0 then 5 else 6) sem (ident.toNat % 2 ^ 29) id
  | .gwSem unit sem first last => match semAcquire s.gw.sems unit sem first last with
      | some l => { s with gw := { s.gw with sems := l } }
      | none => busRetry s t
  | .gwSemRel sem =>
      let r := semRelease s.gw.sems sem
      if r.2 = .ok then { s with gw := { s.gw with sems := r.1 } } else finishTag s t r.2
  | _ => s

/-- A remote submission of ring 1 with a tag of class BRIDGE (R224, R227). -/
def submitBus (s : State) (q : SubReq) (u : TUnit) (r : TagReq) (ns : Nat) : State :=
  submit s 1 q.req q.wait u .bridge (fun s =>
    let a := allocTag s u .bridge r (some (1, q.req)) q.posted (some (ttcIn s ns))
    match tagOf a.1 a.2 with
    | some t => issueBus a.1 t
    | none => a.1)

end Sys2Proof.Machine
end

