-- ==== Sys2Proof/Machine/TimeOps.lean ====
section
/-! DEFINITION. Machine/TimeOps.lean: master selection, the measured offset, its confirmation, steps and refusals
(13_time_base, R307 to R317). -/

namespace Sys2Proof.Machine

/-! ## Planes and masters (R307 to R310) -/

/-- The PTP clock of a plane; true for ECN-B. -/
def ptpOf (s : State) (b : Bool) : PtpPlane := if b then s.tb.b else s.tb.a

/-- The PTP clock of a plane changed. -/
def modPtp (s : State) (b : Bool) (f : PtpPlane → PtpPlane) : State :=
  if b then { s with tb := { s.tb with b := f s.tb.b } } else { s with tb := { s.tb with a := f s.tb.a } }

/-- Whether TIME.FLAGS runs an ordinary clock on a plane (R307). -/
def ptpOn (s : State) (b : Bool) : Bool := if b then s.ci.act.time.ptpB else s.ci.act.time.ptpA

/-- A dataset as the numbers that IEEE 1588 compares in order, the lower being the better. -/
def PtpDs.key (d : PtpDs) : List Nat := [d.prio1.toNat, d.cls.toNat, d.acc.toNat, d.var.toNat, d.prio2.toNat, d.id.toNat]

/-- Whether one list of numbers comes before another, compared from the front. -/
def lexLt : List Nat → List Nat → Bool
  | x :: xs, y :: ys => decide (x < y) || (x == y && lexLt xs ys)
  | _, _ => false

/-- Whether a dataset compares better than another (R309). -/
def PtpDs.better (d e : PtpDs) : Bool := lexLt d.key e.key

/-- The clockIdentity derived from the factory MAC address (R308): its six bytes with FF FE between the halves. -/
def clockId (s : State) : Word :=
  let m := s.tk.fuses.serial.toNat % 2 ^ 48
  BitVec.ofNat 64 (m / 2 ^ 24 * 2 ^ 40 + 0xFFFE000000 + m % 2 ^ 24)

/-- The module's own dataset (R319). -/
def ownDs (s : State) : PtpDs :=
  { prio1 := s.tb.ptpCfg.extractLsb' 16 8, prio2 := s.tb.ptpCfg.extractLsb' 8 8, id := clockId s }

/-- Whether the module may be grandmaster: TIME.FLAGS bit 1, in a group as ACTIVE (R319). -/
def gmCapable (s : State) : Bool := s.ci.act.time.ptpMaster && drives s

/-- TIME_HOLD: the duration of the current or last holdover (R318, R322). -/
def holdNow (s : State) : Reg32 :=
  match s.tb.holdFrom with
  | some t => BitVec.ofNat 32 (s.cul.optime.toNat - t)
  | none => s.tb.hold

/-- The operating time in LOCKED in 0.1 s (R318). -/
def lockedTime (s : State) : Nat := s.tb.lockBase + (s.tb.lockFrom.map (fun t => s.cul.optime.toNat - t)).getD 0

/-- The frequency estimate averaged over the last 64 s of LOCKED operation, over its measurements; without any the present one (R318,
assumption 19). -/
def holdFreq (s : State) : Int :=
  let l := (s.tb.freqHist.filter (fun x => decide (lockedTime s ≤ x.1 + 640))).map (·.2)
  if l.isEmpty then s.tb.freqPpb else l.sum.tdiv l.length

/-- A time base state entered, with its STATE record when it changes; HOLDOVER runs on the averaged frequency estimate alone (R313, R318, R471,
assumption 19). -/
def tbState (s : State) (x : TbState) : State :=
  if s.tb.state = x then s
  else
    let s1 := { s with tb := { s.tb with
      state := x, lockRun := 0, hold := holdNow s
      freqPpb := if x = .holdover then clampInt (holdFreq s) (-100000) 100000 else s.tb.freqPpb
      lockBase := lockedTime s, lockFrom := if x = .locked then some s.cul.optime.toNat else none
      phasePpb := if x = .holdover then 0 else s.tb.phasePpb
      holdFrom := if x = .holdover then some s.cul.optime.toNat else none } }
    record s1 (if x = .holdover then .warning else .info) srcTime (cState x.num)

/-- The confirmation begun anew, as after a change of master or of plane; the offset of a step that is due stays (R312, R315). -/
def freshRun (s : State) : State :=
  { s with tb := { s.tb with last3 := [], kept := [], lockRun := 0, confirmed := if s.tb.stepDue.isSome then s.tb.confirmed else none } }

/-- A master selected for the time base: ACQUIRING from FREE and HOLDOVER (R313). -/
def masterTaken (s : State) : State :=
  let s1 := freshRun s
  if s1.tb.state = .free ∨ s1.tb.state = .holdover then tbState s1 .acquiring else s1

/-- The time base moved to the other plane (R309, R321). -/
def selectPlane (s : State) (b : Bool) : State :=
  masterTaken (record { s with tb := { s.tb with selB := b } } .notice srcTime (cChange 0) (if b then 1 else 0))

/-- The selected plane is without a master: the other plane's master serves, or the time base holds over (R309, R313, R321). -/
def planeLost (s : State) : State :=
  if (ptpOf s !s.tb.selB).best.isSome then selectPlane s !s.tb.selB
  else if s.tb.state = .locked ∨ s.tb.state = .acquiring then tbState s .holdover else s

/-- A plane's PTP instance restarted; its registers stay (R309, R321, R322). -/
def ptpRestart (s : State) (b : Bool) : State :=
  let p := ptpOf s b
  let s1 := modPtp s b (fun _ => { egress := p.egress, ingress := p.ingress, path := p.path, gmId := p.gmId })
  if s.tb.selB = b ∧ (p.best.isSome ∨ (ptpOf s !b).best.isSome) then planeLost (record s1 .warning srcTime (cFault 0) (if b then 1 else 0)) else s1

/-- Whether a plane without a master serves no longer: no clock runs there, its announce receipt timeout has passed or its link is down
(R309). -/
def planeGone (s : State) (b : Bool) : Bool := !ptpOn s b || (ptpOf s b).timedOut || !(nthD s.eth.ports (if b then 1 else 0) {}).up

/-- An announced master (R307, R309, R319): with intervals outside R307 it is not selected; the module's own better dataset keeps the
plane; else the best announced so far is the plane's master, and the time base follows the better plane, or this one once the selected plane without a
master is gone. -/
def takeAnnounce (s : State) (b : Bool) (d : PtpDs) (ls la : Int) : State :=
  if ls < -7 ∨ 1 < ls ∨ la < -3 ∨ 3 < la then s
  else if gmCapable s && (ownDs s).better d then
    (if ((ptpOf s b).best.map (·.id)) = some d.id then
      let s1 := modPtp s b (fun p => { p with best := none, sync := none, offset := none, asGm := false, gmId := 0 })
      if s.tb.selB = b then planeLost s1 else s1
    else s)
  else
    let p := ptpOf s b
    let take := match p.best with
      | none => true
      | some e => d.better e || (e.id == d.id && e != d)
    if !take then s
    else
      let change := match p.best with
        | none => true
        | some e => e.id != d.id
      let s1 := modPtp s b (fun p => { p with
        best := some d, asGm := false, gmId := d.id, timedOut := false
        sync := (if change then none else p.sync)
        offset := (if change then none else p.offset) })
      let other := (ptpOf s !b).best
      if s.tb.selB = b then
        let s2 := if change then masterTaken s1 else s1
        match other with
        | some e => if e.better d then selectPlane s2 !b else s2
        | none => s2
      else match other with
        | none => if planeGone s1 !b then selectPlane s1 b else s1
        | some e => if d.better e then selectPlane s1 b else s1

/-! ## The measured offset (R310 to R312) -/

/-- The largest distance between two of a list of offsets. -/
def spread (l : List Int) : Nat := (l.map (fun x => (l.map (fun y => (x - y).natAbs)).foldl max 0)).foldl max 0

/-- TS_STEP_MAX in ns (R315). -/
def stepMaxNs (s : State) : Nat := s.ci.act.time.stepMaxUs * 1000

/-- Whether the ACTIVE of a formed group sets the steps of this module (R314, R315). -/
def stepsByActive (s : State) : Bool := inGroup s && s.grp.formed && s.grp.role != .out

/-- A step due: standalone and before formation at the boundary given, in a formed group at the target that the ACTIVE sets, no earlier than the
second boundary, and the members hold (R314, R315). -/
def stepAt (s : State) (own : Mcc) (refused : Nat) : State :=
  if s.tb.stepDue.isSome then s
  else if stepsByActive s then (if s.grp.role = .active then setTarget s (nextMcc s + 1) (.timeStep refused 0) else s)
  else { s with tb := { s.tb with stepDue := some { target := own, refusedCase := refused } } }

/-- A confirmed offset kept: the first one of a first lock, and while a step is due the one that it rests on (R314, R315, assumption 215). -/
def keepConfirmed (s : State) (o : Int) : State :=
  { s with tb := { s.tb with confirmed := if s.tb.confirmed.isSome && (s.tb.stepDue.isSome || !s.tb.valid) then s.tb.confirmed else some o } }

/-- A confirmed offset refused: HOLDOVER, TIME_PENDING, with STEP_REFUSED new a CRITICAL record; a step of a confirmed offset that this module alone
has decided does not take place, since the TTC does not move (R316). -/
def refuseStep (s : State) (o : Int) : State :=
  let s1 := tbState { s with tb := { s.tb with
    pendingUs := clampInt (o.tdiv 1000) (-2147483648) 2147483647
    stepDue := if stepsByActive s then s.tb.stepDue else s.tb.stepDue.filter (fun d => d.refusedCase != 0) } } .holdover
  if s.tb.stepRefused then s1
  else
    let gm : Word := match (ptpOf s s.tb.selB).best with
      | some d => d.id
      | none => 0
    record { s1 with tb := { s1.tb with stepRefused := true, refusedCnt := satInc s1.tb.refusedCnt } }
      .critical srcTime (cRefused .refusedPolicy) 0 (beBytes 8 (BitVec.ofInt 64 o).toNat ++ beBytes 8 gm.toNat)

/-- A refusal ended by a confirmed offset within TS_STEP_MAX: a NOTICE record; an acceptance that waits at this module alone has nothing left to
accept (R316). -/
def endRefusal (s : State) : State :=
  if s.tb.stepRefused then
    record (tbState { s with tb := { s.tb with
      stepRefused := false, acceptPending := stepsByActive s && s.tb.acceptPending
      stepDue := if stepsByActive s then s.tb.stepDue else s.tb.stepDue.filter (fun d => d.refusedCase == 0) } } .acquiring)
      .notice srcTime (cCleared 0)
  else s

/-- Four measurements that confirm an offset (R312): first lock, nothing beyond the slew, a step, or a refusal. -/
def confirm (s : State) (o : Int) : State :=
  let s1 := keepConfirmed s o
  if !s.tb.valid then stepAt s1 (nextMcc s) 0
  else if stepMaxNs s < o.natAbs then refuseStep s1 o
  else
    let s2 := endRefusal s1
    if 1000 < o.natAbs then stepAt s2 (nextMcc s) 0 else s2

/-- The servo's slew: the frequency estimate, held at ±100 ppm with a WARNING record when it reaches the limit, less a phase term of at most
10 ppm in the offset's direction; LOCKED keeps the estimates of its last 64 s (R312, R318). -/
def slew (s : State) (o : Int) : State :=
  let f := Config.freqEstimate s.tb.measures o
  let c := clampInt f (-100000) 100000
  let ph := clampInt (Config.phaseTerm s.tb.measures o) (if 0 < o then 0 else -10000) (if o < 0 then 0 else 10000)
  let s1 := { s with tb := { s.tb with
    freqPpb := c, phasePpb := ph
    freqHist := if s.tb.state = .locked then (lockedTime s, c) :: s.tb.freqHist.filter (fun x => decide (lockedTime s ≤ x.1 + 640)) else s.tb.freqHist } }
  if c ≠ f ∧ s.tb.freqPpb.natAbs < 100000 then record s1 .warning srcTime (cFault 0) else s1

/-- The run of measurements within 100 ns that makes the time base LOCKED (R313). -/
def lockStep (s : State) (o : Int) : State :=
  let n := if o.natAbs ≤ 100 then s.tb.lockRun + 1 else 0
  let s1 := { s with tb := { s.tb with lockRun := n } }
  if s.tb.state = .acquiring ∧ 16 ≤ n then tbState s1 .locked else s1

/-- Offsets of both planes that follow one grandmaster compared: more than 1 µs apart in 8 measurements in a row sets PLANE_DIFF, 8
within clear it (R309). -/
def planeDiff (s : State) : State :=
  match s.tb.a.best, s.tb.b.best, s.tb.a.offset, s.tb.b.offset with
  | some x, some y, some i, some j =>
    if x.id ≠ y.id then { s with tb := { s.tb with diffRun := 0, sameRun := 0 } }
    else if 1000 < (i - j).natAbs then
      let s1 := { s with tb := { s.tb with diffRun := s.tb.diffRun + 1, sameRun := 0 } }
      if 8 ≤ s.tb.diffRun + 1 ∧ s.tb.planeDiff = false then
        record { s1 with tb := { s1.tb with planeDiff := true } } .warning srcTime (cFault 0) else s1
    else
      let s1 := { s with tb := { s.tb with sameRun := s.tb.sameRun + 1, diffRun := 0 } }
      if 8 ≤ s.tb.sameRun + 1 then { s1 with tb := { s1.tb with planeDiff := false } } else s1
  | _, _, _, _ => s

/-- The longest front part of a list of offsets within 1,000 ns of one another, after what is already taken. -/
def closeRun : List Int → List Int → List Int
  | acc, [] => acc
  | acc, x :: xs => if spread (x :: acc) ≤ 1000 then closeRun (acc ++ [x]) xs else acc

/-- A measurement of the selected plane: an outlier is discarded; every other starts or continues a confirmation, which four in a row within
1,000 ns of one another are; the servo slews outside HOLDOVER and while no step is refused (R312, R313, R316, R318). -/
def measure (s : State) (o : Int) : State :=
  let h := s.tb.last3
  let s0 := { s with tb := { s.tb with measures := s.tb.measures + 1, last3 := (o :: h).take 3 } }
  if h.length = 3 ∧ spread h ≤ 1000 ∧ h.all (fun x => decide (1000 < (o - x).natAbs)) = true then
    { s0 with tb := { s0.tb with discards := satInc s0.tb.discards, kept := [] } }
  else
    let run := (closeRun [] (o :: s.tb.kept)).take 4
    let s1 := { s0 with tb := { s0.tb with
      offset := clampInt o (-2147483648) 2147483647, kept := run
      pendingUs := if s.tb.stepRefused then clampInt (o.tdiv 1000) (-2147483648) 2147483647 else s.tb.pendingUs } }
    let s2 := if 4 ≤ run.length then confirm s1 o else s1
    let s3 := if s2.tb.valid && decide (o.natAbs ≤ 1000) && !s2.tb.stepRefused && s2.tb.state != .holdover then slew s2 o else s2
    lockStep s3 o

/-- A Sync used: its offset by the capture at the MDI, the origin time and the mean path delay; on the selected plane it ends a HOLDOVER that no
refusal holds, its master being selected again (R310, R313, assumption 179). -/
def takeSync (s : State) (b : Bool) (id : Word) (t1 : Word) : State :=
  let p := ptpOf s b
  if (match p.best with
      | some d => d.id == id
      | none => false) then
    let t2 := s.tb.ttc - p.ingress.setWidth 64
    let o := (t2 - t1).toInt - p.path
    let s1 := modPtp { s with tb := { s.tb with syncs := s.tb.syncs + 1 } } b (fun p => { p with offset := some o, sync := some (t1, t2) })
    let s2 := if s.tb.selB = b ∧ s.tb.state = .holdover ∧ s.tb.stepRefused = false then tbState s1 .acquiring else s1
    planeDiff (if s.tb.selB = b then measure s2 o else s2)
  else s

/-- The asymmetry entered for a plane (R311). -/
def asymOf (s : State) (b : Bool) : Int := if b then s.tb.asymB else s.tb.asymA

/-- The profile of a plane: 0 the default one over UDP/IPv4, 1 the default one over 802.3, 2 802.1AS (R307, R322). -/
def profileOf (s : State) (b : Bool) : BitVec 2 := if b then s.tb.ptpCfg.extractLsb' 4 2 else s.tb.ptpCfg.extractLsb' 0 2

/-- Whether a plane's profile is 802.1AS. -/
def asProfile (s : State) (b : Bool) : Bool := profileOf s b == 2

/-- The domainNumber of both planes (R319, R322). -/
def ptpDomain (s : State) : Byte := s.tb.ptpCfg.extractLsb' 24 8

/-- The answer to a delay request: half the sum of both ways (R310). -/
def takeDelay (s : State) (b : Bool) (t4 : Word) : State :=
  match (ptpOf s b).sync, (ptpOf s b).req with
  | some (t1, t2), some t3 => modPtp s b (fun p => { p with path := ((t2 - t1).toInt + (t4 - t3).toInt).tdiv 2, req := none })
  | _, _ => s

/-- The answer to a peer delay request (R307, R310). -/
def takePeerDelay (s : State) (b : Bool) (t2 t3 : Word) : State :=
  match (ptpOf s b).req with
  | some t1 =>
    let t4 := s.tb.ttc - (ptpOf s b).ingress.setWidth 64
    modPtp s b (fun p => { p with path := ((t4 - t1).toInt - (t3 - t2).toInt).tdiv 2, req := none })
  | none => s

end Sys2Proof.Machine
end

