-- ==== Sys2Proof/Machine/EthOps.lean ====
section
/-! DEFINITION. Machine/EthOps.lean: addresses, egress queues, process data publication and reception, the dual-plane comparison and
MD delivery (11_ethernet_ports_and_trdp, R248 to R271). -/

namespace Sys2Proof.Machine

/-! ## Ports and addresses (R249 to R252) -/

/-- An Ethernet port: 0 ECN-A, 1 ECN-B, 2 MAINT. -/
abbrev EthNo := Fin 3

/-- The port of a number. -/
def EthNo.port (i : EthNo) : Port := if i = 0 then .ecnA else if i = 1 then .ecnB else .maint

/-- A port's state. -/
def ethPort (s : State) (i : EthNo) : EthPort := nthD s.eth.ports i.val {}

/-- A port's state changed. -/
def modEth (s : State) (i : EthNo) (f : EthPort → EthPort) : State := { s with eth := { s.eth with ports := modNth s.eth.ports i.val f } }

/-- The PORT record of a port: IPv4, netmask, VLAN, PCP_DEFAULT; MAINT without one 192.168.240.1/24 (R76, R250). -/
structure PortCfg where
  ip : Ip4 := 0
  mask : Ip4 := 0
  vlan : Nat := 0
  pcp : Nat := 0
  enable : Bool := false
  mode : Nat := 0
  deriving DecidableEq, Repr

/-- The configuration of a port in an image. -/
def portCfg (g : ConfImage) (i : EthNo) : PortCfg :=
  match g.iomap.findSome? (fun r => match r with
    | .port id en mode ip mask vlan pcp => if id = i.val then some ({ ip, mask, vlan, pcp, enable := en != 0, mode } : PortCfg) else none
    | _ => none) with
  | some c => c
  | none => if i = 2 then { ip := 0xC0A8F001, mask := 0xFFFFFF00 } else {}

/-- The factory MAC address: the low 48 bits of the serial number (the model's choice; R250 gives none). -/
def factoryMac (s : State) : Mac := s.tk.fuses.serial.setWidth 48

/-- The MAC address in use (R250). -/
def macOf (s : State) (i : EthNo) : Mac :=
  if i = 2 then factoryMac s + 1
  else if inGroup s then 0x02554B000000#48 + BitVec.ofNat 48 (s.ci.act.group.rackId % 256 * 256 + s.ci.act.group.groupId % 256)
  else factoryMac s

/-- Whether an IPv4 address is a multicast group. -/
def isMcast (a : Ip4) : Bool := a.extractLsb' 28 4 == 0xE#4

/-- Whether an IPv4 address is the broadcast of a port's subnet. -/
def isBcast (c : PortCfg) (a : Ip4) : Bool := a == (c.ip ||| ~~~c.mask)

/-- Whether a telegram to an address is accepted (R251). -/
def accepts (s : State) (i : EthNo) (a : Ip4) : Bool :=
  let c := portCfg s.ci.act i
  a == c.ip || isBcast c a || isMcast a

/-- The MAC address of a destination: multicast mapping, broadcast, else the ARP table's (R252). -/
def resolve (s : State) (i : EthNo) (a : Ip4) : Option Mac :=
  if isMcast a then some (0x01005E000000#48 + (a.extractLsb' 0 23).setWidth 48)
  else if isBcast (portCfg s.ci.act i) a then some 0xFFFFFFFFFFFF
  else (s.eth.arp.find? (fun x => x.1 == a)).map (·.2)

/-! ## Gates and transmission (R162, R256, R257) -/

/-- The gate list of a port; empty: every gate open (R257). -/
def gateList (g : ConfImage) (i : EthNo) : List (Byte × Nat) :=
  if i = 2 then [] else ((g.tsn.find? (fun t => t.port == i.val)).map (·.entries)).getD []

/-- The end of entry n of a list that began at a TTC: the last one stays until the boundary, none goes past it (R162). -/
def entryEnd (s : State) (l : List (Byte × Nat)) (n : Nat) (t : Word) : Word :=
  let e := t + BitVec.ofNat 64 (nthD l n (0, 0)).2
  if l.length ≤ n + 1 ∨ 0 < (e - s.cyc.timerTtc).toInt then s.cyc.timerTtc else e

/-- The gate list of a port run from the start (R162). -/
def gateStart (s : State) (i : EthNo) : State :=
  modEth s i (fun p => { p with gclCur := 0, gclEndTtc := entryEnd s (gateList s.ci.act i) 0 s.tb.ttc })

/-- The time a frame occupies the line with its preamble, in ns. -/
def frameNs (p : EthPort) (f : EthFrame) : Nat := (max 64 f.bytes + 8) * if p.speed = 1 then 80 else 8

/-- Whether a frame of a class may start now: its gate is open and its last bit leaves before the entry's end (R257). -/
def gateAllows (s : State) (i : EthNo) (tc : Nat) (f : EthFrame) : Bool :=
  let l := gateList s.ci.act i
  let p := ethPort s i
  l.isEmpty || (bit (nthD l p.gclCur (0, 0)).1 tc && decide (frameNs p f ≤ (p.gclEndTtc - s.tb.ttc).toInt.toNat))

/-- A PTP event message, which every member of a group sends (R308). -/
def isPtpEvent (f : EthFrame) : Bool :=
  match f.pay with
  | .ptp (.delayReq _) .. => true
  | .ptp (.pdelayReq _) .. => true
  | .ptp (.pdelayResp ..) .. => true
  | _ => false

/-- Whether the module may send a frame on a port now: in STOP, RUN and HOLD, not fail-silent, the link up since before the boundary;
on the planes of a group the ACTIVE alone, PTP event messages apart (R15, R37, R184, R249, R308). -/
def maySend (s : State) (i : EthNo) (f : EthFrame) : Bool :=
  let p := ethPort s i
  p.up && p.txOk && p.enable && !portHeld s i.port &&
  (mayTransmit s || ((i == 2 || isPtpEvent f) && !s.safe.failSilent &&
    (s.glb.state == .stop || s.glb.state == .run || s.glb.state == .hold)))

/-- A class and the frame at the head of its queue, when it may start now. -/
def headOf (s : State) (i : EthNo) (tc : Nat) : Option (Nat × TxFrame) :=
  match nthD (ethPort s i).queues tc [] with
  | f :: _ => if maySend s i f.frame && gateAllows s i tc f.frame then some (tc, f) else none
  | [] => none

/-- The frame that starts next: of the highest class that has one (R256). -/
def nextFrame (s : State) (i : EthNo) : Option (Nat × TxFrame) := [7, 6, 5, 4, 3, 2, 1, 0].findSome? (headOf s i)

/-- The number that stands for the status telegram among the publications (R270). -/
def statusPub : Nat := 65535

/-- Whether the discarded frame of a publication has had its WARNING record in this major cycle (R259). -/
def replacedNoted (s : State) (n : Nat) : Bool :=
  if n = statusPub then s.eth.statusNoted else (nthD s.eth.pubs n {}).replacedNoted

/-- A publication's discarded frame noted for this major cycle. -/
def noteReplaced (s : State) (n : Nat) : State :=
  if n = statusPub then { s with eth := { s.eth with statusNoted := true } }
  else { s with eth := { s.eth with pubs := modNth s.eth.pubs n (fun x => { x with replacedNoted := true }) } }

/-- A frame put at the end of an egress queue; a frame of the same publication that has not left is discarded and counted, with a
WARNING record once per ComID per major cycle; a Pp replaces none (R256, R259). A disabled or held port takes none. -/
def enqueue (s : State) (i : EthNo) (tc : Nat) (f : TxFrame) : State :=
  let p := ethPort s i
  if !p.enable || portHeld s i.port then s
  else
    let q := nthD p.queues tc []
    let same (x : TxFrame) : Bool := f.pub.isSome && !f.pull && x.pub == f.pub && !x.pull
    let old := q.any same
    let put (q : List TxFrame) : List TxFrame := q.filter (fun x => !same x) ++ [f]
    let s1 := modEth s i (fun p => { p with queues := modNth p.queues tc put, replaced := if old then satInc p.replaced else p.replaced })
    if !old then s1
    else
      let n := f.pub.getD 0
      if replacedNoted s1 n then suppress s1 i.port.src (cFailed .timeout)
      else
        record (noteReplaced s1 n)
          .warning i.port.src (cFailed .timeout) (match f.frame.pay with
            | .pd h _ _ => h.comId
            | _ => 0)

/-- A frame queued for the planes its source selects: on both with one redundancy control trailer sequence number, on one without a
trailer (R254). -/
def sendPlanes (s : State) (a b : Bool) (tc : Nat) (f : EthFrame) (pub : Option Nat := none) (tag : Option (BitVec 18) := none)
    (pull : Bool := false) : State :=
  if a && b then
    let q := s.eth.prpSeq
    let s1 := { s with eth := { s.eth with prpSeq := q + 1 } }
    enqueue (enqueue s1 0 tc { frame := { f with rct := some (false, q), bytes := f.bytes + 6 }, pub, tag, pull }) 1 tc
      { frame := { f with rct := some (true, q), bytes := f.bytes + 6 }, pub, tag, pull }
  else if a then enqueue s 0 tc { frame := f, pub, tag, pull }
  else if b then enqueue s 1 tc { frame := f, pub, tag, pull }
  else s

/-- A frame of this module: VLAN or priority tag, class and length of a payload with its headers (R256). -/
def ownFrame (s : State) (i : EthNo) (dst : Ip4) (mac : Mac) (pcp len : Nat) (pay : EthPay) : EthFrame :=
  let c := portCfg s.ci.act i
  { src := macOf s i, srcIp := c.ip, dstIp := dst, dstMac := mac, vid := some c.vlan, pcp, bytes := 50 + len, pay }

/-- Whether a PTP message belongs to the peer delay mechanism. -/
def isPeerDelay : PtpMsg → Bool
  | .pdelayReq _ => true
  | .pdelayResp .. => true
  | _ => false

/-- A PTP frame of a plane: class 7, without a trailer, from the factory MAC address; over UDP/IPv4 to 224.0.1.129 under profile 0, else over
802.3 to the MAC address of its mechanism (R254, R256, R307, R308, assumption 213). -/
def sendPtp (s : State) (b : Bool) (m : PtpMsg) : State :=
  let i : EthNo := if b then 1 else 0
  let f : EthFrame := if profileOf s b = 0 then ownFrame s i 0xE0000181 0x01005E000181 7 44 (.ptp m (ptpDomain s) false)
    else
      let mac : Mac := if asProfile s b || isPeerDelay m then 0x0180C200000E else 0x011B19000000
      { ownFrame s i 0 mac 7 44 (.ptp m (ptpDomain s) true) with srcIp := 0, bytes := 66 }
  enqueue s i 7 { frame := { f with src := factoryMac s } }

/-- An ARP frame on one plane; its destination address is the target address that it names. -/
def sendArp (s : State) (i : EthNo) (ip : Ip4) (pay : EthPay) (mac : Mac) : State :=
  enqueue s i (portCfg s.ci.act i).pcp { frame := { ownFrame s i ip mac (portCfg s.ci.act i).pcp 14 pay with bytes := 64 } }

/-- ARP requests for an address on both planes. -/
def askArp (s : State) (a : Ip4) : State :=
  if drives s then sendArp (sendArp s 0 a (.arpRequest a) 0xFFFFFFFFFFFF) 1 a (.arpRequest a) 0xFFFFFFFFFFFF else s

/-- An unresolved destination: counted, asked for, a NOTICE record once per destination (R252, R271). -/
def unresolvedDest (s : State) (i : EthNo) (a : Ip4) : State :=
  let s1 := { s with eth := { s.eth with
    unresolved := if s.eth.unresolved.contains a then s.eth.unresolved else s.eth.unresolved ++ [a] } }
  let s2 := if s.eth.unresolved.contains a then s1 else askArp s1 a
  if s2.eth.arpNoted.contains a then s2
  else record { s2 with eth := { s2.eth with arpNoted := a :: s2.eth.arpNoted } } .notice i.port.src (cFailed .timeout) a.toNat

/-- An address learnt: kept when a destination waits for it, and refreshed when the table of 512 has it (R252). -/
def learnArp (s : State) (a : Ip4) (m : Mac) : State :=
  if s.eth.arp.any (fun x => x.1 == a) then { s with eth := { s.eth with arp := s.eth.arp.map (fun x => if x.1 = a then (a, m) else x) } }
  else if s.eth.unresolved.contains a && decide (s.eth.arp.length < 512) then
    { s with eth := { s.eth with arp := s.eth.arp ++ [(a, m)], unresolved := s.eth.unresolved.filter (· != a) } }
  else s

/-! ## Data sets (R258, R261) -/

/-- The signals of a run of SIDs in ascending order. -/
def runSigs (g : ConfImage) (first : Sid) (count : Nat) : List SigRec :=
  (List.range count).filterMap (fun i => sigRec g (first + BitVec.ofNat 24 i))

/-- The offset of each signal of a data set, aligned to the size of its type (R258). -/
def sigOffsets : Nat → List SigRec → List (SigRec × Nat)
  | _, [] => []
  | off, r :: rs =>
    let o := ceilDiv off (tySize r.t) * tySize r.t
    (r, o) :: sigOffsets (o + tySize r.t) rs

/-- Bytes brought to at least a length with zero bytes. -/
def extendTo (n : Nat) (l : List Byte) : List Byte := l ++ List.replicate (n - l.length) 0

/-- The timed process data header of a published version's values (R261). -/
def timedHeader (g : ConfImage) (x : Published) (offUs : Nat) : List Byte :=
  let node := (g.iomap.findSome? (fun r => match r with
    | .node m => some m
    | _ => none)).getD 0
  [0x54, 0x50, 0x01, x.flags] ++ beBytes 4 ((x.bttc.toNat / 1000 + offUs) % 2 ^ 32) ++ beBytes 4 x.ver.toNat ++ beBytes 2 node ++ [0, 0]

/-- The data set of a run of signals before a safety trailer (R258). -/
def dataSet (g : ConfImage) (x : Published) (timed : Bool) (offUs : Nat) (first : Sid) (count : Nat) : List Byte :=
  let h := if timed then timedHeader g x offUs else []
  let l := (sigOffsets h.length (runSigs g first count)).foldl (fun l (r, o) =>
    let v : Word := match x.sigs.find? (fun y => y.sid == r.sid) with
      | some y => y.v.val
      | none => 0
    extendTo o l ++ beBytes (tySize r.t) (rawOf r.t v).toNat) h
  extendTo (ceilDiv l.length 4 * 4) l

/-- The values of a run of signals out of a received data set (R258). -/
def dataVals (g : ConfImage) (timed : Bool) (first : Sid) (count : Nat) (data : List Byte) : List (SigRec × Word) :=
  (sigOffsets (if timed then 16 else 0) (runSigs g first count)).map (fun (r, o) =>
    (r, BitVec.ofNat 64 (leNat (padTo (tySize r.t) (data.drop o)).reverse)))

/-! ## Publication (R163, R259, R265, R270) -/

/-- A publication's state changed. -/
def modPub (s : State) (i : Nat) (f : PubStat → PubStat) : State := { s with eth := { s.eth with pubs := modNth s.eth.pubs i f } }

/-- A TRDP header of this module (R259). -/
def ownHdr (s : State) (t : TrdpType) (comId : Nat) (seq : Reg32) (len : Nat) : TrdpHdr :=
  { mtype := t, comId, seq, etbTopo := s.eth.etbTopo, opTopo := s.eth.opTopo, len }

/-- The launch offset of an output group for the outputs committed at boundary k: the old plane's at a swap boundary (R88). -/
def offsetAt (s : State) (og : Nat) (k : Mcc) : Nat :=
  let now := (groupOffset s.ci.act og).getD 10
  if s.ci.swappedAt = some k then (groupOffset s.ci.shd og).getD now else now

/-- The trailer that the island builds for a publication: the user data version of its SDT record, the counter of its boundary, the safety
code (R265, R365, assumption 204). -/
def sdtTrailer (g : ConfImage) (i : Nat) (ssc : Reg32) (data : List Byte) : SdtTrailer :=
  match g.safety.sdt.find? (fun d => d.pub && d.iomapIndex == i) with
  | some d => { ssc, udv := BitVec.ofNat 16 d.udv, code := Config.safetyCode d.smi d.udv ssc data }
  | none => { ssc }

/-- One publication sent from a published version to a destination, the SDT counter of its boundary with it (R259, R265). -/
def sendPub (s : State) (i : Nat) (r : IoRec) (x : Published) (t : TrdpType) (seq : Reg32) (dst : Ip4) : State :=
  match r with
  | .pdPub comId first count plen _ pexp og timed sdt a b _ pcp _ =>
    (match resolve s 0 dst with
    | none => unresolvedDest s 0 dst
    | some mac =>
      let data := dataSet s.ci.act x timed (offsetAt s og x.ver) first count
      let tr : SdtTrailer := if sdt then sdtTrailer s.ci.act i (x.ver / BitVec.ofNat 32 (2 ^ pexp)) data else {}
      let f := ownFrame s 0 dst mac pcp (40 + plen) (.pd (ownHdr s t comId seq plen) data tr)
      sendPlanes (modPub s i (fun p => { p with mcc := x.ver })) a b pcp f (some i) none (t == .pp))
  | _ => s

/-- The push publications of boundary k queued in ascending record order, by a module that drives the planes (R15, R163, R259, R271). -/
def publishPd (s : State) (k : Mcc) : State :=
  match s.pim.ring with
  | [] => s
  | x :: _ => if !drives s then s else
    ((List.range (pdPubs s.ci.act).length).zip (pdPubs s.ci.act)).foldl (fun s (i, r) => match r with
      | .pdPub _ _ _ _ dest pexp _ _ _ _ _ pull _ _ =>
        if !pull && k.toNat % 2 ^ pexp == 0 then sendPub s i r x .pd (k / BitVec.ofNat 32 (2 ^ pexp)) dest else s
      | _ => s) s

/-- The exponent of the status telegrams: the smallest p with T_base × 2^p of at least 500 ms (R270). -/
def statusExp (g : ConfImage) : Nat := ((List.range 12).find? (fun p => decide (500000 ≤ g.time.tbaseUs * 2 ^ p))).getD 11

/-- Whether a plane is faulty: a configured link down or a plane fault on a subscription (R28, R263, R271). -/
def planeFault (s : State) (b : Bool) : Bool :=
  let p := ethPort s (if b then 1 else 0)
  (p.enable && !p.up) || s.eth.subs.any (fun x => if b then x.pfB else x.pfA)

/-- Whether a port other than the planes is faulty: an MVB line, a CAN port off its bus, a port in reset; MAINT and the group links count
while they are powered (R28, R61, R278, R286). -/
def portFault (s : State) : Bool :=
  s.mvb.lineA.fault || s.mvb.lineB.fault || s.can0.busOff || s.can1.busOff ||
  [Port.ecnA, .ecnB, .mvb, .can0, .can1].any (fun p => portHeld s p) ||
  [Port.maint, .glL, .glR].any (fun p => portHeld s p && bit s.pgv.portPowered p.num)

/-- Whether a group runs with fewer than three voting members (R28). -/
def peerFault (s : State) : Bool := inGroup s && s.grp.formed && decide ((voters s.grp.roles).length < 3)

/-- FAULTS of the module's own status block (R270). -/
def ownFaults (s : State) : Byte :=
  let b (i : Nat) (x : Bool) : Byte := if x then setBit 0 i else 0
  b 0 (portFault s) ||| b 1 (planeFault s false) ||| b 2 (planeFault s true) ||| b 3 (peerFault s) ||| b 4 (s.grp.latent != 0) |||
  b 5 s.cyc.syncLost ||| b 6 s.tb.stepRefused ||| b 7 s.pgv.derating

/-- The module's own status block (R270). -/
def ownBlock (s : State) : List Byte :=
  [BitVec.ofNat 8 s.glb.state.num, BitVec.ofNat 8 s.grp.role.num, BitVec.ofNat 8 (if inGroup s then ownPos s else 0), ownFaults s] ++
  beBytes 4 s.ci.act.hdr.version.toNat ++ (beBytes 48 s.ci.act.hdr.imageHash.toNat).take 8 ++ beBytes 2 s.glb.forces.length ++
  beBytes 2 s.pgv.input.toNat ++ beBytes 4 (s.cul.optime.toNat / 36000) ++ beBytes 4 s.evr.newest.toNat ++ [0, 0, 0, 0]

/-- The block of another position: zero without its heartbeats; what a heartbeat shows of it, the version of an image with the own hash, and for the rest the free bytes of
assumption 20, since R327 gives no frame that carries the block (R270, R331). -/
def peerBlock (s : State) (pos : Nat) : List Byte :=
  let l := linkTo (ownPos s) pos
  match (s.grp.peer l).hb with
  | some h =>
    if 0 < (s.grp.peer l).misses then List.replicate 32 0
    else
      let free (i n : Nat) : List Byte := (List.range n).map (fun j => Config.peerByte pos (i + j) s.cyc.mcc.toNat)
      let version := if h.hash = s.ci.act.hdr.imageHash then beBytes 4 s.ci.act.hdr.version.toNat else free 4 4
      [BitVec.ofNat 8 h.mstate.num, BitVec.ofNat 8 h.role.num, BitVec.ofNat 8 pos] ++ free 3 1 ++ version ++ (beBytes 48 h.hash.toNat).take 8 ++
      free 16 12 ++ [0, 0, 0, 0]
  | none => List.replicate 32 0

/-- The status telegram of boundary k on both planes to 239.192.48.1 (R270). -/
def sendStatus (s : State) (k : Mcc) : State :=
  match s.pim.ring with
  | [] => s
  | x :: _ =>
    let p := statusExp s.ci.act
    if k.toNat % 2 ^ p = 0 ∧ mayTransmit s = true then
      let g := inGroup s
      let head := timedHeader s.ci.act x 0
      let body := if g then
          [BitVec.ofNat 8 s.ci.act.group.groupId, BitVec.ofNat 8 s.grp.state.num, BitVec.ofNat 8 (activePos s)] ++ List.replicate 13 0 ++
          [1, 2, 3].flatMap (fun q => if q = ownPos s then ownBlock s else peerBlock s q)
        else ownBlock s
      let data := head ++ body
      let c := portCfg s.ci.act 0
      let f := ownFrame s 0 0xEFC03001 0x01005E403001 c.pcp (40 + data.length)
        (.pd (ownHdr s .pd (if g then 31101 else 31100) (k / BitVec.ofNat 32 (2 ^ p)) data.length) data {})
      sendPlanes s true true c.pcp f (some statusPub)
    else s

/-- The pull requests of boundary k, each under a tag of class PD for one pull period (R224, R260). -/
def pullRequests (s : State) (k : Mcc) : State :=
  if !mayTransmit s then s
  else ((List.range (pdSubs s.ci.act).length).zip (pdSubs s.ci.act)).foldl (fun s (i, r) => match r with
    | .pdSub comId _ _ _ src _ _ pull pexp _ =>
      if !pull || k.toNat % 2 ^ pexp != 0 then s
      else
        let s1 := match s.txe.tags.find? (fun t => t.req == .pull i) with
          | some t => finishTag s t .timeout
          | none => s
        if !tagFree s1 .pd then noteTags s1 .pd .deferred
        else match resolve s1 0 src with
          | none => unresolvedDest s1 0 src
          | some mac =>
            let a := allocTag s1 .ethA .pd (.pull i) none false (some (ttcIn s1 (tbaseNs s1 * 2 ^ pexp)))
            let c := portCfg s.ci.act 0
            let h := { ownHdr s .pr comId (k / BitVec.ofNat 32 (2 ^ pexp)) 0 with replyIp := c.ip }
            sendPlanes a.1 true true c.pcp (ownFrame s 0 src mac c.pcp 40 (.pd h [] {}))
    | _ => s) s

/-! ## Reception of process data (R260, R263) -/

/-- A subscription's state. -/
def subOf (s : State) (i : Nat) : SubStat := nthD s.eth.subs i {}

/-- A subscription's state changed. -/
def modSub (s : State) (i : Nat) (f : SubStat → SubStat) : State := { s with eth := { s.eth with subs := modNth s.eth.subs i f } }

/-- A telegram rejected by a subscription. -/
def rejectSub (s : State) (i : Nat) : State := modSub s i (fun x => { x with rejects := satInc x.rejects })

/-- Whether a topology counter lets a telegram pass (R260). -/
def topoOk (a b : Reg32) : Bool := a == 0 || b == 0 || a == b

/-- What a subscription's record says. -/
structure SubCfg where
  comId : Nat
  first : Sid
  count : Nat
  len : Nat
  src : Ip4
  timed : Bool
  sdt : Bool
  deriving DecidableEq, Repr

/-- The subscription of an index. -/
def subCfg (g : ConfImage) (i : Nat) : Option SubCfg :=
  match (pdSubs g)[i]? with
  | some (.pdSub comId first count len src timed sdt _ _ _) => some { comId, first, count, len, src, timed, sdt }
  | _ => none

/-- The subscriptions of a ComID in record order. -/
def subsOf (g : ConfImage) (comId : Nat) : List Nat :=
  (List.range (pdSubs g).length).filter (fun i => match subCfg g i with
    | some c => c.comId == comId
    | none => false)

/-- The header checks of R260. -/
def pdHdrOk (s : State) (i : Nat) (c : SubCfg) (src : Ip4) (h : TrdpHdr) : Bool :=
  h.fcsOk && h.verOk && (h.mtype == .pd || h.mtype == .pp) && h.len == c.len && (c.src == 0 || c.src == src) &&
  topoOk h.etbTopo s.eth.etbTopo && topoOk h.opTopo s.eth.opTopo &&
  (c.sdt || (match (subOf s i).senders.find? (fun x => x.src == src) with
    | some x => before x.seq h.seq
    | none => true))

/-- The sender's counter noted with its plane; the first one without a stored counter writes a NOTICE record, once per sender and
subscription (R260). -/
def noteSender (s : State) (i : Nat) (c : SubCfg) (src : Ip4) (seq : Reg32) (planeB : Bool) : State :=
  let x := subOf s i
  let known := x.senders.any (fun y => y.src == src)
  let s1 := modSub s i (fun x => { x with
    senders := { src, seq, planeB, last := s.tb.ttc } :: x.senders.filter (fun y => y.src != src)
    noted := if known || x.noted.contains src then x.noted else src :: x.noted })
  if known || x.noted.contains src then s1 else record s1 .notice Port.ecnA.src (cChange 0) c.comId (beBytes 4 src.toNat)

/-- The writes of an accepted data set with one code (R209, R260). -/
def pdWrites (s : State) (c : SubCfg) (data : List Byte) (code : BitVec 4) : List RxWrite :=
  (dataVals s.ci.act c.timed c.first c.count data).map (fun (r, v) => { sid := r.sid, val := v, code })

/-- Train time in µs modulo 2^32 at a TTC (R166, R262). -/
def ltAt (ttc : Word) : Reg32 := BitVec.ofNat 32 (ttc.toNat / 1000)

/-- The timed telegrams whose LT32 lies before a TTC act now, in the order of their arrival (R262). -/
def timedArrive (s : State) : State :=
  let due (x : Reg32 × RxWait) : Bool := atOrBefore x.1 (ltAt (s.tb.ttc - 1))
  (s.eth.timedHeld.filter due).foldl (fun s x => carryRx s x.2)
    { s with eth := { s.eth with timedHeld := s.eth.timedHeld.filter (fun x => !due x) } }

/-- What an accepted telegram writes: of a timed one at its LT32, at once and counted as late where that time has come, at once too while
either side's TIME_VALID is clear (R262). -/
def timedAct (s : State) (c : SubCfg) (data : List Byte) (x : RxWait) : State :=
  let lt := BitVec.ofNat 32 (leNat ((data.drop 4).take 4).reverse)
  if !c.timed || !bit (nthD data 3 0) 3 || !s.tb.valid then carryRx s x
  else if atOrBefore lt (ltAt s.tb.ttc) then carryRx { s with eth := { s.eth with timedLate := satInc s.eth.timedLate } } x
  else { s with eth := { s.eth with timedHeld := s.eth.timedHeld ++ [(lt, x)] } }

/-- The plane's port. -/
def planePort (b : Bool) : Port := if b then .ecnB else .ecnA

/-- A pull answered by its Pp (R260). -/
def answerPull (s : State) (i : Nat) (pp : Bool) : State :=
  match s.txe.tags.find? (fun t => pp && t.req == .pull i) with
  | some t => finishTag s t .ok
  | none => s

/-- A telegram accepted: its sender noted, the timed header's flags, source MCC and the time stamp kept, an outstanding pull answered by a Pp, all its
signals written in one tag, a safe one's data set into its copy area with them, at its LT32 where it is timed (R260 to R262, R310, R371). -/
def acceptPd (s0 : State) (i : Nat) (c : SubCfg) (x : HeldCopy) (code : BitVec 4) : State :=
  let s := timedArrive (noteSender s0 i c x.src x.seq x.planeB)
  let s1 := modSub s i (fun y => { y with
    cnt := y.cnt + 1, stamp := x.stamp
    hdrFlags := if c.timed then nthD x.data 3 0 else y.hdrFlags
    mcc := if c.timed then BitVec.ofNat 32 (leNat ((x.data.drop 8).take 4).reverse) else y.mcc })
  let s2 := answerPull s1 i x.pp
  timedAct (pmuCount s2 9 0x240 1) c x.data
    { port := planePort x.planeB, cls := .pd, writes := pdWrites s2 c x.data code
      copy := if c.sdt then some { index := i, data := x.data, tr := x.tr } else none }

/-- A GOOD acceptance of a safe telegram: both single counts and the plane faults clear, with a NOTICE record (R263). -/
def sdtGood (s : State) (i : Nat) (c : SubCfg) (x : HeldCopy) : State :=
  let y := subOf s i
  let s1 := modSub s i (fun y => { y with held := none, consumed := some x.ssc, singleA := 0, singleB := 0, pfA := false, pfB := false })
  let s2 := if y.pfA || y.pfB then record s1 .notice (planePort y.pfB).src (cCleared 0) c.comId else s1
  acceptPd s2 i c x qGood

/-- A SINGLE_PLANE acceptance of a copy from plane X: the other plane's single count rises, at SDT_SINGLE_MAX to a plane fault with an
ERROR record (R263). -/
def sdtSingle (s : State) (i : Nat) (c : SubCfg) (x : HeldCopy) : State :=
  let y := subOf s i
  let n := (if x.planeB then y.singleA else y.singleB) + 1
  let had := if x.planeB then y.pfA else y.pfB
  let fault := decide (s.ci.act.safety.sdtSingleMax ≤ n)
  let s1 := modSub { s with eth := { s.eth with single := satInc s.eth.single } } i (fun y =>
    if x.planeB then { y with held := none, consumed := some x.ssc, singleA := n, pfA := y.pfA || fault }
    else { y with held := none, consumed := some x.ssc, singleB := n, pfB := y.pfB || fault })
  let s2 := if fault && !had then
      record { s1 with eth := { s1.eth with sdtFault := setBit s1.eth.sdtFault (if x.planeB then 0 else 1) } }
        .error (planePort !x.planeB).src (cFault 0) c.comId
    else s1
  acceptPd (pmuCount s2 9 0x242 1) i c x qSinglePlane

/-- The copies of one safe telegram differ: both rejected, the writer's code PLANE_MISMATCH with value and age unchanged, a WARNING
record once per subscription per major cycle (R263, R271). -/
def sdtMismatch (s : State) (i : Nat) (c : SubCfg) (x : HeldCopy) : State :=
  let y := subOf s i
  let s1 := modSub { s with eth := { s.eth with mismatch := satInc s.eth.mismatch } } i
    (fun y => { y with held := none, consumed := some x.ssc, mismatchNoted := true })
  let s2 := if y.mismatchNoted then suppress s1 Port.ecnA.src (cFault 0) else record s1 .warning Port.ecnA.src (cFault 0) c.comId
  let ws : List RxWrite := (runSigs s.ci.act c.first c.count).map (fun r =>
    { sid := r.sid, val := (stagedVal s r.sid).1, code := qPlaneMismatch, keep := true })
  carryRx (pmuCount s2 9 0x243 1) { port := planePort x.planeB, cls := .pd, writes := ws }

/-- A copy held for its twin until SDT_SKEW_MAX (R263). -/
def sdtHold (s : State) (i : Nat) (x : HeldCopy) : State :=
  modSub s i (fun y => { y with held := some { x with due := ttcIn s (s.ci.act.safety.sdtSkewMaxMs * 1000000) } })

/-- Whether a plane's link is up. -/
def planeUp (s : State) (b : Bool) : Bool := (ethPort s (if b then 1 else 0)).up

/-- Whether a received copy is valid: its safety code, the user data version of its SDT record, and a counter later than the last one
consumed (R263). -/
def sdtValid (s : State) (i : Nat) (x : HeldCopy) : Bool :=
  x.tr.codeOk && ((sdtSub s.ci.act i).map (fun d => x.tr.udv.toNat == d.udv)).getD true &&
  ((subOf s i).consumed.map (fun q => before q x.ssc)).getD true

/-- A safe copy from a plane decided by the state machine of R263. -/
def sdtCopy (s : State) (i : Nat) (c : SubCfg) (x : HeldCopy) : State :=
  if !sdtValid s i x then rejectSub s i
  else match (subOf s i).held with
    | none => if planeUp s !x.planeB then sdtHold s i x else sdtSingle s i c x
    | some h =>
      if x.ssc = h.ssc then
        (if h.planeB = x.planeB then rejectSub s i
         else if h.data = x.data ∧ h.tr = x.tr then sdtGood s i c x
         else sdtMismatch s i c x)
      else if before h.ssc x.ssc then sdtHold (sdtSingle s i c h) i x
      else rejectSub s i

/-- A held copy accepted as SINGLE_PLANE: its timer has expired or the other plane's link has gone down (R263). -/
def sdtRelease (s : State) (i : Nat) : State :=
  match (subOf s i).held, subCfg s.ci.act i with
  | some h, some c => sdtSingle s i c h
  | _, _ => s

/-- The copies held from a plane accepted, since the other plane's link has gone down (R263). -/
def releasePlane (s : State) (b : Bool) : State :=
  (List.range s.eth.subs.length).foldl (fun s j => match (subOf s j).held with
    | some h => if h.planeB = b then sdtRelease s j else s
    | none => s) s

/-- A TRDP header, length, topology or sequence reject. -/
def hdrReject (s : State) (i : Nat) : State :=
  rejectSub { s with eth := { s.eth with hdrTrdp := satInc s.eth.hdrTrdp } } i

/-- The time stamp of a frame received now on a plane, at the MDI (R310). -/
def ingressTtc (s : State) (b : Bool) : Word := s.tb.ttc - (ptpOf s b).ingress.setWidth 64

/-- A received Pd or Pp of a subscription (R260, R263). -/
def pdReceive (s : State) (i : Nat) (b : Bool) (src : Ip4) (h : TrdpHdr) (data : List Byte) (tr : SdtTrailer) : State :=
  match subCfg s.ci.act i with
  | none => s
  | some c =>
    if !pdHdrOk s i c src h then hdrReject s i
    else if c.timed && data.take 3 != [0x54, 0x50, 0x01] then
      rejectSub { s with eth := { s.eth with hdrTimed := satInc s.eth.hdrTimed } } i
    else
      let x : HeldCopy := { ssc := tr.ssc, planeB := b, data, due := 0, tr, src, seq := h.seq, pp := h.mtype == .pp, stamp := ingressTtc s b }
      if c.sdt then sdtCopy s i c x else acceptPd s i c x qGood

/-- A received Pd or Pp given to every subscription of its ComID that takes its sender, to the first of them where none does; one that no record names
is FILTERED (R253, R260, assumption 207). -/
def pdTake (s : State) (p : EthNo) (src : Ip4) (h : TrdpHdr) (data : List Byte) (tr : SdtTrailer) : State :=
  let l := subsOf s.ci.act h.comId
  let fit := l.filter (fun i => match subCfg s.ci.act i with
    | some c => c.src == 0 || c.src == src
    | none => false)
  match l, fit with
  | [], _ => modEth s p (fun x => { x with filtered := satInc x.filtered })
  | n :: _, [] => pdReceive s n (p == 1) src h data tr
  | _, fs => fs.foldl (fun s i => pdReceive s i (p == 1) src h data tr) s

/-- The pull-reply publication of a ComID. -/
def pullPub (g : ConfImage) (comId : Nat) : Option (Nat × IoRec) :=
  ((List.range (pdPubs g).length).zip (pdPubs g)).find? (fun x => match x.2 with
    | .pdPub c _ _ _ _ _ _ _ _ _ _ pull _ _ => c == comId && pull
    | _ => false)

/-- A Pr answered with one Pp from P_latest (R259). -/
def pullReply (s : State) (x : Nat × IoRec) (h : TrdpHdr) : State :=
  match s.pim.ring with
  | [] => s
  | p :: _ => if mayTransmit s then sendPub s x.1 x.2 p .pp p.ver h.replyIp else s

/-! ## MD (R266, R267) -/

/-- The MD_SESSION record of an index: ComID, role, longest message, at most 65,388 bytes, timeout in ms (R266). -/
def mdSession (g : ConfImage) (i : Nat) : Option (Nat × Nat × Nat × Nat) :=
  match (g.iomap.filter (fun r => r.kind == 4))[i]? with
  | some (.mdSession c role len t) => some (c, role, min len 65388, t)
  | _ => none

/-- The listener session of a ComID. -/
def mdListener (g : ConfImage) (comId : Nat) : Option Nat :=
  (List.range 256).find? (fun i => match mdSession g i with
    | some (c, role, _, _) => c == comId && role == 0
    | none => false)

/-- The TRDP message type as the descriptor holds it: its two letters. -/
def TrdpType.code : TrdpType → Nat
  | .pd => 0x5064 | .pr => 0x5072 | .pp => 0x5070 | .mn => 0x4D6E | .mr => 0x4D72 | .mp => 0x4D70 | .mq => 0x4D71 | .mc => 0x4D63
  | .me => 0x4D65 | .pe => 0x5065

/-- The 32-byte descriptor of a message (R267). -/
def mdDesc (id : BitVec 128) (peer : Ip4) (comId : Nat) (t : TrdpType) (token : Reg32) : List Byte :=
  beBytes 16 id.toNat ++ leBytes 4 peer.toNat ++ leBytes 4 comId ++ leBytes 2 t.code ++ [0, 0] ++ leBytes 4 token.toNat

/-- A dropped MD message. -/
def mdDrop (s : State) : State := { s with eth := { s.eth with mdDropped := satInc s.eth.mdDropped } }

/-- A message put into the first RECEIVE buffer of a session, whose submission completes; a reply token, counted up from 1, goes with a message that may
be answered and 0 with any other (assumption 194); a longer one completes it REFUSED_CAPACITY (R267). -/
def mdInto (s : State) (ses : Nat) (peer : Ip4) (h : TrdpHdr) (data : List Byte) : State × Bool :=
  match s.eth.bufs.find? (fun b => b.session == ses) with
  | none => (mdDrop s, false)
  | some b =>
    let s1 := { s with eth := { s.eth with bufs := dropFirst (fun b => b.session == ses) s.eth.bufs } }
    let fin (s : State) (st : Status) (len : Nat) : State := match tagOf s b.tag with
      | some t => finishTag s t st (len := len)
      | none => s
    if b.len < data.length + 32 then (fin s1 .refusedCapacity 0, false)
    else
      let ans := h.mtype == .mr || h.mtype == .mq
      let tok := if ans then s1.eth.tokenNext else 0
      let s2 := if ans then
          { s1 with eth := { s1.eth with tokenNext := tok + 1, tokens := s1.eth.tokens ++ [⟨tok, ses, peer, h.comId, h.session⟩] } } else s1
      (fin (dramWrite s2 b.addr (mdDesc h.session peer h.comId h.mtype tok ++ data)) .ok data.length, true)

/-- The REQUEST in flight of a TRDP session identifier. -/
def mdRequestOf (s : State) (id : BitVec 128) : Option (TagEnt × Nat × Nat × Nat) :=
  s.txe.tags.findSome? (fun t => match t.req with
    | .mdRequest ses e g x _ => if x = id then some (t, ses, e, g) else none
    | _ => none)

/-- The bytes of the message that an MD request sent. -/
def TagReq.mdLen : TagReq → Nat
  | .mdRequest _ _ _ _ len => len
  | .mdSend _ len => len
  | _ => 0

/-- A reply to a REQUEST: it lands in a buffer of the session; the REQUEST completes with the expected number (R267). -/
def mdReplyIn (s : State) (peer : Ip4) (h : TrdpHdr) (data : List Byte) : State :=
  match mdRequestOf s h.session with
  | none => mdDrop s
  | some (t, ses, e, g) =>
    let r := if ((mdSession s.ci.act ses).map (fun m => decide (m.2.2.1 < data.length))).getD false then (mdDrop s, false) else mdInto s ses peer h data
    if !r.2 then r.1
    else if e ≠ 0 ∧ e ≤ g + 1 then (match tagOf r.1 t.tag with
      | some t => finishTag r.1 t .ok (len := t.req.mdLen)
      | none => r.1)
    else modTag r.1 t.tag (fun t => { t with req := match t.req with
      | .mdRequest ses e g id len => .mdRequest ses e (g + 1) id len
      | q => q })

/-- A whole MD message delivered, with the time stamp of its last frame (R266, R267, R310). -/
def mdDeliver (s : State) (peer : Ip4) (h : TrdpHdr) (data : List Byte) (stamp : Word) : State :=
  let s := { pmuCount s 9 0x245 1 with eth := { s.eth with mdStamp := stamp } }
  match h.mtype with
  | .me => (match mdRequestOf s h.session with
    | some (t, _) => finishTag s t .remoteError
    | none => mdDrop s)
  | .mp => mdReplyIn s peer h data
  | .mq => mdReplyIn s peer h data
  | _ => match mdListener s.ci.act h.comId with
    | none => mdDrop s
    | some ses => match mdSession s.ci.act ses with
      | some (_, _, mx, _) => if mx < data.length then mdDrop s else (mdInto s ses peer h data).1
      | none => mdDrop s

/-- A fragment added to its reassembly, at most 16 in flight; a complete message leaves it, and an unfragmented one needs none (R266). -/
def mdReasm (s : State) (src : Ip4) (h : TrdpHdr) (data : List Byte) (off : Nat) : State × Option (List Byte) :=
  let is (x : MdReasm) : Bool := x.src == src && x.session == h.session
  let cur := s.eth.reasm.find? is
  if cur.isNone && off == 0 && decide (h.len ≤ data.length) then (s, some data)
  else if cur.isNone && decide (16 ≤ s.eth.reasm.length) then (mdDrop s, none)
  else
    let x := cur.getD { src, session := h.session, since := s.tb.ttc }
    let parts := (off, data) :: x.parts.filter (fun p => p.1 != off)
    let rest := s.eth.reasm.filter (fun y => !is y)
    if h.len ≤ (parts.map (fun p => p.2.length)).sum then
      ({ s with eth := { s.eth with reasm := rest } }, some ((sortBy (fun a b => decide (a.1 ≤ b.1)) parts).flatMap (·.2)))
    else ({ s with eth := { s.eth with reasm := rest ++ [{ x with parts }] } }, none)

/-- Whether a request is a posted RECEIVE buffer, which is no exchange. -/
def TagReq.isReceive : TagReq → Bool
  | .mdReceive .. => true
  | _ => false

/-- MD exchanges in flight: the messages sent under a tag, the posted RECEIVE buffers apart (R266, R273). -/
def mdInFlight (s : State) : Nat := (s.txe.tags.filter (fun t => t.cls == .md && !t.req.isReceive)).length

/-- A sequence of fragments of at most 1,368 bytes of a message, each with its offset and whether more follow. -/
def mdFrags : Nat → Nat → List Byte → List (Nat × List Byte × Bool)
  | 0, _, _ => []
  | n + 1, off, l => if l.length ≤ 1368 then [(off, l, false)] else (off, l.take 1368, true) :: mdFrags n (off + 1368) (l.drop 1368)

/-- An MD message sent on both planes, fragmented over IPv4; a destination not yet resolved is not sent to (R252, R254, R266). -/
def mdSendMsg (s : State) (dst : Ip4) (h : TrdpHdr) (data : List Byte) (tag : BitVec 18) : State :=
  match resolve s 0 dst with
  | none => unresolvedDest s 0 dst
  | some mac =>
    let c := portCfg s.ci.act 0
    (mdFrags (data.length / 1368 + 1) 0 data).foldl (fun s (off, l, more) =>
      sendPlanes s true true c.pcp (ownFrame s 0 dst mac c.pcp (116 + l.length) (.md h l more off)) none (some tag)) (pmuCount s 9 0x245 1)

end Sys2Proof.Machine
end

