-- ==== Sys2Proof/Machine/TileCore.lean ====
section
/-! DEFINITION. Machine/TileCore.lean: bundles: how an instruction of slot 0 and one of slot 1 are issued together, what
the end of a bundle does, and the access rules of the scratchpad (06_tile_instruction_set, R122, R123, R131, R132). -/

namespace Sys2Proof.Machine

/-- The program running on a tile: none, the main program, or the running handler (R104, R107, R122). The main
program runs in PROGRAM, and in SLACK once no handler runs in the window, until its deadline counter is zero (R114). -/
inductive Runner where
  | none | main | handler (h : HandlerRun)
  deriving DecidableEq, Repr

/-- The program a tile's issue unit is running. -/
def Tile.runner (t : Tile) : Runner :=
  match t.hand with
  | some h => if h.ended then .none else .handler h
  | none => if (t.phase = .program ∨ t.phase = .slack) ∧ t.inst = true ∧ 0 < t.deadline then .main else .none

/-- The flags of the running program: the main or the handler copy (R123). -/
def Tile.flags (t : Tile) : BitVec 5 :=
  match t.runner with
  | .handler h => h.tsf
  | _ => t.tsf

/-- Where control goes once it stands at `pc` after a bundle: past the last bundle of a loop body back to its first
while executions are left, else out of the loop (R132). -/
def loopBack (pc : Nat) : List LoopFrame → Nat × List LoopFrame
  | [] => (pc, [])
  | f :: fs =>
    if pc = f.last + 1 then
      (if 1 < f.left then (f.first, { f with left := f.left - 1 } :: fs) else loopBack pc fs)
    else (pc, f :: fs)

/-- The position and loops after a bundle at `pc` with a control transfer (R132). -/
def advance (pc : Nat) (loops : List LoopFrame) : Ctl → Nat × List LoopFrame
  | .seq => loopBack (pc + 1) loops
  | .jump d => loopBack (pc + d) loops
  | .loop len count =>
    if count = 0 then loopBack (pc + 1 + len) loops
    else (pc + 1, ⟨pc + 1, pc + len, count⟩ :: loops)
  | .brk =>
    match loops with
    | [] => (pc + 1, [])
    | f :: fs => loopBack (f.last + 1) fs
  | .stop => (pc + 1, loops)

/-- A register write of a half bundle. -/
def Tile.wr (t : Tile) (w : Option (GReg × Word)) : Tile :=
  match w with
  | some (r, v) => t.setReg r v
  | none => t

/-- The flags after a bundle: cleared first where GETF clears them, then set by both instructions (R122, R127;
assumption 7). -/
def flagsAfter (old : BitVec 5) (a b : HalfBundle) : BitVec 5 :=
  (if a.clr || b.clr then 0 else old) ||| a.set ||| b.set

/-- The end of a bundle: both instructions write, the cycles of the longer one pass, control moves; after END the main program's DRAIN or the
handler's event-window drain begins (R104, R122, R139). -/
def Tile.endBundle (t : Tile) (a b : HalfBundle) : Tile :=
  let t1 := { ((t.wr a.wr).wr b.wr) with open0 := none }
  let cyc := max a.cyc b.cyc
  match t.runner with
  | .handler h =>
    let (pc, loops) := advance h.pc h.loops a.ctl
    { t1 with hand := t1.hand.map (fun h => { h with tsf := flagsAfter h.tsf a b, pc, loops, cyc := h.cyc + cyc, ended := a.ctl == .stop }) }
  | _ =>
    let (pc, loops) := advance t.pc t.loops a.ctl
    { t1 with
      tsf := flagsAfter t.tsf a b, pc, loops, cyc := t.cyc + cyc, deadline := t.deadline - cyc
      phase := if a.ctl = .stop then .drain else t1.phase }

/-- The main program's next bundle after a slack window puts the tile in PROGRAM again (R107). -/
def Tile.leaveSlack (t : Tile) (sl : Slot) : Tile :=
  if sl = .s1 then t else match t.runner with
  | .main => { t with phase := .program }
  | _ => t

/-- A slot-0 instruction opens its bundle; a slot-1 instruction closes it (R122). A word that no bundle of the
tile can take leaves the tile as it is (assumption 8). -/
def Tile.take (t : Tile) (sl : Slot) (h : HalfBundle) : Tile :=
  match sl, t.open0 with
  | .s0, none => { t with open0 := some h }
  | .s1, some a => t.endBundle a h
  | _, _ => t

/-- Whether the tile runs a program and its bundle can take an instruction of this slot. -/
def Tile.ready (t : Tile) (sl : Slot) : Bool :=
  (t.runner != .none) && (match sl with
    | .s0 => t.open0.isNone
    | .s1 => t.open0.isSome)

/-- The bundle of a slot-1 instruction is issued (R122, R487). -/
def bundleCount (s : State) (sl : Slot) : State := if sl = .s1 then pmuCount s 8 0x201 1 else s

/-- The scratchpad address of the word that the tile is issuing, in its code half (R100, R120 to R122). -/
def instrAddr (t : Tile) (p : TileProg) (sl : Slot) : Nat :=
  let at_ : Nat × Nat := match t.runner with
    | .handler h => ((p.handlers.find? (fun e => e.evtTask == h.task)).elim 0 (·.entry), h.pc)
    | _ => (p.mainEntry, t.pc)
  0x10000 * t.codeHalf.toNat + at_.1 + 8 * at_.2 + if sl = .s1 then 4 else 0

/-- A reserved encoding reached: the tile is stopped, the record naming the word's address (R145). -/
def trapWord (s : State) (n : TileNo) (sl : Slot) : State :=
  let t := s.fab.tile n
  tileTrap s n (instrAddr t (tileProg s n t.codeHalf) sl)

/-- An instruction that reads registers and flags and writes at the end of its bundle. A word whose fields are not
defined is a reserved encoding and stops the tile (R143, R145). -/
def issue (s : State) (n : TileNo) (sl : Slot) (op : Nat) (f : TFields) (h : Tile → HalfBundle) : State :=
  let t := s.fab.tile n
  if !t.ready sl then s
  else if !fieldsOk op f then trapWord s n sl
  else bundleCount (modTile s n (fun t => let t := t.leaveSlack sl; t.take sl (h t))) sl

/-- The half bundle of a result for RD in a number of cycles. -/
def half (rd : GReg) (cyc : Nat) (r : Res) : HalfBundle := { wr := some (rd, r.1), set := r.2, cyc }

/-- The cycles of an opcode at a type; 0 where it refuses the class, which `issue` never reaches. -/
def cyc (op : Nat) (ty : BitVec 4) : Nat := (opCycles op ty).getD 0

/-- An RR instruction with one result. -/
def issueRR (s : State) (n : TileNo) (sl : Slot) (op : Nat) (f : RR) (g : Tile → Res) : State :=
  issue s n sl op (.rr f) (fun t => half f.rd (cyc op f.ty) (g t))

/-! ## Access rules (R131) -/

/-- The window words of the descriptors of an event task, as byte ranges of the event window (R102, R131). -/
def evtRanges (p : TileProg) (task : Nat) : List (Nat × Nat) :=
  (p.descs.filter (fun d => d.evt && d.evtTask == task)).map
    (fun d => (0x3E000 + 32 * d.winWord, 0x3E000 + 32 * (d.winWord + d.count)))

/-- Whether an access of the main program is within R131. -/
def mainMay (write : Bool) (a n : Nat) : Bool :=
  (decide (0x20000 ≤ a) && decide (a + n ≤ 0x30000)) ||
  (!write && decide (0x30000 ≤ a) && decide (a + n ≤ 0x38000)) ||
  (decide (0x38000 ≤ a) && decide (a + n ≤ 0x3C000)) ||
  (decide (0x3C000 ≤ a) && decide (a + n ≤ 0x3E000)) ||
  (!write && decide (0x3F000 ≤ a) && decide (a + n ≤ 0x40000))

/-- Whether an access of a handler is within R131: local data the main program does not access, the event window
words of its own descriptors, the release block. -/
def handMay (p : TileProg) (task : Nat) (write : Bool) (a n : Nat) : Bool :=
  (decide (0x20000 ≤ a) && decide (a + n ≤ 0x30000) && p.mainLocal.all (fun r => decide (a + n ≤ r.1) || decide (r.2 ≤ a))) ||
  (evtRanges p task).any (fun r => decide (r.1 ≤ a) && decide (a + n ≤ r.2)) ||
  (!write && decide (0x3F800 ≤ a) && decide (a + n ≤ 0x40000))

/-- Whether two runs of words, each a first word and a number, have a word in common. -/
def wordsMeet (a na b nb : Nat) : Bool := decide (a < b + nb) && decide (b < a + na)

/-- The slot rules of R112 for an access of the main program to network buffers, at the cycle at which it starts: during the slots of a transfer
of its task the source tile writes none of its source words and the destination tile accesses none of its destination words. -/
def slotMay (g : ConfImage) (n : TileNo) (t : Tile) (write : Bool) (a sz : Nat) : Bool :=
  let w := (a - 0x3C000) / 8
  let nw := (a + sz - 1 - 0x3C000) / 8 + 1 - w
  let slot := t.cyc / 16
  !(decide (0x3C000 ≤ a) && decide (a + sz ≤ 0x3E000)) ||
  g.xfers.all (fun x => !(x.task == t.task.toNat && decide (x.startSlot ≤ slot) && decide (slot ≤ x.startSlot + x.slotCount)) ||
    (!(write && x.src == n.val && wordsMeet w nw x.srcOff x.words) && !(x.dst == n.val && wordsMeet w nw x.dstOff x.words)))

/-- Whether the running program may access sz bytes at a: aligned to their size and within R131, which has the network buffers under R112. -/
def mayAccess (g : ConfImage) (n : TileNo) (t : Tile) (p : TileProg) (write : Bool) (a sz : Nat) : Bool :=
  decide (a % sz = 0) && (match t.runner with
    | .handler h => handMay p h.task write a sz
    | _ => mainMay write a sz && slotMay g n t write a sz)

/-- A slot-0 instruction that may touch the scratchpad: `g` answers the tile's memory and the half bundle, or the
address of an access outside R131, which is not performed and stops the tile (R131, R145). -/
def issueMem (s : State) (n : TileNo) (op : Nat) (f : TFields) (g : Tile → TileProg → Except Nat (Mem × HalfBundle)) : State :=
  let t := s.fab.tile n
  if !t.ready .s0 then s
  else if !fieldsOk op f then trapWord s n .s0
  else
    let t := t.leaveSlack .s0
    match g t (tileProg s n t.codeHalf) with
    | .error a => tileTrap s n a
    | .ok (m, h) => modTile s n (fun t => { ((t.leaveSlack .s0).take .s0 h) with mem := m })

/-! ## Meanings of the plain instructions -/

/-- NOP (R122, R127). -/
def execNop (n : TileNo) (sl : Slot) (s : State) : Host.Outcome State Fault Refusal :=
  .next (issue s n sl 0x00 .z (fun _ => { cyc := 1 }))

/-- MOV: RD = RA (R127). -/
def execMov (n : TileNo) (sl : Slot) (f : RR) (s : State) : Host.Outcome State Fault Refusal :=
  .next (issueRR s n sl 0x01 f (fun t => (retype f.ty (t.reg f.ra), 0)))

/-- LIMM: RD = IMM sign-extended from bit 47; it occupies both slots (R122, R126). -/
def execLimm (n : TileNo) (f : LF) (s : State) : Host.Outcome State Fault Refusal :=
  .next (if !(s.fab.tile n).ready .s0 then s
    else bundleCount (modTile s n (fun t => let t := t.leaveSlack .s0; t.endBundle (half f.rd 1 (f.imm.signExtend 64, 0)) {})) .s1)

/-- ADD (R127, R128, R129). -/
def execAdd (n : TileNo) (sl : Slot) (f : RR) (s : State) : Host.Outcome State Fault Refusal :=
  .next (issueRR s n sl 0x03 f (fun t => resAdd f (t.reg f.ra) (t.reg f.rb)))

/-- ADDI (R127, R128). -/
def execAddi (n : TileNo) (sl : Slot) (f : RI) (s : State) : Host.Outcome State Fault Refusal :=
  .next (issue s n sl 0x04 (.ri f) (fun t => half f.rd (cyc 0x04 f.ty) (resAddi f (t.reg f.ra))))

/-- SUB (R127, R128, R129). -/
def execSub (n : TileNo) (sl : Slot) (f : RR) (s : State) : Host.Outcome State Fault Refusal :=
  .next (issueRR s n sl 0x05 f (fun t => resSub f (t.reg f.ra) (t.reg f.rb)))

/-- NEG (R127, R128). -/
def execNeg (n : TileNo) (sl : Slot) (f : RR) (s : State) : Host.Outcome State Fault Refusal :=
  .next (issueRR s n sl 0x06 f (fun t => resNeg f (t.reg f.ra)))

/-- ABS (R127, R128). -/
def execAbs (n : TileNo) (sl : Slot) (f : RR) (s : State) : Host.Outcome State Fault Refusal :=
  .next (issueRR s n sl 0x07 f (fun t => resAbs f (t.reg f.ra)))

/-- MIN (R127 to R129). -/
def execMin (n : TileNo) (sl : Slot) (f : RR) (s : State) : Host.Outcome State Fault Refusal :=
  .next (issueRR s n sl 0x08 f (fun t => resMin f (t.reg f.ra) (t.reg f.rb)))

/-- MAX (R127 to R129). -/
def execMax (n : TileNo) (sl : Slot) (f : RR) (s : State) : Host.Outcome State Fault Refusal :=
  .next (issueRR s n sl 0x09 f (fun t => resMax f (t.reg f.ra) (t.reg f.rb)))

/-- LIM: RA clamped to [RB, register RB + 1] (R127). -/
def execLim (n : TileNo) (sl : Slot) (f : RR) (s : State) : Host.Outcome State Fault Refusal :=
  .next (issueRR s n sl 0x0A f (fun t => resLim f (t.reg f.ra) (t.reg f.rb) (t.reg (f.rb + 1))))

/-- MUL (R127 to R129). -/
def execMul (n : TileNo) (sl : Slot) (f : RR) (s : State) : Host.Outcome State Fault Refusal :=
  .next (issueRR s n sl 0x0B f (fun t => resMul f (t.reg f.ra) (t.reg f.rb)))

/-- MAC: RD = RD + RA × RB (R127 to R129). -/
def execMac (n : TileNo) (sl : Slot) (f : RR) (s : State) : Host.Outcome State Fault Refusal :=
  .next (issueRR s n sl 0x0C f (fun t => resMac f (t.reg f.rd) (t.reg f.ra) (t.reg f.rb)))

/-- DIV, slot 0 only (R127 to R129). -/
def execDiv (n : TileNo) (f : RR) (s : State) : Host.Outcome State Fault Refusal :=
  .next (issueRR s n .s0 0x0D f (fun t => resDiv f (t.reg f.ra) (t.reg f.rb)))

/-- MOD, slot 0 only (R127, R128). -/
def execMod (n : TileNo) (f : RR) (s : State) : Host.Outcome State Fault Refusal :=
  .next (issueRR s n .s0 0x0E f (fun t => resMod f (t.reg f.ra) (t.reg f.rb)))

/-- SQRT, slot 0 only (R127, R129). -/
def execSqrt (n : TileNo) (f : RR) (s : State) : Host.Outcome State Fault Refusal :=
  .next (issueRR s n .s0 0x0F f (fun t => resSqrt f (t.reg f.ra)))

/-- A bit-class logic result at the width of TYPE (R126, R127). -/
def logic (f : RR) (w : Word) : Res := (retype f.ty w, 0)

/-- AND (R127). -/
def execAnd (n : TileNo) (sl : Slot) (f : RR) (s : State) : Host.Outcome State Fault Refusal :=
  .next (issueRR s n sl 0x10 f (fun t => logic f (t.reg f.ra &&& t.reg f.rb)))

/-- OR (R127). -/
def execOr (n : TileNo) (sl : Slot) (f : RR) (s : State) : Host.Outcome State Fault Refusal :=
  .next (issueRR s n sl 0x11 f (fun t => logic f (t.reg f.ra ||| t.reg f.rb)))

/-- XOR (R127). -/
def execXor (n : TileNo) (sl : Slot) (f : RR) (s : State) : Host.Outcome State Fault Refusal :=
  .next (issueRR s n sl 0x12 f (fun t => logic f (t.reg f.ra ^^^ t.reg f.rb)))

/-- NOT (R127). -/
def execNot (n : TileNo) (sl : Slot) (f : RR) (s : State) : Host.Outcome State Fault Refusal :=
  .next (issueRR s n sl 0x13 f (fun t => logic f (~~~(t.reg f.ra))))

/-- SHL (R127, R128). -/
def execShl (n : TileNo) (sl : Slot) (f : RR) (s : State) : Host.Outcome State Fault Refusal :=
  .next (issueRR s n sl 0x14 f (fun t => resShl f (t.reg f.ra) (t.reg f.rb)))

/-- SHR (R127, R128). -/
def execShr (n : TileNo) (sl : Slot) (f : RR) (s : State) : Host.Outcome State Fault Refusal :=
  .next (issueRR s n sl 0x15 f (fun t => resShr f (t.reg f.ra) (t.reg f.rb)))

/-- CMP (R124, R127). -/
def execCmp (n : TileNo) (sl : Slot) (f : RR) (s : State) : Host.Outcome State Fault Refusal :=
  .next (issueRR s n sl 0x16 f (fun t => resCmp f (t.reg f.ra) (t.reg f.rb)))

/-- CMPI (R124, R127). -/
def execCmpi (n : TileNo) (sl : Slot) (f : CI) (s : State) : Host.Outcome State Fault Refusal :=
  .next (issue s n sl 0x17 (.ci f) (fun t => half f.rd (cyc 0x17 f.ty) (resCmpi f (t.reg f.ra))))

/-- SEL: RD = RA ? RB : RD (R127). -/
def execSel (n : TileNo) (sl : Slot) (f : RR) (s : State) : Host.Outcome State Fault Refusal :=
  .next (issueRR s n sl 0x18 f (fun t => (retype f.ty (if isTrue (t.reg f.ra) then t.reg f.rb else t.reg f.rd), 0)))

/-- CVT: from type FN[3:0] to TYPE (R127, R130). -/
def execCvt (n : TileNo) (sl : Slot) (f : RR) (s : State) : Host.Outcome State Fault Refusal :=
  .next (issue s n sl 0x19 (.rr f) (fun t =>
    half f.rd (cvtCycles f.ty (f.fn.setWidth 4)) (resCvt f.ty (f.fn.setWidth 4) (t.reg f.ra))))

/-- QMRG (R127, R138). -/
def execQmrg (n : TileNo) (sl : Slot) (f : RR) (s : State) : Host.Outcome State Fault Refusal :=
  .next (issueRR s n sl 0x2A f (fun t => ((qMerge ((t.reg f.ra).setWidth 8) ((t.reg f.rb).setWidth 8)).setWidth 64, 0)))

/-- QTST (R127, R138). -/
def execQtst (n : TileNo) (sl : Slot) (f : RR) (s : State) : Host.Outcome State Fault Refusal :=
  .next (issueRR s n sl 0x2B f (fun t => boolRes (qTest (bit f.fn 0) ((t.reg f.ra).setWidth 8))))

/-- QSET (R127, R138). -/
def execQset (n : TileNo) (sl : Slot) (f : RI) (s : State) : Host.Outcome State Fault Refusal :=
  .next (issue s n sl 0x2C (.ri f) (fun _ => half f.rd 1 ((qSetByte f.imm).setWidth 64, 0)))

/-- GETF: RD = TSF as the bundle began; FN bit 0 clears TSF after the read (R123, R127). -/
def execGetf (n : TileNo) (sl : Slot) (f : RR) (s : State) : Host.Outcome State Fault Refusal :=
  .next (issue s n sl 0x32 (.rr f) (fun t => { half f.rd 1 (t.flags.setWidth 64, 0) with clr := bit f.fn 0 }))

end Sys2Proof.Machine
end

