-- ==== Sys2Proof/Machine/ProgCheck.lean ====
section
/-! DEFINITION. Machine/ProgCheck.lean: what the trusted kernel checks of tile programs and the slot schedule: V12, V13 and V15
(05_cycle_fabric, R103, R107 to R112; 06_tile_instruction_set, R120 to R124, R131, R132, R139, R142, R143). -/

namespace Sys2Proof.Machine

/-! ## Bundles -/

/-- The instructions of a bundle: LIMM takes both slots, slot 1 holds only what the opcode table marks "either" (R122, R143). -/
def bundleOf (b : Bundle) : Option (TInstr × Option TInstr) :=
  match decodeTile b.w0 b.w1 with
  | none => none
  | some i =>
    if i.op = 0x02 then some (i, none)
    else match decodeTile b.w1 0 with
      | none => none
      | some j => if j.op ≠ 0x02 ∧ (match opRow j.op.toNat with
          | some r => r.either
          | none => false) = true then some (i, some j) else none

/-- The register an instruction writes (R124). -/
def instrDest (i : TInstr) : Option GReg :=
  match i.f with
  | .rr f => some f.rd
  | .ri f => some f.rd
  | .ci f => some f.rd
  | .l f => some f.rd
  | .m f => if i.op = 0x1A then some f.r else none
  | .fb f => some f.rd
  | _ => none

/-- The registers an instruction names, the pair of LIM and what a two-register condition reads included (R124, R127). -/
def instrRegs (i : TInstr) : List GReg :=
  match i.f with
  | .rr f => [f.rd, f.ra, f.rb] ++ (if i.op = 0x0A then [f.rb + 1] else [])
  | .ri f => [f.rd, f.ra]
  | .ci f => [f.rd, f.ra]
  | .l f => [f.rd]
  | .m f => [f.r, f.ra]
  | .b f => [f.ra]
  | .lp f => [f.ra]
  | .fb f => [f.rd, f.ra, f.rb]
  | .a r => [r]
  | .e f => [f.ra]
  | _ => []

/-- The cycles of an instruction; SLACK takes the program's SLACK_CYC (R127, R142). -/
def instrCycles (i : TInstr) (slack : Nat) : Nat :=
  if i.op = 0x30 then slack
  else match i.f with
    | .rr f => if i.op = 0x19 then cvtCycles f.ty (f.fn.extractLsb' 0 4) else (opCycles i.op.toNat f.ty).getD 0
    | .ri f => (opCycles i.op.toNat f.ty).getD 0
    | .ci f => (opCycles i.op.toNat f.ty).getD 0
    | .m f => (opCycles i.op.toNat f.ty).getD 0
    | _ => (opCycles i.op.toNat 1).getD 0

/-- w(bundle): the longer of its two instructions (R142). -/
def bundleCyc (slack : Nat) (x : TInstr × Option TInstr) : Nat :=
  max (instrCycles x.1 slack) (match x.2 with
    | some j => instrCycles j slack
    | none => 0)

/-! ## Structure (R132, R139) -/

/-- The bodies of the loops of a code: first and last bundle (R132). -/
def loopBodies (l : List (TInstr × Option TInstr)) : List (Nat × Nat) :=
  ((List.range l.length).zip l).filterMap (fun (i, x) => match x.1.f with
    | .lp f => some (i + 1, i + 1 + f.len.toNat)
    | _ => none)

/-- The loop bodies that contain a bundle. -/
def bodiesOf (bs : List (Nat × Nat)) (i : Nat) : List (Nat × Nat) := bs.filter (fun b => decide (b.1 ≤ i) && decide (i ≤ b.2))

/-- Two loop bodies are disjoint or one lies in the other. -/
def nested (a b : Nat × Nat) : Bool :=
  decide (a.2 < b.1) || decide (b.2 < a.1) || (decide (a.1 ≤ b.1) && decide (b.2 ≤ a.2)) || (decide (b.1 ≤ a.1) && decide (a.2 ≤ b.2))

/-- Whether the instruction at bundle i keeps the control rules: targets within the program and the same loop bodies, a body
within the program and within every body that holds its LOOP, BRK in a loop, SLACK and END outside every one; LAUNCH only in a handler, SLACK and XMIT only in the main
program (R132, R139, R140, R143). -/
def ctlOk (handler : Bool) (n : Nat) (bs : List (Nat × Nat)) (i : Nat) (x : TInstr) : Bool :=
  match x.op.toNat, x.f with
  | 0x1C, .lp f => decide (i + 1 + f.len.toNat < n) && (bodiesOf bs i).all (fun b => decide (i + 1 + f.len.toNat ≤ b.2))
  | 0x1D, .b f => decide (i + f.disp.toNat < n) && bodiesOf bs (i + f.disp.toNat) == bodiesOf bs i
  | 0x1E, .b f => decide (i + f.disp.toNat < n) && bodiesOf bs (i + f.disp.toNat) == bodiesOf bs i
  | 0x1F, _ => !(bodiesOf bs i).isEmpty
  | 0x30, _ => !handler && (bodiesOf bs i).isEmpty
  | 0x31, _ => (bodiesOf bs i).isEmpty
  | 0x2D, _ => handler
  | 0x2F, _ => !handler
  | _, _ => true

/-- Whether a register may be used: with events on the tile the main program has G0 to G23, handlers G0 and G24 to G31 (R123). -/
def regOk (handler events : Bool) (r : GReg) : Bool :=
  if handler then r == 0 || decide (24 ≤ r.toNat) else !events || decide (r.toNat ≤ 23)

/-- One code, of the main program or a handler, under R122, R123, R132, R139 and R143; it ends with its one END. -/
def codeOk (handler events : Bool) (code : List Bundle) : Bool :=
  match code.mapM bundleOf with
  | none => false
  | some l =>
    let bs := loopBodies l
    let ends := (l.filter (fun x => x.1.op == 0x31)).length
    ends == 1 && (match l.getLast? with
      | some x => x.1.op == 0x31
      | none => false) &&
    bs.all (fun a => bs.all (nested a)) &&
    ((List.range l.length).zip l).all (fun (i, x) =>
      decide ((bodiesOf bs i).length ≤ 4) && ctlOk handler l.length bs i x.1 &&
      (instrRegs x.1).all (regOk handler events) &&
      (match x.2 with
       | some j => (instrRegs j).all (regOk handler events) && ctlOk handler l.length bs i j && ((instrDest x.1).isNone || instrDest x.1 != instrDest j)
       | none => true))

/-- The function block instances of a code, each with its length: 64 bytes for PID, else 32 (R124, R133 to R137). -/
def fbInsts (code : List Bundle) : List (Nat × Nat) :=
  code.filterMap (fun b => match bundleOf b with
    | some (i, _) => (match i.f with
      | .fb f => some (0x20000 + f.inst.toNat * 32, if i.op = 0x29 then 64 else 32)
      | _ => none)
    | none => none)

/-- Every instance lies in local data and none is shared (R143). -/
def instsOk : List (Nat × Nat) → Bool
  | [] => true
  | (a, n) :: l => decide (a + n ≤ 0x30000) && l.all (fun (b, m) => decide (a + n ≤ b) || decide (b + m ≤ a)) && instsOk l

/-! ## Worst case (R142) -/

/-- A position's time raised to the later, or lowered to the earlier, of two predecessors. -/
def relax (late : Bool) (m : List (Nat × Nat)) (p v : Nat) : List (Nat × Nat) :=
  if m.any (fun x => x.1 == p) then m.map (fun x => if x.1 = p then (p, if late then max x.2 v else min x.2 v) else x) else (p, v) :: m

/-- The start time of a position, if it can be reached. -/
def timeAt (m : List (Nat × Nat)) (p : Nat) : Option Nat := (m.find? (fun x => x.1 == p)).map (·.2)

/-- The starts of the bundles from `lo` on, `n` of them, relative to the start of the first: a loop counts as a single node of
its LOOP bundle and bound times its body, whose w is its longest path in the earliest starts too; a BRK is never longer than the full count (R142,
assumption 189). -/
def starts (late : Bool) (slack : Nat) (l : List (TInstr × Option TInstr)) : Nat → Nat → Nat → List (Nat × Nat)
  | 0, _, _ => []
  | fuel + 1, lo, n =>
    ((List.range n).foldl (fun (m : List (Nat × Nat) × Nat) k =>
      let i := lo + k
      if i < m.2 then m
      else match timeAt m.1 i, l[i]? with
        | some t, some x =>
          let w := bundleCyc slack x
          (match x.1.op.toNat, x.1.f with
          | 0x1C, .lp f =>
            let len := f.len.toNat + 1
            let wb := (timeAt (starts true slack l fuel (i + 1) len) (i + 1 + len)).getD 0
            (relax late m.1 (i + 1 + len) (t + w + (f.bound.toNat + 1) * wb), i + 1 + len)
          | 0x1D, .b f => (relax late m.1 (i + f.disp.toNat) (t + w), m.2)
          | 0x1E, .b f => (relax late (relax late m.1 (i + 1) (t + w)) (i + f.disp.toNat) (t + w), m.2)
          | 0x31, _ => m
          | _, _ => (relax late m.1 (i + 1) (t + w), m.2))
        | _, _ => m) ([(lo, 0)], lo)).1

/-- prog_wcet = latest(END) + 1 of a code that ends with its END (R142). -/
def progWcet (slack : Nat) (code : List Bundle) : Nat :=
  match code.mapM bundleOf with
  | none => 0
  | some l => (timeAt (starts true slack l 6 0 l.length) (l.length - 1)).getD 0 + 1

/-- The latest start of each XMIT of a code: within a loop that of its last execution (R112, R142). -/
def xmitStarts (slack : Nat) (l : List (TInstr × Option TInstr)) : Nat → Nat → Nat → Nat → List (Nat × Nat)
  | 0, _, _, _ => []
  | fuel + 1, base, lo, n =>
    let m := starts true slack l (fuel + 1) lo n
    m.flatMap (fun (i, t) => match l[i]? with
      | none => []
      | some x =>
        if lo + n ≤ i then []
        else match x.1.op.toNat, x.1.f with
          | 0x2F, .x k => [(k.toNat, base + t)]
          | 0x1C, .lp f =>
            let len := f.len.toNat + 1
            let wb := (timeAt (starts true slack l fuel (i + 1) len) (i + 1 + len)).getD 0
            xmitStarts slack l fuel (base + t + bundleCyc slack x + f.bound.toNat * wb) (i + 1) len
          | _, _ => [])

/-- All XMITs of a main program: transfer number and latest start from the start of PROGRAM. -/
def xmitsOf (p : TileProg) : List (Nat × Nat) :=
  match p.main.mapM bundleOf with
  | none => []
  | some l => xmitStarts p.slackCyc l 6 0 0 l.length

/-- A handler's worst case (R142). -/
def handlerWcet (p : TileProg) (h : HandlerEnt) : Nat := evtCyc p h false + progWcet p.slackCyc h.code + evtCyc p h true

/-- The length of a slack window of a tile: the largest SLACK_NS among its event tasks in whole cycles (R107). -/
def slackLen (g : ConfImage) (r : TileRec) : Nat :=
  ceilDiv (4 * (((g.tasks.filter (fun t => t.kind == 1 && bit r.slackEvt (t.id - 0x20))).map (·.slackNs)).foldl max 0)) 5

/-- Whether a tile runs code: a task or event tasks (R113). -/
def recUsed (r : TileRec) : Bool := r.task != 0xFF || r.slackEvt != 0

/-- Whether ranges, each an offset and a length, do not overlap. -/
def apart : List (Nat × Nat) → Bool
  | [] => true
  | (a, n) :: l => l.all (fun (b, m) => decide (a + n ≤ b) || decide (b + m ≤ a)) && apart l

/-- The offsets of a program: code at multiples of 8, no handler table without handlers, no two parts over each other, all within CODE_LEN
(R120, R121). -/
def offsetsOk (r : TileRec) (p : TileProg) : Bool :=
  p.hdrLen == 0x40 && p.descOffset == 0x40 && p.mainEntry % 8 == 0 && p.handlers.all (fun h => h.entry % 8 == 0) &&
  (!p.handlers.isEmpty || p.handlerOffset == 0) && apart (progRanges p) && (progRanges p).all (fun x => decide (x.1 + x.2 ≤ r.codeLen))

/-- The window descriptors of a program (R102, R120, R121). -/
def descsOk (p : TileProg) : Bool :=
  decide (p.fillCount + p.drainCount ≤ p.descs.length) &&
  (fillDescs p).all (fun d => !d.drain && !d.evt && decide (d.winWord + d.count ≤ 1024)) &&
  (drainDescs p).all (fun d => d.drain && !d.evt && decide (d.winWord + d.count ≤ 512)) &&
  p.descs.all (fun d => decide (1 ≤ d.count) && decide (d.count ≤ 1024) && decide (d.pimWord + d.count ≤ 262144) && d.rest == 0 &&
    (d.evt || d.evtTask == 0))

/-- The handler table: one entry for each event task that the tile's record enables, none other, each with its own descriptors (R121). -/
def handlersOk (r : TileRec) (p : TileProg) : Bool :=
  decide (p.handlers.length ≤ 16) && decide ((p.handlers.map (·.evtTask)).Nodup) &&
  (List.range 16).all (fun e => !bit r.slackEvt e || p.handlers.any (fun h => h.evtTask == e)) &&
  p.handlers.all (fun h => h.zero1 == 0 && h.zero6 == 0 && decide (h.evtTask ≤ 15) && bit r.slackEvt h.evtTask &&
    decide (p.fillCount + p.drainCount ≤ h.descFirst ∨ h.descCount = 0) && decide (h.descFirst + h.descCount ≤ p.descs.length) &&
    ((p.descs.drop h.descFirst).take h.descCount).all (fun d => d.evt && d.evtTask == h.evtTask && decide (d.winWord + d.count ≤ 128)))

/-- The header and handler table of a program against R120, R121 and its tile's record. -/
def headOk (r : TileRec) (p : TileProg) : Bool :=
  p.magic == 0x50545653 && p.isaVersion == 1 && p.flagsHigh == 0 && p.handlersOnly == (r.task == 0xFF) &&
  (if p.handlersOnly then p.main.isEmpty else !p.main.isEmpty) && offsetsOk r p && descsOk p && handlersOk r p &&
  decide (p.localInit.length ≤ 0x10000)

/-! ## Accesses at addresses that the code fixes (R101, R112, R131, R143) -/

/-- Registers whose content the code fixes (assumption 6). -/
abbrev Known := List (GReg × Word)

/-- What is known of a register; G0 is 0 (R123). -/
def Known.get (k : Known) (r : GReg) : Option Word := if r = 0 then some 0 else (k.find? (fun e => e.1 == r)).map (·.2)

/-- A register after a write of a value that is known or not. -/
def Known.put (k : Known) (r : GReg) (v : Option Word) : Known :=
  let k1 := k.filter (fun e => e.1 != r)
  match v with
  | some w => (r, w) :: k1
  | none => k1

/-- What is known where two paths meet. -/
def Known.meet (k m : Known) : Known := k.filter (fun e => m.contains e)

/-- Whether two paths leave the same knowledge. -/
def Known.same (k m : Known) : Bool := k.all (fun e => m.contains e) && m.all (fun e => k.contains e)

/-- The result of an RR instruction over known operands (R127 to R130, R138). -/
def knownRR (k : Known) (op : Nat) (f : RR) : Option Word :=
  let one (g : Word → Word) : Option Word := (k.get f.ra).map g
  let two (g : Word → Word → Word) : Option Word := (k.get f.ra).bind (fun a => (k.get f.rb).map (g a))
  let more (r : GReg) (g : Word → Word → Word → Word) : Option Word := (k.get r).bind (fun c => two (fun a b => g a b c))
  match op with
  | 0x01 => one (retype f.ty)
  | 0x03 => two (fun a b => (resAdd f a b).1)
  | 0x05 => two (fun a b => (resSub f a b).1)
  | 0x06 => one (fun a => (resNeg f a).1)
  | 0x07 => one (fun a => (resAbs f a).1)
  | 0x08 => two (fun a b => (resMin f a b).1)
  | 0x09 => two (fun a b => (resMax f a b).1)
  | 0x0A => more (f.rb + 1) (fun a lo hi => (resLim f a lo hi).1)
  | 0x0B => two (fun a b => (resMul f a b).1)
  | 0x0C => more f.rd (fun a b d => (resMac f d a b).1)
  | 0x0D => two (fun a b => (resDiv f a b).1)
  | 0x0E => two (fun a b => (resMod f a b).1)
  | 0x10 => two (fun a b => (logic f (a &&& b)).1)
  | 0x11 => two (fun a b => (logic f (a ||| b)).1)
  | 0x12 => two (fun a b => (logic f (a ^^^ b)).1)
  | 0x13 => one (fun a => (logic f (~~~a)).1)
  | 0x14 => two (fun a b => (resShl f a b).1)
  | 0x15 => two (fun a b => (resShr f a b).1)
  | 0x16 => two (fun a b => (resCmp f a b).1)
  | 0x18 => more f.rd (fun a b d => retype f.ty (if isTrue a then b else d))
  | 0x19 => one (fun a => (resCvt f.ty (f.fn.setWidth 4) a).1)
  | _ => none

/-- The result of an instruction where the code fixes it. -/
def knownRes (k : Known) (i : TInstr) : Option Word :=
  match i.op.toNat, i.f with
  | _, .l f => some (f.imm.signExtend 64)
  | 0x04, .ri f => (k.get f.ra).map (fun a => (resAddi f a).1)
  | 0x17, .ci f => (k.get f.ra).map (fun a => (resCmpi f a).1)
  | op, .rr f => knownRR k op f
  | _, _ => none

/-- What is known after a bundle, both instructions of which read the registers as it began (R123). -/
def Known.after (k : Known) (x : TInstr × Option TInstr) : Known :=
  let put (m : Known) (i : TInstr) : Known := match instrDest i with
    | some r => m.put r (knownRes k i)
    | none => m
  let k1 := put k x.1
  match x.2 with
  | some j => put k1 j
  | none => k1

/-- A load or store: its bundle, whether it writes, the address and the bytes. -/
abbrev Access := Nat × Bool × Nat × Nat

/-- A walk along a region of a code: what is known where control arrives, the bundle before which the rest has been walked as a loop body, and
the accesses met. -/
structure Walk where
  arrive : List (Nat × Known) := []
  skip : Nat := 0
  acc : List Access := []
  deriving DecidableEq, Repr

/-- What is known at a position that control reaches. -/
def Walk.at_ (w : Walk) (p : Nat) : Option Known := (w.arrive.find? (fun x => x.1 == p)).map (·.2)

/-- Control arriving at a position. -/
def Walk.reach (w : Walk) (p : Nat) (k : Known) : Walk :=
  { w with arrive := match w.at_ p with
    | some m => w.arrive.map (fun x => if x.1 = p then (p, m.meet k) else x)
    | none => (p, k) :: w.arrive }

/-- Accesses met, each once. -/
def Walk.note (w : Walk) (l : List Access) : Walk := { w with acc := l.foldl (fun a x => if a.contains x then a else a ++ [x]) w.acc }

/-- The address of a load or store where the code fixes its register (R124, R131). -/
def knownAccess (k : Known) (i : Nat) (x : TInstr) : List Access :=
  match x.f with
  | .m f => ((k.get f.ra).map (fun base => (i, x.op == 0x1B, base.toNat + f.off.toNat * tySize f.ty, tySize f.ty))).toList
  | _ => []

/-- The executions of a loop body, `stop` the position behind it, of which any number may run if `any`: the walk `w` with their accesses and what is
known behind the loop. A BRK leaves the body at position stop + 1; executions that add nothing to what is known are alike (R132). -/
def loopRuns (body : Known → Walk) (stop : Nat) (any : Bool) : Nat → Known → Walk → Walk
  | 0, k, w => w.reach stop k
  | n + 1, k, w =>
    let b := body k
    let w1 := (if any then w.reach stop k else w).note b.acc
    let w2 := match b.at_ (stop + 1) with
      | some m => w1.reach stop m
      | none => w1
    match b.at_ stop with
    | some m => if m.same k then w2.reach stop m else loopRuns body stop any n m w2
    | none => w2

/-- The walk along n bundles from lo on: both arms of a conditional branch, each loop body as often as it can run, its count being fixed where
its register is known or G0 (R132). -/
def walk (l : List (TInstr × Option TInstr)) : Nat → Nat → Nat → Known → Walk
  | 0, _, _, _ => {}
  | fuel + 1, lo, n, k0 =>
    (List.range n).foldl (fun w j =>
      let i := lo + j
      if i < w.skip then w
      else match w.at_ i, l[i]? with
        | some k, some x =>
          let w1 := w.note (knownAccess k i x.1)
          let k1 := k.after x
          (match x.1.op.toNat, x.1.f with
          | 0x1C, .lp f =>
            let stop := i + 1 + (f.len.toNat + 1)
            let times := if f.ra = 0 then f.bound.toNat + 1 else match k.get f.ra with
              | some c => min (max (opnd 0x3 c) 0).toNat (f.bound.toNat + 1)
              | none => f.bound.toNat + 1
            { (loopRuns (walk l fuel (i + 1) (f.len.toNat + 1)) stop (k.get f.ra).isNone times k1 w1) with skip := stop }
          | 0x1D, .b f => w1.reach (i + f.disp.toNat) k1
          | 0x1E, .b f => (w1.reach (i + 1) k1).reach (i + f.disp.toNat) k1
          | 0x1F, _ => (w1.reach (i + 1) k1).reach (lo + n + 1) k1
          | 0x31, _ => w1
          | _, _ => w1.reach (i + 1) k1)
        | _, _ => w) ({ arrive := [(lo, k0)] } : Walk)

/-- The loads and stores of a code whose address it fixes. -/
def fixedAccesses (l : List (TInstr × Option TInstr)) : List Access := (walk l 6 0 l.length []).acc

/-- The loads and stores of a code whose address it fixes; none of a code that does not decode, which V12 refuses. -/
def codeAccesses (code : List Bundle) : List Access := ((code.mapM bundleOf).map fixedAccesses).getD []

/-- Whether the accesses of a code at fixed addresses keep R131; `may` is the rule of its program. -/
def accessOk (code : List Bundle) (may : Bool → Nat → Nat → Bool) : Bool := (codeAccesses code).all (fun (_, w, a, n) => a % n == 0 && may w a n)

/-- On a tile with handlers, the local data that the main program accesses at fixed addresses and in its function blocks lies in `mainLocal`, which
the handlers' accesses and function blocks keep off (R131). -/
def localOk (p : TileProg) : Bool :=
  p.handlers.isEmpty ||
  ((fbInsts p.main ++ ((codeAccesses p.main).filter (fun x => decide (x.2.2.1 < 0x30000))).map (fun x => (x.2.2.1, x.2.2.2))).all
      (fun (a, n) => p.mainLocal.any (fun r => decide (r.1 ≤ a) && decide (a + n ≤ r.2))) &&
   p.handlers.all (fun h => (fbInsts h.code).all (fun (a, n) => handMay p h.evtTask true a n)))

/-- Whether a store of n bytes at a window address misses what the descriptors drain of the signals of other writers (R72, R102). -/
def missesOthers (g : ConfImage) (writer base : Nat) (ds : List WinDesc) (a n : Nat) : Bool :=
  let miss (d : WinDesc) (pim m : Nat) : Bool := !inDesc d pim m || decide (winAddr base d pim + m ≤ a) || decide (a + n ≤ winAddr base d pim)
  g.sigs.all (fun r => r.writer.toNat == writer || ds.all (fun d => miss d r.pimOffset (tySize r.t) && miss d (qualOff r) 1))

/-- Whether the code of a tile writes only SIDs whose writer is its task, of stores at fixed addresses as computed and of the others as the program's
verdict (R83, V18, assumption 6). -/
def tileWritesOwn (g : ConfImage) (r : TileRec) (p : TileProg) : Bool :=
  let keeps (writer base : Nat) (ds : List WinDesc) (code : List Bundle) : Bool :=
    (codeAccesses code).all (fun (_, w, a, n) => !w || missesOthers g writer base ds a n)
  !recUsed r || (p.writesOwn && keeps r.task.toNat 0x38000 (drainDescs p) p.main &&
    p.handlers.all (fun h => keeps (0x20 + h.evtTask) 0x3E000 (p.descs.filter (fun d => d.drain && d.evt && d.evtTask == h.evtTask)) h.code))

/-- V12 of one tile. -/
def v12Tile (r : TileRec) (p : TileProg) : Bool :=
  !recUsed r ||
  (headOk r p && p.accessProved && (p.handlersOnly || codeOk false (r.slackEvt != 0) p.main) &&
   accessOk p.main mainMay && p.handlers.all (fun h => codeOk true true h.code && accessOk h.code (handMay p h.evtTask)) && localOk p && instsOk (fbInsts p.main ++ p.handlers.flatMap (fun h => fbInsts h.code)))

/-- V13 of one tile: PROG_WCET, the handlers' and the record's WCET_CYC as recomputed, both 0 on a tile without a main program (assumption 163);
every handler within the slack window of a tile with a cyclic task (R108, R142, R143). -/
def v13Tile (g : ConfImage) (n : TileNo) (r : TileRec) (p : TileProg) : Bool :=
  !recUsed r ||
  (p.handlers.all (fun h => h.wcetCyc == handlerWcet p h && (p.handlersOnly || decide (h.wcetCyc ≤ p.slackCyc))) &&
   (if p.handlersOnly then p.progWcet == 0 && r.wcetCyc == 0
    else p.slackCyc == slackLen g r && p.progWcet == progWcet p.slackCyc p.main && r.wcetCyc == fillCyc g n p + p.progWcet + drainCyc p))

/-- The start of each bundle of a code from the start of PROGRAM, the latest or the earliest; of a bundle in a loop that of its last or its
first execution (R142). -/
def bundleStarts (late : Bool) (slack : Nat) (l : List (TInstr × Option TInstr)) : Nat → Nat → Nat → Nat → List (Nat × Nat)
  | 0, _, _, _ => []
  | fuel + 1, base, lo, n =>
    let m := starts late slack l (fuel + 1) lo n
    m.flatMap (fun (i, t) => match l[i]? with
      | none => []
      | some x =>
        if lo + n ≤ i then []
        else (i, base + t) :: (match x.1.op.toNat, x.1.f with
          | 0x1C, .lp f =>
            let len := f.len.toNat + 1
            let wb := (timeAt (starts true slack l fuel (i + 1) len) (i + 1 + len)).getD 0
            bundleStarts late slack l fuel (base + t + bundleCyc slack x + if late then f.bound.toNat * wb else 0) (i + 1) len
          | _, _ => []))

/-- The accesses of a main program to network buffer words at fixed addresses: whether it writes, first word, number of words, earliest start and
latest end from the start of PROGRAM (R112, R142). -/
def wordAccesses (p : TileProg) : List (Bool × Nat × Nat × Nat × Nat) :=
  match p.main.mapM bundleOf with
  | none => []
  | some l =>
    let e := bundleStarts false p.slackCyc l 6 0 0 l.length
    let t := bundleStarts true p.slackCyc l 6 0 0 l.length
    (fixedAccesses l).filterMap (fun (i, w, a, n) =>
      if 0x3C000 ≤ a ∧ a + n ≤ 0x3E000 then
        match timeAt e i, timeAt t i, l[i]? with
        | some x, some y, some b => some (w, (a - 0x3C000) / 8, (a + n - 1 - 0x3C000) / 8 + 1 - (a - 0x3C000) / 8, x, y + bundleCyc p.slackCyc b)
        | _, _, _ => none
      else none)

/-- Whether the accesses of one tile's program stay off words during the occupied slots of an entry, `f` the tile's FILL_CYC; `any` counts the
reads too (R112). -/
def wordsFree (p : TileProg) (f : Nat) (any : Bool) (off words : Nat) (x : XferEnt) : Bool :=
  (wordAccesses p).all (fun (w, a, n, e, t) => !((any || w) && wordsMeet a n off words) ||
    decide (f + t ≤ 16 * x.startSlot) || decide (16 * (x.startSlot + x.slotCount + 1) ≤ f + e))

/-! ## The slot schedule (R109 to R112) -/

/-- The links of a route as pairs of neighbouring tiles: along the row to the destination column and along the column, or the
other way round (R98, R110). -/
def lineTo (f : Nat → Nat) (a b : Nat) : List (Nat × Nat) :=
  if a ≤ b then (List.range (b - a)).map (fun i => (f (a + i), f (a + i + 1)))
  else (List.range (a - b)).map (fun i => (f (a - i), f (a - i - 1)))

/-- The links a transfer takes, by direction. -/
def route (x : XferEnt) : List (Nat × Nat) :=
  let sc := x.src / 8
  let sr := x.src % 8
  let dc := x.dst / 8
  let dr := x.dst % 8
  if x.colFirst then lineTo (fun r => sc * 8 + r) sr dr ++ lineTo (fun c => c * 8 + dr) sc dc
  else lineTo (fun c => c * 8 + sr) sc dc ++ lineTo (fun r => dc * 8 + r) sr dr

/-- The absolute slots at which the releases of a task in one major cycle begin; 50 slots of 20 ns in a microsecond (R109,
R112). -/
def releaseSlots (g : ConfImage) (r : TaskRec) : List Nat :=
  (List.range (2 ^ (nMax g - r.periodExp))).map (fun i => (r.phase + i * 2 ^ r.periodExp) * g.time.tbaseUs * 50)

/-- Whether two occupancies of a major cycle of `m` slots, each from a first slot over a number of slots, meet. -/
def meet (m a na b nb : Nat) : Bool := decide ((b + m - a % m) % m < na) || decide ((a + m - b % m) % m < nb)

/-- Two entries occupy one link in one direction in one slot. -/
def collide (g : ConfImage) (x y : XferEnt) : Bool :=
  match taskRec g x.task, taskRec g y.task with
  | some tx, some ty =>
    let m := 2 ^ nMax g * g.time.tbaseUs * 50
    (route x).any (fun l => (route y).contains l) &&
    (releaseSlots g tx).any (fun a => (releaseSlots g ty).any (fun b =>
      meet m ((a + x.startSlot) % m) (x.slotCount + 1) ((b + y.startSlot) % m) (y.slotCount + 1)))
  | _, _ => false

/-- No entry collides with a later one. -/
def noCollision (g : ConfImage) : List XferEnt → Bool
  | [] => true
  | x :: xs => xs.all (fun y => !collide g x y) && noCollision g xs

/-- One entry alone: its fields, both tiles running its task, its slots within both PROGRAM phases, its XMIT executed before
its first slot (R111, R112). -/
def xferOk (g : ConfImage) (i : Nat) (x : XferEnt) : Bool :=
  if h : x.src < 48 ∧ x.dst < 48 then
    let ps := nthD g.progs x.src {}
    let pd := nthD g.progs x.dst {}
    let fs := fillCyc g ⟨x.src, h.1⟩ ps
    let fd := fillCyc g ⟨x.dst, h.2⟩ pd
    let inProg (f w : Nat) : Bool := decide (f ≤ 16 * x.startSlot) && decide (16 * (x.startSlot + x.slotCount + 1) ≤ f + w)
    x.src != x.dst && decide (1 ≤ x.slotCount) && decide (x.slotCount ≤ 64) && decide (1 ≤ x.words) && decide (x.words ≤ 16 * x.slotCount) &&
    decide (x.srcOff + x.words ≤ 1024) && decide (x.dstOff + x.words ≤ 1024) &&
    (tileRec g ⟨x.src, h.1⟩).task.toNat == x.task && (tileRec g ⟨x.dst, h.2⟩).task.toNat == x.task &&
    inProg fs ps.progWcet && inProg fd pd.progWcet &&
    wordsFree ps fs false x.srcOff x.words x && wordsFree pd fd true x.dstOff x.words x &&
    (let ts := (xmitsOf ps).filter (fun y => y.1 == i)
     !ts.isEmpty && ts.all (fun y => decide (fs + y.2 + 1 ≤ 16 * x.startSlot)))
  else false

/-- Entries in ascending order of task and then start slot (R111). -/
def xfersRise : List XferEnt → Bool
  | x :: y :: l => (decide (x.task < y.task) || (x.task == y.task && decide (x.startSlot ≤ y.startSlot))) && xfersRise (y :: l)
  | _ => true

/-- The header of the slot schedule and the order and flags of its entries (R111). -/
def xferFormOk (g : ConfImage) : Bool :=
  g.xferHead == { count := g.xfers.length } && xfersRise g.xfers && g.xfers.all (fun x => x.flagsHigh == 0)

/-- V15: every XMIT has an entry of its tile and task, every entry keeps R112 and no two share a link in a slot. The rules on
the words that instructions touch at addresses the code does not fix are the program's verdict (assumption 6). -/
def v15 (g : ConfImage) : Bool :=
  ((List.range 48).zip (g.tiles.zip g.progs)).all (fun (n, r, p) =>
    !recUsed r || (p.netTimingOk && (xmitsOf p).all (fun y => match g.xfers[y.1]? with
      | some x => x.src == n && x.task == r.task.toNat
      | none => false))) &&
  xferFormOk g && decide (g.xfers.length ≤ 8192) && ((List.range g.xfers.length).zip g.xfers).all (fun (i, x) => xferOk g i x) && noCollision g g.xfers

end Sys2Proof.Machine
end

