-- ==== Sys2Proof/Machine/ImgCheck.lean ====
section
/-! DEFINITION. Machine/ImgCheck.lean: the trusted kernel's checks V01 to V26 of a configuration image (04_configuration_image,
R64 to R86, and the rules of the other chapters that name a check), the change class of an image (R89, R91). -/

namespace Sys2Proof.Machine

/-! ## Form and signatures (V01 to V08) -/

/-- V01; bytes of the header that R65 gives as zero count as part of the header's form (assumption 163). -/
def v01 (h : ImgHeader) : Bool :=
  h.zero29 == 0 && h.zeroB0 == 0 && h.magic == 0x49435653 && h.hdrLen == 0x100 && h.sigblkOffset + 3456 == h.imageLen && decide (h.imageLen ≤ 0x4000000) && h.imageLen == h.storedLen

/-- The record length of each section; 0 for variable-length records (R66, R69). -/
def secRecLen (id : Nat) : Nat := nthD [0, 0, 0, 32, 32, 0, 32, 0, 0, 64, 32, 32, 16] id 0

/-- The programs of an image that occupy CODE. -/
def usedProgs (g : ConfImage) : List (TileRec × TileProg) := (g.tiles.zip g.progs).filter (fun x => recUsed x.1)

/-- The number of records a section holds: of STRUCT the tile records and the entries of the slot schedule, of CODE the programs, of SAFETY one
(R66, R69; assumption 163). -/
def secCount (g : ConfImage) (id : Nat) : Nat :=
  match id with
  | 1 => g.tiles.length + g.xfers.length | 2 => (usedProgs g).length
  | 3 => g.sigs.length | 4 => g.tasks.length | 5 => g.iomap.length | 6 => g.gwmap.length | 7 => g.tsn.length
  | 12 => g.settings.length | _ => 1

/-- LEN of an IOMAP record by KIND (R76). -/
def ioLen (kind : Nat) : Nat := nthD [0, 24, 32, 32, 16, 12, 12, 12, 8, 12, 16, 8, 16, 12] kind 0

/-- The length of the safety parameter block: the fixed area and the three arrays (R364, R365). -/
def safetyLen (b : SafetyBlock) : Nat := 0x160 + 16 * b.tasks.length + 48 * b.sdt.length + 4 * b.flows.length

/-- The length of a section in bytes by its records; CODE is as long as its entry says, with every program in it (R66, R70, R76, R78, R79,
R111). -/
def secLen (g : ConfImage) (id : Nat) : Option Nat :=
  match id with
  | 1 => some (16 * g.tiles.length + 16 + 16 * g.xfers.length)
  | 2 => none
  | 5 => some (g.iomap.map (fun r => ioLen r.kind)).sum
  | 7 => some (g.tsn.map (fun t => 4 + 8 * t.entries.length)).sum
  | 8 => some (safetyLen g.safety + 3456)
  | _ => some (secRecLen id * secCount g id)

/-- Each section starts at a multiple of 256, after the end of the one before and within the signed part (R64). -/
def secPlaced (lim : Nat) : Nat → List DirEntry → Bool
  | _, [] => true
  | lo, e :: es => decide (lo ≤ e.offset) && e.offset % 256 == 0 && decide (e.offset + e.length ≤ lim) && secPlaced lim (e.offset + e.length) es

/-- A directory entry's own fields: the header's entry is fixed, the others match their records and their hash (R66). -/
def dirOk (g : ConfImage) (e : DirEntry) : Bool :=
  if e.id = 0 then e.offset == 0 && e.length == 0x100 && e.hash == 0 && e.recordLen == 0 && decide (e.recordCount ≤ 1)
  else e.recordLen == secRecLen e.id && e.hash == e.calcHash && e.recordCount == secCount g e.id &&
    (match secLen g e.id with
     | some n => e.length == n
     | none => true)

/-- Ranges of which no two overlap. -/
def disjoint : List (Nat × Nat) → Bool
  | [] => true
  | (a, n) :: l => l.all (fun (b, m) => decide (a + n ≤ b) || decide (b + m ≤ a)) && disjoint l

/-- The ENGINE 1 tasks of an image. -/
def safetyTasks (g : ConfImage) : List TaskRec := g.tasks.filter (fun t => t.kind == 0 && t.engine == 1)

/-- A number within a range. -/
def within (x lo hi : Nat) : Bool := decide (lo ≤ x) && decide (x ≤ hi)

/-- A SID named by the safety block: none, or a SAFE signal of the image (R366). -/
def namedSafe (g : ConfImage) (sid : Sid) : Bool :=
  sid == 0 || (match sigRec g sid with
    | some r => r.safe
    | none => false)

/-- An SDT record that matches its IOMAP record (R365, R366). -/
def sdtOk (g : ConfImage) (d : SdtRec) : Bool :=
  if d.pub then match (pdPubs g)[d.iomapIndex]? with
    | some (.pdPub _ _ _ _ _ _ _ _ sdt _ _ _ _ smi) => sdt && smi == d.smi
    | _ => false
  else match (pdSubs g)[d.iomapIndex]? with
    | some (.pdSub _ _ _ _ _ _ sdt _ _ smi) => sdt && smi == d.smi && d.copyOffset % 32 == 0 && within d.copyOffset 0x400000 0x7FFFFF
    | _ => false

/-- The ranges of the safety parameter block (R364, R374). -/
def safetyRanges (b : SafetyBlock) : Bool :=
  b.magicOk && b.len == safetyLen b && b.rest == 0 && b.codeA == 65521 && decide (b.tasks.length ≤ 4) && decide (b.sdt.length ≤ 256) &&
  (if b.tasks.isEmpty then b.flows.isEmpty else within b.flows.length 1 4096) &&
  within b.sdtSkewMaxMs 1 65 && within b.sdtSingleMax 1 255 && (bit b.funcEn 0 || b.funcEn == 0) && decide (b.sources.length ≤ 8) &&
  b.sources.all (fun x => decide (x.indep ≤ 7)) && decide (b.soWiring ≤ 1) &&
  within b.ssvTolAbs 10 1000 && decide (b.ssvTolRel ≤ 100) && decide (b.slsMax ≤ 4000) && decide (b.slsWarn ≤ 200) && within b.slsHyst 1 100 &&
  within b.sdiDist 50 5000 && within b.sdiVdir 5 500 && within b.ssmVmax 5 500 && within b.ssmTimeMs 500 10000 && within b.sldMax 1 5000 &&
  within b.siDiscMs 10 500 && within b.soTestMs 100 10000 && within b.soPulseUs 100 500 && decide (b.canaryRestart ≤ 1)

/-- Whether the three arrays of the block lie apart, behind the fixed area and within LEN; empty ones at its end, whose LEN leaves no gap (R364, R365,
assumption 197). -/
def arraysOk (b : SafetyBlock) : Bool :=
  let l := [(b.taskOffset, 16 * b.tasks.length), (b.sdtOffset, 48 * b.sdt.length), (b.flowOffset, 4 * b.flows.length)]
  l.all (fun x => decide (0x160 ≤ x.1) && decide (x.1 + x.2 ≤ b.len) && (x.2 != 0 || x.1 == b.len)) &&
  disjoint (l.filter (fun x => x.2 != 0))

/-- The safety parameter block against R364 to R366. -/
def safetyOk (g : ConfImage) : Bool :=
  let b := g.safety
  let ts := (safetyTasks g).map (·.id)
  safetyRanges b && arraysOk b && b.tasks.length == ts.length && b.tasks.all (fun t => ts.contains t.task && decide (t.flowFirst + t.flowCount ≤ b.flows.length)) &&
  (if b.tasks.isEmpty then b.funcTask == 0xFF && b.sdt.isEmpty && b.funcEn == 0 && b.resultSids.all (· == 0) else ts.contains b.funcTask) &&
  b.sdt.all (sdtOk g) && (b.soWiring == if g.group.group then 1 else 0) &&
  b.resultSids.all (fun sid => sid == 0 || (match sigRec g sid with
    | some r => r.writer.toNat == b.funcTask
    | none => false)) &&
  ([b.slsSid, b.sdiDirSid, b.sdiAckSid, b.sldEnSid, b.sldRefSid] ++ b.resultSids).all (namedSafe g)

/-- V07: the directory, the bytes between the parts, and a safety block that breaks R364 or R365 (R64, R366). -/
def v07 (g : ConfImage) : Bool :=
  let h := g.hdr
  h.sectionCount == 13 && h.dirEntryLen == 64 && h.dirOffset == 0x100 && g.dir.map (·.id) == List.range 13 &&
  secPlaced h.sigblkOffset (0x100 + 13 * 64) (g.dir.drop 1) && g.dir.all (dirOk g) && g.gaps.all (· == 0) && safetyOk g

/-! ## Time, tasks, tiles (V09 to V15) -/

/-- V09: the TIME record, with what SYNC_REF 2 and bus administration ask of it (R80, R155, R164). -/
def v09 (g : ConfImage) : Bool :=
  let t := g.time
  let ba := g.iomap.any (fun r => match r with
    | .mvbRole role _ => role == 1
    | _ => false)
  t.flagsHigh == 0 && t.rest == 0 && within t.tbaseUs 250 64000 && (!g.group.group || decide (500 ≤ t.tbaseUs)) && decide (t.syncRef ≤ 3) && within t.slew 1 100 &&
  within t.window 1 250 && within t.stepMaxUs 1 1000000 && decide (t.refExp ≤ 3) && (t.syncRef == 2 || t.refExp == 0) &&
  (t.syncRef != 2 || (!ba && g.iomap.any (fun r => r.kind == 7))) &&
  (!ba || t.tbaseUs == 250 || t.tbaseUs == 500 || t.tbaseUs % 1000 == 0)

/-- V10. -/
def v10 (g : ConfImage) : Bool :=
  let cy := g.tasks.filter (fun t => t.kind == 0)
  let ev := g.tasks.filter (fun t => t.kind == 1)
  decide ((g.tasks.map (·.id)).Nodup) && decide (cy.length ≤ 32) && decide (ev.length ≤ 16) && cy.length + ev.length == g.tasks.length &&
  cy.all (fun t => decide (t.id < 0x20)) && ev.all (fun t => within t.id 0x20 0x2F) &&
  g.tasks.all (fun t => t.rest == 0 && decide (t.periodExp ≤ 10) && decide (g.time.tbaseUs * 2 ^ t.periodExp ≤ 4096000) && decide (t.phase < 2 ^ t.periodExp))

/-- V11: a program longer than a code half lies outside CODE too (R100). -/
def v11 (g : ConfImage) : Bool :=
  let codeLen := match g.dir[2]? with
    | some e => e.length
    | none => 0
  let fabTask (id : Nat) : Bool := match taskRec g id with
    | some t => t.kind == 0 && t.engine == 0
    | none => false
  g.tiles.map (·.tile) == List.range 48 && g.progs.length == 48 &&
  g.tiles.all (fun r => (r.task == 0xFF || fabTask r.task.toNat) && r.codeOffset % 64 == 0 && decide (r.codeOffset + r.codeLen ≤ codeLen) &&
    decide (r.codeLen ≤ 0x10000) && (recUsed r || r.codeLen == 0)) &&
  g.tasks.all (fun t => !fabTask t.id || !(tilesOf g t.id).isEmpty)

/-- Every tile with its record and program satisfies p. -/
def allTiles (g : ConfImage) (p : TileNo → TileRec → TileProg → Bool) : Bool :=
  (List.range 48).all (fun i => if h : i < 48 then p ⟨i, h⟩ (tileRec g ⟨i, h⟩) (nthD g.progs i {}) else true)

/-- V12. -/
def v12 (g : ConfImage) : Bool := allTiles g (fun _ r p => v12Tile r p)

/-- V13. -/
def v13 (g : ConfImage) : Bool := allTiles g (fun n r p => v13Tile g n r p)

/-- V14: each fabric and safety task fits its period less 10 µs, a safety task of a group less 70 µs; at most 4 safety tasks
(R84, R362). -/
def v14 (g : ConfImage) : Bool :=
  let off := if g.group.group then 40000 else 10000
  decide ((safetyTasks g).length ≤ 4) &&
  g.tasks.all (fun t => t.kind != 0 || t.engine == 2 ||
    decide (off + wcetNs g t + (if t.engine = 1 ∧ g.group.group = true then 70000 else 10000) ≤ g.time.tbaseUs * 1000 * 2 ^ t.periodExp))

/-! ## Signals (V16 to V18) -/

/-- The byte ranges that a signal occupies: value and quality. -/
def sigBytes (r : SigRec) : List (Nat × Nat) := [(r.pimOffset, tySize r.t), (qualOff r, 1)]

/-- The copy area of an SDT subscription (R371). -/
def copyArea (g : ConfImage) (d : SdtRec) : List (Nat × Nat) :=
  if d.pub then []
  else match (pdSubs g)[d.iomapIndex]? with
    | some (.pdSub _ _ _ len ..) => [(d.copyOffset, 32 * ceilDiv len 32)]
    | _ => []

/-- The placement rule of a signal's region (R203). -/
def placed (r : SigRec) : Bool :=
  r.pimOffset % tySize r.t == 0 &&
  (if r.pimOffset < 0x400000 then r.pimOffset / 32 % 2 == 0 else r.pimOffset / 32 == (r.pimOffset + tySize r.t) / 32)

/-- SIDs in ascending order, none reserved. -/
def ascending : List SigRec → Bool
  | r :: q :: l => decide (r.sid.toNat < q.sid.toNat) && ascending (q :: l)
  | _ => true

/-- The fields of a signal record that have no check of their own, judged with its placement: a defined type, DIR and SUBST_MODE, no undefined
flag, no range of a BOOL or a 64-bit type (R71, R125; assumption 163). -/
def sigFieldsOk (r : SigRec) : Bool :=
  decide (r.ty.toNat < 16) && decide (r.dir ≤ 2) && decide (r.substMode ≤ 2) && r.flagsHigh == 0 &&
  (!(r.ty == 0 || tySize r.t == 8) || (r.rangeMin == 0 && r.rangeMax == 0))

/-- V16. -/
def v16 (g : ConfImage) : Bool :=
  let l := g.sigs.flatMap sigBytes ++ g.safety.sdt.flatMap (copyArea g)
  ascending g.sigs && g.sigs.all sigFieldsOk && g.sigs.all (fun r => r.sid != 0 && r.sid != 0xFFFFFF && placed r) &&
  l.all (fun x => decide (x.1 + x.2 ≤ 0x800000)) && disjoint l

/-- Whether an SDT subscription carries a SID. -/
def sdtCarries (g : ConfImage) (sid : Sid) : Bool :=
  g.iomap.any (fun r => match r with
    | .pdSub _ f n _ _ _ sdt .. => sdt && inRun f n sid
    | _ => false)

/-- Whether a signal's writer exists; a SAFE signal has an ENGINE 1 task, an SDT subscription or the safe inputs (R72, R367). -/
def writerOk (g : ConfImage) (r : SigRec) : Bool :=
  let w := r.writer.toNat
  if w < 0x30 then match taskRec g w with
    | some t => !r.safe || t.engine == 1
    | none => false
  else if r.safe then w == 0x44 || (w == 0x40 && sdtCarries g r.sid)
  else [0x40, 0x41, 0x42, 0x44, 0x50, 0xFE].contains w

/-- V18. -/
def v18 (g : ConfImage) : Bool :=
  g.sigs.all (fun r => writerOk g r && (!r.voted || r.safe) && !(r.voted && r.forceAllowed)) && (g.tiles.zip g.progs).all (fun (r, p) => tileWritesOwn g r p)

/-! ## Ports and gateway (V19 to V22) -/

/-- The length of a data set as R258 lays it out. -/
def dataLen (g : ConfImage) (first : Sid) (count : Nat) (timed sdt : Bool) : Nat :=
  let body := (sigOffsets (if timed then 16 else 0) (runSigs g first count)).foldl (fun _ x => x.2 + tySize x.1.t) (if timed then 16 else 0)
  ceilDiv body 4 * 4 + if sdt then 16 else 0

/-- A telegram's signals all exist and PAYLOAD_LEN is their data set's (R258). -/
def pdOk (g : ConfImage) (first : Sid) (count len : Nat) (timed sdt : Bool) : Bool :=
  (runSigs g first count).length == count && len == dataLen g first count timed sdt && decide (len ≤ if sdt then 1000 else 1432)

/-- The nominal and data rates of CAN FD (R281). -/
def canRates (mode nom data : Nat) : Bool :=
  [125, 250, 500, 1000].contains nom && (if mode = 1 then data == 0 else [1000, 2000, 4000, 5000].contains data && decide (nom ≤ data))

/-- MODE of a CAN port. -/
def canMode (g : ConfImage) (p : Nat) : Nat :=
  match canPortOf g p with
  | some (m, _) => m
  | none => 0

/-- The fields of an IOMAP record within what R76 and its port chapter define. -/
def ioOk (g : ConfImage) : IoRec → Bool
  | .port id enable mode _ _ vlan pcp =>
    decide (id ≤ 7) && decide (enable ≤ 1) && decide (mode ≤ if id ≤ 2 then 2 else 0) && decide (vlan < 4095) && decide (pcp ≤ 7)
  | .pdPub _ f n len _ pexp og timed sdt _ _ _ pcp _ => pdOk g f n len timed sdt && decide (pexp ≤ 10) && decide (og ≤ 63) && decide (pcp ≤ 7)
  | .pdSub _ f n len _ timed sdt _ pullExp _ => pdOk g f n len timed sdt && decide (pullExp ≤ 10)
  | .mdSession _ role _ _ => decide (role ≤ 1)
  | .outGroup id _ => decide (id ≤ 63)
  | .mvbRole role addr => decide (role ≤ 1) && decide (addr ≤ 4095)
  | .mvbPort addr fcode src og => decide (addr ≤ 4095) && decide (fcode ≤ 4) && (!src || decide (og ≤ 63))
  | .mvbMfl addr fcode _ => decide (addr ≤ 4095) && (decide (fcode ≤ 4) || fcode == 15)
  | .canPort p mode nom data => decide (p ≤ 1) && decide (mode ≤ 1) && canRates mode nom data
  | .canId p tx dlc ext fd brs ident pexp og =>
    decide (p ≤ 1) && decide (dlc ≤ if fd then 15 else 8) && decide (ident < if ext then 2 ^ 29 else 2 ^ 11) && (fd || !brs) &&
    decide (pexp ≤ 10) && (!tx || decide (og ≤ 63)) && !(canMode g p == 1 && (fd || (!ext && (ident == 0 || ident == 0x80))))
  | .node id => decide (id ≤ 0xFFFF)
  | .safeIo c sid => decide (c ≤ 3) && (sigRec g sid).isSome
  | .updNeighbour _ mask => decide (mask ≤ 3)
  | .undefined _ => false

/-- The budget of a poll in tenths of a µs (R276). -/
def pollBudget : Nat → Nat
  | 0 => 867 | 1 => 974 | 2 => 1187 | 3 => 1667 | 4 => 2627 | _ => 867

/-- The length of the basic period in µs (R164). -/
def basicUs (g : ConfImage) : Nat := if g.time.tbaseUs % 1000 = 0 then 1000 else if g.time.tbaseUs = 250 then 1000 else if g.time.tbaseUs = 500 then 1000 else g.time.tbaseUs

/-- The budget of the compatibility polls that a boundary selects (R276, R301). -/
def compatBudget (g : ConfImage) (mcc : Nat) : Nat :=
  ((g.gwmap.filter (fun e => e.compat && e.bus == 0 && mcc % 2 ^ e.pollExp == 0)).map (fun e => match mvbPortOf g e.frame with
    | some (f, _) => pollBudget f
    | none => 0)).sum

/-- The i-th minor cycle with which a basic period begins, by its MCC and the number of that period (R164, R276). -/
def periodStart (g : ConfImage) (i : Nat) : Nat × Nat :=
  if g.time.tbaseUs = 250 then (4 * i, i) else if g.time.tbaseUs = 500 then (2 * i, i) else (i, i * (g.time.tbaseUs / 1000))

/-- Every basic period's polls fit it less 70 µs, the compatibility polls of a boundary counted in the first one of its minor cycle (R276, R301). -/
def mvbFits (g : ConfImage) : Bool :=
  let list (n : Nat) : Nat := ((duePolls g n).map (fun x => pollBudget x.1)).sum
  (List.range 128).all (fun n => decide (list n + 700 ≤ 10 * basicUs g)) &&
  (List.range 128).all (fun i => decide (list (periodStart g i).2 + compatBudget g (periodStart g i).1 + 700 ≤ 10 * basicUs g))

/-- The header of an IOMAP record as R75 and R76 have it. -/
def ioHeadOf (r : IoRec) : IoHead := { kind := r.kind, len := ioLen r.kind }

/-- Records in ascending order of KIND (R75). -/
def kindsRise : List IoRec → Bool
  | r :: q :: l => decide (r.kind ≤ q.kind) && kindsRise (q :: l)
  | _ => true

/-- V19. -/
def v19 (g : ConfImage) : Bool :=
  g.ioHeads == g.iomap.map ioHeadOf && kindsRise g.iomap &&
  (List.range 14).all (fun k => decide ((g.iomap.filter (fun r => r.kind == k)).length ≤ ioKindMax k)) && g.iomap.all (ioOk g) &&
  decide (g.gwmap.length ≤ 16384) && mvbFits g &&
  (let a := portCfg g 0
   let b := portCfg g 1
   !(g.iomap.any (fun r => match r with
     | .port 1 .. => true
     | _ => false)) || (a.ip == b.ip && a.mask == b.mask && a.vlan == b.vlan))

/-- The OUT_GROUP that a record must name (R76). -/
def outGroupOf : IoRec → Option Nat
  | .pdPub _ _ _ _ _ _ og .. => some og
  | .mvbPort _ _ true og => some og
  | .canId _ true _ _ _ _ _ _ og => some og
  | _ => none

/-- V20, with the ComIDs of R77. -/
def v20 (g : ConfImage) : Bool :=
  let groups := g.iomap.filterMap (fun r => match r with
    | .outGroup i _ => some i
    | _ => none)
  g.iomap.all (fun r =>
    (match outGroupOf r with
     | some og => groups.contains og
     | none => true) &&
    (match r with
     | .outGroup _ us => decide (us ≤ 2000000)
     | .pdPub c .. => !within c 31000 31999
     | .mdSession c .. => !within c 31000 31999
     | .pdSub c .. => !within c 31000 31999 || within c 31100 31199
     | _ => true))

/-- The payload length of a gateway entry's port or frame, if it exists on its bus (R289). -/
def gwPayload (g : ConfImage) (e : GwEnt) : Option Nat :=
  if e.bus = 0 then (mvbPortOf g e.frame).map (fun x => mvbSize x.1)
  else match (canIds g).find? (fun x => x.1 == e.frame) with
    | some (_, .canId p _ dlc ..) => if p + 1 = e.bus then some (dlcLen dlc) else none
    | _ => none

/-- Whether a REAL is finite. -/
def finiteR (x : Reg32) : Bool := x.extractLsb' 23 8 != 0xFF

/-- The payload bits a signal-to-bus entry writes, its validity bit among them (R288, R292). -/
def gwBits (e : GwEnt) : List Nat := (List.range e.bitLen).map (· + e.bitOff) ++ (if e.validOff = 0xFFFF then [] else [e.validOff])

/-- One gateway entry (R289, R290). -/
def gwOk (g : ConfImage) (e : GwEnt) : Bool :=
  match sigRec g e.sid, gwPayload g e with
  | some r, some n =>
    e.rest == 0 && decide (e.bus ≤ 2) && within e.bitLen 1 64 && decide (e.bitOff + e.bitLen ≤ 8 * n) && (e.validOff == 0xFFFF || decide (e.validOff < 8 * n)) &&
    (!e.little || (e.bitOff % 8 == 0 && e.bitLen % 8 == 0)) && (!e.float32 || e.bitLen == 32) && finiteR e.scale && !isZeroR e.scale &&
    finiteR e.offset && decide (e.round ≤ 3) && within e.span 1 4 && decide (e.pollExp ≤ 6) &&
    (if e.toBus then decide (r.dir = 2 ∨ r.dir = 0) else r.writer == 0x42) &&
    (!e.doorbell || (decide (e.bitLen ≤ 8) && g.tasks.any (fun t => t.kind == 1 && t.triggerSid == e.sid))) &&
    (!e.compat || (if e.bus = 0 then (mvbRole g).1 == 1
      else (canFrameOf g e.pollFrame []).isSome))
  | _, _ => false

/-- The slices of one SID agree, are SPAN in number and hold at most 64 bits (R290). -/
def slicesOk (g : ConfImage) (e : GwEnt) : Bool :=
  e.span == 1 ||
  (let l := g.gwmap.filter (fun x => x.sid == e.sid && x.toBus == e.toBus && !x.doorbell)
   l.length == e.span && decide ((l.map (·.bitLen)).sum ≤ 64) && l.all (fun x => x.scale == e.scale && x.offset == e.offset && x.round == e.round &&
     x.signed == e.signed && x.little == e.little && x.float32 == e.float32 && x.span == e.span))

/-- No two signal-to-bus entries write one bit (R290). -/
def bitsApart : List GwEnt → Bool
  | [] => true
  | e :: l => l.all (fun x => !(e.toBus && x.toBus && e.bus == x.bus && e.frame == x.frame && (gwBits e).any (fun b => (gwBits x).contains b))) && bitsApart l

/-- V21. -/
def v21 (g : ConfImage) : Bool := g.gwmap.all (gwOk g) && g.gwmap.all (slicesOk g) && bitsApart g.gwmap

/-- V22. -/
def v22 (g : ConfImage) : Bool :=
  g.tsn.all (fun t => decide (t.entries.length ≤ 256) && t.count == t.entries.length && t.rest == 0 && (t.entries.map (·.2)).sum == g.time.tbaseUs * 1000)

/-! ## Group, power, settings (V23, V24) -/

/-- The reservation of an image: 208 tokens with an ECN plane enabled, 200 without (R446). -/
def reservation (g : ConfImage) : Nat := if (portCfg g 0).enable || (portCfg g 1).enable then 208 else 200

/-- The PIM words of the mirrored signals (R340). -/
def mirrorWords (g : ConfImage) : List Nat := ((g.sigs.filter (·.mirrored)).flatMap sigWords).eraseDups

/-- SHED_ORDER: PORT_IDs up to the byte 0xFF that ends the list (R80, R449). -/
def shedOk (l : List Nat) : Bool := decide (l.length ≤ 8) && (l.takeWhile (· != 0xFF)).all (fun p => decide (p ≤ 7))

/-- V23: the status of its first failure (R83, R338, R340, R356). -/
def v23 (g : ConfImage) (proto : Nat × Nat) : Option Status :=
  let r := g.group
  let ranges := decide (r.groupId ≤ 255) && decide (r.rackId ≤ 63) && within r.nMiss 1 8 && within r.probationS 10 3600 && within r.rotateMin 60 43200 &&
    decide (r.onlineMaxClass ≤ 2) && decide (g.power.acMaxStep ≤ 7) && shedOk g.power.shedOrder && r.modeHigh == 0 && r.rest == 0 && g.power.rest == 0 && decide (g.power.capTokens ≤ 480) &&
    decide ((g.sigs.filter (·.voted)).length ≤ 1024) && decide ((mirrorWords g).length ≤ 2048) &&
    decide (r.protoMajor < proto.1 ∨ (r.protoMajor = proto.1 ∧ r.protoMinor ≤ proto.2))
  if g.power.capTokens < reservation g then some .refusedPower else if ranges then none else some .checkFailed

/-- The bits of class C of the registers that have any (R8 and the register tables). -/
def cBits : List (Nat × Nat) := [
  (0xF000020C, 0x3), (0xF0400020, 0x1), (0xF2000000, 0x7F), (0xF2100004, 0x07FF07FF), (0xF2100008, 0x07FF07FF), (0xF210000C, 0x07FF07FF),
  (0xF4000020, 0xFFFFFF33), (0xF4000024, 0xFFFFFFFF), (0xF4000028, 0xFFFFFFFF), (0xF4100004, 0xFFFFFFFF), (0xF4100008, 0xFFFFFFFF),
  (0xF410000C, 0x7), (0xF5400024, 0xFF00FFFF), (0xF5300004, 0xFFFF), (0xF0200000, 0x01FF0000), (0xF030000C, 0xFFFFFFFF),
  (0xF0300010, 0xFFFFFFFF), (0xF0300014, 0xFFFFFFFF), (0xF0300018, 0xFF), (0xF030001C, 0xFFFF0000)] ++
  [1, 2, 3, 4, 5].flatMap (fun t => [(0xF5300100 + t * 0x20, 0x303), (0xF5300104 + t * 0x20, 0xFFFFFFFF), (0xF5300108 + t * 0x20, 0xFFFFFFFF),
    (0xF530010C + t * 0x20, 0xFFFFFFFF)])

/-- The class C bits of a register. -/
def cMask (addr : Nat) : Reg32 := BitVec.ofNat 32 (((cBits.find? (fun x => x.1 == addr)).map (·.2)).getD 0)

/-- Whether an address is one of a register word in the control window (R81, R503). -/
def inControl (a : Nat) : Bool := decide (0xF0000000 ≤ a) && decide (a < 0x100000000) && a % 4 == 0

/-- V24: an address in the control window, MASK within the class C fields of its register (R81). -/
def v24 (g : ConfImage) : Bool :=
  decide (g.settings.length ≤ 1024) && g.settings.all (fun x => inControl x.addr.toNat && x.rest == 0 && x.mask &&& ~~~cMask x.addr.toNat == 0)

/-! ## The change class (R89) -/

/-- The class of a change between two records of one key, or of adding or removing one. -/
def classList [DecidableEq α] (key : α → Nat) (diff : α → α → Nat) (lone : α → Nat) (a b : List α) : Nat :=
  let other (l : List α) (x : α) : Option α := l.find? (fun y => key y == key x)
  ((a.map (fun x => match other b x with
      | some y => if x = y then 0 else diff x y
      | none => lone x)) ++ (b.map (fun y => if (other a y).isSome then 0 else lone y))).foldl max 0

/-- The class of a change of a tile record (R70). -/
def tileClass (a b : TileRec) : Nat := if a.task ≠ b.task ∨ a.slackEvt ≠ b.slackEvt then 2 else 1

/-- The class of a change of a signal record (R71). -/
def sigClass (a b : SigRec) : Nat :=
  if a.dir ≠ b.dir ∨ a.safe ≠ b.safe then 3
  else if a.pimOffset ≠ b.pimOffset ∨ a.voted ≠ b.voted ∨ a.mirrored ≠ b.mirrored then 2
  else if a.ty ≠ b.ty ∨ a.writer ≠ b.writer ∨ a.unit ≠ b.unit ∨ a.rangeMin ≠ b.rangeMin ∨ a.rangeMax ≠ b.rangeMax then 1
  else 0

/-- The class of a change of a task record (R74). -/
def taskClass (a b : TaskRec) : Nat :=
  if { a with ovrLimit := b.ovrLimit, ovrReaction := b.ovrReaction, triggerSid := b.triggerSid } ≠ b then 2
  else if a.triggerSid ≠ b.triggerSid then 1 else 0

/-- A record with the fields of class 0 of its kind removed (R76). -/
def ioStructure : IoRec → IoRec
  | .mdSession c r n _ => .mdSession c r n 0
  | .outGroup i _ => .outGroup i 0
  | .updNeighbour _ _ => .updNeighbour 0 0
  | r => r

/-- The IOMAP records of class 3 differ, UPDATE_NEIGHBOUR apart. -/
def ioClass (a b : List IoRec) : Nat :=
  let st (l : List IoRec) := (l.filter (fun r => r.kind != 13)).map ioStructure
  if st a = st b then 0 else 3

/-- The class of gateway entries changed, added or removed: 0 for scale and offset, 1 where the ports and identifiers named exist
in the active image too, else 3 (R78). -/
def gwClass (a b : ConfImage) : Nat :=
  let known (e : GwEnt) : Bool := (gwPayload a e).isSome && (!e.compat || e.bus == 0 || (canFrameOf a e.pollFrame []).isSome)
  let bare (e : GwEnt) : GwEnt := { e with scale := 0, offset := 0 }
  if a.gwmap = b.gwmap then 0
  else if a.gwmap.map bare = b.gwmap.map bare then 0
  else if b.gwmap.all (fun e => a.gwmap.contains e || known e) then 1 else 3

/-- The class of the GROUP, POWER and TIME records (R80). -/
def singleClass (a b : ConfImage) : Nat :=
  let ga := { a.group with nMiss := b.group.nMiss, probationS := b.group.probationS, rotateMin := b.group.rotateMin, onlineMaxClass := b.group.onlineMaxClass }
  let ta := { a.time with resyncAtMajor := b.time.resyncAtMajor, slew := b.time.slew, window := b.time.window, stepMaxUs := b.time.stepMaxUs }
  if ga ≠ b.group ∨ ta ≠ b.time then 3 else 0

/-- The change class of an image against the active one: the highest of its changed fields (R89). -/
def computedClass (a b : ConfImage) : Nat :=
  let l := [
    classList (·.tile) tileClass (fun _ => 2) a.tiles b.tiles,
    if a.xfers = b.xfers then 0 else 2,
    if a.progs = b.progs then 0 else 1,
    classList (fun r => r.sid.toNat) sigClass (fun _ => 1) a.sigs b.sigs,
    classList (·.id) taskClass (fun _ => 2) a.tasks b.tasks,
    ioClass a.iomap b.iomap, gwClass a b, if a.tsn = b.tsn then 0 else 3, if a.safety = b.safety then 0 else 3, singleClass a b]
  l.foldl max 0

/-- The change class that an image takes: DECLARED_CLASS where it is 0 to 3 and higher (R89). -/
def changeClass (s : State) (b : ConfImage) : Nat :=
  let c := computedClass s.ci.act b
  let d := b.hdr.declaredClass.toNat
  if d ≤ 3 then max c d else c

/-- Whether the module's state permits a change of a class; one accepted in STOP stays accepted when a START has meanwhile taken the
module to RUN (R90, R91). -/
def classAllowed (s : State) (c : Nat) : Bool :=
  s.glb.state == .stop || s.ci.loadStop || (s.glb.state == .run && decide (c ≤ s.ci.act.group.onlineMaxClass))

/-! ## Validation (R83) -/

/-- The highest group protocol version of the running trusted kernel (R356). -/
def tkProto (s : State) : Nat × Nat := s.grp.proto

/-- The checks that apply in every situation, each with the status it would give. -/
def checksAll (s : State) (g : ConfImage) : List (Nat × Option Status) :=
  let c (ok : Bool) (st : Status) : Option Status := if ok then none else some st
  let floor := (nthD s.cul.boot 4 {}).floor
  [(1, c (v01 g.hdr) .checkFailed), (2, c (g.hdr.fmtMajor == 1 && decide (g.hdr.fmtMinor ≤ s.ci.supMinorMax)) .incompatible),
   (3, c (g.hdr.part == partName) .incompatible), (4, c (g.hdr.imageHash == g.hdr.calcHash) .checkFailed),
   (5, c (sigGood s 0x01 g.sig) .signatureFailed), (6, c (decide (floor ≤ g.hdr.version)) .versionFloor), (7, c (v07 g) .checkFailed),
   (8, c (sigGood s 0x02 g.safety.sig) .signatureFailed), (9, c (v09 g) .checkFailed), (10, c (v10 g) .checkFailed), (11, c (v11 g) .checkFailed),
   (12, c (v12 g) .checkFailed), (13, c (v13 g) .checkFailed), (14, c (v14 g) .refusedCapacity), (15, c (v15 g) .checkFailed),
   (16, c (v16 g) .checkFailed), (17, c (decide (g.sigs.length ≤ 262144)) .refusedCapacity), (18, c (v18 g) .refusedPolicy),
   (19, c (v19 g) .refusedCapacity), (20, c (v20 g) .refusedPolicy), (21, c (v21 g) .checkFailed), (22, c (v22 g) .checkFailed),
   (23, v23 g (tkProto s)), (24, c (v24 g) .refusedPolicy)]

/-- The checks of a load into the shadow plane: V25 and V26. -/
def checksShadow (s : State) (g : ConfImage) : List (Nat × Option Status) :=
  let d := g.hdr.declaredClass.toNat
  [(25, if g.hdr.baseHash = 0 ∨ g.hdr.baseHash = s.ci.act.hdr.imageHash then none else some .incompatible),
   (26, if d ≤ 3 ∧ d < computedClass s.ci.act g then some .checkFailed
        else if classAllowed s (changeClass s g) then none else some .refusedPolicy)]

/-- The first failing check with its status (R83). -/
def firstFail : List (Nat × Option Status) → Option (Nat × Status)
  | [] => none
  | (n, some st) :: _ => some (n, st)
  | (_, none) :: l => firstFail l

/-- An image validated: none when it passes. -/
def validate (s : State) (g : ConfImage) (shadow : Bool) : Option (Nat × Status) :=
  firstFail (checksAll s g ++ if shadow then checksShadow s g else [])

/-- The result of a validation shown in GLB_CI_STATUS (R83, R96). -/
def showCheck (s : State) (r : Option (Nat × Status)) : State :=
  match r with
  | none => { s with ci := { s.ci with lastStatus := Status.ok.code, lastCheck := 0 } }
  | some (n, st) => { s with ci := { s.ci with lastStatus := st.code, lastCheck := BitVec.ofNat 16 n } }

/-- The ERROR record of a failed validation: check and status (R83, R97). -/
def checkRec (s : State) (r : Nat × Status) : State :=
  record (showCheck s (some r)) .error srcGlb (cFailed r.2) r.1 [r.2.code]

end Sys2Proof.Machine
end

