-- ==== Sys2Proof/Machine/PortOps.lean ====
section
/-! DEFINITION. Machine/PortOps.lean: the PORT reset of each port block and of the gateway, and the port's reload from the active
plane (10_transactions_and_image_bus, R230, R231; 11_ethernet_ports_and_trdp, R249, R260; 18_power_resets_retention, R451, R454). -/

namespace Sys2Proof.Machine

/-! ## What a PORT reset returns -/

/-- The unit of a port number 0 to 7, or of the gateway, 8 (R464). -/
def resetUnit (u : Nat) : TUnit :=
  match Port.ofNat? u with
  | some p => p.unit
  | none => .gw

/-- The record source of a port number or of the gateway (R470). -/
def resetSrc (u : Nat) : BitVec 12 :=
  match Port.ofNat? u with
  | some p => p.src
  | none => srcGw

/-- The counters of senders whose last telegram came over a plane forgotten (R260). -/
def forgetPlane (s : State) (b : Bool) : State :=
  { s with eth := { s.eth with subs := s.eth.subs.map (fun x => { x with senders := x.senders.filter (fun c => c.planeB != b) }) } }

/-- The offload fields of class V, which the ECN-A block holds, at their reset values (R8, R273). -/
def resetOffload (s : State) : State :=
  { s with eth := { s.eth with
      etbTopo := 0, opTopo := 0, topoDue := none, pdSub := false, pdIdx := 0, arp := [], unresolved := []
      subs := s.eth.subs.map (fun x => { x with pfA := false, pfB := false, hdrFlags := 0, mcc := 0, held := none })
      pubs := s.eth.pubs.map (fun x => { x with mcc := 0 }) } }

/-- An Ethernet port's block in reset: link, queues, gate list position and host rings gone, counters kept; MAINT is disabled with its PHY; on a plane
the copies held for it are accepted, the sender counters it delivered forgotten, its PTP instance restarted (R249, R260, R263, R269, R322). -/
def resetEth (s : State) (i : EthNo) : State :=
  let s1 := modEth s i (fun p => { p with
    up := false, speed := 0, enable := false, gclCur := 0, gclEndTtc := 0, gclSel := 0, txOk := false
    queues := List.replicate 8 [], hqTx := {}, hqRx := {} })
  let s1 := rxClk s1 i.val false
  if i = 2 then { s1 with
    tk := { s1.tk with maintBy := none }
    pgv := { s1.pgv with portPowered := clrBit s1.pgv.portPowered 2 } }
  else
    let b := i == 1
    let s2 := forgetPlane (releasePlane s1 !b) b
    let s3 := if i = 0 then resetOffload s2 else s2
    ptpRestart (modPtp s3 b (fun q => { q with egress := 0, ingress := 0 })) b

/-- An item of a pending launch that a reset discards: its outputs are undelivered (R170, R231). -/
def failItem (s : State) : LaunchItem → State
  | .mvb a _ iss => busFail s .mvb 0 a (BitVec.ofNat 32 a) .unitReset iss
  | .can i _ iss => match canFrameOf s.ci.act i [] with
    | some (n, f) => busFail s (canPort n).unit (n + 1) i (f.ident.setWidth 32) .unitReset iss
    | none => s

/-- The items of the launches that wait. -/
def pendingItems (s : State) : List LaunchItem :=
  s.cyc.queues.flatten.flatMap (fun l => l.items) ++ (s.cyc.evtLaunch.filterMap id).flatMap (fun l => l.items)

/-- The pending launches of a port discarded, their outputs reported UNIT_RESET (R170, R171). -/
def failLaunches (s : State) (p : LaunchItem → Bool) : State :=
  ((pendingItems s).filter p).foldl failItem (dropLaunches s p)

/-- The doorbell counters of a bus's entries, to be learnt anew (R300, R302). -/
def dropBells (s : State) (bus : Nat) : State :=
  { s with gw := { s.gw with bells := s.gw.bells.filter (fun x => !(match s.ci.act.gwmap[x.1]? with
    | some e => e.bus == bus
    | none => false)) } }

/-- The MVB block in reset; its doorbell counters are learnt anew (R302, R303). -/
def resetMvb (s : State) : State :=
  let s1 := failLaunches s (fun x => match x with
    | .mvb .. => true
    | .can .. => false)
  let s2 := dropBells (s1.mvb.launched.foldl (fun s a => failItem s (.mvb a.1 [] a.2)) s1) 0
  { s2 with mvb := { s2.mvb with
      lineA := { s2.mvb.lineA with fault := false, good := 0, bad := 0 }
      lineB := { s2.mvb.lineB with fault := false, good := 0, bad := 0 }
      bp := 0, dstatSel := 0, dstat := [], bufs := [], rxBufs := [], poll := none, due := [], launched := [] } }

/-- Whether a launch item is a frame of CAN n. -/
def isCanItem (g : ConfImage) (n : Nat) : LaunchItem → Bool
  | .mvb .. => false
  | .can i .. => (canFrameOf g i []).map (·.1) == some n

/-- A CAN controller's block in reset: its pending launches and frames fail UNIT_RESET; its doorbell counters are learnt anew (R170, R293,
R304). -/
def resetCan (s : State) (n : Nat) : State :=
  let s1 := failLaunches s (isCanItem s.ci.act n)
  let old := (canOf s1 n).pend
  let s2 := modCan s1 n (fun c => { c with
    enabled := false, monitor := false, txErr := 0, rxErr := 0, busOff := false, lastNmt := 0, pend := [] })
  dropBells (old.foldl (fun s p => canFail s n p .unitReset) s2) (n + 1)

/-- The gateway in reset (R294, R299). -/
def resetGw (s : State) : State := { s with gw := { s.gw with sems := List.replicate 32 {}, bells := [], polled := [], slices := [] } }

/-- A group link bridge in reset: a link loss, its fields of class V gone (R358, R360, R454). -/
def resetGl (s : State) (l : GLink) : State :=
  let s1 := if (s.grp.br l).up then linkDown s l else s
  modBr s1 l (fun b => { b with
    sems := List.replicate 64 {}, sharedBase := 0, sharedEn := false, deltaRx := 0, deltaTx := 0, bells := []
    txSeq := [0, 0, 0, 0], farFreed := [0, 0, 0, 0], freed := [0, 0, 0, 0], queues := [[], [], [], []], crcRun := 0
    peerEpoch := 0, peerPos := 0 })

/-- The block of a unit in reset. -/
def resetBlock (s : State) (u : Nat) : State :=
  match Port.ofNat? u with
  | some .ecnA => resetEth s 0
  | some .ecnB => resetEth s 1
  | some .maint => resetEth s 2
  | some .mvb => resetMvb s
  | some .can0 => resetCan s 0
  | some .can1 => resetCan s 1
  | some .glL => resetGl s .left
  | some .glR => resetGl s .right
  | none => resetGw s

/-- The receive buffer of a port emptied, and the posted RECEIVE buffers whose tags are gone (R231, R233). -/
def dropReceptions (s : State) (u : Nat) : State :=
  { s with
    txe := { s.txe with rx := s.txe.rx.filter (fun x => x.port.num != u) }
    eth := { s.eth with timedHeld := s.eth.timedHeld.filter (fun x => x.2.port.num != u), bufs := s.eth.bufs.filter (fun b => s.txe.tags.any (fun t => t.tag == b.tag)) } }

/-! ## PORT reset (R451) -/

/-- The start of a PORT reset of a port, or of the gateway as 8, or of a power-down: the epoch increments and the outstanding tags complete
UNIT_RESET, the block returns its V fields, the port's power history begins anew, the unit is held until its reset is done; counted, with a
WARNING record (R171, R230, R231, R249, R448, R451, R454, R464). A unit already held stays as it is. -/
def portReset (s : State) (u : Nat) (src : ResetSource) : State :=
  if 8 < u ∨ bit s.rst.portHeld u = true then s
  else
    let s1 := dropReceptions (resetBlock (bumpEpoch (if u < 8 then freshUnit s (u + 7) else s) (resetUnit u)) u) u
    let s2 := { s1 with rst := { s1.rst with
      portHeld := setBit s1.rst.portHeld u, portCnt := satInc s1.rst.portCnt, source := src, kind := 7 } }
    record s2 .warning (resetSrc u) (cFault src.num) u

/-- A port's controller configured and started from the active plane (R249, R281, R286). -/
def loadPort (s : State) (u : Nat) : State :=
  match Port.ofNat? u with
  | some .ecnA => modEth s 0 (fun p => { p with enable := (portCfg s.ci.act 0).enable })
  | some .ecnB => modEth s 1 (fun p => { p with enable := (portCfg s.ci.act 1).enable })
  | some .can0 => modCan s 0 (fun c => { c with enabled := (canPortOf s.ci.act 0).isSome, monitor := inGroup s && !drives s })
  | some .can1 => modCan s 1 (fun c => { c with enabled := (canPortOf s.ci.act 1).isSome, monitor := inGroup s && !drives s })
  | _ => s

/-- The position in CLK_STATUS of the PLL of a unit (R61, R63). -/
def pllBit (u : Nat) : Option Nat := nthD [some 7, some 8, some 9, some 12, some 13, some 13, some 10, some 11] u none

/-- A clock that runs again (R63). -/
def clkGood (s : State) (i : Nat) : State := { s with clk := { s.clk with ok := setBit s.clk.ok i } }

/-- The end of a PORT reset: the unit is loaded from the active plane and runs again, and the next port of a PORTFW activation is reset
(R249, R435, R451). Without an active plane the unit stays held. -/
def portDone (s : State) (u : Nat) : State :=
  if 8 < u ∨ bit s.rst.portHeld u = false ∨ s.ci.activeValid = false ∨ bit s.pgv.portRefused u = true ∨ bit s.rst.portNoFw u = true then s
  else
    let s0 := match pllBit u with
      | some i => clkGood s i
      | none => s
    let s1 := loadPort { s0 with rst := { s0.rst with portHeld := clrBit s0.rst.portHeld u } } u
    match s1.upd.portSeq with
    | p :: rest => if p.num = u then
        (match rest with
         | q :: _ => portReset { s1 with upd := { s1.upd with portSeq := rest } } q.num .activation
         | [] => { s1 with upd := { s1.upd with portSeq := [] } })
      else s1
    | [] => s1

/-- PORT_RESET_DONE: a PORT reset completes within its stated time (R249, R451). -/
def execPortResetDone (u : Nat) (s : State) : Host.Outcome State Fault Refusal := .next (portDone s u)

end Sys2Proof.Machine
end

