-- ==== Sys2Proof/Machine/ResetOps.lean ====
section
/-! DEFINITION. Machine/ResetOps.lean: the Canary's fail-silence, the resets of a module, the RUNTIME reset and the entry into DORMANT
(02_connectors_supplies_environment, R37; 15_safety_island, R390, R391; 18_power_resets_retention, R451 to R457). -/

namespace Sys2Proof.Machine

/-! ## Fail-silence (R37, R332, R390, R391) -/

/-- The Canary's history of a cause in the counters record (R391, R458). -/
def countCanary (s : State) (cause : Byte) : State :=
  writeCounters s (fun c => { c with canaryFs := satInc c.canaryFs, canaryCause := cause })

/-- Both group link transmitters send the fail-silent indication and are then turned off (R332). -/
def linksSilent (s : State) : State :=
  [GLink.left, .right].foldl (fun s l =>
    if (s.grp.br l).up then modBr { s with out := .failSilentSet l :: s.out } l (fun b => { b with up := false }) else s) s

/-- Fail-silence forced by the Canary with a cause: SO0, SO1, T1 and T2 off, every transmitter off, SAFE_HALT, the cause latched, a flush of
the recorder. Where the island still runs (`island`) the trusted kernel writes the history at once, else at the next boot (R37, R187, R332,
R387, R391, R473). -/
def failSilence (s : State) (cause : Byte) (island : Bool) : State :=
  if s.safe.failSilent || !s.pin.powerGood then s
  else
    let s1 := linksSilent (soOff s)
    let s2 := { s1 with safe := { s1.safe with
      failSilent := true, silentAt := s1.tb.ttc, running := false, t1 := false, t2 := false, canaryLatch := cause, canaryNew := true, canaryCounted := island, faultLed := true } }
    let s3 := if island then countCanary s2 cause else s2
    let halts := s3.glb.state == .config || s3.glb.state == .stop || s3.glb.state == .run || s3.glb.state == .hold
    let s4 := if halts then enterSafeHalt s3 else s3
    { s4 with evr := { s4.evr with flushing := true } }

/-! ## Module-level resets (R451, R453, R454) -/

/-- LEHR_LEFT of every type in TRIAL written with the operating time since its last write taken off (R425, R438). -/
def writeLehr (s : State) : State :=
  let d := s.cul.optime.toNat - s.upd.lehrTick
  let b := s.cul.boot.map (fun e => if e.state = 1 then { e with lehrLeft := BitVec.ofNat 32 (e.lehrLeft.toNat - d) } else e)
  let s1 := { s with upd := { s.upd with lehrTick := s.cul.optime.toNat } }
  if s.cul.boot.any (fun e => e.state == 1) then writeBoot s1 b else s1

/-- A MODULE reset recognised: a flush and a retention point come first; not before power good, after the cut-off, in DORMANT or on its
entry (R39, R41, R453, R462). -/
def moduleReset (s : State) : State :=
  if !s.pin.powerGood || s.pin.cutOff || s.rst.moduleDue || s.glb.state == .dormant then s
  else
    let s1 := retentionPoint s
    { s1 with rst := { s1.rst with moduleDue := true }, evr := { s1.evr with flushing := true } }

/-- What a session of the update engine keeps over a reset: the manifest and the bitmap, not the segments of an unfinished block; its idle
time runs from the boot (R440). -/
def bootSession (x : UpdSession) : UpdSession := { x with segs := [], resumed := true }

/-- A slot after a reset: verification and its results are discarded (R433, R440). -/
def bootSlot (x : UpdSlot) : UpdSlot :=
  { x with st := if x.st = .verifying ∨ x.st = .verified then .complete else x.st }

/-- The update engine over a reset that restarts the trusted kernel: slots, sessions and forward store, with the manifests of its packages, are in
storage; its counters are S; UPD_PROG shows the sessions that go on; an activation in progress stands for the records of the boot (R433, R440, R444). -/
def bootUpd (u : Upd) : Upd :=
  { slots := u.slots.map (fun (a, b) => (bootSlot a, bootSlot b)), sessions := u.sessions.map (·.map bootSession), fwd := u.fwd, fwdPkgs := u.fwdPkgs
    act := u.act, waiting := u.waiting, trialStart := u.trialStart
    have_ := (u.have_.zip u.sessions).map (fun x => if x.2.isSome then x.1 else (0, 0)) }

/-- The last known time in the counters record: what the TTC is loaded with (R306, R460). -/
def lastKnown (s : State) : Word :=
  match s.cul.counters.newer with
  | some (_, c) => c.lastTime
  | none => 0

/-- The Cullet as its copies give it at a boot: of each record the copy to be read, the factory's content where neither is good; the running
tenth of the operating time is lost (R10, R458 to R460). -/
def bootCul (c : Cullet) : Cullet :=
  let cur : Counters := match c.counters.newer with
    | some (_, x) => x
    | none => {}
  { c with
    cur, optime := cur.optime, opNs := 0, pwrCycles := cur.pwrCycles
    boot := match c.bootctl.newer with
      | some (_, x) => x
      | none => List.replicate 5 {}
    cfields := match c.cstore.newer with
      | some (_, x) => x
      | none => [] }

/-- The module at the start of a boot for a reason 0 power-on, 1 MODULE, 2 CANARY, 3 DORMANT exit: every V and S field at its reset value,
PIM, staging, versions, forces, sessions, group role, island state and DRAM content gone, the Cullet, the storage and the group's C fields
kept, the TTC loaded; the Canary cause latch lives through MODULE and CANARY alone, a locked cluster through CANARY alone; the slot straps are
latched at power good and MODULE reset, a power-fail warning stands through MODULE and CANARY alone (R33, R41, R199, R213, R306, R389, R391, R410, R433, R448, R452, R454). -/
def bootState (s : State) (reason : BitVec 2) : State :=
  let z := State.reset
  let keep := reason == 1 || reason == 2
  { z with
    pending := s.pending, out := s.out, cul := bootCul s.cul
    ci := { supMinorMax := s.ci.supMinorMax }
    evr := { store := s.evr.store }
    upd := bootUpd s.upd
    tk := { z.tk with
      fuses := s.tk.fuses, storeA := s.tk.storeA, storeB := s.tk.storeB, storeInB := s.tk.storeInB, settingsReset := s.tk.settingsReset }
    grp := if s.cul.cstore.newer.isNone then z.grp
      else { z.grp with rotSeq := s.grp.rotSeq, rotLeft := s.grp.rotLeft, latent := s.grp.latent, latentSerial := s.grp.latentSerial }
    safe := { z.safe with canaryLatch := if keep then s.safe.canaryLatch else 0, canaryNew := keep && s.safe.canaryNew, canaryCounted := keep && s.safe.canaryCounted }
    tb := { z.tb with ttc := lastKnown s }
    rst := { z.rst with bootReason := reason, clusterLocked := reason == 2 && s.rst.clusterLocked
                        lastFaultReset := if reason = 2 then s.rst.lastFaultReset else none
                        countersRepaired := s.cul.counters.newer.isNone, bootctlRepaired := s.cul.bootctl.newer.isNone
                        cstoreRepaired := s.cul.cstore.newer.isNone, retainLost := s.cul.retained.newer.isNone
                        retainFallback := s.cul.retained.a.isNone != s.cul.retained.b.isNone }
    pin := { s.pin with
      qualifying := false, powerGood := true, cutOff := false, wakeAccepted := false
      latched := if reason = 2 then s.pin.latched else some s.pin.straps
      warn := if keep then s.pin.warn else none
      ledPhase := if keep then 0 else 1 } }

/-! ## RUNTIME reset (R451, R454) -/

/-- Whether a tag's frame waits in a link's queue for credit. -/
def linkWaits (b : Bridge) (tag : BitVec 18) : Bool := b.queues.any (·.any (fun f => f.hdr.tag == tag && f.body.vc == 2))

/-- Whether a ring's tag has not been sent: a posted receive buffer, an MD message of which no frame has left, a request that waits in the outbox
to be issued again, in a link's queue or in a CAN controller (R233). -/
def unsentTag (s : State) (x : TagEnt) : Bool :=
  x.ring.isSome && (!x.sent || x.again || linkWaits s.grp.brL x.tag || linkWaits s.grp.brR x.tag ||
    s.can0.pend.any (fun p => p.src == .raw x.tag) || s.can1.pend.any (fun p => p.src == .raw x.tag) || (match x.req with
    | .mdReceive .. => true
    | _ => false))

/-- Frames of some tags taken out of a link's queues. -/
def dropQueued (tags : List (BitVec 18)) (b : Bridge) : Bridge :=
  { b with queues := b.queues.map (·.filter (fun f => !(f.body.vc == 2 && tags.contains f.hdr.tag))) }

/-- Frames of some tags taken out of a CAN controller. -/
def dropRaw (tags : List (BitVec 18)) (c : Can) : Can :=
  { c with pend := c.pend.filter (fun p => match p.src with
    | .raw t => !tags.contains t
    | _ => true) }

/-- Frames of some tags taken out of an Ethernet port's queues. -/
def dropMd (tags : List (BitVec 18)) (p : EthPort) : EthPort :=
  { p with queues := p.queues.map (·.filter (fun f => !((f.tag.map tags.contains).getD false))) }

/-- Frames of some tags taken out of every queue in which they wait. -/
def dropFrames (s : State) (tags : List (BitVec 18)) : State :=
  { s with
    can0 := dropRaw tags s.can0, can1 := dropRaw tags s.can1
    eth := { s.eth with ports := s.eth.ports.map (dropMd tags) }
    grp := { s.grp with brL := dropQueued tags s.grp.brL, brR := dropQueued tags s.grp.brR } }

/-- What a reset of the runtime ends: the ring tags not yet sent and every tag whose target is the RUNTIME unit (R231, R233). -/
def runtimeEnds (s : State) : List TagEnt := s.txe.tags.filter (fun x => unsentTag s x || x.unit == .runtime)

/-- The tags at a RUNTIME reset: what has not been sent and what is addressed to the runtime completes UNIT_RESET, what has been sent runs on;
their completions are dropped, the rings disabled, the RUNTIME epoch increments (R230, R231, R233, R299, assumption 41). -/
def runtimeTags (s : State) : State :=
  let ends := runtimeEnds s
  let s1 := ends.foldl (fun s x => finishTag s { x with drop := x.ring.isSome } .unitReset) (dropFrames s (ends.map (·.tag)))
  { s1 with txe := { s1.txe with
      tags := s1.txe.tags.map (fun x => if x.ring.isSome then { x with drop := true } else x)
      epochs := modNth s1.txe.epochs (TUnit.runtime.num - 1) (· + 1), rings := List.replicate 3 {} } }

/-- The core of an access that the HOST port FIFO holds; a store that names none has none (R58). -/
def heldCore : Instr → Option (Fin 8)
  | .pmuEvselWrite k .. => some k | .counterClear k .. => some k | .dumpArm k .. => some k | .registerWrite k .. => some k
  | .tkFieldWrite k .. => some k | .protectedAccess k .. => some k | .splitLoRead k .. => some k | .snapshotRead k .. => some k
  | .glbTaskRelRead k => some k | .glbEvtStatRead k .. => some k | .fabTileMaxRead k .. => some k | .pimaStgHwmRead k => some k
  | .pimaSnapStatRead k .. => some k | .pimaWaitRead k .. => some k | .safeRespRead k => some k | .pgvMeasRead k => some k
  | .glxDbRead k .. => some k | .taskDone k .. => some k | .evrReadRequest k .. => some k
  | _ => none

/-- The outstanding HOST and DMA requests at a clock fault of the cluster or its DRAM, which complete UNIT_RESET before the RUNTIME reset, a core's
held access with a bus error; what a port has sent runs on (R61, R233, assumption 161). -/
def unitResetRings (s : State) : State :=
  let ends := runtimeEnds s
  let s1 := ends.foldl (fun s x => finishTag s x .unitReset) (dropFrames s (ends.map (·.tag)))
  { s1 with host := [], out := ((s1.host.filterMap heldCore).map (fun k => Out.busError k.val)).reverse ++ s1.out }

/-- The monitor instances that a RUNTIME reset reaches: the cores, DRAM and the dump page (R481, R492). -/
def runtimePmu (p : Pmu) : Pmu :=
  { inst := ((List.range 13).zip p.inst).map (fun (i, x) => if i < 8 ∨ i = 11 then {} else x) }

/-- A RUNTIME reset: cluster and DRAM, the rings, host queues, call slots, snapshot and read contexts, shared regions, the step request, the
watchdog, semaphores; sessions end with MAINT; the RUNTIME epoch increments; a step change of CLK_AC completes; that of a UR activation releases a
locked cluster (R13, R233, R299, R410, R419, R451, R452, R454, R462, R477). -/
def runtimeReset (s : State) (src : ResetSource) : State :=
  let s1 := runtimeTags (maintOff (endSessions s))
  let gl (b : Bridge) : Bridge := { b with sharedBase := 0, sharedEn := false }
  let s2 := { s1 with
    eth := { s1.eth with
      ports := s1.eth.ports.map (fun p => { p with hqTx := {}, hqRx := {} }), bufs := [], tokens := [] }
    tk := { s1.tk with slots := List.replicate 8 {} }
    pim := { s1.pim with snaps := List.replicate 8 {} }
    evr := { s1.evr with ctx := List.replicate 8 {} }
    gw := { s1.gw with sems := List.replicate 32 {} }
    grp := { s1.grp with brL := gl s1.grp.brL, brR := gl s1.grp.brR }
    pmu := runtimePmu s1.pmu
    pgv := { s1.pgv with acStatus := 0, granted := 0, step := 7, stalled := false
                         units := ((List.range 18).zip s1.pgv.units).map (fun (i, u) => if 15 ≤ i then { u with windows := [] } else u) }
    rst := { s1.rst with wdogArmed := false, wdogStall := none, runtimeReady := false, clusterHeld := true
                         clusterLocked := s1.rst.clusterLocked && src != .activation
                         runtimeCnt := satInc s1.rst.runtimeCnt, source := src, kind := 4 }
    dram := [], latches := [], host := [] }
  record s2 .notice srcRst (cFault src.num)

/-- A RUNTIME reset caused by a fault: within 60 s of operation after another one the cluster stays held (R61, R452). -/
def runtimeFault (s : State) (src : ResetSource) : State :=
  let now := s.cul.optime.toNat
  let again := match s.rst.lastFaultReset with
    | some t => decide (now < t + 600)
    | none => false
  let s1 := runtimeReset s src
  { s1 with rst := { s1.rst with
      lastFaultReset := some now, clusterLocked := s1.rst.clusterLocked || again, faultLed1Hz := s1.rst.faultLed1Hz || again } }

/-! ## DORMANT (R455, R456) -/

/-- Boundary b of an entry into DORMANT: boundaries stop, no port transmits, the cluster is held, a STATE record, and the flush begins; a
MODULE reset that has not taken effect is gone (R39, R456, assumption 182). -/
def enterDormant (s : State) : State :=
  let s1 := setState (soOff { s with glb := { s.glb with pendCmd := none } }) .dormant
  { s1 with
    cyc := { s1.cyc with running := false, queues := List.replicate 64 [], evtLaunch := List.replicate 16 none, soLaunch := none }
    rst := { s1.rst with dormantPending := false, clusterHeld := true, moduleDue := false }
    evr := { s1.evr with flushing := true } }

/-- The rest of the entry once the flush is done: retention point, counters record with CLEAN_END, LEHR_LEFT, everything but the wake
detector off (R456, R458). -/
def finishDormant (s : State) : State :=
  let s1 := writeLehr (writeCounters (retentionPoint s) (fun c => { c with cleanEnd := true }))
  { s1 with
    tk := { s1.tk with running := false }
    pin := { s1.pin with powerGood := false, qualifying := false, ledPhase := 0, warn := none }
    safe := { s1.safe with t1 := false, t2 := false }
    eth := { s1.eth with ports := s1.eth.ports.map (fun p => { p with up := false }) }
    grp := { s1.grp with brL := { s1.grp.brL with up := false }, brR := { s1.grp.brR with up := false } } }

/-- FLUSH_COMPLETE, within 4 ms (R473); in DORMANT the entry goes on (R456). -/
def execFlushComplete (s : State) : Host.Outcome State Fault Refusal :=
  .next (if !s.evr.flushing then s
    else if s.glb.state = .dormant then finishDormant (flushDone s) else flushDone s)

end Sys2Proof.Machine
end

