-- ==== Sys2Proof/Machine/RegOps.lean ====
section
/-! DEFINITION. Machine/RegOps.lean: the register fields that are written: the fields that keep their value over every reset, what
REG_WRITE changes and refuses (22_register_map, R503 to R511; 16_trust_and_boot, R413, R414). -/

namespace Sys2Proof.Machine

/-! ## Fields by address -/

/-- The fields of a register whose access type is TK, as masks (R7 and the register tables). -/
def tkFields (addr : Nat) : List Nat :=
  match addr with
  | 0xF000020C => [0x3] | 0xF0200000 => [0x01FF0000] | 0xF0300000 => [0xF00, 4, 2, 1] | 0xF030001C => [0xFFFF0000]
  | 0xF13F0010 => [0x200, 0x100, 0x3F] | 0xF2000000 => [0x7F] | 0xF2000004 => [0xFFFF]
  | 0xF2100004 => [0x07FF0000, 0x7FF] | 0xF2100008 => [0x07FF0000, 0x7FF] | 0xF210000C => [0x07FF0000, 0x7FF]
  | 0xF4000020 => [0xFF000000, 0xFF0000, 0xFF00, 0x30, 0x3] | 0xF4000024 => [0xFFFFFFFF] | 0xF4000028 => [0xFFFFFFFF]
  | 0xF410000C => [0x7] | 0xF5300004 => [0xFFFF] | 0xF3200004 => [1]
  | a => if 0xF1000000 ≤ a ∧ a < 0xF1300000 ∧ a % 0x10000 = 0x1C then [1] else []

/-- All TK bits of a register. -/
def tkMask (addr : Nat) : Reg32 := BitVec.ofNat 32 (tkFields addr).sum

/-- The tile whose page an address names. -/
def tileAt (addr : Nat) : TileNo := Fin.ofNat 48 ((addr - 0xF1000000) / 0x10000)

/-- The quotas in force or about to be. -/
def quotasNext (s : State) : List Nat := s.txe.quotaNext.getD s.txe.quota

/-- Two quotas in a register (R247). -/
def quotaReg (l : List Nat) (i : Nat) : Reg32 := BitVec.ofNat 32 (nthD l (2 * i) 0 + 0x10000 * nthD l (2 * i + 1) 0)

/-- The value of the TK and runtime-written C fields of a register. -/
def fieldGet (s : State) (addr : Nat) : Reg32 :=
  match addr with
  | 0xF000020C => s.glb.auto.setWidth 32
  | 0xF0200000 => s.pgv.limit.setWidth 32 <<< 16
  | 0xF0300000 => s.rst.ctrlUnit.setWidth 32 <<< 8
  | 0xF030001C => s.rst.wdogMs.setWidth 32 <<< 16
  | 0xF0400020 => b2w s.cyc.seek
  | 0xF13F0010 => s.fab.resetTile.setWidth 32
  | 0xF2000000 => s.arb.holdMax.setWidth 32
  | 0xF2000004 => s.arb.freeze.setWidth 32
  | 0xF2100004 => quotaReg (quotasNext s) 0
  | 0xF2100008 => quotaReg (quotasNext s) 1
  | 0xF210000C => quotaReg (quotasNext s) 2
  | 0xF4000020 => s.tb.ptpCfg
  | 0xF4000024 => BitVec.ofInt 32 s.tb.asymA
  | 0xF4000028 => BitVec.ofInt 32 s.tb.asymB
  | 0xF410000C => s.grp.latent.setWidth 32
  | 0xF3200004 => b2w (nthD s.eth.ports 2 {}).enable
  | 0xF5300004 => s.upd.lehrMin.setWidth 32
  | a => if 0xF1000000 ≤ a ∧ a < 0xF1300000 ∧ a % 0x10000 = 0x1C then b2w (s.fab.tile (tileAt a)).dbgEn else 0

/-- The quotas with those of a register replaced. -/
def withQuota (l : List Nat) (i : Nat) (v : Reg32) : List Nat :=
  setNth (setNth l (2 * i) (v.extractLsb' 0 11).toNat) (2 * i + 1) (v.extractLsb' 16 11).toNat

/-- A class C field set that the trusted kernel or the runtime may write; other addresses keep their state (R8, R414). -/
def fieldSet (s : State) (addr : Nat) (v : Reg32) : State :=
  match addr with
  | 0xF000020C => { s with glb := { s.glb with auto := v.extractLsb' 0 2 } }
  | 0xF0200000 => pgvView { s with pgv := { s.pgv with limit := v.extractLsb' 16 9 } }
  | 0xF030001C => { s with rst := { s.rst with wdogMs := v.extractLsb' 16 16 } }
  | 0xF0400020 => { s with cyc := { s.cyc with seek := bit v 0 } }
  | 0xF2000000 => { s with arb := { s.arb with holdMax := v.extractLsb' 0 7 } }
  | 0xF2100004 => { s with txe := { s.txe with quotaNext := some (withQuota (quotasNext s) 0 v) } }
  | 0xF2100008 => { s with txe := { s.txe with quotaNext := some (withQuota (quotasNext s) 1 v) } }
  | 0xF210000C => { s with txe := { s.txe with quotaNext := some (withQuota (quotasNext s) 2 v) } }
  | 0xF4000020 =>
    let pa := (v.extractLsb' 0 2 : BitVec 2) != s.tb.ptpCfg.extractLsb' 0 2
    let pb := (v.extractLsb' 4 2 : BitVec 2) != s.tb.ptpCfg.extractLsb' 4 2
    { s with tb := { s.tb with
      ptpCfg := v, a := { s.tb.a with restartDue := s.tb.a.restartDue || pa }, b := { s.tb.b with restartDue := s.tb.b.restartDue || pb } } }
  | 0xF4000024 => { s with tb := { s.tb with asymA := v.toInt } }
  | 0xF4000028 => { s with tb := { s.tb with asymB := v.toInt } }
  | 0xF5300004 => { s with upd := { s.upd with lehrMin := v.extractLsb' 0 16 } }
  | _ => s

/-- The registers with class C fields that a REG_WRITE, a store or a SETTINGS record sets (R82, R414). -/
def cFieldRegs : List Nat :=
  [0xF000020C, 0xF0200000, 0xF030001C, 0xF0400020, 0xF2000000, 0xF2100004, 0xF2100008, 0xF210000C, 0xF4000020, 0xF4000024, 0xF4000028,
    0xF5300004]

/-- The masks of the class C fields of a register that has several; of another one all its class C bits (R245, R322). -/
def cFieldMasks (addr : Nat) : List Reg32 :=
  if addr = 0xF2100004 ∨ addr = 0xF2100008 ∨ addr = 0xF210000C then [0x7FF0000, 0x7FF]
  else if addr = 0xF4000020 then [0xFF000000, 0xFF0000, 0xFF00, 0x30, 0x3]
  else [cMask addr]

/-- The class C fields that a mask reaches, whole: a field once written counts as written in all its bits (R8, R82). -/
def wholeFields (addr : Nat) (mask : Reg32) : Reg32 :=
  ((cFieldMasks addr).filter (fun m => m &&& mask != 0)).foldl (· ||| ·) 0

/-- A class C field's bits replaced under a mask, in the machine only. -/
def fieldPut (s : State) (addr : Nat) (mask value : Reg32) : State := fieldSet s addr ((fieldGet s addr &&& ~~~mask) ||| (value &&& mask))

/-! ## REG_WRITE (R413) -/

/-- The status a written value gives: OK, or the refusal of its field's own rule (R224, R243, R246, R413, R446, R464). -/
def fieldCheck (s : State) (addr : Nat) (v : Reg32) : Status :=
  let ok (b : Bool) : Status := if b then .ok else .refusedPolicy
  match addr with
  | 0xF0200000 =>
    let l := (v.extractLsb' 16 9 : BitVec 9).toNat
    if !within l 160 480 then .refusedPolicy else if l < reservation s.ci.act then .refusedPower else .ok
  | 0xF0300000 => ok (within (v.extractLsb' 8 4 : BitVec 4).toNat 0 8)
  | 0xF030001C => ok (within (v.extractLsb' 16 16 : BitVec 16).toNat 100 60000)
  | 0xF13F0010 => ok (within (v.extractLsb' 0 6 : BitVec 6).toNat 0 47)
  | 0xF2000000 => ok (within (v.extractLsb' 0 7 : BitVec 7).toNat 4 64)
  | 0xF2000004 => ok (s.glb.state == .stop || s.glb.state == .boot)
  | 0xF2100004 => ok (decide ((withQuota (quotasNext s) 0 v).sum ≤ 1024))
  | 0xF2100008 => ok (decide ((withQuota (quotasNext s) 1 v).sum ≤ 1024))
  | 0xF210000C => ok (decide ((withQuota (quotasNext s) 2 v).sum ≤ 1024))
  | 0xF4000020 => ok ((v.extractLsb' 0 2 : BitVec 2) != 3 && (v.extractLsb' 4 2 : BitVec 2) != 3)
  | 0xF4000024 => ok (decide (v.toInt.natAbs ≤ 10000))
  | 0xF4000028 => ok (decide (v.toInt.natAbs ≤ 10000))
  | 0xF410000C => .refusedPolicy
  | 0xF3200004 => if bit v 0 && !maintPower s then .refusedPower else .ok
  | 0xF5300004 => ok (within (v.extractLsb' 0 16 : BitVec 16).toNat 10 10080)
  | _ => .ok

/-- Banks frozen and released: a frozen bank that nothing holds is idle; a bank newly frozen writes the NOTICE record of the freeze with the banks
in force (R243, R245; assumption 62). -/
def freezeBanks (s : State) (v : BitVec 16) : State :=
  let s1 := { s with arb := { s.arb with freeze := v, idle := v &&& ~~~holdBanks s s.txe.tags } }
  if v &&& ~~~s.arb.freeze = 0 then s1 else record s1 .notice srcPima (cChange 9) v.toNat

/-- A checked value of a session in force: the resets of RST_CTRL and FAB_RESET_CTRL begin, a debug or freeze bit stands, MAINT is enabled or
disabled, a class C field also has its Cullet value written; the RUNTIME reset follows the answer (R116, R243, R269, R414, R451). -/
def fieldEffect (s : State) (h : BitVec 16) (addr : Nat) (mask v : Reg32) : State :=
  match addr with
  | 0xF3200004 => if bit v 0 then maintOn s h else maintOff s
  | 0xF0300000 =>
    let s1 := { s with rst := { s.rst with ctrlUnit := v.extractLsb' 8 4 } }
    let s2 := if bit v 2 then portReset s1 s1.rst.ctrlUnit.toNat .command else s1
    if bit v 0 then moduleReset s2 else s2
  | 0xF13F0010 =>
    let s1 := { s with fab := { s.fab with resetTile := v.extractLsb' 0 6 } }
    if bit v 9 then fabricReset s1 false
    else if bit v 8 then tileResetCmd s1 (Fin.ofNat 48 (v.extractLsb' 0 6 : BitVec 6).toNat) else s1
  | 0xF2000004 => freezeBanks s (v.extractLsb' 0 16)
  | a =>
    if cFieldRegs.contains a then cfieldWrite (fieldSet s a v) (BitVec.ofNat 32 a) (wholeFields a mask) v
    else if 0xF1000000 ≤ a ∧ a < 0xF1300000 then modTile s (tileAt a) (fun t => { t with dbgEn := bit v 0 })
    else s

/-- The INFO record of a REG_WRITE: address, value, TOKEN_ID (R414, R471). -/
def regRecord (s : State) (h : BitVec 16) (addr : Nat) (v : Reg32) : State :=
  record s .info srcTkmb (cChange 9) addr (beBytes 4 v.toNat ++ beBytes 8 (tokenOf s h).toNat)

/-- REG_WRITE of an address under a mask, which reaches TK fields only (R413). -/
def regWrite (s : State) (h : BitVec 16) (addr : Nat) (mask value : Reg32) : CallRes :=
  let m := mask &&& tkMask addr
  let v := (fieldGet s addr &&& ~~~m) ||| (value &&& m)
  if tkMask addr = 0 then (s, .refusedPolicy, [])
  else match fieldCheck s addr v with
    | .ok => (fieldEffect (regRecord s h addr v) h addr m v, .ok, [])
    | st => (s, st, [])

/-- A REG_WRITE call; a RUNTIME reset that it commands begins once it is answered (R411, R413, R451). -/
def regCall (s : State) (c : CallReq) (addr : Nat) (mask value : Reg32) : State :=
  let runs := !s.rst.clusterHeld && !(nthD s.tk.slots c.slot {}).busy && decide (Role.engineer.rank ≤ (roleOf s c.session).rank)
  let v := mask &&& value
  let s1 := callOn s c 0x60 .engineer (fun s => regWrite s c.session addr mask value)
  let unitOk := !bit mask 8 && !bit mask 9 && !bit mask 10 && !bit mask 11 || decide ((v.extractLsb' 8 4 : BitVec 4).toNat ≤ 8)
  if runs && addr == 0xF0300000 && bit v 1 && unitOk then runtimeReset s1 .command else s1

end Sys2Proof.Machine
end

