-- ==== Sys2Proof/Machine/TxeEvents.lean ====
section
/-! DEFINITION. Machine/TxeEvents.lean: the TXE's own events and the runtime's signal writes, atomic operations and copies
(10_transactions_and_image_bus). -/

namespace Sys2Proof.Machine

/-! ## Submissions of ring 1 (R227, R336) -/

/-- Whether this member is a STANDBY or an ARBITER (R336). -/
def passive (s : State) : Bool := inGroup s && (s.grp.role == .standby || s.grp.role == .arbiter)

/-- Whether a SID's writer is a cyclic task of ENGINE 2 (R174). -/
def engine2Writer (s : State) (r : SigRec) : Bool :=
  decide (r.writer.toNat < 0x20) && (match taskRec s.ci.act r.writer.toNat with
    | some t => t.engine == 2
    | none => false)

/-- Whether the runtime has a semaphore request outstanding (R237). -/
def semAsked (s : State) : Bool := s.txe.tags.any (fun t => match t.req with
  | .gwSem .. => true
  | .glSem .. => true
  | _ => false)

/-- An atomic operation that begins its hold: of banks neither frozen nor under quarantine, with its entries reserved and no semaphore
request outstanding (R237, R241 to R243). -/
def beginHold (s : State) (tag : BitVec 18) (r : TagReq) : State :=
  match r with
  | .atomic sid .. => (match sigRec s.ci.act sid with
    | some x => if !sigFrozen s x && !sigQuar s x && !semAsked s && txeRoom s [stgNow s x 0 qGood false .txe] then
        modTag s tag (fun t => { t with hold := true }) else s
    | none => s)
  | _ => s

/-- A signal write or atomic operation submitted: with a tag of class DMA where the protection map lets the runtime write the SID,
else refused with a WARNING record (R73, R220, R227). -/
def submitSig (s : State) (q : SubReq) (sid : Sid) (ok : Bool) (r : TagReq) : State :=
  let x := nthD s.txe.rings 1 {}
  if ok then
    submit s 1 q.req q.wait .runtime .dma (fun s =>
      let a := allocTag s .runtime .dma r (some (1, q.req)) false (some (ttcIn s 1000000))
      beginHold a.1 a.2 r)
  else if !x.enable || x.sqHead == x.sqTail then s
  else refuseEntry (refuseWriter s sid) 1 q.req TUnit.runtime.num .refusedPolicy sid

/-- SIG_WRITE: of a SID of WRITER 0x50, on a STANDBY or ARBITER of none of them; an ENGINE 2 task's instance writes its own SIDs
so (R174, R227, R336). -/
def execSigWrite (q : SubReq) (sid : Sid) (v : Word) (s : State) : Host.Outcome State Fault Refusal :=
  .next (let ok := match sigRec s.ci.act sid with
      | some r => (r.writer == 0x50 && !passive s) || engine2Writer s r
      | none => false
    submitSig s q sid ok (.sigWrite sid v))

/-- SIG_ATOMIC: of a SID of WRITER 0x50 (R227, R336). -/
def execSigAtomic (q : SubReq) (sid : Sid) (fn : AtomFn) (operand compare : Word) (s : State) : Host.Outcome State Fault Refusal :=
  .next (let ok := match sigRec s.ci.act sid with
      | some r => r.writer == 0x50 && !passive s
      | none => false
    submitSig s q sid ok (.atomic sid fn operand compare))

/-- DMA_COPY of bytes of a published version to DRAM (R227), a DMA power stream: without the power for it an entry with WAIT set stays at
the head of its ring under one interim DEFERRED, and one with WAIT clear completes REFUSED_POWER (R447). -/
def execDmaCopy (q : SubReq) (ver : Mcc) (addr : Word) (count : Nat) (s : State) : Host.Outcome State Fault Refusal :=
  .next (
  let r := nthD s.txe.rings 1 {}
  if r.enable && r.sqHead != r.sqTail && !dmaStarts s then
    (if !q.wait then refuseEntry s 1 q.req TUnit.runtime.num .refusedPower
     else if r.interim then s
     else complete (noteDeferred (modRing s 1 (fun r => { r with interim := true }))) 1
       { tag := Config.noTag q.req, st := .deferred, unit := TUnit.runtime.num, interim := true, req := q.req })
  else submit s 1 q.req q.wait .runtime .dma (fun s =>
    (allocTag s .runtime .dma (.dma ver addr count) (some (1, q.req)) false (some (ttcIn s 1000000))).1))

/-! ## Completion (R226) -/

/-- A write's staging entry: for an ENGINE 2 task's SID that of the instance in which it was issued, none when that one's period has ended
(R174, R208). -/
def writeEnt (s : State) (r : SigRec) (v : Word) (issued : Mcc) : Option StgEnt :=
  let e := stgNow s r v qGood false .txe
  if engine2Writer s r then
    (s.glb.inst.find? (fun i => i.task == r.writer.toNat && atOrBefore i.rel issued)).map (fun i =>
      { e with target := i.fin, inst := some (i.task, i.rel) })
  else some e

/-- What SIG_ATOMIC acts on: the newest staged value, else the value in P_latest (R227). -/
def atomicOld (s : State) (sid : Sid) : Word :=
  match (s.pim.staging.filter (fun e => e.sid == sid)).getLast? with
  | some e => e.val
  | none => match latest s.pim sid with
    | some v => v.val
    | none => 0

/-- The value SIG_ATOMIC stores; none when a compare-and-swap does not match (R227). -/
def atomicNew (ty : BitVec 4) (fn : AtomFn) (old operand compare : Word) : Option Word :=
  match fn with
  | .cas => if rawOf ty old = rawOf ty compare then some operand else none
  | .addSat => some (
      if ty = 0 then b2w (isTrue old || isTrue operand)
      else match tyClass ty with
        | .float => (fltRes 0x03 ty old operand 0 (fadd (tyFmt ty) (fbits ty old) (fbits ty operand))).1
        | _ => (satRes ty (opnd ty old + opnd ty operand)).1)
  | .or => some (old ||| operand)
  | .and => some (old &&& operand)

/-- What a signal access meets at its banks: a frozen one refuses it, a quarantine of the TXE port makes it wait; a hold in progress runs on
(R240 to R243). -/
def atBanks (s : State) (t : TagEnt) (r : SigRec) (k : State) : State :=
  if t.hold then k
  else if sigFrozen s r then finishTag s t .refusedFrozen 0 r.sid
  else if sigQuar s r then s
  else k

/-- A staging write of a tag: waiting while the TXE's share is full, else staged and complete; a hold has its entries reserved (R209, R211,
R226, R241). `again` marks a tag counted as DEFERRED. -/
def stageTag (s : State) (t : TagEnt) (r : SigRec) (e : StgEnt) : State :=
  atBanks s t r (
  if t.hold || txeRoom s [e] then finishTag (noteWait (if e.inst.isSome then addStaging s [e] else acceptWrite s e) false (sigWords r)) t .ok e.target r.sid (tySize r.t)
  else if t.again then s
  else
    let s1 := modTag s t.tag (fun t => { t with again := true })
    noteDeferred { (pmuCount s1 10 0x286 1) with pim := { s1.pim with defer := satInc s1.pim.defer } })

/-- The bytes of a published version from PIM address 0 on; a lane with an uncorrectable error reads zero (R214, R245). -/
def pubBytes (x : Published) (count : Nat) : List Byte :=
  (List.range count).map (fun a => if x.eccWords.contains (a / 8) then 0 else pubByte x a)

/-- Whether a reception that holds its tag goes on now: none of its port is ahead of it, and it can arrive or a frozen bank refuses it (R226,
R242, R243). -/
def goesOn (s : State) (t : TagEnt) (x : RxWait) : Bool :=
  !rxAhead (s.txe.tags.takeWhile (fun y => y.tag != t.tag)) x.port && (rxFrozen s x || canArrive s x)

/-- A write in flight that the protection map in force at its completion refuses: a WARNING record and REFUSED_POLICY (R73). -/
def refuseTag (s : State) (t : TagEnt) (sid : Sid) : State := finishTag (refuseWriter s sid) t .refusedPolicy 0 sid

/-- A tagged transaction done: its result enters staging, memory or nothing, and its completion is reported (R73, R226, R227, R297). A
version that the ring of published images does not hold has nothing to copy. -/
def completeTag (s : State) (t : TagEnt) : State :=
  match t.req with
  | .sigWrite sid v =>
    (match sigRec s.ci.act sid with
    | none => finishTag s t .refusedPolicy 0 sid
    | some r => if r.writer ≠ 0x50 ∧ engine2Writer s r = false then refuseTag s t sid else match writeEnt s r v t.issueMcc with
      | none => finishTag s t .timeout 0 sid
      | some e => stageTag s t r e)
  | .atomic sid fn a b =>
    (match sigRec s.ci.act sid with
    | none => finishTag s t .refusedPolicy 0 sid
    | some r =>
      if r.writer ≠ 0x50 then refuseTag s t sid
      else if semAsked s then finishTag s t .refusedPolicy 0 sid
      else match atomicNew r.t fn (atomicOld s sid) a b with
        | none => atBanks s t r (finishTag s t .ok 0 sid)
        | some v => stageTag s t r (stgNow s r v qGood false .txe))
  | .dma ver addr count =>
    if (List.range (ceilDiv count 32)).any (fun w => bit s.arb.freeze (Config.bankOf w).val) then finishTag s t .refusedFrozen
    else if (List.range (ceilDiv count 32)).any (fun w => bit s.arb.quar (Config.bankOf w).val) then s
    else match s.pim.ring.find? (fun x => x.ver == ver) with
      | some x => finishTag (dramWrite (noteWait (pimMeet s x.eccWords (List.range (ceilDiv count 32))) false (List.range (ceilDiv count 32))) addr (pubBytes x count)) t .ok (len := count)
      | none => finishTag s t .refusedPolicy
  | .mvbRead port addr len _ =>
    let l := match mvbPortOf s.ci.act port with
      | some (f, true) => (mvbCur s.mvb.bufs port).getD (List.replicate (mvbSize f) 0)
      | some (f, false) => (mvbCur s.mvb.rxBufs port).getD (List.replicate (mvbSize f) 0)
      | none => []
    finishTag (dramWrite s addr (l.take len)) t .ok (len := min len l.length)
  | .mvbWrite _ data _ => finishTag s t .ok (len := data.length)
  | .gwSem .. => finishTag s t .ok
  | .gwSemRel _ => finishTag s t .ok
  | .reception x => if goesOn s t x then takeRx s t x else s
  | .mdSend _ len => finishTag s t .ok (len := len)
  | _ => s

/-- Whether a request writes a signal. -/
def TagReq.writesSig : TagReq → Bool
  | .sigWrite .. => true
  | .atomic .. => true
  | _ => false

/-- Whether an older write of the same issuer, unit and class has yet to take effect (R226). -/
def olderWrite (s : State) (t : TagEnt) : Bool :=
  t.req.writesSig && (s.txe.tags.takeWhile (fun x => x.tag != t.tag)).any (fun x => x.req.writesSig && x.unit == t.unit && x.cls == t.cls)

/-- TRANSACTION_COMPLETE of a tag that does not wait for a reissue (R226). Tags that an answer of their own completes are not
completed so, a paused DMA stream does not go on (R449), and signal writes take effect in the order of their issue (R226). -/
def execTransactionComplete (tag : BitVec 18) (s : State) : Host.Outcome State Fault Refusal :=
  .next (match tagOf s tag with
    | none => s
    | some t =>
      if (t.again && !t.req.writesSig) || dmaPaused s t || olderWrite s t then s else completeTag s t)

/-- TAG_TIMEOUT: at the tag's time its transaction completes TIMEOUT; a raw CAN frame leaves its queue (R224, R226). -/
def execTagTimeout (tag : BitVec 18) (s : State) : Host.Outcome State Fault Refusal :=
  .next (match tagOf s tag with
    | none => s
    | some t => match t.due with
      | none => s
      | some d =>
        let drop (c : Can) : Can := { c with pend := c.pend.filter (fun p => p.src != .raw tag) }
        let s1 := passTo s d
        finishTag { s1 with can0 := drop s1.can0, can1 := drop s1.can1 } t .timeout)

/-- RETRY_REISSUE: after its backoff a request answered RETRY is issued again (R298, R329). -/
def execRetryReissue (tag : BitVec 18) (s : State) : Host.Outcome State Fault Refusal :=
  .next (match tagOf s tag with
    | none => s
    | some t =>
      if !t.again then s
      else
        let t1 := { t with again := false }
        let s1 := modTag s tag (fun _ => t1)
        match t.unit with
        | .peerL => issueGl s1 .left t1
        | .peerR => issueGl s1 .right t1
        | .mvb => issueBus s1 t1
        | .can0 => issueBus s1 t1
        | .can1 => issueBus s1 t1
        | .gw => issueBus s1 t1
        | _ => s)

/-- POSTED_WRITE_FAILURE of a posted tag: REMOTE_ERROR, TIMEOUT or UNIT_RESET (R234). -/
def execPostedWriteFailure (tag : BitVec 18) (st : Status) (s : State) : Host.Outcome State Fault Refusal :=
  .next (match tagOf s tag with
    | none => s
    | some t => if t.posted && (st == .remoteError || st == .timeout || st == .unitReset) then finishTag s t st else s)

/-! ## Waiting (R211, R225) -/

/-- RECEIVE_BUFFER_DEQUEUE: the oldest frame of a port's receive buffer takes a free tag (R225). -/
def execReceiveBufferDequeue (p : Port) (s : State) : Host.Outcome State Fault Refusal :=
  .next (match s.txe.rx.find? (fun x => x.port == p) with
    | none => s
    | some x =>
      if tagFree s x.cls then
        deliverRx { s with txe := { s.txe with rx := dropFirst (fun x => x.port == p) s.txe.rx } } x
      else s)

/-- The oldest waiting reception that goes on now. -/
def nextArrival (s : State) : Option (TagEnt × RxWait) :=
  s.txe.tags.findSome? (fun t => match t.req with
    | .reception x => if goesOn s t x then some (t, x) else none
    | _ => none)

/-- STAGING_ENTRY_FREE: the oldest DEFERRED reception whose entries fit arrives now and its tag completes, and with none the oldest DEFERRED
write; their target is that of the arrival (R55, R211). -/
def execStagingEntryFree (s : State) : Host.Outcome State Fault Refusal :=
  .next (match nextArrival s with
    | some (t, x) => takeRx s t x
    | none => match s.txe.tags.find? (fun t => t.again && t.cls == .dma) with
      | some t => completeTag s t
      | none => s)

/-! ## Holds (R242) -/

/-- HOLD_CUTOFF: the hold of an atomic operation on a bank is cut off: HOLD_VIOLATION, the bank latched and counted, the TXE port
quarantined there, a WARNING record naming bank and tag. -/
def execHoldCutoff (bank : Fin 16) (tag : BitVec 18) (s : State) : Host.Outcome State Fault Refusal :=
  .next (match tagOf s tag with
    | none => s
    | some t => match t.req with
      | .atomic sid .. =>
        let s1 := finishTag (pmuCount s 10 0x283 1) t .holdViolation 0 sid
        let s2 := { s1 with arb := { s1.arb with
          violBanks := setBit s1.arb.violBanks bank.val, violCnt := satInc s1.arb.violCnt, quar := setBit s1.arb.quar bank.val } }
        record s2 .warning srcPima (cFailed .holdViolation) tag.toNat (beBytes 4 bank.val)
      | _ => s)

/-- The waiting receptions that can arrive now, in the order of their tags. -/
def arriveAll (s : State) : State :=
  s.txe.tags.foldl (fun s t => match t.req with
    | .reception x => if goesOn s t x then takeRx s t x else s
    | _ => s) s

/-- QUARANTINE_END: 256 clocks after the cut-off; what waited for the bank goes on (R242). -/
def execQuarantineEnd (bank : Fin 16) (s : State) : Host.Outcome State Fault Refusal :=
  .next (arriveAll { s with arb := { s.arb with quar := clrBit s.arb.quar bank.val } })

end Sys2Proof.Machine
end

