-- ==== Sys2Proof/Machine/EthEvents.lean ====
section
/-! DEFINITION. Machine/EthEvents.lean: frames, links, gates, ARP, PRP and MD as events and submissions
(11_ethernet_ports_and_trdp). -/

namespace Sys2Proof.Machine

/-! ## Transmission (R162, R254, R256, R257, R310) -/

/-- The time stamp of a frame that leaves now, at the MDI (R310, R311). -/
def egressTtc (s : State) (b : Bool) : Word :=
  s.tb.ttc + (ptpOf s b).egress.setWidth 64 + BitVec.ofInt 64 (asymOf s b)

/-- A frame as it leaves: a PTP message takes its origin time stamp. -/
def stampOut (s : State) (b : Bool) (f : EthFrame) : EthFrame :=
  match f.pay with
  | .ptp (.sync id _) d l => { f with pay := .ptp (.sync id (egressTtc s b)) d l }
  | .ptp (.pdelayResp id t2 _) d l => { f with pay := .ptp (.pdelayResp id t2 (egressTtc s b)) d l }
  | _ => f

/-- The copy of a telegram that still waits on the other plane marked as counted, by its redundancy control trailer (R254, R273). -/
def countTwin (s : State) (b : Bool) (f : TxFrame) : State :=
  match f.frame.rct with
  | none => s
  | some (_, q) => modEth s (if b then 0 else 1) (fun p => { p with queues := p.queues.map (fun l => l.map (fun x =>
      if x.frame.rct.map (·.2) = some q then { x with counted := true } else x)) })

/-- What the module notes of a frame that leaves: the time of a delay request, the count of a publication, that an MD message has been sent
(R233, R273, R310). -/
def noteOut (s : State) (b : Bool) (f : TxFrame) : State :=
  match f.frame.pay, f.pub with
  | .ptp (.delayReq _) .., _ => modPtp s b (fun p => { p with req := some (egressTtc s b) })
  | .ptp (.pdelayReq _) .., _ => modPtp s b (fun p => { p with req := some (egressTtc s b) })
  | .pd .., some n => if f.counted then s else countTwin (modPub (pmuCount s 9 0x241 1) n (fun x => { x with cnt := x.cnt + 1 })) b f
  | .md .., _ => (match f.tag with
    | some t => modTag s t (fun t => { t with sent := true })
    | none => s)
  | _, _ => s

/-- FRAME_TRANSMIT on a port: the frame of the highest class that may start now leaves (R256, R257). -/
def execFrameTransmit (p : Fin 3) (s : State) : Host.Outcome State Fault Refusal :=
  .next (match nextFrame s p with
    | none => s
    | some (tc, f) =>
      let b := p == 1
      let s1 := modEth s p (fun x => { x with queues := modNth x.queues tc (List.drop 1), txCnt := x.txCnt + 1 })
      let s2 := noteOut s1 b f
      { s2 with out := .eth (EthNo.port p) (stampOut s b f.frame) :: s2.out })

/-- GATE_ENTRY of a port: the running entry ends and the next one's gates take effect; the last one stays until the boundary, and one that the
boundary cuts off has no successor in its cycle (R162). -/
def execGateEntry (p : Fin 3) (s : State) : Host.Outcome State Fault Refusal :=
  .next (let l := gateList s.ci.act p
    let n := (ethPort s p).gclCur + 1
    if n < l.length ∧ (ethPort s p).gclEndTtc ≠ s.cyc.timerTtc then
      let e := (ethPort s p).gclEndTtc
      let s1 := passTo s e
      modEth s1 p (fun x => { x with gclCur := n, gclEndTtc := entryEnd s1 l n e })
    else s)

/-! ## Links (R249, R271) -/

/-- LINK_UP with a speed: 1 for 100 Mbit/s, 2 for 1000; MAINT runs at 1000 only. Transmission begins at the next boundary; a
gratuitous ARP waits for it (R248, R249, R252, R310). -/
def execLinkUp (p : Fin 3) (speed : BitVec 2) (s : State) : Host.Outcome State Fault Refusal :=
  .next (let x := ethPort s p
    let m := (portCfg s.ci.act p).mode
    let fits := if p = 2 then speed == 2 else (speed == 1 && m != 1) || (speed == 2 && m != 2)
    if x.up || !x.enable || portHeld s (EthNo.port p) || !fits then s
    else
      let s1 := rxClk (modEth s p (fun x => { x with up := true, speed, txOk := false })) p.val true
      if p = 2 then s1
      else
        let s2 := modPtp s1 (p == 1) (fun q => { q with
          egress := if speed = 2 then 216 else 344, ingress := if speed = 2 then 344 else 504 })
        if drives s2 then sendArp s2 p (portCfg s.ci.act p).ip (.arpRequest (portCfg s.ci.act p).ip) 0xFFFFFFFFFFFF else s2)

/-- A link that goes down: no reset of the port; counted; on a plane held copies of the other plane are accepted, the plane's PTP instance
restarts, WARNING, and ERROR when both planes are down (R249, R263, R271, R321). -/
def ethDown (s : State) (p : EthNo) : State :=
  if !(ethPort s p).up then s
  else
    let s1 := rxClk (modEth s p (fun x => { x with up := false, speed := 0, txOk := false, downCnt := satInc x.downCnt })) p.val false
    let s2 := record s1 .warning (EthNo.port p).src (cFault 0) p.val
    if p = 2 then s2
    else
      let b := p == 1
      let s3 := ptpRestart (modPtp s2 b (fun q => { q with egress := 0, ingress := 0 })) b
      let s4 := releasePlane s3 !b
      if (ethPort s4 0).up || (ethPort s4 1).up then s4 else record s4 .error (EthNo.port p).src (cFault 0) p.val

/-- LINK_DOWN (R249, R271). -/
def execLinkDown (p : Fin 3) (s : State) : Host.Outcome State Fault Refusal := .next (ethDown s p)

/-! ## Reception (R253) -/

/-- A frame dropped by R248 or R253. -/
def filtered (s : State) (i : EthNo) : State := modEth s i (fun p => { p with filtered := satInc p.filtered })

/-- A frame into the host receive ring: the buffer that the next entry names takes it, the entry its length, PCP and status; without a
free entry it is lost (R268). -/
def hostReceive (s : State) (i : EthNo) (pcp : Nat) (raw : List Byte) : State :=
  let r := (ethPort s i).hqRx
  if !r.enable || !r.room then s
  else
    let e := r.base + BitVec.ofNat 64 (32 * (r.cqTail.toNat % 2 ^ r.size.toNat))
    let buf := BitVec.ofNat 64 (s.dram.readLE e.toNat 8)
    let s1 := dramWrite (dramWrite s buf raw) (e + 8) (leBytes 2 raw.length ++ [BitVec.ofNat 8 pcp, Status.ok.code])
    modEth s1 i (fun p => { p with hqRx := { p.hqRx with cqTail := p.hqRx.cqTail + 1 } })

/-- A chain update ComID (R266, R270). -/
def chainComId (n : Nat) : Bool := decide (31000 ≤ n) && decide (n ≤ 31099)

/-- A message for the update engine: the chain rows carry what it says (R266, R269). -/
def toChain (s : State) (f : EthFrame) : State := { s with out := .chain f :: s.out }

/-- Whether a subscription of a ComID is a safe one: its frames bypass duplicate discard (R253). -/
def safeSub (g : ConfImage) (comId : Nat) : Bool :=
  (subsOf g comId).any (fun i => match subCfg g i with
    | some c => c.sdt
    | none => false)

/-- PTP messages and safe telegrams bypass duplicate discard (R253). -/
def bypasses (g : ConfImage) (f : EthFrame) : Bool :=
  match f.pay with
  | .ptp .. => true
  | .pd h _ _ => safeSub g h.comId
  | _ => false

/-- Duplicate discard: the first copy of a sequence number passes, the second does not; a full table passes without it (R255). The
second component says whether the frame goes on. -/
def prpStage (s : State) (i : EthNo) (f : EthFrame) : State × Bool :=
  match f.rct with
  | none => (s, true)
  | some (lanB, q) =>
    let s1 := if lanB = (i == 1) then s else { s with eth := { s.eth with wrongLan := satInc s.eth.wrongLan } }
    if bypasses s.ci.act f then (s1, true)
    else match s1.eth.nodes.find? (fun x => x.mac == f.src) with
      | some n =>
        let put (l : List (BitVec 16)) : List PrpNode :=
          s1.eth.nodes.map (fun x => if x.mac = f.src then { x with seqs := l, last := s.tb.ttc } else x)
        if n.seqs.contains q then
          ({ (pmuCount s1 9 0x244 1) with eth := { s1.eth with
              dups := satInc s1.eth.dups
              nodes := put (n.seqs.filter (· != q)) } }, false)
        else ({ s1 with eth := { s1.eth with nodes := put ((q :: n.seqs).take 32768) } }, true)
      | none =>
        if s1.eth.nodes.length < 512 then ({ s1 with eth := { s1.eth with nodes := s1.eth.nodes ++ [{ mac := f.src, seqs := [q], last := s.tb.ttc }] } }, true)
        else
          let s2 := { s1 with eth := { s1.eth with tableFull := satInc s1.eth.tableFull, tableFullNoted := true } }
          (if s1.eth.tableFullNoted then suppress s2 (EthNo.port i).src (cRefused .refusedCapacity)
           else record s2 .warning (EthNo.port i).src (cRefused .refusedCapacity) i.val, true)

/-- A PTP message that the time base ignores, counted (R307, R322). -/
def ptpDiscard (s : State) : State := { s with tb := { s.tb with discards := satInc s.tb.discards } }

/-- A PTP message on a plane: of another domain or under the transport of another profile it is ignored; the delay mechanism is the profile's, and an
answer to another clock's request is none of this one's (R307, R308, R310, R319). -/
def ptpReceive (s : State) (b : Bool) (m : PtpMsg) (domain : Byte) (l2 : Bool) : State :=
  let now := ingressTtc s b
  if !ptpOn s b then s
  else if domain != ptpDomain s || l2 != (profileOf s b != 0) then ptpDiscard s
  else match m with
    | .announce d ls la => takeAnnounce s b d ls la
    | .sync id t1 => takeSync s b id t1
    | .delayResp id t4 => if asProfile s b then ptpDiscard s else if id = clockId s then takeDelay s b t4 else s
    | .pdelayResp id t2 t3 => if !asProfile s b then ptpDiscard s else if id = clockId s then takePeerDelay s b t2 t3 else s
    | .delayReq id => if (ptpOf s b).asGm && !asProfile s b then sendPtp s b (.delayResp id now) else s
    | .pdelayReq id => if asProfile s b then sendPtp s b (.pdelayResp id now 0) else ptpDiscard s
    | .other => ptpDiscard s

/-- An ARP request or answer for the port's IPv4; one for another address passes to stage 7, which drops it (R252, R253). -/
def arpReceive (s : State) (i : EthNo) (f : EthFrame) : State :=
  let own := (portCfg s.ci.act i).ip
  match f.pay with
  | .arpRequest a =>
    if a != own then filtered s i
    else
      let s1 := learnArp s f.srcIp f.src
      if a != f.srcIp && drives s then sendArp s1 i f.srcIp (.arpReply a (macOf s i)) f.src else s1
  | .arpReply a m => if f.dstIp == own then learnArp s a m else filtered s i
  | _ => s

/-- The stages after PRP, of an accepted frame on a plane (R253). -/
def planeStages (s : State) (i : EthNo) (f : EthFrame) (raw : List Byte) : State :=
  let b := i == 1
  match f.pay with
  | .ptp m d l => ptpReceive s b m d l
  | .arpRequest _ => arpReceive s i f
  | .arpReply .. => arpReceive s i f
  | .prpSupervision => { s with eth := { s.eth with supervision := s.eth.supervision + 1 } }
  | .unsupported => filtered s i
  | .pd h data tr =>
    if !accepts s i f.dstIp then filtered s i
    else match h.mtype with
      | .pr => (match pullPub s.ci.act h.comId with
        | some x => if h.fcsOk && h.verOk then pullReply s x h else filtered s i
        | none => filtered s i)
      | .pd => pdTake s i f.srcIp h data tr
      | .pp => pdTake s i f.srcIp h data tr
      | _ => filtered s i
  | .md h data _ off =>
    if !accepts s i f.dstIp || h.mtype == .pe || !h.fcsOk || !h.verOk then filtered s i
    else if chainComId h.comId then toChain s f
    else if !drives s then s
    else match mdReasm s f.srcIp h data off with
      | (s1, some l) => mdDeliver s1 f.srcIp h l (ingressTtc s b)
      | (s1, none) => s1
  | .host _ => if accepts s i f.dstIp then hostReceive s i f.pcp raw else filtered s i

/-- Traffic from the ACTIVE seen by a member that does not drive: its own group address as source (R331). -/
def seeActive (s : State) (i : EthNo) (f : EthFrame) : State :=
  if inGroup s && !drives s && f.src == macOf s i then { s with grp := { s.grp with observed := setBit s.grp.observed i.val } } else s

/-- FRAME_RECEIVE on a port; `raw` is the frame as the host would see it, `fcsOk` the check of FCS and length (R253, R269). -/
def execFrameReceive (p : Fin 3) (f : EthFrame) (raw : List Byte) (fcsOk : Bool) (s : State) : Host.Outcome State Fault Refusal :=
  .next (let x := ethPort s p
    if !x.up || !x.enable || portHeld s (EthNo.port p) then s
    else if !fcsOk || decide (f.bytes < 64) || decide (1522 < f.bytes) then modEth s p (fun x => { x with fcs := satInc x.fcs })
    else if p = 2 then
      let s1 := modEth s p (fun x => { x with rxCnt := x.rxCnt + 1 })
      match f.pay with
      | .md h _ _ _ => if chainComId h.comId then toChain s1 f else hostReceive s1 p f.pcp raw
      | .unsupported => filtered s1 p
      | _ => hostReceive s1 p f.pcp raw
    else if !(match f.vid with
        | none => true
        | some v => v == 0 || v == (portCfg s.ci.act p).vlan) then filtered s p
    else
      let s1 := seeActive (modEth s p (fun x => { x with rxCnt := x.rxCnt + 1 })) p f
      match prpStage s1 p f with
      | (s2, true) => planeStages s2 p f raw
      | (s2, false) => s2)

/-! ## Timers -/

/-- SDT_SKEW_TIMEOUT of a subscription (R263). -/
def execSdtSkewTimeout (sub : Nat) (s : State) : Host.Outcome State Fault Refusal :=
  .next (match (subOf s sub).held with
    | some h => sdtRelease (passTo s h.due) sub
    | none => s)

/-- PRP_SUPERVISION, 2 s after the last: supervision frames on both planes, in a group by the ACTIVE (R254). -/
def execPrpSupervision (s : State) : Host.Outcome State Fault Refusal :=
  .next (let s0 := passTo s (s.eth.supAt + 2000000000)
    let s1 := { s0 with eth := { s0.eth with supAt := s0.tb.ttc } }
    if mayTransmit s1 then
      let c := portCfg s1.ci.act 0
      sendPlanes s1 true true c.pcp { ownFrame s1 0 0 0x01154E000100 c.pcp 14 .prpSupervision with bytes := 64 }
    else s1)

/-- PRP_ENTRY_AGE: an entry forgotten 400 ms after its last frame (R255). -/
def execPrpEntryAge (mac : Mac) (s : State) : Host.Outcome State Fault Refusal :=
  .next (match s.eth.nodes.find? (fun x => x.mac == mac) with
    | none => s
    | some n =>
      let s1 := passTo s (n.last + 400000000)
      { s1 with eth := { s1.eth with nodes := s1.eth.nodes.filter (fun x => x.mac != mac) } })

/-- The forget time of a subscription in ns: 4 × FRESH_MS of its first signal, at least 4 × T_base, 1 s where that FRESH_MS is 0 (R260). -/
def forgetNs (s : State) (sub : Nat) : Nat :=
  match subCfg s.ci.act sub with
  | none => 1000000000
  | some c => match sigRec s.ci.act c.first with
    | some r => if r.freshMs = 0 then 1000000000 else max (4 * r.freshMs * 1000000) (4 * tbaseNs s)
    | none => 1000000000

/-- PD_COUNTER_FORGET of a sender on a subscription, the forget time after its last accepted telegram (R260). -/
def execPdCounterForget (sub : Nat) (src : Ip4) (s : State) : Host.Outcome State Fault Refusal :=
  .next (match (subOf s sub).senders.find? (fun y => y.src == src) with
    | none => s
    | some c => modSub (passTo s (c.last + BitVec.ofNat 64 (forgetNs s sub))) sub (fun x => { x with
        senders := x.senders.filter (fun y => y.src != src) }))

/-- ARP_REFRESH, 60 s after the last: requests for every entry and every unresolved destination (R252). -/
def execArpRefresh (s : State) : Host.Outcome State Fault Refusal :=
  .next (let s0 := passTo s (s.eth.arpAt + 60000000000)
    let s1 := { s0 with eth := { s0.eth with arpAt := s0.tb.ttc } }
    (s1.eth.arp.map (·.1) ++ s1.eth.unresolved).foldl askArp s1)

/-- MD_REASSEMBLY_TIMEOUT: abandoned 2 s after it began (R266). -/
def execMdReassemblyTimeout (src : Ip4) (id : BitVec 128) (s : State) : Host.Outcome State Fault Refusal :=
  .next (match s.eth.reasm.find? (fun x => x.src == src && x.session == id) with
    | none => s
    | some r =>
      let s1 := passTo s (r.since + 2000000000)
      { s1 with eth := { s1.eth with reasm := s1.eth.reasm.filter (fun x => !(x.src == src && x.session == id)) } })

/-! ## Host queues (R268) -/

/-- HOST_FRAME_SUBMIT: the entry at the head of a transmit ring, its buffer, length and PCP: the frame waits in its class, with its VLAN tag and its FCS at
most 1,522 bytes (R248, assumption 208); on the planes of a STANDBY or ARBITER it is not sent and counted (R268). -/
def execHostFrameSubmit (p : Fin 3) (addr : Word) (len pcp : Nat) (s : State) : Host.Outcome State Fault Refusal :=
  .next (let r := (ethPort s p).hqTx
    if !r.enable || r.sqHead == r.sqTail then s
    else
      let e := r.base + BitVec.ofNat 64 (32 * (r.sqHead.toNat % 2 ^ r.size.toNat))
      let s1 := modEth s p (fun x => { x with hqTx := { x.hqTx with sqHead := x.hqTx.sqHead + 1 } })
      let done (s : State) (st : Status) : State := dramWrite s (e + 11) [st.code]
      if p ≠ 2 ∧ inGroup s = true ∧ s.grp.role ≠ .active then
        done (modEth s1 p (fun x => { x with nonActive := satInc x.nonActive })) .refusedPolicy
      else if 1522 < len + 8 then done s1 .refusedCapacity
      else
        let data := s.dram.readList addr.toNat len
        let f : EthFrame := { src := BitVec.ofNat 48 (leNat ((data.drop 6).take 6).reverse), dstMac := BitVec.ofNat 48 (leNat (data.take 6).reverse)
                              vid := some (portCfg s.ci.act p).vlan, pcp := pcp % 8, bytes := len + 8, pay := .host data }
        done (enqueue s1 p (pcp % 8) { frame := f }) .ok)

/-! ## MD submissions (R266, R267) -/

/-- A submission of ring 0 for an MD session: refused for an unknown session, for a buffer not aligned to 64 bytes (assumption 209), with 256 exchanges in flight, and on a STANDBY or
ARBITER when it is not a RECEIVE; else a tag of class MD for the session's TIMEOUT_MS, none for a RECEIVE (R224, R266). -/
def mdSubmit (s : State) (q : SubReq) (ses : Nat) (addr : Word) (len : Nat) (recv : Bool) (r : TagReq) (run : State → BitVec 18 → State) : State :=
  match mdSession s.ci.act ses with
  | none => submitRefused s 0 q.req TUnit.ethA.num .refusedPolicy
  | some (_, _, mx, t) =>
    if addr.toNat % 64 ≠ 0 then submitRefused s 0 q.req TUnit.ethA.num .refusedPolicy
    else if !recv && passive s then submitRefused s 0 q.req TUnit.ethA.num .refusedPolicy
    else if recv = false ∧ (256 ≤ mdInFlight s ∨ mx < len) then submitRefused s 0 q.req TUnit.ethA.num .refusedCapacity
    else submit s 0 q.req q.wait .ethA .md (fun s =>
      let a := allocTag s .ethA .md r (some (0, q.req)) false (if recv then none else some (ttcIn s (t * 1000000)))
      run (modTag a.1 a.2 (fun t => { t with sent := recv })) a.2)

/-- The ComID of a session. -/
def mdComId (s : State) (ses : Nat) : Nat := match mdSession s.ci.act ses with
  | some (c, _) => c
  | none => 0

/-- The session identifier of a message buffer's descriptor (R267). -/
def descId (s : State) (addr : Word) : BitVec 128 := BitVec.ofNat 128 (leNat (s.dram.readList addr.toNat 16).reverse)

/-- A message of a buffer sent with the TRDP header of its kind. -/
def mdFromBuf (s : State) (t : TrdpType) (comId : Nat) (id : BitVec 128) (dst : Ip4) (addr : Word) (len : Nat) (tag : BitVec 18) : State :=
  mdSendMsg s dst { ownHdr s t comId 0 len with session := id, replyIp := (portCfg s.ci.act 0).ip }
    (s.dram.readList (addr.toNat + 32) len) tag

/-- MD_RECEIVE: a buffer posted for a session (R267). -/
def execMdReceive (q : SubReq) (ses : Nat) (addr : Word) (len : Nat) (s : State) : Host.Outcome State Fault Refusal :=
  .next (mdSubmit s q ses addr 0 true (.mdReceive ses addr len) (fun s t =>
    { s with eth := { s.eth with bufs := s.eth.bufs ++ [⟨ses, addr, len, t⟩] } }))

/-- MD_NOTIFY: Mn to an address (R267). -/
def execMdNotify (q : SubReq) (ses : Nat) (addr : Word) (len : Nat) (dst : Ip4) (s : State) : Host.Outcome State Fault Refusal :=
  .next (mdSubmit s q ses addr len false (.mdSend ses len) (fun s t => mdFromBuf s .mn (mdComId s ses) (descId s addr) dst addr len t))

/-- MD_REQUEST: Mr to an address, with the replies expected, 0 until TIMEOUT_MS (R267). -/
def execMdRequest (q : SubReq) (ses : Nat) (addr : Word) (len : Nat) (dst : Ip4) (expected : Nat) (s : State) :
    Host.Outcome State Fault Refusal :=
  .next (mdSubmit s q ses addr len false (.mdRequest ses expected 0 (descId s addr) len) (fun s t =>
    mdFromBuf s .mr (mdComId s ses) (descId s addr) dst addr len t))

/-- A message sent under a reply token, which it uses up; an unknown one is refused (R267). -/
def mdAnswer (s : State) (q : SubReq) (ses : Nat) (addr : Word) (len : Nat) (token : Reg32) (ty : TrdpType) : State :=
  match s.eth.tokens.find? (fun x => x.token == token && x.session == ses) with
  | none => submitRefused s 0 q.req TUnit.ethA.num .refusedPolicy
  | some k => mdSubmit s q ses addr len false (.mdSend ses len) (fun s t =>
      mdFromBuf { s with eth := { s.eth with tokens := s.eth.tokens.filter (fun x => x.token != token) } } ty k.comId k.id k.peer addr len t)

/-- MD_REPLY (R267). -/
def execMdReply (q : SubReq) (ses : Nat) (addr : Word) (len : Nat) (token : Reg32) (s : State) : Host.Outcome State Fault Refusal :=
  .next (mdAnswer s q ses addr len token .mp)
/-- MD_REPLY_CONFIRM (R267). -/
def execMdReplyConfirm (q : SubReq) (ses : Nat) (addr : Word) (len : Nat) (token : Reg32) (s : State) : Host.Outcome State Fault Refusal :=
  .next (mdAnswer s q ses addr len token .mq)
/-- MD_CONFIRM (R267). -/
def execMdConfirm (q : SubReq) (ses : Nat) (addr : Word) (len : Nat) (token : Reg32) (s : State) : Host.Outcome State Fault Refusal :=
  .next (mdAnswer s q ses addr len token .mc)

end Sys2Proof.Machine
end

