-- ==== Sys2Proof/Machine/SupplyEvents.lean ====
section
/-! DEFINITION. Machine/SupplyEvents.lean: supplies, pins, clocks, temperature, the power governor and the watchdog as events
(02_connectors_supplies_environment, 03_clock_domains, 18_power_resets_retention). -/

namespace Sys2Proof.Machine

/-! ## Power-up (R29, R33, R41, R436, R437) -/

/-- A trial failure of a type counted: the previous boot left its boot-pending mark and did not end cleanly (R437); the third reverts
when the trusted kernel runs (R439). -/
def countFail (e : BootEnt) : BootEnt := { e with fails := e.fails + 1 }

/-- Whether the previous boot of type i counts as a trial failure: mark left without a clean end, or a fail-silence whose cause was liveness,
flow, token or island request (R437). -/
def trialFailed (s : State) (i : Nat) : Bool :=
  let e := nthD s.cul.boot i {}
  let c := s.safe.canaryLatch
  e.state == 1 &&
  ((bit s.cul.cur.bootPending i && !s.cul.cur.cleanEnd) || (s.safe.canaryNew && (c == 1 || c == 2 || c == 3 || c == 8)))

/-- The boot ROM's part of a boot: the next SEQ found, the trial failures of the previous boot judged and the TK's counted, every type in TRIAL
marked as boot pending, CLEAN_END used (R436, R437, R458, R465). -/
def bootRom (s : State) : State :=
  let s0 := storeRebuild s
  let due := (List.range 5).filter (trialFailed s0)
  let marks := (List.range 5).foldl (fun m i => if (nthD s0.cul.boot i {}).state = 1 then setBit m i else m) (0 : BitVec 5)
  let s1 := writeCounters { s0 with upd := { s0.upd with failDue := due.filter (· != 0) } }
    (fun c => { c with bootPending := marks, cleanEnd := false })
  if due.contains 0 then record (writeBoot s1 (modNth s1.cul.boot 0 countFail)) .error srcUpd (cFault 0) 1 else s1

/-- POWER_UP_THRESHOLD: 24V_IN rises through the power-up threshold; qualification starts or starts again. In DORMANT only an accepted WAKE
lets it start (R33, R39, R40). -/
def execPowerUpThreshold (s : State) : Host.Outcome State Fault Refusal :=
  .next (
  let dormant := s.glb.state == .dormant && !s.pin.cutOff
  let go := !s.pin.powerGood && (!dormant || s.pin.wakeAccepted)
  { s with pin := { s.pin with supplyHigh := true, qualifying := s.pin.qualifying || go } })

/-- POWER_GOOD: qualification ends with every rail in tolerance. The Canary has tested its switch and enables; a failure holds the module in
reset with FAULT lit. Else the power-on reset is released: boot, straps latched, LED test, the hold-up store charging (R29, R33, R391, R451, R458).
The oscillators and PLLs show good from this moment: R63 gives OSC_OK and PLL_LOCK the reset value 0 and no time at which they turn 1 (DESIGN
CHOICE, assumption 158). -/
def execPowerGood (canaryOk : Bool) (s : State) : Host.Outcome State Fault Refusal :=
  .next (if s.pin.powerGood || !s.pin.qualifying then s
  else if !canaryOk then { s with safe := { s.safe with faultLed := true } }
  else
    let s1 := bootState s (if s.glb.state = .dormant ∧ s.pin.cutOff = false then 3 else 0)
    bootRom { s1 with
      cul := { s1.cul with pwrCycles := s1.cul.pwrCycles + 1 }
      clk := { s1.clk with ok := 0x3FFF }
      pin := { s1.pin with store := 0, charged := false } })

/-- LED_TEST_PHASE_END: every LED for 0.5 s, then ROLE green, yellow and blue for 0.17 s each, then the states of R28 (R29). -/
def execLedTestPhaseEnd (s : State) : Host.Outcome State Fault Refusal :=
  .next (if s.pin.ledPhase = 0 then s else { s with pin := { s.pin with ledPhase := (s.pin.ledPhase + 1) % 5 } })

/-! ## Power failure (R35 to R38) -/

/-- The power-fail warning: the module runs from the hold-up store, flushes the recorder, and writes a retention point, the counters record
with CLEAN_END and the last known time, and LEHR_LEFT (R35, R306, R425, R458, R461). -/
def powerFail (s : State) (overVoltage : Bool) (since : Word) : State :=
  let s1 := writeLehr (writeCounters (retentionPoint s) (fun c => { c with cleanEnd := true }))
  { s1 with
    pin := { s1.pin with warn := some ⟨overVoltage, since⟩, supplyHigh := overVoltage }
    evr := { s1.evr with flushing := true } }

/-- POWER_FAIL_WARNING: 24V_IN has stayed below the warning threshold for 200 µs (R35). -/
def execPowerFailWarning (s : State) : Host.Outcome State Fault Refusal :=
  .next (if s.pin.powerGood && s.pin.warn.isNone then powerFail s false (s.tb.ttc - 200000)
    else { s with pin := { s.pin with supplyHigh := false, qualifying := false } })

/-- OVER_VOLTAGE_LOCKOUT: the input disconnected and the warning asserted at once (R35). Where an undervoltage warning already stands the module
runs from the store with its flush begun, and the lockout changes nothing: the warning keeps its kind and its start (DESIGN CHOICE,
assumption 159). -/
def execOverVoltageLockout (s : State) : Host.Outcome State Fault Refusal :=
  .next (if s.pin.powerGood && s.pin.warn.isNone then powerFail s true s.tb.ttc else s)

/-- WARNING_CLEAR: the input has stayed in its release range for 1 ms; a NOTICE record gives the interruption in µs (R36, R458). -/
def execWarningClear (s : State) : Host.Outcome State Fault Refusal :=
  .next (match s.pin.warn with
    | none => s
    | some w =>
      let us := (s.tb.ttc - w.since).toNat / 1000 - 1000
      let s1 := writeCounters { s with pin := { s.pin with warn := none, supplyHigh := true } } (fun c => { c with cleanEnd := false })
      record s1 .notice srcPgv (cCleared 0) 0 (beBytes 4 us))

/-- HOLD_UP_CUTOFF: the hold-up store is empty before the input returns; fail-silence, and the rails collapse: a full power-on follows, and
a MODULE reset recognised before it has nothing left to take effect on (R37, assumption 182). -/
def execHoldUpCutoff (s : State) : Host.Outcome State Fault Refusal :=
  .next (if s.pin.powerGood && s.pin.warn.isSome then
    let s1 := failSilence s 0x07 true
    { s1 with pin := { s1.pin with cutOff := true, powerGood := false, warn := none, qualifying := false, store := 0, charged := false }
              tk := { s1.tk with running := false }, rst := { s1.rst with moduleDue := false } }
  else s)

/-- OVERVOLTAGE_SUSTAINED: more than 1 s between 30.0 V and the lockout (R38). -/
def execOvervoltageSustained (s : State) : Host.Outcome State Fault Refusal :=
  .next (if s.pin.powerGood then record s .warning srcPgv (cFault 0) s.pgv.voltMv.toNat else s)

/-! ## WAKE and VSTBY (R39, R40, R457) -/

/-- WAKE_ACCEPT: WAKE has stayed high for 10 ms in DORMANT; the power-up starts once 24V_IN is above the threshold (R40). -/
def execWakeAccept (s : State) : Host.Outcome State Fault Refusal :=
  .next (if s.glb.state = .dormant ∧ s.pin.powerGood = false ∧ s.pin.vstbyLow = false ∧ s.pin.cutOff = false then
    { s with pin := { s.pin with wakeAccepted := true, qualifying := s.pin.supplyHigh } } else s)

/-- WAKE_EXPIRY: 10 s without the input; the module stays DORMANT, without a record (R40). -/
def execWakeExpiry (s : State) : Host.Outcome State Fault Refusal :=
  .next (if s.pin.qualifying then s else { s with pin := { s.pin with wakeAccepted := false } })

/-- VSTBY_BELOW_MINIMUM: the wake detector stops (R39, R457). -/
def execVstbyBelowMinimum (s : State) : Host.Outcome State Fault Refusal :=
  .next { s with pin := { s.pin with vstbyLow := true, wakeAccepted := s.pin.wakeAccepted && s.pin.qualifying } }

/-- VSTBY_RETURN: the wake detector resumes (R457). -/
def execVstbyReturn (s : State) : Host.Outcome State Fault Refusal := .next { s with pin := { s.pin with vstbyLow := false } }

/-! ## Reset pin and module resets (R41, R391, R453) -/

/-- RST_N held low for at least 1 ms asks for a MODULE reset; ignored in DORMANT and after the cut-off (R39, R41, R462). -/
def execRstN (s : State) : Host.Outcome State Fault Refusal :=
  .next (moduleReset { s with pin := { s.pin with rstHeld := true } })

/-- RST_N_RELEASE: a reset held since power good ends (R41). -/
def execRstNRelease (s : State) : Host.Outcome State Fault Refusal := .next { s with pin := { s.pin with rstHeld := false } }

/-- MODULE_RESET_TAKE_EFFECT: after flush and retention point, or 10 ms after recognition; not after the cut-off and not in DORMANT, which only WAKE
leaves (R37, R39, R451, R453, R454). -/
def execModuleResetTakeEffect (s : State) : Host.Outcome State Fault Refusal :=
  .next (if s.rst.moduleDue && s.pin.powerGood && !s.pin.cutOff && s.glb.state != .dormant then
    let s1 := writeCounters s (fun c => { c with moduleCnt := satInc c.moduleCnt })
    let s2 := bootState s1 1
    bootRom { s2 with clk := { s2.clk with ok := 0x3FFF } }
  else s)

/-- CANARY_RESET: 1 s after fail-silence with CANARY_RESTART and the permission armed; for a thermal cause only below +85 °C; after a cut-off
the module goes through power-on instead; where the island still ran, a flush that has not ended and the retention point come first (R37, R391, R454,
R461). -/
def execCanaryReset (s : State) : Host.Outcome State Fault Refusal :=
  .next (if s.safe.failSilent && s.safe.armed && s.pin.powerGood && s.ci.act.safety.canaryRestart == 1 &&
      (s.safe.canaryLatch != 6 || decide (s.pgv.edgeC.toInt < 85)) then
    let s0 := passTo s (s.safe.silentAt + 1000000000)
    let s1 := bootState (if s0.safe.canaryCounted then retentionPoint (if s0.evr.flushing then flushDone s0 else s0) else s0) 2
    bootRom { s1 with clk := { s1.clk with ok := 0x3FFF } }
  else s)

/-! ## Temperature (R47, R450) -/

/-- THERMAL_LIMIT: fail-silence and SAFE_HALT with a CRITICAL record (R47). -/
def execThermalLimit (s : State) : Host.Outcome State Fault Refusal :=
  .next (if s.safe.failSilent || !s.pin.powerGood then s else failSilence (record s .critical srcCanary (cFault 6)) 0x06 true)

/-- A limit of R450 at a temperature: above its threshold, or not yet 2 K below it. -/
def thermOn (s : State) (t : Int) (thr : Int) (st : Nat) : Bool :=
  decide (thr < t) || (decide (s.pgv.thermStep.toNat ≤ st) && decide (thr - 2 < t))

/-- THERMAL_DERATE: the card edge at a temperature in °C; the lowest limit that applies, a NOTICE record at each change (R450, R463). -/
def execThermalDerate (t : BitVec 8) (s : State) : Host.Outcome State Fault Refusal :=
  .next (
  let x := t.toInt
  let st : Nat := if thermOn s x 80 0 then 0 else if thermOn s x 75 3 then 3 else if thermOn s x 70 5 then 5 else 7
  let s1 := { s with pgv := { s.pgv with edgeC := t, thermStep := BitVec.ofNat 3 st, derating := decide (st < 7) } }
  let s2 := if maxStep s1 < s1.pgv.granted.toNat then setStep s1 (maxStep s1) else s1
  if s.pgv.thermStep.toNat = st then s2 else record (pgvView s2) .notice srcPgv (cState st) t.toNat)

/-! ## Clocks (R60 to R63) -/

/-- The clocks whose monitors have fired within 1 ms, the primary cause first (R62). -/
def clocksNow (s : State) : List Nat :=
  match s.clk.first with
  | some (t, l) => if (s.tb.ttc - t).toNat < 1000000 then l else []
  | none => []

/-- The clock i noted as one whose monitor fired; the first within 1 ms begins anew (R62). -/
def clockNote (s : State) (i : Nat) : State :=
  let l := clocksNow s
  { s with clk := { s.clk with first := match l, s.clk.first with
      | _ :: _, some (t, _) => some (t, l ++ [i])
      | _, _ => some (s.tb.ttc, [i]) } }

/-- The record of a clock fault: one per clock within 1 ms, of which the first is the primary cause, marked 1 in the detail (R62). -/
def clockRec (s : State) (sev : Sev) (i : Nat) : State :=
  let l := clocksNow s
  if l.contains i then s else record (clockNote s i) sev srcClk (cFault i) i [if l.isEmpty then 1 else 0]

/-- A clock fault of the cluster or its DRAM: the record, the RUNTIME reset, in which the outstanding HOST and DMA requests complete UNIT_RESET, and
FAULT at 1 Hz until the cluster runs again (R61, R452). -/
def clusterFault (s : State) (i : Nat) : State :=
  let s1 := unitResetRings (clockRec s .error i)
  runtimeFault { s1 with rst := { s1.rst with faultLed1Hz := true } } .clockFault

/-- What a clock fault of position i of CLK_FAULT brings about (R61). The SI oscillator's record is the trusted kernel's at the next boot. -/
def clockReact (s : State) (i : Nat) : State :=
  match i with
  | 0 => failSilence (clockRec s .critical 0) 0x05 true
  | 1 => failSilence (if (clocksNow s).contains 1 then s else clockNote s 1) 0x05 false
  | 2 => failSilence (clockRec s .critical 2) 0x05 true
  | 3 => failSilence (clockRec s .critical 3) 0x05 true
  | 4 => failSilence (clockRec s .critical 4) 0x05 true
  | 5 => clusterFault s 5
  | 6 => clusterFault s 6
  | 7 => portReset (clockRec s .error 7) 0 .clockFault
  | 8 => portReset (clockRec s .error 8) 1 .clockFault
  | 9 => portReset (clockRec s .error 9) 2 .clockFault
  | 10 => portReset (clockRec s .error 10) 6 .clockFault
  | 11 => portReset (clockRec s .error 11) 7 .clockFault
  | 12 => portReset (clockRec s .error 12) 3 .clockFault
  | 13 => portReset (portReset (clockRec s .error 13) 4 .clockFault) 5 .clockFault
  | 14 => ethDown (clockRec s .warning 14) 0
  | 15 => ethDown (clockRec s .warning 15) 1
  | 16 => ethDown (clockRec s .warning 16) 2
  | 17 => if s.grp.brL.up then linkDown (clockRec s .warning 17) .left else clockRec s .warning 17
  | _ => if s.grp.brR.up then linkDown (clockRec s .warning 18) .right else clockRec s .warning 18

/-- CLOCK_FAULT of the clock at position i of CLK_STATUS; the PLL_AC monitor is masked during a step change (R61 to R63). -/
def execClockFault (i : Fin 19) (s : State) : Host.Outcome State Fault Refusal :=
  .next (if i = 5 ∧ s.clk.acMask = true then s
    else clockReact { s with clk := { s.clk with ok := clrBit s.clk.ok i.val, fault := setBit s.clk.fault i.val } } i.val)

/-! ## The power governor's window (R445, R448, R449) -/

/-- A window's measurement of one unit: its history, at most 64 windows, and the WARNING once per power cycle for more than declared
(R448). -/
def measureUnit (s : State) (u m : Nat) : State :=
  let x := nthD s.pgv.units u {}
  let w := if declared s u = 0 then [] else (m :: x.windows).take 64
  let above := decide (declared s u < m) && !x.warned
  let s1 := { s with pgv := { s.pgv with units := modNth s.pgv.units u (fun x => { x with windows := w, warned := x.warned || above }) } }
  if above then record s1 .warning srcPgv (cFault 0) u [BitVec.ofNat 8 m] else s1

/-- A change in the number of DMA streams begins their history anew (R448). -/
def noteStreams (s : State) : State :=
  let n := dmaRunning s
  let s1 := { s with pgv := { s.pgv with dmaPaused := min s.pgv.dmaPaused (dmaTags s).length } }
  if s.pgv.dmaStreams = n then s1 else freshUnit { s1 with pgv := { s1.pgv with dmaStreams := n } } 15

/-- The newest running DMA stream paused: its submission reports DEFERRED with INTERIM (R449). -/
def pauseDma (s : State) : State :=
  let s1 := { s with pgv := { s.pgv with dmaPaused := s.pgv.dmaPaused + 1 } }
  match ((dmaTags s).take (dmaRunning s)).getLast? with
  | some t => match t.ring with
    | some (n, _) => if t.drop then s1 else complete s1 n { complOf t .deferred 0 0 0 false with interim := true }
    | none => s1
  | none => s1

/-- The ports of SHED_ORDER that may be shed now: listed, powered, outside the reservation (R449). -/
def sheddable (s : State) : List Nat :=
  (s.ci.act.power.shedOrder.takeWhile (· != 0xFF)).filter (fun p => bit s.pgv.portPowered p && !reservedUnit s (p + 7))

/-- One shedding step: a CLK_AC step, the cluster's stall, a DMA stream, a port (R449). -/
def shedStep (s : State) : State :=
  if !s.pgv.stalled ∧ 0 < s.pgv.granted.toNat ∧ s.rst.clusterHeld = false then
    setStep { s with pgv := { s.pgv with acDown := satInc s.pgv.acDown } } (s.pgv.granted.toNat - 1)
  else if !s.pgv.stalled ∧ s.rst.clusterHeld = false then
    freshUnit (freshUnit { s with
      pgv := { s.pgv with stalled := true, acDown := satInc s.pgv.acDown }
      rst := { s.rst with wdogStall := if s.rst.wdogArmed then some s.tb.ttc else none } } 16) 17
  else if 0 < dmaRunning s then pauseDma s
  else match sheddable s with
    | p :: _ =>
      let s1 := { s with pgv := { s.pgv with
        portPowered := clrBit s.pgv.portPowered p, portRefused := setBit s.pgv.portRefused p, portSheds := satInc s.pgv.portSheds } }
      record (freshUnit (portReset s1 p .shedding) (p + 7)) .notice srcPgv (cFault ResetSource.shedding.num) p
    | [] => s

/-- The restoring step that comes next, with the additional charge it needs and the windows the headroom must have stood: ports in reverse
order of shedding, DMA, the stall, a step (R449). -/
inductive Restore where
  | port (p : Nat) | dma | unstall | step
  deriving DecidableEq, Repr

/-- The port restored first: the last of SHED_ORDER held down, or any other port that waits for its start (R447, R449). -/
def waitingPort (s : State) : Option Nat :=
  match (s.ci.act.power.shedOrder.filter (fun p => bit s.pgv.portRefused p)).getLast? with
  | some p => some p
  | none => (List.range 8).find? (fun p => bit s.pgv.portRefused p)

/-- The next restoring step, if one is open. -/
def nextRestore (s : State) : Option (Restore × Nat × Nat) :=
  match waitingPort s with
  | some p => some (.port p, portCharge p, 10000)
  | none =>
    let g := s.pgv.granted.toNat
    if 0 < s.pgv.dmaPaused then some (.dma, 3, 1000)
    else if s.pgv.stalled then some (.unstall, (acCharge g - 4) + 40, 1000)
    else if g < min s.pgv.step.toNat (maxStep s) ∧ s.rst.clusterHeld = false then some (.step, acCharge (g + 1) - acCharge g, 1000)
    else none

/-- A restoring step done (R449): the watchdog's countdown goes on from where a stall suspended it (R452). -/
def restore (s : State) : Restore → State
  | .port p => powerPort { s with pgv := { s.pgv with portRefused := clrBit s.pgv.portRefused p } } p
  | .dma => { s with pgv := { s.pgv with dmaPaused := s.pgv.dmaPaused - 1 } }
  | .unstall => freshUnit (freshUnit { s with
      pgv := { s.pgv with stalled := false }
      rst := { s.rst with
        wdogEnd := match s.rst.wdogStall with
          | some t => s.rst.wdogEnd + (s.tb.ttc - t)
          | none => s.rst.wdogEnd
        wdogStall := none } } 16) 17
  | .step =>
    let g := s.pgv.granted.toNat + 1
    setStep { s with pgv := { s.pgv with acStatus := if g = s.pgv.step.toNat then Status.ok.code else s.pgv.acStatus } } g

/-- The governor's action of a window: one shedding step while the headroom is negative or the input has exceeded the cap in 4 windows in a
row, else the count of windows towards the next restoring step, and that step (R449). -/
def govern (s : State) : State :=
  if headroom s < 0 ∨ 4 ≤ s.pgv.overRun then shedStep { s with pgv := { s.pgv with stable := 0 } }
  else match nextRestore s with
    | none => { s with pgv := { s.pgv with stable := 0 } }
    | some (r, add, n) =>
      if headroom s < add + 8 then { s with pgv := { s.pgv with stable := 0 } }
      else if n ≤ s.pgv.stable + 1 then restore { s with pgv := { s.pgv with stable := 0 } } r
      else { s with pgv := { s.pgv with stable := s.pgv.stable + 1 } }

/-- A window's measurements and the governor's action: the input in tokens, its voltage and current, and each unit are measured, the charges
renewed, and one step taken (R445, R448, R449, R463). -/
def powerWindow (s : State) (input mv ma : Nat) (units : List Nat) : State :=
  let i := BitVec.ofNat 9 (min input 511)
  let s1 := { s with pgv := { s.pgv with
    input := i, peak := if s.pgv.peak < i then i else s.pgv.peak
    voltMv := BitVec.ofNat 16 (min mv 65535), currentMa := BitVec.ofNat 16 (min ma 65535)
    overRun := if capTokens s < input then s.pgv.overRun + 1 else 0 } }
  let s2 := noteStreams s1
  let s3 := ((List.range 18).zip units).foldl (fun s x => measureUnit s x.1 x.2) s2
  pgvView (govern s3)

/-! ## Watchdog (R452) -/

/-- The countdown of the armed watchdog restarted (R452). -/
def kick (s : State) : State :=
  if s.rst.wdogArmed then
    { s with rst := { s.rst with
        wdogEnd := ttcIn s (s.rst.wdogMs.toNat * 1000000), wdogStall := if s.pgv.stalled then some s.tb.ttc else none } } else s

/-- WATCHDOG_KICK: a write of RST_WDOG.KICK restarts the countdown; one made while the cores stand still waits (R58, R449, R452). -/
def execWatchdogKick (s : State) : Host.Outcome State Fault Refusal := .next (coreStall s .watchdogKick kick)

/-- WATCHDOG_EXPIRY: the armed watchdog runs out; a RUNTIME reset with an ERROR record. A stall suspends it (R452). -/
def execWatchdogExpiry (s : State) : Host.Outcome State Fault Refusal :=
  .next (if s.rst.wdogArmed && !s.pgv.stalled then
    let s1 := passTo s s.rst.wdogEnd
    runtimeFault (record s1 .error srcRst (cFault ResetSource.watchdog.num)) .watchdog else s)

/-! ## The Cullet's timed writes (R458, R461) -/

/-- Whether a RETAINED value differs from the newer generation (R461). -/
def retDiffers (s : State) : Bool := match s.cul.retained.newer with
  | some (_, g) => g.ents != (retGen s).ents || g.hash != (retGen s).hash
  | none => true

/-- RETENTION_POINT: the older retained generation written where a RETAINED value differs from the newer one (R461). -/
def execRetentionPoint (s : State) : Host.Outcome State Fault Refusal :=
  .next (if s.tk.running && retDiffers s then retentionPoint s else s)

/-- COUNTERS_RECORD_WRITE, every second of operation, which DORMANT is not: the counters record with the last known time, and PROBATION's
second (R10, R306, R349, R458). -/
def execCountersRecordWrite (s : State) : Host.Outcome State Fault Refusal :=
  .next (if s.tk.running && s.glb.state != .dormant then
    writeCounters { s with grp := { s.grp with probLeft := s.grp.probLeft - 1 } } id else s)

end Sys2Proof.Machine
end

