-- ==== Sys2Proof/Machine/UpdOps.lean ====
section
/-! DEFINITION. Machine/UpdOps.lean: slots, the boot-control record's events, activation, sessions, blocks and forwarding of the update
engine (17_field_update). -/

namespace Sys2Proof.Machine

/-! ## Slots and entries (R421, R424) -/

/-- The boot-control entry of a type. -/
def entOf (s : State) (t : ImgType) : BootEnt := nthD s.cul.boot t.idx {}

/-- Slot A or B of a type. -/
def updSlot (s : State) (t : ImgType) (b : Bool) : UpdSlot :=
  let p := nthD s.upd.slots t.idx ({}, {})
  if b then p.2 else p.1

/-- The active slot of a type. -/
def activeSlot (s : State) (t : ImgType) : UpdSlot := updSlot s t (entOf s t).slotB

/-- The inactive slot of a type, which receives downloads. -/
def otherSlot (s : State) (t : ImgType) : UpdSlot := updSlot s t (!(entOf s t).slotB)

/-- A slot changed. -/
def modUpdSlot (s : State) (t : ImgType) (b : Bool) (f : UpdSlot → UpdSlot) : State :=
  { s with upd := { s.upd with slots := modNth s.upd.slots t.idx (fun (x, y) => if b then (x, f y) else (f x, y)) } }

/-- The inactive slot changed. -/
def modOther (s : State) (t : ImgType) (f : UpdSlot → UpdSlot) : State := modUpdSlot s t (!(entOf s t).slotB) f

/-- The session that holds a type's inactive slot. -/
def updSession (s : State) (t : ImgType) : Option UpdSession := nthD s.upd.sessions t.idx none

/-- A type's session set or ended; HAVE and COUNT of the last one stay shown (R444). -/
def setSession (s : State) (t : ImgType) (x : Option UpdSession) : State :=
  { s with upd := { s.upd with sessions := setNth s.upd.sessions t.idx x } }

/-- UPD_PROG of a type (R444). -/
def setHave (s : State) (t : ImgType) (x : UpdSession) : State :=
  { s with upd := { s.upd with
      have_ := setNth s.upd.have_ t.idx (BitVec.ofNat 16 x.got.length, BitVec.ofNat 16 x.manifest.blockCount) } }

/-- The key class of a type's manifest and image (R421, R427). -/
def ImgType.keyClass (t : ImgType) : Byte := if t = .ci then 0x01 else 0x04

/-- A TYPE code of a type (R421). -/
def ImgType.code (t : ImgType) : Nat := t.idx + 1

/-- The engine's answer noted: LAST_STATUS and the counts of UPD_CNT0 (R444). -/
def updAnswer (s : State) (st : Status) : State :=
  { s with upd := { s.upd with
      lastStatus := st.code
      busyOther := if st = .busyOtherImage then satInc s.upd.busyOther else s.upd.busyOther
      floorCnt := if st = .versionFloor then satInc s.upd.floorCnt else s.upd.floorCnt } }

/-! ## Sessions of revoked keys (R407, R442) -/

/-- A session ended with its slot in a state, with a record of that state (R430, R442). -/
def endUpdSession (s : State) (t : ImgType) (st : SlotSt) (sev : Sev) : State :=
  record (modOther (setSession s t none) t (fun o => { o with
    st, manifest := if st = .empty then none else o.manifest, blocks := if st = .empty then [] else o.blocks }))
    sev srcUpd (cState st.num) t.code

/-- An open session whose manifest's key is no longer good (R407, R442). -/
def revokedSession (s : State) (t : ImgType) : Bool :=
  match updSession s t with
  | some x => !sigGood s t.keyClass x.manifest.sig
  | none => false

/-- Such a session ended: its slot INVALID, with a SECURITY record (R442). -/
def endIfRevoked (s : State) (t : ImgType) : State := if revokedSession s t then endUpdSession s t .invalid .security else s

/-- A new key store in force: the update sessions of revoked keys end with those of tokens (R405, R407, R442). -/
def newStore (s : State) (k : KeyStore) : State := [ImgType.tk, .ur, .tilefw, .portfw, .ci].foldl endIfRevoked (takeStore s k)

/-- Whether a message names a package whose session ended for its manifest's key: the slot is INVALID and no key verifies the manifest (R442). -/
def slotRevoked (s : State) (t : ImgType) (h : ChainHdr) : Bool :=
  match (otherSlot s t).manifest with
  | some m => (otherSlot s t).st == .invalid && m.version == h.version && m.targetHash == h.target && (keyFor s t.keyClass m.sig).isNone
  | none => false

/-! ## The events of the boot-control record (R425) -/

/-- The boot-control entry of a type changed and the record written, with the LEHR_LEFT of the types in TRIAL brought up to now. -/
def bootEntWrite (s : State) (t : ImgType) (f : BootEnt → BootEnt) : State :=
  let d := s.cul.optime.toNat - s.upd.lehrTick
  let b := s.cul.boot.map (fun e => if e.state = 1 then { e with lehrLeft := BitVec.ofNat 32 (e.lehrLeft.toNat - d) } else e)
  writeBoot { s with upd := { s.upd with lehrTick := s.cul.optime.toNat } } (modNth b t.idx f)

/-- An activation's record write: the inactive slot in TRIAL with a full Lehr, the slot before it PREVIOUS, the session ended, a NOTICE
record with the TOKEN_ID; a key store in a TK package is taken when its own checks allow (R405, R425, R430, R434, R438). -/
def activationWrite (s : State) (t : ImgType) (token : Word) : State :=
  let b := (entOf s t).slotB
  let img := (otherSlot s t).img
  let s1 := bootEntWrite s t (fun e => { e with
    slotB := !e.slotB, state := 1, fails := 0, lehrLeft := BitVec.ofNat 32 (600 * s.upd.lehrMin.toNat), version := img.version })
  let s2 := modUpdSlot (modUpdSlot s1 t b (fun x => { x with st := .previous })) t (!b) (fun x => { x with st := .active })
  let s3 := setSession { s2 with upd := { s2.upd with trialStart := setNth s2.upd.trialStart t.idx s2.cul.optime.toNat } } t none
  let s4 := match img.store with
    | some k => if t = .tk ∧ storeStatus s3 k = .ok then newStore s3 k else s3
    | none => s3
  record s4 .notice srcUpd (cChange 6) t.code (beBytes 8 token.toNat)

/-- A confirmation's record write: CONFIRMED, FLOOR raised to VERSION, the other slot PREVIOUS, a NOTICE record (R425, R438). -/
def confirmWrite (s : State) (t : ImgType) (token : Word) : State :=
  let s1 := bootEntWrite s t (fun e => { e with state := 0, floor := e.version, lehrLeft := 0 })
  let s2 := modOther s1 t (fun x => { x with st := if x.img.version = 0 ∧ x.st = .empty then .empty else .previous })
  record s2 .notice srcUpd (cChange 7) t.code (beBytes 8 token.toNat)

/-- A revert's record write: back to the other slot, CONFIRMED at the previous version with FLOOR unchanged, the trial slot INVALID, an ERROR
record (R439). -/
def revertWrite (s : State) (t : ImgType) (token : Word) : State :=
  let b := (entOf s t).slotB
  let v := (otherSlot s t).img.version
  let s1 := bootEntWrite s t (fun e => { e with slotB := !e.slotB, state := 0, version := v, lehrLeft := 0 })
  let s2 := modUpdSlot (modUpdSlot s1 t b (fun x => { x with st := .invalid })) t (!b) (fun x => { x with st := .active })
  record s2 .error srcUpd (cChange 8) t.code (beBytes 8 token.toNat)

/-! ## Chain messages (R428, R432) -/

/-- A member's entry for a type: the own one, and for a present peer what R441 says it reaches by the same inputs. -/
def memberEnts (s : State) (t : ImgType) (st : Status) : List MemberEnt :=
  let next : Nat := match updSession s t with
    | some x => ((List.range x.manifest.blockCount).find? (fun i => !x.got.contains i)).getD x.manifest.blockCount
    | none => 0
  let e (pos : Nat) (serial : Word) : MemberEnt := ⟨pos, st, (otherSlot s t).st.num, next, serial⟩
  if inGroup s then
    e (ownPos s) s.tk.fuses.serial :: ([GLink.left, .right].filterMap (fun l => (s.grp.peer l).hb.map (fun h => e (peerPos s l) h.serial)))
  else [e 0 s.tk.fuses.serial]

/-- The planes of a reply: both, or MAINT. -/
def srcPlanes : ChainSrc → Nat
  | .ecn _ => 3 | .maint _ => 4 | .runtime => 0

/-- Whether this member sends MD to a source: in a group only the ACTIVE on the planes (R266, R428). -/
def answers (s : State) : ChainSrc → Bool
  | .ecn _ => drives s
  | _ => true

/-- A reply to a source; the runtime's goes back with its call. -/
def chainReply (s : State) (src : ChainSrc) (m : ChainMsg) : State :=
  if src ≠ .runtime ∧ answers s src then { s with out := .chainOut src (srcPlanes src) m :: s.out } else s

/-- The neighbours of the active image with their planes (R76). -/
def neighbours (s : State) : List (Ip4 × Nat) :=
  s.ci.act.iomap.filterMap (fun r => match r with
    | .updNeighbour ip m => some (ip, m)
    | _ => none)

/-- A message to every neighbour; in a group only the ACTIVE forwards (R432). -/
def toNeighbours (s : State) (m : ChainMsg) : State :=
  if drives s then (neighbours s).foldl (fun s (ip, mask) => { s with out := .chainOut (.ecn ip) mask m :: s.out }) s else s

/-- The four segments of a block (R428). -/
def blockSegs (blk : Nat) (data : List Byte) : List SegEnt :=
  let crc := crc32c data
  [⟨blk, 0, crc, data.take 16384⟩, ⟨blk, 1, crc, (data.drop 16384).take 16384⟩, ⟨blk, 2, crc, (data.drop 32768).take 16384⟩,
    ⟨blk, 3, crc, data.drop 49152⟩]

/-- A header for a package of a manifest. -/
def hdrOf (m : Manifest) : ChainHdr := { typeCode := m.typeCode, version := m.version, target := m.targetHash }

/-- A checked block forwarded to every neighbour and counted; one that the module does not keep in a slot or package area (`kept`) goes into the
forward store of 64 blocks; after a package's last block a STATUS_REQ to each (R432, R444). -/
def forwardBlock (s : State) (m : Manifest) (blk : Nat) (data : List Byte) (kept : Bool) : State :=
  if !drives s || (neighbours s).isEmpty then s
  else
    let s1 := (blockSegs blk data).foldl (fun s e => toNeighbours s (.segment (hdrOf m) e)) s
    let s2 := { s1 with upd := { s1.upd with
      forwarded := s1.upd.forwarded + 1, fwd := if kept then s1.upd.fwd else ((m.targetHash, blk, data) :: s1.upd.fwd).take 64 } }
    if blk + 1 = m.blockCount then toNeighbours s2 (.statusReq (hdrOf m)) else s2

/-- The bytes of a block of a package: 65,536, the last may be shorter (R427). -/
def blockLen (m : Manifest) (blk : Nat) : Nat := min 65536 (m.pkgLen - 65536 * blk)

/-- The segments of one block put together, once all four are there with one check value that a block of its length matches (R428, R431). -/
def wholeBlock (l : List SegEnt) (m : Manifest) (blk : Nat) : Option (List Byte) :=
  let part (i : Nat) : Option SegEnt := l.find? (fun e => e.block == blk && e.seg == i)
  match part 0, part 1, part 2, part 3 with
  | some a, some b, some c, some d =>
    let data := a.data ++ b.data ++ c.data ++ d.data
    if data.length = blockLen m blk ∧ a.crc = crc32c data ∧ b.crc = a.crc ∧ c.crc = a.crc ∧ d.crc = a.crc then some data else none
  | _, _, _, _ => none

/-- Whether all four segments of a block are there. -/
def allSegs (l : List SegEnt) (blk : Nat) : Bool := (List.range 4).all (fun i => l.any (fun e => e.block == blk && e.seg == i))

/-! ## Manifests (R429, R430) -/

/-- A package is the same: identity and PKG_HASH (R430). -/
def samePkg (a b : Manifest) : Bool :=
  a.typeCode == b.typeCode && a.version == b.version && a.targetHash == b.targetHash && a.pkgHash == b.pkgHash

/-- The checks of R429 that come before forwarding: form, compatibility, signature. -/
def manifestForm (s : State) (h : ChainHdr) (m : Manifest) : Status :=
  if !h.formOk || !m.formOk || m.blockCount != ceilDiv m.pkgLen 65536 then .checkFailed
  else match imgTypeOf m.typeCode with
    | none => .incompatible
    | some t =>
      if m.part ≠ partName ∨ s.tk.tkVersion < m.minTk then .incompatible
      else if sigGood s t.keyClass m.sig then .ok else .signatureFailed

/-- Whether an activation of a type is in progress. -/
def activating (s : State) (t : ImgType) : Bool :=
  (match s.upd.act with
   | some a => a.ty == t
   | none => false) || s.upd.waiting.any (fun a => a.ty == t) || (t == .portfw && !s.upd.portSeq.isEmpty)

/-- The checks of R429 after those: the first status that applies, and whether a session opens or continues. -/
def manifestFits (s : State) (t : ImgType) (m : Manifest) : Status × Bool :=
  let e := entOf s t
  let act := (activeSlot s t).img
  let o := otherSlot s t
  if m.version < e.floor then (.versionFloor, false)
  else if m.delta && m.sourceHash != act.hash then (.notApplicable, false)
  else if e.state = 1 ∨ activating s t = true then (.refusedPolicy, false)
  else if (match updSession s t with
    | some x => !samePkg x.manifest m
    | none => false) then (.busyOtherImage, false)
  else if (act.version == m.version && act.hash == m.targetHash) ||
      ((o.st == .complete || o.st == .verifying || o.st == .verified) &&
        (match o.manifest with
         | some x => x.version == m.version && x.targetHash == m.targetHash
         | none => false)) then (.ok, false)
  else if t.size < m.targetLen ∨ t.size < m.pkgLen then (.refusedCapacity, false)
  else (.ok, true)

/-- The record of a refused manifest (R429, R432, R442): none for REFUSED_POLICY, an INFO record once per package for NOT_APPLICABLE. -/
def manifestRecord (s : State) (m : Manifest) (st : Status) : State :=
  match st with
  | .ok => s
  | .refusedPolicy => s
  | .signatureFailed => record s .security srcUpd (cRefused st) m.typeCode
  | .notApplicable =>
    if s.upd.notApplSeen.contains m.pkgHash then s
    else record { s with upd := { s.upd with notAppl := satInc s.upd.notAppl, notApplSeen := m.pkgHash :: s.upd.notApplSeen } }
      .info srcUpd (cRefused st) m.typeCode
  | _ => record s .warning srcUpd (cRefused st) m.typeCode

/-- A session opened, or continued with its NOTICE record when a reset lay between (R430, R440). -/
def openSession (s : State) (t : ImgType) (src : ChainSrc) (m : Manifest) : State :=
  match updSession s t with
  | some x =>
    let s1 := setSession s t (some { x with lastUse := s.cul.optime.toNat, resumed := false })
    if x.resumed then record s1 .notice srcUpd (cState SlotSt.partly.num) t.code else s1
  | none =>
    let x : UpdSession := { manifest := m, owner := src, lastUse := s.cul.optime.toNat }
    setHave (setSession (modOther s t (fun o => { o with st := .partly, manifest := some m, blocks := [] })) t (some x)) t x

/-- A MANIFEST taken: the status of R429, and the state after it (R429, R432). -/
def takeManifest (s : State) (src : ChainSrc) (h : ChainHdr) (m : Manifest) : State × Status :=
  let st0 := manifestForm s h m
  if st0 ≠ .ok then
    (updAnswer (manifestRecord s m st0) st0, st0)
  else match imgTypeOf m.typeCode with
    | none => (s, .incompatible)
    | some t =>
      let s1 := toNeighbours { s with upd := { s.upd with fwdPkgs := (m :: s.upd.fwdPkgs.filter (fun x => !samePkg x m)).take 64 } }
        (.manifest (hdrOf m) m)
      let r := manifestFits s1 t m
      let s2 := updAnswer (manifestRecord s1 m r.1) r.1
      (if r.2 then openSession s2 t src m else s2, r.1)

/-! ## Blocks (R431) -/

/-- A slot whose last block has come is COMPLETE, and its verification begins (R431, R433). -/
def blockWritten (s : State) (t : ImgType) (x : UpdSession) (blk : Nat) (data : List Byte) : State :=
  let got := x.got ++ [blk]
  let y := { x with got, segs := x.segs.filter (fun e => e.block != blk) }
  modOther (setHave (setSession s t (some y)) t y) t (fun o => { o with
    st := if got.length = x.manifest.blockCount then .verifying else o.st, blocks := (blk, data) :: o.blocks })

/-- A segment of the session's package: kept until its block is whole, then written when the check value matches, else the whole block
discarded (R430, R431). -/
def sessionSegment (s : State) (t : ImgType) (x : UpdSession) (e : SegEnt) : State :=
  let x1 := { x with lastUse := s.cul.optime.toNat, resumed := false }
  let s0 := if x.resumed then record s .notice srcUpd (cState SlotSt.partly.num) t.code else s
  if x.got.contains e.block || decide (x.manifest.blockCount ≤ e.block) || decide (4 ≤ e.seg) ||
      x.segs.any (fun y => y.block == e.block && y.seg == e.seg) then setSession s0 t (some x1)
  else
    let segs := x.segs ++ [e]
    if !allSegs segs e.block then setSession s0 t (some { x1 with segs })
    else match wholeBlock segs x.manifest e.block with
      | some data => forwardBlock (blockWritten s0 t { x1 with segs } e.block data) x.manifest e.block data true
      | none => setSession s0 t (some { x1 with segs := segs.filter (fun y => y.block != e.block) })

/-- The blocks of a package that this module holds: of its slots or package area, else of the forward store (R432). -/
def heldBlocks (s : State) (h : ChainHdr) : List (Nat × List Byte) :=
  let of_ (o : UpdSlot) : List (Nat × List Byte) := match o.manifest with
    | some m => if m.version = h.version ∧ m.targetHash = h.target then o.blocks else []
    | none => []
  let own : List (Nat × List Byte) := match imgTypeOf h.typeCode with
    | some t => of_ (otherSlot s t) ++ of_ (activeSlot s t)
    | none => []
  own ++ ((s.upd.fwd.filter (fun f => f.1 == h.target)).map (fun f => (f.2.1, f.2.2)))

/-- A segment or command of a session's package keeps the session alive (R430). -/
def touchSession (s : State) (t : ImgType) (h : ChainHdr) : State :=
  match updSession s t with
  | some x => if x.manifest.version = h.version ∧ x.manifest.targetHash = h.target
      then setSession s t (some { x with lastUse := s.cul.optime.toNat }) else s
  | none => s

/-- Whether this module holds a block of a package, in a slot, its package area or the forward store (R432). -/
def holdsBlock (s : State) (t : ImgType) (m : Manifest) (blk : Nat) : Bool :=
  let of_ (o : UpdSlot) : Bool := match o.manifest with
    | some x => samePkg x m && o.blocks.any (fun b => b.1 == blk)
    | none => false
  of_ (otherSlot s t) || of_ (activeSlot s t) || s.upd.fwd.any (fun f => f.1 == m.targetHash && f.2.1 == blk)

/-- A segment of a package that this module only forwards; a block that it holds is not put together again (R430, R432). -/
def passSegment (s : State) (t : ImgType) (h : ChainHdr) (e : SegEnt) : State :=
  match s.upd.fwdPkgs.find? (fun m => m.targetHash == h.target && m.version == h.version && m.typeCode == h.typeCode) with
  | none => s
  | some m =>
    if !drives s || (neighbours s).isEmpty || decide (m.blockCount ≤ e.block) || decide (4 ≤ e.seg) ||
        holdsBlock s t m e.block ||
        s.upd.fwdSegs.any (fun f => f.1 == h.target && f.2.block == e.block && f.2.seg == e.seg) then s
    else
      let all := s.upd.fwdSegs ++ [(h.target, e)]
      let own := (all.filter (fun f => f.1 == h.target)).map (·.2)
      if !allSegs own e.block then { s with upd := { s.upd with fwdSegs := all } }
      else
        let s1 := { s with upd := { s.upd with fwdSegs := all.filter (fun f => !(f.1 == h.target && f.2.block == e.block)) } }
        match wholeBlock own m e.block with
        | some data => forwardBlock s1 m e.block data false
        | none => s1

/-- A SEGMENT taken, under a tag of class MAINT (R224, R430 to R432, R442). -/
def takeSegment (s : State) (h : ChainHdr) (e : SegEnt) : State :=
  match (if h.formOk then imgTypeOf h.typeCode else none) with
  | none => s
  | some t =>
    let s := endIfRevoked (passTag s) t
    if slotRevoked s t h then updAnswer s .signatureFailed
    else match updSession s t with
      | some x => if x.manifest.version = h.version ∧ x.manifest.targetHash = h.target ∧ (otherSlot s t).st = .partly
          then sessionSegment s t x e else passSegment (touchSession s t h) t h e
      | none => passSegment s t h e

/-- The new ACTIVE asks every neighbour for the state of each package that it forwards and still holds blocks of (R442). -/
def askNeighbours (s : State) : State :=
  s.upd.fwdPkgs.foldl (fun s m => if (heldBlocks s (hdrOf m)).isEmpty then s else toNeighbours s (.statusReq (hdrOf m))) s

/-- The missing blocks of a STATUS_REPLY for the package a header names, and its number of blocks: the session's; none missing of a slot that
holds the package whole; no bitmap for a package the module does not take (R428). -/
def missingOf (s : State) (t : ImgType) (h : ChainHdr) : List Nat × Nat :=
  let fits (m : Manifest) : Bool := m.version == h.version && m.targetHash == h.target
  match updSession s t with
  | some x =>
    if fits x.manifest then ((List.range x.manifest.blockCount).filter (fun i => !x.got.contains i), x.manifest.blockCount) else ([], 0)
  | none => match (otherSlot s t).manifest with
    | some m => ([], if fits m && (otherSlot s t).st != .partly then m.blockCount else 0)
    | none => ([], 0)

/-! ## Activation (R434, R435) -/

/-- The role an activation of a type needs (R434). -/
def activateRole (s : State) (t : ImgType) : Role :=
  if t ≠ .ci then .maintainer
  else if (otherSlot s t).img.ci.safety ≠ s.ci.act.safety then .safetyEngineer else .engineer

/-- Whether a type may be activated in the present role and state (R91, R118, R435). -/
def typeAllowed (s : State) (t : ImgType) : Bool :=
  let st := s.glb.state
  let up := st == .stop || st == .run || st == .hold
  match t with
  | .ci => st == .run || st == .stop
  | .tilefw => !inGroup s || s.grp.role != .active
  | .tk => if inGroup s then s.grp.role != .active && up else up
  | _ => true

/-- Whether another activation runs. -/
def actBusy (s : State) : Bool := s.upd.act.isSome || !s.upd.portSeq.isEmpty

/-- The first status that refuses or defers an activation (R407, R434, R442); the role has been judged. -/
def activateStatus (s : State) (t : ImgType) : Status :=
  let o := otherSlot s t
  if o.st = .verifying then .deferred
  else if o.st ≠ .verified then .refusedPolicy
  else if o.img.version < (entOf s t).floor then .versionFloor
  else if (keyFor s t.keyClass o.img.sig).isNone then .signatureFailed
  else if !typeAllowed s t then .refusedPolicy
  else if actBusy s then .deferred
  else .ok

/-- An activation's final status: to the call's slot, or as a COMMAND_REPLY (R411, R428). -/
def finishAct (s : State) (a : Activation) (st : Status) : State :=
  let s1 := updAnswer s st
  let s2 := match a.slot with
    | some n => if (nthD s1.tk.slots n {}).busy then answer s1 n st [] else s1
    | none => s1
  match a.src with
  | some src => chainReply s2 src (.commandReply { a.hdr with status := st } (memberEnts s2 a.ty st))
  | none => s2

/-- Whether the active image has a port run (R76, R324, R447). -/
def portEnabled (s : State) (p : Port) : Bool := match p with
  | .glL => inGroup s
  | .glR => inGroup s
  | .mvb => s.ci.act.iomap.any (fun r => r.kind == 6)
  | .can0 => (canPortOf s.ci.act 0).isSome
  | .can1 => (canPortOf s.ci.act 1).isSome
  | .ecnA => (portCfg s.ci.act 0).enable
  | .ecnB => (portCfg s.ci.act 1).enable
  | .maint => (portCfg s.ci.act 2).enable

/-- The ports that the active image enables and that run, in the order of R435. -/
def enabledPorts (s : State) : List Port :=
  Port.all.filter (fun p => portEnabled s p && bit s.pgv.portPowered p.num && !portHeld s p)

/-- The new PORTFW taken: a port that had none starts with it, the others are reset one after the other (R435). -/
def resetPorts (s : State) : State :=
  let dead := Port.all.filter (fun p => portEnabled s p && bit s.rst.portNoFw p.num)
  let s1 := dead.foldl (fun s p => powerPort s p.num) { s with rst := { s.rst with portNoFw := 0 } }
  match enabledPorts s1 with
  | [] => s1
  | p :: ps => portReset { s1 with upd := { s1.upd with portSeq := p :: ps } } p.num .activation

/-- The record write of an activation or, once it is written, of nothing more. -/
def actWrite (s : State) (a : Activation) : State :=
  if a.written then s else if a.revert then revertWrite s a.ty a.tokenId else activationWrite s a.ty a.tokenId

/-- An accepted activation, or the taking of a slot that a revert names, begun: a CI loads its image into the shadow plane; UR and TK wait for
the next boundary; TILEFW and PORTFW begin at once (R87, R435, R439). -/
def beginAct (s : State) (a : Activation) : State :=
  match a.ty with
  | .ci =>
    let s1 := if a.revert && !a.written then revertWrite s .ci a.tokenId else s
    let g := if a.revert then (activeSlot s1 .ci).img.ci else (otherSlot s1 .ci).img.ci
    { s1 with
      upd := { s1.upd with act := some { a with written := a.revert } }
      ci := { s1.ci with shadow := .loading, offered := some g, swap := .idle, aborts := 0, loadStop := s.glb.state == .stop } }
  | .tilefw => fabricReset (finishAct (actWrite s a) a .ok) true
  | .portfw => resetPorts (finishAct (actWrite s a) a .ok)
  | _ => { s with upd := { s.upd with act := some a } }

/-- A UR or TK activation at a boundary: the record write, the answer, then the RUNTIME reset with the new runtime, or STOP (a group member
goes OUT) and a MODULE reset (R435, R451). -/
def actBoundary (s : State) : State :=
  match s.upd.act with
  | none => s
  | some a =>
    match a.ty with
    | .ur => runtimeReset (finishAct (actWrite { s with upd := { s.upd with act := none } } a) a .ok) .activation
    | .tk =>
      let s1 := if inGroup s then { s with grp := { s.grp with outDue := true } }
        else if s.glb.state = .stop then s else ownStop s .tkActivation
      moduleReset (finishAct (actWrite { s1 with upd := { s1.upd with act := none } } a) a .ok)
    | _ => s

/-- A refused activation's WARNING record: a version below the floor, and TK or TILEFW on the ACTIVE, at once or after it was deferred
(R118, R434, R442). -/
def refuseNote (s : State) (t : ImgType) (st : Status) : State :=
  if st = .versionFloor ∨ ((t = .tilefw ∨ t = .tk) ∧ inGroup s ∧ s.grp.role = .active) then record s .warning srcUpd (cRefused st) t.code else s

/-- The oldest activation that waits, taken up once nothing else runs (R434, R442). -/
def nextAct (s : State) : State :=
  match s.upd.waiting with
  | [] => s
  | a :: rest =>
    let s1 := { s with upd := { s.upd with waiting := rest } }
    if a.revert then (if actBusy s then s else beginAct s1 a)
    else match activateStatus s1 a.ty with
      | .deferred => s
      | .ok => beginAct s1 a
      | st => refuseNote (finishAct s1 a st) a.ty st

/-- The hash of the image that the shadow plane holds, is being loaded with or has refused (R87, R94). -/
def shadowHash (s : State) : Hash :=
  match s.ci.shadow, s.ci.offered with
  | .valid, _ => s.ci.shd.hdr.imageHash
  | _, some g => g.hdr.imageHash
  | _, none => s.ci.shd.hdr.imageHash

/-- An activation asked for: refused with its status and record, deferred, or begun; a CI offered again while it is being activated has no
effect, another one is refused BUSY_OTHER_IMAGE (R97, R434, R442). -/
def askAct (s : State) (a : Activation) : State × Status :=
  let same := shadowHash s == (otherSlot s .ci).img.ci.hdr.imageHash
  let running := match s.upd.act with
    | some x => x.ty == .ci && a.ty == .ci
    | none => false
  if running && same then (updAnswer s .ok, .ok)
  else if running then (record (updAnswer s .busyOtherImage) .warning srcGlb (cRefused .busyOtherImage) 5, .busyOtherImage)
  else match activateStatus s a.ty with
    | .ok =>
      let s1 := beginAct s a
      (s1, if (a.ty = .tilefw ∨ a.ty = .portfw) then .ok else .deferred)
    | .deferred => ({ s with upd := { s.upd with waiting := s.upd.waiting ++ [a] } }, .deferred)
    | st => (refuseNote (updAnswer s st) a.ty st, st)

/-! ## Confirmation, revert, abort (R438, R439, R442) -/

/-- CONFIRM: in TRIAL, after at least 10 min of operation in it (R438). -/
def confirmCmd (s : State) (t : ImgType) (token : Word) : State × Status :=
  let e := entOf s t
  if e.state = 1 ∧ nthD s.upd.trialStart t.idx 0 + 6000 ≤ s.cul.optime.toNat then (updAnswer (confirmWrite s t token) .ok, .ok)
  else (updAnswer s .refusedPolicy, .refusedPolicy)

/-- REVERT during TRIAL: the record write, then the previous image activated as its type is (R435, R439). -/
def revertCmd (s : State) (t : ImgType) (token : Word) : State × Status :=
  if (entOf s t).state ≠ 1 ∨ typeAllowed s t = false then (refuseNote (updAnswer s .refusedPolicy) t .refusedPolicy, .refusedPolicy)
  else
    let s1 := revertWrite s t token
    let a : Activation := { ty := t, tokenId := token, revert := true, written := true }
    (updAnswer (if actBusy s1 then { s1 with upd := { s1.upd with waiting := s1.upd.waiting ++ [a] } } else beginAct s1 a) .ok, .ok)

/-- ABORT, by the owning source or by the call: the session ends, the slot is EMPTY, a NOTICE record (R430, R442). -/
def abortCmd (s : State) (t : ImgType) (src : Option ChainSrc) : State × Status :=
  match updSession s t with
  | some x =>
    if src.isNone || src == some x.owner then (updAnswer (endUpdSession s t .empty .notice) .ok, .ok)
    else (updAnswer s .refusedPolicy, .refusedPolicy)
  | none => (updAnswer s .refusedPolicy, .refusedPolicy)

end Sys2Proof.Machine
end

