-- ==== Sys2Proof/Machine/SwapOps.lean ====
section
/-! DEFINITION. Machine/SwapOps.lean: the swap of the configuration planes at its boundary (04_configuration_image, R87 to R97). -/

namespace Sys2Proof.Machine

/-! ## What a class 3 swap resets (R90) -/

/-- The IOMAP records that differ between two images. -/
def changedIo (a b : ConfImage) : List IoRec :=
  a.iomap.filter (fun r => !b.iomap.contains r) ++ b.iomap.filter (fun r => !a.iomap.contains r)

/-- ECN-A and ECN-B as selected. -/
def planeUnits (a b : Bool) : List Nat := (if a then [0] else []) ++ (if b then [1] else [])

/-- The ports of a record that names an output group. -/
def groupUnits : IoRec → List Nat
  | .pdPub _ _ _ _ _ _ _ _ _ a b _ _ _ => planeUnits a b
  | .mvbPort .. => [3]
  | .canId p .. => [4 + p]
  | _ => []

/-- The ports that the list of R90 assigns to a changed record; an OUT_GROUP record those of every record of either image that names it. -/
def recUnits (a b : ConfImage) : IoRec → List Nat
  | .port id .. => [id]
  | .pdPub _ _ _ _ _ _ _ _ _ x y _ _ _ => planeUnits x y
  | .pdSub .. => [0, 1]
  | .mdSession .. => [0, 1]
  | .node .. => [0, 1]
  | .outGroup id _ => ((a.iomap ++ b.iomap).filter (fun r => outGroupOf r == some id)).flatMap groupUnits
  | .mvbRole .. => [3]
  | .mvbPort .. => [3]
  | .mvbMfl .. => [3]
  | .canPort p .. => [4 + p]
  | .canId p .. => [4 + p]
  | _ => []

/-- The units reset at a class 3 swap, each once: the ports of changed IOMAP records and gate lists, the gateway for a GWMAP change of
class 3, the links where the module changes between standalone and group. -/
def swapUnits (a b : ConfImage) : List Nat :=
  let io := (changedIo a b).flatMap (recUnits a b)
  let tsn := (List.range 8).filter (fun p => (a.tsn.filter (fun t => t.port == p)) != (b.tsn.filter (fun t => t.port == p)))
  let gw := if gwClass a b = 3 then [8] else []
  let gl := if a.group.group = b.group.group then [] else [6, 7]
  (List.range 9).filter (fun u => (io ++ tsn ++ gw ++ gl).contains u)

/-! ## Affected tasks of a class 2 swap (R90) -/

/-- Whether a signal moved or changed its VOTED or MIRRORED flag. -/
def movedSig (a b : ConfImage) (r : SigRec) : Bool :=
  match sigRec a r.sid with
  | some o => o.pimOffset != r.pimOffset || o.voted != r.voted || o.mirrored != r.mirrored
  | none => false

/-- The descriptors of a task of an image: of a cyclic task those of its tiles' main programs, of an event task those of its handlers. -/
def taskDescs (g : ConfImage) (task : Nat) : List WinDesc :=
  if task < 0x20 then (tilesOf g task).flatMap (fun i =>
    let p := nthD g.progs i {}
    fillDescs p ++ drainDescs p)
  else g.progs.flatMap (fun p => (p.handlers.filter (fun h => h.evtTask + 0x20 == task)).flatMap (fun h => handDescs p h false ++ handDescs p h true))

/-- Whether a task of an image writes a signal, moves its words in a window, or reads it as the safety function's task (R90). -/
def usesSig (g : ConfImage) (task : Nat) (r : SigRec) : Bool :=
  r.writer.toNat == task || (task == g.safety.funcTask && (funcReads g.safety).contains r.sid) || (taskDescs g task).any (fun d => inDesc d r.pimOffset (tySize r.t) || inDesc d (qualOff r) 1)

/-- The tasks that a tile's record names: TASK and the event tasks of SLACK_EVT (R70). -/
def recTasks (r : TileRec) : List Nat := r.task.toNat :: ((List.range 16).filter (fun e => bit r.slackEvt e)).map (· + 0x20)

/-- The tasks that a class 2 swap affects, cyclic and event tasks (R90). -/
def affectedTasks (a b : ConfImage) : List Nat :=
  let byTask := (List.range 0x30).filter (fun n => taskRec a n != taskRec b n)
  let byTile := (List.range 48).flatMap (fun i =>
    let x := nthD a.tiles i { tile := i }
    let y := nthD b.tiles i { tile := i }
    if tileClass x y = 2 then recTasks x ++ recTasks y else [])
  let xf := (a.xfers.filter (fun x => !b.xfers.contains x) ++ b.xfers.filter (fun x => !a.xfers.contains x)).map (·.task)
  let moved := b.sigs.filter (movedSig a b)
  let bySig := (b.tasks.map (·.id)).filter (fun n => moved.any (fun r => usesSig b n r || match sigRec a r.sid with
    | some o => usesSig a n o
    | none => false))
  (List.range 0x30).filter (fun n => byTask.contains n || byTile.contains n || xf.contains n || bySig.contains n)

/-- An instance of an affected task discarded at b without an overrun: nothing staged, no record, its tiles idle (R90, R141). -/
def discardInst (s : State) (i : Instance) : State :=
  let s1 := dropInst s i.task i.rel
  { s1 with
    glb := { s1.glb with inst := s1.glb.inst.filter (fun x => !(x.task == i.task && x.rel == i.rel)) }
    fab := { s1.fab with tiles := s1.fab.tiles.map (fun t =>
      if t.inst && t.task.toNat == i.task && t.relMcc == i.rel then { t with phase := .idle, inst := false, open0 := none, deadline := 0 } else t) } }

/-- The instances of the affected tasks that run past b discarded, the tasks held back for a major cycle (R90). -/
def holdAffected (s : State) (k : Mcc) (b : ConfImage) : State :=
  let l := affectedTasks s.ci.act b
  let s1 := (s.glb.inst.filter (fun i => l.contains i.task && before k i.fin)).foldl discardInst s
  { s1 with ci := { s1.ci with affected := l, affectUntil := k + BitVec.ofNat 32 (2 ^ nMax b) } }

/-! ## Signals and forces (R92, R93) -/

/-- A signal's dynamic state under the new image, and whether a NOTICE record names it (R92, R193). A RETAINED signal whose new WRITER is 0xFE
holds INIT_VALUE (R72) and has its NOTICE record where that changes its value (DESIGN CHOICE, assumption 165). -/
def swapSig (s : State) (k : Mcc) (r : SigRec) : SigDyn × Bool :=
  let f := freshDyn r
  let good := { f with code := qGood, last := some k }
  let same := match sigRec s.ci.act r.sid with
    | some o => o.ty == r.ty
    | none => false
  let old := dynOf s.pim r.sid
  let kept := same && !(r.retained && (match old with
    | some d => outOfRange r d.val
    | none => true))
  if r.writer = 0xFE then (good, r.retained && !(kept && (old.map (·.val)) == some f.val))
  else match old, kept with
    | some d, true => (d, false)
    | _, _ =>
      if r.retained then (if r.dir = 1 then f else good, true)
      else ({ f with subst := s.glb.state == .stop && r.dir == 2 }, false)

/-- The dynamic table under the new image, with its NOTICE records. -/
def swapSigs (s : State) (k : Mcc) (b : ConfImage) : State :=
  let res := b.sigs.map (swapSig s k)
  let keep (sid : Sid) : Bool := (sigRec b sid).isSome
  let s1 := { s with pim := { s.pim with
    dyn := res.map (·.1), staging := s.pim.staging.filter (fun e => keep e.sid)
    wfPend := s.pim.wfPend.filter keep, wfClear := s.pim.wfClear.filter keep
    copies := if s.ci.act.safety = b.safety ∧ s.ci.act.iomap = b.iomap then s.pim.copies else [] } }
  (res.filter (·.2)).foldl (fun s x => record s .notice srcGlb (cChange 2) x.1.sid.toNat) s1

/-- Whether a writer stands for no task any more: 0xFE or a task that the image does not hold (R93). -/
def writerGone (b : ConfImage) (r : SigRec) : Bool :=
  r.writer == 0xFE || (decide (r.writer.toNat < 0x30) && (taskRec b r.writer.toNat).isNone)

/-- Whether a signal's definition is unchanged for a force: TYPE, UNIT and the range (R93). -/
def sameDef (o r : SigRec) : Bool := o.ty == r.ty && o.unit == r.unit && o.rangeMin == r.rangeMin && o.rangeMax == r.rangeMax

/-- One force at the swap: kept, kept as an orphan with a NOTICE record, or cancelled with a WARNING record (R93). -/
def swapForce (b : ConfImage) (s : State) (f : Force) : State :=
  let same : Option SigRec := match sigRec s.ci.act f.sid, sigRec b f.sid with
    | some o, some r => if sameDef o r ∧ r.forceAllowed = true ∧ r.voted = false then some r else none
    | _, _ => none
  let put (f' : Option Force) : State := { s with glb := { s.glb with
    forces := s.glb.forces.filterMap (fun x => if x.sid = f.sid then f' else some x) } }
  match same with
  | none => record (put none) .warning srcGlb (cChange 4) f.sid.toNat
  | some r =>
    if writerGone b r then
      (if f.orphan then s else record (put (some { f with orphan := true })) .notice srcGlb (cChange 3) f.sid.toNat)
    else put (some { f with orphan := false })

/-- Whether an accepted force command stays at the swap: a FORCE_SET as a force in effect would (R93, R194, assumption 200). -/
def keepsCmd (a b : ConfImage) (c : ForceCmd) : Bool :=
  match sigRec a c.sid, sigRec b c.sid with
  | some o, some r => c.set.isNone || (sameDef o r && r.forceAllowed && !r.voted)
  | _, _ => false

/-- The forces and force commands at the swap (R93). -/
def swapForces (s : State) (b : ConfImage) : State :=
  let s1 := s.glb.forces.foldl (swapForce b) s
  { s1 with glb := { s1.glb with forceCmds := s1.glb.forceCmds.filter (keepsCmd s.ci.act b) } }

/-! ## Blocks under the new plane (R87, R88) -/

/-- The statistics of records kept where the record is unchanged, fresh where it is new. -/
def carryStats {β : Type} (fresh : β) (old : List IoRec) (stats : List β) (new : List IoRec) : List β :=
  new.map (fun r => match (old.zip stats).find? (fun x => x.1 == r) with
    | some x => x.2
    | none => fresh)

/-- The tiles' pages under the new plane; a tile with neither instance nor handler is idle or unused as its record says (R113, R119). -/
def swapTiles (s : State) : State :=
  { s with fab := { s.fab with tiles := ((List.range 48).zip s.fab.tiles).map (fun (i, t) =>
      let r := nthD s.ci.act.tiles i { tile := i }
      if t.phase = .reset then t
      else if t.inst then { t with task := r.task, wcet := BitVec.ofNat 32 r.wcetCyc }
      else
        let ph : TPhase := if r.task = 0xFF ∧ r.slackEvt = 0 ∧ t.hand.isNone = true then .unused else .idle
        { t with phase := ph, task := r.task, wcet := BitVec.ofNat 32 r.wcetCyc }) } }

/-- The queues of event tasks that the new image does not hold emptied. -/
def swapEvents (s : State) : State :=
  { s with glb := { s.glb with evts := ((List.range 16).zip s.glb.evts).map (fun (i, e) =>
      if (taskRec s.ci.act (0x20 + i)).isSome then e else { e with queue := [] }) } }

/-- The ports powered as the new image asks, in PORT_ID order, the others powered down (R22, R447); MAINT stays as a call enabled it
(R269). -/
def swapPower (s : State) : State :=
  Port.all.foldl (fun s p =>
    if portEnabled s p then powerPort s p.num
    else if p = .maint ∧ (nthD s.eth.ports 2 {}).enable = true then s
    else unpowerPort s p.num) s

/-- The sync reference judged anew where the grid has changed; SYNC_LOST ends with the grid it was lost on (R155, R160). -/
def swapTime (s : State) (a b : TimeRec) : State :=
  let s1 := if a.syncRef = b.syncRef ∧ a.tbaseUs = b.tbaseUs ∧ a.refExp = b.refExp then s
    else clearLost { s with cyc := { s.cyc with
      matchedNow := false, everMatched := false, refPresent := b.syncRef == 3 || b.syncRef == 1 || (b.syncRef == 0 && s.tb.valid)
      due := none, missRun := 0, pendRef := none, lateErr := none, ePrev := 0, cPrev := 0 } }
  let s2 := if a.ptpA ≠ b.ptpA ∨ a.ptpMaster ≠ b.ptpMaster then ptpRestart s1 false else s1
  if a.ptpB ≠ b.ptpB ∨ a.ptpMaster ≠ b.ptpMaster then ptpRestart s2 true else s2

/-- The group's state where the module changes between standalone and group: as after a reset, with what the Cullet and the bridges keep. -/
def swapGroup (s : State) (was : Bool) : State :=
  if inGroup s = was then s
  else { s with grp := { ({} : Grp) with
    rotSeq := s.grp.rotSeq, rotLeft := s.grp.rotLeft, latent := s.grp.latent, latentSerial := s.grp.latentSerial, proto := s.grp.proto
    takeovers := s.grp.takeovers, repeats := s.grp.repeats, minorities := s.grp.minorities, noMajority := s.grp.noMajority
    deferred := s.grp.deferred, inMinority := s.grp.inMinority, brL := s.grp.brL, brR := s.grp.brR } }

/-- STOP at a class 3 swap: entered from RUN or HOLD; in STOP a start that would lie at or after the boundary lapses (R90, R185). -/
def swapStop (s : State) : State :=
  if s.glb.state = .stop then
    (match s.glb.pendCmd with
     | some .startWarm => { (lapse s) with glb := { (lapse s).glb with stopCause := .class3 } }
     | some .startCold => { (lapse s) with glb := { (lapse s).glb with stopCause := .class3 } }
     | _ => s)
  else ownStop s .class3

/-- The planes exchanged: the new image active, the one before it in the shadow plane, every block under the new plane (R87, R96). -/
def exchange (s : State) (k : Mcc) : State :=
  let a := s.ci.act
  let b := s.ci.shd
  let s1 := swapSigs (swapForces s b) k b
  let ci : Ci := { s1.ci with
    act := b, shd := a, plane := s1.ci.plane + 1, shadow := .valid, swap := .idle, swapDue := false, aborts := 0, swappedAt := some k }
  let s2 := { s1 with
    ci := { ci with cls := BitVec.ofNat 2 (computedClass b a) }
    cyc := { s1.cyc with offsets := groupOffsets b }
    eth := { s1.eth with subs := carryStats {} (pdSubs a) s1.eth.subs (pdSubs b), pubs := carryStats {} (pdPubs a) s1.eth.pubs (pdPubs b) }
    gw := if a.gwmap = b.gwmap then s1.gw else { s1.gw with bells := [], slices := [] }
    safe := { s1.safe with paramCopy := b.safety }
    grp := { s1.grp with swap := none } }
  swapEvents (swapTiles s2)

/-- The record write of the activation that a swap completes, with its final answer; on a member whose own engine holds the image VERIFIED
without a call of its own too (R94, R425, R435, R441). -/
def swapWrite (s : State) : State :=
  match s.upd.act with
  | some a =>
    if a.ty = .ci then
      let s1 := actWrite { s with upd := { s.upd with act := none } } a
      finishAct s1 a .ok
    else s
  | none =>
    let o := otherSlot s .ci
    if o.st = .verified ∧ o.img.ci.hdr.imageHash = s.ci.act.hdr.imageHash then activationWrite s .ci 0 else s

/-- A class 3 swap to an image whose group the module's straps do not let it join: STOP with an ERROR record, as at a boot (R14, R34). -/
def swapMismatch (s : State) : State :=
  if inGroup s && !joinable s then
    record { s with glb := { s.glb with stopCause := .mismatch } } .error srcGrp (cFault 0) (ownPos s) (match s.pin.latched with
      | some x => [x.rack.setWidth 8]
      | none => [])
  else s

/-- The plane swap at boundary k, after the commits of k under the old plane; `write` says that the boot-control record follows it
(R88 to R93, R96). -/
def swapNow (s : State) (k : Mcc) (write : Bool) : State :=
  let a := s.ci.act
  let b := s.ci.shd
  let c := changeClass s b
  let s1 := if c = 3 then swapStop s else if c = 2 then holdAffected s k b else s
  let s2 := swapGroup (swapTime (exchange s1 k) a.time b.time) a.group.group
  let s3 := if c = 3 then (swapUnits a b).foldl (fun s u => portReset s u .class3) s2 else s2
  let s4 := if write then swapWrite (swapPower s3) else swapPower s3
  let s5 := record (retentionPoint s4) .info srcGlb (cChange 1) b.hdr.version.toNat (beBytes 1 c)
  pgvView (if c = 3 then swapMismatch s5 else s5)

/-- The swap due at boundary k: the committed one at its target, or at a major cycle boundary the swap back to the image that the others
run (R90, R94, R95). -/
def swapDueAt (s : State) (k : Mcc) : State :=
  if s.ci.swapDue && atOrBefore s.ci.swapMcc k && s.ci.shadow == .valid then swapNow s k true
  else if s.grp.swapBack && isMajor s.ci.act k && s.ci.shadow == .valid then
    let s1 := swapNow s k false
    { s1 with grp := { s1.grp with swapBack := false } }
  else s

end Sys2Proof.Machine
end

