-- ==== Sys2Proof/Machine/UpdEvents.lean ====
section
/-! DEFINITION. Machine/UpdEvents.lean: the chain messages, the update calls, verification, health, the Lehr and the loading of key
stores (17_field_update, R405, R427 to R443). -/

namespace Sys2Proof.Machine

/-! ## Replies (R428) -/

/-- The member entries of a reply for a TYPE byte; with an unknown TYPE the own entry alone. -/
def entsFor (s : State) (code : Nat) (st : Status) : List MemberEnt :=
  match imgTypeOf code with
  | some t => memberEnts s t st
  | none => [⟨if inGroup s then ownPos s else 0, st, 0, 0, s.tk.fuses.serial⟩]

/-- The answer to a STATUS_REQ: the members' entries and what each still misses. -/
def statusAnswer (s : State) (h : ChainHdr) : ChainMsg :=
  let st : Status := if !h.formOk then .checkFailed else match imgTypeOf h.typeCode with
    | none => .incompatible
    | some t => if slotRevoked s t h then .signatureFailed else .ok
  let es := entsFor s h.typeCode st
  let m : List Nat × Nat := match imgTypeOf h.typeCode with
    | some t => missingOf s t h
    | none => ([], 0)
  .statusReply { h with status := st } es (es.map (fun _ => m.1)) m.2

/-! ## COMMAND (R428, R434, R438, R439, R442) -/

/-- The role that a COMMAND's tokens give: the token with the own SERIAL, if it passes R409; a refused one counts (R420). -/
def commandRole (s : State) (ts : List Token) : State × Role × Word :=
  match ts.find? (fun t => t.serial == s.tk.fuses.serial) with
  | none => (s, .none, 0)
  | some t =>
    if tokenStatus s t = .ok then (s, t.role, t.tokenId)
    else ({ s with tk := { s.tk with authFail := satInc s.tk.authFail } }, .none, 0)

/-- What a COMMAND asks of the engine once its role is known; for ACTIVATE the header names the image of the inactive slot (R434). -/
def commandRun (s : State) (src : ChainSrc) (h : ChainHdr) (op : ChainOp) (t : ImgType) (role : Role) (tok : Word) (slot : Option Nat) :
    State × Status :=
  let need : Role := match op with
    | .activate => activateRole s t
    | .confirm => .engineer
    | _ => .maintainer
  if role.rank < need.rank then (updAnswer s .authRequired, .authRequired)
  else match op with
    | .activate =>
      let o := otherSlot s t
      let named := match o.manifest with
        | some m => m.version == h.version && m.targetHash == h.target
        | none => false
      if !named && t == .ci && (s.ci.swap == .proposed || s.ci.swap == .committed) then
        (record (updAnswer s .busyOtherImage) .warning srcGlb (cRefused .busyOtherImage) 5, .busyOtherImage)
      else if !named then (updAnswer s .refusedPolicy, .refusedPolicy)
      else askAct s { ty := t, tokenId := tok, slot, src := if slot.isSome then none else some src, hdr := h }
    | .confirm => confirmCmd s t tok
    | .revert => revertCmd s t tok
    | .abort => abortCmd s t (some src)

/-- A COMMAND taken: the state after it and its status (R428). -/
def takeCommand (s : State) (src : ChainSrc) (h : ChainHdr) (op : ChainOp) (ts : List Token) (slot : Option Nat) : State × Status :=
  if !h.formOk || ts.isEmpty || decide (8 < ts.length) then (updAnswer s .checkFailed, .checkFailed)
  else match imgTypeOf h.typeCode with
    | none => (updAnswer s .incompatible, .incompatible)
    | some t =>
      if slotRevoked s t h then (updAnswer s .signatureFailed, .signatureFailed)
      else
        let r := commandRole s ts
        commandRun (touchSession r.1 t h) src h op t r.2.1 r.2.2 slot

/-- Whether an activation has already sent its own final reply (TILEFW and PORTFW, R435). -/
def replied (h : ChainHdr) (op : ChainOp) (st : Status) : Bool :=
  op == .activate && st == .ok && (h.typeCode == 3 || h.typeCode == 4)

/-- A COMMAND received as chain message, once the trusted kernel runs: DEFERRED first where the activation takes time, the final status later
(R403, R434). -/
def chainCommand (s : State) (src : ChainSrc) (h : ChainHdr) (op : ChainOp) (ts : List Token) : State :=
  let r := takeCommand s src h op ts none
  if !s.tk.running then s
  else if replied h op r.2 then r.1 else chainReply r.1 src (.commandReply { h with status := r.2 } (entsFor r.1 h.typeCode r.2))

/-- COMMAND with OP ACTIVATE. -/
def execCommandActivate (src : ChainSrc) (h : ChainHdr) (ts : List Token) (s : State) : Host.Outcome State Fault Refusal :=
  .next (chainCommand s src h .activate ts)
/-- COMMAND with OP CONFIRM. -/
def execCommandConfirm (src : ChainSrc) (h : ChainHdr) (ts : List Token) (s : State) : Host.Outcome State Fault Refusal :=
  .next (chainCommand s src h .confirm ts)
/-- COMMAND with OP REVERT. -/
def execCommandRevert (src : ChainSrc) (h : ChainHdr) (ts : List Token) (s : State) : Host.Outcome State Fault Refusal :=
  .next (chainCommand s src h .revert ts)
/-- COMMAND with OP ABORT. -/
def execCommandAbort (src : ChainSrc) (h : ChainHdr) (ts : List Token) (s : State) : Host.Outcome State Fault Refusal :=
  .next (chainCommand s src h .abort ts)

/-! ## The other chain messages -/

/-- MANIFEST (R429, R430, R432). -/
def execManifest (src : ChainSrc) (h : ChainHdr) (m : Manifest) (s : State) : Host.Outcome State Fault Refusal :=
  let r := takeManifest s src h m
  .next (if !s.tk.running then s else chainReply r.1 src (.manifestReply { hdrOf m with status := r.2 } (entsFor r.1 m.typeCode r.2)))

/-- MANIFEST_REPLY: the forwarder learns its neighbour's state and sends no more than R432 asks; it changes nothing here. -/
def execManifestReply (_src : ChainSrc) (_h : ChainHdr) (_es : List MemberEnt) (s : State) : Host.Outcome State Fault Refusal := .next s

/-- COMMAND_REPLY: changes nothing in the module (R428). -/
def execCommandReply (_src : ChainSrc) (_h : ChainHdr) (_es : List MemberEnt) (s : State) : Host.Outcome State Fault Refusal := .next s

/-- SEGMENT (R430 to R432, R442). -/
def execSegment (h : ChainHdr) (e : SegEnt) (s : State) : Host.Outcome State Fault Refusal :=
  .next (if s.tk.running then takeSegment s h e else s)

/-- STATUS_REQ, answered with a STATUS_REPLY (R428). -/
def execStatusReq (src : ChainSrc) (h : ChainHdr) (s : State) : Host.Outcome State Fault Refusal :=
  .next (if s.tk.running then chainReply s src (statusAnswer s h) else s)

/-- The missing blocks that a STATUS_REPLY names and the module still holds sent again to the neighbour that sent it; in a group by the
ACTIVE (R432, R442). -/
def resend (s : State) (src : ChainSrc) (h : ChainHdr) (missing : List (List Nat)) : State :=
  let want := missing.flatten
  let held := (heldBlocks s h).filter (fun b => want.contains b.1)
  if !answers s src then s
  else held.foldl (fun s b => (blockSegs b.1 b.2).foldl (fun s e =>
    { s with out := .chainOut src (srcPlanes src) (.segment { h with status := .ok } e) :: s.out }) s) s

/-- STATUS_REPLY (R432). -/
def execStatusReply (src : ChainSrc) (h : ChainHdr) (_es : List MemberEnt) (missing : List (List Nat)) (s : State) :
    Host.Outcome State Fault Refusal := .next (if s.tk.running then resend s src h missing else s)

/-! ## Verification (R433) -/

/-- The image found in a slot: of a CI, identity and hash are its header's. -/
def foundImage (t : ImgType) (v : Verified) : SlotImg :=
  if t = .ci then { v.img with
    version := v.img.ci.hdr.version, hash := v.img.ci.hdr.imageHash, calcHash := v.img.ci.hdr.calcHash, part := v.img.ci.hdr.part,
    sig := v.img.ci.sig }
  else v.img

/-- The first failing step of a verification. -/
def verifyStatus (s : State) (t : ImgType) (m : Manifest) (v : Verified) : Status :=
  let i := foundImage t v
  if v.pkgHash ≠ m.pkgHash then .checkFailed
  else if m.delta && !v.deltaOk then .checkFailed
  else if i.calcHash ≠ m.targetHash then .checkFailed
  else if i.part ≠ m.part then .incompatible
  else if !sigGood s t.keyClass i.sig then .signatureFailed
  else match t with
    | .ci => match firstFail ((checksAll s i.ci).take 8) with
      | some (_, st) => st
      | none => .ok
    | .portfw => if i.subHashOk.length = 8 ∧ i.subHashOk.all id = true then .ok else .checkFailed
    | _ => .ok

/-- The verification of a COMPLETE slot ends (R433): VERIFIED, or INVALID with an ERROR record and the end of the session; an activation that
waited for it goes on (R434). -/
def verified (s : State) (t : ImgType) (v : Verified) : State :=
  let o := otherSlot s t
  match o.manifest with
  | none => s
  | some m =>
    if o.st ≠ .verifying ∧ o.st ≠ .complete then s
    else match verifyStatus s t m v with
      | .ok => nextAct (modOther s t (fun o => { o with st := .verified, img := foundImage t v }))
      | st =>
        let s1 := setSession (modOther s t (fun o => { o with st := .invalid })) t none
        nextAct (updAnswer (record s1 .error srcUpd (cFailed st) t.code) st)

/-- VERIFICATION_DONE of a type. -/
def execVerificationDone (t : ImgType) (v : Verified) (s : State) : Host.Outcome State Fault Refusal := .next (verified s t v)

/-- 10 min of operation without a segment or command: the session ends and the slot keeps its state; a download that a reset interrupted
becomes EMPTY with a NOTICE record (R430, R440). -/
def execUpdateSessionIdle (t : ImgType) (s : State) : Host.Outcome State Fault Refusal :=
  .next (match updSession s t with
    | none => s
    | some x =>
      if s.cul.optime.toNat < x.lastUse + 6000 then s
      else if x.resumed then endUpdSession s t .empty .notice
      else setSession s t none)

/-! ## Health and the Lehr (R436, R438) -/

/-- Whether the module has reached STOP since the boot. -/
def reachedStop (s : State) : Bool := s.glb.state != .boot && s.glb.state != .config

/-- Whether a type is healthy (R436). -/
def healthy (s : State) : ImgType → Bool
  | .tk => s.tk.running && reachedStop s && s.ci.activeValid
  | .ur => s.rst.runtimeReady
  | .tilefw => s.fab.state == .ready || s.fab.state == .running
  | .portfw => (Port.all.filter (portEnabled s)).all (fun p => !portHeld s p)
  | .ci => s.ci.activeValid && reachedStop s

/-- A type in TRIAL reaches health within 60 s: its mark is cleared (R436). -/
def execHealthReached (t : ImgType) (s : State) : Host.Outcome State Fault Refusal :=
  .next (if (entOf s t).state = 1 ∧ healthy s t = true ∧ s.cul.optime.toNat ≤ s.upd.bootTick + 600
    then writeCounters s (fun c => { c with bootPending := clrBit c.bootPending t.idx }) else s)

/-- LEHR_LEFT of a type now: the written value less the operating time since. -/
def lehrNow (s : State) (t : ImgType) : Nat := (entOf s t).lehrLeft.toNat - (s.cul.optime.toNat - s.upd.lehrTick)

/-- LEHR_LEFT reaches zero: the confirmation is written (R438). -/
def execLehrEnd (t : ImgType) (s : State) : Host.Outcome State Fault Refusal :=
  .next (if (entOf s t).state = 1 ∧ lehrNow s t = 0 then confirmWrite s t 0 else s)

/-- LEHR_LEFT written, every 10 s of operation (R425). -/
def execLehrLeftWrite (s : State) : Host.Outcome State Fault Refusal := .next (if s.tk.running then writeLehr s else s)

/-! ## The update calls (R443) -/

/-- The bytes of a bitmap of n bits, bit 7 of byte 0 for bit 0. -/
def bitmap (n : Nat) (l : List Nat) : List Byte :=
  (List.range (ceilDiv n 8)).map (fun i => BitVec.ofNat 8 (((List.range 8).map (fun j => if l.contains (8 * i + j) then 2 ^ (7 - j) else 0)).sum))

/-- The bytes of a chain message's header (R428). -/
def hdrBytes (h : ChainHdr) : List Byte :=
  [0x53, 0x56, 0x55, 0x50, 0x01, h.status.code, 0, 0, BitVec.ofNat 8 h.typeCode, 0, 0, 0] ++ beBytes 4 h.version.toNat ++ beBytes 48 h.target.toNat

/-- The bytes of a list of member entries with its count (R428). -/
def entBytes (es : List MemberEnt) : List Byte :=
  [BitVec.ofNat 8 es.length, 0, 0, 0] ++ es.flatMap (fun e =>
    [BitVec.ofNat 8 e.position, e.status.code, BitVec.ofNat 8 e.slotState, 0] ++ beBytes 4 e.nextBlock ++ beBytes 8 e.serial.toNat)

/-- The engine's answer to one chain message from the runtime: state, status, the reply message (R443). -/
def runtimeMsg (s : State) (slot : Nat) : ChainMsg → CallRes
  | .manifest h m =>
    let r := takeManifest s .runtime h m
    (r.1, r.2, hdrBytes { hdrOf m with status := r.2 } ++ entBytes (entsFor r.1 m.typeCode r.2))
  | .segment h e => (takeSegment s h e, .ok, [])
  | .statusReq h => match statusAnswer s h with
    | .statusReply g es missing n => (s, g.status, hdrBytes g ++ entBytes es ++ missing.flatMap (bitmap n))
    | _ => (s, .internal, [])
  | .command h op ts =>
    let r := takeCommand s .runtime h op ts (some slot)
    (r.1, r.2, hdrBytes { h with status := r.2 } ++ entBytes (entsFor r.1 h.typeCode r.2))
  | .statusReply h _ missing _ => (resend s .runtime h missing, .ok, [])
  | _ => (s, .ok, [])

/-- UPD_MSG (R443). -/
def execUpdMsg (c : CallReq) (m : ChainMsg) (s : State) : Host.Outcome State Fault Refusal :=
  .next (callOn s c 0x100 .maintainer (fun s => runtimeMsg s c.slot m))

/-- A call that asks the engine for a command: without a session of the role it answers AUTH_REQUIRED (R434, R443, R444). -/
def updCall (s : State) (c : CallReq) (call : Nat) (need : Role) (k : State → State × Status) : State :=
  callOn s c call .none (fun s =>
    let r := if (roleOf s c.session).rank < need.rank then (updAnswer s .authRequired, .authRequired) else k s
    (r.1, r.2, []))

/-- UPD_ACTIVATE of a type (R434). -/
def execUpdActivate (c : CallReq) (t : ImgType) (s : State) : Host.Outcome State Fault Refusal :=
  .next (updCall s c 0x101 (activateRole s t) (fun s => askAct s { ty := t, tokenId := tokenOf s c.session, slot := some c.slot }))

/-- UPD_CONFIRM of a type (R438). -/
def execUpdConfirm (c : CallReq) (t : ImgType) (s : State) : Host.Outcome State Fault Refusal :=
  .next (updCall s c 0x102 .engineer (fun s => confirmCmd s t (tokenOf s c.session)))

/-- UPD_REVERT of a type (R439). -/
def execUpdRevert (c : CallReq) (t : ImgType) (s : State) : Host.Outcome State Fault Refusal :=
  .next (updCall s c 0x103 .maintainer (fun s => revertCmd s t (tokenOf s c.session)))

/-- UPD_ABORT of a type (R442). -/
def execUpdAbort (c : CallReq) (t : ImgType) (s : State) : Host.Outcome State Fault Refusal :=
  .next (updCall s c 0x104 .maintainer (fun s => abortCmd s t none))

/-- The bytes of a manifest with its signature block (R67, R427); the two signatures' own bytes are free (assumption 21). -/
def manifestBytes (m : Manifest) : List Byte :=
  [0x53, 0x56, 0x4D, 0x46, 0x01, BitVec.ofNat 8 m.typeCode, if m.delta then 1 else 0, 0] ++ beBytes 4 m.version.toNat ++ beBytes 4 m.targetLen ++
  beBytes 48 m.targetHash.toNat ++ beBytes 48 m.sourceHash.toNat ++ beBytes 4 m.pkgLen ++ beBytes 4 m.blockCount ++ beBytes 48 m.pkgHash.toNat ++
  beBytes 4 m.minTk.toNat ++ beBytes 16 m.part.toNat ++ [0, 0, 0, 0] ++
  [0x53, 0x56, 0x53, 0x47] ++ beBytes 2 m.sig.len ++ [m.sig.keyClass, m.sig.zero7] ++ beBytes 16 m.sig.keyId.toNat ++
  (List.range 3405).map (Config.sigByte m.targetHash) ++ beBytes 27 m.sig.tail.toNat

/-- UPD_SLOT_INFO of a type: the manifests of slots A and B, zero bytes for a slot without one (R443). -/
def execUpdSlotInfo (c : CallReq) (t : ImgType) (s : State) : Host.Outcome State Fault Refusal :=
  let b (x : UpdSlot) : List Byte := match x.manifest with
    | some m => manifestBytes m
    | none => List.replicate 3648 0
  .next (callOn s c 0x105 .viewer (fun s => (s, .ok, b (updSlot s t false) ++ b (updSlot s t true))))

/-- KEYSTORE_LOAD (R405, R413). -/
def execKeystoreLoad (c : CallReq) (k : KeyStore) (s : State) : Host.Outcome State Fault Refusal :=
  .next (callOn s c 0x71 .maintainer (fun s =>
    match storeStatus s k with
    | .ok => (newStore s k, .ok, [])
    | st => (s, st, [])))

/-! ## The shadow load (R85, R89, R90, R97) -/

/-- The load of an image into the shadow plane ends: INVALID completes the activation with the failing check's status and an ERROR record;
VALID shows its class and, standalone, sets the swap boundary of R90; in a group the ACTIVE proposes it (R83, R85, R90, R94, R97). -/
def execShadowLoadDone (s : State) : Host.Outcome State Fault Refusal :=
  .next (if s.ci.shadow ≠ .loading then s
    else match s.upd.act with
    | none => s
    | some a =>
      let g := s.ci.offered.getD s.ci.shd
      match validate s g true with
      | some r =>
        let s1 := checkRec s r
        nextAct (finishAct { s1 with ci := { s1.ci with shadow := .invalid }, upd := { s1.upd with act := none } } a r.2)
      | none =>
        let c := changeClass s g
        let s1 := showCheck s none
        let s2 := { s1 with ci := { s1.ci with shadow := .valid, shd := g, offered := none, cls := BitVec.ofNat 2 c } }
        if inGroup s then s2
        else { s2 with ci := { s2.ci with
          swap := .committed, swapDue := true, swapMcc := if c = 3 then nextMcc s else majorFrom s.ci.act (nextMcc s) } })

end Sys2Proof.Machine
end

