-- ==== Sys2Proof/Machine/BootEvents.lean ====
section
/-! DEFINITION. Machine/BootEvents.lean: the boot from the boot ROM's hand-over to the first boundary's automatic start, and the release of the
application cluster (16_trust_and_boot, R415 to R417; 17_field_update, R423, R426; 04_configuration_image, R82, R85). -/

namespace Sys2Proof.Machine

/-! ## Which slot boots (R426, R439, R460) -/

/-- Whether a slot holds an image that a boot may try (R426). -/
def slotTried (x : UpdSlot) : Bool := x.st == .active || x.st == .previous

/-- Whether the image of a slot may boot: a slot that holds a whole image, its own hash, PART, signature, MIN_TK; a CI passes validation
(R85, R421, R422, R426). -/
def slotSound (s : State) (t : ImgType) (b : Bool) : Bool :=
  let x := updSlot s t b
  slotTried x &&
  (if t = .ci then (validate s x.img.ci false).isNone
   else x.img.hash == x.img.calcHash && x.img.part == partName && sigGood s t.keyClass x.img.sig && decide (x.img.minTk ≤ s.tk.tkVersion))

/-- The same with the version floor. -/
def slotBoots (s : State) (t : ImgType) (b : Bool) : Bool := slotSound s t b && decide ((entOf s t).floor ≤ (updSlot s t b).img.version)

/-- The sound slot of the highest version. -/
def bestSlot (s : State) (t : ImgType) : Option Bool :=
  let a := slotSound s t false
  let b := slotSound s t true
  if a && b then some (decide ((updSlot s t false).img.version < (updSlot s t true).img.version))
  else if a then some false else if b then some true else none

/-- A boot-control entry rewritten to a slot as CONFIRMED; the slot left is INVALID. -/
def rewriteSlot (s : State) (t : ImgType) (b : Bool) (floor : Reg32) : State :=
  let s1 := bootEntWrite s t (fun _ => { slotB := b, version := (updSlot s t b).img.version, floor })
  modUpdSlot (modUpdSlot s1 t b (fun x => { x with st := .active })) t (!b)
    (fun x => { x with st := if x.st = .active then .invalid else x.st })

/-- The slot of a type at boot, with the record writes it brings; false where none is valid (R426, R439, R460). -/
def bootSlotOf (s : State) (t : ImgType) : State × Bool :=
  let e := entOf s t
  if s.rst.bootctlRepaired then
    match bestSlot s t with
    | some b => (rewriteSlot s t b (updSlot s t b).img.version, true)
    | none => (s, false)
  else if slotBoots s t e.slotB then (s, true)
  else if slotBoots s t (!e.slotB) then
    (if e.state = 1 then revertWrite s t 0 else rewriteSlot s t (!e.slotB) e.floor, true)
  else (s, false)

/-- The third trial failure reverts a type (R439). -/
def thirdFailure (s : State) (t : ImgType) : State :=
  if (entOf s t).state = 1 ∧ 3 ≤ (entOf s t).fails then revertWrite s t 0 else s

/-! ## The boot ROM's verdicts (R405, R415, R416) -/

/-- Whether a copy of the key store verifies: its form, a fused root that is not revoked, the signature, the floor (R405, R406). -/
def storeBoots (s : State) (k : KeyStore) : Bool :=
  storeForm k && storeSigned s k && decide (s.cul.cur.keystoreFloor ≤ k.seq)

/-- A key store copy that verifies, or none. -/
def goodStore (s : State) (b : Bool) : Bool := match (if b then s.tk.storeB else s.tk.storeA) with
  | some k => storeBoots s k
  | none => false

/-- The key store chosen: the current copy, else the other with a SECURITY record; false with none (R416). -/
def bootStore (s : State) : State × Bool :=
  if goodStore s s.tk.storeInB then (s, true)
  else if goodStore s (!s.tk.storeInB) then
    (record { s with tk := { s.tk with storeInB := !s.tk.storeInB } } .security srcBootRom (cFailed .signatureFailed), true)
  else (s, false)

/-- The TK slot chosen, with a SECURITY record when it is not the one named; false with none (R416, R426). -/
def bootTk (s : State) : State × Bool :=
  let s0 := thirdFailure s .tk
  let r := bootSlotOf s0 .tk
  if r.2 && (entOf r.1 .tk).slotB != (entOf s0 .tk).slotB then (record r.1 .security srcBootRom (cFailed .signatureFailed) 1, true) else r

/-- No key store or no TK valid: BOOT goes on for good under fail-silence, FAULT steady, with a CRITICAL record in the store (R416). -/
def bootStuck (s : State) : State :=
  let s0 := soOff s
  let s1 := record { s0 with safe := { s0.safe with failSilent := true, faultLed := true } } .critical srcBootRom (cFailed .signatureFailed)
  { s1 with evr := { s1.evr.copyMany 513 with flushing := false } }

/-! ## The trusted kernel's start (R391, R415, R437, R440, R459, R460, R478) -/

/-- A two-copy record with an invalid copy rewritten from its twin (R459). -/
def TwoCopy.repair (t : TwoCopy α) : TwoCopy α :=
  match t.a, t.b with
  | some x, none => { t with b := some x }
  | none, some y => { t with a := some y }
  | _, _ => t

/-- The Cullet at the start: what both copies have lost is written anew, invalid copies are repaired, each loss recorded (R459, R460). -/
def repairCullet (s : State) : State :=
  let floor : Reg32 := match curStore s with
    | some k => k.seq
    | none => 0
  let s1 := if s.rst.countersRepaired then
      record (writeCounters s (fun c => { c with keystoreFloor := floor })) .critical srcTk (cFault 0) 0 else s
  let s2 := if s.rst.bootctlRepaired then record s1 .security srcTk (cFault 0) 0x1000 else s1
  let s3 := if s.rst.cstoreRepaired then
      record { s2 with cul := { s2.cul with cstore := s2.cul.cstore.write [] } } .error srcTk (cFault 0) 0x10000 else s2
  let s4 := if s.rst.retainLost then record s3 .error srcTk (cFault 0) 0x100000
    else if s.rst.retainFallback then record s3 .warning srcTk (cFault 0) 0x100000 else s3
  { s4 with cul := { s4.cul with
      counters := s4.cul.counters.repair, bootctl := s4.cul.bootctl.repair, cstore := s4.cul.cstore.repair
      retained := s4.cul.retained.repair } }

/-- A Canary cause latched before this boot: a CRITICAL record with the counters record's times of before, the history of a fail-silence that the
island could not write; a CANARY reset counted with its operating time; the restart permission (R391, R467). -/
def bootCanary (s : State) : State :=
  let now := s.cul.optime.toNat
  let s1 := if s.safe.canaryNew then
      let r := mkRec s .critical srcCanary (cFault s.safe.canaryLatch.toNat) s.cyc.mcc 0
        (beBytes 8 s.cul.cur.lastTime.toNat ++ beBytes 5 now)
      recordAs s { r with deferredTime := true } else s
  let s2 := if s.safe.canaryNew && !s.safe.canaryCounted then countCanary s1 s.safe.canaryLatch else s1
  let s3 := if s.rst.bootReason = 2 then
      writeCounters s2 (fun c => { c with canaryCnt := satInc c.canaryCnt, canaryRstT := (now :: c.canaryRstT).take 3 }) else s2
  let n := (s3.cul.cur.canaryRstT.filter (fun t => decide (now < t + 36000))).length
  { s3 with safe := { s3.safe with canaryNew := false, canaryCounted := false, restarts1h := BitVec.ofNat 8 n, armed := decide (n < 3) } }

/-- The image type of an index. -/
def imgOfIdx (i : Nat) : ImgType := (imgTypeOf (i + 1)).getD .ci

/-- A trial failure that the previous boot left: counted with an ERROR record, the third reverts (R437, R439). -/
def failType (s : State) (i : Nat) : State :=
  thirdFailure (record (writeBoot s (modNth s.cul.boot i countFail)) .error srcUpd (cFault 0) (i + 1)) (imgOfIdx i)

/-- An activation that the reset interrupted: WARNING where its record was not written, else NOTICE (R440). -/
def lostAct (s : State) (a : Activation) : State := record s (if a.written then .notice else .warning) srcUpd (cFault 0) a.ty.code

/-- The update engine at the start: trial failures, interrupted activations, sessions whose idle time runs from now, whole packages verified
again (R433, R437, R440). -/
def bootEngine (s : State) : State :=
  let s1 := s.upd.failDue.foldl failType s
  let s2 := (s1.upd.act.toList ++ s1.upd.waiting).foldl lostAct s1
  let now := s2.cul.optime.toNat
  let again (x : UpdSlot) : UpdSlot := { x with st := if x.st = .complete then .verifying else x.st }
  { s2 with upd := { s2.upd with
      failDue := [], act := none, waiting := [], lehrTick := now, bootTick := now
      sessions := s2.upd.sessions.map (·.map (fun x => { x with lastUse := now }))
      slots := s2.upd.slots.map (fun (a, b) => (again a, again b)) } }

/-- The class C fields from the Cullet; after a settings reset none, at a power-on or a MODULE reset (R8, R414, R417). -/
def bootSettings (s : State) : State :=
  let drop := s.tk.settingsReset && (s.rst.bootReason == 0 || s.rst.bootReason == 1)
  let s1 := if drop then
      { s with tk := { s.tk with settingsReset := false }, cul := { s.cul with cfields := [], cstore := s.cul.cstore.write [] } } else s
  let s2 := s1.cul.cfields.foldl (fun s c => fieldPut s c.addr.toNat c.written c.value) s1
  { s2 with txe := { s2.txe with quota := quotasNext s2, quotaNext := none } }

/-- The trusted kernel's PIM self-test before CONFIG: it freezes every bank and releases them at its end (R243, assumption 184). -/
def pimTest (s : State) : State := freezeBanks (freezeBanks s 0xFFFF) 0

/-- The trusted kernel runs: its version, the announced epoch, then what each part does at the start, state CONFIG (R187, R331, R356, R415). -/
def tkStart (s : State) : State :=
  let img := (activeSlot s .tk).img
  let s1 := pimTest { s with
    tk := { s.tk with running := true, tkVersion := img.version }
    safe := { s.safe with running := true, t1 := true, t2 := true }
    grp := { s.grp with proto := img.glProto } }
  let s2 := bootCanary (repairCullet (storeScan s1))
  let s3 := writeCounters (bootEngine s2) (fun c => { c with epoch := c.epoch + 1 })
  setState (pgvView (bootSettings s3)) .config

/-- TRUSTED_KERNEL_START: the boot ROM's verification ends (R415, R416); a reset pin held since power good delays it (R41). -/
def execTrustedKernelStart (s : State) : Host.Outcome State Fault Refusal :=
  .next (if !s.pin.powerGood || s.pin.rstHeld || s.glb.state != .boot || s.tk.running || s.safe.failSilent then s
  else
    let r := bootStore s
    if !r.2 then bootStuck r.1
    else
      let q := bootTk r.1
      if q.2 then tkStart q.1 else bootStuck q.1)

/-! ## The active plane loaded (R82, R85, R113, R415, R416, R423) -/

/-- A SETTINGS record applied to the class C fields that the Cullet holds no written value for (R82, R414); what the module maintains itself counts
as written. -/
def applySetting (s : State) (x : SettingRec) : State :=
  let a := x.addr.toNat
  let written : Reg32 := match s.cul.cfields.find? (fun c => c.addr == x.addr) with
    | some c => c.written
    | none => 0
  let m := x.mask &&& cMask a &&& ~~~written
  if !cFieldRegs.contains a || m == 0 then s
  else
    let s1 := fieldPut s a m x.value
    cfieldWrite s1 x.addr (wholeFields a m) (fieldGet s1 a)

/-- All SETTINGS records applied: at a boot; a swap takes a new image's records at the next one (DESIGN CHOICE, assumption 164). -/
def applySettings (s : State) : State :=
  let s1 := s.ci.act.settings.foldl applySetting s
  { s1 with txe := { s1.txe with quota := quotasNext s1, quotaNext := none } }

/-- Whether a port finds its sub-image: in the active PORTFW slot, else in the other one when that may boot (R416, R423). -/
def portFwFound (s : State) (slotOk : Bool) (p : Port) : Bool :=
  slotOk && (nthD (activeSlot s .portfw).img.subHashOk p.num false ||
    (slotBoots s .portfw (!(entOf s .portfw).slotB) && nthD (otherSlot s .portfw).img.subHashOk p.num false))

/-- A port at its start: without firmware down with an ERROR record, else out of reset, powered where the image enables it and its controller
loaded; a port the governor holds back stays in reset (R22, R249, R416, R447). -/
def startPort (s : State) (slotOk : Bool) (p : Port) : State :=
  if !portFwFound s slotOk p then
    record { s with rst := { s.rst with portNoFw := setBit s.rst.portNoFw p.num } } .error (resetSrc p.num) (cFailed .checkFailed) 4
  else
    let s1 := if portEnabled s p then powerPort s p.num else s
    if bit s1.pgv.portRefused p.num then s1
    else
      let s2 := { s1 with rst := { s1.rst with portHeld := clrBit s1.rst.portHeld p.num } }
      if portEnabled s p then loadPort s2 p.num else s2

/-- An accepted image made active: the blocks sized and set by it, DIR 2 signals on their STOP values, the ports in PORT_ID order, the tiles, the
boundary generator from MCC 0 (R121, R148, R191, R374, R415, R461). -/
def loadPlane (s : State) (g : ConfImage) (fwOk : Bool) : State :=
  let sref := g.time.syncRef
  let s1 := { s with
    ci := { s.ci with act := g, activeValid := true }
    pim := { s.pim with dyn := g.sigs.map (fun r => { freshDyn r with subst := r.dir == 2 }) }
    eth := { s.eth with subs := (pdSubs g).map (fun _ => {}), pubs := (pdPubs g).map (fun _ => {}) }
    safe := { s.safe with paramCopy := g.safety }
    cyc := { s.cyc with
      running := true, started := false, mcc := 0, timerTtc := s.tb.ttc, lenNs := 0, offsets := groupOffsets g
      refPresent := sref == 3 || sref == 1 || (sref == 0 && s.tb.valid) }
    rst := { s.rst with portHeld := clrBit s.rst.portHeld 8 } }
  let s2 := applySettings s1
  let s3 := Port.all.foldl (fun s p => startPort s fwOk p) s2
  let s4 := if 131068 < (g.sigs.filter (·.retained)).length then record s3 .error srcGlb (cRefused .refusedCapacity) else s3
  pgvView (restartTiles s4)

/-- STOP after the load: a strap or rack mismatch in a group keeps it there with an ERROR record; else AUTO waits for the first boundary, in a
group for formation; a CANopen master puts its nodes into Pre-Operational (R14, R34, R187, R191, R192, R287). -/
def firstStop (s : State) : State :=
  let bad := inGroup s && !joinable s
  let cause : StopCause := if bad then .mismatch else if inGroup s then .notFormed else .none
  let s1 := { s with glb := { s.glb with stopCause := cause, autoArmed := !inGroup s } }
  canNmt (setState (if bad then record s1 .error srcGrp (cFault 0) (ownPos s) (match s.pin.latched with
    | some x => [x.rack.setWidth 8]
    | none => []) else s1) .stop) 0x80

/-- The failing check of an image shown, with its record (R83). -/
def ciCheckOne (s : State) (g : ConfImage) : State :=
  match validate s g false with
  | some r => checkRec s r
  | none => showCheck s none

/-- The CI slot that the record names validated, then the other one where the boot tries it (R83, R85). -/
def ciCheck (s : State) : State :=
  let g := (activeSlot s .ci).img.ci
  let s1 := ciCheckOne s g
  if ((validate s g false).isSome || s.rst.bootctlRepaired) && slotTried (otherSlot s .ci) then ciCheckOne s1 (otherSlot s .ci).img.ci else s1

/-- ACTIVE_PLANE_LOADED: configuration image and firmware validated and loaded; without a CI or a TILEFW that passes the module stays in CONFIG with
a CRITICAL record (R85, R187, R415, R416). -/
def execActivePlaneLoaded (s : State) : Host.Outcome State Fault Refusal :=
  .next (if !s.tk.running || s.glb.state != .config || s.ci.activeValid then s
  else
    let c := bootSlotOf (ciCheck s) .ci
    if !c.2 then record c.1 .critical srcGlb (cFailed .checkFailed) 5
    else
      let f := bootSlotOf c.1 .tilefw
      if !f.2 then record f.1 .critical srcFab (cFailed .signatureFailed) 3
      else
        let p := bootSlotOf f.1 .portfw
        let g := (activeSlot p.1 .ci).img.ci
        firstStop (loadPlane (showCheck p.1 none) g p.2))

/-! ## The application cluster (R415, R416, R452) -/

/-- CLUSTER_RELEASE: the UR image verified and loaded, the cluster released at the step it asks for last; with neither slot valid it stays held
with an ERROR record and FAULT at 1 Hz (R61, R415, R416, R447, R452). -/
def execClusterRelease (s : State) : Host.Outcome State Fault Refusal :=
  .next (if !s.tk.running || !s.rst.clusterHeld || s.rst.clusterLocked || s.glb.state == .dormant || s.safe.failSilent then s
  else
    let u := bootSlotOf s .ur
    if !u.2 then record { u.1 with rst := { u.1.rst with faultLed1Hz := true } } .error srcTk (cFailed .signatureFailed) 2
    else
      let s1 := clkGood (clkGood u.1 5) 6
      requestStep { s1 with
        rst := { s1.rst with clusterHeld := false, faultLed1Hz := false }
        tk := { s1.tk with urVersion := (activeSlot s1 .ur).img.version } } s1.pgv.step.toNat)

/-! ## Automatic start (R192) -/

/-- What AUTO does: 1 a warm, 2 a cold start, else STOP stays with its cause (R188, R192); in a group the ACTIVE sets the boundary for all. -/
def autoStart (s : State) : State :=
  let s0 := { s with glb := { s.glb with autoDue := false, autoArmed := false } }
  let c : Option ModeCmd := if s.glb.auto = 1 then some .startWarm else if s.glb.auto = 2 then some .startCold else none
  match c with
  | none => { s0 with glb := { s0.glb with stopCause := .autoDisabled } }
  | some c =>
    if inGroup s then (if s.grp.role = .active then (activeCall s0 (.mode c)).1 else s0)
    else setPending s0 c (boundaryAfter s0 (leadNs s0 c))

/-- AUTOMATIC_START: standalone at the first boundary after CONFIG to STOP, in a group once it has formed (R188, R192, R343). -/
def execAutomaticStart (s : State) : Host.Outcome State Fault Refusal :=
  .next (if s.glb.state == .stop && s.cyc.started && (s.glb.autoDue || s.glb.autoArmed) then autoStart s else s)

end Sys2Proof.Machine
end

