-- ==== Sys2Proof/Machine/CodedOps.lean ====
section
/-! DEFINITION. Machine/CodedOps.lean: the coded-processing unit of the safety island: code words, the check of a variable, the coded
operations (15_safety_island, R368 to R370). -/

namespace Sys2Proof.Machine

/-- CODE_A (R368). -/
def codeA : Int := 65521

/-- The dynamic signature of an instance: its release MCC modulo A (R368). -/
def codeSig (rel : Mcc) : Int := (rel.toNat : Int) % codeA

/-- x_c = A * x + B_x + D_k (R368). -/
def codeWord (d : Int) (sig : Nat) (x : Int) : Int := codeA * x + sig + d

/-- The number a valid code word carries (R368). -/
def decodeWord (d : Int) (sig : Nat) (c : Int) : Int := (c - sig - d) / codeA

/-- Whether a code word is valid: its remainder divisible by A, the quotient in the declared range of the variable (R368). -/
def codeValid (d : Int) (sig : Nat) (lo hi c : Int) : Bool :=
  decide ((c - sig - d) % codeA = 0) && decide (lo ≤ decodeWord d sig c) && decide (decodeWord d sig c ≤ hi)

/-- The check of one variable at a check point (R370). -/
def codedVarOk (d : Int) (v : CodedVar) : Bool := decide (0 < v.sig) && codeValid d v.sig v.lo v.hi v.word.toInt

/-- The check of all variables of an instance released at `rel` (R370). -/
def codedOk (rel : Mcc) (vs : List CodedVar) : Bool := vs.all (codedVarOk (codeSig rel))

/-- A state variable signed for the next instance: D_new - D_old added (R368). -/
def resign (old new c : Int) : Int := c + new - old

/-- z = x + y: the signature is B_x + B_y (R369). -/
def codeAdd (d x y : Int) : Int := x + y - d

/-- z = x - y: the signature is B_x - B_y (R369). -/
def codeSub (d x y : Int) : Int := x - y + d

/-- z = c * x for a constant c: the signature is c * B_x (R369). -/
def codeScale (d c x : Int) : Int := c * x - (c - 1) * d

/-- The operations that the unit computes from both code words after it checks both: product, quotient toward zero, comparison as a coded
BOOL; none where a check fails, a divisor is zero or the result is outside its range (R369). -/
def codeChecked (d : Int) (x y z : CodedVar) (f : Int → Int → Option Int) : Option CodedVar :=
  if codedVarOk d x && codedVarOk d y then
    match f (decodeWord d x.sig x.word.toInt) (decodeWord d y.sig y.word.toInt) with
    | some v => if z.lo ≤ v ∧ v ≤ z.hi then some { z with word := BitVec.ofInt 64 (codeWord d z.sig v) } else none
    | none => none
  else none

/-- z = x * y (R369). -/
def codeMul (d : Int) (x y z : CodedVar) : Option CodedVar := codeChecked d x y z (fun a b => some (a * b))

/-- z = x / y toward zero; a zero divisor fails (R369). -/
def codeDiv (d : Int) (x y z : CodedVar) : Option CodedVar := codeChecked d x y z (fun a b => if b = 0 then none else some (a.tdiv b))

/-- z = (x op y) as a coded BOOL (R369). -/
def codeCmp (op : Int → Int → Bool) (d : Int) (x y z : CodedVar) : Option CodedVar :=
  codeChecked d x y z (fun a b => some (if op a b then 1 else 0))

/-- z = b ? x : y: the selected operand's number under the signature of z (R369). -/
def codeSel (d : Int) (b x y z : CodedVar) : Option CodedVar :=
  if codedVarOk d b then (if decodeWord d b.sig b.word.toInt = 1 then codeChecked d x x z (fun a _ => some a) else codeChecked d y y z (fun a _ => some a))
  else none

end Sys2Proof.Machine
end

