-- ==== Sys2Proof/Machine/SafetyEvents.lean ====
section
/-! DEFINITION. Machine/SafetyEvents.lean: what the safety tasks, the safe outputs and inputs and the Canary's watches do
(15_safety_island, R361 to R392). -/

namespace Sys2Proof.Machine

/-! ## Safety tasks (R363, R370) -/

/-- The TTC of the release of an instance that is in flight: its cycles so far, the running one included, back from the next boundary. -/
def releaseTtc (s : State) (i : Instance) : Word :=
  let len : Int := ((s.cyc.mcc - i.rel).toNat + 1 : Nat) * (tbaseNs s : Int) - i.shortening
  s.cyc.timerTtc - BitVec.ofInt 64 len + BitVec.ofNat 64 (releaseOffNs s)

/-- Whether an instance is still before its deadline: standalone the boundary that ends its period less 10 µs, in a group the
release point of its last minor cycle (R363, R338). -/
def beforeDeadline (s : State) (i : Instance) : Bool :=
  if i.fin = s.cyc.mcc + 1 then decide ((if inGroup s then 60000 else 10000 : Int) < (s.cyc.timerTtc - s.tb.ttc).toInt)
  else !atOrBefore i.fin s.cyc.mcc

/-- The outputs of a safety task as staging entries of its instance; a SID of another writer is refused (R203, R208). -/
def safetyEnts (g : ConfImage) (i : Instance) (ws : List (Sid × Word × BitVec 4)) : List StgEnt :=
  ws.filterMap (fun (sid, v, c) => match sigRec g sid with
    | some r => if r.writer.toNat = i.task then
        some { sid, val := rawOf r.t v, code := qNorm c, sim := false, target := i.fin, owner := .safety, inst := some (i.task, i.rel) }
      else none
    | none => none)

/-- The SIDs among a safety task's outputs that have another writer. -/
def foreignSids (g : ConfImage) (task : Nat) (ws : List (Sid × Word × BitVec 4)) : List Sid :=
  (ws.filter (fun (sid, _, _) => match sigRec g sid with
    | some r => r.writer.toNat != task
    | none => true)).map (·.1)

/-- A coded check of an instance failed: counted; standalone the island safe state with cause 0x01, in a group a SAFETY record
and the votes of the instance formed from SUBST_VALUE with INVALID (R370). -/
def codeFailure (s : State) (task : Nat) : State :=
  let s1 := { s with safe := { s.safe with
    codeErr := satInc s.safe.codeErr
    codeFailed := if s.safe.codeFailed.contains task then s.safe.codeFailed else task :: s.safe.codeFailed } }
  if inGroup s then record s1 .safety srcSafe (cFault 1) task else enterIsland s1 0x01 true

/-- The response time of FUNC_TASK noted (R400). -/
def noteResponse (s : State) (task us : Nat) : State :=
  if task ≠ s.ci.act.safety.funcTask then s
  else
    let u := BitVec.ofNat 16 us
    { s with safe := { s.safe with lastUs := u, maxUs := if s.safe.maxUs < u then u else s.safe.maxUs } }

/-- What a safety task instance that ends in time leaves: its outputs and, for FUNC_TASK, the results of the safety functions,
unless a coded check failed (R363, R370, R375 to R379). -/
def safetyOutputs (s : State) (i : Instance) (ws : List (Sid × Word × BitVec 4)) (codeOk : Bool) : State :=
  if !codeOk then codeFailure s i.task
  else
    let own := if i.task = s.ci.act.safety.funcTask then (results s).map (fun (sid, v) => (sid, v, qGood)) else []
    let s1 := (foreignSids s.ci.act i.task ws).foldl refuseWriter s
    addStaging s1 (safetyEnts s.ci.act i (ws ++ own))

/-- Whether a safety task can end now: no instance of a higher priority is still to end, since it would pre-empt this one (R173). -/
def endsFirst (s : State) (i : Instance) : Bool :=
  s.glb.inst.all (fun x => x.complete || x == i || !(match taskRec s.ci.act x.task with
    | some r => r.engine == 1
    | none => false) || instBefore s.ci.act i x)

/-- SAFETY_TASK_END: a safety task's instance ends `us` after its release with the outputs it wrote; `vars` are the variables of its check
points, which the coded-processing unit checks, `flowOk` the Canary's verdict on its program flow. Past its deadline it is an overrun
(R363, R368, R370, R390). -/
def execSafetyTaskEnd (task : Fin 32) (writes : List (Sid × Word × BitVec 4)) (us : Nat) (vars : List CodedVar) (flowOk : Bool)
    (s : State) : Host.Outcome State Fault Refusal :=
  .next (match s.glb.inst.find? (fun i => i.task == task.val && !i.complete), taskRec s.ci.act task.val with
    | some i, some r =>
      if r.engine ≠ 1 ∨ s.safe.failSilent ∨ endsFirst s i = false then s
      else
        let s1 := passTo s (releaseTtc s i + BitVec.ofNat 64 (us * 1000))
        if !beforeDeadline s1 i then s1
        else if !flowOk then failSilence s1 0x02 false
        else
          let s2 := noteResponse (safetyOutputs s1 i writes (codedOk i.rel vars)) i.task us
          { s2 with
            glb := modInst s2.glb i.task i.rel (fun i => { i with complete := true })
            safe := { s2.safe with tokens := (i.task, i.rel) :: s2.safe.tokens.filter (fun x => x.1 != i.task) } }
    | _, _ => s)

/-! ## Safe outputs (R382, R383) -/

/-- Whether the safe I/O unit works: power good, the island running, no fail-silence, not dormant (R31, R387). -/
def safeIoOn (s : State) : Bool := s.pin.powerGood && s.safe.running && !s.safe.failSilent && s.glb.state != .dormant

/-- An output changed. -/
def modSo (s : State) (n : Nat) (f : SafeOut → SafeOut) : State := { s with safe := { s.safe with so := modNth s.safe.so n f } }

/-- FAULT_HIGH of an output latched, with the island safe state, cause 0x04 (R383). -/
def faultHigh (s : State) (n : Nat) : State :=
  if (nthD s.safe.so n {}).faultHigh then { s with safe := { s.safe with causeNow := true } }
  else enterIsland (modSo s n (fun o => { o with faultHigh := true, highRel := 0 })) 0x04 true

/-- FAULT_LOW of an output latched: commanded 0 until SAFE_ACK, a SAFETY record (R383, R399). -/
def faultLow (s : State) (n : Nat) : State :=
  let s1 := modSo s n (fun o => { o with faultLow := true, cmd := false })
  record { s1 with out := .safeOut (nthD s1.safe.so 0 {}).cmd (nthD s1.safe.so 1 {}).cmd :: s1.out } .safety srcSafe (cFault 0) n

/-- The steady-state readback of one output judged (R382, R383). -/
def judgeReadback (s : State) (n : Nat) (rb : Bool) : State :=
  let o := nthD s.safe.so n {}
  let s1 := modSo s n (fun o => { o with readback := rb, badNow := rb != o.cmd })
  if rb && !o.cmd then
    let s2 := faultHigh s1 n
    if o.faultHigh && decide (2 ≤ o.highRel) then failSilence s2 0x08 true else s2
  else if !rb && o.cmd then faultLow s1 n
  else s1

/-- SO_READBACK: at t0 + 300 µs the readbacks of SO0 and SO1 are sampled (R382, R383). -/
def execSoReadback (rb0 rb1 : Bool) (s : State) : Host.Outcome State Fault Refusal :=
  .next (if !safeIoOn s then s
    else judgeReadback (judgeReadback (if s.cyc.running then passTo s (t0 s + 300000) else s) 0 rb0) 1 rb1)

/-- One output's test judged; the next test takes the other switch (R383). -/
def judgeTest (s : State) (n : Nat) (pass : Bool) : State :=
  let s1 := modSo s n (fun o => { o with testOk := pass, switch2 := !o.switch2 })
  if pass then s1 else faultHigh s1 n

/-- SO_TEST_PULSE: the test pulse of the switch whose turn it is, on each output, from t0 + 300 µs, with its verdicts; in a minor
cycle with a command change it moves to the next boundary (R383, R399). -/
def execSoTestPulse (pass0 pass1 : Bool) (s : State) : Host.Outcome State Fault Refusal :=
  .next (if !safeIoOn s || s.safe.soMoved then s
    else judgeTest (judgeTest (if s.cyc.running then passTo s (t0 s + 300000) else s) 0 pass0) 1 pass1)

/-! ## Safe inputs (R384, R385) -/

/-- A pair changed. -/
def modSi (s : State) (n : Nat) (f : SafePair → SafePair) : State := { s with safe := { s.safe with si := modNth s.safe.si n f } }

/-- Whether a pair is antivalent (R365, R385). -/
def antivalent (s : State) (n : Nat) : Bool := bit s.ci.act.safety.siMode n

/-- Whether the channels of a pair disagree (R385). -/
def disagree (s : State) (n : Nat) : Bool :=
  let p := nthD s.safe.si n {}
  if antivalent s n then p.ch1 == p.ch2 else p.ch1 != p.ch2

/-- The value of a pair: 0 while it has a fault, else 1 when its channels show it closed (R385). -/
def pairValue (s : State) (n : Nat) : Bool :=
  let p := nthD s.safe.si n {}
  !p.fault && p.ch1 && (if antivalent s n then !p.ch2 else p.ch2)

/-- Whether the 700 µs from the start of a dark pulse run (R384). -/
def pulseHolds (s : State) : Bool :=
  match s.safe.pulseAt with
  | some t => decide (0 ≤ (s.tb.ttc - t).toInt) && decide ((s.tb.ttc - t).toInt < 700000)
  | none => false

/-- The value of a pair as it stands now: during a dark pulse's 700 µs the one before the pulse, but 0 with a fault (R384, R385). -/
def pairShown (s : State) (n : Nat) : Bool :=
  let p := nthD s.safe.si n {}
  if pulseHolds s && !p.fault then p.value else pairValue s n

/-- The staging entry of a pair's SID, in the island's share: GOOD, with a fault 0 and INVALID (R211, R385, assumption 205). -/
def pairEnt (s : State) (n : Nat) : Option StgEnt :=
  match demandSid s.ci.act (2 + n) with
  | none => none
  | some sid => (sigRec s.ci.act sid).map (fun r =>
      stgNow s r (b2w (pairShown s n)) (if (nthD s.safe.si n {}).fault then qInvalid else qGood) false .safety)

/-- Whether the safe inputs are the writer of a SID (0x44; R72, R73). -/
def pairOwns (s : State) (sid : Sid) : Bool :=
  match sigRec s.ci.act sid with
  | some r => r.writer == 0x44
  | none => false

/-- The pair's SID written and its value shown; a SID of another writer is refused (R73, R385). -/
def writePair (s : State) (n : Nat) : State :=
  let s1 := modSi s n (fun p => { p with value := pairShown s n })
  match pairEnt s1 n with
  | some e => if pairOwns s1 e.sid then acceptWrite s1 e else refuseWriter s1 e.sid
  | none => s1

/-- A fault of a pair latched, with a SAFETY record (R385). -/
def pairFault (s : State) (n : Nat) : State :=
  if (nthD s.safe.si n {}).fault then s
  else writePair (record (modSi s n (fun p => { p with fault := true })) .safety srcSafe (cFault 0) (2 + n)) n

/-- A channel changed to a value: the pair's value is formed anew and, when it changed, its SID written; what changes within the 700 µs of a dark
pulse shows with the next change or boundary after them (R384, R385). -/
def execSafeInputChange (ch : Fin 4) (v : Bool) (s : State) : Host.Outcome State Fault Refusal :=
  let n := ch.val / 2
  .next (if !safeIoOn s then s
    else
      let s1 := modSi s n (fun p => if ch.val % 2 = 0 then { p with ch1 := v } else { p with ch2 := v })
      let s2 := if disagree s1 n then s1 else { s1 with safe := { s1.safe with discUs := setNth s1.safe.discUs n 0 } }
      if pairShown s2 n = (nthD s.safe.si n {}).value then s2 else writePair s2 n)

/-- One pair judged at a dark pulse: a channel that reads high stays high through its own pulse (stuck) or drops during the other
source's (cross-faulted) (R27, R384). -/
def judgePair (s : State) (t2 : Bool) (n : Nat) (drop1 drop2 : Bool) : State :=
  let p := nthD s.safe.si n {}
  let stuck := if t2 then p.ch2 && !drop2 else p.ch1 && !drop1
  let cross := if t2 then p.ch1 && drop1 else p.ch2 && drop2
  if stuck || cross then pairFault (modSi s n (fun p => { p with stuck := p.stuck || stuck, cross := p.cross || cross })) n else s

/-- INPUT_TEST_PULSE: the dark pulse of T1 or T2, with the inputs that dropped during it (R384). -/
def execInputTestPulse (t2 a1 a2 b1 b2 : Bool) (s : State) : Host.Outcome State Fault Refusal :=
  .next (if !safeIoOn s then s
    else judgePair (judgePair { s with safe := { s.safe with pulseAt := some s.tb.ttc } } t2 0 a1 a2) t2 1 b1 b2)

/-- INPUT_DISCREPANCY_TIMEOUT: a pair's channels have disagreed longer than SI_DISC_MS (R385). -/
def execInputDiscrepancyTimeout (pair : Fin 2) (s : State) : Host.Outcome State Fault Refusal :=
  .next (if safeIoOn s && disagree s pair.val then pairFault (modSi s pair.val (fun p => { p with disc := true })) pair.val else s)

/-- INPUT_FAULT_CLEAR: both channels of a pair have shown its open state for 100 ms with no fault in that time (R385). -/
def execInputFaultClear (pair : Fin 2) (s : State) : Host.Outcome State Fault Refusal :=
  let n := pair.val
  let p := nthD s.safe.si n {}
  .next (if safeIoOn s && p.fault && !p.ch1 && p.ch2 == antivalent s n then
      let s1 := modSi s n (fun p => { p with fault := false, disc := false, stuck := false, cross := false })
      writePair (record s1 .safety srcSafe (cCleared 0) (2 + n)) n
    else s)

/-- The pairs at a boundary: each SID written again, and the time of a disagreement advanced (R385, R394). -/
def pairsAtBoundary (s : State) : State :=
  if !safeIoOn s then s
  else
    let s1 := (List.range 2).foldl writePair s
    let d := (List.range 2).map (fun n => if disagree s n then nthD s.safe.discUs n 0 + s.ci.act.time.tbaseUs else 0)
    { s1 with safe := { s1.safe with discUs := d } }

/-! ## The Canary's watches (R390, R392) -/

/-- LIVENESS_PULSE: the island's pulse, inside its window or not (R390). -/
def execLivenessPulse (onTime : Bool) (s : State) : Host.Outcome State Fault Refusal :=
  .next (if onTime then s else failSilence s 0x01 false)

/-- Fail-silence by a cause of SAFE_CANARY; the island runs on unless the cause is the island itself (R390, R400). -/
def canaryFail (s : State) (cause : Byte) : State :=
  if 1 ≤ cause.toNat ∧ cause.toNat ≤ 8 then failSilence s cause (decide (3 < cause.toNat)) else s

/-- CANARY_WATCH: a watch of the Canary fails (R390). -/
def execCanaryWatch (cause : Byte) (s : State) : Host.Outcome State Fault Refusal := .next (canaryFail s cause)

/-- FAIL_SILENCE: the Canary forces fail-silence with a cause (R37). -/
def execFailSilence (cause : Byte) (s : State) : Host.Outcome State Fault Refusal := .next (canaryFail s cause)

/-- SRAM_SCRUB: the island's SRAM scrubbed: corrected errors counted, an uncorrectable one in safety data enters the island safe state
(R361, R388, R392). -/
def execSramScrub (corrected : Nat) (uncorrectable : Bool) (s : State) : Host.Outcome State Fault Refusal :=
  .next (if !safeIoOn s then s
    else
      let s1 := { s with safe := { s.safe with eccCorr := satAdd s.safe.eccCorr corrected } }
      if uncorrectable then enterIsland s1 0x05 true else s1)

/-- CORE_SELF_TEST: the self-test of the island's core; a failure asks the Canary for fail-silence (R392). -/
def execCoreSelfTest (pass : Bool) (s : State) : Host.Outcome State Fault Refusal :=
  .next (if pass then s else failSilence s 0x08 true)

end Sys2Proof.Machine
end

