-- ==== Sys2Proof/Machine/CycleEvents.lean ====
section
/-! DEFINITION. Machine/CycleEvents.lean: what happens between two boundaries: the edge of SYNC_IN, the end of settling and the release of
tasks (07_cycle_boundary_and_launch, R151, R155; 08_tasks_modes_forcing, R173 to R190; 09_process_image, R210). -/

namespace Sys2Proof.Machine

/-! ## SYNC_IN (R43, R57, R155) -/

/-- The time stamp of a SYNC_IN edge captured now: the capture tick of 8 ns less the 16 ns of the crossing (R43, R57). -/
def edgeStamp (s : State) : Word := s.tb.ttc - BitVec.ofNat 64 (s.tb.ttc.toNat % 8) - 16

/-- SYNC_IN_EDGE: the edge is time-stamped; with SYNC_REF 1 it is a reference (R43, R57, R155, R322). -/
def execSyncInEdge (s : State) : Host.Outcome State Fault Refusal :=
  .next (if !s.pin.powerGood || s.glb.state == .dormant then s
  else
    let s1 := { s with tb := { s.tb with syncIn := edgeStamp s } }
    if s.ci.act.time.syncRef = 1 ∧ s.cyc.running = true then seeReference s1 (edgeStamp s) else s1)

/-! ## The end of settling (R175, R210, R211, R259, R270, R340) -/

/-- The doorbells agreed with this image: each raises one event, as often as it was counted (R175, R335). -/
def ringAgreed (s : State) : State :=
  let s1 := { s with grp := { s.grp with agreedBells := [] } }
  s.grp.agreedBells.foldl (fun s (sid, n) => (List.range n).foldl (fun s _ =>
    raiseFor s sid ((latest s.pim sid).getD ⟨0, 0⟩) true) s) s1

/-- The status signals of compatibility polls that turn STALE, each with a WARNING record (R302). -/
def compatStale (s : State) (old new : List PubSig) : State :=
  let stale (l : List PubSig) (sid : Sid) : Bool := l.any (fun x => x.sid == sid && qCode x.v.q == qStale)
  (((s.ci.act.gwmap.filter (·.compat)).map (·.sid)).eraseDups.filter (fun x => stale new x && !stale old x)).foldl
    (fun s x => record s .warning srcGw (cFailed .timeout) x.toNat) s

/-- Settling of I_k ends: dropout records, P_k, in a group the events of the agreed image, standalone those of ageing, then the publications and the status telegram of
the boundary and the mirror's share of the cycle. -/
def settle (s : State) (k : Mcc) : State :=
  let old := match s.pim.ring with
    | x :: _ => x.sigs
    | [] => []
  let s1 := noteAges (publish (carryRecord (dropoutRecords s k) k) k) k
  let s2 := match inGroup s, s1.pim.ring with
    | true, x :: _ => mirrorSend (ringAgreed (settledEvents (compatStale s1 old x.sigs) old x.sigs))
    | false, x :: _ => agedEvents (compatStale s1 old x.sigs) k old x.sigs
    | _, [] => s1
  sendStatus (publishPd s2 k) k

/-- SETTLING_COMPLETE, once per boundary: by t0 + 8 µs standalone, t0 + 35 µs in a group (R151, R152, R210). -/
def execSettlingComplete (s : State) : Host.Outcome State Fault Refusal :=
  .next (if s.cyc.running && s.cyc.started && s.pim.settledMcc != some s.cyc.mcc then settle s s.cyc.mcc else s)

/-! ## Releases (R104, R150, R173, R188 to R190, R362, R370, R389) -/

/-- A SAFE_ACK whose release this is, judged before the release's own work; its call completes (R389). -/
def ackAtRelease (s : State) : State :=
  match s.safe.ackDue with
  | some b =>
    if atOrBefore b s.cyc.mcc then
      let r := ackEffect s
      finishCalls r.1 0x31 (if r.2 then .ok else .refusedPolicy)
    else s
  | none => s

/-- The posted-write failures of a safety task moved to its mailbox in the island, those that had reached the queue before this boundary
(R236). -/
def safeMailbox (s : State) (task : Nat) : State :=
  let due (e : Nat × FailEnt) : Bool := e.1 == task && e.2.failMcc != s.cyc.mcc
  { s with
    txe := { s.txe with safeMail := s.txe.safeMail.filter (fun e => !due e) }
    safe := { s.safe with mailbox := s.safe.mailbox.filter (fun e => e.1 != task) ++ (s.txe.safeMail.filter due).map (fun e => (e.1, e.2.bytes)) } }

/-- A safety task released with its mailbox: FUNC_TASK with its acknowledgement, functions and reactions, another task with its coded state taken anew after a
failed check (R362, R370). -/
def releaseSafety (s : State) (r : TaskRec) : State :=
  let s1 := safeMailbox { s with glb := { s.glb with inst := s.glb.inst ++ [newInst s r] } } r.id
  if r.id = s.ci.act.safety.funcTask then releaseFunc (ackAtRelease s1)
  else { s1 with safe := { s1.safe with codeFailed := s1.safe.codeFailed.filter (· != r.id) } }

/-- Whether a task of an engine is released at the present boundary (R146, R184, R189, R190). -/
def releasesNow (s : State) (r : TaskRec) : Bool := releasedAt r s.cyc.mcc && releases s r.engine && !heldTask s r.id

/-- A task of the fabric or of the safety island released. -/
def releaseTask (s : State) (r : TaskRec) : State :=
  if !releasesNow s r then s
  else if r.engine = 0 then releaseFabric s r
  else if r.engine = 1 then releaseSafety s r
  else s

/-- TASK_RELEASE at the release offset, once per boundary: every task of the fabric and the safety island whose release boundary it is, in
order of priority (R104, R151, R152, R173). -/
def execTaskRelease (s : State) : Host.Outcome State Fault Refusal :=
  .next (if !s.cyc.running || !s.cyc.started || s.glb.relDone == some s.cyc.mcc then s
  else
    let s1 := passTo s (t0 s + BitVec.ofNat 64 (releaseOffNs s))
    let l := sortBy (fun (a b : TaskRec) => decide (a.priority < b.priority) || (a.priority == b.priority && decide (a.id ≤ b.id)))
      s1.ci.act.tasks
    l.foldl releaseTask { s1 with glb := { s1.glb with relDone := some s1.cyc.mcc } })

end Sys2Proof.Machine
end

