-- ==== Sys2Proof/Machine/GroupEvents.lean ====
section
/-! DEFINITION. Machine/GroupEvents.lean: the group links, heartbeats, orders, targets, the group's swap, agreement and votes
as events (14_replica_group; 04_configuration_image, R94 to R97). -/

namespace Sys2Proof.Machine

/-! ## Links -/

/-- Whether a group link can come up: a group's link out of reset, in a powered module that no fail-silence silences (R22, R37, R325). -/
def linkTrains (s : State) (l : GLink) : Bool :=
  inGroup s && !bit s.rst.portHeld l.port.num && s.pin.powerGood && !s.safe.failSilent

/-- GL_LINK_UP: training and block lock are complete; a standalone module keeps its links powered down (R22, R325). -/
def execGlLinkUp (l : GLink) (s : State) : Host.Outcome State Fault Refusal :=
  .next (if linkTrains s l then
    pump (rxClk (modBr s l (fun b => { b with up := true, wrong := false, crcRun := 0 })) (l.port.num - 3) true) l else s)

/-- GL_LINK_DOWN: block lock lost for 10 µs (R325, R358). -/
def execGlLinkDown (l : GLink) (s : State) : Host.Outcome State Fault Refusal :=
  .next (if (s.grp.br l).up then linkDown s l else s)

/-- CREDIT: the freed counts of the header return credits (R328). -/
def execCredit (l : GLink) (h : GlHdr) (s : State) : Host.Outcome State Fault Refusal :=
  .next (glRecv s l h .credit id)

/-- CREDIT_RETURN_TIMER: a sender with nothing else to send returns credits in a CREDIT frame (R328). -/
def execCreditReturnTimer (l : GLink) (s : State) : Host.Outcome State Fault Refusal :=
  .next (if (s.grp.br l).queues.all (fun q => q.isEmpty) then glSend s l (peerPos s l) .credit else s)

/-! ## Heartbeats (R330 to R333) -/

/-- The own heartbeat of the running boundary (R331). -/
def ownHb (s : State) : HbPay :=
  { position := ownPos s, role := s.grp.role, gstate := s.grp.state, mstate := s.glb.state, mcc := s.cyc.mcc, bttc := s.cyc.bttc
    captured := s.cyc.refPresent && !s.cyc.syncLost, timeValid := s.tb.valid, driving := drives s, stepRefused := s.tb.stepRefused
    forceAny := !s.glb.forces.isEmpty, activeRef := s.grp.activeRef, epoch := s.cul.cur.epoch, proto := s.grp.proto
    rotSeq := s.grp.rotSeq, rotLeft := s.grp.rotLeft, forceGen := s.grp.forceGen, observed := s.grp.observedHb, rack := ownRack s
    hash := s.ci.act.hdr.imageHash, serial := s.tk.fuses.serial, groupId := s.ci.act.group.groupId, latent := s.grp.latent }

/-- HB_SEND: the heartbeat of the boundary on both links, 0.5 µs after the freeze edge (R330). -/
def execHbSend (s : State) : Host.Outcome State Fault Refusal :=
  .next (if inGroup s && s.cyc.started then
    let s := passTo s (t0 s + 500)
    let b := GlBody.hb (ownHb s)
    let s0 := match s.grp.check with
      | some c => if s.grp.role == .standby || s.grp.role == .arbiter then
          { s with grp := { s.grp with check := some { c with seen := c.seen ||| s.grp.observedHb } } } else s
      | none => s
    glSend (glSend s0 .left (peerPos s .left) b) .right (peerPos s .right) b
  else s)

/-- The ACTIVE's heartbeat for the running boundary judged as it comes; one for a boundary that this member has still to reach waits for it (R333). -/
def hbActive (s : State) (p : HbPay) : State := if p.mcc = s.cyc.mcc then judgeSkew s p else s

/-- Formation as a heartbeat moves it: the lowest-numbered of the matched positions orders each newly matched peer to adopt its
MCC 16 boundaries ahead (R343 step 2). -/
def hbForm (s : State) (l : GLink) (p : HbPay) : State :=
  if s.grp.formed || !joinable s || !hbMatches s p || p.gstate != .forming || (s.grp.peer l).adoptSent then s
  else if (matchedHb s).all (fun h => decide (ownPos s < h.position)) then
    let o : OrderMsg := { issuer := ownPos s, target := s.cyc.mcc + 16, subject := p.position, arg := s.cyc.mcc + 16 }
    sendPeer (modPeer s l (fun x => { x with adoptSent := true })) p.position (.order .adoptMcc o)
  else s

/-- A returning member at a voting member's heartbeat: another hash or an incompatible version keeps it OUT, with one record; else
it asks the STANDBY, or the ACTIVE where there is none, for the transfer set (R349 steps 1 and 2, R356). -/
def hbReturn (s : State) (l : GLink) (p : HbPay) : State :=
  let gone := s.grp.role == .none || s.grp.role == .out
  if !gone || p.gstate == .forming || !p.role.voting || s.grp.outForGood || !joinable s || s.grp.xferAsked || s.grp.outDue then s
  else if !protoFits p.proto s.grp.proto then
    (if (s.grp.peer l).hashNoted then s
     else record (modPeer s l (fun x => { x with hashNoted := true })) .error srcGrp (cRefused .incompatible) (ownPos s))
  else if p.hash ≠ s.ci.act.hdr.imageHash then
    (if (s.grp.peer l).hashNoted then s
     else record (modPeer s l (fun x => { x with hashNoted := true })) .warning srcGrp (cRefused .incompatible) (ownPos s))
  else if !hbMatches s p then s
  else
    let other := (s.grp.peer l.other).hb
    let standby := match other with
      | some h => h.role == .standby
      | none => false
    if p.role == .standby || (p.role == .active && !standby) then
      let s1 := { s with grp := { s.grp with xferAsked := true } }
      glSend s1 (linkTo (ownPos s) p.position) p.position (.xferReq s.tk.fuses.serial)
    else s

/-- What a heartbeat says of its member: its epoch, role, serial, observed ports and hash (R331, R349, R352, R353, R95). A
voting member whose own hash differs from that of both others leaves the vote and swaps back at the next major cycle
boundary. -/
def hbNote (s : State) (l : GLink) (p : HbPay) (relayed : Bool) : State :=
  let old := (s.grp.peer l).hb
  let newEpoch := match old with
    | some h => h.epoch != p.epoch
    | none => false
  let back := newEpoch || p.role == .probation
  let s1 := modPeer s l (fun x => { x with
    hb := some p, observed := p.observed
    direct := if relayed then x.direct else some p.mcc, relayed := if relayed then some p.mcc else x.relayed
    lost := x.lost && !back, failSilent := x.failSilent && !back
    adoptSent := x.adoptSent && !newEpoch, hashNoted := x.hashNoted && (match old with
      | some h => h.hash == p.hash
      | none => true) })
  let s2 := if newEpoch then bumpEpoch s1 l.peer else s1
  let i := p.position - 1
  let s3 := if bit s2.grp.latent i && nthD s2.grp.latentSerial i 0 != p.serial then
      { s2 with grp := { s2.grp with latent := clrBit s2.grp.latent i } } else s2
  let s4 := if s3.grp.role.voting && (roleAt s3.grp.roles p.position).voting then s3
    else { s3 with grp := { s3.grp with roles := setNth s3.grp.roles i p.role
                                        state := if s3.grp.role.voting then s3.grp.state
                                                 else groupState s3.grp.state (setNth s3.grp.roles i p.role) } }
  let s5 := match s4.grp.check with
    | some c => if p.role == GRole.standby || p.role == GRole.arbiter then
        { s4 with grp := { s4.grp with check := some { c with seen := c.seen ||| p.observed } } } else s4
    | none => s4
  match (s5.grp.peer l.other).hb with
  | some q =>
    if s5.grp.formed && s5.grp.role.voting && p.role.voting && q.role.voting && p.hash == q.hash &&
        p.hash != s5.ci.act.hdr.imageHash && p.mcc == q.mcc && p.mcc == s5.cyc.mcc then
      { s5 with grp := { s5.grp with swapBack := true, outDue := true } }
    else s5
  | none => s5

/-- A heartbeat taken in; the ACTIVE's is judged once a boundary, by the path it comes on first. A voting member that shows OUT has left by itself and is declared by the member whose part that is. -/
def hbTake (s : State) (p : HbPay) (relayed : Bool) : State :=
  let l := linkTo (ownPos s) p.position
  let first := (s.grp.peer l).direct != some p.mcc && (s.grp.peer l).relayed != some p.mcc
  let s1 := hbNote s l p relayed
  let s2 := if p.role == .out && mayDeclare s1 p.position false && s1.grp.due.isNone then declareFailed s1 p.position else s1
  hbReturn (hbForm (if first then hbActive s2 p else s2) l p) l p

/-- GLx_LINK.PEER_EPOCH and PEER_POS: what the heartbeat over a link announces (R360, R499). -/
def announced (s : State) (l : GLink) (p : HbPay) : State :=
  modBr s l (fun b => { b with peerEpoch := p.epoch, peerPos := BitVec.ofNat 2 p.position })

/-- HB: a heartbeat from a neighbour, checked for its position, forwarded on the other link and taken in (R330, R331, R499). -/
def execHb (l : GLink) (h : GlHdr) (p : HbPay) (s : State) : Host.Outcome State Fault Refusal :=
  .next (glRecv s l h (.hb p) (fun s =>
    if p.position ≠ peerPos s l then
      record (modBr (announced s l p) l (fun b => { b with wrong := true })) .error l.port.src (cFault 0) p.position
    else
      let s1 := putFrame s l.other { hdr := { h with relayed := true, dst := peerPos s l.other }, body := .hbRelay p }
      hbTake (announced s1 l p) p false))

/-- HB_RELAY: a heartbeat that the neighbour forwarded (R330). -/
def execHbRelay (l : GLink) (h : GlHdr) (p : HbPay) (s : State) : Host.Outcome State Fault Refusal :=
  .next (glRecv s l h (.hbRelay p) (fun s => if p.position = peerPos s l.other then hbTake s p true else s))

/-- The heartbeats of one peer judged at t0 + 30 µs: each missing one counted on the link it should have come by; without
either, one more boundary of loss (R330). -/
def checkPeer (s : State) (l : GLink) : State :=
  let p := s.grp.peer l
  let d := p.direct == some s.cyc.mcc
  let r := p.relayed == some s.cyc.mcc
  let s1 := if d then s else modBr s l (fun b => { b with missDirect := satInc b.missDirect })
  let s2 := if r then s1 else modBr s1 l.other (fun b => { b with missRelayed := satInc b.missRelayed })
  modPeer (pmuCount s2 12 0x305 (if d || r then 0 else 1)) l (fun p => { p with misses := if d || r then 0 else p.misses + 1 })

/-- A loss of every peer at one boundary without an indication: the ACTIVE of DEGRADED_2 continues in SINGLE, any other member goes OUT
with a CRITICAL record, one in PROBATION too (R345). -/
def lostAll (s : State) : State :=
  if s.grp.role = .active ∧ s.grp.state = .degraded2 then
    (voters s.grp.roles).foldl (fun s p => if p = ownPos s then s else declareFailed s p) s
  else record { s with grp := { s.grp with outDue := true } } .critical srcGrp (cFault 0) (ownPos s)

/-- HEARTBEAT_CHECK at t0 + 30 µs: missing heartbeats counted from the first boundary on, a loss judged once the group has formed (R330, R344, R345). -/
def execHeartbeatCheck (s : State) : Host.Outcome State Fault Refusal :=
  .next (if !inGroup s || !s.cyc.started then s
  else
    let s1 := checkPeer (checkPeer (passTo s (t0 s + 30000)) .left) .right
    if !s1.grp.formed then s1 else
    let others := (voters s1.grp.roles).filter (· != ownPos s)
    let silent := [GLink.left, .right].any (fun l => (s1.grp.peer l).failSilent)
    if (s1.grp.role.voting || s1.grp.role == .probation) && !others.isEmpty && !silent && [GLink.left, .right].all (fun l => decide (0 < (s1.grp.peer l).misses)) then
      lostAll s1
    else [GLink.left, .right].foldl (fun s l =>
      if s.ci.act.group.nMiss ≤ (s.grp.peer l).misses && mayDeclare s (peerPos s l) false then declareFailed s (peerPos s l) else s) s1)

/-- FAIL_SILENT_INDICATION: relayed on the other link as ORDER EXCLUDE with ARG 0xFFFF_FFFF (R332, R344). -/
def execFailSilentIndication (l : GLink) (s : State) : Host.Outcome State Fault Refusal :=
  .next (if linkOk s l then
    let pos := peerPos s l
    let o : OrderMsg := { issuer := ownPos s, target := s.cyc.mcc, subject := pos, arg := 0xFFFFFFFF }
    silentIndication (glSend s l.other (peerPos s l.other) (.order .exclude o)) pos
  else s)

/-! ## Orders, acknowledgements, targets -/

/-- ORDER_TAKEOVER (R344). -/
def execOrderTakeover (l : GLink) (h : GlHdr) (o : OrderMsg) (s : State) : Host.Outcome State Fault Refusal :=
  .next (glRecv s l h (.order .takeover o) (fun s => takeOrder s h .takeover o))

/-- ORDER_EXCLUDE (R332, R344). -/
def execOrderExclude (l : GLink) (h : GlHdr) (o : OrderMsg) (s : State) : Host.Outcome State Fault Refusal :=
  .next (glRecv s l h (.order .exclude o) (fun s => takeOrder s h .exclude o))

/-- ORDER_ADOPT_MCC: acknowledged; the MCC becomes ARG at the boundary 16 boundaries after receipt (R343). -/
def execOrderAdoptMcc (l : GLink) (h : GlHdr) (o : OrderMsg) (s : State) : Host.Outcome State Fault Refusal :=
  .next (glRecv s l h (.order .adoptMcc o) (fun s =>
    let m := (matchedHb s).any (fun x => x.position == o.issuer)
    let s1 := ackFrame s h (.order .adoptMcc o) (if m then .ok else .refusedPolicy)
    if m && !s.grp.formed then { s1 with grp := { s1.grp with adoptDue := some (s.cyc.mcc + 16, o.arg) } } else s1))

/-- ORDER_ROLES: a returning member's PROBATION target (R349 step 3). -/
def execOrderRoles (l : GLink) (h : GlHdr) (o : OrderMsg) (s : State) : Host.Outcome State Fault Refusal :=
  .next (glRecv s l h (.order .roles o) (fun s =>
    let s1 := ackFrame s h (.order .roles o) .ok
    if o.subject = ownPos s ∧ s.grp.xferAsked then
      let roles := setNth (orderRoles s.grp.roles o) (ownPos s - 1) GRole.probation
      { s1 with grp := { s1.grp with due := some { at_ := o.target, roles } } }
    else s1))

/-- ACK: it ends the call that was passed to the ACTIVE in the frame it names, with the ACTIVE's status (R186, R327). -/
def execAck (l : GLink) (h : GlHdr) (type : Nat) (id : Reg32) (st : Status) (s : State) : Host.Outcome State Fault Refusal :=
  .next (glRecv s l h (.ack type id st) (fun s =>
    if type = 5 ∧ s.grp.role ≠ .active then ackSlots s id st else s))

/-- Whether a TARGET's content travels with KIND 1. -/
def kindOne : TargetArg → Bool
  | .mode _ => true
  | .safeAck => true
  | .clearLatent _ => true
  | _ => false

/-- TARGET_MODE_COMMAND: of a mode command, or of the SAFE_ACK or GROUP_CLEAR_LATENT that R186 carries in the same way. -/
def execTargetModeCommand (l : GLink) (h : GlHdr) (mcc : Mcc) (a : TargetArg) (s : State) : Host.Outcome State Fault Refusal :=
  .next (if kindOne a then glRecv s l h (.target mcc a) (fun s => takeTarget s h mcc a) else s)

/-- TARGET_FORCE_CHANGE (R186). -/
def execTargetForceChange (l : GLink) (h : GlHdr) (mcc : Mcc) (cs : List ForceCmd) (s : State) : Host.Outcome State Fault Refusal :=
  .next (glRecv s l h (.target mcc (.force cs)) (fun s => takeTarget s h mcc (.force cs)))

/-- TARGET_TIME_STEP, with the case of a refused step and the KEY_ID of its token in ARGUMENT (R315, R317). -/
def execTargetTimeStep (l : GLink) (h : GlHdr) (mcc : StepDue) (s : State) : Host.Outcome State Fault Refusal :=
  .next (glRecv s l h (.target mcc.target (.timeStep mcc.refusedCase mcc.keyId)) (fun s => takeTarget s h mcc.target (.timeStep mcc.refusedCase mcc.keyId)))

/-- TARGET_ROLE_SWAP (R351). -/
def execTargetRoleSwap (l : GLink) (h : GlHdr) (mcc : Mcc) (s : State) : Host.Outcome State Fault Refusal :=
  .next (glRecv s l h (.target mcc .roleSwap) (fun s => takeTarget s h mcc .roleSwap))

/-- TARGET_MAINT_ENTER (R355). -/
def execTargetMaintEnter (l : GLink) (h : GlHdr) (mcc : Mcc) (s : State) : Host.Outcome State Fault Refusal :=
  .next (glRecv s l h (.target mcc .maintEnter) (fun s => takeTarget s h mcc .maintEnter))

/-- TARGET_MAINT_LEAVE (R355). -/
def execTargetMaintLeave (l : GLink) (h : GlHdr) (mcc : Mcc) (s : State) : Host.Outcome State Fault Refusal :=
  .next (glRecv s l h (.target mcc .maintLeave) (fun s => takeTarget s h mcc .maintLeave))

/-! ## The group's swap (R94, R97) -/

/-- The target of a proposal: the first major cycle boundary at least 50 ms ahead, for class 3 the first boundary (R94). -/
def proposeTarget (s : State) : Mcc :=
  let b := boundaryAfter s 50000000
  if s.ci.cls = 3 then b else majorFrom s.ci.act b

/-- Whether the activation of a configuration image is in progress. -/
def ciActive (s : State) : Bool :=
  match s.upd.act with
  | some a => a.ty == .ci
  | none => false

/-- The ACTIVE proposes its VALID shadow plane while the activation is in progress; alone it commits at once (R94 step 2). -/
def sendPropose (s : State) : State :=
  if ciActive s && s.grp.role == .active && s.grp.formed && s.ci.shadow == .valid && (s.ci.swap == .idle || s.ci.swap == .aborted) &&
      decide (s.ci.aborts < 3) && (s.ci.cls != 3 || s.glb.state == .stop) then
    let x : SwapRun := { hash := s.ci.shd.hdr.imageHash, target := proposeTarget s }
    let s1 := modPeer (modPeer s .left (fun p => { p with accepted := false })) .right (fun p => { p with accepted := false })
    let s2 := { s1 with grp := { s1.grp with swap := some x }, ci := { s1.ci with swap := .proposed, swapMcc := x.target } }
    if (presentPeers s2).isEmpty then commitSwap s2 x else sendPeers s2 (.propose x.hash x.target)
  else s

/-- A member's answer to a PROPOSE (R94 step 3). -/
def proposeAnswer (s : State) (hash : Hash) : Status :=
  if shadowHash s ≠ hash then .refusedPolicy
  else match s.ci.shadow with
    | .valid => .ok
    | .loading => .deferred
    | .invalid => statusOfCode s.ci.lastStatus
    | .empty => .refusedPolicy

/-- PROPOSE: sent by the ACTIVE once its shadow plane is VALID (`rx` none), or received and answered (R94). -/
def execPropose (rx : Option (GLink × GlHdr × Hash × Mcc)) (s : State) : Host.Outcome State Fault Refusal :=
  .next (match rx with
    | none => sendPropose s
    | some (l, h, hash, mcc) => glRecv s l h (.propose hash mcc) (fun s =>
        let st := proposeAnswer s hash
        let s1 := if st = .ok ∨ st = .deferred then { s with
            grp := { s.grp with swap := some { hash, target := mcc } }
            ci := if st = .ok then { s.ci with swap := .proposed, swapMcc := mcc } else s.ci } else s
        sendPeer s1 h.src (.accept hash st)))

/-- ACCEPT: once every present member has accepted, no later than 10 ms before the target, the ACTIVE commits (R94 step 4). -/
def execAccept (l : GLink) (h : GlHdr) (hash : Hash) (st : Status) (s : State) : Host.Outcome State Fault Refusal :=
  .next (glRecv s l h (.accept hash st) (fun s =>
    match s.grp.swap with
    | some x =>
      if s.grp.role = .active ∧ x.hash = hash ∧ !x.committed ∧ st = .ok then
        acceptedAll (modPeer s (linkTo (ownPos s) h.src) (fun p => { p with accepted := true }))
      else s
    | none => s))

/-- COMMIT: a member that receives it at least 1 ms before the target swaps there (R94 step 5). -/
def execCommit (l : GLink) (h : GlHdr) (hash : Hash) (mcc : Mcc) (s : State) : Host.Outcome State Fault Refusal :=
  .next (glRecv s l h (.commit hash mcc) (fun s =>
    if s.ci.shadow = .valid ∧ s.ci.shd.hdr.imageHash = hash ∧ 1000000 ≤ nsToMcc s mcc then
      { s with grp := { s.grp with swap := some { hash, target := mcc, committed := true, inTime := true } }
               ci := { s.ci with swap := .committed, swapMcc := mcc, swapDue := true } }
    else s))

/-- A proposal aborted, and counted; the third ends the activation of this member with TIMEOUT and a WARNING record (R94 step 4). -/
def countAbort (s : State) : State :=
  let s1 := { s with grp := { s.grp with swap := none }, ci := { s.ci with swap := .aborted, aborts := s.ci.aborts + 1 } }
  if s1.ci.aborts < 3 then s1
  else
    let s2 := { s1 with ci := { s1.ci with aborts := 0 } }
    match s2.upd.act with
    | some a =>
      if ciActive s2 then nextAct (finishAct (record { s2 with upd := { s2.upd with act := none } } .warning srcGlb (cFailed .timeout)) a .timeout)
      else s2
    | none => s2

/-- ABORT: sent by the ACTIVE 10 ms before the target without full acceptance, or received (R94 step 4). -/
def execAbort (rx : Option (GLink × GlHdr × Hash)) (s : State) : Host.Outcome State Fault Refusal :=
  .next (match rx with
    | none =>
      match s.grp.swap with
      | some x => if s.grp.role = .active ∧ !x.committed then countAbort (sendEvery s (.abort x.hash)) else s
      | none => s
    | some (l, h, hash) => glRecv s l h (.abort hash) (fun s =>
        match s.grp.swap with
        | some x => if x.hash = hash ∧ !x.committed then countAbort s else s
        | none => s))

/-! ## Agreement and votes -/

/-- DELTA: entries of a peer's input delta for the boundary its header names (R334). -/
def execDelta (l : GLink) (h : GlHdr) (es : List DeltaEnt) (s : State) : Host.Outcome State Fault Refusal :=
  .next (glRecv s l h (.delta es) (fun s =>
    let n := deltaSize es
    modBr (modPeer s (linkTo (ownPos s) h.src) (fun p =>
      if p.deltaMcc = h.mcc then { p with delta := p.delta ++ es, frames := p.frames + 1 }
      else { p with deltaMcc := h.mcc, delta := es, frames := 1, deltaEnd := none })) l
      (fun b => { b with deltaRx := if (s.grp.peer (linkTo (ownPos s) h.src)).deltaMcc = h.mcc then b.deltaRx + n else n })))

/-- DELTA_END: the peer's delta is complete when its counts agree; after t0 + 28 µs it comes too late for its boundary (R335). -/
def execDeltaEnd (l : GLink) (h : GlHdr) (entries frames : Nat) (s : State) : Host.Outcome State Fault Refusal :=
  .next (glRecv s l h (.deltaEnd entries frames) (fun s => if h.mcc = s.cyc.mcc ∧ !atOrBefore s.tb.ttc (t0 s + 28000) then s else
    modPeer s (linkTo (ownPos s) h.src) (fun p =>
      if p.deltaMcc = h.mcc then { p with deltaEnd := some (entries, frames) }
      else { p with deltaMcc := h.mcc, delta := [], frames := 0, deltaEnd := some (entries, frames) })))

/-- Consecutive agreed images held before formation: every matched member's delta has counted (R343 step 4). -/
def countAgreed (s : State) : State :=
  if s.grp.formed then s
  else
    let ds := deltasAt s s.cyc.mcc
    let all := (matchedHb s).all (fun h => h.mcc == s.cyc.mcc && ds.any (fun d => d.1 == h.position))
    { s with grp := { s.grp with agreedRun := if all then s.grp.agreedRun + 1 else 0 } }

/-- INPUT_AGREEMENT at t0 + 30 µs: the agreed content of every SID, then the completion masks (R335, R337). -/
def execInputAgreement (s : State) : Host.Outcome State Fault Refusal :=
  .next (if inGroup s && s.cyc.started then
    mirrorStart (judgeCompletion (agreeInputs (countAgreed (passTo s (t0 s + 30000))) s.cyc.mcc) s.cyc.mcc) s.cyc.mcc else s)

/-- VOTE_SEND at the release point: every voting member and every member in PROBATION sends its votes, but one whose image hash differs from that
of the members that vote; 63 votes fit a frame (R23, R325, R338). -/
def execVoteSend (s : State) : Host.Outcome State Fault Refusal :=
  .next (if inGroup s && s.grp.formed && (s.grp.role.voting || s.grp.role == .probation) && s.ci.act.hdr.imageHash == voteHash s then
    let s := passTo s (s.cyc.timerTtc - 60000)
    let vs := ownVotes s
    (if vs.isEmpty then [[]] else pieces 63 vs).foldl (fun s es => sendPeers s (.vote es)) { s with grp := { s.grp with ownVotes := vs } }
  else s)

/-- VOTE: a peer's votes; one that comes after t0 + T - 30 µs is late (R338). -/
def execVote (l : GLink) (h : GlHdr) (es : List VoteEnt) (s : State) : Host.Outcome State Fault Refusal :=
  .next (glRecv s l h (.vote es) (fun s =>
    if 30000 ≤ nsToBoundary s then
      modPeer s (linkTo (ownPos s) h.src) (fun p => { p with
        votes := some (if p.votesMcc = h.mcc then p.votes.getD [] ++ es else es), votesMcc := h.mcc })
    else s))

/-- VOTE_DECIDE at t0 + T - 28 µs (R339). -/
def execVoteDecide (s : State) : Host.Outcome State Fault Refusal :=
  .next (if inGroup s && s.grp.formed && (s.grp.role.voting || s.grp.role == .probation) then
    decideVotes (passTo s (s.cyc.timerTtc - 28000)) else s)

/-- MIRROR: words of the ACTIVE's mirror compared with the own buffer, or what another member reports to differ (R340). -/
def execMirror (l : GLink) (h : GlHdr) (es : List DeltaEnt) (s : State) : Host.Outcome State Fault Refusal :=
  .next (glRecv s l h (.mirror es) (fun s => mirrorTake s h.src es))

/-! ## Return (R349) -/

/-- XFER_REQ: the STANDBY, or the ACTIVE where there is none, sends the transfer set of the present boundary and ORDER ROLES with
the target 16 boundaries on; a marked position stays excluded while the serial is the marked one (R349, R353). -/
def execXferReq (l : GLink) (h : GlHdr) (serial : Word) (s : State) : Host.Outcome State Fault Refusal :=
  .next (glRecv s l h (.xferReq serial) (fun s =>
    let i := h.src - 1
    let marked := bit s.grp.latent i && nthD s.grp.latentSerial i 0 == serial
    if (s.grp.role = .standby ∨ s.grp.role = .active) ∧ !marked ∧ h.src ≠ 0 then
      let ps := transferSet s
      let s1 := (withOffsets 0 (ps.flatMap cutPart)).foldl (fun s (n, p) => glSend s l h.src (.xferData n p) h.tag) s
      let find := fun (r : GRole) => (([1, 2, 3].filter (fun p => roleAt s.grp.roles p == r)).head?).getD 0
      let o : OrderMsg := { issuer := ownPos s, target := s.cyc.mcc + 16, active := find GRole.active, standby := find GRole.standby
                            arbiter := find GRole.arbiter, subject := h.src }
      glSend s1 l h.src (.order .roles o)
    else s))

/-- XFER_DATA: a part of the transfer set taken by the member that asked for it (R349). -/
def execXferData (l : GLink) (h : GlHdr) (off : Nat) (p : XferPart) (s : State) : Host.Outcome State Fault Refusal :=
  .next (glRecv s l h (.xferData off p) (fun s => if s.grp.xferAsked then takePart s l p else s))

/-- FORMING_TIMEOUT: 10 s of operation since the first boundary without a further match (R343 step 4). -/
def execFormingTimeout (s : State) : Host.Outcome State Fault Refusal :=
  .next (if inGroup s && !s.grp.formed && (match s.grp.firstOp with
      | some x => decide (x + 100 ≤ s.cul.optime.toNat)
      | none => false) then { s with grp := { s.grp with formTimeout := true } } else s)

/-- PROBATION_END of a position: its roles anew; the own one only once its seconds of operation have run out; suspended in MAINTENANCE, and
behind a rotation target it waits for the next major cycle boundary after it (R10, R349, R355, R358). -/
def execProbationEnd (pos : Nat) (s : State) : Host.Outcome State Fault Refusal :=
  .next (if (pos != ownPos s || s.grp.probLeft == 0) && inGroup s && s.grp.formed && roleAt s.grp.roles pos == .probation && !bit s.grp.latent (pos - 1) then
    (if s.grp.state = .maintenance ∨ s.grp.due.isSome ∨ s.grp.swapDue.isSome then
      { s with grp := { s.grp with probWait := pos :: s.grp.probWait.filter (· != pos), probLeft := if pos = ownPos s then 0 else s.grp.probLeft } }
    else
      let s1 := reassign s pos
      { s1 with grp := { s1.grp with probLeft := if pos = ownPos s then 0 else s.grp.probLeft } })
  else s)

/-! ## Rotation (R351 to R353) -/

/-- ROTATION_MINUTE, a minute of operation: GRP_ROT_LEFT decrements in NOMINAL and DEGRADED_2; the ACTIVE at zero sets the rotation's target
(R10, R351). -/
def execRotationMinute (s : State) : Host.Outcome State Fault Refusal :=
  .next (if s.tk.running && s.glb.state != .dormant && s.grp.formed && (s.grp.state == .nominal || s.grp.state == .degraded2) then
    let n := if s.grp.rotLeft = 0 then 0 else s.grp.rotLeft - 1
    let s1 := { s with grp := { s.grp with rotLeft := n } }
    if n = 0 ∧ s.grp.role = .active ∧ s.grp.swapDue.isNone then setTarget s1 (swapTarget s1) .roleSwap else s1
  else s)

/-- The ports the image makes the ACTIVE transmit on, in the bits of OBSERVED (R331, R352). -/
def transmitPorts (g : ConfImage) : BitVec 5 :=
  g.iomap.foldl (fun m r => match r with
    | .pdPub _ _ _ _ _ _ _ _ _ a b _ _ _ => m ||| (if a then 1 else 0) ||| (if b then 2 else 0)
    | .mvbPort _ _ src _ => if src then m ||| 4 else m
    | .mvbMfl .. => m ||| 4
    | .canId p tx .. => if tx then m ||| (if p = 0 then 8 else 16) else m
    | _ => m) 0

/-- The check window in minor cycles: 8, or the longest transmit period of a PD_PUB, CAN_ID or MVB_MFL record where that is longer, at most 1 s
(R352). -/
def checkWindow (g : ConfImage) : Nat :=
  let long := g.iomap.foldl (fun n r => max n (match r with
    | .pdPub _ _ _ _ _ pexp _ _ _ _ _ pull _ _ => if pull then 0 else 2 ^ pexp
    | .canId _ true _ _ _ _ _ pexp _ => 2 ^ pexp
    | .mvbMfl _ _ slot => ceilDiv (2 ^ (slot / 32 % 8) * 1000) g.time.tbaseUs
    | _ => 0)) 8
  min long (max 1 (1000000 / g.time.tbaseUs))

/-- DRIVE_CHECK: the window ends. With a port that no other voting member reported, the swap is undone at the next boundary:
ROT_SEQ returns and with it the roles of its permutation among the members not marked; the ACTIVE of the swap is marked, goes OUT and writes an ERROR
record (R342, R352, R353). -/
def execDriveCheck (s : State) : Host.Outcome State Fault Refusal :=
  .next (match s.grp.check with
    | none => s
    | some c =>
      let need := transmitPorts s.ci.act
      if before s.cyc.mcc (c.at_ + BitVec.ofNat 32 (checkWindow s.ci.act)) then s
      else if need &&& ~~~c.seen = 0 then { s with grp := { s.grp with check := none } }
      else
        let bad := activePos s
        let roles := assignRoles c.oldSeq (setBit s.grp.latent (bad - 1)) (voters c.oldRoles) c.oldRoles
        let d : RolesDue := { at_ := nextMcc s, roles, undo := true, marked := bad }
        let s1 := { s with grp := { s.grp with check := none, rotSeq := c.oldSeq, due := some d } }
        if bad = ownPos s then record s1 .error srcGrp (cFault 0) bad else s1)

end Sys2Proof.Machine
end

