-- ==== Sys2Proof/Machine/TimeEvents.lean ====
section
/-! DEFINITION. Machine/TimeEvents.lean: steps of train time, timeouts of masters, PTP messages of the module's own
(13_time_base, R307 to R319; 07_cycle_boundary_and_launch, R169). -/

namespace Sys2Proof.Machine

/-! ## Steps (R314, R315, R317, R169) -/

/-- Whether a step makes a pending launch fire at once: it now lies at or before the TTC, or more than 2 s after it (R169). -/
def stepFires (ttc : Word) (l : Launch) : Bool :=
  let d := (l.ttc - ttc).toInt
  decide (d ≤ 0) || decide (2000000000 < d)

/-- The launches that a step makes due: fired at once in the order of the queues, then of the comparators, and counted as LATE (R169, R171). -/
def fireStepped (s : State) : State :=
  let due := (s.cyc.queues.flatten ++ s.cyc.evtLaunch.filterMap id).filter (stepFires s.tb.ttc)
  due.foldl fireLate { s with cyc := { s.cyc with
    queues := s.cyc.queues.map (fun q => q.filter (fun l => !stepFires s.tb.ttc l))
    evtLaunch := s.cyc.evtLaunch.map (fun o => o.filter (fun l => !stepFires s.tb.ttc l)) } }

/-- The TTC moved by a step of o ns: the cycle timer and every time that counts operating time keep their distance, pending launches
their train time (R154, R169, R312). -/
def stepTtc (s : State) (o : Int) : State :=
  let mv (t : Word) : Word := t - BitVec.ofInt 64 o
  fireStepped { s with
    tb := { s.tb with
      ttc := mv s.tb.ttc
      gmAt := mv s.tb.gmAt
      a := { s.tb.a with sync := none, req := none }
      b := { s.tb.b with sync := none, req := none } }
    cyc := { s.cyc with timerTtc := mv s.cyc.timerTtc }
    mvb := { s.mvb with bpStart := mv s.mvb.bpStart }
    can0 := { s.can0 with pend := s.can0.pend.map (fun p => { p with ready := mv p.ready }) }
    can1 := { s.can1 with pend := s.can1.pend.map (fun p => { p with ready := mv p.ready }) }
    fab := { s.fab with tiles := s.fab.tiles.map (fun t => { t with relTtc := mv t.relTtc, winStart := mv t.winStart }) }
    txe := { s.txe with
      tags := s.txe.tags.map (fun t => { t with due := t.due.map mv })
      cool := s.txe.cool.map (fun x => (x.1, mv x.2)) }
    eth := { s.eth with
      ports := s.eth.ports.map (fun p => { p with gclEndTtc := mv p.gclEndTtc })
      subs := s.eth.subs.map (fun x => { x with
        held := x.held.map (fun h => { h with due := mv h.due }), senders := x.senders.map (fun y => { y with last := mv y.last }) })
      nodes := s.eth.nodes.map (fun x => { x with last := mv x.last })
      reasm := s.eth.reasm.map (fun x => { x with since := mv x.since })
      supAt := mv s.eth.supAt, arpAt := mv s.eth.arpAt }
    safe := { s.safe with silentAt := mv s.safe.silentAt, pulseAt := s.safe.pulseAt.map mv }
    rst := { s.rst with wdogEnd := mv s.rst.wdogEnd, wdogStall := s.rst.wdogStall.map mv }
    pin := { s.pin with warn := s.pin.warn.map (fun w => { w with since := mv w.since }) }
    clk := { s.clk with first := s.clk.first.map (fun x => (mv x.1, x.2)) } }

/-- The offset a step applies: an accepted refused step the one measured last, every other the own confirmed one; none where nothing is confirmed
here (R314, R315, R317, assumption 215). -/
def stepOffset (s : State) (d : StepDue) : Option Int := if d.refusedCase ≠ 0 ∧ s.tb.valid = true then some s.tb.offset else s.tb.confirmed

/-- The step due is over. -/
def stepDone (s : State) : State := { s with tb := { s.tb with stepRefused := false, acceptPending := false, stepDue := none } }

/-- A step of o ns applied: ACQUIRING begins, a first lock sets TIME_VALID, a NOTICE record gives the size and, of a step that was refused, the case and
the KEY_ID (R306, R313 to R317). -/
def applyStep (s : State) (d : StepDue) (o : Int) : State :=
  let s1 := stepDone (stepTtc s o)
  let s2 := tbState (freshRun { s1 with tb := { s1.tb with valid := true, acceptedCnt := satInc s1.tb.acceptedCnt } }) .acquiring
  record s2 .notice srcTime (cChange 1) d.refusedCase
    (if d.refusedCase = 0 then beBytes 8 (BitVec.ofInt 64 o).toNat
     else beBytes 8 (BitVec.ofInt 64 o).toNat ++ [BitVec.ofNat 8 d.refusedCase] ++ (beBytes 16 d.keyId.toNat).take 7)

/-- TIME_STEP at t0 + 100 µs of the step boundary; a member that has confirmed nothing keeps its time (R314, R315, R317, assumption 215). -/
def execTimeStep (s : State) : Host.Outcome State Fault Refusal :=
  .next (match s.tb.stepDue with
    | none => s
    | some d =>
      if !atOrBefore d.target s.cyc.mcc || !s.cyc.started then s
      else
        let s1 := passTo s (t0 s + 100000)
        match stepOffset s d with
        | some o => applyStep s1 d o
        | none => { s1 with tb := { s1.tb with stepDue := none, acceptPending := false } })

/-! ## Masters lost (R309, R313, R319) -/

/-- ANNOUNCE_TIMEOUT on a plane: it has no master; a master-capable module serves there itself; the time base moves to the other plane or holds over
(R309, R313, R319, R321). On a plane that has timed out already, or runs no clock, nothing happens. -/
def execAnnounceTimeout (b : Bool) (s : State) : Host.Outcome State Fault Refusal :=
  .next (if !ptpOn s b || ((ptpOf s b).best.isNone && (ptpOf s b).timedOut) then s
    else
      let s0 := { s with tb := { s.tb with
        discards := satInc s.tb.discards, gmAt := if s.tb.a.asGm || s.tb.b.asGm then s.tb.gmAt else s.tb.ttc } }
      let s1 := modPtp s0 b (fun p => { p with
        best := none, sync := none, offset := none, asGm := gmCapable s && ptpOn s b, gmId := 0, timedOut := true })
      if s.tb.selB = b then planeLost s1 else s1)

/-- SYNC_TIMEOUT: three sync intervals on the selected plane without a valid Sync: with no master on the other plane HOLDOVER
(R313, R318). -/
def execSyncTimeout (s : State) : Host.Outcome State Fault Refusal :=
  .next (let s1 := { s with tb := { s.tb with discards := satInc s.tb.discards } }
    if (ptpOf s !s.tb.selB).best.isSome then s1
    else if s.tb.state = .locked ∨ s.tb.state = .acquiring then tbState s1 .holdover else s1)

/-! ## The module's own messages (R307, R308, R319) -/

/-- PTP_DELAY_REQ on a plane: Pdelay_Req under 802.1AS, else a Delay_Req while the plane has a master; every member sends its own
(R307, R308). -/
def execPtpDelayReq (b : Bool) (s : State) : Host.Outcome State Fault Refusal :=
  .next (if !ptpOn s b then s
    else if asProfile s b then sendPtp s b (.pdelayReq (clockId s))
    else if (ptpOf s b).best.isSome then sendPtp s b (.delayReq (clockId s)) else s)

/-- PTP_MASTER_SEND on a plane: where the module is best it is grandmaster and sends Sync and Announce (R319). -/
def execPtpMasterSend (b : Bool) (s : State) : Host.Outcome State Fault Refusal :=
  .next (let p := ptpOf s b
    let best := match p.best with
      | none => true
      | some d => (ownDs s).better d
    if ptpOn s b && gmCapable s && best then
      let s0 := { s with tb := { s.tb with gmAt := if s.tb.a.asGm || s.tb.b.asGm then s.tb.gmAt else s.tb.ttc } }
      let s1 := modPtp s0 b (fun p => { p with asGm := true, best := none, gmId := 0 })
      sendPtp (sendPtp s1 b (.announce (ownDs s) 0 0)) b (.sync (clockId s) 0)
    else modPtp s b (fun p => { p with asGm := false }))

/-- GM_TIME_VALID: 2 s as grandmaster with TIME_VALID clear set it on the time loaded from the Cullet, with a WARNING record
(R319). -/
def execGmTimeValid (s : State) : Host.Outcome State Fault Refusal :=
  .next (if (s.tb.a.asGm || s.tb.b.asGm) && !s.tb.valid then
    let s1 := passTo s (s.tb.gmAt + 2000000000)
    record { s1 with tb := { s1.tb with valid := true } } .warning srcTime (cChange 2)
  else s)

end Sys2Proof.Machine
end

