-- ==== Sys2Proof/Machine/BoundaryEvents.lean ====
section
/-! DEFINITION. Machine/BoundaryEvents.lean: the boundary: commit and freeze, modes and forces, the safe outputs' commands, packing, the swap of
the planes, releases to the application cluster, the next cycle's length and what else each boundary does (07_cycle_boundary_and_launch,
R146 to R166; 08_tasks_modes_forcing, R174 to R196; 20_performance_counters, R489 to R491). -/

namespace Sys2Proof.Machine

/-! ## Handlers (R141, R179) -/

/-- The outputs of the handlers that have ended, as staging entries for this boundary in the order of execution. -/
def handEnts (s : State) (k : Mcc) : List StgEnt := s.glb.handOuts.flatMap (fun h => drainEnts s.ci.act h.writes k none)

/-- The CAN frames and MVB source ports that carry signals of event task n alone, with their payload sizes (R179). -/
def explicitFrames (g : ConfImage) (n : Nat) : List (OutFrame × Nat) :=
  let mine (bus frame : Nat) : Bool := writersOf g (sidsTo g bus frame) == [BitVec.ofNat 8 (0x20 + n)]
  g.iomap.filterMap (fun r => match r with
    | .mvbPort addr fcode true _ => if mine 0 addr then some (⟨true, addr⟩, mvbSize fcode) else none
    | _ => none) ++
  (canIds g).filterMap (fun (i, r) => match r with
    | .canId port true dlc .. =>
      if mine (if port = 0 then 1 else 2) i && !isPollFrame g i then some (⟨false, i⟩, dlcLen dlc) else none
    | _ => none)

/-- The frames that this boundary's handlers launch at times of their own. -/
def explicitNow (s : State) : List OutFrame :=
  (s.glb.handOuts.filter (fun h => h.launch.isSome)).flatMap (fun h => (explicitFrames s.ci.act h.task).map (·.1))

/-- One frame packed from the values of the image. -/
def packOne (s : State) (vals : List PubSig) (acc : List LaunchItem × Gw) (f : OutFrame × Nat) : List LaunchItem × Gw :=
  let bus : Nat := if f.1.mvb then 0 else match (canIds s.ci.act)[f.1.no]? with
    | some (_, .canId 1 ..) => 2
    | _ => 1
  let p := packFrame s.ci.act acc.2 vals bus f.1.no f.2
  (acc.1 ++ [if f.1.mvb then .mvb f.1.no p.1 (issueNow s .mvb) else .can f.1.no p.1 (issueNow s (canUnit (bus - 1)))], p.2)

/-- A handler's frames put into the comparator of its event task: not before 10 µs after the boundary, else LATE; a comparator still pending is
replaced, which counts as COLLAPSED; a time that the comparator reads as past fires at once (R167, R169, R179). -/
def launchHandler (vals : List PubSig) (s : State) (h : HandlerOut) : State :=
  let fs := explicitFrames s.ci.act h.task
  match h.launch with
  | none => s
  | some t =>
    if fs.isEmpty || bit s.rst.portHeld 8 then s
    else
      let p := fs.foldl (packOne s vals) ([], s.gw)
      let lo := s.cyc.bttc + 10000
      let late := decide ((t - lo).toInt < 0)
      let tm := if late then lo else t
      let l : Launch := ⟨tm.setWidth 32, tm, p.1⟩
      let due := launchDue s l
      let s1 := { pmuCount s 9 0x247 (itemConvs s.ci.act p.1) with
        gw := p.2
        cyc := { s.cyc with
          evtLaunch := setNth s.cyc.evtLaunch h.task (if due then none else some l)
          late := if late || due then satInc s.cyc.late else s.cyc.late
          collapsed := if (nthD s.cyc.evtLaunch h.task none).isSome then satInc s.cyc.collapsed else s.cyc.collapsed } }
      if due then fireLaunch s1 l else s1

/-- The handlers' records written with their commit (R141). -/
def handlerRecs (s : State) : State :=
  s.glb.handOuts.foldl (fun s h => h.recs.foldl (fun s x => writeStaged s (0x20 + h.task) h.tile.val x) s) s

/-! ## Instances that end (R106, R149, R182, R337) -/

/-- Whether an instance ended whole. -/
def Instance.whole (i : Instance) : Bool := i.complete && !i.broken && !i.discard

/-- The instances whose period ends at k, in the order of R173. -/
def endingAt (s : State) (k : Mcc) : List Instance :=
  sortBy (instBefore s.ci.act) (s.glb.inst.filter (fun i => atOrBefore i.fin k))

/-- One instance of a voting member: its outputs committed when complete, else discarded; it counts once the masks have been compared (R106,
R337). -/
def endOwn (s : State) (i : Instance) : State :=
  match taskRec s.ci.act i.task with
  | none => dropInst s i.task i.rel
  | some r => if i.whole then commitOuts s r i else dropInst s i.task i.rel

/-- Whether a safety task overran: the cause 0x03 of the island safe state outside a vote (R363, R388). -/
def safetyOverrun (g : ConfImage) (l : List Instance) : Bool :=
  l.any (fun i => !i.whole && !i.discard && (match taskRec g i.task with
    | some r => r.engine == 1
    | none => false))

/-- The instances whose period ends at k ended (R106, R149, R182, R337, R388). -/
def endAt (s : State) (k : Mcc) : State :=
  let now := endingAt s k
  if judgedByGroup s then
    let s1 := { s with
      glb := { s.glb with inst := s.glb.inst.filter (fun i => !atOrBefore i.fin k) }
      grp := { s.grp with ended := now.filter (fun i => !i.discard) } }
    now.foldl endOwn s1
  else
    let s1 := endInstances s k
    if safetyOverrun s.ci.act now then enterIsland s1 0x03 true else s1

/-! ## Commit and freeze (R149, R208, R210, R334 to R336) -/

/-- The writes that members agree on taken out of staging for the delta, and the failures of a formed group's members: the ACTIVE's count
alone (R334, R335). -/
def splitAgreed (s : State) (k : Mcc) : State :=
  if !inGroup s then s
  else
    let mine (e : StgEnt) : Bool := atOrBefore e.target k && isAgreed s.ci.act e.sid
    { s with
      pim := { s.pim with
        staging := s.pim.staging.filter (fun e => !mine e)
        wfPend := if s.grp.formed && s.grp.role != .active then [] else s.pim.wfPend }
      grp := { s.grp with ownWrites := s.grp.ownWrites ++ s.pim.staging.filter mine, prevDyn := s.pim.dyn } }

/-- The marks that the ACTIVE reports: every signal whose last write failed (R219, R335). -/
def noteMarks (s : State) : State :=
  { s with grp := { s.grp with ownMarks := if s.grp.role = .active then (s.pim.dyn.filter (·.wf)).map (·.sid) else [] } }

/-- The commit of boundary k and the freeze of I_k: handlers' outputs, complete instances, accepted writes. -/
def commitAt (s : State) (k : Mcc) : State :=
  let s1 := { s with pim := { s.pim with staging := s.pim.staging ++ handEnts s k } }
  let s2 := endAt (handlerRecs (applyVotes s1 k)) k
  let s3 := commitStaging (splitAgreed s2 k) k
  noteMarks { s3 with pim := eccLeft s3.ci.act s3.pim }

/-! ## Triggers (R175, R196) -/

/-- The trigger SIDs of an image. -/
def trigSids (g : ConfImage) : List Sid := ((g.tasks.filter (fun t => t.kind == 1)).map (·.triggerSid)).eraseDups

/-- What a trigger shows: a force's value, a substitute while one stands, else the writer's (R183, R191, R196). -/
def seenAs (s : State) (sid : Sid) : Word × BitVec 4 :=
  match forceOf s sid, sigRec s.ci.act sid, dynOf s.pim sid with
  | some f, _, _ => (f.val, f.code)
  | none, some r, some d => if d.subst then (substVal r d.val, qSubst) else (d.val, d.code)
  | _, _, _ => (0, qUninit)

/-- The triggers that a commit of tasks changes. -/
def committedTrig (old new : State) : List Sid :=
  (trigSids new.ci.act).filter (fun sid => (match sigRec new.ci.act sid with
    | some r => decide (r.writer.toNat < 0x30)
    | none => false) && seenAs old sid != seenAs new sid)

/-- The triggers that a change of the forces changes. -/
def forcedTrig (old new : State) : List Sid := (trigSids new.ci.act).filter (fun sid => seenAs old sid != seenAs new sid)

/-- Standalone the events of what changed at this boundary raised at the freeze edge (R175, R196). -/
def raiseChanged (s : State) (k : Mcc) (l : List Sid) : State :=
  if inGroup s then s
  else l.eraseDups.foldl (fun s sid => match sigRec s.ci.act sid with
    | some r => raiseNoted s sid (settleSig s k r ((dynOf s.pim sid).getD (freshDyn r))) k
    | none => s) s

/-! ## Modes (R160, R185 to R193, R243, R287, R340, R393) -/

/-- SYNC_LOST with cause NO_REF at the boundary at which RUN begins, when no reference has been present since the reset (R160). -/
def noReference (s : State) : State :=
  if s.ci.act.time.syncRef ≠ 3 ∧ s.cyc.refPresent = false ∧ s.cyc.everMatched = false ∧ s.cyc.pendRef = none ∧ s.cyc.syncLost = false then
    loseSync s .noRef s.cyc.ePrev
  else s

/-- RUN begins at this boundary: the restart, the island's state, frozen banks released, the CANopen nodes started; in a group at a warm
start the ACTIVE's restart values follow with its delta (R160, R188, R193, R243, R287, R340, R393). -/
def beginRun (s : State) (cold : Bool) : State :=
  let s1 := enterRun s cold
  let s2 := { s1 with
    glb := { s1.glb with runAt := some s.cyc.mcc }
    safe := if cold then s1.safe.cold else s1.safe.warm
    arb := { s1.arb with freeze := 0, idle := 0 }
    grp := { s1.grp with warmAt := if inGroup s && !cold then some s.cyc.mcc else none } }
  canNmt (noReference s2) 0x01

/-- Whether a START may bring RUN: standalone, or a member of a formed group whose straps let it join (R14, R22, R34). -/
def mayRun (s : State) : Bool := !inGroup s || (s.grp.formed && joinable s)

/-- The entry into DORMANT lapses: VSTBY has fallen below its minimum since the command was accepted (R39, R185). -/
def dormantLapse (s : State) : State :=
  record { s with rst := { s.rst with dormantPending := false } } .notice srcGlb (cRefused .refusedPolicy) ModeCmd.dormant.call

/-- A mode command at its boundary (R187 to R191, R456). -/
def takeMode (s : State) : ModeCmd → State
  | .startWarm => if s.glb.state = .stop ∧ mayRun s = true then beginRun s false else s
  | .startCold => if s.glb.state = .stop ∧ mayRun s = true then beginRun s true else s
  | .stop => if s.glb.state = .run ∨ s.glb.state = .hold then enterStop s .command else s
  | .hold => if s.glb.state = .run then setState s .hold else s
  | .cont =>
    if s.glb.state = .hold then
      setState { s with glb := { s.glb with stepping := false, stepLeft := 0, holdDrained := false } } .run else s
  | .step n =>
    if s.glb.state = .hold then { s with glb := { s.glb with stepping := true, stepLeft := n, holdDrained := false } } else s
  | .dormant => if s.glb.state ≠ .stop then s else if s.pin.vstbyLow then dormantLapse s else enterDormant s

/-- Whether a class 3 swap takes place at boundary k: a START due there lapses with it (R90, R185). -/
def class3At (s : State) (k : Mcc) : Bool :=
  s.ci.swapDue && atOrBefore s.ci.swapMcc k && s.ci.shadow == .valid && changeClass s s.ci.shd == 3

/-- Mode changes of this boundary: STOP for a halted fabric first, then the pending command whose boundary has come; STEP_LEFT is lowered at each boundary
after the one that sets it (R117, R185, R187, R190, assumption 190). -/
def modesAt (s : State) (k : Mcc) : State :=
  let s0 := { s with glb := { s.glb with stepLeft := s.glb.stepLeft - 1 } }
  let s1 := if !s0.glb.haltStop then s0
    else if s0.glb.state = .run ∨ s0.glb.state = .hold then ownStop s0 .fabricHalted
    else { s0 with glb := { s0.glb with haltStop := false } }
  match s1.glb.pendCmd with
  | some c => if atOrBefore s1.glb.tgtMcc k && !(isStart c && class3At s1 k) then takeMode { s1 with glb := { s1.glb with pendCmd := none } } c else s1
  | none => s1

/-- Whether an ENGINE 0 or ENGINE 2 instance or a handler is in flight (R189). -/
def inFlight (s : State) : Bool :=
  s.glb.inst.any (fun i => match taskRec s.ci.act i.task with
    | some r => r.engine != 1
    | none => false) || s.fab.tiles.any (fun t => t.hand.isSome)

/-- STEPPING and HOLD_DRAINED in HOLD (R189, R190). -/
def drainedAt (s : State) : State :=
  if s.glb.state = .hold then
    let st := s.glb.stepping && (decide (0 < s.glb.stepLeft) || inFlight s)
    { s with glb := { s.glb with stepping := st, holdDrained := !st && !inFlight s } }
  else s

/-- Whether the state is RUN or HOLD. -/
def running (s : State) : Bool := s.glb.state == .run || s.glb.state == .hold

/-- Forces whose boundary has come, with FORCE_GEN of the heartbeat (R195, R331). -/
def forcesAt (s : State) (k : Mcc) : State :=
  let s1 := forcesEffect s k
  if s1.glb.forces = s.glb.forces then s1 else { s1 with grp := { s1.grp with forceGen := s1.grp.forceGen + 1 } }

/-! ## Safe outputs (R168, R191, R381) -/

/-- Whether this member's own latches and state let an output be energised. -/
def soAllowed (s : State) (n : Nat) : Bool :=
  let o := nthD s.safe.so n {}
  s.safe.cause == 0 && !o.faultHigh && !o.faultLow && running s

/-- The commands of this boundary: those of a commit of FUNC_TASK, in a formed group the decided ones; both off where RUN and HOLD end. -/
def safeOutAt (s : State) (k : Mcc) (func was : Bool) (voted : Option (List VoteEnt)) : State :=
  if was && !running s then commitSo s false false
  else if !func then s
  else if inGroup s && s.grp.formed then
    let v : Word := match voted with
      | some l => ((l.find? (fun e => e.sid == 0)).map (·.val)).getD 0
      | none => 0
    commitSo s (bit v 0 && soAllowed s 0) (bit v 1 && soAllowed s 1)
  else commitSo s (soCommand s 0 (demandAt s k 0)) (soCommand s 1 (demandAt s k 1))

/-! ## Releases to the application cluster (R174) -/

/-- An ENGINE 2 task released: its bit, the notification with its priority, the instance (R173, R174). -/
def releaseRuntime (s : State) (r : TaskRec) : State :=
  if r.engine = 2 ∧ releasesNow s r = true then
    { s with
      glb := { s.glb with inst := s.glb.inst ++ [newInst s r], taskRel := setBit s.glb.taskRel r.id }
      out := .irqTask r.id s.cyc.mcc r.priority :: s.out }
  else s

/-! ## Performance dumps (R489 to R491) -/

/-- A counter that could not be written counts as LOST (R491). -/
def dumpLost (s : State) : State := { s with pmu := { s.pmu with lost := satInc s.pmu.lost } }

/-- The selected instances. -/
def dumpSel (p : Pmu) : List Nat := (List.range 13).filter (fun i => p.sel.getLsbD i)

/-- The 80-byte block of an instance (R490). -/
def dumpBlock (p : Pmu) (i : Nat) : List Byte :=
  let x := nthD p.inst i {}
  let fl : Nat := (if p.prev.contains (i, x.gen) then 1 else 0) + (if p.ovfSince.contains i then 2 else 0)
  [BitVec.ofNat 8 i, BitVec.ofNat 8 fl] ++ leBytes 2 x.gen.toNat ++ leBytes 4 0 ++ leBytes 8 (x.cycT / 10) ++
    x.cnt.flatMap (fun c => leBytes 8 c.toNat)

/-- The length of a record. -/
def dumpLen (p : Pmu) : Nat := 64 * ((64 + 80 * (dumpSel p).length + 63) / 64)

/-- The bytes of the record of boundary k (R490). -/
def dumpBytes (s : State) (k : Mcc) : List Byte :=
  let p := s.pmu
  padTo (dumpLen p) ([0x53, 0x56, 0x50, 0x44] ++ leBytes 4 p.seq.toNat ++ leBytes 4 k.toNat ++ leBytes 2 p.sel.toNat ++
    leBytes 2 (dumpLen p) ++ leBytes 8 s.cyc.bttc.toNat ++ leBytes 4 p.lost.toNat ++ List.replicate 36 0 ++
    (dumpSel p).flatMap (dumpBlock p))

/-- The record begun as one DMA transaction, or LOST: a full ring, no tag, no power (R491). -/
def dumpBegin (s : State) (k : Mcc) : State :=
  let p := s.pmu
  let n := 2 ^ p.size.toNat
  if (p.tail.toNat + 1) % n = p.head.toNat % n then dumpLost s
  else if !tagFree s .dma then dumpLost (noteTags s .dma .refusedCapacity)
  else if !dmaStarts s then dumpLost s
  else
    let r : DumpRec := { addr := p.base + BitVec.ofNat 64 (dumpLen p * (p.tail.toNat % n)), bytes := dumpBytes s k }
    let s1 := (allocTag s .runtime .dma .dump none false (some (ttcIn s 1000000))).1
    { s1 with pmu := { s1.pmu with
      active := some r, prev := (dumpSel p).map (fun i => (i, (nthD p.inst i {}).gen)), ovfSince := [] } }

/-- The dump of boundary k when it is due; a record that is still being written by then is lost (R489, R491). -/
def dumpAt (s : State) (k : Mcc) : State :=
  match s.pmu.next with
  | none => s
  | some m =>
    if !s.pmu.arm || !atOrBefore m k then s
    else
      let s1 := match s.pmu.active, s.txe.tags.find? (fun t => t.req == .dump) with
        | some _, some t =>
          let s1 := finishTag s t .timeout
          dumpLost { s1 with pmu := { s1.pmu with active := none } }
        | some _, none => dumpLost { s with pmu := { s.pmu with active := none } }
        | none, _ => s
      let s2 := dumpBegin s1 k
      { s2 with pmu := { s2.pmu with next := some (k + s2.pmu.interval.setWidth 32 + 1) } }

/-! ## What else a boundary does -/

/-- Whether the driver of SYNC_OUT is on: else it is at high impedance, its idle state; on it holds the line low between pulses (R43). -/
def syncDriven (s : State) : Bool :=
  s.ci.act.time.syncOut && drives s && s.pin.powerGood && !s.safe.failSilent && s.glb.state != .safeHalt && s.glb.state != .dormant

/-- The level of SYNC_OUT between pulses: low, or undriven (R43). -/
def syncOutLevel (s : State) : Option Bool := if syncDriven s then some false else none

/-- SYNC_OUT: with TIME.FLAGS bit 2 a pulse in CONFIG, STOP, RUN and HOLD; in a group from the ACTIVE alone (R43, R165). -/
def syncPulse (s : State) (k : Mcc) : State :=
  if syncDriven s && (running s || s.glb.state == .stop || s.glb.state == .config) then
    { s with out := .syncOut k :: s.out } else s

/-- The CAN controllers in the mode of the role: monitoring where the module does not drive the shared ports (R285). -/
def canModes (s : State) : State :=
  let m := inGroup s && !drives s
  { s with can0 := { s.can0 with monitor := s.can0.enabled && m }, can1 := { s.can1 with monitor := s.can1.enabled && m } }

/-- New quotas in force, a NOTICE record for a class that holds more than its new quota (R224, R245). -/
def quotasAt (s : State) : State :=
  match s.txe.quotaNext with
  | none => s
  | some q =>
    let s1 := { s with txe := { s.txe with quota := q, quotaNext := none } }
    TxClass.all.foldl (fun s' c =>
      if quotaOf s1 c < quotaOf s c ∧ quotaOf s1 c < classUse s c then record s' .notice srcTxe (cChange 9) c.num else s') s1

/-- Topology counters written since the last boundary in force; in a formed group the ACTIVE's come with the agreement (R271, R335). -/
def topoAt (s : State) : State :=
  match s.eth.topoDue with
  | none => s
  | some (a, b) =>
    if topoDropped s then { s with eth := { s.eth with topoDue := none } }
    else { s with eth := { s.eth with etbTopo := a, opTopo := b, topoDue := none } }

/-- What is noted once per major cycle begins anew (R167, R176, R225, R245, R255, R259, R263). -/
def majorAt (s : State) (k : Mcc) : State :=
  if !isMajor s.ci.act k then s
  else { s with
    cyc := { s.cyc with collapseNoted := [] }
    glb := { s.glb with evts := s.glb.evts.map (fun e => { e with dropNoted := false }) }
    txe := { s.txe with noted := [], rxNoted := [] }
    eth := { s.eth with
      tableFullNoted := false
      statusNoted := false
      subs := s.eth.subs.map (fun x => { x with mismatchNoted := false })
      pubs := s.eth.pubs.map (fun x => { x with replacedNoted := false }) } }

/-- Ports whose link came up may send from now on; gate lists restart (R162, R249). -/
def portsAt (s : State) : State :=
  let s1 := { s with eth := { s.eth with ports := s.eth.ports.map (fun p => { p with txOk := p.up }) } }
  [0, 1, 2].foldl (fun s i => gateStart s i) s1

/-- The time base at a boundary: PTP instances that restart with new settings; in STOP a refused step is accepted (R309, R317). -/
def trainTimeAt (s : State) : State :=
  let s1 := if s.tb.a.restartDue then ptpRestart s false else s
  let s2 := if s1.tb.b.restartDue then ptpRestart s1 true else s1
  if s2.glb.state = .stop ∧ s2.tb.stepRefused = true then stepAt s2 s2.cyc.mcc 2 else s2

/-- The input delta of boundary k on both links (R334). -/
def deltaAt (s : State) : State := if inGroup s then sendDelta (buildDelta s) else s

/-- After a takeover the new ACTIVE asks its neighbours about the packages it forwards (R442). -/
def takeoverAsk (was : GRole) (s : State) (k : Mcc) : State :=
  if was != .active && s.grp.role == .active && s.grp.lastTo == k then askNeighbours s else s

/-- The start of boundary k: the cycle timer's instant, the count, what the reference did in the cycle that ended, the group's roles. -/
def openBoundary (s : State) : State :=
  let s0 := timedArrive (passTo s s.cyc.timerTtc)
  let s1 := adoptMcc { s0 with cyc := { s0.cyc with mcc := nextMcc s0, started := true, bttc := s0.cyc.timerTtc, bttcPrev := s0.cyc.bttc } }
  let k := s1.cyc.mcc
  let s2 := { s1 with ci := { s1.ci with affected := if atOrBefore s1.ci.affectUntil k then [] else s1.ci.affected } }
  takeoverAsk s2.grp.role (groupBoundary (majorAt (refBook s2 k s.cyc.started) k) k) k

/-- The freeze edge: commit, modes, forces, the safe outputs, packing under the old plane (R88, R149, R187, R195, R293). -/
def freezeEdge (s : State) (k : Mcc) : State :=
  let was := running s
  let func := (endingAt s k).any (fun i => i.whole && i.task == s.ci.act.safety.funcTask)
  let voted := s.grp.decided
  let s1 := commitAt s k
  let s2 := modesAt s1 k
  let s3 := forcesAt s2 k
  let s4 := raiseChanged (safeOutAt (drainedAt s3) k func was voted) k (committedTrig s s1 ++ forcedTrig s2 s3)
  let vals := settleAll s4 k
  let s5 := s.glb.handOuts.foldl (launchHandler vals) s4
  packAndQueue { s5 with glb := { s5.glb with handOuts := [] } } k vals (explicitNow s)

/-- What follows the freeze edge: the swap, activations, the cycle's length, releases to the runtime, the buses, the group, the counters. -/
def afterFreeze (s : State) (k : Mcc) (was : Bool) : State :=
  let s1 := nextAct (actBoundary (swapDueAt s k))
  let s2 := if was && s1.glb.state == .stop then canNmt (commitSo s1 false false) 0x80 else s1
  let s3 := correct (trainTimeAt (quotasAt (topoAt s2))) k
  let s4 := s3.ci.act.tasks.foldl releaseRuntime s3
  let s5 := deltaAt (pullRequests (canPolls (canModes (syncPulse s4 k))) k)
  portsAt (dumpAt (pairsAtBoundary { s5 with safe := { s5.safe with soMoved := false } }) k)

/-- Boundary k (R149, R151, R152); with the entry into DORMANT the generator stops (R456). -/
def boundary (s : State) : State :=
  let s1 := (List.range 13).foldl (fun s i => pmuCount s i 0x002 1) (openBoundary s)
  let k := s1.cyc.mcc
  let was := running s1
  let s2 := freezeEdge s1 k
  if s2.glb.state = .dormant then s2 else afterFreeze s2 k was

/-- BOUNDARY: the cycle timer fires (R148, R149). -/
def execBoundary (s : State) : Host.Outcome State Fault Refusal :=
  .next (if s.cyc.running && s.pin.powerGood then boundary s else s)

end Sys2Proof.Machine
end

