-- ==== Sys2Proof/Machine/BusEvents.lean ====
section
/-! DEFINITION. Machine/BusEvents.lean: launches, MVB, CAN and the runtime's remote accesses as events and submissions
(07_cycle_boundary_and_launch, R167, R168; 12_legacy_buses_and_gateway). -/

namespace Sys2Proof.Machine

/-! ## Launches -/

/-- The entry of a queue whose time comes first: an online change may have given a later one an earlier time (R88, R167). -/
def nextLaunch (q : List Launch) : Option Launch := q.foldl (fun m l => match m with
  | some x => if (l.ttc - x.ttc).toInt < 0 then some l else m
  | none => some l) none

/-- LAUNCH_FIRE of a queue 0 to 63, or of an event task's comparator as 64 + n: at its time, the comparison with its LTN32 holding, the values of
the group's first launch are driven (R167, R170). -/
def execLaunchFire (q : Nat) (s : State) : Host.Outcome State Fault Refusal :=
  .next (if q < 64 then
    match nextLaunch (launchQueue s q) with
    | none => s
    | some l =>
      let s1 := passTo s l.ttc
      if launchDue s1 l then fireLaunch { s1 with cyc := { s1.cyc with queues := setNth s1.cyc.queues q ((launchQueue s1 q).erase l) } } l else s1
  else match nthD s.cyc.evtLaunch (q - 64) none with
    | none => s
    | some l =>
      let s1 := passTo s l.ttc
      if launchDue s1 l then fireLaunch { s1 with cyc := { s1.cyc with evtLaunch := setNth s1.cyc.evtLaunch (q - 64) none } } l else s1)

/-- Whether an output has no latched fault (R381, R383). -/
def soFree (s : State) (n : Nat) : Bool := let o := nthD s.safe.so n {}; !o.faultHigh && !o.faultLow

/-- SO_LAUNCH: 100 µs after the commit boundary both safe outputs switch to their committed commands; every member of a group drives
its own from the voted command, one in PROBATION or OUT keeps them off; an output with a latched fault stays off (R168, R381, R383,
R386). -/
def execSoLaunch (s : State) : Host.Outcome State Fault Refusal :=
  .next (match s.cyc.soLaunch with
    | none => s
    | some (a, b) =>
      let s1 := passTo s (t0 s + 100000)
      let s2 := { s1 with cyc := { s1.cyc with soLaunch := none } }
      if s.safe.cause ≠ 0 ∨ s.safe.failSilent ∨ (inGroup s && !s.grp.role.voting) then s2
      else { s2 with
        safe := { s2.safe with
          so := (s2.safe.so.zip [a, b]).map (fun (o, c) => { o with cmd := c && !o.faultHigh && !o.faultLow })
          soMoved := (s2.safe.so.zip [a, b]).any (fun (o, c) => o.cmd != (c && !o.faultHigh && !o.faultLow)) }
        out := .safeOut (a && soFree s 0) (b && soFree s 1) :: s2.out })

/-! ## MVB -/

/-- MVB_BASIC_PERIOD, the j-th of the minor cycle, at its start: its number, and as bus administrator the polls due in it, the compatibility
polls of the boundary in its first one (R164, R276, R301). -/
def execMvbBasicPeriod (j : Nat) (s : State) : Host.Outcome State Fault Refusal :=
  .next (if portHeld s .mvb || !periodBegins s j then s
  else
    let n := basicNo s j
    let at_ := t0 s + BitVec.ofNat 64 (1000000 * j)
    let s0 := passTo s at_
    let s1 := endPoll { s0 with mvb := { s0.mvb with bp := n, begun := some (s.cyc.mcc, j), bpStart := at_ } }
    if baNow s then
      let cs := if j = 0 then compatDue s true else []
      let s2 := cs.foldl (fun s x => pollTag s x.1 .mvb) s1
      let extra := cs.filterMap (fun x => (mvbPortOf s.ci.act x.2.frame).map (fun p => (p.1, x.2.frame)))
      { s2 with mvb := { s2.mvb with due := duePolls s.ci.act n ++ extra } }
    else { s1 with mvb := { s1.mvb with due := [] } })

/-- A device status word kept for every list record that polls its device (R277). -/
def keepStatus (s : State) (a : Nat) (data : List Byte) : State :=
  let recs := (mflRecs s.ci.act).filter (fun r => r.2.1 == 15)
  let ix := ((List.range recs.length).zip recs).filter (fun x => x.2.1 == a && decide (x.1 < 256))
  let w := BitVec.ofNat 16 (leNat data.reverse)
  { s with mvb := { s.mvb with dstat := ix.map (fun x => (x.1, a, w)) ++ s.mvb.dstat.filter (fun d => !ix.any (fun x => x.1 == d.1)) } }

/-- MVB_POLL: the next due poll's master frame, the first 20 µs after the period's start (R164); for a source port or its own device address the module answers it itself, its own status
word being kept like another device's (R275 to R277). -/
def execMvbPoll (s : State) : Host.Outcome State Fault Refusal :=
  .next (match s.mvb.due with
    | [] => s
    | (f, a) :: rest =>
      if !baNow s then { s with mvb := { s.mvb with due := [] } }
      else
        let s0 := endPoll (passTo s (s.mvb.bpStart + 20000))
        let s1 := { (pmuCount s0 9 0x248 1) with mvb := { s0.mvb with due := rest, poll := some { fcode := f, addr := a } }, out := .mvbMaster f a :: s0.out }
        if f = 15 then (if a = (mvbRole s.ci.act).2 then keepStatus (mvbAnswer s1 a (ownStatus s) false) a (ownStatus s) else s1)
        else match mvbPortOf s.ci.act a with
          | some (c, true) => mvbAnswer s1 a ((mvbCur s.mvb.bufs a).getD (List.replicate (mvbSize c) 0)) true
          | _ => s1)

/-- MVB_MASTER_FRAME: received on lines A and B as given. An unsupported F-code is counted and ignored, an earlier poll staying
in progress (assumption 196); a poll of a source port or
of the own device is answered by the member that drives; the frame that SYNC_REF 2 names is a sync reference (R155, R274,
R275). -/
def execMvbMasterFrame (f a : Nat) (lineA lineB : Bool) (s : State) : Host.Outcome State Fault Refusal :=
  .next (if portHeld s .mvb then s
  else
    let s0 := mvbLines s lineA lineB
    if !lineA && !lineB then s0
    else
      let s1 := { (pmuCount s0 9 0x248 1) with mvb := { s0.mvb with frames := s0.mvb.frames + 1 } }
      if 4 < f ∧ f ≠ 15 then s1
      else
        let ports := s.ci.act.iomap.filterMap (fun r => match r with
          | .mvbPort p .. => some p
          | _ => none)
        let low := ports.foldl min (ports.headD 0)
        let s2 := if s.ci.act.time.syncRef = 2 ∧ f ≠ 15 ∧ ports.contains a = true ∧ a = low then seeReference s1 s1.tb.ttc else s1
        let s3 := { (endPoll s2) with mvb := { (endPoll s2).mvb with poll := some { fcode := f, addr := a } } }
        if !mayTransmit s then s3
        else if f = 15 then (if a = (mvbRole s.ci.act).2 then mvbAnswer s3 a (ownStatus s) false else s3)
        else match mvbPortOf s.ci.act a with
          | some (c, true) => mvbAnswer s3 a ((mvbCur s.mvb.bufs a).getD (List.replicate (mvbSize c) 0)) true
          | _ => s3)

/-- MVB_SLAVE_FRAME: the answer to the poll in progress, taken from a line without error; a sink port's data enters the image
through the gateway (R278, R279, R291). -/
def execMvbSlaveFrame (data : List Byte) (lineA lineB : Bool) (s : State) : Host.Outcome State Fault Refusal :=
  .next (if portHeld s .mvb then s
  else
    let s0 := mvbLines s lineA lineB
    if !lineA && !lineB then s0
    else
      let s1 := { (pmuCount s0 9 0x248 1) with mvb := { s0.mvb with frames := s0.mvb.frames + 1, poll := none } }
      match s.mvb.poll with
      | none => s1
      | some p =>
        if p.fcode = 15 then keepStatus s1 p.addr data
        else match mvbPortOf s.ci.act p.addr with
          | some (c, false) =>
            if data.length = mvbSize c then
              gwReceive (pollAnswered { s1 with mvb := { s1.mvb with rxBufs := mvbPut s1.mvb.rxBufs p.addr data } } 0 p.addr) .mvb 0 p.addr data
            else s1
          | some (_, true) => { s1 with grp := { s1.grp with observed := s1.grp.observed ||| 4 } }
          | none => s1)

/-! ## CAN -/

/-- Whether a receive CAN_ID record accepts a frame: identifier, formats, at least its length (R283). -/
def canAccepts (n : Nat) (f : CanFrame) : IoRec → Bool
  | .canId port false dlc ext fd _ ident _ _ => port == n && f.ident.toNat == ident && f.ext == ext && f.fd == fd && decide (dlcLen dlc ≤ f.data.length)
  | _ => false

/-- CAN_FRAME_RECEIVE on CAN n: remote frames are ignored, and a controller that is bus-off receives none; a frame that a record accepts is carried in
one tag; every runtime request that waits for its identifier completes with it; any other frame is dropped and counted; REC falls by 1 (R281, R283, R286,
R297, assumption 101). -/
def execCanFrameReceive (n : Nat) (f : CanFrame) (s : State) : Host.Outcome State Fault Refusal :=
  .next (if !(canOf s n).enabled || (canOf s n).busOff || f.remote then s
  else
    let recs := (canIds s.ci.act).filter (fun x => canAccepts n f x.2)
    let reqs := s.txe.tags.filter (fun t => match t.req with
      | .canRecv ident _ _ _ => !t.again && t.unit == (canPort n).unit && ident.setWidth 29 == f.ident && bit ident 31 == f.ext
      | _ => false)
    let own := (canIds s.ci.act).any (fun x => match x.2 with
      | .canId port true _ ext _ _ ident _ _ => port == n && f.ident.toNat == ident && f.ext == ext
      | _ => false)
    let s1 := if own then { s with grp := { s.grp with observed := s.grp.observed ||| (if n = 0 then 8 else 16) } } else s
    let s2 := if recs.isEmpty && reqs.isEmpty then modCan (pmuCount s1 9 0x249 1) n (fun c => { c with unmatched := satInc c.unmatched, rxErr := satDec c.rxErr })
      else modCan (pmuCount s1 9 0x249 1) n (fun c => { c with rxCnt := c.rxCnt + 1, rxErr := satDec c.rxErr })
    let s3 := recs.foldl (fun s x => gwReceive (pollAnswered s (n + 1) x.1) (canPort n) (n + 1) x.1 f.data) s2
    reqs.foldl (fun s t => match t.req with
      | .canRecv _ addr len _ => finishTag (dramWrite s addr (f.data.take len)) t .ok (len := min len f.data.length)
      | _ => s) s3)

/-- CAN_TX_COMPLETE of the i-th pending frame of CAN n, one that can have started: transmitted and acknowledged (R163, R284). -/
def execCanTxComplete (n i : Nat) (s : State) : Host.Outcome State Fault Refusal :=
  .next (match (canOf s n).pend[i]? with
    | none => s
    | some p =>
      if (canOf s n).busOff || (canOf s n).monitor || !mayTransmit s || !canWins (canOf s n) i then s
      else
        let s1 := modCan (pmuCount (passTo s p.ready) 9 0x249 1) n (fun c => { c with
          txCnt := c.txCnt + 1, txErr := satDec c.txErr, pend := c.pend.eraseIdx i, freeAt := (passTo s p.ready).tb.ttc
          lastNmt := if p.src = .nmt then p.frame.data.headD 0 else c.lastNmt })
        let s2 := { s1 with out := .can (canPort n) p.frame :: s1.out }
        match p.src with
        | .record r => busDone s2 (n + 1) r
        | .raw t => match tagOf s2 t with
          | some x => finishTag s2 x .ok (len := p.frame.data.length)
          | none => s2
        | _ => s2)

/-- CAN_TX_TIMEOUT of the i-th pending frame of CAN n: it has met an error, which counts in TEC, and is not sent in time (R284, R286). -/
def execCanTxTimeout (n i : Nat) (s : State) : Host.Outcome State Fault Refusal :=
  .next (match (canOf s n).pend[i]? with
    | none => s
    | some p => canFail (modCan (canErrors s n) n (fun c => { c with pend := c.pend.eraseIdx i })) n p .timeout)

/-- BUS_OFF: counted, with a WARNING record; the pending frames fail (R286, R302). -/
def execBusOff (n : Nat) (s : State) : Host.Outcome State Fault Refusal :=
  .next (if (canOf s n).enabled && !(canOf s n).busOff then
    let old := (canOf s n).pend
    let s1 := modCan s n (fun c => { c with busOff := true, busOffCnt := satInc c.busOffCnt, pend := [] })
    old.foldl (fun s p => canFail s n p .timeout) (record s1 .warning (canPort n).src (cFault 0) (canPort n).num)
  else s)

/-- BUS_OFF_RECOVERY_DONE: the controller resumes (R286). -/
def execBusOffRecoveryDone (n : Nat) (s : State) : Host.Outcome State Fault Refusal :=
  .next (modCan s n (fun c => { c with busOff := false, txErr := 0, rxErr := 0, freeAt := s.tb.ttc }))

/-- CANOPEN_SYNC on CAN n, 10 µs after each boundary in RUN and HOLD with MODE 1, once (R287). -/
def execCanopenSync (n : Nat) (s : State) : Host.Outcome State Fault Refusal :=
  .next (match canPortOf s.ci.act n with
    | some (1, _, _) =>
      if (s.glb.state = .run ∨ s.glb.state = .hold) ∧ (canOf s n).synced ≠ some s.cyc.mcc then
        canQueue (modCan (passTo s (t0 s + 10000)) n (fun c => { c with synced := some s.cyc.mcc })) n { ident := 0x080 } .sync
      else s
    | _ => s)

/-! ## Remote submissions (R297, R299) -/

/-- MVB_READ of a port of IOMAP (R297). -/
def execMvbRead (q : SubReq) (port len : Nat) (addr : Word) (sem : Nat) (s : State) : Host.Outcome State Fault Refusal :=
  .next (if (mvbPortOf s.ci.act port).isSome then submitBus s { q with posted := false } .mvb (.mvbRead port addr len sem) 10000000
    else submitRefused s 1 q.req TUnit.mvb.num .refusedPolicy)

/-- MVB_WRITE: only of a source port that no GWMAP entry uses, and not on a STANDBY or ARBITER (R297). -/
def execMvbWrite (q : SubReq) (port len : Nat) (addr : Word) (sem : Nat) (s : State) : Host.Outcome State Fault Refusal :=
  .next (let src := match mvbPortOf s.ci.act port with
      | some (_, x) => x
      | none => false
    if src && !s.ci.act.gwmap.any (fun e => e.bus == 0 && e.frame == port) && drives s then
      submitBus s q .mvb (.mvbWrite port (s.dram.readList addr.toNat len) sem) 10000000
    else submitRefused s 1 q.req TUnit.mvb.num .refusedPolicy)

/-- Whether a CAN_ID transmit record of a port, or a GWMAP entry by its record, uses an identifier (R297). -/
def canUsed (g : ConfImage) (n : Nat) (ident : Reg32) : Bool :=
  (canIds g).any (fun x => match x.2 with
    | .canId port tx _ ext _ _ id _ _ =>
      port == n && id == ident.toNat % 2 ^ 29 && ext == bit ident 31 && (tx || g.gwmap.any (fun e => e.bus == n + 1 && e.frame == x.1))
    | _ => false)

/-- CAN_SEND: only of an identifier that no GWMAP entry and no CAN_ID transmit record uses, and not on a STANDBY or ARBITER (R297). -/
def execCanSend (q : SubReq) (n : Nat) (ident : Reg32) (len : Nat) (fd brs : Bool) (addr : Word) (sem : Nat) (s : State) :
    Host.Outcome State Fault Refusal :=
  .next (if !canUsed s.ci.act n ident && drives s then
      submitBus s q (canPort n).unit (.canSend ident (s.dram.readList addr.toNat len) fd brs sem) 10000000
    else submitRefused s 1 q.req (canPort n).unit.num .refusedPolicy)

/-- CAN_RECV: waits for the first matching frame, for the time in µs that it names (R297). -/
def execCanRecv (q : SubReq) (n : Nat) (ident : Reg32) (len us : Nat) (addr : RecvTo) (s : State) : Host.Outcome State Fault Refusal :=
  .next (submitBus s { q with posted := false } (canPort n).unit (.canRecv ident addr.addr len addr.sem) (us * 1000))

/-- SEM_ACQ of a gateway semaphore over a range of a unit (R299). -/
def execSemAcq (q : SubReq) (unit sem first last : Nat) (s : State) : Host.Outcome State Fault Refusal :=
  .next (submitBus s { q with posted := false } .gw (.gwSem unit sem first last) 10000000)

/-- SEM_REL of a gateway semaphore (R299). -/
def execSemRel (q : SubReq) (sem : Nat) (s : State) : Host.Outcome State Fault Refusal :=
  .next (submitBus s { q with posted := false } .gw (.gwSemRel sem) 10000000)

end Sys2Proof.Machine
end

