-- ==== Sys2Proof/Machine/RegView.lean ====
section
/-! DEFINITION. Machine/RegView.lean: what each register of the control window reads as (22_register_map, R503 to R511, and the register tables of
the blocks). -/

namespace Sys2Proof.Machine

/-- A register word from its fields: value and lowest bit of each (R508). -/
def regWord (l : List (Nat × Nat)) : Reg32 := BitVec.ofNat 32 (l.map (fun x => x.1 * 2 ^ x.2)).sum

/-- The low or the high half of a 64-bit value. -/
def halfOf (hi : Bool) (v : Word) : Reg32 := if hi then v.extractLsb' 32 32 else v.extractLsb' 0 32

/-- Flags as bits, the first in bit 0. -/
def bitsOf (l : List Bool) : Nat := l.foldr (fun b n => b.toNat + 2 * n) 0

/-- A signed number in a 32-bit field that saturates (R508). -/
def satInt (x : Int) : Reg32 := BitVec.ofInt 32 (max (-2147483648) (min x 2147483647))

/-! ## GLB (R96, R201, R509) -/

/-- GLB_SLOT (R34, R509). -/
def slotReg (s : State) : Reg32 := match s.pin.latched with
  | none => 0
  | some x => regWord [(x.rack.toNat, 10), (if (ones x.rack + if x.par then 1 else 0) % 2 = 1 then 1 else 0, 9), (x.gpos.toNat, 6), (ownPos s, 0)]

/-- SHADOW and SWAP numbers of GLB_CI_STATUS (R96). -/
def ShadowSt.num : ShadowSt → Nat
  | .empty => 0 | .loading => 1 | .valid => 2 | .invalid => 3

/-- The number of SWAP (R96). -/
def SwapSt.num : SwapSt → Nat
  | .idle => 0 | .proposed => 1 | .committed => 2 | .aborted => 3

/-- Word n of an IMAGE_HASH: bytes 4n to 4n + 3, byte 4n in bits 7 to 0 (R96). -/
def hashWord (h : Hash) (n : Nat) : Reg32 := BitVec.ofNat 32 (leNat ((beBytes 48 h.toNat).drop (4 * n) |>.take 4))

/-- GLB_MODE (R201). -/
def modeReg (s : State) : Reg32 :=
  let pend : Nat := if s.rst.dormantPending then 6 else match s.glb.pendCmd with
    | some c => c.target.num
    | none => 0xF
  regWord [(s.glb.stopCause.num, 24), (s.glb.lastRestart.toNat, 18), (s.glb.holdDrained.toNat, 17), (s.glb.stepping.toNat, 16), (pend, 4),
    (s.glb.state.num, 0)]

/-- GLB_FORCE_STATUS (R198, R201). -/
def forceReg (s : State) : Reg32 :=
  regWord [((!s.glb.forces.isEmpty).toNat, 31), ((s.glb.forces.filter (·.orphan)).length, 16), (s.glb.forces.length, 0)]

/-- The GLB block by offset; GLB_CI_SHD_HASHn show the shadow image's hash while it is VALID and else 0 (R96, assumption 186). -/
def glbView (s : State) (off : Nat) : Reg32 :=
  let ci := s.ci
  match off with
  | 0x000 => s.pin.glbId | 0x004 => s.pin.hwRev | 0x008 => halfOf false s.tk.fuses.serial | 0x00C => halfOf true s.tk.fuses.serial
  | 0x010 => s.pin.mfg | 0x014 => s.pin.glbCaps | 0x018 => s.pin.glbRegmap | 0x01C => slotReg s
  | 0x100 => regWord [(ci.lastStatus.toNat, 24), (ci.lastCheck.toNat, 8), (ci.shadow.num, 6), (ci.swap.num, 4), (ci.cls.toNat, 2), (ci.plane.toNat, 1),
      (ci.activeValid.toNat, 0)]
  | 0x104 => if ci.activeValid then ci.act.hdr.version else 0
  | 0x108 => regWord [(ci.supMajor.toNat, 16), (ci.supMinorMax, 8), (if ci.activeValid then ci.act.hdr.fmtMinor else 0, 0)]
  | 0x10C => ci.swapMcc
  | 0x200 => modeReg s | 0x204 => s.glb.modeMcc | 0x208 => if s.rst.dormantPending then s.rst.dormantMcc else s.glb.tgtMcc
  | 0x20C => s.glb.auto.setWidth 32 | 0x210 => BitVec.ofNat 32 s.glb.stepLeft | 0x214 => forceReg s | 0x21C => s.glb.taskRel
  | 0x220 => s.glb.ovrLatch
  | o =>
    if 0x110 ≤ o ∧ o < 0x140 then (if ci.activeValid then hashWord ci.act.hdr.imageHash ((o - 0x110) / 4) else 0)
    else if 0x140 ≤ o ∧ o < 0x170 then (if ci.shadow = .valid then hashWord ci.shd.hdr.imageHash ((o - 0x140) / 4) else 0)
    else if 0x300 ≤ o ∧ o < 0x380 then
      let t := nthD s.glb.tasks ((o - 0x300) / 4) {}
      regWord [(t.reacted.toNat, 31), (t.ovrCnt.toNat, 8), (t.consec.toNat, 0)]
    else if 0x380 ≤ o ∧ o < 0x3C0 then
      let e := nthD s.glb.evts ((o - 0x380) / 4) {}
      regWord [(e.drops.toNat, 16), (e.active.toNat, 15), (e.highWater.toNat, 8), (e.queue.length, 0)]
    else 0

/-! ## CLK, PGV, RST, CYC (R63, R172, R463, R464) -/

/-- The CLK block by offset (R63). -/
def clkView (s : State) (off : Nat) : Reg32 :=
  match off with
  | 0 => s.clk.ok.setWidth 32 | 4 => s.clk.fault.setWidth 32 | 8 => regWord [(s.clk.maxStep.toNat, 8), (s.pgv.granted.toNat, 0)]
  | 0xC => s.clk.refDev.setWidth 32 | _ => 0

/-- The PGV block by offset (R463). -/
def pgvRegs (s : State) (off : Nat) : Reg32 :=
  let p := s.pgv
  let u := p.unitSel.toNat
  match off with
  | 0x00 => regWord [(p.limit.toNat, 16), (p.tokens.toNat, 0)] | 0x04 => regWord [(p.portsCharge.toNat, 16), (p.reserved.toNat, 0)]
  | 0x08 => regWord [(p.clusterCharge.toNat, 16), (p.dmaCharge.toNat, 0)]
  | 0x0C => (BitVec.ofInt 10 (max (-512) (min p.headroom 511))).setWidth 32
  | 0x10 => regWord [(p.acStatus.toNat, 24), (p.granted.toNat, 8), (p.step.toNat, 0)]
  | 0x14 => regWord [(p.portRefused.toNat, 16), (p.portPowered.toNat, 0)] | 0x18 => regWord [(p.peak.toNat, 16), (p.input.toNat, 0)]
  | 0x1C => regWord [(p.currentMa.toNat, 16), (p.voltMv.toNat, 0)]
  | 0x20 => regWord ((List.range 18).map (fun i => (if 64 ≤ (nthD p.units i {}).windows.length then 1 else 0, i)))
  | 0x24 => p.unitSel.setWidth 32
  | 0x28 => if u < 18 then regWord [(declared s u, 24), (min 255 ((nthD p.units u {}).windows.foldl max 0), 16), (charged s u, 8)] else 0
  | 0x2C => regWord [(p.portSheds.toNat, 16), (p.acDown.toNat, 0)]
  | 0x30 => regWord [(p.edgeC.toNat, 8), (p.derating.toNat, 3), (p.thermStep.toNat, 0)] | _ => 0

/-- The RST block by offset (R464). -/
def rstView (s : State) (off : Nat) : Reg32 :=
  let r := s.rst
  match off with
  | 0x00 => regWord [(r.ctrlUnit.toNat, 8)]
  | 0x04 => regWord [(r.dormantPending.toNat, 31), (r.wdogArmed.toNat, 30), (r.source.num, 8), (r.kind.toNat, 0)]
  | 0x08 => regWord [(r.runtimeCnt.toNat, 16), (r.portCnt.toNat, 0)]
  | 0x0C => regWord [(s.cul.cur.canaryCnt.toNat, 16), (s.cul.cur.moduleCnt.toNat, 0)]
  | 0x10 => s.cul.pwrCycles | 0x14 => s.cul.optime.extractLsb' 0 32 | 0x18 => (s.cul.optime.extractLsb' 32 8 : Byte).setWidth 32
  | 0x1C => regWord [(r.wdogMs.toNat, 16)]
  | 0x20 => regWord [(r.retainLost.toNat, 4), (r.retainFallback.toNat, 3), (r.cstoreRepaired.toNat, 2), (r.bootctlRepaired.toNat, 1),
      (r.countersRepaired.toNat, 0)]
  | 0x24 => r.retainMcc | 0x28 => r.dormantMcc | _ => 0

/-- CYC_OG_STATUS of output group g (R172). -/
def ogReg (s : State) (g : Nat) : Reg32 :=
  let defined := s.ci.act.iomap.any (fun r => match r with
    | .outGroup id _ => id == g
    | _ => false)
  regWord [(defined.toNat, 31), ((nthD s.cyc.queues g []).length, 25), (nthD s.cyc.offsets g 0, 0)]

/-- The CYC block by offset (R172). -/
def cycView (s : State) (off : Nat) : Reg32 :=
  let c := s.cyc
  let t := s.ci.act.time
  let v := s.ci.activeValid
  match off with
  | 0x00 => regWord [(c.lostCause.num, 9), (if v then t.syncRef else 0, 7), (c.resynced.toNat, 6), (c.slewLimited.toNat, 5), (c.slewing.toNat, 4),
      (c.refPresent.toNat, 3), ((c.refPresent && !c.syncLost).toNat, 2), (c.syncLost.toNat, 1), (c.running.toNat, 0)]
  | 0x04 => c.mcc | 0x08 => halfOf false c.bttc | 0x0C => halfOf true c.bttc | 0x10 => satInt c.phaseErr | 0x14 => satInt c.residual
  | 0x18 => BitVec.ofNat 32 c.lenNs
  | 0x1C => if v then regWord [(t.tbaseUs, 16), (t.window, 8), (t.slew, 1), (t.resyncAtMajor.toNat, 0)] else 0
  | 0x20 => b2w c.seek | 0x24 => regWord [(c.extraRef.toNat, 16), (c.missedRef.toNat, 0)]
  | 0x28 => regWord [(c.resyncCnt.toNat, 16), (c.lostCnt.toNat, 0)] | 0x2C => regWord [(c.late.toNat, 16), (c.collapsed.toNat, 0)]
  | 0x30 => if v then BitVec.ofNat 32 (nMax s.ci.act) else 0
  | o => if 0x100 ≤ o ∧ o < 0x200 then ogReg s ((o - 0x100) / 4) else 0

/-! ## FAB, PIMA, TXE (R119, R221, R246, R247) -/

/-- A tile's page by offset (R119). -/
def tileView (t : Tile) (off : Nat) : Reg32 :=
  match off with
  | 0x00 => regWord [(t.epoch.toNat, 20), (t.codeHalf.toNat, 19), (t.phase.num, 16), (t.task.toNat, 0)]
  | 0x04 => t.wcet | 0x08 => t.lastCyc | 0x0C => t.maxCyc | 0x10 => regWord [(t.corr.toNat, 16), (t.uncorr.toNat, 0)] | 0x14 => t.instances
  | 0x18 => regWord [(t.handlers.toNat, 16), (t.windows.toNat, 0)] | 0x1C => b2w t.dbgEn | _ => 0

/-- The FAB block by its offset from 0xF100_0000. -/
def fabView (s : State) (off : Nat) : Reg32 :=
  match off with
  | 0x3F0000 => regWord [(s.fab.epoch.toNat, 28), (s.fab.state.num, 0)]
  | 0x3F0004 => s.fab.fault.extractLsb' 0 32 | 0x3F0008 => (s.fab.fault.extractLsb' 32 16 : BitVec 16).setWidth 32
  | 0x3F000C => regWord [(s.fab.netCorr.toNat, 16), (s.fab.netUncorr.toNat, 0)] | 0x3F0010 => s.fab.resetTile.setWidth 32
  | o => if o < 0x300000 then tileView (s.fab.tile (Fin.ofNat 48 (o / 0x10000))) (o % 0x10000) else 0

/-- The PIMA block by offset: arbiters and image; SETTLING is set from a freeze edge to the end of settling (R221, R246). -/
def pimaView (s : State) (off : Nat) : Reg32 :=
  let p := s.pim
  let a := s.arb
  match off with
  | 0x0000 => a.holdMax.setWidth 32 | 0x0004 => a.freeze.setWidth 32 | 0x0008 => a.idle.setWidth 32 | 0x000C => a.quar.setWidth 32
  | 0x0010 => regWord [(a.violCnt.toNat, 16), (a.violBanks.toNat, 0)]
  | 0x4000 => pubLatest p | 0x4004 => pubOldest p
  | 0x4008 => regWord [((s.cyc.running && s.cyc.started && p.settledMcc != some s.cyc.mcc).toNat, 2), ((decide (p.ring.length = 4)).toNat, 1), ((!p.ring.isEmpty).toNat, 0)]
  | 0x400C => BitVec.ofNat 32 (stgInUse s) | 0x4010 => p.hwm.setWidth 32 | 0x4014 => p.defer
  | 0x4018 => regWord [(p.corr.toNat, 16), (p.uncorr.toNat, 0)] | 0x401C => BitVec.ofNat 32 p.aged | 0x4020 => BitVec.ofNat 32 p.wfCnt
  | 0x4024 => BitVec.ofNat 32 p.uninit
  | o =>
    if 0x100 ≤ o ∧ o < 0x140 then
      let w := nthD a.waits ((o - 0x100) / 4) (0, 0)
      w.1 ++ w.2
    else if 0x4100 ≤ o ∧ o < 0x4140 then
      let c := nthD p.snaps ((o - 0x4100) / 8) {}
      if o % 8 = 0 then c.ver else regWord [(c.ecc.toNat, 2), (c.notYet.toNat, 1), (c.expired.toNat, 0)]
    else 0

/-- A ring's registers: base, configuration, submission and completion queue (R247). -/
def ringView (r : Ring) (off : Nat) : Reg32 :=
  match off with
  | 0x00 => halfOf false r.base | 0x04 => halfOf true r.base | 0x08 => regWord [(r.enable.toNat, 31), (r.size.toNat, 0)]
  | 0x0C => r.sqHead ++ r.sqTail | 0x10 => r.cqTail ++ r.cqHead | _ => 0

/-- An entry of the posted-write error log by its index (R235, R247). -/
def logEntry (x : Txe) (e : Nat) : List Byte :=
  match x.log[(x.newest + 64 - e) % 64]? with
  | some f => f.bytes
  | none => List.replicate 32 0

/-- The TXE block by offset; the epoch of FABRIC is FAB_STATUS's (R230, R247). POOL_FREE reads its reset value until the module has power. -/
def txeView (s : State) (off : Nat) : Reg32 :=
  let x := s.txe
  let use (a b : TxClass) : Reg32 := regWord [(classUse s b, 16), (classUse s a, 0)]
  let ep (a b : Nat) : Reg32 := regWord (((List.range 13).zip (x.epochs.take 12 ++ [s.fab.epoch])).filterMap (fun (i, e) =>
    if a ≤ i ∧ i < b then some (e.toNat, 4 * (i - a)) else none))
  match off with
  | 0x00 => regWord [(if s.pin.powerGood then poolFree s else 0, 16), (x.tags.length, 0)]
  | 0x04 => quotaReg (quotasNext s) 0 | 0x08 => quotaReg (quotasNext s) 1 | 0x0C => quotaReg (quotasNext s) 2
  | 0x10 => use .pd .md | 0x14 => use .bridge .group | 0x18 => use .dma .maint
  | 0x20 => x.refused ++ x.deferred | 0x24 => x.stale ++ x.unitReset | 0x28 => x.timeout ++ x.orphan
  | 0x30 => ep 0 8 | 0x34 => ep 8 13
  | 0x40 => regWord [(x.lost.toNat, 16), (x.log.length, 8), (x.newest, 0)]
  | o =>
    if 0x100 ≤ o ∧ o < 0x160 then ringView (nthD x.rings ((o - 0x100) / 0x20) {}) ((o - 0x100) % 0x20)
    else if 0x800 ≤ o ∧ o < 0x1000 then
      BitVec.ofNat 32 (leNat (((logEntry x ((o - 0x800) / 32)).drop ((o - 0x800) % 32)).take 4))
    else 0

/-! ## Ports and buses (R272, R273, R303 to R305) -/

/-- An Ethernet port's registers by offset; the fields that copy the image read 0 before one is loaded (R272, R508). -/
def ethView (s : State) (i : EthNo) (off : Nat) : Reg32 :=
  let p := nthD s.eth.ports i.val {}
  let g := gateList s.ci.act i
  let sel := nthD g p.gclSel.toNat (0, 0)
  let mac := if s.ci.activeValid then macOf s i else 0
  match off with
  | 0x00 => regWord [(p.downCnt.toNat, 8), (p.speed.toNat, 1), (p.up.toNat, 0)]
  | 0x04 => b2w (if i = 2 then p.enable else (portCfg s.ci.act i).enable)
  | 0x08 => p.rxCnt | 0x0C => p.fcs ++ p.filtered | 0x10 => p.txCnt | 0x14 => p.replaced ++ p.nonActive
  | 0x18 => if g.isEmpty then 0 else regWord [(1, 31), (p.gclCur, 16), (g.length, 0)]
  | 0x1C => p.gclSel.setWidth 32 | 0x20 => sel.1.setWidth 32 | 0x24 => BitVec.ofNat 32 sel.2
  | 0x28 => mac.extractLsb' 0 32 | 0x2C => (mac.extractLsb' 32 16 : BitVec 16).setWidth 32 | 0x30 => if s.ci.activeValid then (portCfg s.ci.act i).ip else 0
  | 0x4C => ringView p.hqTx 0x0C | 0x5C => ringView p.hqRx 0x10
  | o => if 0x40 ≤ o ∧ o < 0x4C then ringView p.hqTx (o - 0x40) else if 0x50 ≤ o ∧ o < 0x5C then ringView p.hqRx (o - 0x50) else 0

/-- The registers of the record that ETH_PD_SEL selects (R273). -/
def pdView (s : State) (off : Nat) : Reg32 :=
  let e := s.eth
  let n := e.pdIdx.toNat
  let com (l : List IoRec) : Reg32 := match l[n]? with
    | some (.pdPub c ..) => BitVec.ofNat 32 c
    | some (.pdSub c ..) => BitVec.ofNat 32 c
    | _ => 0
  let x := nthD e.subs n {}
  let y := nthD e.pubs n {}
  match off with
  | 0x100C => com (if e.pdSub then pdSubs s.ci.act else pdPubs s.ci.act)
  | 0x1010 => if e.pdSub then regWord [(x.hdrFlags.toNat, 24), (x.pfB.toNat, 18), (x.pfA.toNat, 17), (x.held.isSome.toNat, 16), (x.rejects.toNat, 0)] else 0
  | 0x1014 => if e.pdSub then x.mcc else y.mcc
  | _ => if e.pdSub then x.cnt else y.cnt

/-- The registers of the offloads by offset (R273). -/
def offloadView (s : State) (off : Nat) : Reg32 :=
  let e := s.eth
  match off with
  | 0x1000 => (e.topoDue.map (·.1)).getD e.etbTopo | 0x1004 => (e.topoDue.map (·.2)).getD e.opTopo
  | 0x1008 => regWord [(e.pdSub.toNat, 12), (e.pdIdx.toNat, 0)]
  | 0x101C => e.dups ++ e.wrongLan | 0x1020 => e.tableFull ++ e.supervision | 0x1024 => regWord [(s.ci.act.safety.sdtSkewMaxMs * 1000, 16), (s.ci.act.safety.sdtSingleMax, 8)]
  | 0x1028 => e.sdtFault.setWidth 32
  | 0x102C => regWord [((e.subs.filter (·.pfA)).length, 16), ((e.subs.filter (·.pfB)).length, 0)]
  | 0x1030 => e.mismatch ++ e.single | 0x1034 => regWord [(mdInFlight s, 16), (e.mdDropped.toNat, 0)] | 0x1038 => e.hdrTrdp ++ e.hdrTimed
  | 0x103C => regWord [(e.unresolved.length, 16), (e.arp.length, 0)]
  | o => if 0x100C ≤ o ∧ o ≤ 0x1018 then pdView s o else 0

/-- The MVB block by offset (R303). -/
def mvbView (s : State) (off : Nat) : Reg32 :=
  let m := s.mvb
  let r := mvbRole s.ci.act
  let d := m.dstat.find? (fun x => x.1 == m.dstatSel.toNat)
  match off with
  | 0x00 => regWord [(r.2, 20), (m.lineB.fault.toNat, 7), (m.lineA.fault.toNat, 6), ((!m.due.isEmpty && mayTransmit s).toNat, 5), (r.1, 4),
      ((!drives s).toNat, 3)]
  | 0x04 => m.lineB.err ++ m.lineA.err | 0x08 => m.frames | 0x0C => m.noReply.setWidth 32 | 0x10 => BitVec.ofNat 32 (m.bp % 128)
  | 0x14 => m.dstatSel.setWidth 32
  | 0x18 => match d with
    | some x => regWord [(x.2.1, 16), (x.2.2.toNat, 0)]
    | none => 0
  | 0x1C => m.retry.setWidth 32 | _ => 0

/-- A CAN block by offset (R304). -/
def canView (s : State) (n : Nat) (off : Nat) : Reg32 :=
  let c := if n = 0 then s.can0 else s.can1
  let st := if c.busOff then 2 else if 128 ≤ c.txErr.toNat ∨ 128 ≤ c.rxErr.toNat then 1 else 0
  match off with
  | 0x00 => regWord [(c.txErr.toNat, 24), (c.rxErr.toNat, 16), (c.monitor.toNat, 3), (st, 1), (c.enabled.toNat, 0)]
  | 0x04 => match canPortOf s.ci.act n with
    | some (mode, nom, data) => regWord [(nom, 16), (if mode = 1 then 0 else data, 0)]
    | none => 0
  | 0x08 => c.rxCnt | 0x0C => c.txCnt | 0x10 => c.busOffCnt ++ c.errFrames | 0x14 => c.replaced ++ c.unmatched
  | 0x18 => c.txFailed.setWidth 32 | 0x1C => c.lastNmt.setWidth 32 | _ => 0

/-- The semaphores of a list that are held, bit n for semaphore a + n. -/
def semBits (l : List Sema) (a : Nat) : Reg32 := regWord ((List.range 32).map (fun i => ((nthD l (a + i) {}).held.toNat, i)))

/-- The GW block by offset (R305). -/
def gwView (s : State) (off : Nat) : Reg32 :=
  let g := s.gw
  match off with
  | 0x00 => BitVec.ofNat 32 s.ci.act.gwmap.length | 0x04 => g.sat ++ g.nan | 0x08 => g.dbLost ++ g.dbRaised | 0x0C => g.pollTo ++ g.polls
  | 0x10 => semBits g.sems 0 | 0x14 => g.semTo.setWidth 32 | 0x18 => g.refused ++ g.retries | 0x1C => g.spanStale.setWidth 32 | _ => 0

/-! ## TIME, GRP, GLx, SAFE (R322, R359, R360, R400) -/

/-- The TIME block by offset (R322). -/
def timeView (s : State) (off : Nat) : Reg32 :=
  let t := s.tb
  let gm (p : PtpPlane) (hi : Bool) : Reg32 := halfOf hi p.gmId
  match off with
  | 0x00 => regWord [(t.acceptPending.toNat, 11), ((t.a.asGm || t.b.asGm).toNat, 10), (t.planeDiff.toNat, 9), (t.selB.toNat, 8), (t.stepRefused.toNat, 4),
      (t.valid.toNat, 3), (t.state.num, 0)]
  | 0x04 => halfOf false t.ttc | 0x08 => halfOf true t.ttc | 0x0C => satInt t.offset | 0x10 => satInt t.freqPpb | 0x14 => holdNow s
  | 0x18 => satInt t.pendingUs | 0x1C => t.refusedCnt ++ t.acceptedCnt | 0x20 => t.ptpCfg | 0x24 => BitVec.ofInt 32 t.asymA
  | 0x28 => BitVec.ofInt 32 t.asymB | 0x2C => t.a.egress ++ t.a.ingress | 0x30 => t.b.egress ++ t.b.ingress | 0x34 => satInt t.a.path
  | 0x38 => satInt t.b.path | 0x3C => gm t.a false | 0x40 => gm t.a true | 0x44 => gm t.b false | 0x48 => gm t.b true
  | 0x4C => halfOf false t.syncIn | 0x50 => halfOf true t.syncIn | 0x54 => t.discards ++ t.syncs | _ => 0

/-- The GRP block by offset (R359); a standalone module is at position 0 and drives its ports. -/
def grpView (s : State) (off : Nat) : Reg32 :=
  let g := s.grp
  let inG := inGroup s && s.ci.activeValid
  let bits (f : Nat → Bool) : Nat := ([1, 2, 3].map (fun p => if f p then 2 ^ (p - 1) else 0)).sum
  match off with
  | 0x00 => regWord [((drives s).toNat, 18), ((g.latent != 0).toNat, 17), (inG.toNat, 16), (g.rotSeq.toNat % 3, 14),
      (if inG then bits (fun p => (roleAt g.roles p).voting) else 0, 11), (if inG then ownPos s else 0, 9), (g.role.num, 6), (g.state.num, 0)]
  | 0x04 => g.rotSeq | 0x08 => g.rotLeft | 0x0C => g.latent.setWidth 32 | 0x10 => g.takeovers ++ g.repeats | 0x14 => g.minorities ++ g.noMajority
  | 0x18 => g.deferred ++ g.inMinority | 0x1C => satInt g.skew
  | 0x20 => regWord [((g.outTimes.filter (fun t => decide (s.cul.optime.toNat < t + 36000))).length, 24), (g.probLeft, 0)]
  | 0x24 => regWord [(g.runProto.1, 24), (g.runProto.2, 16), (g.proto.1, 8), (g.proto.2, 0)] | 0x28 => g.lastTo
  | 0x2C => if inG then BitVec.ofNat 32 (bits (fun p => p == ownPos s ||
      (match (s.grp.peer (linkTo (ownPos s) p)).hb with
       | some h => h.hash == s.ci.act.hdr.imageHash
       | none => false))) else 0
  | _ => 0

/-- A GLx block by offset (R360). -/
def glView (b : Bridge) (aEnd : Bool) (off : Nat) : Reg32 :=
  match off with
  | 0x00 => regWord [(b.downCnt.toNat, 16), (b.peerEpoch.toNat, 12), (b.peerPos.toNat, 8), (aEnd.toNat, 1), (b.up.toNat, 0)]
  | 0x04 => if b.up then regWord ((List.range 4).map (fun v => (credits b v, 8 * v))) else 0
  | 0x08 => b.txFrames | 0x0C => b.rxFrames | 0x10 => b.crc ++ b.block | 0x14 => b.missRelayed ++ b.missDirect | 0x18 => b.retrySent ++ b.retryRcvd
  | 0x1C => semBits b.sems 0 | 0x20 => semBits b.sems 32 | 0x24 => b.semTo.setWidth 32 | 0x28 => halfOf false b.sharedBase
  | 0x2C => halfOf true b.sharedBase | 0x30 => b2w b.sharedEn | 0x34 => regWord [(min b.deltaRx 65535, 16), (min b.deltaTx 65535, 0)]
  | 0x38 => b.bells.headD 0 | _ => 0

/-- The byte of a safe output in SAFE_SO (R400). -/
def SafeOut.reg (x : SafeOut) : Nat := x.cmd.toNat + 2 * x.readback.toNat + 4 * x.faultHigh.toNat + 8 * x.faultLow.toNat + 16 * x.testOk.toNat

/-- The byte of a safe input pair in SAFE_SI (R400). -/
def SafePair.reg (x : SafePair) : Nat :=
  x.ch1.toNat + 2 * x.ch2.toNat + 4 * x.value.toNat + 8 * x.disc.toNat + 16 * x.cross.toNat + 32 * x.stuck.toNat

/-- The SAFE block by offset (R400); RUNNING says that the safety tasks are released (R184). -/
def safeView (s : State) (off : Nat) : Reg32 :=
  let f := s.safe
  match off with
  | 0x00 => regWord [(f.cause.toNat, 24), (f.sld, 10), (f.sls, 8), (f.rollaway.toNat, 7), (f.ssm.toNat, 6), (f.ssvState, 4), ((forcedSafe s).toNat, 3),
      ((f.cause != 0).toNat, 1), ((f.running && (s.glb.state == .run || s.glb.state == .hold)).toNat, 0)]
  | 0x04 => BitVec.ofInt 32 (if f.ssvDir < 0 then -(f.ssv : Int) else f.ssv) | 0x08 => BitVec.ofNat 32 (f.limit % 65536)
  | 0x0C => BitVec.ofNat 32 (ceilDiv f.da 1000) | 0x10 => BitVec.ofNat 32 (ceilDiv f.dl 1000)
  | 0x14 => regWord [(f.srcAgree.toNat, 16), (f.srcValid.toNat, 8), (bitsOf (s.ci.act.safety.sources.map (·.enabled)), 0)]
  | 0x18 => regWord [((nthD f.so 1 {}).reg, 8), ((nthD f.so 0 {}).reg, 0)] | 0x1C => regWord [((nthD f.si 1 {}).reg, 8), ((nthD f.si 0 {}).reg, 0)]
  | 0x20 => f.codeErr ++ f.eccCorr
  | 0x24 => regWord [(s.cul.cur.canaryCause.toNat, 24), (f.restarts1h.toNat, 16), (s.cul.cur.canaryFs.toNat, 0)]
  | 0x28 => if s.ci.activeValid then s.ci.act.safety.paramVersion else 0
  | 0x2C => f.lastUs ++ f.maxUs | _ => 0

/-! ## TKMB, EVR, PMU, UPD (R420, R444, R479, R493) -/

/-- A call slot's registers by offset; GO reads 0 (R420). -/
def callView (x : CallSlot) (off : Nat) : Reg32 :=
  match off with
  | 0 => halfOf false x.addr | 4 => halfOf true x.addr
  | 8 => regWord [(x.status.toNat, 24), (x.busy.toNat, 4), (x.overrun.toNat, 3), (x.interim.toNat, 2), (x.done.toNat, 1)] | _ => 0

/-- The TKMB block by offset (R420). -/
def tkmbView (s : State) (off : Nat) : Reg32 :=
  let t := s.tk
  let lock : Nat := match t.lockEnd with
    | some e => min 255 (ceilDiv (e - s.cul.optime.toNat) 10)
    | none => 0
  match off with
  | 0x00 => regWord [(t.sessions.length, 16), (lock, 8), (s.rst.runtimeReady.toNat, 7), ((entOf s .ur).slotB.toNat, 4), ((entOf s .tk).slotB.toNat, 3),
      (s.rst.bootReason.toNat, 0)]
  | 0x04 => t.tkVersion | 0x08 => t.urVersion
  | 0x0C => match curStore s with
    | some k => k.seq
    | none => 0
  | 0x10 => regWord ([(t.fuses.debugLock.toNat, 8), (t.fuses.revoked.toNat, 4)] ++ (List.range 4).map (fun i => ((nthD t.fuses.roots i none).isSome.toNat, i)))
  | 0x14 => halfOf false t.fuses.serial | 0x18 => halfOf true t.fuses.serial | 0x1C => t.authFail ++ t.writeViol
  | o => if 0x100 ≤ o ∧ o < 0x180 then callView (nthD t.slots ((o - 0x100) / 0x10) {}) ((o - 0x100) % 0x10) else 0

/-- A read context's registers by offset (R479). -/
def ctxView (c : ReadCtx) (off : Nat) : Reg32 :=
  match off with
  | 0x00 => c.req
  | 0x04 => regWord [(c.gen.toNat, 16), (c.ring.toNat, 3), (c.skipped.toNat, 2), (c.none.toNat, 1), (c.valid.toNat, 0)]
  | o => if 0x40 ≤ o ∧ o < 0x80 then nthD c.words ((o - 0x40) / 4) 0 else 0

/-- The lowest SEQ readable in the ring or the store (R479). -/
def seqOldest (e : Evr) : Reg32 :=
  ((e.ring.map (·.seq)) ++ (goodSlots e.store).map (·.r.seq)).foldl (fun m q => if m = 0 ∨ before q m then q else m) 0

/-- The EVR block by offset (R479). -/
def evrView (s : State) (off : Nat) : Reg32 :=
  let e := s.evr
  let d (i : Nat) : BitVec 16 := nthD e.drops i 0
  match off with
  | 0x00 => regWord [(e.flushing.toNat, 31), ((decide (49152 ≤ (goodSlots e.store).length)).toNat, 30), (e.pending.length, 16), ((goodSlots e.store).length, 0)]
  | 0x04 => e.newest | 0x08 => seqOldest e | 0x0C => e.gen.setWidth 32 | 0x10 => d 2 ++ d 1 | 0x14 => d 4 ++ d 3 | 0x18 => d 6 ++ d 5
  | 0x1C => (d 7).setWidth 32 | 0x20 => regWord [(e.overwritten.toNat, 16), (e.notStored.toNat, 8), (e.bad.toNat, 0)]
  | 0x24 => regWord [((e.store.filter (·.pinned)).length, 24)]
  | o => if 0x100 ≤ o ∧ o < 0x500 then ctxView (nthD e.ctx ((o - 0x100) / 0x80) {}) ((o - 0x100) % 0x80) else 0

/-- A monitor instance's page by offset (R493). -/
def pmuView (p : PmuInst) (off : Nat) : Reg32 :=
  let cyc : Word := BitVec.ofNat 64 (p.cycT / 10)
  match off with
  | 0x00 => regWord [(p.userEn.toNat, 9), (p.en.toNat, 0)] | 0x04 => regWord [(p.gen.toNat, 16), (p.badsel.toNat, 8), (p.ovf.toNat, 0)]
  | 0x08 => halfOf false cyc | 0x0C => halfOf true cyc | 0x10 => p.filtCtrl | 0x14 => p.filtBase | 0x18 => p.filtLimit
  | 0x1C => halfOf false p.spc | 0x20 => halfOf true p.spc
  | o =>
    if 0x40 ≤ o ∧ o < 0x80 then halfOf (o % 8 = 4) ((nthD p.cnt ((o - 0x40) / 8) 0).setWidth 64)
    else if 0x80 ≤ o ∧ o < 0xA0 then nthD p.evsel ((o - 0x80) / 4) 0 else 0

/-- The common page of the dumps by offset (R493). -/
def dumpView (p : Pmu) (off : Nat) : Reg32 :=
  match off with
  | 0x00 => regWord [(p.arm.toNat, 31), (p.interval.toNat, 0)] | 0x04 => p.sel.setWidth 32 | 0x08 => halfOf false p.base | 0x0C => halfOf true p.base
  | 0x10 => p.size.setWidth 32 | 0x14 => p.tail ++ p.head | 0x18 => regWord [(p.lost.toNat, 16), (p.active.isSome.toNat, 0)] | _ => 0

/-- The registers of an image type by offset (R444). -/
def updTypeView (s : State) (t : ImgType) (off : Nat) : Reg32 :=
  let e := entOf s t
  match off with
  | 0x00 => regWord [((updSlot s t true).st.num, 20), ((updSlot s t false).st.num, 16), (e.fails, 8), ((decide (e.state = 1)).toNat, 1), (e.slotB.toNat, 0)]
  | 0x04 => e.version | 0x08 => e.floor
  | 0x0C => if e.state = 1 then BitVec.ofNat 32 (e.lehrLeft.toNat - (s.cul.optime.toNat - s.upd.lehrTick)) else e.lehrLeft
  | 0x10 => (nthD s.upd.have_ t.idx (0, 0)).1 ++ (nthD s.upd.have_ t.idx (0, 0)).2 | _ => 0

/-- The UPD block by offset (R444). -/
def updView (s : State) (off : Nat) : Reg32 :=
  let u := s.upd
  match off with
  | 0x00 => regWord ([(u.lastStatus.toNat, 24), (u.fwd.length, 0)] ++ (List.range 5).map (fun i => ((nthD u.sessions i none).isSome.toNat, 16 + i)))
  | 0x04 => u.lehrMin.setWidth 32 | 0x08 => u.busyOther ++ u.floorCnt | 0x0C => u.forwarded ++ u.notAppl
  | o =>
    if 0x120 ≤ o ∧ o < 0x1C0 then (match imgTypeOf ((o - 0x100) / 0x20) with
      | some t => updTypeView s t (o % 0x20)
      | none => 0)
    else 0

/-! ## The control window (R504, R507) -/

/-- What an aligned 32-bit load at an assigned address of the control window reads; an offset that no register occupies reads 0 (R504, R507). -/
def regView (s : State) (addr : Nat) : Reg32 :=
  let o := addr % 0x100000
  match addr / 0x100000 with
  | 0xF00 => glbView s o | 0xF01 => clkView s o | 0xF02 => pgvRegs s o | 0xF03 => rstView s o | 0xF04 => cycView s o
  | 0xF20 => pimaView s o | 0xF21 => txeView s o
  | 0xF30 => if o < 0x1000 then ethView s 0 o else offloadView s o
  | 0xF31 => ethView s 1 o | 0xF32 => ethView s 2 o | 0xF33 => mvbView s o
  | 0xF34 => if o < 0x10000 then canView s 0 o else if o < 0x20000 then canView s 1 (o - 0x10000) else 0
  | 0xF35 => gwView s o | 0xF40 => timeView s o | 0xF41 => grpView s o | 0xF42 => glView s.grp.brL false o | 0xF43 => glView s.grp.brR true o
  | 0xF50 => tkmbView s o | 0xF51 => evrView s o
  | 0xF52 => if o / 0x1000 = 15 then dumpView s.pmu (o % 0x1000)
      else if o / 0x1000 < 13 then pmuView (nthD s.pmu.inst (o / 0x1000) {}) (o % 0x1000) else 0
  | 0xF53 => updView s o | 0xF54 => safeView s o
  | g => if 0xF10 ≤ g ∧ g ≤ 0xF13 then fabView s (addr - 0xF1000000) else 0

/-- Whether a load at an address acts on the register: RC fields, doorbells, LO halves that latch; the table gives each a command of its own
(R4, R504, R505). -/
def loadActs (addr : Nat) : Bool :=
  [0xF000021C, 0xF2004010, 0xF540002C, 0xF0200018, 0xF4200038, 0xF4300038, 0xF0400008, 0xF4000004, 0xF400004C, 0xF0300014].contains addr ||
  (within addr 0xF0000380 0xF00003BC) || (0xF1000000 ≤ addr && addr < 0xF1300000 && addr % 0x10000 == 0xC) || (within addr 0xF2000100 0xF200013C) ||
  (within addr 0xF2004100 0xF200413C && addr % 8 == 4) ||
  (0xF5200000 ≤ addr && addr < 0xF520D000 && (addr % 0x1000 == 8 || (within (addr % 0x1000) 0x40 0x7C && addr % 8 == 0)))

end Sys2Proof.Machine
end

