-- ==== Sys2Proof/Machine/RegEvents.lean ====
section
/-! DEFINITION. Machine/RegEvents.lean: stores and loads of the application cores in the control and snapshot windows, the register calls
and the end of a stall of the cores (22_register_map, R503 to R506; the register tables of the blocks). -/

namespace Sys2Proof.Machine

/-! ## Calls that write registers (R413) -/

/-- REG_WRITE. -/
def execRegWrite (c : CallReq) (addr mask value : Reg32) (s : State) : Host.Outcome State Fault Refusal :=
  .next (regCall s c addr.toNat mask value)

/-- MODULE_RESET: RST_CTRL.MODULE_RESET written (R451). -/
def execModuleReset (c : CallReq) (s : State) : Host.Outcome State Fault Refusal := .next (regCall s c 0xF0300000 1 1)

/-- RUNTIME_RESET: RST_CTRL.RUNTIME_RESET written (R451). -/
def execRuntimeReset (c : CallReq) (s : State) : Host.Outcome State Fault Refusal := .next (regCall s c 0xF0300000 2 2)

/-- PORT_RESET: RST_CTRL.UNIT and PORT_RESET written (R451). -/
def execPortReset (c : CallReq) (unit : BitVec 4) (s : State) : Host.Outcome State Fault Refusal :=
  .next (regCall s c 0xF0300000 0xF04 (unit.setWidth 32 <<< 8 ||| 4))

/-- PIM_FREEZE: PIMA_FREEZE written (R243). -/
def execPimFreeze (c : CallReq) (banks : BitVec 16) (s : State) : Host.Outcome State Fault Refusal :=
  .next (regCall s c 0xF2000004 0xFFFF (banks.setWidth 32))

/-- TXE_QUOTA_WRITE: one of TXE_QUOTA0 to TXE_QUOTA2 written (R224). -/
def execTxeQuotaWrite (c : CallReq) (i : Fin 3) (lo hi : BitVec 11) (s : State) : Host.Outcome State Fault Refusal :=
  .next (regCall s c (0xF2100004 + 4 * i.val) 0x07FF07FF (hi.setWidth 32 <<< 16 ||| lo.setWidth 32))

/-- PGV_CAP_LIMIT_WRITE: PGV_CAP.LIMIT written (R446). -/
def execPgvCapLimitWrite (c : CallReq) (limit : BitVec 9) (s : State) : Host.Outcome State Fault Refusal :=
  .next (regCall s c 0xF0200000 0x01FF0000 (limit.setWidth 32 <<< 16))

/-! ## Performance counters (R481 to R493) -/

/-- Whether an instance has a filter set (R484). -/
def hasFilter (i : Nat) : Bool := isAc i || i == 10 || i == 11

/-- Whether an instance defines an event number (R487). -/
def pmuDefines (i e : Nat) : Bool :=
  decide (e ≤ 2) || (isAc i && within e 0x100 0x10F) || (i == 8 && within e 0x200 0x209) || (i == 9 && within e 0x240 0x249) ||
  (i == 10 && within e 0x280 0x289) || (i == 11 && within e 0x2C0 0x2C5) || (i == 12 && within e 0x300 0x305)

/-- An event select as it is stored: the fields the instance and counter have; an undefined selection as EVENT 0 in MODE 0 (R484,
R493). -/
def evselStored (i n : Nat) (v : Reg32) : Reg32 × Bool :=
  let m : Reg32 := 0xBFF ||| (if n % 2 = 1 then 0x1000 else 0) ||| (if isAc i then 0x2000 else 0)
  let bad := !pmuDefines i (v.extractLsb' 0 10 : BitVec 10).toNat || (bit v 11 && !hasFilter i)
  (if bad then v &&& m &&& 0x3000 else v &&& m, bad)

/-- An event select written: in force at once, CONFIG_GEN advanced, BADSEL on an undefined selection (R484). -/
def evselWrite (s : State) (i n : Nat) (v : Reg32) : State :=
  let x := evselStored i n v
  modPmu s i (fun p => { p with evsel := setNth p.evsel n x.1, gen := p.gen + 1, badsel := p.badsel || x.2 })

/-- PMU_EVSEL_WRITE. -/
def execPmuEvselWrite (core : Fin 8) (i : Fin 13) (n : Fin 8) (v : Reg32) (s : State) : Host.Outcome State Fault Refusal :=
  .next (coreAccess s core (.pmuEvselWrite core i n v) (fun s => evselWrite s i.val n.val v))

/-- COUNTER_CLEAR: PMU_CTRL.CLEAR written (R493). -/
def execCounterClear (core : Fin 8) (i : Fin 13) (s : State) : Host.Outcome State Fault Refusal :=
  .next (coreAccess s core (.counterClear core i) (fun s => modPmu s i.val (fun p => { p with cnt := List.replicate 8 0 })))

/-- PMU_DUMP_CTRL written: arming restarts SEQ and the first record comes at the next boundary; without a ring in DRAM of 16 to 65,536
records ARM is ignored; the interval changes while not armed only (R489, R493, R503). -/
def dumpCtrl (s : State) (v : Reg32) : State :=
  let p := s.pmu
  let iv := if p.arm then p.interval else v.extractLsb' 0 16
  let len := 64 * ((64 + 80 * ((List.range 13).filter (fun i => p.sel.getLsbD i)).length + 63) / 64)
  let ringOk := within p.size.toNat 4 16 && inDram p.base (len * 2 ^ p.size.toNat)
  if !bit v 31 then { s with pmu := { p with arm := false, interval := iv, next := none } }
  else if p.arm then s
  else if ringOk then
    { s with pmu := { p with arm := true, interval := iv, seq := 0, prev := [], ovfSince := [], next := some (nextMcc s) } }
  else { s with pmu := { p with interval := iv } }

/-- DUMP_ARM. -/
def execDumpArm (core : Fin 8) (v : Reg32) (s : State) : Host.Outcome State Fault Refusal :=
  .next (coreAccess s core (.dumpArm core v) (fun s => dumpCtrl s v))

/-- A counter that wraps: OVF, the core's interrupt with IRQ set, one more on the counter chained to it (R482, R483, R485). -/
def pmuWrap (s : State) (i n : Nat) (spc : Word) : State :=
  let p := nthD s.pmu.inst i {}
  let irq := isAc i && bit (nthD p.evsel n 0) 13
  let s1 := modPmu s i (fun p => { p with
    cnt := setNth p.cnt n 0, ovf := setBit p.ovf n, irq := p.irq || irq, spc := if irq then spc else p.spc })
  let s2 := if s1.pmu.ovfSince.contains i then s1 else { s1 with pmu := { s1.pmu with ovfSince := i :: s1.pmu.ovfSince } }
  if irq then { s2 with out := .irqPmu i :: s2.out } else s2

/-- PMU_COUNTER_WRAP: a counter in use goes from 2^48 - 1 to 0; `spc` is the address of the instruction at which a core takes its
interrupt (R482, R483, R485). -/
def execPmuCounterWrap (i : Fin 13) (n : Fin 8) (spc : Word) (s : State) : Host.Outcome State Fault Refusal :=
  let p := nthD s.pmu.inst i.val {}
  .next (if !bit p.en n.val then s
    else
      let s1 := pmuWrap s i.val n.val spc
      let chained := n.val % 2 == 0 && bit (nthD p.evsel (n.val + 1) 0) 12 && bit p.en (n.val + 1)
      if !chained then s1
      else if nthD p.cnt (n.val + 1) 0 = 0xFFFFFFFFFFFF then pmuWrap s1 i.val (n.val + 1) spc
      else modPmu s1 i.val (fun p => { p with cnt := modNth p.cnt (n.val + 1) (· + 1) }))

/-- DUMP_RECORD_WRITE: the DMA of the dump record in flight completes: the record stands in the ring (R490, R491). -/
def execDumpRecordWrite (s : State) : Host.Outcome State Fault Refusal :=
  .next (match s.pmu.active, s.txe.tags.find? (fun t => t.req == .dump) with
    | some r, some t =>
      if dmaPaused s t then s
      else
        let s1 := finishTag (dramWrite s r.addr r.bytes) t .ok
        { s1 with pmu := { s1.pmu with active := none, tail := s1.pmu.tail + 1, seq := s1.pmu.seq + 1 } }
    | _, _ => s)

/-- A store to an instance's page (R484, R488, R493). -/
def pmuStore (s : State) (i off : Nat) (v : Reg32) : State :=
  let gen (f : PmuInst → PmuInst) : State := modPmu s i (fun p => let q := f p; { q with gen := q.gen + 1 })
  if off = 0 then
    modPmu s i (fun p => { p with
      en := v.extractLsb' 0 8, userEn := isAc i && bit v 9, gen := p.gen + 1
      cnt := if bit v 10 then List.replicate 8 0 else p.cnt })
  else if off = 4 then modPmu s i (fun p => { p with ovf := p.ovf &&& ~~~v.extractLsb' 0 8, badsel := p.badsel && !bit v 8 })
  else if off = 0x10 then gen (fun p => if hasFilter i then { p with filtCtrl := v &&& 0xFFFF001F } else p)
  else if off = 0x14 then gen (fun p => if hasFilter i then { p with filtBase := v } else p)
  else if off = 0x18 then gen (fun p => if hasFilter i then { p with filtLimit := v } else p)
  else if 0x40 ≤ off ∧ off < 0x80 ∧ off % 8 = 0 then
    modPmu s i (fun p => { p with cnt := modNth p.cnt ((off - 0x40) / 8) (fun c => c.extractLsb' 32 16 ++ v) })
  else if 0x40 ≤ off ∧ off < 0x80 then
    modPmu s i (fun p => { p with cnt := modNth p.cnt ((off - 0x44) / 8) (fun c => v.extractLsb' 0 16 ++ c.extractLsb' 0 32) })
  else if 0x80 ≤ off ∧ off < 0xA0 then evselWrite s i ((off - 0x80) / 4) v
  else s

/-- A store to the common page of the dumps; a base is 64-byte aligned (R493). -/
def dumpStore (s : State) (off : Nat) (v : Reg32) : State :=
  match off with
  | 0 => dumpCtrl s v
  | 4 => { s with pmu := { s.pmu with sel := v.extractLsb' 0 13 } }
  | 8 => { s with pmu := { s.pmu with base := s.pmu.base.extractLsb' 32 32 ++ (v &&& 0xFFFFFFC0) } }
  | 0xC => { s with pmu := { s.pmu with base := v ++ s.pmu.base.extractLsb' 0 32 } }
  | 0x10 => { s with pmu := { s.pmu with size := v.extractLsb' 0 5 } }
  | 0x14 => { s with pmu := { s.pmu with head := v.extractLsb' 0 16 } }
  | _ => s

/-! ## Stores (R504) -/

/-- The bytes of a ring pair: 2^SIZE submission and as many completion entries of 32 bytes (R227). -/
def ringBytes (size : Nat) : Nat := 2 ^ size * 64

/-- A store to a ring's register by its offset; a base is 32-byte aligned, SIZE changes while not enabled only, a ring outside DRAM or
with another size stays disabled (R247, R503). -/
def ringStore (r : Ring) (off : Nat) (v : Reg32) : Ring :=
  match off with
  | 0 => { r with base := r.base.extractLsb' 32 32 ++ (v &&& 0xFFFFFFE0) }
  | 4 => { r with base := v ++ r.base.extractLsb' 0 32 }
  | 8 =>
    let sz : BitVec 5 := if r.enable then r.size else v.extractLsb' 0 5
    { r with size := sz, enable := bit v 31 && within sz.toNat 4 12 && inDram r.base (ringBytes sz.toNat) }
  | _ => r

/-- A store to a ring of the TXE (R247); a completion that waits for room takes it. -/
def txeRingStore (s : State) (n off : Nat) (v : Reg32) : State :=
  match off with
  | 0xC => modRing s n (fun r => { r with sqTail := v.extractLsb' 0 16 })
  | 0x10 =>
    let s1 := modRing s n (fun r => { r with cqHead := v.extractLsb' 0 16 })
    drainHeld s1 n (nthD s1.txe.rings n {}).held.length
  | _ => modRing s n (fun r => ringStore r off v)

/-- A store to an Ethernet port's registers: the gate list entry shown, the host queue rings (R247, R272). -/
def ethStore (s : State) (i : EthNo) (off : Nat) (v : Reg32) : State :=
  if off = 0x1C then modEth s i (fun p => { p with gclSel := v.extractLsb' 0 8 })
  else if off = 0x4C then modEth s i (fun p => { p with hqTx := { p.hqTx with sqTail := v.extractLsb' 0 16 } })
  else if off = 0x5C then modEth s i (fun p => { p with hqRx := { p.hqRx with cqHead := v.extractLsb' 0 16 } })
  else if 0x40 ≤ off ∧ off < 0x4C then modEth s i (fun p => { p with hqTx := ringStore p.hqTx (off - 0x40) v })
  else if 0x50 ≤ off ∧ off < 0x5C then modEth s i (fun p => { p with hqRx := ringStore p.hqRx (off - 0x50) v })
  else s

/-- A topology counter written by the runtime, in force from the next boundary, with an INFO record; in a formed group only the ACTIVE's write takes
effect (R271, R273). -/
def topoStore (s : State) (op : Bool) (v : Reg32) : State :=
  let t := s.eth.topoDue.getD (s.eth.etbTopo, s.eth.opTopo)
  let s1 := { s with eth := { s.eth with topoDue := some (if op then (t.1, v) else (v, t.2)) } }
  if topoDropped s then s1 else record s1 .info Port.ecnA.src (cChange 9) 0 (beBytes 4 v.toNat)

/-- A store to the offload's registers (R263, R273). -/
def offloadStore (s : State) (off : Nat) (v : Reg32) : State :=
  match off with
  | 0x1000 => topoStore s false v
  | 0x1004 => topoStore s true v
  | 0x1008 => { s with eth := { s.eth with pdSub := bit v 12, pdIdx := v.extractLsb' 0 12 } }
  | 0x1028 => { s with eth := { s.eth with sdtFault := s.eth.sdtFault &&& ~~~v.extractLsb' 0 2 } }
  | _ => s

/-- A store to a group link's registers: the shared region, 64-byte aligned; outside DRAM it stays disabled (R357, R360, R503). -/
def glStore (s : State) (l : GLink) (off : Nat) (v : Reg32) : State :=
  match off with
  | 0x28 => modBr s l (fun b => { b with sharedBase := b.sharedBase.extractLsb' 32 32 ++ (v &&& 0xFFFFFFC0) })
  | 0x2C => modBr s l (fun b => { b with sharedBase := v ++ b.sharedBase.extractLsb' 0 32 })
  | 0x30 => modBr s l (fun b => { b with sharedEn := bit v 0 && inDram b.sharedBase 16777216 })
  | _ => s

/-- A store to a call slot's registers; a request buffer is 64-byte aligned (R420). -/
def slotStore (s : State) (n off : Nat) (v : Reg32) : State :=
  match off with
  | 0 => modSlot s n (fun x => { x with addr := x.addr.extractLsb' 32 32 ++ (v &&& 0xFFFFFFC0) })
  | 4 => modSlot s n (fun x => { x with addr := v ++ x.addr.extractLsb' 0 32 })
  | 8 => modSlot s n (fun x => { x with overrun := x.overrun && !bit v 3, done := x.done && !bit v 1 })
  | _ => s

/-- A port's unit number whose block an address lies in, if the block is a port's (R507). -/
def portBlock (addr : Nat) : Option Nat :=
  match addr / 0x10000 with
  | 0xF340 => some 4 | 0xF341 => some 5
  | x => match x / 0x10 with
    | 0xF30 => some 0 | 0xF31 => some 1 | 0xF32 => some 2 | 0xF33 => some 3 | 0xF35 => some 8 | 0xF42 => some 6 | 0xF43 => some 7
    | _ => none

/-- The granules assigned to a block (R507). -/
def assigned (addr : Nat) : Bool :=
  let g := addr / 0x100000
  (within g 0xF00 0xF04) || (within g 0xF10 0xF13) || (within g 0xF20 0xF21) || (within g 0xF30 0xF35) || (within g 0xF40 0xF43) ||
  (within g 0xF50 0xF54)

/-- The blocks at 0xF000_0000 to 0xF2FF_FFFF: W1C latches, SEEK, snapshot versions, rings (R504). -/
def lowStore (s : State) (addr : Nat) (v : Reg32) : State :=
  match addr with
  | 0xF0000220 => { s with glb := { s.glb with ovrLatch := s.glb.ovrLatch &&& ~~~v } }
  | 0xF0100004 => { s with clk := { s.clk with fault := s.clk.fault &&& ~~~v.extractLsb' 0 19 } }
  | 0xF0200010 => requestStep s (v.extractLsb' 0 3 : BitVec 3).toNat
  | 0xF0200024 => { s with pgv := { s.pgv with unitSel := v.extractLsb' 0 5 } }
  | 0xF0400000 => { s with cyc := { s.cyc with resynced := s.cyc.resynced && !bit v 6 } }
  | 0xF0400020 => cfieldWrite (fieldSet s 0xF0400020 v) 0xF0400020 1 v
  | 0xF13F0004 => { s with fab := { s.fab with fault := s.fab.fault &&& ~~~v.setWidth 48 } }
  | 0xF13F0008 => { s with fab := { s.fab with fault := s.fab.fault &&& ~~~(v.setWidth 48 <<< 32) } }
  | 0xF2000010 => { s with arb := { s.arb with violBanks := s.arb.violBanks &&& ~~~v.extractLsb' 0 16 } }
  | a =>
    if 0xF2004100 ≤ a ∧ a < 0xF2004140 ∧ a % 8 = 0 then
      { s with pim := { s.pim with snaps := modNth s.pim.snaps ((a - 0xF2004100) / 8) (fun c => { c with ver := v }) } }
    else if 0xF2100100 ≤ a ∧ a < 0xF2100160 then txeRingStore s ((a - 0xF2100100) / 0x20) ((a - 0xF2100100) % 0x20) v
    else s

/-- The blocks from 0xF300_0000 (R504). -/
def highStore (s : State) (addr : Nat) (v : Reg32) : State :=
  let off := addr % 0x100000
  match addr / 0x100000 with
  | 0xF30 => if off < 0x1000 then ethStore s 0 off v else offloadStore s off v
  | 0xF31 => ethStore s 1 off v
  | 0xF32 => ethStore s 2 off v
  | 0xF33 => if off = 0x14 then { s with mvb := { s.mvb with dstatSel := v.extractLsb' 0 8 } } else s
  | 0xF42 => glStore s .left off v
  | 0xF43 => glStore s .right off v
  | 0xF50 => if 0x100 ≤ off ∧ off < 0x180 then slotStore s ((off - 0x100) / 0x10) (off % 0x10) v else s
  | 0xF52 =>
    if off / 0x1000 = 15 then dumpStore s (off % 0x1000) v
    else if off / 0x1000 < 13 then pmuStore s (off / 0x1000) (off % 0x1000) v else s
  | _ => s

/-- Whether a store writes a TK field: a value that is not the field's own (R7, R504; DEDUCED, assumption 32). -/
def tkViolated (s : State) (addr : Nat) (v : Reg32) : Bool :=
  (tkFields addr).any (fun f =>
    let m := BitVec.ofNat 32 f
    v &&& m != fieldGet s addr &&& m)

/-- A direct write to a TK field: ignored, counted, a SECURITY record (R7). -/
def violation (s : State) (addr : Nat) : State :=
  record { s with tk := { s.tk with writeViol := satInc s.tk.writeViol } } .security srcTkmb (cRefused .refusedPolicy) addr

/-- An access to a protected, unmapped or unassigned address: a bus error and a SECURITY record (R402, R503, R504). -/
def protectedHit (s : State) (core : Fin 8) (addr : Nat) : State :=
  violation { s with out := .busError core.val :: s.out } addr

/-- An aligned 32-bit store of kernel mode at a control window address: a block held in reset discards it (R504, R511). -/
def regStore (s : State) (addr : Nat) (v : Reg32) : State :=
  let s1 := if tkViolated s addr v then violation s addr else s
  match portBlock addr with
  | some u => if bit s1.rst.portHeld u then s1 else highStore s1 addr v
  | none => if addr < 0xF3000000 then lowStore s1 addr v else highStore s1 addr v

/-- Whether an address lies in the snapshot window (R503). -/
def inSnapWindow (a : Nat) : Bool := decide (0xE0000000 ≤ a) && decide (a < 0xE0800000)

/-- REGISTER_WRITE: a store of a core; `whole` says that it is aligned, 32 bits wide and of kernel mode; one into the snapshot window is
discarded with a bus error (R503, R504). -/
def execRegisterWrite (core : Fin 8) (addr v : Reg32) (whole : Bool) (s : State) : Host.Outcome State Fault Refusal :=
  .next (coreAccess s core (.registerWrite core addr v whole) (fun s =>
    if inSnapWindow addr.toNat then { s with out := .busError core.val :: s.out }
    else if !assigned addr.toNat then protectedHit s core addr.toNat
    else if !whole || addr.toNat % 4 != 0 then { s with out := .busError core.val :: s.out }
    else regStore s addr.toNat v))

/-- TK_FIELD_WRITE: a direct runtime write to a TK field (R7, R504). -/
def execTkFieldWrite (core : Fin 8) (addr v : Reg32) (s : State) : Host.Outcome State Fault Refusal :=
  .next (coreAccess s core (.tkFieldWrite core addr v) (fun s =>
    if tkMask addr.toNat != 0 && !tkViolated s addr.toNat v then violation s addr.toNat else regStore s addr.toNat v))

/-- A load answered. -/
def loadOf (s : State) (core : Fin 8) (v : Reg32) : State := { s with out := .loaded core.val v :: s.out }

/-- A load of a register: the captured HI half if this core holds one, which releases it, else what the register shows; an unaligned one is a bus
error (R504, R505). The loads that act on their register are commands of their own. -/
def regLoad (s : State) (core : Fin 8) (a : Nat) : State :=
  if a % 4 != 0 then { s with out := .busError core.val :: s.out }
  else if loadActs a then s
  else match s.latches.find? (fun x => x.1 == core.val && x.2.1 + 4 == a) with
    | some x => loadOf { s with latches := s.latches.filter (fun y => y.1 != core.val || y.2.1 + 4 != a) } core x.2.2
    | none => loadOf s core (regView s a)

/-- PROTECTED_ACCESS: a load or store of the cluster, outside the map a bus error with a SECURITY record (R402, R503, R504); a store into the
snapshot window is discarded with a bus error; a load of a register answers (assumption 181). -/
def execProtectedAccess (core : Fin 8) (addr : Word) (store : Bool) (s : State) : Host.Outcome State Fault Refusal :=
  let a := addr.toNat
  .next (coreAccess s core (.protectedAccess core addr store) (fun s =>
    if inSnapWindow a then if store then { s with out := .busError core.val :: s.out } else s
    else if 0x100000000 ≤ a ∧ a < 0x500000000 then s
    else if 0xF0000000 ≤ a ∧ a < 0x100000000 ∧ assigned a then if store then s else regLoad s core a
    else protectedHit s core a))

/-! ## Loads with an effect (R214, R505, R506) -/

/-- The 64-bit value of a split register by the address of its LO half (R505). -/
def splitVal (s : State) (addr : Nat) : Option Word :=
  match addr with
  | 0xF0400008 => some s.cyc.bttc
  | 0xF4000004 => some s.tb.ttc
  | 0xF400004C => some s.tb.syncIn
  | 0xF0300014 => some (s.cul.optime.setWidth 64)
  | a =>
    if 0xF5200000 ≤ a ∧ a < 0xF520D000 then
      let p := nthD s.pmu.inst ((a - 0xF5200000) / 0x1000) {}
      let o := a % 0x1000
      if o = 8 then some (BitVec.ofNat 64 (p.cycT / 10))
      else if 0x40 ≤ o ∧ o < 0x80 ∧ o % 8 = 0 then some ((nthD p.cnt ((o - 0x40) / 8) 0).setWidth 64) else none
    else none

/-- SPLIT_LO_READ: LO returned, HI captured for this core alone (R505). -/
def execSplitLoRead (core : Fin 8) (addr : Reg32) (s : State) : Host.Outcome State Fault Refusal :=
  .next (coreAccess s core (.splitLoRead core addr) (fun s => match splitVal s addr.toNat with
    | none => s
    | some v =>
      let l := (core.val, addr.toNat, (v.extractLsb' 32 32 : Reg32)) :: s.latches.filter (fun x => x.1 != core.val || x.2.1 != addr.toNat)
      loadOf { s with latches := l } core (v.extractLsb' 0 32)))

/-- The 64-bit lane of a published image at an offset; a lane with an uncorrectable error reads zero (R214). -/
def laneOf (x : Published) (off : Nat) : Word :=
  if x.eccWords.contains (off / 8) then 0
  else BitVec.ofNat 64 (leNat ((List.range 8).map (fun i => pubByte x (off / 8 * 8 + i))))

/-- What a snapshot read gives: the context with its flags, and the data (R214). -/
def snapRead (p : Pim) (c : SnapCtx) (off : Nat) : SnapCtx × Word :=
  if c.expired then (c, 0)
  else match p.ring.find? (fun x => x.ver == c.ver) with
    | some x => ({ c with ecc := c.ecc || x.eccWords.any (fun l => l / 4 == off / 32), data := laneOf x off }, laneOf x off)
    | none =>
      if p.ring.isEmpty || before (pubLatest p) c.ver then ({ c with notYet := true, data := 0 }, 0)
      else ({ c with expired := true, data := 0 }, 0)

/-- SNAPSHOT_READ: a core reads the 64-bit lane at an offset of the snapshot window through its context; a frozen bank answers zero with
a bus error (R214, R243). -/
def execSnapshotRead (core : Fin 8) (off : Nat) (s : State) : Host.Outcome State Fault Refusal :=
  .next (coreAccess s core (.snapshotRead core off) (fun s =>
    if 0x800000 ≤ off then s
    else if bit s.arb.freeze (Config.bankOf (off / 32)).val then { s with out := .busError core.val :: .loaded64 core.val 0 :: s.out }
    else
      let r := snapRead s.pim (nthD s.pim.snaps core.val {}) off
      let met := noteWait (if r.1.expired then s else pimMeet s (badOf s.pim r.1.ver) [off / 32]) false [off / 32]
      let s := pmuCount (pmuCount met core.val 0x10C 1) core.val 0x10D (if r.1.expired || r.1.notYet then 1 else 0)
      { s with pim := { s.pim with snaps := setNth s.pim.snaps core.val r.1 }, out := .loaded64 core.val r.2 :: s.out }))

/-- GLB_TASK_REL_READ (R201). -/
def execGlbTaskRelRead (core : Fin 8) (s : State) : Host.Outcome State Fault Refusal :=
  .next (coreAccess s core (.glbTaskRelRead core) (fun s => loadOf { s with glb := { s.glb with taskRel := 0 } } core s.glb.taskRel))

/-- GLB_EVT_STAT_READ: HIGH_WATER is returned and cleared (R7, R201). -/
def execGlbEvtStatRead (core : Fin 8) (n : Fin 16) (s : State) : Host.Outcome State Fault Refusal :=
  .next (coreAccess s core (.glbEvtStatRead core n) (fun s =>
    let e := nthD s.glb.evts n.val {}
    let d : BitVec 7 := BitVec.ofNat 7 e.queue.length
    loadOf { s with glb := modEvt s.glb n.val (fun e => { e with highWater := 0 }) } core
      (e.drops ++ (b2w e.active : BitVec 1) ++ e.highWater ++ (0 : BitVec 1) ++ d)))

/-- FAB_TILE_MAX_READ (R119). -/
def execFabTileMaxRead (core : Fin 8) (n : TileNo) (s : State) : Host.Outcome State Fault Refusal :=
  .next (coreAccess s core (.fabTileMaxRead core n) (fun s => loadOf (modTile s n (fun t => { t with maxCyc := 0 })) core (s.fab.tile n).maxCyc))

/-- PIMA_STG_HWM_READ: the largest USED is returned and cleared (R7, R221). -/
def execPimaStgHwmRead (core : Fin 8) (s : State) : Host.Outcome State Fault Refusal :=
  .next (coreAccess s core (.pimaStgHwmRead core) (fun s =>
    loadOf { s with pim := { s.pim with hwm := 0 } } core (s.pim.hwm.setWidth 32)))

/-- PIMA_SNAP_STAT_READ (R214, R221). -/
def execPimaSnapStatRead (core n : Fin 8) (s : State) : Host.Outcome State Fault Refusal :=
  .next (coreAccess s core (.pimaSnapStatRead core n) (fun s =>
    let c := nthD s.pim.snaps n.val {}
    let v : Reg32 := (if c.ecc then 4 else 0) ||| (if c.notYet then 2 else 0) ||| (if c.expired then 1 else 0)
    loadOf { s with pim := { s.pim with
      snaps := setNth s.pim.snaps n.val { c with expired := false, notYet := false, ecc := false } } } core v))

/-- PIMA_WAIT_READ (R246). -/
def execPimaWaitRead (core : Fin 8) (b : Fin 16) (s : State) : Host.Outcome State Fault Refusal :=
  .next (coreAccess s core (.pimaWaitRead core b) (fun s =>
    let w := nthD s.arb.waits b.val (0, 0)
    loadOf { s with arb := { s.arb with waits := setNth s.arb.waits b.val (0, 0) } } core (w.1 ++ w.2)))

/-- SAFE_RESP_READ (R400). -/
def execSafeRespRead (core : Fin 8) (s : State) : Host.Outcome State Fault Refusal :=
  .next (coreAccess s core (.safeRespRead core) (fun s => loadOf { s with safe := { s.safe with maxUs := 0 } } core (s.safe.lastUs ++ s.safe.maxUs)))

/-- PGV_MEAS_READ: the peak returned and cleared (R463). -/
def execPgvMeasRead (core : Fin 8) (s : State) : Host.Outcome State Fault Refusal :=
  .next (coreAccess s core (.pgvMeasRead core) (fun s =>
    loadOf { s with pgv := { s.pgv with peak := 0 } } core ((0 : BitVec 7) ++ s.pgv.peak ++ (0 : BitVec 7) ++ s.pgv.input)))

/-- GLX_DB_READ: the oldest doorbell value returned and removed; 0 when there is none (R360). -/
def execGlxDbRead (core : Fin 8) (l : GLink) (s : State) : Host.Outcome State Fault Refusal :=
  .next (coreAccess s core (.glxDbRead core l) (fun s =>
    let b := s.grp.br l
    loadOf (modBr s l (fun b => { b with bells := b.bells.drop 1 })) core (b.bells.headD 0)))

/-- TASK_DONE: GLB_TASK_DONE names an ENGINE 2 instance in flight by task and MCC, before the boundary that ends its period (R174). -/
def execTaskDone (core : Fin 8) (task : Fin 32) (mccLo : BitVec 16) (s : State) : Host.Outcome State Fault Refusal :=
  .next (coreAccess s core (.taskDone core task mccLo) (fun s =>
    match taskRec s.ci.act task.val, s.glb.inst.find? (fun i => i.task == task.val && i.rel.setWidth 16 == mccLo) with
    | some r, some i => if r.engine = 2 then { s with glb := modInst s.glb i.task i.rel (fun i => { i with complete := true }) } else s
    | _, _ => s))

/-! ## The step of CLK_AC (R58, R62) -/

/-- The state that a meaning answers. -/
def ofNext (s : State) : Host.Outcome State Fault Refusal → State
  | .next t => t
  | _ => s

/-- An access that the HOST port FIFO held, carried out; the FIFO holds accesses of cores alone (R58). -/
def replay (s : State) (c : Instr) : State :=
  match c with
  | .pmuEvselWrite core i n v => ofNext s (execPmuEvselWrite core i n v s)
  | .counterClear core i => ofNext s (execCounterClear core i s)
  | .dumpArm core v => ofNext s (execDumpArm core v s)
  | .registerWrite core addr v whole => ofNext s (execRegisterWrite core addr v whole s)
  | .tkFieldWrite core addr v => ofNext s (execTkFieldWrite core addr v s)
  | .protectedAccess core addr store => ofNext s (execProtectedAccess core addr store s)
  | .splitLoRead core addr => ofNext s (execSplitLoRead core addr s)
  | .snapshotRead core off => ofNext s (execSnapshotRead core off s)
  | .glbTaskRelRead core => ofNext s (execGlbTaskRelRead core s)
  | .glbEvtStatRead core n => ofNext s (execGlbEvtStatRead core n s)
  | .fabTileMaxRead core n => ofNext s (execFabTileMaxRead core n s)
  | .pimaStgHwmRead core => ofNext s (execPimaStgHwmRead core s)
  | .pimaSnapStatRead core n => ofNext s (execPimaSnapStatRead core n s)
  | .pimaWaitRead core b => ofNext s (execPimaWaitRead core b s)
  | .safeRespRead core => ofNext s (execSafeRespRead core s)
  | .pgvMeasRead core => ofNext s (execPgvMeasRead core s)
  | .glxDbRead core l => ofNext s (execGlxDbRead core l s)
  | .taskDone core task mccLo => ofNext s (execTaskDone core task mccLo s)
  | .evrReadRequest core q => ofNext s (execEvrReadRequest core q s)
  | .acStepRequest st => ofNext s (execAcStepRequest st s)
  | .watchdogKick => ofNext s (execWatchdogKick s)
  | _ => s

/-- The cores run on: the accesses that the HOST port FIFO held are carried out in order; nothing while they still stand still (R58, R449). -/
def coresRun (s : State) : State := if coresStopped s then s else s.host.foldl replay { s with host := [] }

/-- CLK_AC_STEP_DONE: the mask of PLL_AC ends and the cores, unless the governor stalls them, run on, their held accesses first; unlocked the clock
takes the fault reaction (R58, R62, R449). -/
def execClkAcStepDone (locked : Bool) (s : State) : Host.Outcome State Fault Refusal :=
  .next (let s1 := { s with clk := { s.clk with acMask := false } }
    if !s.clk.acMask then s
    else if locked then coresRun s1
    else clockReact { s1 with clk := { s1.clk with ok := clrBit s1.clk.ok 5, fault := setBit s1.clk.fault 5 } } 5)

/-- POWER_WINDOW, every 10 µs; a window that ends a stall lets the cores run on (R445, R448, R449, R463, R511). -/
def execPowerWindow (input mv ma : Nat) (units : List Nat) (s : State) : Host.Outcome State Fault Refusal :=
  .next (if !s.pin.powerGood then s
  else if s.pgv.stalled then coresRun (powerWindow s input mv ma units)
  else powerWindow s input mv ma units)

end Sys2Proof.Machine
end

