-- ==== Sys2Proof/Machine/TileMem.lean ====
section
/-! DEFINITION. Machine/TileMem.lean: LD, ST, branches, loops, SLACK, END, XMIT, LAUNCH and EVREC
(06_tile_instruction_set, R131, R132, R139 to R141). -/

namespace Sys2Proof.Machine

/-- The address of an M-format access: RA plus OFF12 in units of the type's size (R124). -/
def mAddr (t : Tile) (f : MF) : Nat := (t.reg f.ra).toNat + f.off.toNat * tySize f.ty

/-- A loaded number at a type (R126). -/
def loadAs (ty : BitVec 4) (v : Nat) : Word := retype ty (BitVec.ofNat 64 v)

/-- The number a register stores at a type: the low bytes, 0 or 1 for BOOL (R126, R204). -/
def storeAs (ty : BitVec 4) (w : Word) : Nat := if ty = 0 then (if isTrue w then 1 else 0) else w.toNat % 2 ^ tyWidth ty

/-- The image that a tile's running code belongs to (R87). -/
def tileImg (s : State) (n : TileNo) : ConfImage := planeImg s (s.fab.tile n).codeHalf

/-- LD: RD = scratchpad[RA + OFF12 × size] (R127, R131). -/
def execLd (n : TileNo) (f : MF) (s : State) : Host.Outcome State Fault Refusal :=
  .next (issueMem s n 0x1A (.m f) (fun t p =>
    let a := mAddr t f
    if mayAccess (tileImg s n) n t p false a (tySize f.ty) then
      .ok (t.mem, half f.r 2 (loadAs f.ty (t.mem.readLE a (tySize f.ty)), 0))
    else .error a))

/-- ST: scratchpad[RA + OFF12 × size] = RS (R127, R131). -/
def execSt (n : TileNo) (f : MF) (s : State) : Host.Outcome State Fault Refusal :=
  .next (issueMem s n 0x1B (.m f) (fun t p =>
    let a := mAddr t f
    if mayAccess (tileImg s n) n t p true a (tySize f.ty) then
      .ok (t.mem.writeLE a (tySize f.ty) (storeAs f.ty (t.reg f.r)), { cyc := 1 })
    else .error a))

/-- The number of executions of a loop body: min(max(RA, 0), bound) with RA read as DINT, or the bound for G0 (R132). -/
def loopCount (t : Tile) (f : LPF) : Nat :=
  if f.ra = 0 then f.bound.toNat + 1 else min (max (opnd 0x3 (t.reg f.ra)) 0).toNat (f.bound.toNat + 1)

/-- LOOP (R132). -/
def execLoop (n : TileNo) (f : LPF) (s : State) : Host.Outcome State Fault Refusal :=
  .next (issue s n .s0 0x1C (.lp f) (fun t => { cyc := 1, ctl := .loop (f.len.toNat + 1) (loopCount t f) }))

/-- BR: forward DISP16 bundles (R132). -/
def execBr (n : TileNo) (f : BF) (s : State) : Host.Outcome State Fault Refusal :=
  .next (issue s n .s0 0x1D (.b f) (fun _ => { cyc := 1, ctl := .jump f.disp.toNat }))

/-- BRF: forward DISP16 bundles if RA is true, 1 cycle whether taken or not (R132). -/
def execBrf (n : TileNo) (f : BF) (s : State) : Host.Outcome State Fault Refusal :=
  .next (issue s n .s0 0x1E (.b f) (fun t => { cyc := 1, ctl := if isTrue (t.reg f.ra) then .jump f.disp.toNat else .seq }))

/-- BRK: if RA is true, leaves the innermost loop (R132). -/
def execBrk (n : TileNo) (f : BF) (s : State) : Host.Outcome State Fault Refusal :=
  .next (issue s n .s0 0x1F (.b f) (fun t => { cyc := 1, ctl := if isTrue (t.reg f.ra) then .brk else .seq }))

/-- A control instruction that only one of the two programs may contain; in the other it is a reserved encoding and
stops the tile (R139, R140, R143, R145). -/
def issueIn (s : State) (n : TileNo) (op : Nat) (f : TFields) (handler : Bool) (h : Tile → HalfBundle) (eff : Tile → Tile) : State :=
  let t := s.fab.tile n
  if !t.ready .s0 then s
  else
    match t.runner with
    | .handler _ => if handler then modTile (issue s n .s0 op f h) n eff else trapWord s n .s0
    | _ => if handler then trapWord s n .s0 else modTile (issue s n .s0 op f h) n eff

/-- SLACK: opens one slack window of SLACK_CYC cycles; only the main program may contain it (R107, R139). -/
def execSlack (n : TileNo) (s : State) : Host.Outcome State Fault Refusal :=
  let p := tileProg s n (s.fab.tile n).codeHalf
  let s1 := issueIn s n 0x30 .z false (fun _ => { cyc := p.slackCyc })
    (fun t => { t with phase := .slack, windows := t.windows + 1, winStart := t.now, winLeft := p.slackCyc })
  .next (if (s1.fab.tile n).windows = (s.fab.tile n).windows then s1 else pmuCount s1 8 0x202 1)

/-- END: of the main program starts DRAIN, of a handler its event-window drain, at the end of its bundle, whose slot 1 executes with it
(R104, R122, R139). -/
def execEndOp (n : TileNo) (s : State) : Host.Outcome State Fault Refusal :=
  .next (issue s n .s0 0x31 .z (fun _ => { cyc := 1, ctl := .stop }))

/-- XMIT: starts schedule entry XFER (R110, R139). -/
def execXmit (n : TileNo) (xfer : BitVec 13) (s : State) : Host.Outcome State Fault Refusal :=
  let r := s.fab.tile n
  .next (if !r.ready .s0 then s
    else modTile (issue s n .s0 0x2F (.x xfer) (fun _ => { cyc := 1 })) n (fun t => { t with sent := xfer.toNat :: t.sent }))

/-- Whether a LAUNCH time is accepted: 0 < RA - handler start ≤ 2 s as signed 64-bit (R140). -/
def launchOk (ra start : Word) : Bool := decide (0 < (ra - start).toInt) && decide ((ra - start).toInt ≤ 2000000000)

/-- LAUNCH: only in a handler; a time outside its range is ignored and sets LNCH, else the last accepted counts (R140). -/
def execLaunch (n : TileNo) (ra : GReg) (s : State) : Host.Outcome State Fault Refusal :=
  .next (issueIn s n 0x2D (.a ra) true
    (fun t => { cyc := 2, set := match t.hand with
      | some h => flagIf (!launchOk (t.reg ra) h.startTtc) fLNCH
      | none => 0 })
    (fun t => { t with hand := t.hand.map (fun h =>
      if launchOk (t.reg ra) h.startTtc then { h with launch := some (t.reg ra) } else h) }))

/-- EVREC: stages a record, at most 4 for an instance or a handler execution; a further one is dropped and sets
EVDROP (R141). -/
def execEvrec (n : TileNo) (f : EF) (s : State) : Host.Outcome State Fault Refusal :=
  let t := s.fab.tile n
  let staged := match t.runner with
    | .handler h => h.recs
    | _ => t.recs
  let full := decide (4 ≤ staged.length)
  let r : StagedRec := ⟨f.sev.toNat, f.code, t.reg f.ra⟩
  .next (if !t.ready .s0 then s
    else if !fieldsOk 0x2E (.e f) then trapWord s n .s0
    else
      let s1 := issue s n .s0 0x2E (.e f) (fun _ => { cyc := 4, set := flagIf full fEVDROP })
      if full then s1
      else match t.runner with
        | .handler _ => modTile s1 n (fun t => { t with hand := t.hand.map (fun h => { h with recs := h.recs ++ [r] }) })
        | _ => modTile s1 n (fun t => { t with recs := t.recs ++ [r] }))

end Sys2Proof.Machine
end

