-- ==== Sys2Proof/Machine/TileFb.lean ====
section
/-! DEFINITION. Machine/TileFb.lean: the function blocks and their instances in local data (06_tile_instruction_set, R133
to R137). -/

namespace Sys2Proof.Machine

/-- The address of an instance (R124). -/
def instAddr (f : FBF) : Nat := 0x20000 + f.inst.toNat * 32

/-- mcc_now: the MCC of the release, or for a handler the MCC of the image its fill read (R131, R133;
assumption 9). -/
def mccNow (t : Tile) : BitVec 32 :=
  BitVec.ofNat 32 (t.mem.readLE (match t.runner with
    | .handler _ => 0x3F828
    | _ => 0x3F808) 4)

/-- T_base in µs from the release block (R131). -/
def tbaseOf (t : Tile) : Nat := t.mem.readLE 0x3F814 4

/-- Logical time since the last execution, in µs (R133). -/
def dtUs (t : Tile) (a lastOff : Nat) (valid : Bool) : Int :=
  let d := sdiff (mccNow t) (BitVec.ofNat 32 (t.mem.readLE (a + lastOff) 4)) * (tbaseOf t : Int)
  if valid then max d 0 else 0

/-- A signed 32-bit field of an instance. -/
def fld (m : Mem) (a : Nat) : Int := (BitVec.ofNat 32 (m.readLE a 4)).toInt

/-- A signed 32-bit field written. -/
def setFld (m : Mem) (a : Nat) (i : Int) : Mem := m.writeLE a 4 (BitVec.ofInt 32 i).toNat

/-- A function block: reached only where its `size` bytes lie within what the program may access; `g` gives the new
memory and the result for RD. -/
def issueFb (s : State) (n : TileNo) (op : Nat) (f : FBF) (size : Nat) (g : Tile → Nat → Mem × Res) : State :=
  issueMem s n op (.fb f) (fun t p =>
    let a := instAddr f
    if (match t.runner with
        | .handler h => handMay p h.task true a size
        | _ => mainMay true a size) then
      let (m, r) := g t a
      .ok (m, half f.rd (cyc op 0) r)
    else .error a)

/-- PT of a timer: RB as TIME unless RB is G0; a negative PT counts as 0 (R134). -/
def timerPt (t : Tile) (f : FBF) (a : Nat) : Int :=
  max 0 (if f.rb = 0 then fld t.mem a else opnd 0xB (t.reg f.rb))

/-- The state of a timer: IN_PREV, Q, RUN and ET (R134). -/
structure TimerSt where
  prev : Bool
  q : Bool
  run : Bool
  et : Int
  deriving DecidableEq, Repr

/-- TON, one execution (R134). -/
def tonStep (x : TimerSt) (inp : Bool) (dt pt : Int) : TimerSt :=
  if inp then
    let et := if x.prev then min (x.et + dt) pt else 0
    { prev := true, q := decide (pt ≤ et), run := x.run, et }
  else { prev := false, q := false, run := x.run, et := 0 }

/-- TOF, one execution: the table of R134 by the letter (assumption 10). -/
def tofStep (x : TimerSt) (inp : Bool) (dt pt : Int) : TimerSt :=
  if inp then { prev := true, q := true, run := x.run, et := 0 }
  else
    let et := if x.prev then 0 else if x.q then min (x.et + dt) pt else x.et
    { prev := false, q := decide (et < pt), run := x.run, et }

/-- TP, one execution: ET is 0 in the execution that sees the rising edge, and RUN counts as clear as soon as ET has reached PT
(R134; assumption 10). -/
def tpStep (x : TimerSt) (inp : Bool) (dt pt : Int) : TimerSt :=
  let rise := inp && !x.prev && !x.run
  let et := if rise then 0 else if x.run then min (x.et + dt) pt else if inp then x.et else 0
  let running := rise || x.run
  if running && decide (pt ≤ et) then { prev := inp, q := false, run := false, et := if inp then et else 0 }
  else { prev := inp, q := if rise then true else x.q, run := running, et }

/-- A timer executed on its instance: ET at 0x04, mcc_last at 0x08, STATE at 0x0C (R133, R134). -/
def timer (step : TimerSt → Bool → Int → Int → TimerSt) (f : FBF) (t : Tile) (a : Nat) : Mem × Res :=
  let st := t.mem.readLE (a + 12) 4
  let x : TimerSt := ⟨st % 2 == 1, st / 2 % 2 == 1, st / 4 % 2 == 1, fld t.mem (a + 4)⟩
  let y := step x (isTrue (t.reg f.ra)) (dtUs t a 8 (st / 8 % 2 == 1)) (timerPt t f a)
  let w := (if y.prev then 1 else 0) + (if y.q then 2 else 0) + (if y.run then 4 else 0) + 8
  (((setFld t.mem (a + 4) y.et).writeLE (a + 8) 4 (mccNow t).toNat).writeLE (a + 12) 4 w, boolRes y.q)

/-- TON (R134). -/
def execTon (n : TileNo) (f : FBF) (s : State) : Host.Outcome State Fault Refusal :=
  .next (issueFb s n 0x20 f 32 (timer tonStep f))

/-- TOF (R134). -/
def execTof (n : TileNo) (f : FBF) (s : State) : Host.Outcome State Fault Refusal :=
  .next (issueFb s n 0x21 f 32 (timer tofStep f))

/-- TP (R134). -/
def execTp (n : TileNo) (f : FBF) (s : State) : Host.Outcome State Fault Refusal :=
  .next (issueFb s n 0x22 f 32 (timer tpStep f))

/-- An edge block: the previous input in bit 0 of byte 0 (R135). -/
def edge (rising : Bool) (f : FBF) (t : Tile) (a : Nat) : Mem × Res :=
  let b := t.mem.read a
  let p := bit b 0
  let x := isTrue (t.reg f.ra)
  (t.mem.write a (if x then setBit b 0 else clrBit b 0), boolRes (if rising then x && !p else !x && p))

/-- RTRIG (R135). -/
def execRtrig (n : TileNo) (f : FBF) (s : State) : Host.Outcome State Fault Refusal :=
  .next (issueFb s n 0x23 f 32 (edge true f))

/-- FTRIG (R135). -/
def execFtrig (n : TileNo) (f : FBF) (s : State) : Host.Outcome State Fault Refusal :=
  .next (issueFb s n 0x24 f 32 (edge false f))

/-- A counter: PV at 0x00, CV at 0x04, previous input in bit 0 of 0x08 (R135). -/
def counter (up : Bool) (f : FBF) (t : Tile) (a : Nat) : Mem × Res :=
  let pv := fld t.mem a
  let cv := fld t.mem (a + 4)
  let b := t.mem.read (a + 8)
  let x := isTrue (t.reg f.ra)
  let r := isTrue (t.reg f.rb)
  let rise := x && !(bit b 0)
  let cv' : Int :=
    if up then (if r then 0 else if rise then min (cv + 1) (2 ^ 31 - 1) else cv)
    else (if r then pv else if rise then max (cv - 1) (-(2 ^ 31)) else cv)
  ((setFld t.mem (a + 4) cv').write (a + 8) (if x then setBit b 0 else clrBit b 0),
   boolRes (if up then decide (pv ≤ cv') else decide (cv' ≤ 0)))

/-- CTU (R135). -/
def execCtu (n : TileNo) (f : FBF) (s : State) : Host.Outcome State Fault Refusal :=
  .next (issueFb s n 0x25 f 32 (counter true f))

/-- CTD (R135). -/
def execCtd (n : TileNo) (f : FBF) (s : State) : Host.Outcome State Fault Refusal :=
  .next (issueFb s n 0x26 f 32 (counter false f))

/-- A REAL value inside a function block with the flags its computation has set. -/
abbrev FReg := Nat × BitVec 5

/-- A binary32 operation on two such values; a NaN takes its free sign and payload. -/
def fop (op : Nat) (g : FFmt → Nat → Nat → FOut) (x y : FReg) : FReg :=
  let r := fltRes op 0x9 (BitVec.ofNat 64 x.1) (BitVec.ofNat 64 y.1) 0 (g f32 x.1 y.1)
  (r.1.toNat, x.2 ||| y.2 ||| r.2)

/-- A REAL field of an instance. -/
def rfld (m : Mem) (a : Nat) : FReg := (m.readLE a 4, 0)

/-- dt in seconds: dt_us × 10⁻⁶ as a product of binary32 numbers (R136, R137; assumption 11). -/
def dtSec (t : Tile) (a lastOff : Nat) (valid : Bool) : FReg :=
  match f32OfMicros (dtUs t a lastOff valid).toNat with
  | .bits b ovf _ => (b, flagIf ovf fOVF)
  | .nan => (0, 0)

/-- A NaN among binary32 values. -/
def anyNan (l : List FReg) : Bool := l.any (fun x => isNan f32 x.1)

/-- PT1: y = y + (x - y) × dt / (T + dt), y = x at the first execution and for T ≤ 0 (R136). -/
def pt1 (f : FBF) (t : Tile) (a : Nat) : Mem × Res :=
  let x : FReg := (fbits 0x9 (t.reg f.ra), 0)
  let tt := rfld t.mem a
  let y := rfld t.mem (a + 8)
  let fl := t.mem.readLE (a + 16) 1
  let valid := fl % 2 == 1
  let m1 := t.mem.writeLE (a + 12) 4 (mccNow t).toNat
  if anyNan [x, tt] then (m1, (BitVec.ofNat 64 y.1, fINV))
  else
    let dt := dtSec t a 12 valid
    let y' : FReg :=
      if !valid || fle f32 tt.1 0 then x
      else fop 0x27 fadd y (fop 0x27 fdiv (fop 0x27 fmul (fop 0x27 fsub x y) dt) (fop 0x27 fadd tt dt))
    ((m1.writeLE (a + 8) 4 y'.1).writeLE (a + 16) 1 (fl ||| 1), (BitVec.ofNat 64 y'.1, y'.2))

/-- PT1 (R136). -/
def execPt1 (n : TileNo) (f : FBF) (s : State) : Host.Outcome State Fault Refusal :=
  .next (issueFb s n 0x27 f 32 (pt1 f))

/-- RAMP: y moves toward x by at most RATE_UP × dt upward and RATE_DN × dt downward (R136); with a negative rate in
the direction of the move the result is free (assumption 4). -/
def ramp (f : FBF) (t : Tile) (a : Nat) : Mem × Res :=
  let x : FReg := (fbits 0x9 (t.reg f.ra), 0)
  let up := rfld t.mem a
  let dn := rfld t.mem (a + 4)
  let y := rfld t.mem (a + 8)
  let fl := t.mem.readLE (a + 16) 1
  let valid := fl % 2 == 1
  let m1 := t.mem.writeLE (a + 12) 4 (mccNow t).toNat
  if anyNan [x, up, dn] then (m1, (BitVec.ofNat 64 y.1, fINV))
  else
    let dt := dtSec t a 12 valid
    let rate := if flt f32 y.1 x.1 then up else dn
    let y' : FReg :=
      if !valid || feq f32 x.1 y.1 then x
      else if flt f32 rate.1 0 then
        (Config.rampNegative (BitVec.ofNat 64 x.1) (BitVec.ofNat 64 y.1) (BitVec.ofNat 64 rate.1) % 2 ^ 32, 0)
      else if flt f32 y.1 x.1 then
        let z := fop 0x28 fadd y (fop 0x28 fmul up dt)
        if flt f32 x.1 z.1 then (x.1, z.2) else z
      else
        let z := fop 0x28 fsub y (fop 0x28 fmul dn dt)
        if flt f32 z.1 x.1 then (x.1, z.2) else z
    ((m1.writeLE (a + 8) 4 y'.1).writeLE (a + 16) 1 (fl ||| 1), (BitVec.ofNat 64 y'.1, y'.2))

/-- RAMP (R136). -/
def execRamp (n : TileNo) (f : FBF) (s : State) : Host.Outcome State Fault Refusal :=
  .next (issueFb s n 0x28 f 32 (ramp f))

/-- A value held within [lo, hi] in binary32. -/
def fclamp (x lo hi : FReg) : FReg :=
  if flt f32 x.1 lo.1 then (lo.1, x.2) else if flt f32 hi.1 x.1 then (hi.1, x.2) else x

/-- The values one execution of PID works from (R137). -/
structure PidIn where
  sp : FReg
  pv : FReg
  kp : FReg
  ti : FReg
  td : FReg
  yMin : FReg
  yMax : FReg
  yMan : FReg
  i : FReg
  pvPrev : FReg
  dt : FReg
  manual : Bool

/-- I and y of one execution of PID, in the order R137 writes it. -/
def pidStep (x : PidIn) : FReg × FReg :=
  let o := 0x29
  let e := fop o fsub x.sp x.pv
  let p := fop o fmul x.kp e
  let d : FReg :=
    if flt f32 0 x.td.1 && flt f32 0 x.dt.1 then
      fop o fdiv (fop o fmul (fop o fmul (fneg f32 x.kp.1, x.kp.2) x.td) (fop o fsub x.pv x.pvPrev)) x.dt
    else (0, 0)
  if x.manual then
    let y := fclamp x.yMan x.yMin x.yMax
    (fclamp (fop o fsub (fop o fsub y p) d) x.yMin x.yMax, y)
  else if fle f32 x.ti.1 0 then ((0, 0), fclamp (fop o fadd p d) x.yMin x.yMax)
  else
    let iNew := fop o fadd x.i (fop o fdiv (fop o fmul (fop o fmul x.kp e) x.dt) x.ti)
    let u := fop o fadd (fop o fadd p iNew) d
    let hold := (flt f32 x.yMax.1 u.1 && flt f32 0 e.1) || (flt f32 u.1 x.yMin.1 && flt f32 e.1 0)
    let i := fclamp (if hold then (x.i.1, iNew.2 ||| u.2) else (iNew.1, iNew.2 ||| u.2)) x.yMin x.yMax
    (i, fclamp (fop o fadd (fop o fadd p i) d) x.yMin x.yMax)

/-- PID on its instance of 64 bytes (R137). -/
def pid (f : FBF) (t : Tile) (a : Nat) : Mem × Res :=
  let m := t.mem
  let fl := m.readLE (a + 0x28) 1
  let manual := fl % 2 == 1
  let reset := fl / 2 % 2 == 1
  let valid := fl / 4 % 2 == 1
  let sp : FReg := (fbits 0x9 (t.reg f.ra), 0)
  let pv : FReg := (fbits 0x9 (t.reg f.rb), 0)
  let r := fun o => rfld m (a + o)
  let m1 := m.writeLE (a + 0x24) 4 (mccNow t).toNat
  if anyNan [sp, pv, r 0, r 4, r 8, r 12, r 16, r 20] || flt f32 (r 16).1 (r 12).1 then
    (m1, (BitVec.ofNat 64 (r 0x20).1, fINV))
  else
    let dt := if reset then (0, 0) else dtSec t a 0x24 valid
    let (i, y) := pidStep { sp, pv, kp := r 0, ti := r 4, td := r 8, yMin := r 12, yMax := r 16, yMan := r 20,
                            i := if reset then (0, 0) else r 0x18, pvPrev := r 0x1C, dt, manual }
    let fl' := (if manual then 1 else 0) + 4 + (if feq f32 y.1 (r 16).1 then 8 else 0) + (if feq f32 y.1 (r 12).1 then 16 else 0)
    let m2 := (m1.writeLE (a + 0x18) 4 i.1).writeLE (a + 0x1C) 4 pv.1
    ((m2.writeLE (a + 0x20) 4 y.1).writeLE (a + 0x28) 1 fl', (BitVec.ofNat 64 y.1, i.2 ||| y.2))

/-- PID (R137). -/
def execPid (n : TileNo) (f : FBF) (s : State) : Host.Outcome State Fault Refusal :=
  .next (issueFb s n 0x29 f 64 (pid f))

end Sys2Proof.Machine
end

