-- ==== Sys2Proof/Machine/Dispatch.lean ====
section
/-! DEFINITION. Machine/Dispatch.lean: each command's meaning by one direct call. -/

namespace Sys2Proof.Machine

/-- The effect of a command on everything but the queue of waiting commands. -/
def exec (i : Instr) (s : State) : Host.Outcome State Fault Refusal :=
  match i with
  | .powerUpThreshold => Sys2Proof.Machine.execPowerUpThreshold s
  | .powerGood canaryOk => Sys2Proof.Machine.execPowerGood canaryOk s
  | .ledTestPhaseEnd => Sys2Proof.Machine.execLedTestPhaseEnd s
  | .trustedKernelStart => Sys2Proof.Machine.execTrustedKernelStart s
  | .activePlaneLoaded => Sys2Proof.Machine.execActivePlaneLoaded s
  | .powerFailWarning => Sys2Proof.Machine.execPowerFailWarning s
  | .overVoltageLockout => Sys2Proof.Machine.execOverVoltageLockout s
  | .warningClear => Sys2Proof.Machine.execWarningClear s
  | .holdUpCutoff => Sys2Proof.Machine.execHoldUpCutoff s
  | .overvoltageSustained => Sys2Proof.Machine.execOvervoltageSustained s
  | .wakeAccept => Sys2Proof.Machine.execWakeAccept s
  | .wakeExpiry => Sys2Proof.Machine.execWakeExpiry s
  | .rstN => Sys2Proof.Machine.execRstN s
  | .moduleResetTakeEffect => Sys2Proof.Machine.execModuleResetTakeEffect s
  | .syncInEdge => Sys2Proof.Machine.execSyncInEdge s
  | .thermalLimit => Sys2Proof.Machine.execThermalLimit s
  | .thermalDerate t => Sys2Proof.Machine.execThermalDerate t s
  | .clockFault src => Sys2Proof.Machine.execClockFault src s
  | .clkAcStepDone locked => Sys2Proof.Machine.execClkAcStepDone locked s
  | .boundary => Sys2Proof.Machine.execBoundary s
  | .settlingComplete => Sys2Proof.Machine.execSettlingComplete s
  | .taskRelease => Sys2Proof.Machine.execTaskRelease s
  | .fillEnd t => Sys2Proof.Machine.execFillEnd t s
  | .drainComplete t => Sys2Proof.Machine.execDrainComplete t s
  | .deadlineExpiry t => Sys2Proof.Machine.execDeadlineExpiry t s
  | .scheduledTransfer xfer => Sys2Proof.Machine.execScheduledTransfer xfer s
  | .eventDispatch t evt => Sys2Proof.Machine.execEventDispatch t evt s
  | .handlerEnd t => Sys2Proof.Machine.execHandlerEnd t s
  | .scratchpadScrub t corrected => Sys2Proof.Machine.execScratchpadScrub t corrected s
  | .scratchpadEccError t addr correctable => Sys2Proof.Machine.execScratchpadEccError t addr correctable s
  | .linkEccError xfer correctable => Sys2Proof.Machine.execLinkEccError xfer correctable s
  | .fabricReset activation => Sys2Proof.Machine.execFabricReset activation s
  | .fabricResetDone => Sys2Proof.Machine.execFabricResetDone s
  | .tileReset t => Sys2Proof.Machine.execTileReset t s
  | .tileResetDone t => Sys2Proof.Machine.execTileResetDone t s
  | .nop t sl => Sys2Proof.Machine.execNop t sl s
  | .mov t sl f => Sys2Proof.Machine.execMov t sl f s
  | .limm t f => Sys2Proof.Machine.execLimm t f s
  | .add t sl f => Sys2Proof.Machine.execAdd t sl f s
  | .addi t sl f => Sys2Proof.Machine.execAddi t sl f s
  | .sub t sl f => Sys2Proof.Machine.execSub t sl f s
  | .neg t sl f => Sys2Proof.Machine.execNeg t sl f s
  | .abs t sl f => Sys2Proof.Machine.execAbs t sl f s
  | .min t sl f => Sys2Proof.Machine.execMin t sl f s
  | .max t sl f => Sys2Proof.Machine.execMax t sl f s
  | .lim t sl f => Sys2Proof.Machine.execLim t sl f s
  | .mul t sl f => Sys2Proof.Machine.execMul t sl f s
  | .mac t sl f => Sys2Proof.Machine.execMac t sl f s
  | .div t f => Sys2Proof.Machine.execDiv t f s
  | .mod t f => Sys2Proof.Machine.execMod t f s
  | .sqrt t f => Sys2Proof.Machine.execSqrt t f s
  | .and t sl f => Sys2Proof.Machine.execAnd t sl f s
  | .or t sl f => Sys2Proof.Machine.execOr t sl f s
  | .xor t sl f => Sys2Proof.Machine.execXor t sl f s
  | .not t sl f => Sys2Proof.Machine.execNot t sl f s
  | .shl t sl f => Sys2Proof.Machine.execShl t sl f s
  | .shr t sl f => Sys2Proof.Machine.execShr t sl f s
  | .cmp t sl f => Sys2Proof.Machine.execCmp t sl f s
  | .cmpi t sl f => Sys2Proof.Machine.execCmpi t sl f s
  | .sel t sl f => Sys2Proof.Machine.execSel t sl f s
  | .cvt t sl f => Sys2Proof.Machine.execCvt t sl f s
  | .ld t f => Sys2Proof.Machine.execLd t f s
  | .st t f => Sys2Proof.Machine.execSt t f s
  | .loop t f => Sys2Proof.Machine.execLoop t f s
  | .br t f => Sys2Proof.Machine.execBr t f s
  | .brf t f => Sys2Proof.Machine.execBrf t f s
  | .brk t f => Sys2Proof.Machine.execBrk t f s
  | .ton t f => Sys2Proof.Machine.execTon t f s
  | .tof t f => Sys2Proof.Machine.execTof t f s
  | .tp t f => Sys2Proof.Machine.execTp t f s
  | .rtrig t f => Sys2Proof.Machine.execRtrig t f s
  | .ftrig t f => Sys2Proof.Machine.execFtrig t f s
  | .ctu t f => Sys2Proof.Machine.execCtu t f s
  | .ctd t f => Sys2Proof.Machine.execCtd t f s
  | .pt1 t f => Sys2Proof.Machine.execPt1 t f s
  | .ramp t f => Sys2Proof.Machine.execRamp t f s
  | .pid t f => Sys2Proof.Machine.execPid t f s
  | .qmrg t sl f => Sys2Proof.Machine.execQmrg t sl f s
  | .qtst t sl f => Sys2Proof.Machine.execQtst t sl f s
  | .qset t sl f => Sys2Proof.Machine.execQset t sl f s
  | .launch t ra => Sys2Proof.Machine.execLaunch t ra s
  | .evrec t f => Sys2Proof.Machine.execEvrec t f s
  | .xmit t xfer => Sys2Proof.Machine.execXmit t xfer s
  | .slack t => Sys2Proof.Machine.execSlack t s
  | .endOp t => Sys2Proof.Machine.execEndOp t s
  | .getf t sl f => Sys2Proof.Machine.execGetf t sl f s
  | .launchFire q => Sys2Proof.Machine.execLaunchFire q s
  | .soLaunch => Sys2Proof.Machine.execSoLaunch s
  | .gateEntry p => Sys2Proof.Machine.execGateEntry p s
  | .frameTransmit p => Sys2Proof.Machine.execFrameTransmit p s
  | .frameReceive p f raw fcsOk => Sys2Proof.Machine.execFrameReceive p f raw fcsOk s
  | .sdtSkewTimeout sub => Sys2Proof.Machine.execSdtSkewTimeout sub s
  | .linkUp p speed => Sys2Proof.Machine.execLinkUp p speed s
  | .linkDown p => Sys2Proof.Machine.execLinkDown p s
  | .prpSupervision => Sys2Proof.Machine.execPrpSupervision s
  | .prpEntryAge mac => Sys2Proof.Machine.execPrpEntryAge mac s
  | .pdCounterForget sub src => Sys2Proof.Machine.execPdCounterForget sub src s
  | .arpRefresh => Sys2Proof.Machine.execArpRefresh s
  | .mdReassemblyTimeout src id => Sys2Proof.Machine.execMdReassemblyTimeout src id s
  | .hostFrameSubmit p addr len pcp => Sys2Proof.Machine.execHostFrameSubmit p addr len pcp s
  | .mvbBasicPeriod j => Sys2Proof.Machine.execMvbBasicPeriod j s
  | .mvbPoll => Sys2Proof.Machine.execMvbPoll s
  | .mvbMasterFrame f a lineA lineB => Sys2Proof.Machine.execMvbMasterFrame f a lineA lineB s
  | .mvbSlaveFrame data lineA lineB => Sys2Proof.Machine.execMvbSlaveFrame data lineA lineB s
  | .canFrameReceive n f => Sys2Proof.Machine.execCanFrameReceive n f s
  | .canTxComplete n idx => Sys2Proof.Machine.execCanTxComplete n idx s
  | .canTxTimeout n idx => Sys2Proof.Machine.execCanTxTimeout n idx s
  | .busOff n => Sys2Proof.Machine.execBusOff n s
  | .busOffRecoveryDone n => Sys2Proof.Machine.execBusOffRecoveryDone n s
  | .canopenSync n => Sys2Proof.Machine.execCanopenSync n s
  | .semaphoreRevoke u sem => Sys2Proof.Machine.execSemaphoreRevoke u sem s
  | .postedWriteFailure tag st => Sys2Proof.Machine.execPostedWriteFailure tag st s
  | .transactionComplete tag => Sys2Proof.Machine.execTransactionComplete tag s
  | .tagTimeout tag => Sys2Proof.Machine.execTagTimeout tag s
  | .retryReissue tag => Sys2Proof.Machine.execRetryReissue tag s
  | .receiveBufferDequeue p => Sys2Proof.Machine.execReceiveBufferDequeue p s
  | .stagingEntryFree => Sys2Proof.Machine.execStagingEntryFree s
  | .holdCutoff bank tag => Sys2Proof.Machine.execHoldCutoff bank tag s
  | .quarantineEnd bank => Sys2Proof.Machine.execQuarantineEnd bank s
  | .sigWrite q sid v => Sys2Proof.Machine.execSigWrite q sid v s
  | .sigAtomic q sid fn operand cmp => Sys2Proof.Machine.execSigAtomic q sid fn operand cmp s
  | .dmaCopy q ver addr count => Sys2Proof.Machine.execDmaCopy q ver addr count s
  | .mdReceive q ses addr len => Sys2Proof.Machine.execMdReceive q ses addr len s
  | .mdNotify q ses addr len dst => Sys2Proof.Machine.execMdNotify q ses addr len dst s
  | .mdRequest q ses addr len dst expected => Sys2Proof.Machine.execMdRequest q ses addr len dst expected s
  | .mdReply q ses addr len token => Sys2Proof.Machine.execMdReply q ses addr len token s
  | .mdReplyConfirm q ses addr len token => Sys2Proof.Machine.execMdReplyConfirm q ses addr len token s
  | .mdConfirm q ses addr len token => Sys2Proof.Machine.execMdConfirm q ses addr len token s
  | .mvbRead q port len addr sem => Sys2Proof.Machine.execMvbRead q port len addr sem s
  | .mvbWrite q port len addr sem => Sys2Proof.Machine.execMvbWrite q port len addr sem s
  | .canSend q n ident len fd brs addr sem => Sys2Proof.Machine.execCanSend q n ident len fd brs addr sem s
  | .canRecv q n ident len us addr => Sys2Proof.Machine.execCanRecv q n ident len us addr s
  | .semAcq q unit sem first last => Sys2Proof.Machine.execSemAcq q unit sem first last s
  | .semRel q sem => Sys2Proof.Machine.execSemRel q sem s
  | .glRead q l off len addr sem => Sys2Proof.Machine.execGlRead q l off len addr sem s
  | .glWrite q l off len addr sem => Sys2Proof.Machine.execGlWrite q l off len addr sem s
  | .glSemAcq q l sem first last => Sys2Proof.Machine.execGlSemAcq q l sem first last s
  | .glSemRel q l sem => Sys2Proof.Machine.execGlSemRel q l sem s
  | .glDoorbell q l v => Sys2Proof.Machine.execGlDoorbell q l v s
  | .snapshotRead core off => Sys2Proof.Machine.execSnapshotRead core off s
  | .splitLoRead core addr => Sys2Proof.Machine.execSplitLoRead core addr s
  | .taskDone core task mccLo => Sys2Proof.Machine.execTaskDone core task mccLo s
  | .glbTaskRelRead core => Sys2Proof.Machine.execGlbTaskRelRead core s
  | .glbEvtStatRead core n => Sys2Proof.Machine.execGlbEvtStatRead core n s
  | .fabTileMaxRead core n => Sys2Proof.Machine.execFabTileMaxRead core n s
  | .pimaStgHwmRead core => Sys2Proof.Machine.execPimaStgHwmRead core s
  | .pimaSnapStatRead core n => Sys2Proof.Machine.execPimaSnapStatRead core n s
  | .pimaWaitRead core b => Sys2Proof.Machine.execPimaWaitRead core b s
  | .safeRespRead core => Sys2Proof.Machine.execSafeRespRead core s
  | .pgvMeasRead core => Sys2Proof.Machine.execPgvMeasRead core s
  | .glxDbRead core l => Sys2Proof.Machine.execGlxDbRead core l s
  | .evrReadRequest core q => Sys2Proof.Machine.execEvrReadRequest core q s
  | .evrReadComplete core => Sys2Proof.Machine.execEvrReadComplete core s
  | .watchdogKick => Sys2Proof.Machine.execWatchdogKick s
  | .watchdogExpiry => Sys2Proof.Machine.execWatchdogExpiry s
  | .acStepRequest st => Sys2Proof.Machine.execAcStepRequest st s
  | .pmuEvselWrite core idx n v => Sys2Proof.Machine.execPmuEvselWrite core idx n v s
  | .counterClear core idx => Sys2Proof.Machine.execCounterClear core idx s
  | .dumpArm core v => Sys2Proof.Machine.execDumpArm core v s
  | .pmuCounterWrap idx n spc => Sys2Proof.Machine.execPmuCounterWrap idx n spc s
  | .dumpRecordWrite => Sys2Proof.Machine.execDumpRecordWrite s
  | .tkFieldWrite core addr v => Sys2Proof.Machine.execTkFieldWrite core addr v s
  | .protectedAccess core addr store => Sys2Proof.Machine.execProtectedAccess core addr store s
  | .registerWrite core addr v whole => Sys2Proof.Machine.execRegisterWrite core addr v whole s
  | .sessionOpen c t => Sys2Proof.Machine.execSessionOpen c t s
  | .sessionClose c => Sys2Proof.Machine.execSessionClose c s
  | .sigmapRead c shadow off len => Sys2Proof.Machine.execSigmapRead c shadow off len s
  | .runtimeReady c => Sys2Proof.Machine.execRuntimeReady c s
  | .forceList c => Sys2Proof.Machine.execForceList c s
  | .startWarm c => Sys2Proof.Machine.execStartWarm c s
  | .startCold c => Sys2Proof.Machine.execStartCold c s
  | .stop c => Sys2Proof.Machine.execStop c s
  | .hold c => Sys2Proof.Machine.execHold c s
  | .continue c => Sys2Proof.Machine.execContinue c s
  | .step c n => Sys2Proof.Machine.execStep c n s
  | .automaticStart => Sys2Proof.Machine.execAutomaticStart s
  | .dormantEnter c => Sys2Proof.Machine.execDormantEnter c s
  | .forceSet c sid v code => Sys2Proof.Machine.execForceSet c sid v code s
  | .forceClear c sid => Sys2Proof.Machine.execForceClear c sid s
  | .forceClearAll c => Sys2Proof.Machine.execForceClearAll c s
  | .timeAccept c => Sys2Proof.Machine.execTimeAccept c s
  | .safeAck c => Sys2Proof.Machine.execSafeAck c s
  | .roleSwap c => Sys2Proof.Machine.execRoleSwap c s
  | .groupMaintEnter c => Sys2Proof.Machine.execGroupMaintEnter c s
  | .groupMaintLeave c => Sys2Proof.Machine.execGroupMaintLeave c s
  | .groupClearLatent c pos => Sys2Proof.Machine.execGroupClearLatent c pos s
  | .maintEnable c => Sys2Proof.Machine.execMaintEnable c s
  | .maintDisable c => Sys2Proof.Machine.execMaintDisable c s
  | .regWrite c addr mask value => Sys2Proof.Machine.execRegWrite c addr mask value s
  | .moduleReset c => Sys2Proof.Machine.execModuleReset c s
  | .runtimeReset c => Sys2Proof.Machine.execRuntimeReset c s
  | .portReset c unit => Sys2Proof.Machine.execPortReset c unit s
  | .pimFreeze c banks => Sys2Proof.Machine.execPimFreeze c banks s
  | .txeQuotaWrite c idx lo hi => Sys2Proof.Machine.execTxeQuotaWrite c idx lo hi s
  | .pgvCapLimitWrite c limit => Sys2Proof.Machine.execPgvCapLimitWrite c limit s
  | .settingsReset c => Sys2Proof.Machine.execSettingsReset c s
  | .tileDebugRead c t addr len => Sys2Proof.Machine.execTileDebugRead c t addr len s
  | .evrClear c sev => Sys2Proof.Machine.execEvrClear c sev s
  | .keystoreLoad c k => Sys2Proof.Machine.execKeystoreLoad c k s
  | .updMsg c m => Sys2Proof.Machine.execUpdMsg c m s
  | .updActivate c t => Sys2Proof.Machine.execUpdActivate c t s
  | .updConfirm c t => Sys2Proof.Machine.execUpdConfirm c t s
  | .updRevert c t => Sys2Proof.Machine.execUpdRevert c t s
  | .updAbort c t => Sys2Proof.Machine.execUpdAbort c t s
  | .updSlotInfo c t => Sys2Proof.Machine.execUpdSlotInfo c t s
  | .sessionExpiry h => Sys2Proof.Machine.execSessionExpiry h s
  | .lockoutEnd => Sys2Proof.Machine.execLockoutEnd s
  | .shadowLoadDone => Sys2Proof.Machine.execShadowLoadDone s
  | .manifest src h m => Sys2Proof.Machine.execManifest src h m s
  | .manifestReply src h es => Sys2Proof.Machine.execManifestReply src h es s
  | .segment h e => Sys2Proof.Machine.execSegment h e s
  | .statusReq src h => Sys2Proof.Machine.execStatusReq src h s
  | .statusReply src h es missing => Sys2Proof.Machine.execStatusReply src h es missing s
  | .commandActivate src h ts => Sys2Proof.Machine.execCommandActivate src h ts s
  | .commandConfirm src h ts => Sys2Proof.Machine.execCommandConfirm src h ts s
  | .commandRevert src h ts => Sys2Proof.Machine.execCommandRevert src h ts s
  | .commandAbort src h ts => Sys2Proof.Machine.execCommandAbort src h ts s
  | .commandReply src h es => Sys2Proof.Machine.execCommandReply src h es s
  | .verificationDone t v => Sys2Proof.Machine.execVerificationDone t v s
  | .updateSessionIdle t => Sys2Proof.Machine.execUpdateSessionIdle t s
  | .healthReached t => Sys2Proof.Machine.execHealthReached t s
  | .lehrEnd t => Sys2Proof.Machine.execLehrEnd t s
  | .powerWindow input mv ma units => Sys2Proof.Machine.execPowerWindow input mv ma units s
  | .retentionPoint => Sys2Proof.Machine.execRetentionPoint s
  | .countersRecordWrite => Sys2Proof.Machine.execCountersRecordWrite s
  | .flushComplete => Sys2Proof.Machine.execFlushComplete s
  | .backgroundCopy => Sys2Proof.Machine.execBackgroundCopy s
  | .timeStep => Sys2Proof.Machine.execTimeStep s
  | .announceTimeout b => Sys2Proof.Machine.execAnnounceTimeout b s
  | .syncTimeout => Sys2Proof.Machine.execSyncTimeout s
  | .ptpDelayReq b => Sys2Proof.Machine.execPtpDelayReq b s
  | .ptpMasterSend b => Sys2Proof.Machine.execPtpMasterSend b s
  | .gmTimeValid => Sys2Proof.Machine.execGmTimeValid s
  | .glLinkUp l => Sys2Proof.Machine.execGlLinkUp l s
  | .glLinkDown l => Sys2Proof.Machine.execGlLinkDown l s
  | .hbSend => Sys2Proof.Machine.execHbSend s
  | .hb l h p => Sys2Proof.Machine.execHb l h p s
  | .hbRelay l h p => Sys2Proof.Machine.execHbRelay l h p s
  | .heartbeatCheck => Sys2Proof.Machine.execHeartbeatCheck s
  | .failSilentIndication l => Sys2Proof.Machine.execFailSilentIndication l s
  | .orderTakeover l h o => Sys2Proof.Machine.execOrderTakeover l h o s
  | .orderExclude l h o => Sys2Proof.Machine.execOrderExclude l h o s
  | .orderAdoptMcc l h o => Sys2Proof.Machine.execOrderAdoptMcc l h o s
  | .orderRoles l h o => Sys2Proof.Machine.execOrderRoles l h o s
  | .ack l h type id st => Sys2Proof.Machine.execAck l h type id st s
  | .targetModeCommand l h mcc a => Sys2Proof.Machine.execTargetModeCommand l h mcc a s
  | .targetForceChange l h mcc cs => Sys2Proof.Machine.execTargetForceChange l h mcc cs s
  | .targetTimeStep l h mcc => Sys2Proof.Machine.execTargetTimeStep l h mcc s
  | .targetRoleSwap l h mcc => Sys2Proof.Machine.execTargetRoleSwap l h mcc s
  | .targetMaintEnter l h mcc => Sys2Proof.Machine.execTargetMaintEnter l h mcc s
  | .targetMaintLeave l h mcc => Sys2Proof.Machine.execTargetMaintLeave l h mcc s
  | .propose rx => Sys2Proof.Machine.execPropose rx s
  | .accept l h hash st => Sys2Proof.Machine.execAccept l h hash st s
  | .commit l h hash mcc => Sys2Proof.Machine.execCommit l h hash mcc s
  | .abort rx => Sys2Proof.Machine.execAbort rx s
  | .delta l h es => Sys2Proof.Machine.execDelta l h es s
  | .deltaEnd l h entries frames => Sys2Proof.Machine.execDeltaEnd l h entries frames s
  | .inputAgreement => Sys2Proof.Machine.execInputAgreement s
  | .voteSend => Sys2Proof.Machine.execVoteSend s
  | .vote l h es => Sys2Proof.Machine.execVote l h es s
  | .voteDecide => Sys2Proof.Machine.execVoteDecide s
  | .mirror l h es => Sys2Proof.Machine.execMirror l h es s
  | .rdReq l h off words sem => Sys2Proof.Machine.execRdReq l h off words sem s
  | .wrReq l h off sem posted data => Sys2Proof.Machine.execWrReq l h off sem posted data s
  | .semAcqFrame l h sem first last => Sys2Proof.Machine.execSemAcqFrame l h sem first last s
  | .semRelFrame l h sem => Sys2Proof.Machine.execSemRelFrame l h sem s
  | .doorbell l h v => Sys2Proof.Machine.execDoorbell l h v s
  | .xferReq l h serial => Sys2Proof.Machine.execXferReq l h serial s
  | .rdRsp l h st data => Sys2Proof.Machine.execRdRsp l h st data s
  | .wrRsp l h st => Sys2Proof.Machine.execWrRsp l h st s
  | .semRsp l h st => Sys2Proof.Machine.execSemRsp l h st s
  | .retry l h => Sys2Proof.Machine.execRetry l h s
  | .xferData l h off p => Sys2Proof.Machine.execXferData l h off p s
  | .credit l h => Sys2Proof.Machine.execCredit l h s
  | .creditReturnTimer l => Sys2Proof.Machine.execCreditReturnTimer l s
  | .formingTimeout => Sys2Proof.Machine.execFormingTimeout s
  | .probationEnd pos => Sys2Proof.Machine.execProbationEnd pos s
  | .rotationMinute => Sys2Proof.Machine.execRotationMinute s
  | .driveCheck => Sys2Proof.Machine.execDriveCheck s
  | .safetyTaskEnd task writes us vars flowOk => Sys2Proof.Machine.execSafetyTaskEnd task writes us vars flowOk s
  | .soReadback rb0 rb1 => Sys2Proof.Machine.execSoReadback rb0 rb1 s
  | .soTestPulse pass0 pass1 => Sys2Proof.Machine.execSoTestPulse pass0 pass1 s
  | .inputTestPulse t2 a1 a2 b1 b2 => Sys2Proof.Machine.execInputTestPulse t2 a1 a2 b1 b2 s
  | .safeInputChange ch v => Sys2Proof.Machine.execSafeInputChange ch v s
  | .inputDiscrepancyTimeout pair => Sys2Proof.Machine.execInputDiscrepancyTimeout pair s
  | .inputFaultClear pair => Sys2Proof.Machine.execInputFaultClear pair s
  | .livenessPulse onTime => Sys2Proof.Machine.execLivenessPulse onTime s
  | .canaryWatch cause => Sys2Proof.Machine.execCanaryWatch cause s
  | .failSilence cause => Sys2Proof.Machine.execFailSilence cause s
  | .canaryReset => Sys2Proof.Machine.execCanaryReset s
  | .sramScrub corrected uncorrectable => Sys2Proof.Machine.execSramScrub corrected uncorrectable s
  | .coreSelfTest pass => Sys2Proof.Machine.execCoreSelfTest pass s
  | .rstNRelease => Sys2Proof.Machine.execRstNRelease s
  | .vstbyBelowMinimum => Sys2Proof.Machine.execVstbyBelowMinimum s
  | .vstbyReturn => Sys2Proof.Machine.execVstbyReturn s
  | .portResetDone u => Sys2Proof.Machine.execPortResetDone u s
  | .clusterRelease => Sys2Proof.Machine.execClusterRelease s
  | .lehrLeftWrite => Sys2Proof.Machine.execLehrLeftWrite s

end Sys2Proof.Machine
end

