-- ==== Sys2Proof/Safety.lean ====
section
/-! DEFINITION. Safety.lean: what statements about the machine are said with: the conditions that every step keeps, what a
record of the event recorder is, how a tile stands before and after an instruction. -/

namespace Sys2Proof.Machine

/-! ## Conditions that every step keeps -/

/-- A safe output is de-energised while the island is in its safe state, the module is fail-silent or the output has a latched
fault (R381, R383, R387). -/
def SoOk (f : Safe) : Prop :=
  ∀ o ∈ f.so, (f.cause ≠ 0 ∨ f.failSilent = true ∨ o.faultHigh = true ∨ o.faultLow = true) → o.cmd = false

/-- The fabric has 48 tiles of 32 registers, every scratchpad in the canonical form of the model's memories (R97, R99, R123). -/
def FabOk (f : Fabric) : Prop := f.tiles.length = 48 ∧ ∀ t ∈ f.tiles, t.mem.wf = true ∧ t.regs.length = 32

/-- The memories are in their canonical form and the fabric has its shape. -/
def Shape (s : State) : Prop := s.dram.wf = true ∧ FabOk s.fab

/-- The stores hold no more than the manual gives them: 4 published versions (R213), 16,384 records in the ring and 512 pending ones
(R472), 64 entries in the posted-write error log (R234). -/
def Bounded (s : State) : Prop :=
  s.pim.ring.length ≤ 4 ∧ s.evr.ring.length ≤ 16384 ∧ s.evr.pending.length ≤ 512 ∧ s.txe.log.length ≤ 64

/-! ## Records -/

/-- The record that a command wrote first: it has the next SEQ of the state before and stands in the ring (R465, R466, R470, R471). -/
def Records (s t : State) (sev : Sev) (src : BitVec 12) (code : BitVec 16) : Prop :=
  ∃ r ∈ t.evr.ring, r.seq = s.evr.nextSeq ∧ r.sev = sev ∧ r.src = src ∧ r.code = code

/-! ## Tiles -/

/-- The position and the loops of the program that holds the tile: the handler's while there is one, else the main program's (R122, R132). -/
def Tile.place (t : Tile) : Nat × List LoopFrame :=
  match t.hand with
  | some h => (h.pc, h.loops)
  | none => (t.pc, t.loops)

/-- The flags of the program that holds the tile (R123). -/
def Tile.marks (t : Tile) : BitVec 5 :=
  match t.hand with
  | some h => h.tsf
  | none => t.tsf

/-- What a register holds after the two writes of a bundle: G0 reads zero (R122, R123). -/
def regAfter (t : Tile) (a b : Option (GReg × Word)) (r : GReg) : Word :=
  if r = 0 then 0
  else match b, a with
    | some (d, v), some (e, w) => if d = r then v else if e = r then w else t.reg r
    | some (d, v), none => if d = r then v else t.reg r
    | none, some (e, w) => if e = r then w else t.reg r
    | none, none => t.reg r

/-- An instruction of slot 0 taken: its half of the bundle waits for slot 1, the tile leaves a slack window, and nothing else
changes: no register, no flag, no byte of memory, no other tile, no other part of the machine (R107, R122). -/
def Opens (s : State) (n : TileNo) (h : Tile → HalfBundle) (o : Host.Outcome State Fault Refusal) : Prop :=
  o = .next (modTile s n (fun t => { (t.leaveSlack .s0) with open0 := some (h (t.leaveSlack .s0)) }))

/-- An instruction of slot 1 taken, with slot 0's half `a` waiting: both write at once from what the registers held before, the flags
gather, control moves as slot 0's half says, the cycles of the longer one pass; memory, the other tiles and the rest of the
machine but the monitor of the fabric stay (R122, R123, R132, R487). -/
def Ends (s : State) (n : TileNo) (a : HalfBundle) (h : Tile → HalfBundle) (o : Host.Outcome State Fault Refusal) : Prop :=
  ∃ t, o = .next t ∧
    (∀ r, (t.fab.tile n).reg r = regAfter (s.fab.tile n) a.wr (h (s.fab.tile n)).wr r) ∧
    (t.fab.tile n).marks = flagsAfter (s.fab.tile n).marks a (h (s.fab.tile n)) ∧
    (t.fab.tile n).place = advance (s.fab.tile n).place.1 (s.fab.tile n).place.2 a.ctl ∧
    (t.fab.tile n).open0 = none ∧ (t.fab.tile n).mem = (s.fab.tile n).mem ∧
    (∀ m, m ≠ n → t.fab.tile m = s.fab.tile m) ∧
    t = { s with fab := { s.fab with tiles := t.fab.tiles }, pmu := t.pmu }

/-- An instruction that either slot takes has the half bundle `h`, in slot 0 and in slot 1. -/
def Either (c : Slot → Instr) (n : TileNo) (op : Nat) (f : TFields) (h : Tile → HalfBundle) : Prop :=
  ∀ s, FabOk s.fab → fieldsOk op f = true →
    ((s.fab.tile n).ready .s0 = true → Opens s n h (exec (c .s0) s)) ∧
    (∀ a, (s.fab.tile n).ready .s1 = true → (s.fab.tile n).open0 = some a → Ends s n a h (exec (c .s1) s))

/-- An instruction that only slot 0 takes has the half bundle `h`. -/
def Slot0 (c : Instr) (n : TileNo) (op : Nat) (f : TFields) (h : Tile → HalfBundle) : Prop :=
  ∀ s, (s.fab.tile n).ready .s0 = true → fieldsOk op f = true → Opens s n h (exec c s)

/-- The tile is held in reset, its instance gone, with the epoch raised and its FAULT bit latched (R116, R119). -/
def TileHeld (s t : State) (n : TileNo) : Prop :=
  (t.fab.tile n).phase = .reset ∧ (t.fab.tile n).inst = false ∧ (t.fab.tile n).hand = none ∧ bit t.fab.fault n.val = true ∧
  (t.fab.tile n).mem = (s.fab.tile n).mem

/-- Nothing changes but tiles and the performance monitors. -/
def OnlyTiles (s t : State) : Prop := t = { s with fab := { s.fab with tiles := t.fab.tiles }, pmu := t.pmu }

/-- Nothing changes but the memory and state of tile n and the performance monitors. -/
def OnlyTile (s t : State) (n : TileNo) : Prop := (∀ m, m ≠ n → t.fab.tile m = s.fab.tile m) ∧ OnlyTiles s t

/-! ## Fail-silence, resets, calls -/

/-- Fail-silence by a cause: both safe outputs, both test outputs and both group links off, the island stopped, FAULT lit, the recorder flushing; a module that
ran or stood in CONFIG, STOP or HOLD is in SAFE_HALT without boundaries (R37, R187, R332, R390, R473). -/
def Silenced (s t : State) (cause : Byte) : Prop :=
  t.safe.failSilent = true ∧ t.safe.canaryLatch = cause ∧ t.safe.faultLed = true ∧ t.safe.running = false ∧
  t.safe.t1 = false ∧ t.safe.t2 = false ∧ (∀ o ∈ t.safe.so, o.cmd = false) ∧ t.grp.brL.up = false ∧ t.grp.brR.up = false ∧ t.evr.flushing = true ∧
  (s.glb.state = .config ∨ s.glb.state = .stop ∨ s.glb.state = .run ∨ s.glb.state = .hold →
    t.glb.state = .safeHalt ∧ t.cyc.running = false ∧ t.glb.inst = []) ∧
  t.fab = s.fab ∧ t.pim = s.pim ∧ t.eth = s.eth ∧ t.txe = s.txe ∧ t.ci = s.ci ∧ t.dram = s.dram

/-- The module at the start of a boot: nothing of image, forces, tags, sessions and DRAM is left, outputs are off, tiles in reset; fuses, key
stores, storage and the queue of commands stay; the straps are latched, but for a CANARY reset (R33, R193, R199, R410, R451, R454). -/
def Booted (s t : State) (reason : BitVec 2) : Prop :=
  t.glb.state = .boot ∧ t.glb.forces = [] ∧ t.glb.inst = [] ∧ t.pim.ring = [] ∧ t.pim.staging = [] ∧ t.txe.tags = [] ∧
  t.tk.running = false ∧ t.tk.sessions = [] ∧ t.ci.activeValid = false ∧ t.dram = [] ∧ t.cyc.running = false ∧
  (∀ o ∈ t.safe.so, o.cmd = false) ∧ t.safe.failSilent = false ∧ (∀ m, (t.fab.tile m).phase = .reset) ∧
  t.rst.bootReason = reason ∧ t.pin.powerGood = true ∧ t.pin.latched = (if reason = 2 then s.pin.latched else some s.pin.straps) ∧ t.tb.ttc = lastKnown s ∧
  t.cul.cur.cleanEnd = false ∧ t.tk.fuses = s.tk.fuses ∧ t.tk.storeA = s.tk.storeA ∧ t.tk.storeB = s.tk.storeB ∧
  t.grp.latent = (if s.cul.cstore.newer.isNone = true then 0 else s.grp.latent)

/-- What a RUNTIME reset leaves of the application cluster: nothing; the fabric, the image, the cycle and the island go on (R451, R452, R454). -/
def RuntimeGone (s t : State) : Prop :=
  t.dram = [] ∧ t.rst.clusterHeld = true ∧ t.rst.runtimeReady = false ∧ t.rst.wdogArmed = false ∧ t.tk.sessions = [] ∧
  t.tk.slots = List.replicate 8 {} ∧ t.txe.rings = List.replicate 3 {} ∧ t.tk.maintBy = none ∧
  t.rst.runtimeCnt = satInc s.rst.runtimeCnt ∧ t.rst.kind = 4 ∧
  t.fab = s.fab ∧ t.cyc = s.cyc ∧ t.glb = s.glb ∧ t.safe = s.safe ∧ t.ci = s.ci ∧ t.pim = { s.pim with snaps := List.replicate 8 {} }

/-- A call that may be performed: the cluster is not held, its slot is free and its session has the role (R411, R413, R454). -/
def CallReady (s : State) (c : CallReq) (need : Role) : Prop :=
  c.slot < s.tk.slots.length ∧ s.rst.clusterHeld = false ∧ (nthD s.tk.slots c.slot {}).busy = false ∧ need.rank ≤ (roleOf s c.session).rank

/-- A call answered with a status; DEFERRED leaves it in progress (R411). -/
def Answered (t : State) (c : CallReq) (st : Status) : Prop :=
  (nthD t.tk.slots c.slot {}).status = st.code ∧ (nthD t.tk.slots c.slot {}).done = true ∧
  (nthD t.tk.slots c.slot {}).busy = (st == .deferred) ∧ (nthD t.tk.slots c.slot {}).seq = c.seq ∧
  (nthD t.tk.slots c.slot {}).session = c.session

/-- What a command made the module send out: what stands in the log before the log of the state before. -/
def newOut (s t : State) : List Out := t.out.take (t.out.length - s.out.length)

/-- A call answered with a status, once its own effect has led from s to u: of u the answer changes the call's slot, the bytes of its response in
DRAM, the interrupt and what the monitors count, and nothing else (R411, R412). -/
def Replies (s u t : State) (c : CallReq) (st : Status) : Prop :=
  Answered t c st ∧ (∀ n, n ≠ c.slot → nthD t.tk.slots n {} = nthD u.tk.slots n {}) ∧
  (∀ a, (a < (nthD s.tk.slots c.slot {}).addr.toNat ∨ (nthD s.tk.slots c.slot {}).addr.toNat + 32 + c.respMax ≤ a) → t.dram.read a = u.dram.read a) ∧
  .irqCall c.slot ∈ newOut s t ∧ t = { u with tk := { u.tk with slots := t.tk.slots }, dram := t.dram, pmu := t.pmu, out := t.out }

/-- The data of a call's response in DRAM (R412). -/
def respData (s t : State) (c : CallReq) (n : Nat) : List Byte := t.dram.readList ((nthD s.tk.slots c.slot {}).addr.toNat + 32) n

/-- A mode command made the pending one (R185, R201). -/
def Pends (s : State) (m : ModeCmd) (ns : Nat) : State :=
  { s with glb := { s.glb with pendCmd := some m, tgtMcc := boundaryAfter s ns }, rst := { s.rst with dormantPending := false } }

/-! ## Loads -/

/-- The value that the last command loaded into a core: 32 bits. -/
def lastLoad (t : State) : Reg32 :=
  match t.out with
  | .loaded _ v :: _ => v
  | _ => 0

/-- The value that the last command loaded into a core: 64 bits. -/
def lastLoad64 (t : State) : Word :=
  match t.out with
  | .loaded64 _ v :: _ => v
  | _ => 0

/-! ## Submissions -/

/-- Ring n holds an entry that the TXE takes next (R227). -/
def Entry (s : State) (n : Nat) : Prop :=
  n < s.txe.rings.length ∧ (nthD s.txe.rings n {}).enable = true ∧ (nthD s.txe.rings n {}).sqHead ≠ (nthD s.txe.rings n {}).sqTail

/-- A submission taken from ring n: its entry is used up and a tag in flight carries the request to its unit (R223, R224, R227). -/
def Takes (s : State) (o : Host.Outcome State Fault Refusal) (n : Nat) (u : TUnit) (c : TxClass) (q : SubReq) (r : TagReq) : Prop :=
  ∃ t, o = .next t ∧ (nthD t.txe.rings n {}).sqHead = (nthD s.txe.rings n {}).sqHead + 1 ∧ t.txe.allocs = s.txe.allocs + 1 ∧
    (∃ e ∈ t.txe.tags, e.unit = u ∧ e.cls = c ∧ e.req = r ∧ e.ring = some (n, q.req)) ∧
    t.fab = s.fab ∧ t.cyc = s.cyc ∧ t.glb = s.glb ∧ t.pim = s.pim ∧ t.safe = s.safe

/-- A submission refused at once: its entry is used up, its completion stands in the queue or waits for room, no tag is taken (R225, R227). -/
def Refuses (s : State) (o : Host.Outcome State Fault Refusal) (n : Nat) : Prop :=
  ∃ t, o = .next t ∧ (nthD t.txe.rings n {}).sqHead = (nthD s.txe.rings n {}).sqHead + 1 ∧ t.txe.allocs = s.txe.allocs ∧
    t.txe.tags = s.txe.tags ∧
    ((nthD t.txe.rings n {}).cqTail = (nthD s.txe.rings n {}).cqTail + 1 ∨
      (nthD t.txe.rings n {}).held.length = (nthD s.txe.rings n {}).held.length + 1) ∧
    t.fab = s.fab ∧ t.cyc = s.cyc ∧ t.glb = s.glb ∧ t.pim = s.pim ∧ t.safe = s.safe

/-! ## The group links -/

/-- A frame that comes over a link is taken in here: the link passes frames, the CRC is right, its TYPE is one of R327, the frame is addressed to both
or to this position (R325 to R328). -/
def Hears (s : State) (l : GLink) (h : GlHdr) : Prop :=
  linkOk s l = true ∧ h.crcOk = true ∧ h.listed = true ∧ (h.dst = 0 ∨ h.dst = ownPos s) ∧ (s.grp.br l).queues.length = 4 ∧ (s.grp.br l.other).queues.length = 4

/-- Of u, only the two bridges differ, what the monitors count and what is sent out. -/
def LinksOnly (u t : State) : Prop :=
  t = { u with grp := { u.grp with brL := t.grp.brL, brR := t.grp.brR }, pmu := t.pmu, out := t.out }

/-- A frame was taken from a link: counted, its CRED taken, its buffer of the VC freed (R326, R328). -/
def Got (s t : State) (l : GLink) (h : GlHdr) (vc : Nat) : Prop :=
  (t.grp.br l).rxFrames = (s.grp.br l).rxFrames + 1 ∧ (t.grp.br l).farFreed = h.cred ∧
  (t.grp.br l).freed = setNth (s.grp.br l).freed vc (h.vseq + 1)

/-- The frames that a command put on a link, and those that wait there for credit. -/
def framesOn (s t : State) (l : GLink) : List GlFrame :=
  (newOut s t).filterMap (fun o => match o with
    | .gl k f => if k = l then some f else none
    | _ => none) ++ (t.grp.br l).queues.flatten

/-- A frame of this module to a position goes out on a link, or waits there for credit. -/
def Sends (s t : State) (l : GLink) (dst : Nat) (p : GlBody → Bool) : Prop :=
  ∃ f ∈ framesOn s t l, f.hdr.src = ownPos s ∧ f.hdr.dst = dst ∧ f.hdr.epoch = s.cul.cur.epoch ∧ p f.body = true

/-- u after n exchanges took a tag of the pool and freed it again (R222). -/
def tagged (n : Nat) (u : State) : State := { u with txe := { u.txe with allocs := u.txe.allocs + n } }

/-- A frame to another position is forwarded on the other link with RELAYED set; the ID that it bears there is noted, and nothing else
happens (R323, R327, R358). -/
def Relays (s t : State) (l : GLink) (h : GlHdr) (b : GlBody) : Prop :=
  LinksOnly { s with grp := { s.grp with hopIds := t.grp.hopIds } } t ∧ Got s t l h b.vc ∧
  t.grp.hopIds = (⟨GlHdr.id { h with vseq := (s.grp.br l.other).nextSeq b.vc }, h.id⟩ :: s.grp.hopIds).take 16 ∧
  (linkOk s l.other = true →
    ∃ f ∈ framesOn s t l.other, f.hdr.src = h.src ∧ f.hdr.dst = h.dst ∧ f.hdr.relayed = true ∧ f.hdr.mcc = h.mcc ∧ f.body = b)

/-- An acknowledgement to another position is forwarded under the ID by which its sender sent (R327, R358). -/
def RelaysAck (s t : State) (l : GLink) (h : GlHdr) (type : Nat) (id : Reg32) (st : Status) : Prop :=
  LinksOnly s t ∧ Got s t l h 0 ∧ (linkOk s l.other = true →
    ∃ f ∈ framesOn s t l.other, f.hdr.src = h.src ∧ f.hdr.dst = h.dst ∧ f.hdr.relayed = true ∧ ∃ i, f.body = .ack type i st ∧
      (∀ x, s.grp.hopIds = [x] → i = if x.given = id then x.came else id))

/-- A call in progress of code `call`. -/
def busyWith (s : State) (n call : Nat) : Bool := (nthD s.tk.slots n {}).busy && (nthD s.tk.slots n {}).call == BitVec.ofNat 16 call

end Sys2Proof.Machine
end

