-- ==== Sys2Proof/Certificates/Slice0/Obligations.lean ====
section
/-! DEFINITION. Certificates/Slice0/Obligations.lean: the statements about the machine. -/

open Sys2Proof Sys2Proof.Machine


/-! ## The queue and the step -/

/-- With command c in front, a step is the effect of c on the state with the rest of the queue. -/
def Obligations.StepRunsFront : Prop :=
  ∀ (s : State) (c : Instr) (rest : List Instr), s.pending = c :: rest → step s = exec c { s with pending := rest }

/-- With an empty queue a step passes one tick of CLK_TTC, 8 ns and the whole ns that the servo's fractional correction has gathered, while the module
has power and is not dormant (log entry 1, the model's choice). The model's choice, no rule of the manual: that an idle step is a tick (log entry
1). -/
def Obligations.EmptyQueueTicks : Prop :=
  ∀ s : State, s.pending = [] →
    ∃ t, step s = .next t ∧
      (if s.pin.powerGood = true ∧ s.glb.state ≠ .dormant then
        t.tb.ttc = s.tb.ttc + BitVec.ofNat 64 (tickNs s.tb) ∧ t.tb.frac = tickFrac s.tb % 1000000000 else t = s) ∧
      t.cyc = s.cyc ∧ t.fab = s.fab ∧ t.dram = s.dram ∧ t.safe = s.safe ∧ t.eth = s.eth ∧ t.txe = s.txe

/-- No command changes the queue of waiting commands, none stops: exec answers a next state with the queue as it was. The model's choice, no rule of
the manual: that no command stops (log entry 2). -/
def Obligations.QueueKept : Prop :=
  ∀ (c : Instr) (s : State), ∃ t, exec c s = .next t ∧ t.pending = s.pending

/-- A step keeps the memories in their canonical form, the 48 tiles and their 32 registers. -/
def Obligations.ShapeKept : Prop := ∀ s t : State, Shape s → step s = .next t → Shape t

/-- A step keeps the safe outputs off wherever the island's safe state, fail-silence or a latched fault asks for it. The model's choice, no rule of
the manual: that an output goes off at once and not at its next launch (log entry 127). -/
def Obligations.SafeOutputsKept : Prop := ∀ s t : State, SoOk s.safe → step s = .next t → SoOk t.safe

/-- A step keeps the bounded stores within their bounds. -/
def Obligations.BoundsKept : Prop := ∀ s t : State, Bounded s → step s = .next t → Bounded t

/-- The state at reset meets the conditions that every step keeps, with nothing waiting. The model's choice, no rule of the manual: reset values of
what no register shows (log entry 24). -/
def Obligations.ResetMeetsAll : Prop :=
  Shape State.reset ∧ SoOk State.reset.safe ∧ Bounded State.reset ∧ State.reset.pending = []

/-- What the manual gives at reset: both safe outputs off, the default quotas, no force, no instance, no signal staged, the module in BOOT. The
model's choice, no rule of the manual: an empty DRAM, image and queues at reset (log entries 24 and 28). -/
def Obligations.ResetValues : Prop :=
  let s := State.reset
  s.glb.state = .boot ∧ (∀ o ∈ s.safe.so, o.cmd = false) ∧ s.txe.quota = [0x100, 0x100, 0x80, 0x80, 0x40, 0x20] ∧
  s.glb.forces = [] ∧ s.glb.inst = [] ∧ s.pim.staging = [] ∧ s.txe.tags = [] ∧ s.evr.ring = [] ∧ s.cyc.mcc = 0 ∧
  s.arb.freeze = 0 ∧ s.glb.stopCause = .none ∧ s.dram = []

/-! ## Tile instruction words (R124, R127) -/

/-- Decoding the word or words of any defined instruction gives its opcode and every field back; and a word has at most one meaning: what it decodes
to encodes to it again, and to the word above it for LIMM. -/
def Obligations.TileWordRoundTrip : Prop :=
  (∀ (op : BitVec 6) (f : TFields) (hi : Reg32), fieldsOk op.toNat f = true →
    decodeTile (encodeTile op f).1 ((encodeTile op f).2.getD hi) = some ⟨op, f⟩) ∧
  (∀ (w hi : Reg32) (i : TInstr), decodeTile w hi = some i →
    (encodeTile i.op i.f).1 = w ∧ (∀ x, (encodeTile i.op i.f).2 = some x → x = hi) ∧ fieldsOk i.op.toNat i.f = true)

/-- Words written out from the formats: ADD G1,G2,G3 at DINT; ADDI G5,G6,-1; LIMM; LD G4,[G2+1] at REAL; BRF G9,+3; LOOP; TON; EVREC; the zero word is
NOP; a reserved opcode, a reserved COND and a non-zero unused field decode to nothing. -/
def Obligations.TileWordExamples : Prop :=
  decodeTile 0b00001100001000100001100110000000 0 = some ⟨0x03, .rr ⟨1, 2, 3, 3, 0⟩⟩ ∧
  decodeTile 0b00010000101001100011111111111111 0 = some ⟨0x04, .ri ⟨5, 6, 3, 0xFFF⟩⟩ ∧
  decodeTile 0b00001000111000001000000000000001 5 = some ⟨0x02, .l ⟨7, 0x800100000005⟩⟩ ∧
  decodeTile 0b01101000100000101001000000000001 0 = some ⟨0x1A, .m ⟨4, 2, 9, 1⟩⟩ ∧
  decodeTile 0b01111001001000000000000000000011 0 = some ⟨0x1E, .b ⟨9, 3⟩⟩ ∧
  decodeTile 0b01110000011000000010010000000100 0 = some ⟨0x1C, .lp ⟨3, 9, 4⟩⟩ ∧
  decodeTile 0b10000000001000100001100000000010 0 = some ⟨0x20, .fb ⟨1, 2, 3, 2⟩⟩ ∧
  decodeTile 0b10111000010010000000000000010001 0 = some ⟨0x2E, .e ⟨2, 2, 0x11⟩⟩ ∧
  decodeTile 0 0 = some ⟨0x00, .z⟩ ∧
  decodeTile 0b11001100000000000000000000000000 0 = none ∧
  decodeTile 0b01011100001000100011110000000000 0 = none ∧
  decodeTile 0b00000000000000000000000000000001 0 = none

/-! ## Tile instructions (R122 to R141) -/

/-- The arithmetic instructions of both slots: the half bundle each one has, waiting in slot 0, ended in slot 1. The model's choice, no rule of the
manual: that a bundle is two commands, the first waiting until the second (log entry 8). Completes: ADD, ADDI, SUB, NEG, ABS, MIN, MAX, LIM, MUL, MAC,
DIV, MOD, SQRT. -/
def Obligations.TileArithmetic : Prop :=
  ∀ (n : TileNo) (f : RR) (g : RI),
    Either (.add n · f) n 0x03 (.rr f) (fun t => half f.rd (cyc 0x03 f.ty) (resAdd f (t.reg f.ra) (t.reg f.rb))) ∧
    Either (.sub n · f) n 0x05 (.rr f) (fun t => half f.rd (cyc 0x05 f.ty) (resSub f (t.reg f.ra) (t.reg f.rb))) ∧
    Either (.mul n · f) n 0x0B (.rr f) (fun t => half f.rd (cyc 0x0B f.ty) (resMul f (t.reg f.ra) (t.reg f.rb))) ∧
    Either (.mac n · f) n 0x0C (.rr f) (fun t => half f.rd (cyc 0x0C f.ty) (resMac f (t.reg f.rd) (t.reg f.ra) (t.reg f.rb))) ∧
    Either (.neg n · f) n 0x06 (.rr f) (fun t => half f.rd (cyc 0x06 f.ty) (resNeg f (t.reg f.ra))) ∧
    Either (.abs n · f) n 0x07 (.rr f) (fun t => half f.rd (cyc 0x07 f.ty) (resAbs f (t.reg f.ra))) ∧
    Either (.min n · f) n 0x08 (.rr f) (fun t => half f.rd (cyc 0x08 f.ty) (resMin f (t.reg f.ra) (t.reg f.rb))) ∧
    Either (.max n · f) n 0x09 (.rr f) (fun t => half f.rd (cyc 0x09 f.ty) (resMax f (t.reg f.ra) (t.reg f.rb))) ∧
    Either (.lim n · f) n 0x0A (.rr f)
      (fun t => half f.rd (cyc 0x0A f.ty) (resLim f (t.reg f.ra) (t.reg f.rb) (t.reg (f.rb + 1)))) ∧
    Either (.addi n · g) n 0x04 (.ri g) (fun t => half g.rd (cyc 0x04 g.ty) (resAddi g (t.reg g.ra))) ∧
    Slot0 (.div n f) n 0x0D (.rr f) (fun t => half f.rd (cyc 0x0D f.ty) (resDiv f (t.reg f.ra) (t.reg f.rb))) ∧
    Slot0 (.mod n f) n 0x0E (.rr f) (fun t => half f.rd (cyc 0x0E f.ty) (resMod f (t.reg f.ra) (t.reg f.rb))) ∧
    Slot0 (.sqrt n f) n 0x0F (.rr f) (fun t => half f.rd (cyc 0x0F f.ty) (resSqrt f (t.reg f.ra)))

/-- The logic, shift, comparison, selection, conversion, quality and flag instructions, NOP, MOV and LIMM. The model's choice, no rule of the manual:
that a bundle is two commands, the first waiting until the second (log entry 8). Completes: NOP, MOV, LIMM, AND, OR, XOR, NOT, SHL, SHR, CMP, CMPI,
SEL, CVT, QMRG, QTST, QSET, GETF. -/
def Obligations.TileLogic : Prop :=
  ∀ (n : TileNo) (f : RR) (g : RI) (k : CI) (l : LF),
    Either (.nop n ·) n 0x00 .z (fun _ => { cyc := 1 }) ∧
    Either (.mov n · f) n 0x01 (.rr f) (fun t => half f.rd (cyc 0x01 f.ty) (retype f.ty (t.reg f.ra), 0)) ∧
    Either (.and n · f) n 0x10 (.rr f) (fun t => half f.rd (cyc 0x10 f.ty) (retype f.ty (t.reg f.ra &&& t.reg f.rb), 0)) ∧
    Either (.or n · f) n 0x11 (.rr f) (fun t => half f.rd (cyc 0x11 f.ty) (retype f.ty (t.reg f.ra ||| t.reg f.rb), 0)) ∧
    Either (.xor n · f) n 0x12 (.rr f) (fun t => half f.rd (cyc 0x12 f.ty) (retype f.ty (t.reg f.ra ^^^ t.reg f.rb), 0)) ∧
    Either (.not n · f) n 0x13 (.rr f) (fun t => half f.rd (cyc 0x13 f.ty) (retype f.ty (~~~(t.reg f.ra)), 0)) ∧
    Either (.shl n · f) n 0x14 (.rr f) (fun t => half f.rd (cyc 0x14 f.ty) (resShl f (t.reg f.ra) (t.reg f.rb))) ∧
    Either (.shr n · f) n 0x15 (.rr f) (fun t => half f.rd (cyc 0x15 f.ty) (resShr f (t.reg f.ra) (t.reg f.rb))) ∧
    Either (.cmp n · f) n 0x16 (.rr f) (fun t => half f.rd (cyc 0x16 f.ty) (resCmp f (t.reg f.ra) (t.reg f.rb))) ∧
    Either (.cmpi n · k) n 0x17 (.ci k) (fun t => half k.rd (cyc 0x17 k.ty) (resCmpi k (t.reg k.ra))) ∧
    Either (.sel n · f) n 0x18 (.rr f)
      (fun t => half f.rd (cyc 0x18 f.ty) (retype f.ty (if isTrue (t.reg f.ra) then t.reg f.rb else t.reg f.rd), 0)) ∧
    Either (.cvt n · f) n 0x19 (.rr f)
      (fun t => half f.rd (cvtCycles f.ty (f.fn.setWidth 4)) (resCvt f.ty (f.fn.setWidth 4) (t.reg f.ra))) ∧
    Either (.qmrg n · f) n 0x2A (.rr f)
      (fun t => half f.rd (cyc 0x2A f.ty) ((qMerge ((t.reg f.ra).setWidth 8) ((t.reg f.rb).setWidth 8)).setWidth 64, 0)) ∧
    Either (.qtst n · f) n 0x2B (.rr f)
      (fun t => half f.rd (cyc 0x2B f.ty) (boolRes (qTest (bit f.fn 0) ((t.reg f.ra).setWidth 8)))) ∧
    Either (.qset n · g) n 0x2C (.ri g) (fun _ => half g.rd 1 ((qSetByte g.imm).setWidth 64, 0)) ∧
    Either (.getf n · f) n 0x32 (.rr f) (fun t => { half f.rd 1 (t.flags.setWidth 64, 0) with clr := bit f.fn 0 }) ∧
    (∀ s, FabOk s.fab → (s.fab.tile n).ready .s0 = true →
      ∃ t, exec (.limm n l) s = .next t ∧
        (∀ r, (t.fab.tile n).reg r = if r = 0 then 0 else if l.rd = r then l.imm.signExtend 64 else (s.fab.tile n).reg r) ∧
        (t.fab.tile n).flags = (s.fab.tile n).flags ∧ (t.fab.tile n).mem = (s.fab.tile n).mem ∧
        (t.fab.tile n).open0 = none ∧ (∀ m, m ≠ n → t.fab.tile m = s.fab.tile m) ∧
        t = { s with fab := { s.fab with tiles := t.fab.tiles }, pmu := t.pmu })

/-- Branches and loops wait in slot 0 with the control they order, and BRK with the innermost loop to leave. The model's choice, no rule of the
manual: that a bundle is two commands, the first waiting until the second (log entry 8). Completes: LOOP, BR, BRF, BRK. -/
def Obligations.TileControl : Prop :=
  ∀ (n : TileNo) (b : BF) (l : LPF),
    Slot0 (.br n b) n 0x1D (.b b) (fun _ => { cyc := 1, ctl := .jump b.disp.toNat }) ∧
    Slot0 (.brf n b) n 0x1E (.b b) (fun t => { cyc := 1, ctl := if isTrue (t.reg b.ra) then .jump b.disp.toNat else .seq }) ∧
    Slot0 (.brk n b) n 0x1F (.b b) (fun t => { cyc := 1, ctl := if isTrue (t.reg b.ra) then .brk else .seq }) ∧
    Slot0 (.loop n l) n 0x1C (.lp l) (fun t => { cyc := 1, ctl := .loop (l.len.toNat + 1) (loopCount t l) })

/-- What the control of a bundle does: a branch goes its distance forward; a loop of count c runs the bundles after it c times and skips them at 0;
the end of a body goes back to its first bundle while executions are left; BRK goes on past the body. -/
def Obligations.LoopRules : Prop :=
  (∀ pc d, advance pc [] (.jump d) = (pc + d, [])) ∧
  (∀ pc len, advance pc [] (.loop len 0) = (pc + 1 + len, [])) ∧
  (∀ pc ls len c, 0 < c → advance pc ls (.loop len c) = (pc + 1, ⟨pc + 1, pc + len, c⟩ :: ls)) ∧
  (∀ pc ls (f : LoopFrame), f.last = pc → 1 < f.left → advance pc (f :: ls) .seq = (f.first, { f with left := f.left - 1 } :: ls)) ∧
  (∀ pc (f : LoopFrame), f.last = pc → f.left ≤ 1 → advance pc [f] .seq = (pc + 1, [])) ∧
  (∀ pc ls (f : LoopFrame), f.last ≠ pc → advance pc (f :: ls) .seq = (pc + 1, f :: ls)) ∧
  (∀ pc (f : LoopFrame), advance pc [f] .brk = (f.last + 1, [])) ∧
  (∀ (t : Tile) (l : LPF), l.ra ≠ 0 → opnd 3 (t.reg l.ra) ≤ 0 → loopCount t l = 0) ∧
  (∀ (t : Tile) (l : LPF), loopCount t l ≤ l.bound.toNat + 1) ∧
  (∀ (t : Tile) (l : LPF), l.ra = 0 → loopCount t l = l.bound.toNat + 1)

/-- Integer arithmetic: ADD, SUB, MUL and MAC wrap with FN bit 0 clear and saturate with it set, an out-of-range result sets OVF; NEG and ABS
saturate; a zero divisor sets DIV0. Shift counts of the type's width or more give zero for SHL and a logical SHR, all sign bits for an arithmetic
SHR. -/
def Obligations.IntegerArithmetic : Prop :=
  ∀ (f : RR) (a b : Word), (tyClass f.ty ≠ .float → tyWidth f.ty ≤ (b.extractLsb' 0 6 : BitVec 6).toNat →
      (f.fn = 0 → (resShl f a b).1 = 0 ∧ (resShr f a b).1 = 0) ∧
      (f.fn = 1 → (resShr f a b).1 = if (a.setWidth (tyWidth f.ty)).msb then retype f.ty (-1) else 0)) ∧
    (tyClass f.ty = .int → (f.fn = 0 →
      resAdd f a b = wrapRes f.ty (opnd f.ty a + opnd f.ty b) ∧
      resSub f a b = wrapRes f.ty (opnd f.ty a - opnd f.ty b) ∧
      (∀ d : Word, resMac f d a b = wrapRes f.ty (opnd f.ty d + opnd f.ty a * opnd f.ty b)) ∧
      resMul f a b = wrapRes f.ty (opnd f.ty a * opnd f.ty b)) ∧
    (f.fn = 1 →
      resAdd f a b = satRes f.ty (opnd f.ty a + opnd f.ty b) ∧
      resSub f a b = satRes f.ty (opnd f.ty a - opnd f.ty b) ∧
      (∀ d : Word, resMac f d a b = satRes f.ty (opnd f.ty d + opnd f.ty a * opnd f.ty b)) ∧
      resMul f a b = satRes f.ty (opnd f.ty a * opnd f.ty b)) ∧
    (∀ i : Int, ¬(tyMin f.ty ≤ i ∧ i ≤ tyMax f.ty) → (wrapRes f.ty i).2 = fOVF ∧ (satRes f.ty i).2 = fOVF) ∧
    (∀ i : Int, tyMin f.ty ≤ i → i ≤ tyMax f.ty → opnd f.ty (wrapRes f.ty i).1 = i ∧ wrapRes f.ty i = satRes f.ty i ∧ (satRes f.ty i).2 = 0) ∧
    (∀ i : Int, tyMax f.ty < i → opnd f.ty (satRes f.ty i).1 = tyMax f.ty) ∧
    (∀ i : Int, i < tyMin f.ty → opnd f.ty (satRes f.ty i).1 = tyMin f.ty) ∧
    (∀ i : Int, (opnd f.ty (wrapRes f.ty i).1 - i) % 2 ^ tyWidth f.ty = 0) ∧
    resNeg f a = satRes f.ty (-(opnd f.ty a)) ∧
    resAbs f a = satRes f.ty ((opnd f.ty a).natAbs : Int) ∧
    (opnd f.ty b = 0 → (resDiv f a b).2 = fDIV0 ∧ resMod f a b = (0, fDIV0) ∧
      opnd f.ty (resDiv f a b).1 = if opnd f.ty a = 0 then 0 else if 0 < opnd f.ty a then tyMax f.ty else tyMin f.ty) ∧
    (opnd f.ty b ≠ 0 → resDiv f a b = satRes f.ty ((opnd f.ty a).tdiv (opnd f.ty b)) ∧
      resMod f a b = (wrapTo f.ty ((opnd f.ty a).tmod (opnd f.ty b)), 0)))

/-- LD and ST within the access rules: LD's half bundle holds the number read, ST stores the size of its type at the address and nothing else changes;
outside the rules the access is not performed, the tile is held in reset and an ERROR record names it. The model's choice, no rule of the manual: that
a bundle is two commands, the first waiting until the second (log entry 8); the code 0 of the FAULT records that the manual does not number (log entry
60). Completes: LD, ST. -/
def Obligations.TileLoadStore : Prop :=
  ∀ (n : TileNo) (f : MF) (s : State), FabOk s.fab → (s.fab.tile n).ready .s0 = true →
    let t0 := (s.fab.tile n).leaveSlack .s0
    let p := tileProg s n (s.fab.tile n).codeHalf
    let a := mAddr t0 f
    (mayAccess (tileImg s n) n t0 p false a (tySize f.ty) = true →
      Opens s n (fun t => half f.r 2 (loadAs f.ty (t.mem.readLE a (tySize f.ty)), 0)) (exec (.ld n f) s)) ∧
    (mayAccess (tileImg s n) n t0 p true a (tySize f.ty) = true →
      ∃ t, exec (.st n f) s = .next t ∧ (t.fab.tile n).open0 = some { cyc := 1 } ∧
        (t.fab.tile n).mem.readLE a (tySize f.ty) = storeAs f.ty (t0.reg f.r) % 2 ^ (8 * tySize f.ty) ∧
        (∀ x, (x < a ∨ a + tySize f.ty ≤ x) → (t.fab.tile n).mem.read x = (s.fab.tile n).mem.read x) ∧
        (t.fab.tile n).regs = (s.fab.tile n).regs ∧ (∀ m, m ≠ n → t.fab.tile m = s.fab.tile m) ∧
        t = { s with fab := { s.fab with tiles := t.fab.tiles } }) ∧
    (mayAccess (tileImg s n) n t0 p false a (tySize f.ty) = false → s.fab.state ≠ .halted →
      ∃ t, exec (.ld n f) s = .next t ∧ TileHeld s t n ∧ Records s t .error (srcTile n) (cFault 0)) ∧
    (mayAccess (tileImg s n) n t0 p true a (tySize f.ty) = false → s.fab.state ≠ .halted →
      ∃ t, exec (.st n f) s = .next t ∧ TileHeld s t n ∧ Records s t .error (srcTile n) (cFault 0))

/-- The function blocks: where the instance may be accessed, the result waits for RD and the instance's bytes change, no other byte does. The model's
choice, no rule of the manual: that a bundle is two commands, the first waiting until the second (log entry 8). Completes: TON, TOF, TP, RTRIG, FTRIG,
CTU, CTD, PT1, RAMP, PID. -/
def Obligations.FunctionBlocks : Prop :=
  ∀ (n : TileNo) (f : FBF) (s : State), FabOk s.fab → (s.fab.tile n).ready .s0 = true →
    let t0 := (s.fab.tile n).leaveSlack .s0
    let p := tileProg s n (s.fab.tile n).codeHalf
    let may (size : Nat) : Prop := (match t0.runner with
      | .handler h => handMay p h.task true (instAddr f) size
      | _ => mainMay true (instAddr f) size) = true
    let done (c : Instr) (op size : Nat) (g : Tile → Nat → Mem × Res) : Prop :=
      may size → fieldsOk op (.fb f) = true →
      ∃ t, exec c s = .next t ∧ (t.fab.tile n).open0 = some (half f.rd (cyc op 0) (g t0 (instAddr f)).2) ∧
        (t.fab.tile n).mem = (g t0 (instAddr f)).1 ∧
        (∀ x, (x < instAddr f ∨ instAddr f + size ≤ x) → (t.fab.tile n).mem.read x = (s.fab.tile n).mem.read x) ∧
        (t.fab.tile n).regs = (s.fab.tile n).regs ∧ (∀ m, m ≠ n → t.fab.tile m = s.fab.tile m) ∧
        t = { s with fab := { s.fab with tiles := t.fab.tiles } }
    done (.ton n f) 0x20 32 (timer tonStep f) ∧ done (.tof n f) 0x21 32 (timer tofStep f) ∧ done (.tp n f) 0x22 32 (timer tpStep f) ∧
    done (.rtrig n f) 0x23 32 (edge true f) ∧ done (.ftrig n f) 0x24 32 (edge false f) ∧
    done (.ctu n f) 0x25 32 (counter true f) ∧ done (.ctd n f) 0x26 32 (counter false f) ∧
    done (.pt1 n f) 0x27 32 (pt1 f) ∧ done (.ramp n f) 0x28 32 (ramp f) ∧ done (.pid n f) 0x29 64 (pid f)

/-- TON, TOF and TP on their instance (R134): PT from RB or from the instance, at least 0; ET, IN_PREV, Q and RUN written back, VALID set, mcc_last
the present one, every other byte as it was; with PT = 0, TON gives Q = IN and TP no pulse. The model's choice, no rule of the manual: that a pulse of
TP has ET 0 in the execution that starts it, that RUN counts as clear in the execution that ends it, and Q of TOF by the letter of the table (log
entry 10). -/
def Obligations.Timers : Prop :=
  ∀ (t : Tile) (f : FBF) (a : Nat), t.mem.wf = true →
    let x := isTrue (t.reg f.ra)
    let st (m : Mem) (i : Nat) : Bool := bit (m.read (a + 12)) i
    let was := st t.mem 0
    let q := st t.mem 1
    let run := st t.mem 2
    let et := fld t.mem (a + 4)
    let pt := if f.rb = 0 then max 0 (fld t.mem a) else max 0 (opnd 0xB (t.reg f.rb))
    let grown := min (et + dtUs t a 8 (st t.mem 3)) pt
    let kept (y : Mem × Res) : Prop := st y.1 0 = x ∧ st y.1 3 = true ∧ y.2 = boolRes (st y.1 1) ∧ y.1.readLE (a + 8) 4 = (mccNow t).toNat ∧
      (∀ z, z < a + 4 ∨ a + 16 ≤ z → y.1.read z = t.mem.read z)
    let on := timer tonStep f t a
    let off := timer tofStep f t a
    let tp := timer tpStep f t a
    kept on ∧ kept off ∧ kept tp ∧
    fld on.1 (a + 4) = (if x then (if was then grown else 0) else 0) ∧ st on.1 1 = (x && decide (pt ≤ fld on.1 (a + 4))) ∧ st on.1 2 = run ∧
    (pt = 0 → 0 ≤ et → st on.1 1 = x) ∧
    fld off.1 (a + 4) = (if x || was then 0 else if q then grown else et) ∧ st off.1 1 = (x || decide (fld off.1 (a + 4) < pt)) ∧ st off.1 2 = run ∧
    (x = true → was = false → run = false → fld tp.1 (a + 4) = 0 ∧ st tp.1 1 = decide (0 < pt) ∧ st tp.1 2 = decide (0 < pt)) ∧
    (run = true → fld tp.1 (a + 4) = (if x = false ∧ pt ≤ grown then 0 else grown) ∧ (pt ≤ grown → st tp.1 1 = false ∧ st tp.1 2 = false) ∧ (grown < pt → st tp.1 1 = q ∧ st tp.1 2 = true)) ∧
    (x = false → run = false → fld tp.1 (a + 4) = 0 ∧ st tp.1 1 = q ∧ st tp.1 2 = false) ∧
    (x = true → was = true → run = false → fld tp.1 (a + 4) = et ∧ st tp.1 1 = q ∧ st tp.1 2 = false)

/-- CTU and CTD count rising edges, reset and load first, saturate, and keep their input; RTRIG and FTRIG show an edge against the input they kept,
which starts at 0 (R135). The instance is the one at `a` of the tile's local data, RA and RB hold the inputs. -/
def Obligations.CountersEdges : Prop :=
  ∀ (t : Tile) (f : FBF) (a : Nat), t.mem.wf = true →
    let x := isTrue (t.reg f.ra)
    let y := isTrue (t.reg f.rb)
    let pv := fld t.mem a
    let cv := fld t.mem (a + 4)
    let was := bit (t.mem.read (a + 8)) 0
    let up := counter true f t a
    let down := counter false f t a
    fld up.1 (a + 4) = (if y then 0 else if x && !was then min (cv + 1) (2 ^ 31 - 1) else cv) ∧
    fld down.1 (a + 4) = (if y then pv else if x && !was then max (cv - 1) (-(2 ^ 31)) else cv) ∧
    up.2 = boolRes (decide (pv ≤ fld up.1 (a + 4))) ∧ down.2 = boolRes (decide (fld down.1 (a + 4) ≤ 0)) ∧
    bit (up.1.read (a + 8)) 0 = x ∧ bit (down.1.read (a + 8)) 0 = x ∧
    (∀ z, z < a + 4 ∨ a + 8 < z → up.1.read z = t.mem.read z ∧ down.1.read z = t.mem.read z) ∧
    (∀ rising : Bool, bit ((edge rising f t a).1.read a) 0 = x ∧ ∀ z, z ≠ a → (edge rising f t a).1.read z = t.mem.read z) ∧
    (edge true f t a).2 = boolRes (x && !bit (t.mem.read a) 0) ∧ (edge false f t a).2 = boolRes (!x && bit (t.mem.read a) 0) ∧
    (∀ p : TileProg, 0x20000 + p.localInit.length ≤ a → a < 0x3F000 → (t.init p).mem.read a = 0 ∧ (edge true f (t.init p) a).2 = boolRes x)

/-- XMIT, SLACK, END, LAUNCH and EVREC where the running program may contain them; LAUNCH in the main program stops the tile; at the end of END's
bundle the main program's drain or the handler's begins. The model's choice, no rule of the manual: that a bundle is two commands, the first waiting
until the second (log entry 8); the code 0 of the FAULT records that the manual does not number (log entry 60). Completes: NOP, LAUNCH, EVREC, XMIT,
SLACK, END. -/
def Obligations.TileSystem : Prop :=
  ∀ (n : TileNo) (s : State), FabOk s.fab →
    (∀ (sl : Slot) (a : HalfBundle), sl = .s1 → (s.fab.tile n).ready sl = true → (s.fab.tile n).open0 = some a → a.ctl = .stop →
      ∃ t, exec (.nop n sl) s = .next t ∧ (t.fab.tile n).mem = (s.fab.tile n).mem ∧ (t.fab.tile n).runner = .none ∧
        ((s.fab.tile n).runner = .main → (t.fab.tile n).phase = .drain) ∧
        (∀ h, (s.fab.tile n).runner = .handler h → (t.fab.tile n).phase = (s.fab.tile n).phase ∧
          ∃ k, (t.fab.tile n).hand = some k ∧ k.ended = true ∧ k.task = h.task ∧ k.recs = h.recs ∧ k.launch = h.launch) ∧
        t = { s with fab := { s.fab with tiles := t.fab.tiles }, pmu := t.pmu }) ∧
    ((s.fab.tile n).ready .s0 = true →
    (∀ x : BitVec 13, ∃ t, exec (.xmit n x) s = .next t ∧ (t.fab.tile n).sent = x.toNat :: (s.fab.tile n).sent ∧
      (t.fab.tile n).open0 = some { cyc := 1 } ∧ t = { s with fab := { s.fab with tiles := t.fab.tiles } }) ∧
    ((s.fab.tile n).runner = .main → ∃ t, exec (.slack n) s = .next t ∧ (t.fab.tile n).phase = .slack ∧
      (t.fab.tile n).open0 = some { cyc := (tileProg s n (s.fab.tile n).codeHalf).slackCyc } ∧
      t = { s with fab := { s.fab with tiles := t.fab.tiles }, pmu := t.pmu }) ∧
    (∃ t, exec (.endOp n) s = .next t ∧ (t.fab.tile n).open0 = some { cyc := 1, ctl := .stop } ∧
      (t.fab.tile n).mem = (s.fab.tile n).mem ∧ (t.fab.tile n).regs = (s.fab.tile n).regs ∧
      t = { s with fab := { s.fab with tiles := t.fab.tiles } }) ∧
    (∀ h (ra : GReg), (s.fab.tile n).runner = .handler h → ∃ t, exec (.launch n ra) s = .next t ∧
      (∃ k, (t.fab.tile n).hand = some k ∧ k.launch = if launchOk ((s.fab.tile n).reg ra) h.startTtc
        then some ((s.fab.tile n).reg ra) else h.launch) ∧
      (t.fab.tile n).open0 = some { cyc := 2, set := flagIf (!launchOk ((s.fab.tile n).reg ra) h.startTtc) fLNCH }) ∧
    (∀ ra : GReg, (s.fab.tile n).runner = .main → s.fab.state ≠ .halted →
      ∃ t, exec (.launch n ra) s = .next t ∧ TileHeld s t n ∧ Records s t .error (srcTile n) (cFault 0)) ∧
    (∀ f : EF, (s.fab.tile n).runner = .main → f.sev.toNat ≤ 4 → ∃ t, exec (.evrec n f) s = .next t ∧
      (t.fab.tile n).recs = (if (s.fab.tile n).recs.length < 4
        then (s.fab.tile n).recs ++ [⟨f.sev.toNat, f.code, (s.fab.tile n).reg f.ra⟩] else (s.fab.tile n).recs) ∧
      (t.fab.tile n).open0 = some { cyc := 4, set := flagIf (decide (4 ≤ (s.fab.tile n).recs.length)) fEVDROP } ∧
      t = { s with fab := { s.fab with tiles := t.fab.tiles } }) ∧
    (∀ (f : EF) (h : HandlerRun), (s.fab.tile n).runner = .handler h → f.sev.toNat ≤ 4 → ∃ t, exec (.evrec n f) s = .next t ∧
      (∃ k, (t.fab.tile n).hand = some k ∧ k.recs = if h.recs.length < 4
        then h.recs ++ [⟨f.sev.toNat, f.code, (s.fab.tile n).reg f.ra⟩] else h.recs) ∧
      (t.fab.tile n).open0 = some { cyc := 4, set := flagIf (decide (4 ≤ h.recs.length)) fEVDROP }) ∧
    (∀ h, (s.fab.tile n).runner = .handler h → s.fab.state ≠ .halted →
      ∃ t, exec (.slack n) s = .next t ∧ TileHeld s t n ∧ Records s t .error (srcTile n) (cFault 0)))

/-! ## Records -/

/-- The severities (R466): their numbers; a record of any stands in the ring; all but TRACE reach the store, as the next copy shows; ERROR, CRITICAL,
SAFETY and SECURITY start a flush, the others do not. -/
def Obligations.Severities : Prop :=
  [Sev.trace, .info, .notice, .warning, .error, .critical, .safety, .security].map Sev.num = [0, 1, 2, 3, 4, 5, 6, 7] ∧
  ∀ (s : State) (src : BitVec 12) (code : BitVec 16) (n : Nat) (l : List Byte), s.evr.pending = [] → s.evr.ring.length < 16384 →
    (goodSlots s.evr.store).length < 49152 → ∀ sev : Sev,
      let t := record s sev src code n l
      (∃ r ∈ t.evr.ring, r.seq = s.evr.nextSeq ∧ r.sev = sev ∧ r.src = src ∧ r.code = code) ∧
      (sev ≠ .trace → t.evr.pending = [s.evr.nextSeq] ∧ ∃ x ∈ t.evr.copyOne.store, x.r.seq = s.evr.nextSeq ∧ x.r.sev = sev ∧ x.bad = false) ∧
      (sev = .trace → t.evr.pending = [] ∧ t.evr.copyOne.store = s.evr.store) ∧
      t.evr.flushing = (s.evr.flushing || sev == .error || sev == .critical || sev == .safety || sev == .security)


/-! ## The cycle fabric (R102 to R119) -/

/-- The phases of an instance on a tile: PROGRAM at exactly release + FILL_CYC, and at the end of the drain, where the deadline counter reaches so
far, the outputs staged for the boundary that ends the period and the tile idle; once every tile of a whole instance has drained, each counts it with
its cycles. The model's choice, no rule of the manual: a command that the present state does not admit changes nothing (log entry 2). Completes:
FILL_END, DRAIN_COMPLETE. -/
def Obligations.TilePhases : Prop :=
  ∀ (n : TileNo) (s : State), FabOk s.fab →
    let u := s.fab.tile n
    let p := tileProg s n u.codeHalf
    let c := fillCyc (planeImg s u.codeHalf) n p
    (u.phase = .fill → exec (.fillEnd n) s =
      .next (modTile (pmuCount s 8 0x205 ((c - 16) / 90)) n (fun t => { t with phase := .program, cyc := t.cyc + c, deadline := t.deadline - c })) ∧
      ∃ t, exec (.fillEnd n) s = .next t ∧
        t.fab.tile n = { u with phase := .program, cyc := u.cyc + c, deadline := u.deadline - c } ∧ OnlyTile s t n) ∧
    (u.phase ≠ .fill → exec (.fillEnd n) s = .next s) ∧
    (u.phase = .drain → u.deadline < drainCyc p → exec (.drainComplete n) s = .next s) ∧
    (∀ i ∈ s.glb.inst, u.phase = .drain → drainCyc p ≤ u.deadline → i.task = u.task.toNat → i.rel = u.relMcc →
      (∀ j ∈ s.glb.inst, j.task = i.task → j.rel = i.rel → j = i) →
      ∃ t, exec (.drainComplete n) s = .next t ∧
        (t.fab.tile n).phase = .idle ∧ (t.fab.tile n).inst = false ∧ (t.fab.tile n).deadline = 0 ∧
        (t.fab.tile n).doneCyc = BitVec.ofNat 32 (u.cyc + drainCyc p) ∧
        (let whole := (tilesOf s.ci.act i.task).all (fun x => (i.tilesDone ++ [n.val]).contains x) && !i.broken
         (∀ m : TileNo, whole = true → m.val ∈ tilesOf s.ci.act i.task → (t.fab.tile m).instances = (s.fab.tile m).instances + 1 ∧
            (t.fab.tile m).lastCyc = (t.fab.tile m).doneCyc ∧
            (t.fab.tile m).maxCyc = (if (s.fab.tile m).maxCyc < (t.fab.tile m).doneCyc then (t.fab.tile m).doneCyc else (s.fab.tile m).maxCyc)) ∧
         (∀ m : TileNo, whole = false ∨ m.val ∉ tilesOf s.ci.act i.task → (t.fab.tile m).instances = (s.fab.tile m).instances ∧
            (t.fab.tile m).lastCyc = (s.fab.tile m).lastCyc ∧ (t.fab.tile m).maxCyc = (s.fab.tile m).maxCyc)) ∧
        (∀ m, (t.fab.tile m).mem = (s.fab.tile m).mem ∧ (t.fab.tile m).regs = (s.fab.tile m).regs ∧ (m ≠ n → (t.fab.tile m).phase = (s.fab.tile m).phase)) ∧
        (∃ l, t.pim.staging = s.pim.staging ++ l ∧ ∀ e ∈ l, e.target = i.fin ∧ e.inst = some (i.task, i.rel)) ∧
        { i with tilesDone := i.tilesDone ++ [n.val],
                 complete := (tilesOf s.ci.act i.task).all (fun x => (i.tilesDone ++ [n.val]).contains x) && !i.broken } ∈ t.glb.inst ∧
        t = { s with fab := { s.fab with tiles := t.fab.tiles }, pim := { s.pim with staging := t.pim.staging, hwm := t.pim.hwm },
                     glb := { s.glb with inst := t.glb.inst }, pmu := t.pmu })

/-- A deadline counter that reaches zero stops the tile; the record gives the cycles consumed, the instance is incomplete on every tile. The model's
choice, no rule of the manual: a command that the present state does not admit changes nothing (log entry 2). Completes: DEADLINE_EXPIRY. -/
def Obligations.DeadlineStops : Prop :=
  ∀ (n : TileNo) (s : State), FabOk s.fab →
    (deadlineDue s n = true → s.fab.state ≠ .halted →
      ∃ t, exec (.deadlineExpiry n) s = .next t ∧ TileHeld s t n ∧ Records s t .error (srcTile n) (cFault 8) ∧
        (t.fab.tile n).epoch ≠ (s.fab.tile n).epoch ∧
        (∀ i ∈ t.glb.inst, i.task = (s.fab.tile n).task.toNat → i.broken = true) ∧
        t.pim = s.pim ∧ t.cyc = s.cyc ∧ t.safe = s.safe ∧ t.eth = s.eth ∧ t.txe = s.txe ∧ t.ci = s.ci) ∧
    ((s.fab.tile n).inst = false ∨ deadlineDue s n = false → exec (.deadlineExpiry n) s = .next s)

/-- A scheduled transfer moves the words of an XMIT that has executed, and only those; without it nothing is sent. The model's choice, no rule of the
manual: a command that the present state does not admit changes nothing (log entry 2). Completes: SCHEDULED_TRANSFER. -/
def Obligations.TransferMovesWords : Prop :=
  ∀ (x : Nat) (s : State) (e : XferEnt) (hs : e.src < 48) (hd : e.dst < 48), FabOk s.fab → s.ci.act.xfers[x]? = some e →
    let a := s.fab.tile ⟨e.src, hs⟩
    let d := s.fab.tile ⟨e.dst, hd⟩
    (x ∈ a.sent → a.phase ≠ .reset → d.phase ≠ .reset →
      ∃ t, exec (.scheduledTransfer x) s = .next t ∧
        (t.fab.tile ⟨e.dst, hd⟩).mem.readList (0x3C000 + 8 * e.dstOff) (8 * e.words) = a.mem.readList (0x3C000 + 8 * e.srcOff) (8 * e.words) ∧
        (∀ y, (y < 0x3C000 + 8 * e.dstOff ∨ 0x3C000 + 8 * e.dstOff + 8 * e.words ≤ y) →
          (t.fab.tile ⟨e.dst, hd⟩).mem.read y = d.mem.read y) ∧
        x ∉ (t.fab.tile ⟨e.src, hs⟩).sent ∧ (∀ m : TileNo, m.val ≠ e.dst → (t.fab.tile m).mem = (s.fab.tile m).mem) ∧
        (∀ m, (t.fab.tile m).regs = (s.fab.tile m).regs ∧ (t.fab.tile m).phase = (s.fab.tile m).phase) ∧ OnlyTiles s t) ∧
    (x ∉ a.sent → exec (.scheduledTransfer x) s = .next s)

/-- A handler starts, where the dispatcher gives it the tile's window, with the oldest event of its task, its flags clear, and ends with its outputs
kept for the next boundary in RUN and HOLD, dropped otherwise. The model's choice, no rule of the manual: the version a handler's fill shows (log
entry 9). Completes: EVENT_DISPATCH, HANDLER_END. -/
def Obligations.HandlersRun : Prop :=
  ∀ (n : TileNo) (s : State), FabOk s.fab →
    (∀ (k : Nat) (x : EvtEntry) (q : List EvtEntry) (e : HandlerEnt), (s.fab.tile n).codeHalf = servHalf s n →
      (s.fab.tile n).hand = none → (s.fab.tile n).open0 = none → (s.fab.tile n).phase = .idle ∨ (s.fab.tile n).phase = .slack →
      s.glb.state = .run → s.fab.state = .running → handlersOpen s = true → k ∈ dispatchable s n → (nthD s.glb.evts k {}).queue = x :: q →
      (tileProg s n (s.fab.tile n).codeHalf).handlers.find? (fun h => h.evtTask == k) = some e → fitsWindow s n e = true →
      firstWindow s n k = true →
      ∃ t h, exec (.eventDispatch n k) s = .next t ∧ (t.fab.tile n).hand = some h ∧
        h.task = k ∧ h.entry = x ∧ h.startTtc = s.tb.ttc ∧ h.tsf = 0 ∧ h.pc = 0 ∧ h.recs = [] ∧ h.launch = none ∧ h.ended = false ∧
        (∀ ver, s.pim.settledMcc = some ver → h.imgMcc = ver) ∧
        (nthD t.glb.evts k {}).queue = q ∧ (nthD t.glb.evts k {}).active = true ∧
        (∀ j, j ≠ k → nthD t.glb.evts j {} = nthD s.glb.evts j {}) ∧
        (t.fab.tile n).regs = (s.fab.tile n).regs ∧ (t.fab.tile n).phase = (s.fab.tile n).phase ∧
        (∀ m, m ≠ n → t.fab.tile m = s.fab.tile m) ∧
        t = { s with fab := { s.fab with tiles := t.fab.tiles }, glb := { s.glb with evts := t.glb.evts }, pmu := t.pmu, pim := t.pim, evr := t.evr }) ∧
    (∀ k, servable s n k = none ∨ firstWindow s n k = false → exec (.eventDispatch n k) s = .next s) ∧
    (∀ h, (s.fab.tile n).hand = some h → h.ended = true →
      ∃ t, exec (.handlerEnd n) s = .next t ∧ (t.fab.tile n).hand = none ∧ (t.fab.tile n).handlers = (s.fab.tile n).handlers + 1 ∧
        (if s.glb.state = .run ∨ s.glb.state = .hold
          then ∃ o, t.glb.handOuts = s.glb.handOuts ++ [o] ∧ o.task = h.task ∧ o.tile = n ∧ o.launch = h.launch ∧ o.recs = h.recs
          else t.glb.handOuts = s.glb.handOuts) ∧
        (t.fab.tile n).mem = (s.fab.tile n).mem ∧ (t.fab.tile n).regs = (s.fab.tile n).regs ∧
        (∀ m, m ≠ n → t.fab.tile m = s.fab.tile m) ∧
        t = { s with fab := { s.fab with tiles := t.fab.tiles },
                     glb := { s.glb with evts := t.glb.evts, handOuts := t.glb.handOuts }, pmu := t.pmu, pim := { s.pim with hwm := t.pim.hwm } }) ∧
    (∀ h, (s.fab.tile n).hand = none ∨ ((s.fab.tile n).hand = some h ∧ h.ended = false) → exec (.handlerEnd n) s = .next s)

/-- ECC errors of scratchpads and links: corrected ones are only counted; an uncorrectable one in a scratchpad or on a link writes an ERROR record and
resets the tile or the destination tile. Completes: SCRATCHPAD_SCRUB, SCRATCHPAD_ECC_ERROR, LINK_ECC_ERROR. -/
def Obligations.FabricEcc : Prop :=
  ∀ (n : TileNo) (s : State) (a k x : Nat), FabOk s.fab →
    (∃ t, exec (.scratchpadScrub n k) s = .next t ∧ (t.fab.tile n) = { s.fab.tile n with corr := satAdd (s.fab.tile n).corr k } ∧
      OnlyTile s t n) ∧
    (∃ t, exec (.scratchpadEccError n a true) s = .next t ∧ (t.fab.tile n) = { s.fab.tile n with corr := satInc (s.fab.tile n).corr } ∧
      OnlyTile s t n) ∧
    (s.fab.state ≠ .halted → ∃ t, exec (.scratchpadEccError n a false) s = .next t ∧ TileHeld s t n ∧
      (t.fab.tile n).uncorr = satInc (s.fab.tile n).uncorr ∧ Records s t .error (srcTile n) (cFault 7)) ∧
    (∃ t, exec (.linkEccError x true) s = .next t ∧ t.fab.netCorr = satInc s.fab.netCorr ∧
      t = { s with fab := { s.fab with netCorr := t.fab.netCorr }, pmu := t.pmu }) ∧
    (∃ t, exec (.linkEccError x false) s = .next t ∧ t.fab.netUncorr = satInc s.fab.netUncorr ∧ Records s t .error srcFab (cFault 7) ∧
      (∀ e (hd : e.dst < 48), s.ci.act.xfers[x]? = some e → s.fab.state ≠ .halted → TileHeld s t ⟨e.dst, hd⟩))

/-- TILE resets: the tile is held with its instance incomplete, a third one within 60 s of operation resets the fabric, a second such reset within 60
s halts it; at the end of a reset the tile has its program's initial data and is idle. The model's choice, no rule of the manual: the code 0 of the
FAULT records that the manual does not number (log entry 60); registers stay over the reset (log entry 153); a command that the present state does not
admit changes nothing (log entry 2). Completes: TILE_RESET, TILE_RESET_DONE. -/
def Obligations.TileResets : Prop :=
  ∀ (n : TileNo) (s : State), FabOk s.fab →
    (s.fab.state ≠ .halted → ∃ t, exec (.tileReset n) s = .next t ∧ TileHeld s t n ∧
      Records s t (if (s.fab.tile n).hand.isSome = true then .warning else if (s.fab.tile n).inst = true then .error else .notice)
        (srcTile n) (cFault 0) ∧ (t.fab.epoch = s.fab.epoch → t.rst.source = .command ∧ t.rst.kind = 6) ∧
      ((s.fab.tile n).inst = true → ∀ i ∈ t.glb.inst, i.task = (s.fab.tile n).task.toNat → i.broken = true) ∧
      (2 ≤ (within60 s.cul.optime (s.fab.tile n).resets).length →
        (∀ m, (t.fab.tile m).phase = .reset) ∧ t.fab.epoch = s.fab.epoch + 1 ∧
        (∀ o, s.fab.lastEsc = some o → s.cul.optime.toNat < o + 600 → t.fab.state = .halted ∧ t.glb.haltStop = true) ∧
        ((∀ o, s.fab.lastEsc = some o → o + 600 ≤ s.cul.optime.toNat) → t.fab.state = .loading ∧ t.glb.haltStop = s.glb.haltStop)) ∧
      ((within60 s.cul.optime (s.fab.tile n).resets).length < 2 →
        t.fab.epoch = s.fab.epoch ∧ t.fab.state = s.fab.state ∧ ∀ m, m ≠ n → t.fab.tile m = s.fab.tile m)) ∧
    ((s.fab.tile n).phase = .reset → s.fab.state = .running ∨ s.fab.state = .ready →
      ∃ t, exec (.tileResetDone n) s = .next t ∧ (t.fab.tile n).mem = initMem (tileProg s n s.ci.plane) (s.fab.tile n).mem ∧
        ((t.fab.tile n).phase = .idle ∨ (t.fab.tile n).phase = .unused) ∧ (t.fab.tile n).codeHalf = s.ci.plane ∧
        (t.fab.tile n).task = (tileRec s.ci.act n).task ∧ (t.fab.tile n).regs = (s.fab.tile n).regs ∧ OnlyTile s t n) ∧
    ((s.fab.tile n).phase ≠ .reset → exec (.tileResetDone n) s = .next s)

/-- FABRIC resets: all 48 tiles held, the fabric epoch raised, unfinished fabric instances incomplete; a TILEFW activation on the ACTIVE member of a
group is refused; a HALTED fabric stays so. At the end all tiles have their programs' initial data, the event queues are empty and the overrun counts
of the fabric's tasks cleared. The model's choice, no rule of the manual: registers stay over the reset (log entry 153); a command that the present
state does not admit changes nothing (log entry 2). Completes: FABRIC_RESET, FABRIC_RESET_DONE. -/
def Obligations.FabricResets : Prop :=
  ∀ (act : Bool) (s : State), FabOk s.fab →
    (s.fab.state ≠ .halted → ¬(act = true ∧ inGroup s = true ∧ s.grp.role = .active) →
      ∃ t, exec (.fabricReset act) s = .next t ∧ t.fab.state = .loading ∧ t.fab.epoch = s.fab.epoch + 1 ∧
        (∀ m, (t.fab.tile m).phase = .reset ∧ (t.fab.tile m).mem = (s.fab.tile m).mem) ∧
        (∀ i ∈ t.glb.inst, ∀ r, taskRec s.ci.act i.task = some r → r.engine = 0 → i.complete = true ∨ i.broken = true) ∧
        t.rst.kind = 5 ∧ t.pim = s.pim ∧ t.safe = s.safe ∧ t.cyc = s.cyc ∧ t.ci = s.ci) ∧
    (s.fab.state ≠ .halted → act = true → inGroup s = true → s.grp.role = .active →
      ∃ t, exec (.fabricReset act) s = .next t ∧ t = { s with evr := t.evr } ∧ Records s t .warning srcFab (cRefused .refusedPolicy)) ∧
    (s.fab.state = .halted → exec (.fabricReset act) s = .next s) ∧
    (s.fab.state = .loading → ∃ t, exec .fabricResetDone s = .next t ∧
      (∀ m, (t.fab.tile m).mem = initMem (tileProg s m s.ci.plane) (s.fab.tile m).mem ∧ ((t.fab.tile m).phase = .idle ∨ (t.fab.tile m).phase = .unused) ∧
        (t.fab.tile m).regs = (s.fab.tile m).regs) ∧
      t.fab.state = (if s.glb.state = .run ∨ s.glb.state = .hold then .running else .ready) ∧
      (∀ e ∈ t.glb.evts, e.queue = []) ∧ (∀ k, ∀ r, taskRec s.ci.act k = some r → r.kind = 0 → r.engine = 0 →
        (nthD t.glb.tasks k {}).consec = 0 ∧ (nthD t.glb.tasks k {}).reacted = false) ∧
      t = { s with fab := t.fab, glb := { s.glb with tasks := t.glb.tasks, evts := t.glb.evts } }) ∧
    (s.fab.state ≠ .loading → exec .fabricResetDone s = .next s)


/-! ## Supplies, pins, clocks, resets (R29 to R62, R445 to R464) -/

/-- The supply and wake pins, the reset pin's release and the LED test: what each does to the pins' part of the state, and nothing else. The model's
choice, no rule of the manual: a command that the present state does not admit changes nothing (log entry 2); the code 0 of the FAULT records that the
manual does not number (log entry 60). Completes: POWER_UP_THRESHOLD, LED_TEST_PHASE_END, OVERVOLTAGE_SUSTAINED, WAKE_ACCEPT, WAKE_EXPIRY,
RST_N_RELEASE, VSTBY_BELOW_MINIMUM, VSTBY_RETURN. -/
def Obligations.SupplyPins : Prop :=
  ∀ s : State,
    (∃ t, exec .powerUpThreshold s = .next t ∧ t.pin.supplyHigh = true ∧ t = { s with pin := t.pin } ∧
      (s.pin.powerGood = false → s.glb.state ≠ .dormant ∨ s.pin.cutOff = true ∨ s.pin.wakeAccepted = true → t.pin.qualifying = true) ∧
      (s.glb.state = .dormant → s.pin.cutOff = false → s.pin.wakeAccepted = false → t.pin.qualifying = s.pin.qualifying)) ∧
    (s.glb.state = .dormant → s.pin.powerGood = false → s.pin.vstbyLow = false → s.pin.cutOff = false →
      ∃ t, exec .wakeAccept s = .next t ∧ t.pin.wakeAccepted = true ∧ t.pin.qualifying = s.pin.supplyHigh ∧ t = { s with pin := t.pin }) ∧
    (s.glb.state ≠ .dormant ∨ s.pin.vstbyLow = true → exec .wakeAccept s = .next s) ∧
    (s.pin.qualifying = false → exec .wakeExpiry s = .next { s with pin := { s.pin with wakeAccepted := false } }) ∧
    (s.pin.qualifying = true → exec .wakeExpiry s = .next s) ∧
    (∃ t, exec .vstbyBelowMinimum s = .next t ∧ t.pin.vstbyLow = true ∧ (s.pin.qualifying = false → t.pin.wakeAccepted = false) ∧
      t = { s with pin := t.pin }) ∧
    exec .vstbyReturn s = .next { s with pin := { s.pin with vstbyLow := false } } ∧
    exec .rstNRelease s = .next { s with pin := { s.pin with rstHeld := false } } ∧
    (1 ≤ s.pin.ledPhase → s.pin.ledPhase ≤ 4 → ∃ t, exec .ledTestPhaseEnd s = .next t ∧
      t.pin.ledPhase = (if s.pin.ledPhase = 4 then 0 else s.pin.ledPhase + 1) ∧ t = { s with pin := t.pin }) ∧
    (s.pin.powerGood = true → ∃ t, exec .overvoltageSustained s = .next t ∧ Records s t .warning srcPgv (cFault 0) ∧ t = { s with evr := t.evr })

/-- A failing input: the warning with its flush, retention point and clean end; its clearing with a NOTICE record; the cut-off with fail-silence and
the loss of power. The model's choice, no rule of the manual: that the warning's time is 200 µs before the command and the code 0 of the CLEARED
record (log entries 35 and 60). Completes: POWER_FAIL_WARNING, OVER_VOLTAGE_LOCKOUT, WARNING_CLEAR, HOLD_UP_CUTOFF. -/
def Obligations.PowerFailure : Prop :=
  ∀ s : State, s.pin.powerGood = true →
    (s.pin.warn = none →
      (∃ t, exec .powerFailWarning s = .next t ∧ t.pin.warn = some ⟨false, s.tb.ttc - 200000⟩ ∧ t.evr = { s.evr with flushing := true } ∧
        t.cul.cur.cleanEnd = true ∧ t.cul.cur.lastTime = s.tb.ttc ∧ t.pin.powerGood = true ∧ t.glb = s.glb ∧ t.fab = s.fab ∧ t.pim = s.pim ∧
        t.cyc = s.cyc ∧ t.safe = s.safe ∧ (s.ci.activeValid = true → t.rst.retainMcc = pubLatest s.pim)) ∧
      (∃ t, exec .overVoltageLockout s = .next t ∧ t.pin.warn = some ⟨true, s.tb.ttc⟩ ∧ t.evr = { s.evr with flushing := true } ∧
        t.cul.cur.cleanEnd = true ∧ t.pin.powerGood = true ∧ t.glb = s.glb ∧ t.fab = s.fab ∧ t.pim = s.pim ∧ t.cyc = s.cyc ∧ t.safe = s.safe)) ∧
    (∀ w, s.pin.warn = some w → exec .overVoltageLockout s = .next s ∧
      (∃ t, exec .warningClear s = .next t ∧ t.pin.warn = none ∧ t.cul.cur.cleanEnd = false ∧ Records s t .notice srcPgv (cCleared 0) ∧
        t = { s with pin := t.pin, cul := t.cul, evr := t.evr }) ∧
      (s.safe.failSilent = false → ∃ t, exec .holdUpCutoff s = .next t ∧ Silenced s t 0x07 ∧ t.pin.powerGood = false ∧
        t.pin.cutOff = true ∧ t.tk.running = false))

/-- Every way into fail-silence: temperature, the Canary's watches, liveness, self-test and the clocks that need it. The model's choice, no rule of
the manual: CRITICAL records of a temperature cause (log entry 38). Completes: THERMAL_LIMIT, CLOCK_FAULT, LIVENESS_PULSE, CANARY_WATCH, FAIL_SILENCE,
CORE_SELF_TEST. -/
def Obligations.FailSilence : Prop :=
  ∀ s : State, s.safe.failSilent = false → s.pin.powerGood = true →
    (∃ t, exec .thermalLimit s = .next t ∧ Silenced s t 0x06 ∧ Records s t .critical srcCanary (cFault 6)) ∧
    (∀ c : Byte, 1 ≤ c.toNat → c.toNat ≤ 8 →
      (∃ t, exec (.canaryWatch c) s = .next t ∧ Silenced s t c) ∧ (∃ t, exec (.failSilence c) s = .next t ∧ Silenced s t c)) ∧
    (∃ t, exec (.livenessPulse false) s = .next t ∧ Silenced s t 0x01) ∧
    (∃ t, exec (.coreSelfTest false) s = .next t ∧ Silenced s t 0x08) ∧
    exec (.livenessPulse true) s = .next s ∧ exec (.coreSelfTest true) s = .next s ∧
    (∀ i : Fin 19, i.val ≤ 4 → ∃ t, exec (.clockFault i) s = .next t ∧ Silenced s t 0x05 ∧ bit t.clk.fault i.val = true ∧ bit t.clk.ok i.val = false)

/-- The other clock faults: the cluster's clocks a RUNTIME reset, a port's clock a PORT reset, a receive clock the loss of its link; the mask of
PLL_AC during a step, at whose end the cores, unless stalled, run on and the accesses that they had waiting are carried out in order. The model's choice, no rule of
the manual: what a masked or absent cause does (log entries 2 and 38). Completes: CLOCK_FAULT, CLK_AC_STEP_DONE. -/
def Obligations.ClockFaults : Prop :=
  ∀ (s : State) (i : Fin 19),
    (i.val = 5 → s.clk.acMask = true → exec (.clockFault i) s = .next s) ∧
    (i.val = 5 ∧ s.clk.acMask = false ∨ i.val = 6 → ∃ t, exec (.clockFault i) s = .next t ∧ RuntimeGone s t ∧ bit t.clk.fault i.val = true ∧
      t.rst.faultLed1Hz = true ∧ ((clocksNow s).contains i.val = false → Records s t .error srcClk (cFault i.val))) ∧
    (∀ u, (i.val, u) ∈ [(7, 0), (8, 1), (9, 2), (10, 6), (11, 7), (12, 3), (13, 5)] →
      ∃ t, exec (.clockFault i) s = .next t ∧ bit t.rst.portHeld u = true ∧ bit t.clk.fault i.val = true ∧ bit t.clk.ok i.val = false ∧
        t.fab = s.fab ∧ t.safe = s.safe ∧ t.ci = s.ci) ∧
    (14 ≤ i.val → i.val ≤ 16 → ∃ t, exec (.clockFault i) s = .next t ∧ bit t.clk.fault i.val = true ∧
      (nthD t.eth.ports (i.val - 14) {}).up = false ∧ ((∀ y ∈ s.eth.subs, y.held = none) → (clocksNow s).contains i.val = false → Records s t .warning srcClk (cFault i.val))) ∧
    (i.val = 17 ∨ i.val = 18 → ∃ t, exec (.clockFault i) s = .next t ∧ bit t.clk.fault i.val = true ∧
      (t.grp.br (if i.val = 17 then .left else .right)).up = false ∧
      ((clocksNow s).contains i.val = false → Records s t .warning srcClk (cFault i.val))) ∧
    (s.clk.acMask = true → ∃ t, exec (.clkAcStepDone false) s = .next t ∧ RuntimeGone s t ∧ t.clk.acMask = false ∧ bit t.clk.fault 5 = true ∧
      t.rst.faultLed1Hz = true) ∧
    (s.clk.acMask = true → s.host = [] ∨ s.pgv.stalled = true → exec (.clkAcStepDone true) s = .next { s with clk := { s.clk with acMask := false } }) ∧
    (s.clk.acMask = true → s.pgv.stalled = false →
      exec (.clkAcStepDone true) s = .next (s.host.foldl replay { s with clk := { s.clk with acMask := false }, host := [] })) ∧
    (∀ locked, s.clk.acMask = false → exec (.clkAcStepDone locked) s = .next s)

/-- The resets that reach every block: power-on and DORMANT exit, MODULE and CANARY reset; a failed Canary self-test only lights FAULT. The model's
choice, no rule of the manual: a command that the present state does not admit changes nothing (log entry 2); RST_N's command (log entry 37).
Completes: POWER_GOOD, RST_N, MODULE_RESET_TAKE_EFFECT, CANARY_RESET. -/
def Obligations.ResetsReachAll : Prop :=
  ∀ s : State,
    (s.pin.powerGood = false → s.pin.qualifying = true →
      (∃ t, exec (.powerGood true) s = .next t ∧ Booted s t (if s.glb.state = .dormant ∧ s.pin.cutOff = false then 3 else 0) ∧
        t.pin.ledPhase = 1 ∧ t.safe.canaryLatch = 0 ∧ t.clk.ok = 0x3FFF ∧ t.cul.pwrCycles = (bootCul s.cul).pwrCycles + 1) ∧
      exec (.powerGood false) s = .next { s with safe := { s.safe with faultLed := true } }) ∧
    (s.rst.moduleDue = true → s.pin.powerGood = true → s.pin.cutOff = false → s.glb.state ≠ .dormant → ∃ t, exec .moduleResetTakeEffect s = .next t ∧
      Booted (writeCounters s (fun c => { c with moduleCnt := satInc c.moduleCnt })) t 1 ∧ t.pin.ledPhase = 0 ∧
      t.safe.canaryLatch = s.safe.canaryLatch) ∧
    (s.rst.moduleDue = false ∨ s.pin.powerGood = false ∨ s.pin.cutOff = true ∨ s.glb.state = .dormant → exec .moduleResetTakeEffect s = .next s) ∧
    (s.safe.failSilent = true → s.safe.armed = true → s.pin.powerGood = true → s.ci.act.safety.canaryRestart = 1 →
      s.safe.canaryLatch ≠ 6 ∨ s.pgv.edgeC.toInt < 85 →
      ∃ t, exec .canaryReset s = .next t ∧ Booted s t 2 ∧ t.safe.canaryLatch = s.safe.canaryLatch) ∧
    (s.safe.armed = false ∨ s.ci.act.safety.canaryRestart = 0 → exec .canaryReset s = .next s) ∧
    (∃ t, exec .rstN s = .next t ∧ t.pin.rstHeld = true ∧
      (s.pin.powerGood = true → s.pin.cutOff = false → s.rst.moduleDue = false → s.glb.state ≠ .dormant →
        t.rst.moduleDue = true ∧ t.evr.flushing = true ∧ (s.ci.activeValid = true → t.rst.retainMcc = pubLatest s.pim)) ∧
      (s.pin.powerGood = false ∨ s.pin.cutOff = true ∨ s.glb.state = .dormant → t = { s with pin := { s.pin with rstHeld := true } }))

/-- The boot: the trusted kernel starts in CONFIG when a key store and a kernel slot verify, else the module stays in BOOT under fail-silence; a valid
image and fabric firmware bring STOP at MCC 0; a valid runtime image releases the cluster. The model's choice, no rule of the manual: a command that
the present state does not admit changes nothing (log entry 2). Completes: TRUSTED_KERNEL_START, ACTIVE_PLANE_LOADED, CLUSTER_RELEASE. -/
def Obligations.BootSteps : Prop :=
  ∀ s : State,
    (s.pin.powerGood = true → s.pin.rstHeld = false → s.glb.state = .boot → s.tk.running = false → s.safe.failSilent = false →
      ((bootStore s).2 = true → (bootTk (bootStore s).1).2 = true →
        ∃ t, exec .trustedKernelStart s = .next t ∧ t.tk.running = true ∧ t.glb.state = .config ∧ t.safe.running = true ∧ t.safe.canaryNew = false) ∧
      ((bootStore s).2 = false ∨ (bootTk (bootStore s).1).2 = false →
        ∃ t, exec .trustedKernelStart s = .next t ∧ t.tk.running = false ∧ t.glb.state = .boot ∧ t.safe.failSilent = true ∧
          t.safe.faultLed = true ∧ ∀ o ∈ t.safe.so, o.cmd = false)) ∧
    (s.tk.running = true → s.glb.state = .config → s.ci.activeValid = false →
      ((bootSlotOf (ciCheck s) .ci).2 = true → (bootSlotOf (bootSlotOf (ciCheck s) .ci).1 .tilefw).2 = true →
        ∃ t, exec .activePlaneLoaded s = .next t ∧ t.glb.state = .stop ∧ t.ci.activeValid = true ∧ t.cyc.running = true ∧
          t.cyc.started = false ∧ t.cyc.mcc = 0) ∧
      ((bootSlotOf (ciCheck s) .ci).2 = false →
        ∃ t, exec .activePlaneLoaded s = .next t ∧ t.glb.state = .config ∧ t.ci.activeValid = false ∧
          ∃ r ∈ t.evr.ring, r.sev = .critical ∧ r.src = srcGlb)) ∧
    (s.tk.running = true → s.rst.clusterHeld = true → s.rst.clusterLocked = false → s.glb.state ≠ .dormant → s.safe.failSilent = false →
      ((bootSlotOf s .ur).2 = true → ∃ t, exec .clusterRelease s = .next t ∧ t.rst.clusterHeld = false ∧ bit t.clk.ok 5 = true ∧ bit t.clk.ok 6 = true) ∧
      ((bootSlotOf s .ur).2 = false → ∃ t, exec .clusterRelease s = .next t ∧ t.rst.clusterHeld = true ∧ t.rst.faultLed1Hz = true)) ∧
    (s.rst.clusterLocked = true → exec .clusterRelease s = .next s)

/-- The runtime watchdog: armed and not stalled, its expiry writes an ERROR record and resets the cluster; a second fault reset within 60 s of
operation locks it; a kick restarts the countdown. The model's choice, no rule of the manual: a command that the present state does not admit changes
nothing (log entry 2). Completes: WATCHDOG_KICK, WATCHDOG_EXPIRY. -/
def Obligations.Watchdog : Prop :=
  ∀ s : State,
    (s.rst.wdogArmed = true → s.pgv.stalled = false → s.tk.sessions.length ≤ 8 →
      ∃ t, exec .watchdogExpiry s = .next t ∧ t.rst.clusterHeld = true ∧ t.dram = [] ∧ t.tk.sessions = [] ∧ t.rst.source = .watchdog ∧
        Records s t .error srcRst (cFault 2) ∧ t.fab = s.fab ∧ t.cyc = s.cyc ∧ t.safe = s.safe ∧ t.glb = s.glb ∧ t.ci = s.ci) ∧
    (s.rst.wdogArmed = false ∨ s.pgv.stalled = true → exec .watchdogExpiry s = .next s) ∧
    (s.rst.clusterHeld = true → exec .watchdogKick s = .next s) ∧
    (s.rst.clusterHeld = false → coresStopped s = true → exec .watchdogKick s = .next { s with host := s.host ++ [.watchdogKick] }) ∧
    (s.rst.wdogArmed = true → s.rst.clusterHeld = false → coresStopped s = false → ∃ t, exec .watchdogKick s = .next t ∧ t.rst.wdogEnd = ttcIn s (s.rst.wdogMs.toNat * 1000000) ∧ t = { s with rst := t.rst }) ∧
    (s.rst.wdogArmed = false → s.rst.clusterHeld = false → coresStopped s = false → exec .watchdogKick s = .next s)

/-- PORT resets end with the unit running again where it is powered, has firmware and the plane is loaded. The model's choice, no rule of the manual:
a command that the present state does not admit changes nothing (log entry 2). Completes: PORT_RESET_DONE. -/
def Obligations.PortResetEnds : Prop :=
  ∀ (s : State) (u : Nat), u ≤ 8 → bit s.rst.portHeld u = true → s.ci.activeValid = true → bit s.pgv.portRefused u = false →
    bit s.rst.portNoFw u = false → s.upd.portSeq = [] →
    ∃ t, exec (.portResetDone u) s = .next t ∧ bit t.rst.portHeld u = false ∧ (∀ v, v ≠ u → bit t.rst.portHeld v = bit s.rst.portHeld v) ∧
      t.fab = s.fab ∧ t.pim = s.pim ∧ t.txe = s.txe ∧ t.cyc = s.cyc ∧ t.safe = s.safe

/-- The governor: a step above POWER.AC_MAX_STEP is refused, any other granted up to what the headroom covers; the derating follows the card edge;
each window's input and peak are shown, and one that ends a stall lets the accesses that waited be carried out. The model's choice, no rule of the manual: the step granted is the least of the limits (log entry 144) and
NOTICE for a derate (log entry 61). Completes: THERMAL_DERATE, AC_STEP_REQUEST, POWER_WINDOW. -/
def Obligations.PowerGovernor : Prop :=
  ∀ s : State,
    (∀ st : BitVec 3, s.rst.clusterHeld = true → exec (.acStepRequest st) s = .next s) ∧
    (∀ st : BitVec 3, s.rst.clusterHeld = false → coresStopped s = true → exec (.acStepRequest st) s = .next { s with host := s.host ++ [.acStepRequest st] }) ∧
    (∀ st : BitVec 3, s.rst.clusterHeld = false → coresStopped s = false → s.ci.act.power.acMaxStep < st.toNat → ∃ t, exec (.acStepRequest st) s = .next t ∧
      t.pgv.acStatus = Status.refusedPolicy.code ∧ t.pgv.granted = s.pgv.granted ∧ t = { s with pgv := t.pgv }) ∧
    (∀ st : BitVec 3, s.rst.clusterHeld = false → coresStopped s = false → st.toNat ≤ s.ci.act.power.acMaxStep → ∃ t, exec (.acStepRequest st) s = .next t ∧ t.pgv.step = st ∧
      t.pgv.granted.toNat ≤ st.toNat ∧ t.pgv.granted.toNat ≤ maxStep s ∧ (t.pgv.acStatus = Status.ok.code ↔ t.pgv.granted = st) ∧
      t.pgv.granted.toNat = bestStep s (min st.toNat (maxStep s)) ∧ t = { s with pgv := t.pgv, clk := t.clk }) ∧
    (∀ c : BitVec 8, ∃ t, exec (.thermalDerate c) s = .next t ∧ t.pgv.edgeC = c ∧
      (let was := s.pgv.thermStep.toNat
       t.pgv.thermStep = (if 80 < c.toInt ∨ was = 0 ∧ 78 < c.toInt then 0
         else if 75 < c.toInt ∨ was ≤ 3 ∧ 73 < c.toInt then 3
         else if 70 < c.toInt ∨ was ≤ 5 ∧ 68 < c.toInt then 5 else 7)) ∧
      t.pgv.derating = decide (t.pgv.thermStep ≠ 7) ∧
      t.pgv.granted.toNat = min s.pgv.granted.toNat (min s.ci.act.power.acMaxStep t.pgv.thermStep.toNat) ∧ t.pgv.step = s.pgv.step ∧
      (t.pgv.thermStep ≠ s.pgv.thermStep → Records s t .notice srcPgv (cState t.pgv.thermStep.toNat)) ∧
      (t.pgv.thermStep = s.pgv.thermStep → t.evr = s.evr) ∧ t = { s with pgv := t.pgv, clk := t.clk, evr := t.evr }) ∧
    (∀ (i mv ma : Nat) (us : List Nat), s.pin.powerGood = false → exec (.powerWindow i mv ma us) s = .next s) ∧
    (∀ (i mv ma : Nat) (us : List Nat), s.pin.powerGood = true → s.pgv.stalled = true →
      ∃ w, exec (.powerWindow i mv ma us) { s with host := [] } = .next w ∧ exec (.powerWindow i mv ma us) s =
        .next (if coresStopped w = true then { w with host := s.host } else s.host.foldl replay w)) ∧
    (∀ (i mv ma : Nat) (us : List Nat), s.pin.powerGood = true → s.pgv.stalled = false ∨ s.host = [] → ∃ t, exec (.powerWindow i mv ma us) s = .next t ∧ t.pgv.input.toNat = min i 511 ∧
      t.pgv.peak.toNat = max s.pgv.peak.toNat (min i 511) ∧ t.pgv.voltMv.toNat = min mv 65535 ∧ t.pgv.currentMa.toNat = min ma 65535 ∧
      t.fab = s.fab ∧ t.safe = s.safe ∧ t.ci = s.ci)

/-- The timed writes of the Cullet: the older retained generation where a RETAINED value differs from the newer, the counters record with operating
time and last known time, LEHR_LEFT of the types in TRIAL. The model's choice, no rule of the manual: when they are written (log entry 48). Completes:
RETENTION_POINT, COUNTERS_RECORD_WRITE, LEHR_LEFT_WRITE. -/
def Obligations.CulletWrites : Prop :=
  ∀ s : State, s.tk.running = true →
    (s.ci.activeValid = true → retDiffers s = true → ∃ t, exec .retentionPoint s = .next t ∧ t.cul.retained = s.cul.retained.write (retGen s) ∧
      t.rst.retainMcc = pubLatest s.pim ∧ t = { s with cul := { s.cul with retained := t.cul.retained }, rst := t.rst }) ∧
    (retDiffers s = false → exec .retentionPoint s = .next s) ∧
    (s.glb.state = .dormant → exec .countersRecordWrite s = .next s) ∧
    (s.glb.state ≠ .dormant → ∃ t, exec .countersRecordWrite s = .next t ∧ t.cul.cur.optime = s.cul.optime ∧ t.cul.cur.lastTime = s.tb.ttc ∧
      t.cul.cur.pwrCycles = s.cul.pwrCycles ∧ t.cul.cur.seq = s.cul.cur.seq + 1 ∧ t.cul.counters = s.cul.counters.write t.cul.cur ∧
      t.grp = { s.grp with probLeft := s.grp.probLeft - 1 } ∧ t = { s with cul := { s.cul with cur := t.cul.cur, counters := t.cul.counters }, grp := t.grp }) ∧
    (∃ t, exec .lehrLeftWrite s = .next t ∧ t.upd.lehrTick = s.cul.optime.toNat ∧
      t.cul.boot = s.cul.boot.map (fun e => if e.state = 1
        then { e with lehrLeft := BitVec.ofNat 32 (e.lehrLeft.toNat - (s.cul.optime.toNat - s.upd.lehrTick)) } else e) ∧
      t.fab = s.fab ∧ t.glb = s.glb ∧ t.evr = s.evr)


/-! ## Boundaries, settling, releases, launches (R146 to R193) -/

/-- Standalone a boundary counts on by 1 from the timer's instant and places the next one; with no instance in flight the pending mode command whose
boundary has come takes effect. Without a running generator nothing happens. The automatic start makes its command the pending one. The model's
choice, no rule of the manual: severities and codes of mode records (log entries 61 and 62). Completes: BOUNDARY, AUTOMATIC_START. -/
def Obligations.ModeBoundaries : Prop :=
  ∀ s : State,
    (s.cyc.running = true → s.pin.powerGood = true → inGroup s = false → s.grp.adoptDue = none →
      ∃ t, exec .boundary s = .next t ∧ t.cyc.started = true ∧ t.cyc.mcc = nextMcc s ∧ t.cyc.bttc = s.cyc.timerTtc ∧
        t.tk.fuses = s.tk.fuses ∧ t.glb.handOuts = [] ∧
        (t.glb.state ≠ .dormant → t.cyc.timerTtc = t.cyc.bttc + BitVec.ofNat 64 t.cyc.lenNs) ∧
        (s.glb.haltStop = false → s.glb.inst = [] → s.ci.swapDue = false → s.upd.act = none → s.upd.waiting = [] →
          (s.glb.pendCmd = none → t.glb.state = s.glb.state ∧ t.glb.pendCmd = none) ∧
          (∀ c, s.glb.pendCmd = some c → atOrBefore s.glb.tgtMcc (nextMcc s) = true → t.glb.pendCmd = none ∧
            (c = .startWarm → s.glb.state = .stop → t.glb.state = .run ∧ t.glb.lastRestart = 2 ∧ t.glb.modeMcc = t.cyc.mcc) ∧
            (c = .startCold → s.glb.state = .stop → t.glb.state = .run ∧ t.glb.lastRestart = 1 ∧ t.glb.forces = []) ∧
            (c = .stop → s.glb.state = .run ∨ s.glb.state = .hold →
              t.glb.state = .stop ∧ t.glb.stopCause = .command ∧ (∀ e ∈ t.glb.evts, e.queue = []) ∧ t.cyc.soLaunch = some (false, false)) ∧
            (c = .hold → s.glb.state = .run → t.glb.state = .hold) ∧
            (c = .cont → s.glb.state = .hold → t.glb.state = .run) ∧
            (c = .dormant → s.glb.state = .stop → t.glb.state = (if s.pin.vstbyLow = true then .stop else .dormant))) ∧
          (∀ c, s.glb.pendCmd = some c → atOrBefore s.glb.tgtMcc (nextMcc s) = false →
            t.glb.state = s.glb.state ∧ t.glb.pendCmd = some c))) ∧
    (s.cyc.running = false ∨ s.pin.powerGood = false → exec .boundary s = .next s) ∧
    (inGroup s = false → s.glb.state = .stop → s.cyc.started = true → s.glb.autoDue = true →
      ∃ t, exec .automaticStart s = .next t ∧ t.glb.autoDue = false ∧ t.glb.inst = s.glb.inst ∧ t.glb.state = .stop ∧
        (s.glb.auto = 0 → t.glb.stopCause = .autoDisabled ∧ t = { s with glb := t.glb }) ∧
        (s.glb.auto = 1 ∨ s.glb.auto = 2 → t.glb.pendCmd = some (if s.glb.auto = 1 then .startWarm else .startCold) ∧
          t.glb.tgtMcc = boundaryAfter s 1000000 ∧ t.rst.dormantPending = false ∧ t = { s with glb := t.glb, rst := t.rst })) ∧
    (s.glb.state ≠ .stop → exec .automaticStart s = .next s)

/-- The end of settling publishes the image of the boundary, once; the release starts the tasks of the fabric and the safety island whose boundary it
is, as the module's state lets it, with their instances and every tile filling; in STOP nothing is released. The model's choice, no rule of the
manual: a command that the present state does not admit changes nothing (log entry 2). Completes: SETTLING_COMPLETE, TASK_RELEASE. -/
def Obligations.SettleAndRelease : Prop :=
  ∀ s : State, FabOk s.fab →
    (s.cyc.running = true → s.cyc.started = true → s.pim.settledMcc ≠ some s.cyc.mcc →
      ∃ t, exec .settlingComplete s = .next t ∧ t.pim.settledMcc = some s.cyc.mcc ∧
        t.pim.ring.head?.map (·.ver) = some s.cyc.mcc ∧ t.pim.ring.length ≤ 4 ∧ t.cyc = s.cyc ∧ t.fab = s.fab ∧ t.safe = s.safe ∧
        t.glb.state = s.glb.state ∧ t.glb.inst = s.glb.inst ∧ t.pim.dyn.map (·.sid) = s.pim.dyn.map (·.sid) ∧ t.ci = s.ci ∧
        (inGroup s = false → t.pim.staging = s.pim.staging ∧ t.glb = { s.glb with evts := t.glb.evts, trigNoted := t.glb.trigNoted })) ∧
    (s.cyc.running = false ∨ s.cyc.started = false ∨ s.pim.settledMcc = some s.cyc.mcc → exec .settlingComplete s = .next s) ∧
    (s.cyc.running = true → s.cyc.started = true → s.glb.relDone ≠ some s.cyc.mcc →
      (∃ t, exec .taskRelease s = .next t ∧ t.glb.relDone = some s.cyc.mcc ∧ t.cyc.mcc = s.cyc.mcc ∧ t.ci = s.ci ∧
        (s.fab.state = .running → t.glb.state = s.glb.state ∧
          (∀ i ∈ s.glb.inst, ∃ j ∈ t.glb.inst, j.task = i.task ∧ j.rel = i.rel) ∧
          (∀ r ∈ s.ci.act.tasks, r.engine ≤ 1 → releasesNow s r = true →
            ∃ i ∈ t.glb.inst, i.task = r.id ∧ i.rel = s.cyc.mcc ∧ i.fin = s.cyc.mcc + BitVec.ofNat 32 (2 ^ r.periodExp)) ∧
          (∀ n, (∀ r ∈ s.ci.act.tasks, r.engine = 0 → releasesNow s r = true → n.val ∉ tilesOf s.ci.act r.id) → t.fab.tile n = s.fab.tile n))) ∧
      (s.glb.state ≠ .run → s.glb.state ≠ .hold →
        ∃ t, exec .taskRelease s = .next t ∧ t.glb = { s.glb with relDone := some s.cyc.mcc } ∧ t.fab = s.fab ∧ t.pim = s.pim ∧ t.safe = s.safe) ∧
      (s.glb.state = .run → s.fab.state = .running → s.ci.affected = [] → (∀ r ∈ s.ci.act.tasks, r.engine ≠ 1) →
        ∃ t, exec .taskRelease s = .next t ∧ t.glb.relDone = some s.cyc.mcc ∧ t.pim = s.pim ∧ t.ci = s.ci ∧ t.safe = s.safe ∧ t.eth = s.eth ∧
          t.cyc = s.cyc ∧ (∀ i ∈ s.glb.inst, ∃ j ∈ t.glb.inst, j.task = i.task ∧ j.rel = i.rel) ∧
          (∀ r ∈ s.ci.act.tasks, r.kind = 0 → r.engine = 0 → s.cyc.mcc.toNat % 2 ^ r.periodExp = r.phase →
            ∃ i ∈ t.glb.inst, i.task = r.id ∧ i.rel = s.cyc.mcc ∧ i.fin = s.cyc.mcc + BitVec.ofNat 32 (2 ^ r.periodExp)) ∧
          (∀ n, (∀ r ∈ s.ci.act.tasks, r.engine = 0 → r.kind = 0 → s.cyc.mcc.toNat % 2 ^ r.periodExp = r.phase → n.val ∉ tilesOf s.ci.act r.id) →
            t.fab.tile n = s.fab.tile n))) ∧
    (s.cyc.running = false ∨ s.cyc.started = false ∨ s.glb.relDone = some s.cyc.mcc → exec .taskRelease s = .next s)

/-- Launches leave their queues oldest first; the safe outputs take their committed commands 100 µs after the boundary, a latched fault and the
island's safe state keeping them off; the gates of a port go to the next entry, but for one that the boundary cuts off; an edge of SYNC_IN is stamped
with the capture tick of the TTC less the 16 ns of the crossing. The model's choice, no rule of the manual: a command that the present state does not
admit changes nothing (log entry 2). Completes: SYNC_IN_EDGE, LAUNCH_FIRE, SO_LAUNCH, GATE_ENTRY. -/
def Obligations.Launches : Prop :=
  ∀ s : State,
    (∀ (q : Nat) (l : Launch) (ls : List Launch), q < 64 → s.cyc.queues.length = 64 → launchQueue s q = l :: ls →
      launchDue (passTo s l.ttc) l = true →
      ∃ t, exec (.launchFire q) s = .next t ∧ launchQueue t q = ls ∧ (∀ r, r ≠ q → launchQueue t r = launchQueue s r) ∧
        t.fab = s.fab ∧ t.pim = s.pim ∧ t.safe = s.safe ∧ t.glb = s.glb ∧ t.eth = s.eth) ∧
    (∀ q : Nat, q < 64 → launchQueue s q = [] → exec (.launchFire q) s = .next s) ∧
    (∀ (n : Nat) (l : Launch), n < 16 → s.cyc.evtLaunch.length = 16 → nthD s.cyc.evtLaunch n none = some l →
      launchDue (passTo s l.ttc) l = true →
      ∃ t, exec (.launchFire (64 + n)) s = .next t ∧ nthD t.cyc.evtLaunch n none = none ∧ t.cyc.queues = s.cyc.queues ∧
        t.fab = s.fab ∧ t.pim = s.pim ∧ t.safe = s.safe ∧ t.glb = s.glb ∧ t.eth = s.eth) ∧
    (∀ a b, s.cyc.soLaunch = some (a, b) → s.safe.so.length = 2 →
      ∃ t, exec .soLaunch s = .next t ∧ t.cyc = { s.cyc with soLaunch := none } ∧ t.fab = s.fab ∧ t.pim = s.pim ∧ t.glb = s.glb ∧ t.eth = s.eth ∧
        (s.safe.cause ≠ 0 ∨ s.safe.failSilent = true → t.safe = s.safe) ∧
        (s.safe.cause = 0 → s.safe.failSilent = false → inGroup s = false →
          (nthD t.safe.so 0 {}).cmd = (a && soFree s 0) ∧ (nthD t.safe.so 1 {}).cmd = (b && soFree s 1) ∧
          (nthD t.safe.so 0 {}).faultHigh = (nthD s.safe.so 0 {}).faultHigh ∧ (nthD t.safe.so 1 {}).faultHigh = (nthD s.safe.so 1 {}).faultHigh ∧
          t.safe.cause = s.safe.cause)) ∧
    (s.cyc.soLaunch = none → exec .soLaunch s = .next s) ∧
    (∀ p : Fin 3, s.eth.ports.length = 3 → (ethPort s p).gclCur + 1 < (gateList s.ci.act p).length →
      (ethPort s p).gclEndTtc ≠ s.cyc.timerTtc →
      ∃ t, exec (.gateEntry p) s = .next t ∧ (ethPort t p).gclCur = (ethPort s p).gclCur + 1 ∧ (ethPort t p).queues = (ethPort s p).queues ∧
        (∀ q, q ≠ p → ethPort t q = ethPort s q) ∧ t.fab = s.fab ∧ t.cyc = s.cyc ∧ t.glb = s.glb) ∧
    (∀ p : Fin 3, (gateList s.ci.act p).length ≤ (ethPort s p).gclCur + 1 ∨ (ethPort s p).gclEndTtc = s.cyc.timerTtc → exec (.gateEntry p) s = .next s) ∧
    (s.pin.powerGood = true → s.glb.state ≠ .dormant → ∃ t, exec .syncInEdge s = .next t ∧ t.tb = { s.tb with syncIn := edgeStamp s } ∧
      (s.ci.act.time.syncRef ≠ 1 → t.cyc = s.cyc) ∧ t = { s with tb := t.tb, cyc := t.cyc }) ∧
    (s.pin.powerGood = false ∨ s.glb.state = .dormant → exec .syncInEdge s = .next s)

/-- The time base's events: a confirmed step moves the TTC by the offset with the next boundary kept at its distance; lost masters and missing Sync
messages are counted and lead to HOLDOVER where no other plane serves; the module's own PTP messages wait in class 7; a grandmaster's time becomes
valid after 2 s. The model's choice, no rule of the manual: codes of CHANGE records that R471 does not number (log entry 62) and the servo (log entry
19). Completes: TIME_STEP, ANNOUNCE_TIMEOUT, SYNC_TIMEOUT, PTP_DELAY_REQ, PTP_MASTER_SEND, GM_TIME_VALID. -/
def Obligations.TimeBaseEvents : Prop :=
  ∀ (s : State) (b : Bool),
    (∀ d o, s.tb.stepDue = some d → stepOffset s d = some o → s.cyc.started = true → atOrBefore d.target s.cyc.mcc = true →
      ∃ t, exec .timeStep s = .next t ∧ t.tb.valid = true ∧ t.tb.acceptedCnt = satInc s.tb.acceptedCnt ∧ t.tb.stepRefused = false ∧
        t.tb.stepDue = none ∧ t.tb.state = .acquiring ∧
        t.tb.ttc = (passTo s (t0 s + 100000)).tb.ttc - BitVec.ofInt 64 o ∧
        t.cyc.timerTtc - t.tb.ttc = s.cyc.timerTtc - (passTo s (t0 s + 100000)).tb.ttc ∧ t.cyc.mcc = s.cyc.mcc ∧ t.cyc.bttc = s.cyc.bttc ∧
        (∃ r ∈ t.evr.ring, r.sev = .notice ∧ r.src = srcTime ∧ r.code = cChange 1) ∧ t.pim = s.pim ∧ t.glb = s.glb ∧
        (∀ m, (t.fab.tile m).relTtc - t.tb.ttc = (s.fab.tile m).relTtc - (passTo s (t0 s + 100000)).tb.ttc ∧
          { t.fab.tile m with relTtc := 0, winStart := 0 } = { s.fab.tile m with relTtc := 0, winStart := 0 })) ∧
    (∀ d, s.tb.stepDue = some d → d.refusedCase ≠ 0 → s.tb.valid = true → stepOffset s d = some s.tb.offset) ∧
    (∀ d, s.tb.stepDue = some d → d.refusedCase = 0 ∨ s.tb.valid = false → stepOffset s d = s.tb.confirmed) ∧
    (∀ d, s.tb.stepDue = some d → stepOffset s d = none → s.cyc.started = true → atOrBefore d.target s.cyc.mcc = true →
      ∃ t, exec .timeStep s = .next t ∧
        t = { passTo s (t0 s + 100000) with tb := { (passTo s (t0 s + 100000)).tb with stepDue := none, acceptPending := false } }) ∧
    (s.tb.stepDue = none → exec .timeStep s = .next s) ∧
    (ptpOn s b = true → (ptpOf s b).best ≠ none → ∃ t, exec (.announceTimeout b) s = .next t ∧ (ptpOf t b).best = none ∧ t.tb.discards = satInc s.tb.discards ∧
      ptpOf t (!b) = ptpOf s (!b) ∧ t = { s with tb := t.tb, evr := t.evr } ∧
      (s.tb.selB = b → (ptpOf s (!b)).best = none → s.tb.state = .locked ∨ s.tb.state = .acquiring → t.tb.state = .holdover) ∧
      (s.tb.selB = b → (ptpOf s (!b)).best ≠ none → t.tb.selB = !b)) ∧
    (ptpOn s b = true → (ptpOf s b).best = none → (ptpOf s b).timedOut = false → s.tb.selB = b →
      ∃ t, exec (.announceTimeout b) s = .next t ∧ (ptpOf t b).timedOut = true ∧ (ptpOf t b).best = none ∧ t.tb.discards = satInc s.tb.discards ∧
        t = { s with tb := t.tb, evr := t.evr } ∧ ((ptpOf s (!b)).best ≠ none → t.tb.selB = !b) ∧
        ((ptpOf s (!b)).best = none → t.tb.selB = b)) ∧
    (ptpOn s b = false ∨ ((ptpOf s b).best = none ∧ (ptpOf s b).timedOut = true) → exec (.announceTimeout b) s = .next s) ∧
    (∃ t, exec .syncTimeout s = .next t ∧ t.tb.discards = satInc s.tb.discards ∧ t = { s with tb := t.tb, evr := t.evr } ∧
      ((ptpOf s (!s.tb.selB)).best = none → s.tb.state = .locked → t.tb.state = .holdover)) ∧
    (ptpOn s b = true → (ptpOf s b).best ≠ none ∨ asProfile s b = true →
      ∃ t, exec (.ptpDelayReq b) s = .next t ∧ t = sendPtp s b (if asProfile s b = true then .pdelayReq (clockId s) else .delayReq (clockId s))) ∧
    (ptpOn s b = false → exec (.ptpDelayReq b) s = .next s) ∧
    (ptpOn s b = true → gmCapable s = true → (ptpOf s b).best = none →
      ∃ t, exec (.ptpMasterSend b) s = .next t ∧ (ptpOf t b).asGm = true ∧ (ptpOf t b).best = none ∧ t.fab = s.fab ∧ t.cyc = s.cyc ∧
        (∀ c : Nat, c ≠ 7 → nthD (ethPort t (if b then 1 else 0)).queues c [] = nthD (ethPort s (if b then 1 else 0)).queues c [])) ∧
    (gmCapable s = false → ∃ t, exec (.ptpMasterSend b) s = .next t ∧ (ptpOf t b).asGm = false ∧ (ptpOf t b).best = (ptpOf s b).best ∧ t = { s with tb := t.tb }) ∧
    (s.tb.a.asGm = true ∨ s.tb.b.asGm = true → s.tb.valid = false →
      let u := passTo s (s.tb.gmAt + 2000000000)
      ∃ t, exec .gmTimeValid s = .next t ∧ t.tb = { u.tb with valid := true } ∧ t = { u with tb := t.tb, evr := t.evr } ∧
        ∃ r ∈ t.evr.ring, r.sev = .warning ∧ r.src = srcTime ∧ r.code = cChange 2 ∧ r.ttc = t.tb.ttc) ∧
    ((s.tb.a.asGm = false ∧ s.tb.b.asGm = false) ∨ s.tb.valid = true → exec .gmTimeValid s = .next s)


/-! ## Ethernet ports, TRDP, the legacy buses (R162, R248 to R302) -/

/-- Frames and timers of the Ethernet ports: the frame that leaves is the head of the highest class that may start; the stages of reception with their
counts and, for process data, one entry of the staging image per signal; links; the host queue; what the timers forget and ask. The model's choice, no
rule of the manual: the code 0 of the FAULT records that the manual does not number (log entry 60); PD and PRP choices (log entries 92 to 98).
Completes: FRAME_TRANSMIT, FRAME_RECEIVE, SDT_SKEW_TIMEOUT, LINK_UP, LINK_DOWN, PRP_SUPERVISION, PRP_ENTRY_AGE, PD_COUNTER_FORGET, ARP_REFRESH,
MD_REASSEMBLY_TIMEOUT, HOST_FRAME_SUBMIT. -/
def Obligations.Ethernet : Prop :=
  ∀ (s : State) (p : Fin 3), s.eth.ports.length = 3 → (∀ q : Fin 3, (ethPort s q).queues.length = 8) →
    let x := ethPort s p
    (∀ tc f, nextFrame s p = some (tc, f) →
      ∃ t, exec (.frameTransmit p) s = .next t ∧ headOf s p tc = some (tc, f) ∧ (∀ c : Nat, tc < c → c < 8 → headOf s p c = none) ∧
        nthD (ethPort t p).queues tc [] = (nthD x.queues tc []).drop 1 ∧ (ethPort t p).txCnt = x.txCnt + 1 ∧
        (∀ c : Nat, c ≠ tc → nthD (ethPort t p).queues c [] = nthD x.queues c []) ∧ (∀ q, q ≠ p → ethPort t q = ethPort s q) ∧
        t.out.head? = some (.eth (EthNo.port p) (stampOut s (p == 1) f.frame)) ∧ t.fab = s.fab ∧ t.pim = s.pim ∧ t.glb = s.glb ∧ t.txe = s.txe) ∧
    (nextFrame s p = none → exec (.frameTransmit p) s = .next s) ∧
    (∀ (f : EthFrame) (raw : List Byte),
      (x.up = false ∨ x.enable = false ∨ portHeld s (EthNo.port p) = true → ∀ ok, exec (.frameReceive p f raw ok) s = .next s) ∧
      (x.up = true → x.enable = true → portHeld s (EthNo.port p) = false →
        (∃ t, exec (.frameReceive p f raw false) s = .next t ∧ (ethPort t p).fcs = satInc x.fcs ∧ (ethPort t p).rxCnt = x.rxCnt ∧
          t = { s with eth := { s.eth with ports := t.eth.ports } } ∧ ∀ q, q ≠ p → ethPort t q = ethPort s q) ∧
        (∀ h data tr n c, p ≠ 2 → 64 ≤ f.bytes → f.bytes ≤ 1522 → f.rct = none → f.vid = none → f.pay = .pd h data tr → accepts s p f.dstIp = true →
          h.mtype = .pd → subsOf s.ci.act h.comId = [n] → subCfg s.ci.act n = some c → n < s.eth.subs.length →
          (pdHdrOk s n c f.srcIp h = false →
            ∃ t, exec (.frameReceive p f raw true) s = .next t ∧ (ethPort t p).rxCnt = x.rxCnt + 1 ∧ t.eth.hdrTrdp = satInc s.eth.hdrTrdp ∧
              (subOf t n).rejects = satInc (subOf s n).rejects ∧ t.pim = s.pim ∧ t.txe = s.txe) ∧
          (pdHdrOk s n c f.srcIp h = true → c.timed = true → c.sdt = false → inGroup s = false → s.txe.tags = [] → s.eth.timedHeld = [] →
            data.take 3 = [0x54, 0x50, 0x01] → s.tb.valid = true → bit (nthD data 3 0) 3 = true →
            let lt := BitVec.ofNat 32 (leNat ((data.drop 4).take 4).reverse)
            atOrBefore lt (ltAt s.tb.ttc) = false →
            ∃ t, exec (.frameReceive p f raw true) s = .next t ∧ t.eth.timedHeld.map (fun y => (y.1, y.2.writes)) = [(lt, pdWrites s c data qGood)] ∧
              (subOf t n).cnt = (subOf s n).cnt + 1 ∧ t.pim = s.pim ∧ t.txe = s.txe ∧ t.fab = s.fab) ∧
          (pdHdrOk s n c f.srcIp h = true → c.timed = true → data.take 3 ≠ [0x54, 0x50, 0x01] →
            ∃ t, exec (.frameReceive p f raw true) s = .next t ∧ t.eth.hdrTimed = satInc s.eth.hdrTimed ∧
              (subOf t n).rejects = satInc (subOf s n).rejects ∧ t.pim = s.pim ∧ t.txe = s.txe) ∧
          (pdHdrOk s n c f.srcIp h = true → c.timed = false → c.sdt = false → inGroup s = false → s.txe.tags = [] → s.txe.rx = [] →
            s.arb.freeze = 0 → s.arb.quar = 0 → s.eth.timedHeld = [] → 0 < quotaOf s .pd →
            let ws := (pdWrites s c data qGood).filter (ownsWrite s.ci.act .pd)
            txeRoom s (rxEnts s ws) = true →
            ∃ t, exec (.frameReceive p f raw true) s = .next t ∧ (ethPort t p).rxCnt = x.rxCnt + 1 ∧ (subOf t n).cnt = (subOf s n).cnt + 1 ∧
              t.pim.staging = s.pim.staging ++ rxEnts s ws ∧ (∀ m, m ≠ n → subOf t m = subOf s m) ∧
              (∃ y ∈ (subOf t n).senders, y.src = f.srcIp ∧ y.seq = h.seq) ∧ t.txe.tags = [] ∧ t.pim.ring = s.pim.ring ∧ t.fab = s.fab)) ∧
        (∀ lan q y0, p ≠ 2 → 64 ≤ f.bytes → f.bytes ≤ 1522 → f.rct = some (lan, q) → f.vid = none → bypasses s.ci.act f = false → inGroup s = false →
          s.eth.nodes.find? (fun y => y.mac == f.src) = some y0 → y0.seqs.contains q = true →
          ∃ t, exec (.frameReceive p f raw true) s = .next t ∧ t.eth.dups = satInc s.eth.dups ∧ t.pim = s.pim ∧ t.txe = s.txe ∧ t.eth.subs = s.eth.subs))) ∧
    (∀ speed : BitVec 2, x.up = false → x.enable = true → portHeld s (EthNo.port p) = false → speed = 2 → (portCfg s.ci.act p).mode ≠ 2 →
      ∃ t, exec (.linkUp p speed) s = .next t ∧ (ethPort t p).up = true ∧ (ethPort t p).speed = speed ∧ (ethPort t p).txOk = false ∧
        bit t.clk.ok (14 + p.val) = true ∧ t.fab = s.fab ∧ t.pim = s.pim ∧ t.glb = s.glb ∧ (∀ q, q ≠ p → ethPort t q = ethPort s q)) ∧
    (x.up = true → ∃ t, exec (.linkDown p) s = .next t ∧ (ethPort t p).up = false ∧ (ethPort t p).txOk = false ∧
      (ethPort t p).downCnt = satInc x.downCnt ∧ bit t.clk.ok (14 + p.val) = false ∧ ((∀ y ∈ s.eth.subs, y.held = none) → Records s t .warning (EthNo.port p).src (cFault 0)) ∧
      t.fab = s.fab ∧ t.glb.state = s.glb.state ∧ t.safe = s.safe ∧ (∀ q, q ≠ p → ethPort t q = ethPort s q)) ∧
    (x.up = false → exec (.linkDown p) s = .next s) ∧
    (∀ addr len pcp, x.hqTx.enable = true → x.hqTx.sqHead ≠ x.hqTx.sqTail → inGroup s = false → len ≤ 1514 → x.enable = true →
      portHeld s (EthNo.port p) = false →
      ∃ t f, exec (.hostFrameSubmit p addr len pcp) s = .next t ∧ (ethPort t p).hqTx.sqHead = x.hqTx.sqHead + 1 ∧
        nthD (ethPort t p).queues (pcp % 8) [] = nthD x.queues (pcp % 8) [] ++ [f] ∧ f.pub = none ∧
        f.frame.pay = .host (s.dram.readList addr.toNat len) ∧ t.fab = s.fab ∧ t.pim = s.pim ∧ t.txe = s.txe) ∧
    (∀ addr len pcp, x.hqTx.enable = true → x.hqTx.sqHead ≠ x.hqTx.sqTail → inGroup s = false → 1514 < len →
      ∃ t, exec (.hostFrameSubmit p addr len pcp) s = .next t ∧ (ethPort t p).hqTx.sqHead = x.hqTx.sqHead + 1 ∧
        (ethPort t p).queues = x.queues ∧ t = { s with eth := t.eth, dram := t.dram }) ∧
    (∀ addr len pcp, x.hqTx.enable = false ∨ x.hqTx.sqHead = x.hqTx.sqTail → exec (.hostFrameSubmit p addr len pcp) s = .next s) ∧
    (∀ (sub : Nat) (h : HeldCopy) (c : SubCfg), (subOf s sub).held = some h → subCfg s.ci.act sub = some c → sub < s.eth.subs.length →
      ∃ t, exec (.sdtSkewTimeout sub) s = .next t ∧ (subOf t sub).held = none ∧ (subOf t sub).consumed = some h.ssc ∧
        t.eth.single = satInc s.eth.single ∧ (∀ m, m ≠ sub → subOf t m = subOf s m) ∧ t.fab = s.fab) ∧
    (∀ sub, (subOf s sub).held = none → exec (.sdtSkewTimeout sub) s = .next s) ∧
    (mayTransmit s = true → ∃ t, exec .prpSupervision s = .next t ∧ t.eth.prpSeq = s.eth.prpSeq + 1 ∧ t.pim = s.pim ∧ t.fab = s.fab ∧
      ((ethPort s 0).enable = true → portHeld s .ecnA = false →
        (nthD (ethPort t 0).queues (portCfg s.ci.act 0).pcp []).getLast?.map (·.frame.pay) = some .prpSupervision ∨ 8 ≤ (portCfg s.ci.act 0).pcp)) ∧
    (mayTransmit s = false → ∃ t, exec .prpSupervision s = .next t ∧
      t = { passTo s (s.eth.supAt + 2000000000) with eth := { s.eth with supAt := t.tb.ttc } }) ∧
    (∀ mac, (s.eth.nodes.find? (fun y => y.mac == mac) = none → exec (.prpEntryAge mac) s = .next s) ∧
      ∀ n, s.eth.nodes.find? (fun y => y.mac == mac) = some n → ∃ t, exec (.prpEntryAge mac) s = .next t ∧
        (∀ y, y ∈ t.eth.nodes ↔ y ∈ s.eth.nodes ∧ y.mac ≠ mac) ∧ t = { passTo s (n.last + 400000000) with eth := { s.eth with nodes := t.eth.nodes } }) ∧
    (∀ sub src, ((subOf s sub).senders.find? (fun y => y.src == src) = none → exec (.pdCounterForget sub src) s = .next s) ∧
      ∀ c, sub < s.eth.subs.length → (subOf s sub).senders.find? (fun y => y.src == src) = some c →
        ∃ t, exec (.pdCounterForget sub src) s = .next t ∧
          (∀ y, y ∈ (subOf t sub).senders ↔ y ∈ (subOf s sub).senders ∧ y.src ≠ src) ∧ (∀ m, m ≠ sub → subOf t m = subOf s m) ∧
          t = { passTo s (c.last + BitVec.ofNat 64 (forgetNs s sub)) with eth := { s.eth with subs := t.eth.subs } }) ∧
    (∃ t, exec .arpRefresh s = .next t ∧ t.eth.arp = s.eth.arp ∧ t.eth.unresolved = s.eth.unresolved ∧ t.pim = s.pim ∧ t.fab = s.fab ∧
      t.eth.arpAt = t.tb.ttc ∧ (drives s = false → t = { passTo s (s.eth.arpAt + 60000000000) with eth := { s.eth with arpAt := t.tb.ttc } })) ∧
    (∀ src id, (s.eth.reasm.find? (fun y => y.src == src && y.session == id) = none → exec (.mdReassemblyTimeout src id) s = .next s) ∧
      ∀ r, s.eth.reasm.find? (fun y => y.src == src && y.session == id) = some r → ∃ t, exec (.mdReassemblyTimeout src id) s = .next t ∧
        (∀ y, y ∈ t.eth.reasm ↔ y ∈ s.eth.reasm ∧ ¬(y.src = src ∧ y.session = id)) ∧
        t = { passTo s (r.since + 2000000000) with eth := { s.eth with reasm := t.eth.reasm } })


/-- MVB and CAN: basic periods and polls as bus administrator, the module's own answers to master frames, received port data, CAN frames received,
sent, timed out, bus-off and recovery, and the CANopen SYNC. The model's choice, no rule of the manual: the code 0 of the FAULT records that the
manual does not number (log entry 60); ignored MVB frames and CAN counters (log entries 100 and 101). Completes: MVB_BASIC_PERIOD, MVB_POLL,
MVB_MASTER_FRAME, MVB_SLAVE_FRAME, CAN_FRAME_RECEIVE, CAN_TX_COMPLETE, CAN_TX_TIMEOUT, BUS_OFF, BUS_OFF_RECOVERY_DONE, CANOPEN_SYNC. -/
def Obligations.LegacyBuses : Prop :=
  ∀ s : State,
    (∀ j : Nat, portHeld s .mvb = false → periodBegins s j = true →
      ∃ t, exec (.mvbBasicPeriod j) s = .next t ∧ t.mvb.bp = basicNo s j ∧ t.mvb.poll = none ∧ t.mvb.bufs = s.mvb.bufs ∧ t.mvb.rxBufs = s.mvb.rxBufs ∧
        t.fab = s.fab ∧ t.pim = s.pim ∧ t.cyc = s.cyc ∧ (baNow s = false → t.mvb.due = []) ∧
        (baNow s = true → j ≠ 0 → t.mvb.due = duePolls s.ci.act (basicNo s j) ∧
          t = { passTo s (t0 s + BitVec.ofNat 64 (1000000 * j)) with mvb := t.mvb })) ∧
    (∀ j, portHeld s .mvb = true ∨ periodBegins s j = false → exec (.mvbBasicPeriod j) s = .next s) ∧
    (s.mvb.due = [] → exec .mvbPoll s = .next s) ∧
    (∀ f a rest, s.mvb.due = (f, a) :: rest → baNow s = true → f ≠ 15 →
      ∃ t, exec .mvbPoll s = .next t ∧ t.mvb.due = rest ∧ Out.mvbMaster f a ∈ newOut s t ∧ t.fab = s.fab ∧ t.cyc = s.cyc ∧ t.glb = s.glb ∧
        t.mvb.bufs = s.mvb.bufs ∧ t.mvb.rxBufs = s.mvb.rxBufs ∧
        (∀ c, mvbPortOf s.ci.act a = some (c, false) → t.mvb.poll = some { fcode := f, addr := a } ∧ t.pim = s.pim) ∧
        (∀ c d, mvbPortOf s.ci.act a = some (c, true) → mvbCur s.mvb.bufs a = some d → t.out.head? = some (.mvbSlave a d) ∧ t.mvb.poll = none)) ∧
    (∀ f a, portHeld s .mvb = false → f ≤ 4 → s.ci.act.time.syncRef ≠ 2 →
      ∃ t, exec (.mvbMasterFrame f a true true) s = .next t ∧ t.mvb.frames = s.mvb.frames + 1 ∧ t.fab = s.fab ∧ t.cyc = s.cyc ∧ t.glb = s.glb ∧
        t.mvb.bufs = s.mvb.bufs ∧ t.mvb.rxBufs = s.mvb.rxBufs ∧
        (∀ c, mvbPortOf s.ci.act a = some (c, false) → t.mvb.poll = some { fcode := f, addr := a } ∧ t.pim = s.pim) ∧
        (∀ c d, mvbPortOf s.ci.act a = some (c, true) → mayTransmit s = true → mvbCur s.mvb.bufs a = some d →
          t.out.head? = some (.mvbSlave a d) ∧ t.mvb.poll = none)) ∧
    (∀ f a, portHeld s .mvb = true → exec (.mvbMasterFrame f a true true) s = .next s) ∧
    (∀ (p : MvbPoll) (c : Nat) (data : List Byte), portHeld s .mvb = false → s.mvb.poll = some p → p.fcode ≠ 15 → mvbPortOf s.ci.act p.addr = some (c, false) →
      data.length = mvbSize c →
      ∃ t, exec (.mvbSlaveFrame data true true) s = .next t ∧ mvbCur t.mvb.rxBufs p.addr = some data ∧ t.mvb.poll = none ∧
        t.mvb.frames = s.mvb.frames + 1 ∧ (∀ a, a ≠ p.addr → mvbCur t.mvb.rxBufs a = mvbCur s.mvb.rxBufs a) ∧ t.mvb.bufs = s.mvb.bufs ∧
        t.fab = s.fab ∧ t.cyc = s.cyc ∧ t.pim.ring = s.pim.ring) ∧
    (∀ n : Nat, n < 2 →
      (∀ f : CanFrame, (canOf s n).enabled = false ∨ (canOf s n).busOff = true ∨ f.remote = true → exec (.canFrameReceive n f) s = .next s) ∧
      (∀ f : CanFrame, (canOf s n).enabled = true → (canOf s n).busOff = false → f.remote = false →
        ∃ t, exec (.canFrameReceive n f) s = .next t ∧ t.fab = s.fab ∧ t.cyc = s.cyc ∧ t.pim.ring = s.pim.ring ∧ (canOf t n).pend = (canOf s n).pend ∧
          ((∃ x ∈ canIds s.ci.act, canAccepts n f x.2 = true) → (canOf t n).rxCnt = (canOf s n).rxCnt + 1 ∧ (canOf t n).unmatched = (canOf s n).unmatched) ∧
          ((∀ x ∈ canIds s.ci.act, canAccepts n f x.2 = false) → s.txe.tags = [] →
            (canOf t n).unmatched = satInc (canOf s n).unmatched ∧ (canOf t n).rxCnt = (canOf s n).rxCnt ∧ t.pim = s.pim)) ∧
      (∀ (i : Nat) (p : CanPend), (canOf s n).pend[i]? = some p →
        ((canOf s n).busOff = false → (canOf s n).monitor = false → mayTransmit s = true → canWins (canOf s n) i = true →
          ∃ t, exec (.canTxComplete n i) s = .next t ∧ (canOf t n).txCnt = (canOf s n).txCnt + 1 ∧ (canOf t n).txErr = satDec (canOf s n).txErr ∧ (canOf t n).pend = (canOf s n).pend.eraseIdx i ∧
            Out.can (canPort n) p.frame ∈ newOut s t ∧ canOf t (1 - n) = canOf s (1 - n) ∧ t.fab = s.fab ∧ t.cyc = s.cyc ∧ t.glb = s.glb) ∧
        (∃ t, exec (.canTxTimeout n i) s = .next t ∧ ((canOf t n).txErr = 255 ∨ (canOf s n).txErr.toNat + 8 ≤ (canOf t n).txErr.toNat) ∧ ((∃ r, p.src = .record r) → (canOf t n).txFailed = satInc (canOf s n).txFailed) ∧
          (canOf t n).pend = (canOf s n).pend.eraseIdx i ∧ canOf t (1 - n) = canOf s (1 - n) ∧ t.fab = s.fab ∧ t.cyc = s.cyc ∧ t.glb = s.glb)) ∧
      (∀ i : Nat, (canOf s n).pend[i]? = none → exec (.canTxComplete n i) s = .next s ∧ exec (.canTxTimeout n i) s = .next s) ∧
      ((canOf s n).enabled = true → (canOf s n).busOff = false →
        ∃ t, exec (.busOff n) s = .next t ∧ (canOf t n).busOff = true ∧ (canOf t n).busOffCnt = satInc (canOf s n).busOffCnt ∧
          (canOf t n).pend = [] ∧ ((canOf s n).pend.length ≤ 1024 → Records s t .warning (canPort n).src (cFault 0)) ∧ canOf t (1 - n) = canOf s (1 - n) ∧ t.fab = s.fab ∧ t.cyc = s.cyc) ∧
      ((canOf s n).busOff = true → exec (.busOff n) s = .next s) ∧
      (∃ t, exec (.busOffRecoveryDone n) s = .next t ∧ (canOf t n).busOff = false ∧ (canOf t n).pend = (canOf s n).pend ∧
        t = { s with can0 := t.can0, can1 := t.can1 } ∧ canOf t (1 - n) = canOf s (1 - n)) ∧
      ((canPortOf s.ci.act n).map (·.1) = some 1 → s.glb.state = .run ∨ s.glb.state = .hold → (canOf s n).enabled = true →
        (canOf s n).monitor = false → mayTransmit s = true → (canOf s n).synced ≠ some s.cyc.mcc →
        ∃ t p, exec (.canopenSync n) s = .next t ∧ (canOf t n).pend = (canOf s n).pend ++ [p] ∧ p.src = .sync ∧ p.frame.ident = 0x080 ∧ p.frame.data = [] ∧
          canOf t (1 - n) = canOf s (1 - n) ∧ t = { passTo s (t0 s + 10000) with can0 := t.can0, can1 := t.can1 }) ∧
      ((canOf s n).synced = some s.cyc.mcc → exec (.canopenSync n) s = .next s) ∧
      (s.glb.state ≠ .run → s.glb.state ≠ .hold → exec (.canopenSync n) s = .next s))


/-! ## Transactions (R222 to R247, R297 to R299, R357) -/

/-- Each submission of a ring with an entry and a free tag is taken under a tag of its class for its unit; what its own rule refuses completes at once
without a tag; from a ring without an entry nothing is taken. The model's choice, no rule of the manual: the number a tag takes and what a refused
entry shows (log entries 14 and 81). Completes: SIG_WRITE, SIG_ATOMIC, DMA_COPY, MD_RECEIVE, MD_NOTIFY, MD_REQUEST, MD_REPLY, MD_REPLY_CONFIRM,
MD_CONFIRM, MVB_READ, MVB_WRITE, CAN_SEND, CAN_RECV, SEM_ACQ, SEM_REL, GL_READ, GL_WRITE, GL_SEM_ACQ, GL_SEM_REL, GL_DOORBELL. -/
def Obligations.Submissions : Prop :=
  ∀ (s : State) (q : SubReq), s.txe.tags = [] →
    (Entry s 1 → 0 < quotaOf s .dma → 0 < quotaOf s .bridge → 0 < quotaOf s .group → (∀ x ∈ s.gw.sems, x.revoked = false) →
      (∀ (sid : Sid) (r : SigRec) (v w : Word) (fn : AtomFn), sigRec s.ci.act sid = some r → r.writer = 0x50 → passive s = false →
        Takes s (exec (.sigWrite q sid v) s) 1 .runtime .dma q (.sigWrite sid v) ∧
        Takes s (exec (.sigAtomic q sid fn v w) s) 1 .runtime .dma q (.atomic sid fn v w)) ∧
      (∀ (sid : Sid) (r : SigRec) (v w : Word) (fn : AtomFn), sigRec s.ci.act sid = some r → r.writer ≠ 0x50 → engine2Writer s r = false →
        Refuses s (exec (.sigWrite q sid v) s) 1 ∧ Refuses s (exec (.sigAtomic q sid fn v w) s) 1) ∧
      (∀ (ver : Mcc) (a : Word) (n : Nat), dmaStarts s = true → Takes s (exec (.dmaCopy q ver a n) s) 1 .runtime .dma q (.dma ver a n)) ∧
      (∀ (ver : Mcc) (a : Word) (n : Nat), dmaStarts s = false → q.wait = false → Refuses s (exec (.dmaCopy q ver a n) s) 1) ∧
      (∀ (port len sem : Nat) (a : Word), (mvbPortOf s.ci.act port).isSome = true →
        Takes s (exec (.mvbRead q port len a sem) s) 1 .mvb .bridge q (.mvbRead port a len sem)) ∧
      (∀ (port len sem : Nat) (a : Word), mvbPortOf s.ci.act port = none → Refuses s (exec (.mvbRead q port len a sem) s) 1) ∧
      (∀ (port len sem c : Nat) (a : Word), mvbPortOf s.ci.act port = some (c, true) → (∀ e ∈ s.ci.act.gwmap, ¬(e.bus = 0 ∧ e.frame = port)) →
        drives s = true → bothFault s.mvb = false →
        Takes s (exec (.mvbWrite q port len a sem) s) 1 .mvb .bridge q (.mvbWrite port (s.dram.readList a.toNat len) sem)) ∧
      (∀ (port len sem c : Nat) (a : Word), mvbPortOf s.ci.act port = some (c, false) → Refuses s (exec (.mvbWrite q port len a sem) s) 1) ∧
      (∀ (n len sem : Nat) (id : Reg32) (fd brs : Bool) (a : Word), drives s = true → canUsed s.ci.act n id = false →
        Takes s (exec (.canSend q n id len fd brs a sem) s) 1 (canPort n).unit .bridge q (.canSend id (s.dram.readList a.toNat len) fd brs sem)) ∧
      (∀ (n len sem : Nat) (id : Reg32) (fd brs : Bool) (a : Word), drives s = false ∨ canUsed s.ci.act n id = true → Refuses s (exec (.canSend q n id len fd brs a sem) s) 1) ∧
      (∀ (n len us sem : Nat) (id : Reg32) (a : Word), Takes s (exec (.canRecv q n id len us ⟨a, sem⟩) s) 1 (canPort n).unit .bridge q (.canRecv id a len sem)) ∧
      (∀ u sem lo hi : Nat, Takes s (exec (.semAcq q u sem lo hi) s) 1 .gw .bridge q (.gwSem u sem lo hi)) ∧
      (∀ sem : Nat, Takes s (exec (.semRel q sem) s) 1 .gw .bridge q (.gwSemRel sem)) ∧
      (∀ (l : GLink) (off len sem : Nat) (a : Word), 8 ≤ len → len ≤ 1024 → len % 8 = 0 →
        Takes s (exec (.glRead q l off len a sem) s) 1 l.peer .group q (.glRead off len a sem) ∧
        Takes s (exec (.glWrite q l off len a sem) s) 1 l.peer .group q (.glWrite off (s.dram.readList a.toNat len) sem)) ∧
      (∀ (l : GLink) (off len sem : Nat) (a : Word), len < 8 ∨ 1024 < len →
        Refuses s (exec (.glRead q l off len a sem) s) 1 ∧ Refuses s (exec (.glWrite q l off len a sem) s) 1) ∧
      (∀ (l : GLink) (sem lo hi : Nat), Takes s (exec (.glSemAcq q l sem lo hi) s) 1 l.peer .group q (.glSem sem lo hi) ∧
        Takes s (exec (.glSemRel q l sem) s) 1 l.peer .group q (.glSemRel sem)) ∧
      (∀ (l : GLink) (v : Reg32), v ≠ 0 → Takes s (exec (.glDoorbell q l v) s) 1 l.peer .group q (.glDoorbell v)) ∧
      (∀ l : GLink, Refuses s (exec (.glDoorbell q l 0) s) 1)) ∧
    (∀ (ses len : Nat) (a : Word) (m : Nat × Nat × Nat × Nat), mdSession s.ci.act ses = some m → Entry s 0 → 0 < quotaOf s .md → a.toNat % 64 = 0 →
      Takes s (exec (.mdReceive q ses a len) s) 0 .ethA .md q (.mdReceive ses a len) ∧
      (passive s = false → len ≤ m.2.2.1 → ∀ (dst : Ip4) (x : Nat) (tok : Reg32),
        Takes s (exec (.mdNotify q ses a len dst) s) 0 .ethA .md q (.mdSend ses len) ∧
        Takes s (exec (.mdRequest q ses a len dst x) s) 0 .ethA .md q (.mdRequest ses x 0 (descId s a) len) ∧
        ((∃ k ∈ s.eth.tokens, k.token = tok ∧ k.session = ses) →
          Takes s (exec (.mdReply q ses a len tok) s) 0 .ethA .md q (.mdSend ses len) ∧
          Takes s (exec (.mdReplyConfirm q ses a len tok) s) 0 .ethA .md q (.mdSend ses len) ∧
          Takes s (exec (.mdConfirm q ses a len tok) s) 0 .ethA .md q (.mdSend ses len)) ∧
        ((∀ k ∈ s.eth.tokens, ¬(k.token = tok ∧ k.session = ses)) →
          Refuses s (exec (.mdReply q ses a len tok) s) 0 ∧ Refuses s (exec (.mdReplyConfirm q ses a len tok) s) 0 ∧
          Refuses s (exec (.mdConfirm q ses a len tok) s) 0)) ∧
      (passive s = true → ∀ (dst : Ip4) (x : Nat), Refuses s (exec (.mdNotify q ses a len dst) s) 0 ∧ Refuses s (exec (.mdRequest q ses a len dst x) s) 0)) ∧
    (∀ (ses len : Nat) (a : Word) (dst : Ip4), Entry s 0 → a.toNat % 64 ≠ 0 →
      Refuses s (exec (.mdReceive q ses a len) s) 0 ∧ Refuses s (exec (.mdNotify q ses a len dst) s) 0) ∧
    ((nthD s.txe.rings 1 {}).enable = false → ∀ (sid : Sid) (v : Word) (u sem : Nat),
      exec (.sigWrite q sid v) s = .next s ∧ exec (.semAcq q u sem 0 0) s = .next s ∧ exec (.mvbRead q u 8 v sem) s = .next s ∧
      exec (.glDoorbell q .left 1) s = .next s)

/-- Tags in flight: a completed signal write stands in the staging image for its target boundary, a copy stands in DRAM, a tag that times out or fails
leaves the tags in flight; a frozen receive buffer or deferred write goes on as soon as it may; a cut-off hold is latched, counted and recorded; a
revoked semaphore is free and remembered. The model's choice, no rule of the manual: targets of deferred writes and CAS without a status (log entries
84 and 85). Completes: SEMAPHORE_REVOKE, POSTED_WRITE_FAILURE, TRANSACTION_COMPLETE, TAG_TIMEOUT, RETRY_REISSUE, RECEIVE_BUFFER_DEQUEUE,
STAGING_ENTRY_FREE, HOLD_CUTOFF, QUARANTINE_END. -/
def Obligations.TagsInFlight : Prop :=
  ∀ s : State,
    (∀ tag : BitVec 18, tagOf s tag = none → exec (.transactionComplete tag) s = .next s ∧ exec (.tagTimeout tag) s = .next s ∧
      exec (.retryReissue tag) s = .next s ∧ exec (.postedWriteFailure tag .timeout) s = .next s) ∧
    (∀ e ∈ s.txe.tags, tagOf s e.tag = some e →
      (∀ sid v r, e.req = .sigWrite sid v → sigRec s.ci.act sid = some r → engine2Writer s r = false → s.arb.freeze = 0 → s.arb.quar = 0 →
        e.posted = false → olderWrite s e = false → e.cls ≠ .dma ∨ dmaPaused s e = false → txeRoom s [stgNow s r v qGood false .txe] = true →
        ∃ t, exec (.transactionComplete e.tag) s = .next t ∧ t.pim.staging = s.pim.staging ++ [stgNow s r v qGood false .txe] ∧
          (∀ x ∈ t.txe.tags, x.tag ≠ e.tag) ∧ t.fab = s.fab ∧ t.cyc = s.cyc ∧ t.pim.ring = s.pim.ring ∧ t.safe = s.safe) ∧
      (∀ ver a n x k q, e.req = .dma ver a n → e.again = false → dmaPaused s e = false → s.arb.freeze = 0 → e.ring = some (k, q) →
        e.posted = false → s.pim.ring.find? (fun x => x.ver == ver) = some x → inDram a n = true → s.dram.wf = true →
        s.arb.quar = 0 → x.eccWords = [] → s.pim.softWords = [] →
        (nthD s.txe.rings k {}).cqAddr.toNat + 32 ≤ a.toNat ∨ a.toNat + n ≤ (nthD s.txe.rings k {}).cqAddr.toNat →
        ∃ t, exec (.transactionComplete e.tag) s = .next t ∧ t.dram.readList a.toNat n = pubBytes x n ∧
          (∀ y, y < a.toNat ∨ a.toNat + n ≤ y → y < (nthD s.txe.rings k {}).cqAddr.toNat ∨ (nthD s.txe.rings k {}).cqAddr.toNat + 32 ≤ y →
            t.dram.read y = s.dram.read y) ∧ (∀ x ∈ t.txe.tags, x.tag ≠ e.tag) ∧ t.fab = s.fab ∧ t.cyc = s.cyc ∧ t.pim = s.pim) ∧
      (∀ d, e.due = some d → ∃ t, exec (.tagTimeout e.tag) s = .next t ∧ (∀ x ∈ t.txe.tags, x.tag ≠ e.tag ∧ x ∈ s.txe.tags) ∧
        t.txe.timeout = satInc s.txe.timeout ∧ (∃ y ∈ t.txe.cool, y.1 = e.tag.toNat % 1024) ∧ t.fab = s.fab ∧ t.cyc = s.cyc ∧ t.pim.staging = s.pim.staging) ∧
      (e.again = false → exec (.retryReissue e.tag) s = .next s) ∧
      (∀ l : GLink, e.again = true → e.unit = l.peer → ∃ t, exec (.retryReissue e.tag) s = .next t ∧
        { e with again := false } ∈ t.txe.tags ∧ (∀ x ∈ t.txe.tags, x.tag = e.tag → x.again = false) ∧ t.fab = s.fab ∧ t.cyc = s.cyc ∧ t.pim = s.pim) ∧
      (∀ st : Status, e.posted = true → st = .remoteError ∨ st = .timeout ∨ st = .unitReset →
        ∃ t, exec (.postedWriteFailure e.tag st) s = .next t ∧ (∀ x ∈ t.txe.tags, x.tag ≠ e.tag) ∧
          (∃ y, t.txe.log.head? = some y ∧ y.tag = e.tag ∧ y.status = st ∧ y.unit = e.unit ∧ y.failMcc = s.cyc.mcc ∧ y.issueMcc = e.issueMcc) ∧
          Records s t .warning (unitSrc e.unit) (cFailed st) ∧ t.fab = s.fab ∧ t.cyc = s.cyc ∧ t.pim.staging = s.pim.staging) ∧
      (e.posted = false → exec (.postedWriteFailure e.tag .timeout) s = .next s)) ∧
    (∀ (p : Port) (x : RxWait), s.txe.rx.find? (fun x => x.port == p) = some x → tagFree s x.cls = true →
      ∃ t, exec (.receiveBufferDequeue p) s = .next t ∧ t.txe.rx = dropFirst (fun x => x.port == p) s.txe.rx ∧ t.txe.allocs = s.txe.allocs + 1 ∧
        (canArrive s x = true → rxFrozen s x = false → rxAhead s.txe.tags x.port = false → t.pim.staging = s.pim.staging ++ rxEnts s (ownPart s x).writes) ∧
        (rxFrozen s x = true ∨ canArrive s x = false ∨ rxAhead s.txe.tags x.port = true → t.pim.staging = s.pim.staging) ∧
        (rxFrozen s x = true → t.txe.tags = s.txe.tags) ∧ t.fab = s.fab ∧ t.cyc = s.cyc ∧ t.pim.ring = s.pim.ring) ∧
    (∀ p : Port, s.txe.rx.find? (fun x => x.port == p) = none → exec (.receiveBufferDequeue p) s = .next s) ∧
    (∀ e x, nextArrival s = some (e, x) →
      ∃ t, exec .stagingEntryFree s = .next t ∧ (rxFrozen s x = false → t.pim.staging = s.pim.staging ++ rxEnts s (ownPart s x).writes) ∧
        (rxFrozen s x = true → t.pim.staging = s.pim.staging) ∧
        t.txe.tags = s.txe.tags.filter (fun y => y.tag != e.tag) ∧ t.fab = s.fab ∧ t.cyc = s.cyc) ∧
    (nextArrival s = none → (∀ e ∈ s.txe.tags, e.again = false ∨ e.cls ≠ .dma) → exec .stagingEntryFree s = .next s) ∧
    (∀ (b : Fin 16) (e : TagEnt) (sid : Sid) (fn : AtomFn) (x y : Word), tagOf s e.tag = some e → e.req = .atomic sid fn x y → e.posted = false →
      ∃ t, exec (.holdCutoff b e.tag) s = .next t ∧ bit t.arb.quar b.val = true ∧ bit t.arb.violBanks b.val = true ∧
        t.arb.violCnt = satInc s.arb.violCnt ∧ (∀ z ∈ t.txe.tags, z.tag ≠ e.tag) ∧ Records s t .warning srcPima (cFailed .holdViolation) ∧
        t.pim = s.pim ∧ t.fab = s.fab ∧ t.cyc = s.cyc) ∧
    (∀ b : Fin 16, ∃ t, exec (.quarantineEnd b) s = .next t ∧ bit t.arb.quar b.val = false ∧
      (∀ c : Fin 16, c ≠ b → bit t.arb.quar c.val = bit s.arb.quar c.val) ∧ t = { s with arb := { s.arb with quar := t.arb.quar } }) ∧
    (∀ sem : Nat, sem < s.gw.sems.length → (nthD s.gw.sems sem {}).held = true →
      ∃ t, exec (.semaphoreRevoke none sem) s = .next t ∧ (nthD t.gw.sems sem {}).held = false ∧ (nthD t.gw.sems sem {}).revoked = true ∧
        t.gw.semTo = satInc s.gw.semTo ∧ (∀ i, i ≠ sem → nthD t.gw.sems i {} = nthD s.gw.sems i {}) ∧
        Records s t .warning srcGw (cFailed .timeout) ∧ t = { s with gw := t.gw, evr := t.evr }) ∧
    (∀ (l : GLink) (sem : Nat), sem < (s.grp.br l).sems.length → (nthD (s.grp.br l).sems sem {}).held = true →
      ∃ t, exec (.semaphoreRevoke (some l) sem) s = .next t ∧ (nthD (t.grp.br l).sems sem {}).held = false ∧
        (nthD (t.grp.br l).sems sem {}).revoked = true ∧ (t.grp.br l).semTo = satInc (s.grp.br l).semTo ∧ t.grp.br l.other = s.grp.br l.other ∧
        Records s t .warning l.port.src (cFailed .timeout) ∧ t = { s with grp := t.grp, evr := t.evr }) ∧
    (∀ (l : GLink) (sem : Nat), (nthD (s.grp.br l).sems sem {}).held = false → exec (.semaphoreRevoke (some l) sem) s = .next s)


/-! ## Register accesses of the cores, monitors, recorder (R7, R472 to R493, R503 to R506) -/

/-- A held cluster's access gets a bus error and has no other effect; one made while the cores stand still for a step change of CLK_AC or in a stall
by the governor waits in the HOST port FIFO, behind those that wait there (R58, R449). The model's choice, no rule of the manual: that such accesses
come as commands meanwhile (log entry 160). -/
def Obligations.HeldClusterAccess : Prop :=
  ∀ (s : State) (k : Fin 8) (a v : Reg32) (n : Nat) (i : Fin 13) (j : Fin 8) (m : Fin 16) (l : GLink) (u : TileNo) (tk : Fin 32) (lo : BitVec 16) (w : Word)
    (b : Bool) (q : Reg32),
    let e (c : Instr) : Prop := (s.rst.clusterHeld = true → exec c s = .next { s with out := Out.busError k.val :: s.out }) ∧
      (s.rst.clusterHeld = false → coresStopped s = true → exec c s = .next { s with host := s.host ++ [c] })
    e (.splitLoRead k a) ∧ e (.snapshotRead k n) ∧ e (.taskDone k tk lo) ∧ e (.glbTaskRelRead k) ∧
    e (.glbEvtStatRead k m) ∧ e (.fabTileMaxRead k u) ∧ e (.pimaStgHwmRead k) ∧ e (.pimaSnapStatRead k j) ∧
    e (.pimaWaitRead k m) ∧ e (.safeRespRead k) ∧ e (.pgvMeasRead k) ∧ e (.glxDbRead k l) ∧
    e (.registerWrite k a v b) ∧ e (.tkFieldWrite k a v) ∧ e (.protectedAccess k w b) ∧
    e (.pmuEvselWrite k i j v) ∧ e (.counterClear k i) ∧ e (.dumpArm k v) ∧ e (.evrReadRequest k q)

/-- The loads with an effect: the value loaded, the field cleared, restarted or latched, and nothing else. The model's choice, no rule of the manual:
where HWM and RC fields restart (log entry 151) and the LO latch (log entry 34). Completes: SNAPSHOT_READ, SPLIT_LO_READ, GLB_TASK_REL_READ,
GLB_EVT_STAT_READ, FAB_TILE_MAX_READ, PIMA_STG_HWM_READ, PIMA_SNAP_STAT_READ, PIMA_WAIT_READ, SAFE_RESP_READ, PGV_MEAS_READ, GLX_DB_READ. -/
def Obligations.RegisterReads : Prop :=
  ∀ (s : State) (k : Fin 8), s.rst.clusterHeld = false → coresStopped s = false →
    (∀ (a : Reg32) (v : Word), splitVal s a.toNat = some v →
      ∃ t, exec (.splitLoRead k a) s = .next t ∧ t.out = .loaded k.val (v.extractLsb' 0 32) :: s.out ∧
        (k.val, a.toNat, v.extractLsb' 32 32) ∈ t.latches ∧ (∀ x ∈ t.latches, x.1 = k.val → x.2.1 = a.toNat → x.2.2 = v.extractLsb' 32 32) ∧
        (∀ x, (x.1 ≠ k.val ∨ x.2.1 ≠ a.toNat) → (x ∈ t.latches ↔ x ∈ s.latches)) ∧ t = { s with latches := t.latches, out := t.out }) ∧
    (∃ t, exec (.glbTaskRelRead k) s = .next t ∧ t.glb = { s.glb with taskRel := 0 } ∧ t.out = .loaded k.val s.glb.taskRel :: s.out ∧ t = { s with glb := t.glb, out := t.out }) ∧
    (∀ n : Fin 16, n.val < s.glb.evts.length →
      ∃ t, exec (.glbEvtStatRead k n) s = .next t ∧ t.out = .loaded k.val (lastLoad t) :: s.out ∧ (lastLoad t).extractLsb' 16 16 = (nthD s.glb.evts n.val {}).drops ∧
        (lastLoad t).extractLsb' 8 7 = (nthD s.glb.evts n.val {}).highWater ∧ (nthD t.glb.evts n.val {}).queue = (nthD s.glb.evts n.val {}).queue ∧
        (nthD t.glb.evts n.val {}).highWater = 0 ∧
        (∀ m, m ≠ n.val → nthD t.glb.evts m {} = nthD s.glb.evts m {}) ∧ t = { s with glb := { s.glb with evts := t.glb.evts }, out := t.out }) ∧
    (∀ n : TileNo, FabOk s.fab → ∃ t, exec (.fabTileMaxRead k n) s = .next t ∧ t.out = .loaded k.val (s.fab.tile n).maxCyc :: s.out ∧
      t.fab.tile n = { s.fab.tile n with maxCyc := 0 } ∧ (∀ m, m ≠ n → t.fab.tile m = s.fab.tile m) ∧ t = { s with fab := { s.fab with tiles := t.fab.tiles }, out := t.out }) ∧
    (∃ t, exec (.pimaStgHwmRead k) s = .next t ∧ t.out = .loaded k.val (s.pim.hwm.setWidth 32) :: s.out ∧
      t.pim.hwm = 0 ∧ t = { s with pim := { s.pim with hwm := t.pim.hwm }, out := t.out }) ∧
    (∀ n : Fin 8, s.pim.snaps.length = 8 → ∃ t, exec (.pimaSnapStatRead k n) s = .next t ∧ t.out = .loaded k.val (lastLoad t) :: s.out ∧
      bit (lastLoad t) 0 = (nthD s.pim.snaps n.val {}).expired ∧ bit (lastLoad t) 1 = (nthD s.pim.snaps n.val {}).notYet ∧ bit (lastLoad t) 2 = (nthD s.pim.snaps n.val {}).ecc ∧
      nthD t.pim.snaps n.val {} = { nthD s.pim.snaps n.val {} with expired := false, notYet := false, ecc := false } ∧
      (∀ m, m ≠ n.val → nthD t.pim.snaps m {} = nthD s.pim.snaps m {}) ∧ t = { s with pim := { s.pim with snaps := t.pim.snaps }, out := t.out }) ∧
    (∀ b : Fin 16, s.arb.waits.length = 16 → ∃ t, exec (.pimaWaitRead k b) s = .next t ∧
      t.out = .loaded k.val ((nthD s.arb.waits b.val (0, 0)).1 ++ (nthD s.arb.waits b.val (0, 0)).2) :: s.out ∧ nthD t.arb.waits b.val (0, 0) = (0, 0) ∧
      (∀ m, m ≠ b.val → nthD t.arb.waits m (0, 0) = nthD s.arb.waits m (0, 0)) ∧ t = { s with arb := { s.arb with waits := t.arb.waits }, out := t.out }) ∧
    exec (.safeRespRead k) s = .next { s with safe := { s.safe with maxUs := 0 }, out := .loaded k.val (s.safe.lastUs ++ s.safe.maxUs) :: s.out } ∧
    (∃ t, exec (.pgvMeasRead k) s = .next t ∧ t.out = .loaded k.val (lastLoad t) :: s.out ∧ (lastLoad t).extractLsb' 16 9 = s.pgv.peak ∧ (lastLoad t).extractLsb' 0 9 = s.pgv.input ∧
      t.pgv = { s.pgv with peak := 0 } ∧ t = { s with pgv := t.pgv, out := t.out }) ∧
    (∀ l : GLink, ∃ t, exec (.glxDbRead k l) s = .next t ∧ t.out = .loaded k.val ((s.grp.br l).bells.headD 0) :: s.out ∧
      t.grp.br l = { s.grp.br l with bells := (s.grp.br l).bells.drop 1 } ∧ t.grp.br l.other = s.grp.br l.other ∧ t = { s with grp := t.grp, out := t.out }) ∧
    (∀ off : Nat, off < 0x800000 → s.arb.freeze = 0 → s.pim.snaps.length = 8 → s.pim.softWords = [] →
      badOf s.pim (nthD s.pim.snaps k.val {}).ver = [] →
      ∃ t, exec (.snapshotRead k off) s = .next t ∧ t.out = .loaded64 k.val (lastLoad64 t) :: s.out ∧
        (∀ m, m ≠ k.val → nthD t.pim.snaps m {} = nthD s.pim.snaps m {}) ∧ t.pim = { s.pim with snaps := t.pim.snaps } ∧
        (∀ x ∈ s.pim.ring, (nthD s.pim.snaps k.val {}).expired = false → s.pim.ring.find? (fun y => y.ver == (nthD s.pim.snaps k.val {}).ver) = some x →
          lastLoad64 t = laneOf x off ∧ (nthD t.pim.snaps k.val {}).expired = false) ∧
        ((nthD s.pim.snaps k.val {}).expired = true → lastLoad64 t = 0 ∧ (nthD t.pim.snaps k.val {}).expired = true) ∧ t.fab = s.fab ∧ t.cyc = s.cyc ∧ t.glb = s.glb)

/-- The stores: a write to a TK field is ignored, counted and recorded; a load at an assigned address answers what the register shows, or the HI half
that this core's load of the LO half captured; an access outside the map is a bus error with a SECURITY record; an access of another size or from user
mode a bus error alone; a W1C latch loses the bits written; TASK_DONE completes the instance it names. The model's choice, no rule of the manual: a
store of reserved or equal values (log entries 31 and 32). Completes: TASK_DONE, TK_FIELD_WRITE, PROTECTED_ACCESS, REGISTER_WRITE. -/
def Obligations.RegisterStores : Prop :=
  ∀ (s : State) (k : Fin 8), s.rst.clusterHeld = false → coresStopped s = false →
    (∀ a v : Reg32, tkMask a.toNat ≠ 0 → tkViolated s a.toNat v = false →
      ∃ t, exec (.tkFieldWrite k a v) s = .next t ∧ t.tk = { s.tk with writeViol := satInc s.tk.writeViol } ∧
        Records s t .security srcTkmb (cRefused .refusedPolicy) ∧ t = { s with tk := t.tk, evr := t.evr }) ∧
    (∀ a v : Reg32, tkMask a.toNat ≠ 0 →
      ∃ t, exec (.tkFieldWrite k a v) s = .next t ∧ t.tk.writeViol = satInc s.tk.writeViol ∧ Records s t .security srcTkmb (cRefused .refusedPolicy) ∧
        fieldGet t a.toNat &&& tkMask a.toNat = fieldGet s a.toNat &&& tkMask a.toNat ∧ t.pim = s.pim ∧ t.cyc = s.cyc ∧ t.ci = s.ci) ∧
    (∀ (a : Word) (b : Bool), inSnapWindow a.toNat = false → ¬(0x100000000 ≤ a.toNat ∧ a.toNat < 0x500000000) →
      ¬(0xF0000000 ≤ a.toNat ∧ a.toNat < 0x100000000 ∧ assigned a.toNat = true) →
      ∃ t, exec (.protectedAccess k a b) s = .next t ∧ t.out = .busError k.val :: s.out ∧ t.tk = { s.tk with writeViol := satInc s.tk.writeViol } ∧
        Records s t .security srcTkmb (cRefused .refusedPolicy) ∧ t = { s with tk := t.tk, evr := t.evr, out := t.out }) ∧
    (∀ (a : Word) (b : Bool), inSnapWindow a.toNat = false → 0x100000000 ≤ a.toNat → a.toNat < 0x500000000 → exec (.protectedAccess k a b) s = .next s) ∧
    (∀ a : Word, inSnapWindow a.toNat = false → 0xF0000000 ≤ a.toNat → a.toNat < 0x100000000 → assigned a.toNat = true →
      exec (.protectedAccess k a true) s = .next s ∧
      (a.toNat % 4 ≠ 0 → exec (.protectedAccess k a false) s = .next { s with out := .busError k.val :: s.out }) ∧
      (a.toNat % 4 = 0 → loadActs a.toNat = false →
        ((∀ x ∈ s.latches, ¬(x.1 = k.val ∧ x.2.1 + 4 = a.toNat)) →
          exec (.protectedAccess k a false) s = .next { s with out := .loaded k.val (regView s a.toNat) :: s.out }) ∧
        (∀ x, s.latches.find? (fun y => y.1 == k.val && y.2.1 + 4 == a.toNat) = some x → ∃ t, exec (.protectedAccess k a false) s = .next t ∧
          t.out = .loaded k.val x.2.2 :: s.out ∧ t = { s with latches := s.latches.filter (fun y => y.1 != k.val || y.2.1 + 4 != a.toNat), out := t.out }))) ∧
    (∀ (a : Word), inSnapWindow a.toNat = true →
      exec (.protectedAccess k a true) s = .next { s with out := .busError k.val :: s.out } ∧ exec (.protectedAccess k a false) s = .next s) ∧
    (∀ (a v : Reg32), assigned a.toNat = true → inSnapWindow a.toNat = false →
      exec (.registerWrite k a v false) s = .next { s with out := .busError k.val :: s.out } ∧
      (a.toNat % 4 ≠ 0 → exec (.registerWrite k a v true) s = .next { s with out := .busError k.val :: s.out })) ∧
    (∀ (a v : Reg32), assigned a.toNat = false → inSnapWindow a.toNat = false →
      ∃ t, exec (.registerWrite k a v true) s = .next t ∧ t.out = .busError k.val :: s.out ∧ Records s t .security srcTkmb (cRefused .refusedPolicy) ∧
        t = { s with tk := t.tk, evr := t.evr, out := t.out }) ∧
    (∀ v : Reg32, exec (.registerWrite k 0xF0000220 v true) s = .next { s with glb := { s.glb with ovrLatch := s.glb.ovrLatch &&& ~~~v } }) ∧
    (∀ v : Reg32, exec (.registerWrite k 0xF2000010 v true) s =
      .next { s with arb := { s.arb with violBanks := s.arb.violBanks &&& ~~~v.extractLsb' 0 16 } }) ∧
    (∀ v : Reg32, 3 ≤ s.txe.rings.length → exec (.registerWrite k 0xF210012C v true) s =
      .next (modRing s 1 (fun r => { r with sqTail := v.extractLsb' 0 16 }))) ∧
    (∀ (n : Fin 32) (lo : BitVec 16) (r : TaskRec) (i : Instance), taskRec s.ci.act n.val = some r → r.engine = 2 → r.id = n.val → i ∈ s.glb.inst →
      i.task = n.val → i.rel.setWidth 16 = lo → (∀ j ∈ s.glb.inst, j.task = n.val → j.rel.setWidth 16 = lo → j = i) →
      ∃ t, exec (.taskDone k n lo) s = .next t ∧ { i with complete := true } ∈ t.glb.inst ∧ (∀ j ∈ s.glb.inst, j ≠ i → j ∈ t.glb.inst) ∧
        t = { s with glb := { s.glb with inst := t.glb.inst } }) ∧
    (∀ (n : Fin 32) (lo : BitVec 16), (∀ i ∈ s.glb.inst, ¬(i.task = n.val ∧ i.rel.setWidth 16 = lo)) → exec (.taskDone k n lo) s = .next s)

/-- The performance monitors: an event select in force at once with CONFIG_GEN advanced, an undefined one stored as event 0 with BADSEL; clearing the
counters; a wrap of a counter that is not chained; arming and disarming the dumps; a dump record in its ring. The model's choice, no rule of the
manual: dump timing and PMU_SPC (log entries 22 and 146). Completes: PMU_EVSEL_WRITE, COUNTER_CLEAR, DUMP_ARM, PMU_COUNTER_WRAP, DUMP_RECORD_WRITE. -/
def Obligations.Monitors : Prop :=
  ∀ (s : State) (k : Fin 8) (i : Fin 13) (n : Fin 8), s.pmu.inst.length = 13 → (∀ p ∈ s.pmu.inst, p.evsel.length = 8 ∧ p.cnt.length = 8) →
    let p := nthD s.pmu.inst i.val {}
    (s.rst.clusterHeld = false → coresStopped s = false →
      (∀ v : Reg32, ∃ t, exec (.pmuEvselWrite k i n v) s = .next t ∧ (nthD t.pmu.inst i.val {}).gen = p.gen + 1 ∧
        (nthD t.pmu.inst i.val {}).cnt = p.cnt ∧
        (pmuDefines i.val (v.extractLsb' 0 10 : BitVec 10).toNat = true → bit v 11 = false →
          (nthD (nthD t.pmu.inst i.val {}).evsel n.val 0).extractLsb' 0 10 = v.extractLsb' 0 10 ∧ (nthD t.pmu.inst i.val {}).badsel = p.badsel) ∧
        (pmuDefines i.val (v.extractLsb' 0 10 : BitVec 10).toNat = false →
          (nthD (nthD t.pmu.inst i.val {}).evsel n.val 0).extractLsb' 0 12 = 0 ∧ (nthD t.pmu.inst i.val {}).badsel = true) ∧
        (∀ m, m ≠ n.val → nthD (nthD t.pmu.inst i.val {}).evsel m 0 = nthD p.evsel m 0) ∧
        (∀ j, j ≠ i.val → nthD t.pmu.inst j {} = nthD s.pmu.inst j {}) ∧ t = { s with pmu := { s.pmu with inst := t.pmu.inst } }) ∧
      (∃ t, exec (.counterClear k i) s = .next t ∧ nthD t.pmu.inst i.val {} = { p with cnt := List.replicate 8 0 } ∧
        (∀ j, j ≠ i.val → nthD t.pmu.inst j {} = nthD s.pmu.inst j {}) ∧ t = { s with pmu := { s.pmu with inst := t.pmu.inst } }) ∧
      (∀ v : Reg32, bit v 31 = false → ∃ t, exec (.dumpArm k v) s = .next t ∧ t.pmu.arm = false ∧ t.pmu.next = none ∧
        (s.pmu.arm = false → t.pmu.interval = v.extractLsb' 0 16) ∧ t.pmu.inst = s.pmu.inst ∧ t = { s with pmu := t.pmu }) ∧
      (∀ v : Reg32, bit v 31 = true → s.pmu.arm = false → 4 ≤ s.pmu.size.toNat → s.pmu.size.toNat ≤ 16 →
        inDram s.pmu.base (dumpLen s.pmu * 2 ^ s.pmu.size.toNat) = true →
        ∃ t, exec (.dumpArm k v) s = .next t ∧ t.pmu.arm = true ∧ t.pmu.seq = 0 ∧ t.pmu.next = some (nextMcc s) ∧ t.pmu.interval = v.extractLsb' 0 16 ∧
          t.pmu.inst = s.pmu.inst ∧ t = { s with pmu := t.pmu }) ∧
      (∀ v : Reg32, bit v 31 = true → s.pmu.arm = true → exec (.dumpArm k v) s = .next s)) ∧
    (∀ spc : Word, bit p.en n.val = false → exec (.pmuCounterWrap i n spc) s = .next s) ∧
    (∀ spc : Word, bit p.en n.val = true → (n.val % 2 = 1 ∨ bit (nthD p.evsel (n.val + 1) 0) 12 = false) →
      ∃ t, exec (.pmuCounterWrap i n spc) s = .next t ∧ nthD (nthD t.pmu.inst i.val {}).cnt n.val 0 = 0 ∧ bit (nthD t.pmu.inst i.val {}).ovf n.val = true ∧
        (∀ m, m ≠ n.val → nthD (nthD t.pmu.inst i.val {}).cnt m 0 = nthD p.cnt m 0) ∧
        (i.val < 8 → bit (nthD p.evsel n.val 0) 13 = true →
          (nthD t.pmu.inst i.val {}).irq = true ∧ (nthD t.pmu.inst i.val {}).spc = spc ∧ t.out = .irqPmu i.val :: s.out) ∧
        (8 ≤ i.val → t.out = s.out ∧ (nthD t.pmu.inst i.val {}).irq = p.irq) ∧
        (∀ j, j ≠ i.val → nthD t.pmu.inst j {} = nthD s.pmu.inst j {}) ∧ t = { s with pmu := t.pmu, out := t.out }) ∧
    (∀ (r : DumpRec) (e : TagEnt), s.pmu.active = some r → s.txe.tags.find? (fun t => t.req == .dump) = some e → dmaPaused s e = false → e.ring = none →
      e.posted = false → inDram r.addr r.bytes.length = true → s.dram.wf = true →
      ∃ t, exec .dumpRecordWrite s = .next t ∧ t.dram.readList r.addr.toNat r.bytes.length = r.bytes ∧
        (∀ a, a < r.addr.toNat ∨ r.addr.toNat + r.bytes.length ≤ a → t.dram.read a = s.dram.read a) ∧ t.pmu.active = none ∧
        t.pmu.tail = s.pmu.tail + 1 ∧ t.pmu.seq = s.pmu.seq + 1 ∧ (∀ x ∈ t.txe.tags, x.tag ≠ e.tag) ∧ t.fab = s.fab ∧ t.cyc = s.cyc ∧ t.pim = s.pim) ∧
    (s.pmu.active = none → exec .dumpRecordWrite s = .next s)

/-- The event recorder: a read of a SEQ that the ring holds returns its 64 bytes as big-endian words; a flush leaves nothing pending; a background
copy stores the oldest pending record; a clear removes what it names, under a SECURITY record that stays. The model's choice, no rule of the manual:
ORIGIN and VALID with NONE (log entry 148). Completes: EVR_READ_REQUEST, EVR_READ_COMPLETE, EVR_CLEAR, FLUSH_COMPLETE, BACKGROUND_COPY. -/
def Obligations.EventRecorder : Prop :=
  ∀ s : State, s.evr.ctx.length = 8 →
    (∀ (k : Fin 8) (q : Reg32), s.rst.clusterHeld = false → coresStopped s = false → ∃ t, exec (.evrReadRequest k q) s = .next t ∧
      (nthD t.evr.ctx k.val {}).req = q ∧ (nthD t.evr.ctx k.val {}).valid = false ∧ (nthD t.evr.ctx k.val {}).busy = true ∧
      (∀ m, m ≠ k.val → nthD t.evr.ctx m {} = nthD s.evr.ctx m {}) ∧ t = { s with evr := { s.evr with ctx := t.evr.ctx } }) ∧
    (∀ k : Fin 8, (nthD s.evr.ctx k.val {}).busy = true →
      ∃ t, exec (.evrReadComplete k) s = .next t ∧ (nthD t.evr.ctx k.val {}).valid = true ∧ (nthD t.evr.ctx k.val {}).busy = false ∧
        (nthD t.evr.ctx k.val {}).gen = s.evr.gen ∧ (nthD t.evr.ctx k.val {}).none = (findRec s.evr (nthD s.evr.ctx k.val {}).req).isNone ∧
        (∀ r ∈ s.evr.ring, r.seq = (nthD s.evr.ctx k.val {}).req → (∀ x ∈ s.evr.ring, x.seq = r.seq → x = r) →
          (nthD t.evr.ctx k.val {}).words = beWords 16 r.bytes ∧ (nthD t.evr.ctx k.val {}).skipped = false ∧ (nthD t.evr.ctx k.val {}).ring = true) ∧
        (∀ m, m ≠ k.val → nthD t.evr.ctx m {} = nthD s.evr.ctx m {}) ∧ t = { s with evr := { s.evr with ctx := t.evr.ctx } }) ∧
    (∀ k : Fin 8, (nthD s.evr.ctx k.val {}).busy = false → exec (.evrReadComplete k) s = .next s) ∧
    (s.evr.flushing = true → s.evr.clearWait = [] → s.evr.pending.length ≤ 512 →
      ∃ t, exec .flushComplete s = .next t ∧ t.evr.flushing = false ∧ t.evr.pending = [] ∧ t.evr.gen = s.evr.gen ∧
        (s.evr.dropChanged = false → t.evr.ring = s.evr.ring ∧ t.evr.nextSeq = s.evr.nextSeq) ∧
        t.fab = s.fab ∧ t.cyc = s.cyc ∧ t.pim = s.pim ∧ t.glb = s.glb ∧ t.safe = s.safe) ∧
    (s.evr.flushing = false → ∃ t, exec .backgroundCopy s = .next t ∧ t.evr.pending = s.evr.pending.drop 1 ∧ t.evr.ring = s.evr.ring ∧
      t = { s with evr := t.evr } ∧
      (∀ q qs r, s.evr.pending = q :: qs → r ∈ s.evr.ring → r.seq = q → (∀ x ∈ s.evr.ring, x.seq = q → x = r) → (goodSlots s.evr.store).length < 49152 →
        ∃ x ∈ t.evr.store, x.r = r ∧ x.bad = false)) ∧
    (s.evr.flushing = true → exec .backgroundCopy s = .next s) ∧
    (∀ (c : CallReq) (sev : Nat), 1 ≤ sev → sev ≤ 7 → s.glb.state = .stop ∨ s.glb.state = .run ∨ s.glb.state = .hold → s.evr.flushing = false →
      CallReady s c (if 6 ≤ sev then .safetyEngineer else .maintainer) →
      ∃ t, exec (.evrClear c sev) s = .next t ∧ Answered t c .ok ∧ t.evr.gen = s.evr.gen + 1 ∧
        (∀ x ∈ t.evr.store, x.r.sev.num ≤ sev → x.pinned = true ∨ x.bad = true ∨ isClear x.r = true) ∧
        (∀ x ∈ t.evr.ring, sev < x.sev.num ∨ x.seq = s.evr.nextSeq) ∧ t.fab = s.fab ∧ t.cyc = s.cyc ∧ t.glb = s.glb ∧ t.pim = s.pim)


/-! ## Trusted kernel calls (R185 to R196, R317, R351, R355, R389, R404 to R420) -/

/-- Mode and force calls of a standalone module: a mode command accepted in the states of R185 becomes the pending one for a boundary with the
command's lead, its repetition is OK without effect, any other state refuses it; a force command waits for its boundary with its record. In a formed
group a member that is not ACTIVE defers the call. Nothing else changes. The model's choice, no rule of the manual: FORCE_LIST's layout (log entry 71)
and DETAIL of force records (log entry 150). Completes: FORCE_LIST, START_WARM, START_COLD, STOP, HOLD, CONTINUE, STEP, DORMANT_ENTER, FORCE_SET,
FORCE_CLEAR, FORCE_CLEAR_ALL. -/
def Obligations.ModeCalls : Prop :=
  ∀ (s : State) (c : CallReq), s.dram.wf = true →
    (CallReady s c .maintainer → inGroup s = false →
      (s.glb.state = .stop →
        (s.glb.pendCmd ≠ some .startWarm → ∃ t, exec (.startWarm c) s = .next t ∧ Replies s (Pends s .startWarm 1000000) t c .ok) ∧
        (s.glb.pendCmd ≠ some .startCold → ∃ t, exec (.startCold c) s = .next t ∧ Replies s (Pends s .startCold 1000000) t c .ok) ∧
        (s.glb.pendCmd ≠ some .dormant → s.pin.vstbyLow = false → s.upd.act = none → s.upd.waiting = [] →
          ∃ t, exec (.dormantEnter c) s = .next t ∧ t.rst.dormantPending = true ∧ t.rst.dormantMcc = boundaryAfter s 1000000000 ∧
            Replies s { Pends s .dormant 1000000000 with rst := t.rst } t c .ok ∧ .irqDormant (boundaryAfter s 1000000000) ∈ newOut s t) ∧
        (s.glb.pendCmd ≠ some .dormant → s.pin.vstbyLow = true ∨ s.upd.act ≠ none → ∃ t, exec (.dormantEnter c) s = .next t ∧ Replies s s t c .refusedPolicy) ∧
        (s.glb.pendCmd = none → ∃ t, exec (.stop c) s = .next t ∧ Replies s s t c .ok)) ∧
      (s.glb.state = .run ∨ s.glb.state = .hold →
        (s.glb.pendCmd ≠ some .stop → ∃ t, exec (.stop c) s = .next t ∧ Replies s (Pends s .stop 10000) t c .ok) ∧
        (s.glb.pendCmd ≠ some .dormant → ∃ t, exec (.dormantEnter c) s = .next t ∧ Replies s s t c .refusedPolicy)) ∧
      (s.glb.state = .hold → s.glb.pendCmd = none → ∃ t, exec (.startWarm c) s = .next t ∧ Replies s s t c .refusedPolicy)) ∧
    (CallReady s c .engineer → inGroup s = false →
      (∀ m, s.glb.pendCmd = some m → ∃ t, exec (match m with
        | .startWarm => .startWarm c | .startCold => .startCold c | .stop => .stop c | .hold => .hold c | .cont => .continue c
        | .step n => .step c n | .dormant => .dormantEnter c) s = .next t ∧ Replies s s t c .ok) ∧
      (s.glb.state = .run → s.glb.pendCmd ≠ some .hold → ∃ t, exec (.hold c) s = .next t ∧ Replies s (Pends s .hold 10000) t c .ok) ∧
      (s.glb.state = .hold → s.glb.pendCmd ≠ some .cont → ∃ t, exec (.continue c) s = .next t ∧ Replies s (Pends s .cont 10000) t c .ok) ∧
      (∀ n, s.glb.state = .hold → s.glb.pendCmd ≠ some (.step n) → 1 ≤ n → n ≤ 1024 →
        (s.glb.holdDrained = true → s.glb.stepping = false → ∃ t, exec (.step c n) s = .next t ∧ Replies s (Pends s (.step n) 10000) t c .ok) ∧
        (s.glb.stepping = true → ∃ t, exec (.step c n) s = .next t ∧ Replies s s t c .retry)) ∧
      (∀ n, s.glb.state = .hold → s.glb.pendCmd ≠ some (.step n) → n = 0 ∨ 1024 < n → ∃ t, exec (.step c n) s = .next t ∧ Replies s s t c .refusedPolicy)) ∧
    (CallReady s c .maintainer → inGroup s = true → s.grp.formed = false → ∃ t, exec (.startWarm c) s = .next t ∧ Replies s s t c .refusedPolicy) ∧
    (CallReady s c .maintainer → inGroup s = true → s.grp.formed = true → s.grp.role = .standby ∨ s.grp.role = .arbiter →
      (∃ t, exec (.startWarm c) s = .next t ∧ Answered t c .deferred ∧ t.glb = s.glb ∧ t.fab = s.fab ∧ t.cyc = s.cyc ∧ t.pim = s.pim) ∧
      (∃ t, exec (.stop c) s = .next t ∧ Answered t c .deferred ∧ t.glb = s.glb ∧ t.fab = s.fab ∧ t.cyc = s.cyc ∧ t.pim = s.pim)) ∧
    (CallReady s c .engineer → inGroup s = false → s.glb.state = .run ∨ s.glb.state = .stop ∨ s.glb.state = .hold →
      (∀ (sid : Sid) (v : Word) (code : BitVec 4) (r : SigRec), sigRec s.ci.act sid = some r → r.forceAllowed = true → r.voted = false →
        outOfRange r (rawOf r.t v) = false → code ∈ [qGood, qUninit, qStale, qCommLost, qSubst, qInvalid] →
        (r.safe = true → roleOf s c.session ≠ .safetyEngineer → ∃ t, exec (.forceSet c sid v code) s = .next t ∧ Answered t c .authRequired ∧ t.glb = s.glb) ∧
        ((r.safe = true → roleOf s c.session = .safetyEngineer) → (willBeForced s sid = true ∨ heldForces s < 1024) →
        ∃ t, exec (.forceSet c sid v code) s = .next t ∧ t.glb = { s.glb with forceCmds := (s.glb.forceCmds.filter (·.sid != sid)) ++ [⟨sid, some (rawOf r.t v, code), boundaryAfter s 10000⟩] } ∧
          Records s t (if r.safe then .safety else .notice) srcGlb (cCommand 0x20) ∧ Replies s { s with glb := t.glb, evr := t.evr } t c .ok)) ∧
      (∀ (sid : Sid) (v : Word) (code : BitVec 4), sigRec s.ci.act sid = none → ∃ t, exec (.forceSet c sid v code) s = .next t ∧ Replies s s t c .refusedPolicy) ∧
      (∀ (sid : Sid) (r : SigRec), sigRec s.ci.act sid = some r → (r.safe = true → roleOf s c.session = .safetyEngineer) → willBeForced s sid = true →
        ∃ t, exec (.forceClear c sid) s = .next t ∧ t.glb = { s.glb with forceCmds := (s.glb.forceCmds.filter (·.sid != sid)) ++ [⟨sid, none, boundaryAfter s 10000⟩] } ∧
          Records s t (if r.safe then .safety else .notice) srcGlb (cCommand 0x21) ∧ Replies s { s with glb := t.glb, evr := t.evr } t c .ok) ∧
      (∀ sid : Sid, willBeForced s sid = false → (∀ r, sigRec s.ci.act sid = some r → r.safe = false) →
        ∃ t, exec (.forceClear c sid) s = .next t ∧ Replies s s t c .ok) ∧
      (∃ t, exec (.forceClearAll c) s = .next t ∧ t.glb = { s.glb with forceCmds := t.glb.forceCmds } ∧ Records s t .notice srcGlb (cCommand 0x22) ∧
        (roleOf s c.session = .safetyEngineer → ∀ x, willBeForced t x = false) ∧
        (∀ x r, sigRec s.ci.act x = some r → r.safe = true → roleOf s c.session ≠ .safetyEngineer → willBeForced t x = willBeForced s x) ∧
        Replies s { s with glb := t.glb, evr := t.evr } t c .ok)) ∧
    (CallReady s c .viewer → inDram (nthD s.tk.slots c.slot {}).addr (32 + c.respMax) = true → 24 ≤ c.respMax →
      ∃ t, exec (.forceList c) s = .next t ∧ Replies s s t c .ok ∧
        (∀ f fs, s.glb.forces = f :: fs → (respData s t c 12) = leBytes 4 f.sid.toNat ++ leBytes 8 f.val.toNat))


/-- The other calls: time, safety, group, MAINT, sessions, settings, key stores, reads. Each performed call leaves what its own rule states and is
answered; nothing else changes. A session ends when its validity does, a lockout after its 60 s. The model's choice, no rule of the manual: response
layouts and handles (log entries 17 and 71), the order of a key store's checks (log entry 135). Completes: SESSION_OPEN, SESSION_CLOSE, SIGMAP_READ,
RUNTIME_READY, TIME_ACCEPT, SAFE_ACK, ROLE_SWAP, GROUP_MAINT_ENTER, GROUP_MAINT_LEAVE, GROUP_CLEAR_LATENT, MAINT_ENABLE, MAINT_DISABLE,
SETTINGS_RESET, TILE_DEBUG_READ, KEYSTORE_LOAD, SESSION_EXPIRY, LOCKOUT_END. -/
def Obligations.OtherCalls : Prop :=
  ∀ (s : State) (c : CallReq), s.dram.wf = true →
    (CallReady s c .engineer → inGroup s = false →
      (s.tb.stepRefused = false → ∃ t, exec (.timeAccept c) s = .next t ∧ Replies s s t c .ok) ∧
      (s.tb.stepRefused = true → s.glb.state = .run ∨ s.glb.state = .hold → ∃ t d, exec (.timeAccept c) s = .next t ∧ t.tb.stepDue = some d ∧
        d.target = boundaryAfter s 10000 ∧ d.refusedCase = 1 ∧ d.keyId = keyOf s c.session ∧ t.tb.acceptPending = true ∧
        Replies s { s with tb := { s.tb with stepDue := some d, acceptPending := true } } t c .ok) ∧
      (s.tb.stepRefused = true → s.glb.state = .stop ∨ s.glb.state = .config → ∃ t, exec (.timeAccept c) s = .next t ∧ Replies s s t c .refusedPolicy) ∧
      (∃ t, exec (.groupMaintEnter c) s = .next t ∧ Replies s s t c .refusedPolicy) ∧
      (∃ t, exec (.groupMaintLeave c) s = .next t ∧ Replies s s t c .refusedPolicy)) ∧
    (CallReady s c .maintainer → inGroup s = false →
      (s.glb.state = .run ∨ s.glb.state = .hold → 2 ≤ s.safe.absentRun → ∃ t, exec (.safeAck c) s = .next t ∧
        Replies s { s with safe := { s.safe with ackDue := some (nextMcc s) } } t c .deferred) ∧
      (s.safe.absentRun < 2 ∨ s.glb.state = .stop → ∃ t, exec (.safeAck c) s = .next t ∧ Replies s s t c .refusedPolicy) ∧
      (∃ t, exec (.roleSwap c) s = .next t ∧ Replies s s t c .refusedPolicy) ∧
      (∀ n, ∃ t, exec (.groupClearLatent c n) s = .next t ∧ Replies s s t c .refusedPolicy)) ∧
    (CallReady s c .maintainer → inGroup s = true → s.grp.formed = true → s.grp.role = .active →
      (s.grp.state = .nominal → ∃ t, exec (.roleSwap c) s = .next t ∧ Answered t c .ok ∧ t.glb = s.glb ∧ t.fab = s.fab ∧ t.safe = s.safe ∧
        t.grp.state = .nominal ∧ t.grp.swapDue.any (fun m => m.toNat % 2 ^ nMax s.ci.act == 0) = true) ∧
      (s.grp.state = .forming ∨ s.grp.state = .single → ∃ t, exec (.roleSwap c) s = .next t ∧ Replies s s t c .refusedPolicy) ∧
      (∀ n, 1 ≤ n → n ≤ 3 → ∃ t, exec (.groupClearLatent c n) s = .next t ∧ Answered t c .ok ∧
        t.grp.latentDue = some (boundaryAfter s 5000000, n) ∧ t.grp.latent = s.grp.latent ∧ t.glb = s.glb ∧ t.fab = s.fab ∧ t.safe = s.safe)) ∧
    (CallReady s c .engineer → inGroup s = true → s.grp.formed = true → s.grp.role = .active →
      (s.grp.state = .nominal → ∃ t, exec (.groupMaintEnter c) s = .next t ∧ Answered t c .ok ∧ t.grp.state = .nominal ∧
        t.grp.maintDue = some (boundaryAfter s 5000000, true) ∧ t.glb = s.glb ∧ t.fab = s.fab ∧ t.safe = s.safe) ∧
      (s.grp.state = .maintenance → s.glb.state = .run → ∃ t, exec (.groupMaintLeave c) s = .next t ∧ Answered t c .ok ∧
        t.grp.maintDue = some (boundaryAfter s 5000000, false) ∧ t.glb = s.glb ∧ t.fab = s.fab ∧ t.safe = s.safe)) ∧
    (CallReady s c .maintainer →
      (bit s.pgv.portPowered 2 = true → s.eth.ports.length = 3 → ∃ t, exec (.maintEnable c) s = .next t ∧ (nthD t.eth.ports 2 {}).enable = true ∧
        nthD t.eth.ports 0 {} = nthD s.eth.ports 0 {} ∧ nthD t.eth.ports 1 {} = nthD s.eth.ports 1 {} ∧
        ((nthD s.eth.ports 2 {}).enable = false → t.tk.maintBy = some c.session) ∧
        Replies s { s with eth := { s.eth with ports := t.eth.ports }, tk := { s.tk with maintBy := t.tk.maintBy } } t c .ok) ∧
      (bit s.pgv.portPowered 2 = false → headroom s < 8 → ∃ t, exec (.maintEnable c) s = .next t ∧ Replies s s t c .refusedPower) ∧
      (s.eth.ports.length = 3 → ∃ t, exec (.maintDisable c) s = .next t ∧ (nthD t.eth.ports 2 {}).enable = false ∧ (nthD t.eth.ports 2 {}).up = false ∧
        nthD t.eth.ports 0 {} = nthD s.eth.ports 0 {} ∧ nthD t.eth.ports 1 {} = nthD s.eth.ports 1 {} ∧ bit t.pgv.portPowered 2 = false ∧
        Replies s { s with eth := { s.eth with ports := t.eth.ports }, pgv := t.pgv, tk := { s.tk with maintBy := none } } t c .ok) ∧
      (∀ k : KeyStore, k.seq ≤ s.cul.cur.keystoreFloor → ∃ t, exec (.keystoreLoad c k) s = .next t ∧ t.tk.storeInB = s.tk.storeInB ∧ ¬Answered t c .ok ∧
        t.cul = s.cul ∧ t.tk.storeA = s.tk.storeA ∧ t.tk.storeB = s.tk.storeB ∧ t.tk.fuses = s.tk.fuses) ∧
      (∀ (k : KeyStore) (i : Nat), k.formOk = true → 1 ≤ k.keys.length → k.keys.length ≤ 64 → i < 4 → nthD s.tk.fuses.roots i none = some k.root →
        bit s.tk.fuses.revoked i = false → k.sig.magicOk = true → k.sig.keyClass = 5 → k.sig.ecdsaOk = true → k.sig.mldsaOk = true →
        s.cul.cur.keystoreFloor < k.seq → k.revokeRoot = 0 → k.newRoot = none →
        ∃ t, exec (.keystoreLoad c k) s = .next t ∧ Answered t c .ok ∧ t.tk.storeInB = (!s.tk.storeInB) ∧
          (if s.tk.storeInB then t.tk.storeA = some k ∧ t.tk.storeB = s.tk.storeB else t.tk.storeB = some k ∧ t.tk.storeA = s.tk.storeA) ∧
          t.cul.cur.keystoreFloor = k.seq ∧ t.tk.fuses = s.tk.fuses ∧ (∀ x ∈ t.tk.sessions, x ∈ s.tk.sessions) ∧ t.fab = s.fab ∧ t.cyc = s.cyc ∧ t.glb = s.glb)) ∧
    (CallReady s c .none → s.tk.lockEnd = none → ∀ (tok : Token) (k : KeyRec), keyFor s 3 tok.sig = some k → k.bind = 0 ∨ k.bind = s.tk.fuses.serial →
      tok.formOk = true → tok.serial = s.tk.fuses.serial → tok.sig.magicOk = true → tok.sig.len = 0xD80 → tok.sig.keyClass = 3 → tok.sig.ecdsaOk = true →
      tok.sig.mldsaOk = true →
      (tok.notBefore < tok.notAfter → tok.notAfter.toNat ≤ tok.notBefore.toNat + 28800000000000 → s.tk.sessions.length < 8 →
        (s.tb.valid = true ∧ tok.notBefore ≤ s.tb.ttc ∧ s.tb.ttc < tok.notAfter) ∨ (s.tb.valid = false ∧ s.tb.ttc ≤ tok.notAfter) →
        ∃ t x, exec (.sessionOpen c tok) s = .next t ∧ t.tk.sessions = s.tk.sessions ++ [x] ∧ x.role = tok.role ∧ x.tokenId = tok.tokenId ∧
          x.notAfter = tok.notAfter ∧ x.keyId = tok.sig.keyId ∧ x.handle ≠ 0 ∧ (∀ y ∈ s.tk.sessions, y.handle ≠ x.handle) ∧
          Replies s { s with tk := { s.tk with sessions := t.tk.sessions, opened := s.tk.opened + 1 } } t c .ok ∧
          (inDram (nthD s.tk.slots c.slot {}).addr (32 + c.respMax) = true → 2 ≤ c.respMax → respData s t c 2 = leBytes 2 x.handle.toNat)) ∧
      (tok.notAfter ≤ tok.notBefore → ∃ t, exec (.sessionOpen c tok) s = .next t ∧ t.tk.sessions = s.tk.sessions ∧ Records s t .security srcTkmb (cRefused .refusedPolicy) ∧
        Replies s { s with tk := { s.tk with authFail := t.tk.authFail, refusals := t.tk.refusals, lockEnd := t.tk.lockEnd }, evr := t.evr } t c .refusedPolicy ∧
        t.tk.authFail = satInc s.tk.authFail)) ∧
    (CallReady s c .none → ∀ tok : Token, s.tk.lockEnd.isSome = true → ∃ t, exec (.sessionOpen c tok) s = .next t ∧
      Records s t .security srcTkmb (cRefused .refusedPolicy) ∧
      Replies s { s with tk := { s.tk with authFail := satInc s.tk.authFail }, evr := t.evr } t c .refusedPolicy) ∧
    (CallReady s c .viewer → (∀ x ∈ s.tk.slots, x.busy = false) → s.tk.maintBy ≠ some c.session → ∃ t, exec (.sessionClose c) s = .next t ∧
      t.tk.sessions = s.tk.sessions.filter (·.handle != c.session) ∧ Replies s { s with tk := { s.tk with sessions := t.tk.sessions } } t c .ok) ∧
    (CallReady s c .none →
      (∀ off len, s.ci.activeValid = true → inDram (nthD s.tk.slots c.slot {}).addr (32 + c.respMax) = true → len ≤ c.respMax →
        off + len ≤ 32 * s.ci.act.sigs.length →
        ∃ t, exec (.sigmapRead c false off len) s = .next t ∧ Replies s s t c .ok ∧ respData s t c len = ((s.ci.act.sigs.flatMap SigRec.bytes).drop off).take len) ∧
      (∀ off len, s.ci.shadow ≠ .valid → ∃ t, exec (.sigmapRead c true off len) s = .next t ∧ Replies s s t c .refusedPolicy) ∧
      (s.rst.clusterHeld = false → ∃ t, exec (.runtimeReady c) s = .next t ∧ t.rst.wdogEnd = ttcIn s (s.rst.wdogMs.toNat * 1000000) ∧
        Replies s { s with rst := { s.rst with runtimeReady := true, wdogArmed := true, wdogEnd := t.rst.wdogEnd } } t c .ok)) ∧
    (CallReady s c .engineer →
      (s.glb.state = .stop → ∃ t, exec (.settingsReset c) s = .next t ∧ t.tk.settingsReset = true ∧ Records s t .notice srcTkmb (cCommand 0x61) ∧
        Replies s { s with tk := { s.tk with settingsReset := true }, evr := t.evr } t c .ok) ∧
      (s.glb.state ≠ .stop → ∃ t, exec (.settingsReset c) s = .next t ∧ Replies s s t c .refusedPolicy) ∧
      (∀ (n : TileNo) (a len : Nat), (s.fab.tile n).dbgEn = true → 0x20000 ≤ a → a + len ≤ 0x40000 → len ≤ c.respMax →
        inDram (nthD s.tk.slots c.slot {}).addr (32 + c.respMax) = true →
        ∃ t, exec (.tileDebugRead c n a len) s = .next t ∧ Replies s s t c .ok ∧ respData s t c len = (s.fab.tile n).mem.readList a len) ∧
      (∀ (n : TileNo) (a len : Nat), (s.fab.tile n).dbgEn = false → ∃ t, exec (.tileDebugRead c n a len) s = .next t ∧ Replies s s t c .refusedPolicy)) ∧
    (∀ h : BitVec 16, sessionOf s h = none → exec (.sessionExpiry h) s = .next s) ∧
    (∀ (h : BitVec 16) (x : Session), sessionOf s h = some x → s.tb.valid = true → s.tb.ttc ≤ x.notAfter → (x.notAfter - s.tb.ttc).toNat < 2 ^ 63 → x.opEnd = none →
      ∃ t, exec (.sessionExpiry h) s = .next t ∧ t.tk.sessions = s.tk.sessions.filter (·.handle != h) ∧ t.tb.ttc = x.notAfter ∧ t.glb = s.glb ∧
        t.fab = s.fab ∧ t.pim = s.pim ∧ (∀ n, nthD t.tk.slots n {} = nthD s.tk.slots n {})) ∧
    (∀ e, s.tk.lockEnd = some e → s.tk.running = true → s.glb.state ≠ .dormant → e < 2 ^ 40 → s.cul.opNs < 100000000 →
      ∃ t, exec .lockoutEnd s = .next t ∧ t.tk = { s.tk with lockEnd := none, refusals := [] } ∧ e ≤ t.cul.optime.toNat ∧ t.glb = s.glb ∧ t.fab = s.fab ∧ t.pim = s.pim) ∧
    (s.tk.lockEnd = none → exec .lockoutEnd s = .next s)


/-- The calls that write registers, and what every call with a role needs: a TK field takes its value under an INFO record, its own rule may refuse
it; a MODULE reset waits for its flush, a RUNTIME reset follows the answer, a PORT reset holds the unit; quotas wait for the boundary. A caller
without the role gets AUTH_REQUIRED, counted; a GO on a busy slot sets OVERRUN and has no other effect; a held cluster makes none. The model's choice,
no rule of the manual: HOLD_MAX outside its range and such checks (log entry 87). Completes: REG_WRITE, MODULE_RESET, RUNTIME_RESET, PORT_RESET,
PIM_FREEZE, TXE_QUOTA_WRITE, PGV_CAP_LIMIT_WRITE. -/
def Obligations.RegisterCalls : Prop :=
  ∀ (s : State) (c : CallReq), s.dram.wf = true →
    (CallReady s c .engineer →
      (∀ (a m v : Reg32), tkMask a.toNat = 0 → ∃ t, exec (.regWrite c a m v) s = .next t ∧ Replies s s t c .refusedPolicy) ∧
      (∀ (m v : Reg32), ∃ t, exec (.regWrite c 0xF410000C m v) s = .next t ∧ Replies s s t c .refusedPolicy) ∧
      (∀ (n : TileNo) (v : Reg32), FabOk s.fab → ∃ t, exec (.regWrite c (BitVec.ofNat 32 (0xF100001C + 0x10000 * n.val)) 1 v) s = .next t ∧
        t.fab.tile n = { s.fab.tile n with dbgEn := bit v 0 } ∧ (∀ m, m ≠ n → t.fab.tile m = s.fab.tile m) ∧ Records s t .info srcTkmb (cChange 9) ∧
        Replies s { s with fab := { s.fab with tiles := t.fab.tiles }, evr := t.evr } t c .ok) ∧
      (∀ v : Reg32, (v.extractLsb' 0 7 : BitVec 7).toNat < 4 ∨ 64 < (v.extractLsb' 0 7 : BitVec 7).toNat →
        ∃ t, exec (.regWrite c 0xF2000000 0x7F v) s = .next t ∧ Replies s s t c .refusedPolicy) ∧
      (∀ v : Reg32, 4 ≤ (v.extractLsb' 0 7 : BitVec 7).toNat → (v.extractLsb' 0 7 : BitVec 7).toNat ≤ 64 →
        ∃ t, exec (.regWrite c 0xF2000000 0x7F v) s = .next t ∧ t.arb.holdMax = v.extractLsb' 0 7 ∧ Records s t .info srcTkmb (cChange 9) ∧
          t.cul.cfields = cfieldPut s.cul.cfields 0xF2000000 0x7F (BitVec.setWidth 32 (v.extractLsb' 0 7 : BitVec 7)) ∧
          Replies s { s with arb := { s.arb with holdMax := t.arb.holdMax }, cul := t.cul, evr := t.evr } t c .ok) ∧
      (s.pin.powerGood = true → s.pin.cutOff = false → s.rst.moduleDue = false → s.glb.state ≠ .dormant →
        ∃ t, exec (.moduleReset c) s = .next t ∧ Answered t c .ok ∧ t.rst.moduleDue = true ∧ t.evr.flushing = true ∧ Records s t .info srcTkmb (cChange 9) ∧
          (s.ci.activeValid = true → t.rst.retainMcc = pubLatest s.pim) ∧ t.fab = s.fab ∧ t.pim = s.pim ∧ t.cyc = s.cyc ∧ t.glb = s.glb ∧ t.safe = s.safe) ∧
      (s.tk.sessions.length ≤ 8 → ∃ t, exec (.runtimeReset c) s = .next t ∧ RuntimeGone s t ∧ Records s t .info srcTkmb (cChange 9) ∧
        .irqCall c.slot ∈ newOut s t ∧ ∃ r ∈ t.evr.ring, r.sev = .notice ∧ r.src = srcRst ∧ r.code = cFault 1) ∧
      (∀ u : BitVec 4, 8 < u.toNat → ∃ t, exec (.portReset c u) s = .next t ∧ Replies s s t c .refusedPolicy) ∧
      (∀ u : BitVec 4, u.toNat ≤ 8 → ∃ t, exec (.portReset c u) s = .next t ∧ bit t.rst.portHeld u.toNat = true ∧
        (∀ v, v ≠ u.toNat → bit t.rst.portHeld v = bit s.rst.portHeld v) ∧ t.rst.ctrlUnit = u ∧ Answered t c .ok ∧
        (bit s.rst.portHeld u.toNat = false → ∃ r ∈ t.evr.ring, r.sev = .warning ∧ r.src = resetSrc u.toNat ∧ r.code = cFault 1) ∧ t.fab = s.fab ∧ t.glb = s.glb ∧ t.cyc = s.cyc ∧ t.safe = s.safe) ∧
      (∀ b : BitVec 16, s.glb.state = .stop → ∃ t, exec (.pimFreeze c b) s = .next t ∧ t.arb.freeze = b ∧ t.arb.idle = b ∧ Records s t .info srcTkmb (cChange 9) ∧
        (b &&& ~~~s.arb.freeze ≠ 0 → ∃ r ∈ t.evr.ring, r.sev = .notice ∧ r.src = srcPima ∧ r.code = cChange 9 ∧ r.subject = b.setWidth 32) ∧
        Replies s { s with arb := { s.arb with freeze := b, idle := b }, evr := t.evr } t c .ok) ∧
      (∀ b : BitVec 16, s.glb.state ≠ .stop → s.glb.state ≠ .boot → ∃ t, exec (.pimFreeze c b) s = .next t ∧ Replies s s t c .refusedPolicy) ∧
      (∀ (i : Fin 3) (lo hi : BitVec 11), (quotasNext s).length = 6 →
        let q := setNth (setNth (quotasNext s) (2 * i.val) lo.toNat) (2 * i.val + 1) hi.toNat
        (q.sum ≤ 1024 → ∃ t, exec (.txeQuotaWrite c i lo hi) s = .next t ∧ t.txe = { s.txe with quotaNext := some q } ∧ Records s t .info srcTkmb (cChange 9) ∧
          Replies s { s with txe := t.txe, cul := t.cul, evr := t.evr } t c .ok) ∧
        (1024 < q.sum → ∃ t, exec (.txeQuotaWrite c i lo hi) s = .next t ∧ Replies s s t c .refusedPolicy)) ∧
      (∀ l : BitVec 9, (l.toNat < 160 ∨ 480 < l.toNat → ∃ t, exec (.pgvCapLimitWrite c l) s = .next t ∧ Replies s s t c .refusedPolicy) ∧
        (160 ≤ l.toNat → l.toNat ≤ 480 → l.toNat < reservation s.ci.act → ∃ t, exec (.pgvCapLimitWrite c l) s = .next t ∧ Replies s s t c .refusedPower) ∧
        (160 ≤ l.toNat → l.toNat ≤ 480 → reservation s.ci.act ≤ l.toNat → ∃ t, exec (.pgvCapLimitWrite c l) s = .next t ∧ t.pgv.limit = l ∧
          t.pgv.granted = s.pgv.granted ∧ Records s t .info srcTkmb (cChange 9) ∧ Replies s { s with pgv := t.pgv, clk := { s.clk with maxStep := t.clk.maxStep }, cul := t.cul, evr := t.evr } t c .ok))) ∧
    (∀ (sid : Sid) (v : Word) (q : BitVec 4) (a m x : Reg32) (n : Nat) (u : TileNo) (k : KeyStore),
      (c.slot < s.tk.slots.length → (nthD s.tk.slots c.slot {}).busy = false → sessionOf s c.session = none → s.rst.clusterHeld = false →
        let no (i : Instr) : Prop := ∃ t, exec i s = .next t ∧ Replies s { s with tk := { s.tk with authFail := satInc s.tk.authFail } } t c .authRequired
        no (.startWarm c) ∧ no (.startCold c) ∧ no (.stop c) ∧ no (.hold c) ∧ no (.continue c) ∧ no (.step c n) ∧ no (.dormantEnter c) ∧
        no (.forceSet c sid v q) ∧ no (.forceClear c sid) ∧ no (.forceClearAll c) ∧ no (.forceList c) ∧ no (.timeAccept c) ∧ no (.safeAck c) ∧
        no (.roleSwap c) ∧ no (.groupMaintEnter c) ∧ no (.groupMaintLeave c) ∧ no (.groupClearLatent c n) ∧ no (.maintEnable c) ∧ no (.maintDisable c) ∧
        no (.sessionClose c) ∧ no (.settingsReset c) ∧ no (.tileDebugRead c u n n) ∧ no (.keystoreLoad c k) ∧ no (.regWrite c a m x) ∧ no (.moduleReset c) ∧
        no (.runtimeReset c) ∧ no (.portReset c q) ∧ no (.pimFreeze c 1) ∧ no (.txeQuotaWrite c 0 1 1) ∧ no (.pgvCapLimitWrite c 200)) ∧
      (c.slot < s.tk.slots.length → (nthD s.tk.slots c.slot {}).busy = true → s.rst.clusterHeld = false →
        let busy (i : Instr) : Prop := exec i s = .next { s with tk := { s.tk with slots := modNth s.tk.slots c.slot (fun y => { y with overrun := true }) } }
        busy (.startWarm c) ∧ busy (.stop c) ∧ busy (.forceSet c sid v q) ∧ busy (.forceClearAll c) ∧ busy (.timeAccept c) ∧ busy (.safeAck c) ∧
        busy (.roleSwap c) ∧ busy (.maintEnable c) ∧ busy (.sessionClose c) ∧ busy (.sigmapRead c false n n) ∧ busy (.runtimeReady c) ∧
        busy (.settingsReset c) ∧ busy (.keystoreLoad c k) ∧ busy (.regWrite c a m x) ∧ busy (.moduleReset c) ∧ busy (.runtimeReset c) ∧ busy (.portReset c q)) ∧
      (s.rst.clusterHeld = true →
        let off (i : Instr) : Prop := exec i s = .next s
        off (.startWarm c) ∧ off (.startCold c) ∧ off (.stop c) ∧ off (.hold c) ∧ off (.continue c) ∧ off (.step c n) ∧ off (.dormantEnter c) ∧
        off (.forceSet c sid v q) ∧ off (.forceClear c sid) ∧ off (.forceClearAll c) ∧ off (.forceList c) ∧ off (.timeAccept c) ∧ off (.safeAck c) ∧
        off (.roleSwap c) ∧ off (.groupMaintEnter c) ∧ off (.groupMaintLeave c) ∧ off (.groupClearLatent c n) ∧ off (.maintEnable c) ∧ off (.maintDisable c) ∧
        off (.sessionClose c) ∧ off (.sigmapRead c false n n) ∧ off (.runtimeReady c) ∧ off (.settingsReset c) ∧ off (.tileDebugRead c u n n) ∧
        off (.keystoreLoad c k) ∧ off (.regWrite c a m x) ∧ off (.moduleReset c) ∧ off (.runtimeReset c) ∧ off (.portReset c q) ∧ off (.pimFreeze c 1) ∧
        off (.txeQuotaWrite c 0 1 1) ∧ off (.pgvCapLimitWrite c 200) ∧ off (.evrClear c n) ∧ off (.updActivate c .ci) ∧ off (.updSlotInfo c .ci)))


/-! ## Field update (R421 to R444) -/

/-- Downloads: an acceptable manifest opens the session of its type and makes the slot PARTIAL, a refused one leaves slots and sessions; a segment
waits for its block, a whole good block is kept, a bad one discarded; status questions are answered, missing blocks sent again; verification ends
VERIFIED or INVALID; an idle session ends; ABORT empties the slot; a message of a package whose key was revoked gets SIGNATURE_FAILED; before the
trusted kernel runs nothing is taken. The model's choice, no rule of the manual: blocks as bytes (log entry 155), refusals and replies (log entries
138, 139 and 217). Completes: UPD_MSG, UPD_ABORT, UPD_SLOT_INFO, MANIFEST,
MANIFEST_REPLY, SEGMENT, STATUS_REQ, STATUS_REPLY, COMMAND_ABORT, COMMAND_REPLY, VERIFICATION_DONE, UPDATE_SESSION_IDLE. -/
def Obligations.Downloads : Prop :=
  ∀ (s : State) (src : ChainSrc) (h : ChainHdr) (t : ImgType), s.upd.slots.length = 5 → s.upd.sessions.length = 5 → s.cul.boot.length = 5 →
    (s.tk.running = false → ∀ (m : Manifest) (e : SegEnt) (ts : List Token) (es : List MemberEnt),
      exec (.manifest src h m) s = .next s ∧ exec (.segment h e) s = .next s ∧ exec (.statusReq src h) s = .next s ∧
      exec (.statusReply src h es []) s = .next s ∧ exec (.commandAbort src h ts) s = .next s) ∧
    (∀ m : Manifest, s.tk.running = true → imgTypeOf m.typeCode = some t →
      (manifestForm s h m = .ok → (entOf s t).floor ≤ m.version → m.delta = false → (entOf s t).state ≠ 1 → activating s t = false →
        updSession s t = none → (otherSlot s t).st = .empty → ((activeSlot s t).img.version ≠ m.version ∨ (activeSlot s t).img.hash ≠ m.targetHash) →
        m.targetLen ≤ t.size → m.pkgLen ≤ t.size →
        ∃ u, exec (.manifest src h m) s = .next u ∧ updSession u t = some { manifest := m, owner := src, lastUse := s.cul.optime.toNat } ∧
          (otherSlot u t).st = .partly ∧ (otherSlot u t).manifest = some m ∧ u.upd.lastStatus = Status.ok.code ∧ activeSlot u t = activeSlot s t ∧
          (∀ k, k ≠ t → updSession u k = updSession s k) ∧ u = { s with upd := u.upd, out := u.out }) ∧
      (manifestForm s h m = .ok → m.version < (entOf s t).floor → ∃ u, exec (.manifest src h m) s = .next u ∧ u.upd.slots = s.upd.slots ∧
        u.upd.sessions = s.upd.sessions ∧ u.upd.lastStatus = Status.versionFloor.code ∧ Records s u .warning srcUpd (cRefused .versionFloor) ∧
        u = { s with upd := u.upd, evr := u.evr, out := u.out }) ∧
      (m.formOk = false → ∃ u, exec (.manifest src h m) s = .next u ∧ u.upd.slots = s.upd.slots ∧ u.upd.sessions = s.upd.sessions ∧
        u.upd.lastStatus = Status.checkFailed.code ∧ Records s u .warning srcUpd (cRefused .checkFailed) ∧ u = { s with upd := u.upd, evr := u.evr, out := u.out })) ∧
    (∀ es, exec (.manifestReply src h es) s = .next s ∧ exec (.commandReply src h es) s = .next s) ∧
    (∀ (x : UpdSession) (e : SegEnt), s.tk.running = true → imgTypeOf h.typeCode = some t → h.formOk = true → updSession s t = some x → revokedSession s t = false → slotRevoked s t h = false →
      x.manifest.version = h.version → x.manifest.targetHash = h.target → (otherSlot s t).st = .partly → x.resumed = false → e.block ∉ x.got →
      e.block < x.manifest.blockCount → e.seg < 4 → (∀ y ∈ x.segs, ¬(y.block = e.block ∧ y.seg = e.seg)) →
      (allSegs (x.segs ++ [e]) e.block = false →
        ∃ u, exec (.segment h e) s = .next u ∧ updSession u t = some { x with lastUse := s.cul.optime.toNat, segs := x.segs ++ [e] } ∧
          (∀ k, k ≠ t → updSession u k = updSession s k) ∧
          u = { tagged 1 s with upd := { s.upd with sessions := u.upd.sessions }, pmu := u.pmu }) ∧
      (∀ data, wholeBlock (x.segs ++ [e]) x.manifest e.block = some data → allSegs (x.segs ++ [e]) e.block = true → neighbours s = [] →
        ∃ u y, exec (.segment h e) s = .next u ∧ updSession u t = some y ∧ y.got = x.got ++ [e.block] ∧
          (otherSlot u t).blocks = (e.block, data) :: (otherSlot s t).blocks ∧
          (∀ z ∈ y.segs, z.block ≠ e.block) ∧ (otherSlot u t).st = (if x.got.length + 1 = x.manifest.blockCount then .verifying else .partly) ∧
          activeSlot u t = activeSlot s t ∧ u = { tagged 1 s with upd := u.upd, pmu := u.pmu }) ∧
      (wholeBlock (x.segs ++ [e]) x.manifest e.block = none → allSegs (x.segs ++ [e]) e.block = true →
        ∃ u y, exec (.segment h e) s = .next u ∧ updSession u t = some y ∧ y.got = x.got ∧ (∀ z ∈ y.segs, z.block ≠ e.block) ∧
          u = { tagged 1 s with upd := { s.upd with sessions := u.upd.sessions }, pmu := u.pmu })) ∧
    (s.tk.running = true → ∃ u, exec (.statusReq src h) s = .next u ∧ u = { s with out := u.out } ∧ (src ≠ .runtime → answers s src = true → u.out.length = s.out.length + 1)) ∧
    (s.tk.running = true → ∀ es (l : List (List Nat)), ∃ u, exec (.statusReply src h es l) s = .next u ∧ u = { s with out := u.out } ∧
      (answers s src = true → ∀ b ∈ heldBlocks s h, b.1 ∈ l.flatten → ∀ e ∈ blockSegs b.1 b.2,
        .chainOut src (srcPlanes src) (.segment { h with status := .ok } e) ∈ u.out)) ∧
    (slotRevoked s t h = true → updSession s t = none → s.tk.running = true → h.formOk = true → imgTypeOf h.typeCode = some t →
      (∀ e, ∃ u, exec (.segment h e) s = .next u ∧ u.upd = { s.upd with lastStatus := Status.signatureFailed.code } ∧ u.evr = s.evr) ∧
      (∀ ts : List Token, 1 ≤ ts.length → ts.length ≤ 8 → ∀ i ∈ [Instr.commandActivate src h ts, .commandConfirm src h ts, .commandRevert src h ts, .commandAbort src h ts],
        ∃ u, exec i s = .next u ∧ u = { s with upd := { s.upd with lastStatus := Status.signatureFailed.code }, out := u.out })) ∧
    (∀ (v : Verified) (m : Manifest), (otherSlot s t).manifest = some m → (otherSlot s t).st = .verifying → s.upd.waiting = [] →
      (verifyStatus s t m v = .ok → ∃ u, exec (.verificationDone t v) s = .next u ∧ (otherSlot u t).st = .verified ∧ (otherSlot u t).img = foundImage t v ∧
        activeSlot u t = activeSlot s t ∧ u.upd.sessions = s.upd.sessions ∧ u = { s with upd := u.upd }) ∧
      (verifyStatus s t m v ≠ .ok → ∃ u, exec (.verificationDone t v) s = .next u ∧ (otherSlot u t).st = .invalid ∧ updSession u t = none ∧
        activeSlot u t = activeSlot s t ∧ Records s u .error srcUpd (cFailed (verifyStatus s t m v)) ∧ u = { s with upd := u.upd, evr := u.evr })) ∧
    (∀ v : Verified, (otherSlot s t).manifest = none → exec (.verificationDone t v) s = .next s) ∧
    (∀ x, updSession s t = some x →
      (s.cul.optime.toNat < x.lastUse + 6000 → exec (.updateSessionIdle t) s = .next s) ∧
      (x.lastUse + 6000 ≤ s.cul.optime.toNat → ∃ u, exec (.updateSessionIdle t) s = .next u ∧ updSession u t = none ∧
        (∀ k, k ≠ t → updSession u k = updSession s k) ∧ activeSlot u t = activeSlot s t ∧
        (x.resumed = false → u.upd.slots = s.upd.slots ∧ u.evr = s.evr) ∧
        (x.resumed = true → (otherSlot u t).st = .empty ∧ Records s u .notice srcUpd (cState SlotSt.empty.num)) ∧ u = { s with upd := u.upd, evr := u.evr })) ∧
    (∀ (ts : List Token) (r : Role) (tok : Word) (x : UpdSession), s.tk.running = true → h.formOk = true → imgTypeOf h.typeCode = some t → 1 ≤ ts.length → ts.length ≤ 8 →
      commandRole s ts = (s, r, tok) → slotRevoked s t h = false → Role.maintainer.rank ≤ r.rank → updSession s t = some x →
      (x.owner = src → ∃ u, exec (.commandAbort src h ts) s = .next u ∧ updSession u t = none ∧ (otherSlot u t).st = .empty ∧
        activeSlot u t = activeSlot s t ∧ Records s u .notice srcUpd (cState SlotSt.empty.num) ∧ u = { s with upd := u.upd, evr := u.evr, out := u.out }) ∧
      (x.owner ≠ src → ∃ u, exec (.commandAbort src h ts) s = .next u ∧ (updSession u t).isSome = true ∧ u.upd.slots = s.upd.slots ∧
        u.upd.lastStatus = Status.refusedPolicy.code ∧ u = { s with upd := u.upd, out := u.out })) ∧
    (∀ (c : CallReq) (x : UpdSession), s.dram.wf = true → CallReady s c .maintainer → updSession s t = some x →
      ∃ u, exec (.updAbort c t) s = .next u ∧ updSession u t = none ∧ (otherSlot u t).st = .empty ∧ activeSlot u t = activeSlot s t ∧
        Records s u .notice srcUpd (cState SlotSt.empty.num) ∧ Replies s { s with upd := u.upd, evr := u.evr } u c .ok) ∧
    (∀ c : CallReq, s.dram.wf = true → CallReady s c .maintainer → updSession s t = none → ∃ u, exec (.updAbort c t) s = .next u ∧
      u.upd.slots = s.upd.slots ∧ Replies s { s with upd := { s.upd with lastStatus := Status.refusedPolicy.code } } u c .refusedPolicy) ∧
    (∀ c : CallReq, s.dram.wf = true → CallReady s c .maintainer →
      (∃ u, exec (.updMsg c (.statusReq h)) s = .next u ∧
        Replies s s u c (if h.formOk = false then .checkFailed else match imgTypeOf h.typeCode with
          | none => .incompatible
          | some k => if slotRevoked s k h then .signatureFailed else .ok)) ∧
      (∀ e w, s.tk.running = true → exec (.segment h e) s = .next w → ∃ u, exec (.updMsg c (.segment h e)) s = .next u ∧ u.upd = w.upd ∧ Answered u c .ok ∧ u.fab = s.fab ∧
        u.glb = s.glb ∧ u.cul = s.cul)) ∧
    (∀ (c : CallReq) (m : Manifest), s.dram.wf = true → CallReady s c .viewer → inDram (nthD s.tk.slots c.slot {}).addr (32 + c.respMax) = true →
      7 ≤ c.respMax → (updSlot s t false).manifest = some m →
      ∃ u, exec (.updSlotInfo c t) s = .next u ∧ Replies s s u c .ok ∧
        respData s u c 7 = [0x53, 0x56, 0x4D, 0x46, 0x01, BitVec.ofNat 8 m.typeCode, if m.delta then 1 else 0])

/-- Activations: an accepted one of a boundary type waits for it, a CI loads its image into the shadow plane, one out of place is refused and changes
no slot; a confirmation raises the floor, a revert goes back to the previous slot; health clears the boot mark, the end of the Lehr confirms; a loaded
shadow image is VALID with its class or INVALID with an ERROR record. The model's choice, no rule of the manual: waiting activations and where each
type takes effect (log entries 140 and 142). Completes: UPD_ACTIVATE, UPD_CONFIRM, UPD_REVERT, SHADOW_LOAD_DONE, COMMAND_ACTIVATE, COMMAND_CONFIRM,
COMMAND_REVERT, HEALTH_REACHED, LEHR_END. -/
def Obligations.Activations : Prop :=
  ∀ (s : State) (src : ChainSrc) (h : ChainHdr) (t : ImgType), s.upd.slots.length = 5 → s.upd.sessions.length = 5 → s.cul.boot.length = 5 →
    (s.tk.running = false → ∀ ts : List Token, exec (.commandActivate src h ts) s = .next s ∧ exec (.commandConfirm src h ts) s = .next s ∧
      exec (.commandRevert src h ts) s = .next s) ∧
    (∀ (ts : List Token) (r : Role) (tok : Word), s.tk.running = true → h.formOk = true → imgTypeOf h.typeCode = some t → 1 ≤ ts.length → ts.length ≤ 8 →
      commandRole s ts = (s, r, tok) → slotRevoked s t h = false → updSession s t = none →
      (∀ m, t = .ur ∨ t = .ci → (activateRole s t).rank ≤ r.rank → (otherSlot s t).st = .verified → (otherSlot s t).manifest = some m →
        m.version = h.version → m.targetHash = h.target → (entOf s t).floor ≤ (otherSlot s t).img.version → (keyFor s t.keyClass (otherSlot s t).img.sig).isSome = true → actBusy s = false → s.glb.state = .run ∨ s.glb.state = .stop →
        ∃ u a, exec (.commandActivate src h ts) s = .next u ∧ u.upd.act = some a ∧ a.ty = t ∧ a.tokenId = tok ∧ a.written = false ∧ a.src = some src ∧
          u.upd.slots = s.upd.slots ∧ u.cul = s.cul ∧ (t = .ci → u.ci.shadow = .loading ∧ u.ci.offered = some (otherSlot s .ci).img.ci ∧ u.ci.act = s.ci.act) ∧
          (t = .ur → u.ci = s.ci) ∧ u = { s with upd := u.upd, ci := u.ci, out := u.out }) ∧
      (t = .ci → (otherSlot s t).manifest = none → s.ci.swap = .proposed ∨ s.ci.swap = .committed → (activateRole s t).rank ≤ r.rank →
        ∃ u, exec (.commandActivate src h ts) s = .next u ∧ u.upd.lastStatus = Status.busyOtherImage.code ∧ u.upd.slots = s.upd.slots ∧
          Records s u .warning srcGlb (cRefused .busyOtherImage) ∧ u = { s with upd := u.upd, evr := u.evr, out := u.out }) ∧
      ((otherSlot s t).manifest = none → (t = .ci → s.ci.swap ≠ .proposed ∧ s.ci.swap ≠ .committed) → ∃ u, exec (.commandActivate src h ts) s = .next u ∧ u.upd.slots = s.upd.slots ∧ u.upd.act = s.upd.act ∧
        u = { s with upd := u.upd, out := u.out }) ∧
      (Role.engineer.rank ≤ r.rank → (entOf s t).state = 1 → nthD s.upd.trialStart t.idx 0 + 6000 ≤ s.cul.optime.toNat →
        ∃ u, exec (.commandConfirm src h ts) s = .next u ∧ (entOf u t).state = 0 ∧ (entOf u t).floor = (entOf s t).version ∧
          (entOf u t).version = (entOf s t).version ∧ activeSlot u t = activeSlot s t ∧ Records s u .notice srcUpd (cChange 7) ∧
          (∀ k, k ≠ t → (entOf u k).floor = (entOf s k).floor ∧ (entOf u k).state = (entOf s k).state) ∧
          u = { s with upd := u.upd, cul := u.cul, evr := u.evr, out := u.out }) ∧
      ((entOf s t).state ≠ 1 → ∃ u, exec (.commandConfirm src h ts) s = .next u ∧ u.upd.slots = s.upd.slots ∧ u.cul = s.cul ∧
        u = { s with upd := u.upd, out := u.out }) ∧
      (t = .ur → Role.maintainer.rank ≤ r.rank → (entOf s t).state = 1 → actBusy s = false →
        ∃ u a, exec (.commandRevert src h ts) s = .next u ∧ u.upd.act = some a ∧ a.revert = true ∧ a.written = true ∧ a.ty = t ∧ (entOf u t).state = 0 ∧
          (entOf u t).slotB = (!(entOf s t).slotB) ∧ (entOf u t).version = (otherSlot s t).img.version ∧ (entOf u t).floor = (entOf s t).floor ∧
          (activeSlot u t).st = .active ∧ (otherSlot u t).st = .invalid ∧ Records s u .error srcUpd (cChange 8) ∧
          u = { s with upd := u.upd, cul := u.cul, evr := u.evr, out := u.out }) ∧
      ((entOf s t).state ≠ 1 → ∃ u, exec (.commandRevert src h ts) s = .next u ∧ u.upd.slots = s.upd.slots ∧ u.cul = s.cul ∧
        u = { s with upd := u.upd, out := u.out })) ∧
    (∀ c : CallReq, s.dram.wf = true →
      (CallReady s c .safetyEngineer → t = .ur ∨ t = .ci → (otherSlot s t).st = .verified → (entOf s t).floor ≤ (otherSlot s t).img.version → (keyFor s t.keyClass (otherSlot s t).img.sig).isSome = true → actBusy s = false →
        s.glb.state = .run ∨ s.glb.state = .stop →
        ∃ u a, exec (.updActivate c t) s = .next u ∧ u.upd.act = some a ∧ a.ty = t ∧ a.slot = some c.slot ∧ u.upd.slots = s.upd.slots ∧
          (t = .ci → u.ci.shadow = .loading ∧ u.ci.offered = some (otherSlot s .ci).img.ci ∧ u.ci.act = s.ci.act) ∧
          Replies s { s with upd := u.upd, ci := u.ci } u c .deferred) ∧
      (CallReady s c .safetyEngineer → (otherSlot s t).st = .empty → s.upd.act = none → ∃ u, exec (.updActivate c t) s = .next u ∧ u.upd.slots = s.upd.slots ∧
        Answered u c .refusedPolicy ∧ u.fab = s.fab ∧ u.cul = s.cul ∧ u.ci = s.ci) ∧
      (CallReady s c .engineer → (entOf s t).state = 1 → nthD s.upd.trialStart t.idx 0 + 6000 ≤ s.cul.optime.toNat →
        ∃ u, exec (.updConfirm c t) s = .next u ∧ (entOf u t).state = 0 ∧ (entOf u t).floor = (entOf s t).version ∧ activeSlot u t = activeSlot s t ∧
          Records s u .notice srcUpd (cChange 7) ∧ Replies s { s with upd := u.upd, cul := u.cul, evr := u.evr } u c .ok) ∧
      (CallReady s c .engineer → s.cul.optime.toNat < nthD s.upd.trialStart t.idx 0 + 6000 → ∃ u, exec (.updConfirm c t) s = .next u ∧
        Replies s { s with upd := { s.upd with lastStatus := Status.refusedPolicy.code } } u c .refusedPolicy) ∧
      (CallReady s c .maintainer → t = .ur → (entOf s t).state = 1 → actBusy s = false →
        ∃ u, exec (.updRevert c t) s = .next u ∧ (entOf u t).slotB = (!(entOf s t).slotB) ∧ (entOf u t).state = 0 ∧ (entOf u t).floor = (entOf s t).floor ∧
          (otherSlot u t).st = .invalid ∧ Records s u .error srcUpd (cChange 8) ∧ Replies s { s with upd := u.upd, cul := u.cul, evr := u.evr } u c .ok) ∧
      (CallReady s c .maintainer → (entOf s t).state ≠ 1 → ∃ u, exec (.updRevert c t) s = .next u ∧
        Replies s { s with upd := { s.upd with lastStatus := Status.refusedPolicy.code } } u c .refusedPolicy)) ∧
    ((entOf s t).state = 1 → healthy s t = true → s.cul.optime.toNat ≤ s.upd.bootTick + 600 →
      ∃ u, exec (.healthReached t) s = .next u ∧ bit u.cul.cur.bootPending t.idx = false ∧
        (∀ k : ImgType, k ≠ t → bit u.cul.cur.bootPending k.idx = bit s.cul.cur.bootPending k.idx) ∧ u.cul.boot = s.cul.boot ∧
        u = { s with cul := { s.cul with cur := u.cul.cur, counters := u.cul.counters } }) ∧
    ((entOf s t).state ≠ 1 → exec (.healthReached t) s = .next s ∧ exec (.lehrEnd t) s = .next s) ∧
    ((entOf s t).state = 1 → (entOf s t).lehrLeft.toNat ≤ s.cul.optime.toNat - s.upd.lehrTick →
      ∃ u, exec (.lehrEnd t) s = .next u ∧ (entOf u t).state = 0 ∧ (entOf u t).floor = (entOf s t).version ∧ activeSlot u t = activeSlot s t ∧
        Records s u .notice srcUpd (cChange 7) ∧ u = { s with upd := u.upd, cul := u.cul, evr := u.evr }) ∧
    ((entOf s t).state = 1 → s.cul.optime.toNat - s.upd.lehrTick < (entOf s t).lehrLeft.toNat → exec (.lehrEnd t) s = .next s) ∧
    (s.ci.shadow ≠ .loading → exec .shadowLoadDone s = .next s) ∧
    (∀ a, s.ci.shadow = .loading → s.upd.act = some a → inGroup s = false →
      let g := s.ci.offered.getD s.ci.shd
      (validate s g true = none → ∃ u, exec .shadowLoadDone s = .next u ∧ u.ci.shadow = .valid ∧ u.ci.shd = g ∧ u.ci.act = s.ci.act ∧ u.ci.swapDue = true ∧
        u.upd.act = some a ∧ u.ci.cls = BitVec.ofNat 2 (changeClass s g) ∧
        u.ci.swapMcc = (if changeClass s g = 3 then nextMcc s else majorFrom s.ci.act (nextMcc s)) ∧ u.fab = s.fab ∧ u.cyc = s.cyc) ∧
      (∀ r, validate s g true = some r → s.upd.waiting = [] → ∃ u, exec .shadowLoadDone s = .next u ∧ u.ci.shadow = .invalid ∧ u.ci.shd = s.ci.shd ∧ u.ci.act = s.ci.act ∧
        u.upd.act = none ∧ u.upd.lastStatus = r.2.code ∧ (∃ x ∈ u.evr.ring, x.sev = .error) ∧ u.fab = s.fab ∧ u.cyc = s.cyc ∧ u.ci.swapDue = s.ci.swapDue))


/-! ## The safety island (R361 to R400) -/

/-- A safety task's instance that ends in time stages its outputs, a failed coded check none; read back, an output that stands on against its command
forces the safe state, one that stays off latches FAULT_LOW; dark pulses and test pulses latch what they find; a pair's value is 1 only while both
channels show it without a fault; a fault clears in the open state; scrubbing counts. The model's choice, no rule of the manual: when outputs go off
and what clears inputs (log entries 127, 129, 130 and 156). Completes: SAFETY_TASK_END, SO_READBACK, SO_TEST_PULSE, INPUT_TEST_PULSE,
SAFE_INPUT_CHANGE, INPUT_DISCREPANCY_TIMEOUT, INPUT_FAULT_CLEAR, SRAM_SCRUB. -/
def Obligations.SafetyIsland : Prop :=
  ∀ s : State,
    (∀ (k : Fin 32) (r : TaskRec) (i : Instance) (us : Nat) (vars : List CodedVar) (sid : Sid) (v : Word) (q : BitVec 4) (x : SigRec),
      s.glb.inst.find? (fun j => j.task == k.val && !j.complete) = some i → taskRec s.ci.act k.val = some r → r.engine = 1 → s.safe.failSilent = false →
      i.fin = s.cyc.mcc + 1 → inGroup s = false → i.task ≠ s.ci.act.safety.funcTask → sigRec s.ci.act sid = some x → x.writer.toNat = i.task →
      let u := passTo s (releaseTtc s i + BitVec.ofNat 64 (us * 1000))
      let ok := vars.all (fun z => decide (0 < z.sig) && codeValid ((i.rel.toNat : Int) % 65521) z.sig z.lo z.hi z.word.toInt)
      10000 < (s.cyc.timerTtc - u.tb.ttc).toInt →
      (∃ t, exec (.safetyTaskEnd k [(sid, v, q)] us vars true) s = .next t ∧
        t.pim.staging.length = u.pim.staging.length + (if ok then 1 else 0) ∧
        (ok = true → ∃ e ∈ t.pim.staging, e.sid = sid ∧ e.val = rawOf x.t v ∧ e.target = i.fin ∧ e.inst = some (i.task, i.rel)) ∧
        (ok = false → t.safe.codeErr = satInc s.safe.codeErr ∧ t.safe.cause ≠ 0) ∧ (i.task, i.rel) ∈ t.safe.tokens ∧
        t.pim.ring = s.pim.ring ∧ t.fab = s.fab ∧ t.eth = s.eth ∧ t.cyc = s.cyc) ∧
      (∃ t, exec (.safetyTaskEnd k [(sid, v, q)] us vars false) s = .next t ∧ t.pim.staging = u.pim.staging ∧
        (s.pin.powerGood = true → t.safe.failSilent = true ∧ t.safe.canaryLatch = 2))) ∧
    (∀ (k : Fin 32) ws us a b, (∀ i ∈ s.glb.inst, i.task = k.val → i.complete = true) → exec (.safetyTaskEnd k ws us a b) s = .next s) ∧
    (safeIoOn s = true → s.safe.so.length = 2 → s.safe.si.length = 2 →
      (∃ t, exec (.soReadback (nthD s.safe.so 0 {}).cmd (nthD s.safe.so 1 {}).cmd) s = .next t ∧ t.safe.cause = s.safe.cause ∧ t.evr = s.evr ∧
        (∀ n < 2, (nthD t.safe.so n {}).readback = (nthD s.safe.so n {}).cmd ∧ (nthD t.safe.so n {}).cmd = (nthD s.safe.so n {}).cmd ∧
          (nthD t.safe.so n {}).faultHigh = (nthD s.safe.so n {}).faultHigh ∧ (nthD t.safe.so n {}).faultLow = (nthD s.safe.so n {}).faultLow) ∧
        t.fab = s.fab ∧ t.pim = s.pim ∧ t.cyc = s.cyc ∧ t.glb = s.glb) ∧
      (∀ b : Bool, (nthD s.safe.so 0 {}).cmd = false → s.safe.cause = 0 → (nthD s.safe.so 0 {}).faultHigh = false → (nthD s.safe.so 1 {}).cmd = b →
        ∃ t, exec (.soReadback true b) s = .next t ∧ (nthD t.safe.so 0 {}).faultHigh = true ∧ t.safe.cause = 4 ∧ (∀ o ∈ t.safe.so, o.cmd = false) ∧ t.fab = s.fab ∧
          t.cyc = s.cyc) ∧
      (∀ b : Bool, (nthD s.safe.so 0 {}).cmd = true → (nthD s.safe.so 1 {}).cmd = b →
        ∃ t, exec (.soReadback false b) s = .next t ∧ (nthD t.safe.so 0 {}).faultLow = true ∧ (nthD t.safe.so 0 {}).cmd = false ∧
          (nthD t.safe.so 1 {}).cmd = b ∧ t.safe.cause = s.safe.cause ∧ (∃ r ∈ t.evr.ring, r.sev = .safety ∧ r.src = srcSafe ∧ r.code = cFault 0) ∧ t.fab = s.fab) ∧
      (s.safe.soMoved = false → ∃ t, exec (.soTestPulse true true) s = .next t ∧ t.evr = s.evr ∧ t.safe.cause = s.safe.cause ∧
        (∀ n < 2, (nthD t.safe.so n {}).testOk = true ∧ (nthD t.safe.so n {}).switch2 = (!(nthD s.safe.so n {}).switch2) ∧
          (nthD t.safe.so n {}).cmd = (nthD s.safe.so n {}).cmd) ∧ t.fab = s.fab ∧ t.pim = s.pim ∧ t.cyc = s.cyc) ∧
      (s.safe.soMoved = false → s.safe.cause = 0 → (nthD s.safe.so 0 {}).faultHigh = false → ∃ t, exec (.soTestPulse false true) s = .next t ∧
        (nthD t.safe.so 0 {}).faultHigh = true ∧ (nthD t.safe.so 0 {}).testOk = false ∧ t.safe.cause = 4 ∧ (∀ o ∈ t.safe.so, o.cmd = false) ∧ t.fab = s.fab) ∧
      (s.safe.soMoved = true → ∀ a b, exec (.soTestPulse a b) s = .next s) ∧
      (∀ (ch : Fin 4) (v : Bool), ∃ t, exec (.safeInputChange ch v) s = .next t ∧
        (∀ p, nthD t.safe.si (ch.val / 2) {} = p → (if ch.val % 2 = 0 then p.ch1 else p.ch2) = v ∧
          p.fault = (nthD s.safe.si (ch.val / 2) {}).fault ∧
          p.value = (!p.fault && p.ch1 && (if bit s.ci.act.safety.siMode (ch.val / 2) then !p.ch2 else p.ch2))) ∧
        nthD t.safe.si (1 - ch.val / 2) {} = nthD s.safe.si (1 - ch.val / 2) {} ∧ t.safe.so = s.safe.so ∧ t.safe.cause = s.safe.cause ∧
        t.fab = s.fab ∧ t.cyc = s.cyc ∧ t.glb.state = s.glb.state) ∧
      (∀ (t2 : Bool) (p q : SafePair), nthD s.safe.si 0 {} = p → nthD s.safe.si 1 {} = q →
        (if t2 then p.ch2 = true else p.ch1 = true) → p.fault = false → q.ch1 = false → q.ch2 = false →
        ∃ t, exec (.inputTestPulse t2 false false false false) s = .next t ∧ (nthD t.safe.si 0 {}).stuck = true ∧ (nthD t.safe.si 0 {}).fault = true ∧
          (nthD t.safe.si 0 {}).value = false ∧ nthD t.safe.si 1 {} = q ∧ (∃ r ∈ t.evr.ring, r.sev = .safety ∧ r.src = srcSafe ∧ r.code = cFault 0) ∧
          t.safe.so = s.safe.so ∧ t.fab = s.fab ∧ t.cyc = s.cyc) ∧
      (∀ t2 : Bool, (∀ n < 2, (nthD s.safe.si n {}).ch1 = false ∧ (nthD s.safe.si n {}).ch2 = false) →
        exec (.inputTestPulse t2 true true true true) s = .next { s with safe := { s.safe with pulseAt := some s.tb.ttc } }) ∧
      (∀ n : Fin 2, (nthD s.safe.si n.val {}).fault = false →
        (disagree s n.val = true → ∃ t, exec (.inputDiscrepancyTimeout n) s = .next t ∧ (nthD t.safe.si n.val {}).fault = true ∧
          (nthD t.safe.si n.val {}).disc = true ∧ (nthD t.safe.si n.val {}).value = false ∧ nthD t.safe.si (1 - n.val) {} = nthD s.safe.si (1 - n.val) {} ∧
          (∃ r ∈ t.evr.ring, r.sev = .safety ∧ r.src = srcSafe ∧ r.code = cFault 0) ∧ t.safe.so = s.safe.so ∧ t.fab = s.fab) ∧
        (disagree s n.val = false → exec (.inputDiscrepancyTimeout n) s = .next s) ∧ exec (.inputFaultClear n) s = .next s) ∧
      (∀ n : Fin 2, (nthD s.safe.si n.val {}).fault = true → (nthD s.safe.si n.val {}).ch1 = false →
        (nthD s.safe.si n.val {}).ch2 = bit s.ci.act.safety.siMode n.val →
        ∃ t, exec (.inputFaultClear n) s = .next t ∧
          nthD t.safe.si n.val {} = { nthD s.safe.si n.val {} with fault := false, disc := false, stuck := false, cross := false, value := false } ∧
          nthD t.safe.si (1 - n.val) {} = nthD s.safe.si (1 - n.val) {} ∧ (∃ r ∈ t.evr.ring, r.sev = .safety ∧ r.src = srcSafe ∧ r.code = cCleared 0) ∧
          t.safe.so = s.safe.so ∧ t.fab = s.fab) ∧
      (∀ n, exec (.sramScrub n false) s = .next { s with safe := { s.safe with eccCorr := satAdd s.safe.eccCorr n } }) ∧
      (∀ n, s.safe.cause = 0 → ∃ t, exec (.sramScrub n true) s = .next t ∧ t.safe.cause = 5 ∧ (∀ o ∈ t.safe.so, o.cmd = false) ∧
        t.safe.eccCorr = satAdd s.safe.eccCorr n ∧ t.fab = s.fab ∧ t.cyc = s.cyc ∧ t.pim = s.pim)) ∧
    (safeIoOn s = false → ∀ a b : Bool, exec (.soReadback a b) s = .next s ∧ exec (.soTestPulse a b) s = .next s ∧ exec (.safeInputChange 0 a) s = .next s ∧
      exec (.inputTestPulse a b a b a) s = .next s ∧ exec (.inputDiscrepancyTimeout 0) s = .next s ∧ exec (.inputFaultClear 0) s = .next s ∧ exec (.sramScrub 1 a) s = .next s)


/-! ## The replica group (R323 to R360) -/

/-- The links and heartbeats: a trained link passes frames, a lost one is counted and recorded; a frame that fails its CRC is counted and does nothing
else; one for another position is forwarded; credits are taken and returned; heartbeats are sent on both links, noted on the path they came by, judged
once per boundary, and begin formation, return, failure. The model's choice, no rule of the manual: headers of relayed frames (log entry 110).
Completes: GL_LINK_UP, GL_LINK_DOWN, HB_SEND, HB, HB_RELAY, HEARTBEAT_CHECK, FAIL_SILENT_INDICATION, CREDIT, CREDIT_RETURN_TIMER. -/
def Obligations.GroupLinks : Prop :=
  ∀ (s : State) (l : GLink) (h : GlHdr),
    (inGroup s = true → bit s.rst.portHeld l.port.num = false → ∃ t, exec (.glLinkUp l) s = .next t ∧ (t.grp.br l).up = true ∧ (t.grp.br l).wrong = false ∧
      (t.grp.br l).crcRun = 0 ∧ bit t.clk.ok (11 + l.port.num) = true ∧ t.grp.br l.other = s.grp.br l.other ∧ LinksOnly { s with clk := t.clk } t) ∧
    (inGroup s = false → exec (.glLinkUp l) s = .next s) ∧
    ((s.grp.br l).up = true → ∃ t, exec (.glLinkDown l) s = .next t ∧ (t.grp.br l).up = false ∧ (t.grp.br l).downCnt = satInc (s.grp.br l).downCnt ∧
      bit t.clk.ok (11 + l.port.num) = false ∧ t.grp.br l.other = s.grp.br l.other ∧ Records s t .warning l.port.src (cFault 0) ∧
      LinksOnly { s with clk := t.clk, evr := t.evr } t) ∧
    ((s.grp.br l).up = false → exec (.glLinkDown l) s = .next s) ∧
    (∀ p : HbPay, (linkOk s l = false → exec (.credit l h) s = .next s ∧ exec (.hb l h p) s = .next s ∧ exec (.hbRelay l h p) s = .next s ∧
        exec (.failSilentIndication l) s = .next s) ∧
      (linkOk s l = true → h.crcOk = false → (s.grp.br l).crcRun < 16 →
        let u := modBr s l (fun b => { b with crc := satInc b.crc, crcRun := b.crcRun + 1 })
        exec (.credit l h) s = .next u ∧ exec (.hb l h p) s = .next u ∧ exec (.hbRelay l h p) s = .next u) ∧
      (linkOk s l = true → h.crcOk = true → h.listed = true → h.dst ≠ 0 → h.dst ≠ ownPos s → (s.grp.br l).queues.length = 4 → (s.grp.br l.other).queues.length = 4 →
        (∃ t, exec (.credit l h) s = .next t ∧ Relays s t l h .credit) ∧ (∃ t, exec (.hb l h p) s = .next t ∧ Relays s t l h (.hb p)) ∧
        (∃ t, exec (.hbRelay l h p) s = .next t ∧ Relays s t l h (.hbRelay p)))) ∧
    (linkOk s l = true → h.crcOk = true → h.listed = false → (s.grp.br l).queues.length = 4 → ∃ t, exec (.credit l h) s = .next t ∧ LinksOnly s t ∧
      Got s t l h 0 ∧ (t.grp.br l).block = satInc (s.grp.br l).block ∧ t.grp.br l.other = s.grp.br l.other) ∧
    (Hears s l h → ∃ t, exec (.credit l h) s = .next t ∧ LinksOnly s t ∧ Got s t l h 0 ∧ t.grp.br l.other = s.grp.br l.other ∧
      (t.grp.br l).block = (s.grp.br l).block) ∧
    (linkOk s l = true → (∀ q ∈ (s.grp.br l).queues, q = []) → (s.grp.br l).queues.length = 4 →
      ∃ t, exec (.creditReturnTimer l) s = .next t ∧ LinksOnly s t ∧ Sends s t l (peerPos s l) (· == .credit) ∧
        ∀ f ∈ framesOn s t l, f.hdr.cred = (s.grp.br l).freed ∨ 0 < (t.grp.br l).queues.flatten.length) ∧
    ((∃ q ∈ (s.grp.br l).queues, q ≠ []) → exec (.creditReturnTimer l) s = .next s) ∧
    (inGroup s = true → s.cyc.started = true → s.grp.check = none → s.grp.brL.queues.length = 4 → s.grp.brR.queues.length = 4 →
      ∃ t, exec .hbSend s = .next t ∧ LinksOnly (tagged 2 (passTo s (t0 s + 500))) t ∧ ∀ k, linkOk s k = true → Sends s t k (peerPos s k) (fun b => match b with
        | .hb p => p.position == ownPos s && p.role == s.grp.role && p.mcc == s.cyc.mcc && p.bttc == s.cyc.bttc && p.mstate == s.glb.state &&
            p.hash == s.ci.act.hdr.imageHash && p.rotSeq == s.grp.rotSeq && p.epoch == s.cul.cur.epoch && p.observed == s.grp.observedHb && p.rotLeft == s.grp.rotLeft && p.forceGen == s.grp.forceGen && p.latent == s.grp.latent
        | _ => false)) ∧
    (inGroup s = false → exec .hbSend s = .next s ∧ exec .heartbeatCheck s = .next s) ∧
    (∀ p : HbPay, Hears s l h → ownPos s ≠ 0 →
      (p.position ≠ peerPos s l → ∃ t, exec (.hb l h p) s = .next t ∧ (t.grp.br l).wrong = true ∧ Records s t .error l.port.src (cFault 0) ∧
        LinksOnly { s with evr := t.evr } t) ∧
      (p.position = peerPos s l → s.grp.formed = true → s.grp.role.voting = true → p.role.voting = true → (roleAt s.grp.roles p.position).voting = true →
        p.hash = s.ci.act.hdr.imageHash → s.grp.check = none → bit s.grp.latent (p.position - 1) = false →
        (∀ q, (s.grp.peer l).hb = some q → q.epoch = p.epoch) →
        (p.role ≠ .active → ∃ t, exec (.hb l h p) s = .next t ∧ Got s t l h 0 ∧
          (linkOk s l.other = true → ∃ f ∈ framesOn s t l.other, f.body = .hbRelay p ∧ f.hdr.relayed = true) ∧
          LinksOnly { s with grp := s.grp.modPeer l (fun x => { x with hb := some p, observed := p.observed, direct := some p.mcc, hashNoted := (t.grp.peer l).hashNoted }) } t) ∧
        (p.role = .active → s.grp.role ≠ .active → (s.grp.peer l).direct ≠ some p.mcc → (s.grp.peer l).relayed ≠ some p.mcc → p.mcc = s.cyc.mcc → (skewTo s p).natAbs ≤ 10000 → s.cyc.refPresent = true → s.cyc.syncLost = false →
          ∃ t, exec (.hb l h p) s = .next t ∧ t.grp.skew = skewTo s p ∧ t.grp.skewRun = 0 ∧ t.grp.rotLeft = p.rotLeft ∧ t.grp.activeRef = true ∧
            (t.grp.peer l).hb = some p ∧ t.grp.peer l.other = s.grp.peer l.other ∧ t.grp.roles = s.grp.roles ∧ t.evr = s.evr ∧ t.cyc = s.cyc ∧ t.glb = s.glb ∧
            t.fab = s.fab ∧ t.pim = s.pim)) ∧
      (p.position = peerPos s l.other → s.grp.formed = true → s.grp.role.voting = true → p.role.voting = true → p.role ≠ .active →
        (roleAt s.grp.roles p.position).voting = true → p.hash = s.ci.act.hdr.imageHash → s.grp.check = none → bit s.grp.latent (p.position - 1) = false →
        (∀ q, (s.grp.peer l.other).hb = some q → q.epoch = p.epoch) →
        ∃ t, exec (.hbRelay l h p) s = .next t ∧ Got s t l h 0 ∧
          LinksOnly { s with grp := s.grp.modPeer l.other (fun x => { x with hb := some p, observed := p.observed, relayed := some p.mcc, hashNoted := (t.grp.peer l.other).hashNoted }) } t) ∧
      (p.position ≠ peerPos s l.other → ∃ t, exec (.hbRelay l h p) s = .next t ∧ LinksOnly s t ∧ Got s t l h 0) ∧
      (p.position = peerPos s l → s.grp.formed = false → joinable s = true → hbMatches s p = true → p.gstate = .forming → ownPos s < p.position →
        (s.grp.peer l).hb = none → (s.grp.peer l).adoptSent = false → (s.grp.peer l.other).hb = none →
        ∃ t, exec (.hb l h p) s = .next t ∧ (t.grp.peer l).adoptSent = true ∧ Sends s t l p.position (fun b => match b with
          | .order .adoptMcc o => o.arg == s.cyc.mcc + 16 && o.target == s.cyc.mcc + 16 && o.issuer == ownPos s && o.subject == p.position
          | _ => false) ∧ t.fab = s.fab ∧ t.cyc = s.cyc ∧ t.glb = s.glb ∧ t.pim = s.pim ∧ t.evr = s.evr) ∧
      (p.position = peerPos s l → s.grp.role = .out → p.role = .standby → p.gstate = .nominal → joinable s = true → hbMatches s p = true →
        s.grp.outForGood = false → s.grp.xferAsked = false → s.grp.outDue = false →
        ∃ t, exec (.hb l h p) s = .next t ∧ t.grp.xferAsked = true ∧ Sends s t l p.position (· == .xferReq s.tk.fuses.serial) ∧
          t.grp.role = .out ∧ t.fab = s.fab ∧ t.cyc = s.cyc ∧ t.glb = s.glb ∧ t.pim = s.pim)) ∧
    (inGroup s = true → s.cyc.started = false → exec .heartbeatCheck s = .next s) ∧
    (inGroup s = true → s.cyc.started = true → s.grp.formed = false →
      let u := passTo s (t0 s + 30000)
      ∃ t, exec .heartbeatCheck s = .next t ∧
        t = { u with grp := { s.grp with peerL := t.grp.peerL, peerR := t.grp.peerR, brL := t.grp.brL, brR := t.grp.brR }, pmu := t.pmu } ∧
        ∀ k, (t.grp.br k).missDirect = (if (s.grp.peer k).direct = some s.cyc.mcc then (s.grp.br k).missDirect else satInc (s.grp.br k).missDirect) ∧
          (t.grp.br k.other).missRelayed =
            (if (s.grp.peer k).relayed = some s.cyc.mcc then (s.grp.br k.other).missRelayed else satInc (s.grp.br k.other).missRelayed) ∧
          (t.grp.peer k).misses = (if (s.grp.peer k).direct = some s.cyc.mcc ∨ (s.grp.peer k).relayed = some s.cyc.mcc then 0 else (s.grp.peer k).misses + 1)) ∧
    (inGroup s = true → s.cyc.started = true → s.grp.formed = true → s.grp.role.voting = true → s.grp.peerL.failSilent = false → s.grp.peerR.failSilent = false →
      0 < s.ci.act.group.nMiss →
      let u := passTo s (t0 s + 30000)
      (s.grp.peerL.direct = some s.cyc.mcc → s.grp.peerL.relayed = some s.cyc.mcc → s.grp.peerR.direct = some s.cyc.mcc → s.grp.peerR.relayed = some s.cyc.mcc →
        ∃ t, exec .heartbeatCheck s = .next t ∧ t = { u with grp := { s.grp with
          peerL := { s.grp.peerL with misses := 0 }, peerR := { s.grp.peerR with misses := 0 } } }) ∧
      ((s.grp.peer l).direct ≠ some s.cyc.mcc → (s.grp.peer l).relayed ≠ some s.cyc.mcc →
        (s.grp.peer l.other).direct = some s.cyc.mcc → (s.grp.peer l.other).relayed = some s.cyc.mcc →
        ((s.grp.peer l).misses + 1 < s.ci.act.group.nMiss → ∃ t, exec .heartbeatCheck s = .next t ∧
          (t.grp.peer l).misses = (s.grp.peer l).misses + 1 ∧ (t.grp.br l).missDirect = satInc (s.grp.br l).missDirect ∧
          (t.grp.br l.other).missRelayed = satInc (s.grp.br l.other).missRelayed ∧ (t.grp.peer l.other).misses = 0 ∧ t.grp.due = s.grp.due ∧
          t = { u with grp := { s.grp with peerL := t.grp.peerL, peerR := t.grp.peerR, brL := t.grp.brL, brR := t.grp.brR }, pmu := t.pmu, out := t.out }) ∧
        (s.ci.act.group.nMiss = (s.grp.peer l).misses + 1 → mayDeclare s (peerPos s l) false = true → s.grp.due = none → s.grp.check = none →
          ∃ t, exec .heartbeatCheck s = .next t ∧ (t.grp.peer l).lost = true ∧ t.grp.roles = s.grp.roles ∧ t.grp.role = s.grp.role ∧
            (∀ d, t.grp.due = some d → d.at_ = boundaryAfter u 5000 ∧ roleAt d.roles (peerPos s l) = .out ∧
              d.takeover = (roleAt s.grp.roles (peerPos s l) == .active)) ∧ t.grp.due.isSome = true ∧
            t.fab = s.fab ∧ t.cyc = s.cyc ∧ t.glb = s.glb ∧ t.pim = s.pim ∧ t.safe = s.safe))) ∧
    (linkOk s l = true → ownPos s ≠ 0 → ∃ t, exec (.failSilentIndication l) s = .next t ∧ (t.grp.peer l).failSilent = true ∧ (t.grp.peer l).lost = true ∧
      (linkOk s l.other = true → (s.grp.br l.other).queues.length = 4 → Sends s t l.other (peerPos s l.other) (fun b => match b with
        | .order .exclude o => o.subject == peerPos s l && o.arg == 0xFFFFFFFF
        | _ => false)) ∧
      (mayDeclare s (peerPos s l) true = true → s.grp.due = none → s.grp.check = none → (s.grp.peer l.other).failSilent = false →
        t.grp.due.isSome = true ∧ ∀ d, t.grp.due = some d → roleAt d.roles (peerPos s l) = .out ∧ d.at_ = boundaryAfter s 5000) ∧
      (s.grp.check = none → t.grp.roles = s.grp.roles) ∧ t.grp.role = s.grp.role ∧ t.fab = s.fab ∧ t.cyc = s.cyc ∧ t.glb = s.glb ∧ t.pim = s.pim ∧ t.safe = s.safe)

/-- Orders and targets: an order is acknowledged and its roles, count or exclusion wait for its boundary; a target is held until its boundary, and the
calls that waited for it end; the ends of formation, probation, rotation and the drive check. The model's choice, no rule of the manual: how a call
reaches the ACTIVE and who declares (log entries 109, 113 and 114). Completes: ORDER_TAKEOVER, ORDER_EXCLUDE, ORDER_ADOPT_MCC, ORDER_ROLES, ACK,
TARGET_MODE_COMMAND, TARGET_FORCE_CHANGE, TARGET_TIME_STEP, TARGET_ROLE_SWAP, TARGET_MAINT_ENTER, TARGET_MAINT_LEAVE, FORMING_TIMEOUT, PROBATION_END,
ROTATION_MINUTE, DRIVE_CHECK. -/
def Obligations.GroupOrders : Prop :=
  ∀ (s : State) (l : GLink) (h : GlHdr),
    (∀ (o : OrderMsg) (st : Status) (m : Mcc) (id : Reg32) (cause : Nat) (key : BitVec 128), (linkOk s l = false →
        exec (.orderTakeover l h o) s = .next s ∧ exec (.orderExclude l h o) s = .next s ∧ exec (.orderAdoptMcc l h o) s = .next s ∧
        exec (.orderRoles l h o) s = .next s ∧ exec (.ack l h 5 id st) s = .next s ∧ exec (.targetModeCommand l h m (.mode .hold)) s = .next s ∧
        exec (.targetForceChange l h m []) s = .next s ∧ exec (.targetTimeStep l h ⟨m, cause, key⟩) s = .next s ∧ exec (.targetRoleSwap l h m) s = .next s ∧
        exec (.targetMaintEnter l h m) s = .next s ∧ exec (.targetMaintLeave l h m) s = .next s) ∧
      (linkOk s l = true → h.crcOk = true → h.listed = true → h.dst ≠ 0 → h.dst ≠ ownPos s → (s.grp.br l).queues.length = 4 → (s.grp.br l.other).queues.length = 4 →
        (∃ t, exec (.orderTakeover l h o) s = .next t ∧ Relays s t l h (.order .takeover o)) ∧
        (∃ t, exec (.orderExclude l h o) s = .next t ∧ Relays s t l h (.order .exclude o)) ∧
        (∃ t, exec (.orderAdoptMcc l h o) s = .next t ∧ Relays s t l h (.order .adoptMcc o)) ∧
        (∃ t, exec (.orderRoles l h o) s = .next t ∧ Relays s t l h (.order .roles o)) ∧
        (∃ t, exec (.ack l h 5 id st) s = .next t ∧ RelaysAck s t l h 5 id st) ∧
        (∃ t, exec (.targetRoleSwap l h m) s = .next t ∧ Relays s t l h (.target m .roleSwap)))) ∧
    (Hears s l h → ownPos s ≠ 0 → h.src = peerPos s l →
      (∀ o : OrderMsg, o.arg ≠ 0xFFFFFFFF → o.subject ≠ 0 → s.grp.check = none → s.grp.due = none →
        (∃ t, exec (.orderTakeover l h o) s = .next t ∧ Got s t l h 0 ∧ t.grp.swapDue = none ∧ t.grp.roles = s.grp.roles ∧ t.grp.role = s.grp.role ∧
          t.grp.due = some { at_ := o.target, roles := orderRoles s.grp.roles o, takeover := true, repeat_ := releasePassed s } ∧
          Sends s t l h.src (· == .ack 3 h.id .ok) ∧ t.fab = s.fab ∧ t.cyc = s.cyc ∧ t.glb = s.glb ∧ t.pim = s.pim ∧ t.safe = s.safe ∧
          (o.subject = ownPos s → LinksOnly { s with grp := { s.grp with due := t.grp.due, swapDue := none } } t)) ∧
        (∃ t, exec (.orderExclude l h o) s = .next t ∧ Got s t l h 0 ∧ t.grp.swapDue = none ∧ t.grp.roles = s.grp.roles ∧ t.grp.role = s.grp.role ∧
          t.grp.due = some { at_ := o.target, roles := orderRoles s.grp.roles o } ∧
          Sends s t l h.src (· == .ack 3 h.id .ok) ∧ t.fab = s.fab ∧ t.cyc = s.cyc ∧ t.glb = s.glb ∧ t.pim = s.pim ∧ t.safe = s.safe ∧
          (o.subject = ownPos s → LinksOnly { s with grp := { s.grp with due := t.grp.due, swapDue := none } } t))) ∧
      (∀ o : OrderMsg, o.arg = 0xFFFFFFFF → o.subject = ownPos s → ∃ t, exec (.orderExclude l h o) s = .next t ∧ LinksOnly s t ∧ Got s t l h 0) ∧
      (∀ o : OrderMsg, s.grp.formed = false →
        ((∃ x ∈ matchedHb s, x.position = o.issuer) → ∃ t, exec (.orderAdoptMcc l h o) s = .next t ∧
          LinksOnly { s with grp := { s.grp with adoptDue := some (s.cyc.mcc + 16, o.arg) } } t ∧ Got s t l h 0 ∧ Sends s t l h.src (· == .ack 3 h.id .ok)) ∧
        ((∀ x ∈ matchedHb s, x.position ≠ o.issuer) → ∃ t, exec (.orderAdoptMcc l h o) s = .next t ∧ LinksOnly s t ∧ Got s t l h 0 ∧
          Sends s t l h.src (· == .ack 3 h.id .refusedPolicy))) ∧
      (∀ o : OrderMsg,
        (o.subject = ownPos s → s.grp.xferAsked = true → ∃ t, exec (.orderRoles l h o) s = .next t ∧
          LinksOnly { s with grp := { s.grp with due := t.grp.due } } t ∧ Got s t l h 0 ∧ Sends s t l h.src (· == .ack 3 h.id .ok) ∧
          ∀ d, t.grp.due = some d → d.at_ = o.target ∧ (s.grp.roles.length = 3 → roleAt d.roles (ownPos s) = .probation)) ∧
        (o.subject ≠ ownPos s ∨ s.grp.xferAsked = false → ∃ t, exec (.orderRoles l h o) s = .next t ∧ LinksOnly s t ∧ Got s t l h 0 ∧
          Sends s t l h.src (· == .ack 3 h.id .ok))) ∧
      (∀ (type : Nat) (id : Reg32) (st : Status), type ≠ 5 ∨ s.grp.role = .active → ∃ t, exec (.ack l h type id st) s = .next t ∧ LinksOnly s t ∧ Got s t l h 0) ∧
      (∀ (id : Reg32) (st : Status), s.grp.role ≠ .active → st ≠ .deferred → st ≠ .ok → s.tk.slots.length = 8 → ∃ t, exec (.ack l h 5 id st) s = .next t ∧
        (∀ n < 8, ackEnds (nthD s.tk.slots n {}) id st = true → (nthD t.tk.slots n {}).busy = false ∧ (nthD t.tk.slots n {}).done = true ∧
          (nthD t.tk.slots n {}).status = st.code) ∧
        (∀ n < 8, ackEnds (nthD s.tk.slots n {}) id st = false → nthD t.tk.slots n {} = nthD s.tk.slots n {}) ∧
        LinksOnly { s with tk := { s.tk with slots := t.tk.slots }, dram := t.dram } t) ∧
      (∀ m : Mcc, s.grp.role ≠ .active → (∀ n < 8, (nthD s.tk.slots n {}).busy = false) →
        (∀ c : ModeCmd, c ≠ .dormant → ∃ t, exec (.targetModeCommand l h m (.mode c)) s = .next t ∧ Got s t l h 0 ∧ Sends s t l h.src (· == .ack 5 h.id .ok) ∧
          LinksOnly { s with glb := { s.glb with pendCmd := some c, tgtMcc := m }, rst := { s.rst with dormantPending := false } } t) ∧
        (∃ t, exec (.targetModeCommand l h m .safeAck) s = .next t ∧ LinksOnly { s with safe := { s.safe with ackDue := some m } } t) ∧
        (∀ p : Nat, ∃ t, exec (.targetModeCommand l h m (.clearLatent p)) s = .next t ∧ LinksOnly { s with grp := { s.grp with latentDue := some (m, p) } } t) ∧
        (∀ c : ForceCmd, ∃ t, exec (.targetForceChange l h m [c]) s = .next t ∧ Got s t l h 0 ∧ Sends s t l h.src (· == .ack 5 h.id .ok) ∧
          LinksOnly { s with glb := { s.glb with forceCmds := s.glb.forceCmds.filter (fun x => x.sid != c.sid) ++ [{ c with eff := m }] } } t) ∧
        (∀ (cause : Nat) (key : BitVec 128), ∃ t, exec (.targetTimeStep l h ⟨m, cause, key⟩) s = .next t ∧ Got s t l h 0 ∧
          Sends s t l h.src (· == .ack 5 h.id .ok) ∧
          LinksOnly { s with tb := { s.tb with
            stepDue := some { target := m - countAhead s, refusedCase := cause, keyId := key }, acceptPending := s.tb.acceptPending || cause == 1 } } t) ∧
        (∃ t, exec (.targetRoleSwap l h m) s = .next t ∧ Got s t l h 0 ∧ Sends s t l h.src (· == .ack 5 h.id .ok) ∧
          LinksOnly { s with grp := { s.grp with swapDue := some m } } t) ∧
        (∃ t, exec (.targetMaintEnter l h m) s = .next t ∧ Got s t l h 0 ∧ Sends s t l h.src (· == .ack 5 h.id .ok) ∧
          LinksOnly { s with grp := { s.grp with maintDue := some (m, true) } } t) ∧
        (∃ t, exec (.targetMaintLeave l h m) s = .next t ∧ Got s t l h 0 ∧ Sends s t l h.src (· == .ack 5 h.id .ok) ∧
          LinksOnly { s with grp := { s.grp with maintDue := some (m, false) } } t)) ∧
      (s.grp.role = .active → (s.grp.state = .nominal → (∃ t, exec (.targetRoleSwap l h 0) s = .next t ∧
            LinksOnly (tagged 2 { s with grp := { s.grp with swapDue := some (swapTarget s) } }) t ∧ Sends s t l h.src (· == .target (swapTarget s) .roleSwap) ∧
            Sends s t l h.src (· == .ack 5 h.id .ok)) ∧
          (∃ t, exec (.targetMaintEnter l h 0) s = .next t ∧ LinksOnly (tagged 2 { s with grp := { s.grp with maintDue := some (groupTarget s, true) } }) t ∧
            Sends s t l h.src (· == .target (groupTarget s) .maintEnter))) ∧
        (s.grp.state ≠ .nominal → ∃ t, exec (.targetMaintEnter l h 0) s = .next t ∧ LinksOnly s t ∧ Sends s t l h.src (· == .ack 5 h.id .refusedPolicy)))) ∧
    (∀ z, s.grp.firstOp = some z → inGroup s = true → s.grp.formed = false → z + 100 ≤ s.cul.optime.toNat →
      exec .formingTimeout s = .next { s with grp := { s.grp with formTimeout := true } }) ∧
    (inGroup s = false ∨ s.grp.formed = true ∨ s.grp.firstOp = none → exec .formingTimeout s = .next s) ∧
    (∀ z, s.grp.firstOp = some z → s.cul.optime.toNat < z + 100 → exec .formingTimeout s = .next s) ∧
    (ownPos s ≠ 0 → s.grp.probLeft ≠ 0 → exec (.probationEnd (ownPos s)) s = .next s) ∧
    (∀ p : Nat, inGroup s = true → s.grp.formed = true → roleAt s.grp.roles p = .probation → bit s.grp.latent (p - 1) = false →
      p ≠ ownPos s ∨ s.grp.probLeft = 0 →
      (s.grp.state = .maintenance ∨ s.grp.due.isSome = true ∨ s.grp.swapDue.isSome = true → ∃ t, exec (.probationEnd p) s = .next t ∧ p ∈ t.grp.probWait ∧
        t = { s with grp := { s.grp with probWait := t.grp.probWait, probLeft := t.grp.probLeft } }) ∧
      (s.grp.state ≠ .maintenance → s.grp.due = none → s.grp.swapDue = none → ∃ t, exec (.probationEnd p) s = .next t ∧
        (∃ d, t.grp.due = some d ∧ d.at_ = majorFrom s.ci.act (nextMcc s) ∧
          d.roles = assignRoles s.grp.rotSeq s.grp.latent (p :: voters s.grp.roles) s.grp.roles) ∧
        t = { s with grp := { s.grp with due := t.grp.due, probLeft := t.grp.probLeft } })) ∧
    (∀ p : Nat, roleAt s.grp.roles p ≠ .probation → exec (.probationEnd p) s = .next s) ∧
    (s.grp.formed = true → s.grp.state = .nominal ∨ s.grp.state = .degraded2 → s.tk.running = true → s.glb.state ≠ .dormant →
      ((2 ≤ s.grp.rotLeft.toNat ∨ s.grp.role ≠ .active ∨ s.grp.swapDue.isSome = true) → ∃ t, exec .rotationMinute s = .next t ∧
        t.grp.rotLeft.toNat = s.grp.rotLeft.toNat - 1 ∧ t = { s with grp := { s.grp with rotLeft := t.grp.rotLeft } }) ∧
      (s.grp.rotLeft.toNat ≤ 1 → s.grp.role = .active → s.grp.swapDue = none → ∃ t, exec .rotationMinute s = .next t ∧ t.grp.rotLeft = 0 ∧
        t.grp.swapDue = some (swapTarget s) ∧ (linkOk s l = true → ownPos s ≠ 0 → s.grp.brL.queues.length = 4 → s.grp.brR.queues.length = 4 →
          Sends s t l (peerPos s l) (· == .target (swapTarget s) .roleSwap)) ∧
        LinksOnly (tagged 2 { s with grp := { s.grp with rotLeft := 0, swapDue := some (swapTarget s) } }) t)) ∧
    (s.grp.formed = false ∨ s.grp.state = .maintenance ∨ s.grp.state = .single ∨ s.tk.running = false ∨ s.glb.state = .dormant → exec .rotationMinute s = .next s) ∧
    (s.grp.check = none → exec .driveCheck s = .next s) ∧
    (∀ c, s.grp.check = some c → before s.cyc.mcc (c.at_ + BitVec.ofNat 32 (checkWindow s.ci.act)) = true → exec .driveCheck s = .next s) ∧
    (∀ c, s.grp.check = some c → before s.cyc.mcc (c.at_ + BitVec.ofNat 32 (checkWindow s.ci.act)) = false →
      (transmitPorts s.ci.act &&& ~~~c.seen = 0 → exec .driveCheck s = .next { s with grp := { s.grp with check := none } }) ∧
      (transmitPorts s.ci.act &&& ~~~c.seen ≠ 0 → ∃ t, exec .driveCheck s = .next t ∧ t.grp.check = none ∧ t.grp.rotSeq = c.oldSeq ∧ t.grp.roles = s.grp.roles ∧
        (∃ d, t.grp.due = some d ∧ d.at_ = nextMcc s ∧ d.marked = activePos s ∧ d.undo = true ∧
          d.roles = assignRoles c.oldSeq (setBit s.grp.latent (activePos s - 1)) (voters c.oldRoles) c.oldRoles) ∧
        (activePos s = ownPos s → Records s t .error srcGrp (cFault 0)) ∧
        t = { s with grp := { s.grp with check := none, rotSeq := c.oldSeq, due := t.grp.due }, evr := t.evr }))


/-- Agreement, votes, the common swap, the return and remote access: deltas gather and the majority's content enters the image; votes are sent,
counted only in time and decided by majority, else the safe state; a proposal is answered, committed once all accept, or aborted; a returning member
gets the transfer set; requests over a link are answered, answers end their tags. The model's choice, no rule of the manual: kinds in a delta, votes
in PROBATION and frames of a transfer (log entries 116, 117 and 120). Completes: PROPOSE, ACCEPT, COMMIT, ABORT, DELTA, DELTA_END, INPUT_AGREEMENT,
VOTE_SEND, VOTE, VOTE_DECIDE, MIRROR, RD_REQ, WR_REQ, SEM_ACQ_FRAME, SEM_REL_FRAME, DOORBELL, XFER_REQ, RD_RSP, WR_RSP, SEM_RSP, RETRY, XFER_DATA. -/
def Obligations.GroupAgreement : Prop :=
  ∀ (s : State) (l : GLink) (h : GlHdr) (x : Hash) (m : Mcc) (st : Status),
    (linkOk s l = false → ∀ (n : Nat), exec (.propose (some (l, h, x, m))) s = .next s ∧ exec (.accept l h x st) s = .next s ∧ exec (.commit l h x m) s = .next s ∧
      exec (.abort (some (l, h, x))) s = .next s ∧ exec (.delta l h []) s = .next s ∧ exec (.deltaEnd l h n n) s = .next s ∧ exec (.vote l h []) s = .next s ∧
      exec (.mirror l h []) s = .next s ∧ exec (.xferReq l h 0) s = .next s ∧ exec (.xferData l h n (.forces [])) s = .next s ∧ exec (.rdReq l h n n n) s = .next s ∧
      exec (.wrReq l h n n true []) s = .next s ∧ exec (.semAcqFrame l h n n n) s = .next s ∧ exec (.semRelFrame l h n) s = .next s ∧ exec (.doorbell l h 1) s = .next s ∧
      exec (.rdRsp l h st []) s = .next s ∧ exec (.wrRsp l h st) s = .next s ∧ exec (.semRsp l h st) s = .next s ∧ exec (.retry l h) s = .next s) ∧
    (ciActive s = true → s.grp.role = .active → s.grp.formed = true → s.ci.shadow = .valid → s.ci.swap = .idle ∨ s.ci.swap = .aborted → s.ci.aborts < 3 → s.ci.cls ≠ 3 →
      (voters s.grp.roles = [ownPos s] → ownPos s ≠ 0 → ∃ t, exec (.propose none) s = .next t ∧ t.ci = { s.ci with swap := .committed, swapMcc := proposeTarget s, swapDue := true } ∧
        t.fab = s.fab ∧ t.cyc = s.cyc ∧ t.glb = s.glb ∧ t.pim = s.pim ∧ t.evr = s.evr) ∧
      ((roleAt s.grp.roles (peerPos s l)).voting = true → ownPos s ≠ 0 → ∃ t, exec (.propose none) s = .next t ∧ t.ci = { s.ci with swap := .proposed, swapMcc := proposeTarget s } ∧
        t.grp.swap = some { hash := s.ci.shd.hdr.imageHash, target := proposeTarget s } ∧ (∀ k, (t.grp.peer k).accepted = false) ∧
        (linkOk s l = true → s.grp.brL.queues.length = 4 → s.grp.brR.queues.length = 4 → Sends s t l (peerPos s l) (· == .propose s.ci.shd.hdr.imageHash (proposeTarget s))) ∧
        t.fab = s.fab ∧ t.cyc = s.cyc ∧ t.glb = s.glb ∧ t.pim = s.pim ∧ t.evr = s.evr)) ∧
    (ciActive s = false ∨ s.grp.role ≠ .active ∨ s.ci.shadow ≠ .valid ∨ s.ci.swap = .proposed → exec (.propose none) s = .next s) ∧
    (∀ r, s.grp.swap = some r → s.grp.role = .active → r.committed = false → s.ci.aborts < 2 → ∃ t, exec (.abort none) s = .next t ∧
      LinksOnly (tagged 4 { s with grp := { s.grp with swap := none }, ci := { s.ci with swap := .aborted, aborts := s.ci.aborts + 1 } }) t ∧
      (linkOk s l = true → (s.grp.br l).queues.length = 4 → Sends s t l (peerPos s l) (· == .abort r.hash))) ∧
    (∀ r a, s.grp.swap = some r → s.grp.role = .active → r.committed = false → 2 ≤ s.ci.aborts → s.upd.act = some a → a.ty = .ci → s.upd.waiting = [] →
      ∃ t, exec (.abort none) s = .next t ∧ t.ci = { s.ci with swap := .aborted, aborts := 0 } ∧ t.grp.swap = none ∧ t.upd.act = none ∧
        Records s t .warning srcGlb (cFailed .timeout) ∧ t.fab = s.fab ∧ t.cyc = s.cyc ∧ t.pim = s.pim) ∧
    (s.grp.swap = none → exec (.abort none) s = .next s) ∧
    (Hears s l h → ownPos s ≠ 0 → h.src = peerPos s l →
      (∃ t, exec (.propose (some (l, h, x, m))) s = .next t ∧ Got s t l h 0 ∧ Sends s t l h.src (· == .accept x (proposeAnswer s x)) ∧
        (s.ci.shadow = .valid → s.ci.shd.hdr.imageHash = x → proposeAnswer s x = .ok) ∧ (shadowHash s ≠ x → proposeAnswer s x = .refusedPolicy) ∧
        (shadowHash s = x → s.ci.shadow = .loading → proposeAnswer s x = .deferred) ∧
        (proposeAnswer s x = .ok →
          LinksOnly (tagged 1 { s with grp := { s.grp with swap := some { hash := x, target := m } }, ci := { s.ci with swap := .proposed, swapMcc := m } }) t) ∧
        (proposeAnswer s x = .deferred → LinksOnly (tagged 1 { s with grp := { s.grp with swap := some { hash := x, target := m } } }) t) ∧
        (proposeAnswer s x ≠ .ok → proposeAnswer s x ≠ .deferred → LinksOnly (tagged 1 s) t)) ∧
      (s.ci.shd.hdr.imageHash = x → s.ci.shadow = .valid → 1000000 ≤ nsToMcc s m → ∃ t, exec (.commit l h x m) s = .next t ∧ Got s t l h 0 ∧
        LinksOnly { s with grp := { s.grp with swap := some { hash := x, target := m, committed := true, inTime := true } },
                           ci := { s.ci with swap := .committed, swapMcc := m, swapDue := true } } t) ∧
      (nsToMcc s m < 1000000 → ∃ t, exec (.commit l h x m) s = .next t ∧ Got s t l h 0 ∧ LinksOnly s t) ∧
      (∀ r, s.grp.swap = some r → r.hash = x → r.committed = false →
        (s.ci.aborts < 2 → ∃ t, exec (.abort (some (l, h, x))) s = .next t ∧ Got s t l h 0 ∧
          LinksOnly { s with grp := { s.grp with swap := none }, ci := { s.ci with swap := .aborted, aborts := s.ci.aborts + 1 } } t) ∧
        (∀ a, 2 ≤ s.ci.aborts → s.upd.act = some a → a.ty = .ci → s.upd.waiting = [] → ∃ t, exec (.abort (some (l, h, x))) s = .next t ∧
          t.ci = { s.ci with swap := .aborted, aborts := 0 } ∧ t.grp.swap = none ∧ t.upd.act = none ∧
          Records s t .warning srcGlb (cFailed .timeout) ∧ t.fab = s.fab ∧ t.cyc = s.cyc ∧ t.pim = s.pim)) ∧
      (∀ r, s.grp.swap = some r → s.grp.role = .active → r.committed = false → r.hash = x → st = .ok → s.ci.swap = .proposed →
        ((roleAt s.grp.roles (peerPos s l.other)).voting = true → (s.grp.peer l.other).accepted = false → ∃ t, exec (.accept l h x st) s = .next t ∧ Got s t l h 0 ∧
          LinksOnly { s with grp := s.grp.modPeer l (fun p => { p with accepted := true }) } t) ∧
        ((roleAt s.grp.roles (peerPos s l.other)).voting = false → 10000000 ≤ nsToMcc s r.target → ∃ t, exec (.accept l h x st) s = .next t ∧ Got s t l h 0 ∧
          Sends s t l h.src (· == .commit x r.target) ∧ t.ci = { s.ci with swap := .committed, swapMcc := r.target, swapDue := true } ∧
          t.grp.swap = some { r with committed := true, inTime := true } ∧ t.fab = s.fab ∧ t.cyc = s.cyc ∧ t.glb = s.glb ∧ t.pim = s.pim)) ∧
      (s.grp.role ≠ .active ∨ st ≠ .ok → ∃ t, exec (.accept l h x st) s = .next t ∧ Got s t l h 0 ∧ LinksOnly s t) ∧
      (∀ es : List DeltaEnt, ((s.grp.peer l).deltaMcc = h.mcc → ∃ t, exec (.delta l h es) s = .next t ∧ Got s t l h 1 ∧
          LinksOnly { s with grp := s.grp.modPeer l (fun p => { p with delta := p.delta ++ es, frames := p.frames + 1 }) } t) ∧
        ((s.grp.peer l).deltaMcc ≠ h.mcc → ∃ t, exec (.delta l h es) s = .next t ∧ Got s t l h 1 ∧
          LinksOnly { s with grp := s.grp.modPeer l (fun p => { p with deltaMcc := h.mcc, delta := es, frames := 1, deltaEnd := none }) } t)) ∧
      (∀ n k : Nat, h.mcc = s.cyc.mcc → atOrBefore s.tb.ttc (t0 s + 28000) = false → ∃ t, exec (.deltaEnd l h n k) s = .next t ∧ Got s t l h 1 ∧ LinksOnly s t) ∧
      (∀ n k : Nat, (s.grp.peer l).deltaMcc = h.mcc → h.mcc ≠ s.cyc.mcc ∨ atOrBefore s.tb.ttc (t0 s + 28000) = true →
        ∃ t, exec (.deltaEnd l h n k) s = .next t ∧ Got s t l h 1 ∧
        LinksOnly { s with grp := s.grp.modPeer l (fun p => { p with deltaEnd := some (n, k) }) } t) ∧
      (∀ es : List VoteEnt, (30000 ≤ nsToBoundary s → (s.grp.peer l).votesMcc ≠ h.mcc → ∃ t, exec (.vote l h es) s = .next t ∧ Got s t l h 1 ∧
          LinksOnly { s with grp := s.grp.modPeer l (fun p => { p with votes := some es, votesMcc := h.mcc }) } t) ∧
        (∀ vs, 30000 ≤ nsToBoundary s → (s.grp.peer l).votesMcc = h.mcc → (s.grp.peer l).votes = some vs → ∃ t, exec (.vote l h es) s = .next t ∧ Got s t l h 1 ∧
          LinksOnly { s with grp := s.grp.modPeer l (fun p => { p with votes := some (vs ++ es), votesMcc := h.mcc }) } t) ∧
        (nsToBoundary s < 30000 → ∃ t, exec (.vote l h es) s = .next t ∧ Got s t l h 1 ∧ LinksOnly s t)) ∧
      (∀ es : List DeltaEnt, (s.grp.mirror = none → ∃ t, exec (.mirror l h es) s = .next t ∧ Got s t l h 1 ∧ LinksOnly s t) ∧
        (∀ r, s.grp.mirror = some r → ∃ t r', exec (.mirror l h es) s = .next t ∧ Got s t l h 1 ∧ t.grp.mirror = some r' ∧
          r'.at_ = r.at_ ∧ r'.buf = r.buf ∧ r'.words = r.words ∧ r'.left = r.left ∧ (h.src ≠ activePos s → r'.got = r.got) ∧
          (∀ d ∈ r'.diff, d ∈ r.diff ∨ (d.1 = h.src ∧ ∃ b ∈ r.buf, b.1 = d.2.1 ∧ b ≠ d.2)) ∧
          (∀ x ∈ mirrorDiff s.ci.act r es, (h.src, x) ∈ r'.diff) ∧
          LinksOnly { s with grp := { s.grp with mirror := t.grp.mirror } } t)) ∧
      (∀ serial : Word, s.grp.role = .standby → bit s.grp.latent (h.src - 1) = false → ∃ t, exec (.xferReq l h serial) s = .next t ∧ LinksOnly (tagged 1 s) t ∧
        (∀ p ∈ transferSet s, ∀ q ∈ cutPart p, ∃ f ∈ framesOn s t l, f.hdr.dst = h.src ∧ f.hdr.tag = h.tag ∧
          match f.body with
          | .xferData _ r => r = q
          | _ => False) ∧
        Sends s t l h.src (fun b => match b with
          | .order .roles o => o.target == s.cyc.mcc + 16 && o.subject == h.src && o.issuer == ownPos s
          | _ => false)) ∧
      (∀ serial : Word, s.grp.role = .arbiter ∨ s.grp.role = .out → ∃ t, exec (.xferReq l h serial) s = .next t ∧ LinksOnly s t) ∧
      (∀ (n : Nat) (f : List Force) (i : IslandState) (d : List SigDyn), s.grp.xferAsked = true →
        (∃ t, exec (.xferData l h n (.forces f)) s = .next t ∧ Got s t l h 3 ∧ LinksOnly { s with glb := { s.glb with forces := s.glb.forces ++ f } } t) ∧
        (∃ t, exec (.xferData l h n (.image d)) s = .next t ∧ Got s t l h 3 ∧ LinksOnly { s with pim := { s.pim with dyn := t.pim.dyn } } t ∧
          t.pim.dyn.map (·.sid) = s.pim.dyn.map (·.sid) ∧ (∀ y ∈ t.pim.dyn, (∀ z ∈ d, z.sid ≠ y.sid) → y ∈ s.pim.dyn) ∧
          ((d.map (·.sid)).Nodup → ∀ z ∈ d, ∀ y ∈ t.pim.dyn, y.sid = z.sid → y = { z with last := z.last.map (· - countAhead s) })) ∧
        (∃ t, exec (.xferData l h n (.targets [(m, .roleSwap), (m, .maintEnter), (m, .clearLatent n), (m, .safeAck)])) s = .next t ∧ Got s t l h 3 ∧
          LinksOnly { s with grp := { s.grp with swapDue := some m, maintDue := some (m, true), latentDue := some (m, n) }, safe := { s.safe with ackDue := some m } } t) ∧
        (∃ t, exec (.xferData l h n (.island i)) s = .next t ∧ Got s t l h 3 ∧ LinksOnly { s with safe := takeIsland s.safe i } t) ∧
        (s.grp.xferMcc = none → ∃ t, exec (.xferData l h n (.counts m 4 9 2)) s = .next t ∧ t.cyc = s.cyc ∧ t.grp.xferMcc = some m ∧
          (∃ k, t.grp.adoptDue = some (s.cyc.mcc + 1, k + 1) ∧ (k = m ∨ ∃ q, (s.grp.peer l).hb = some q ∧ k = q.mcc ∧ atOrBefore m k = true)) ∧ t.grp.rotSeq = 4 ∧ t.grp.rotLeft = 9 ∧ t.grp.latent = 2 ∧
          t.fab = s.fab ∧ t.glb = { s.glb with forces := [], forceCmds := [], evts := t.glb.evts } ∧ (∀ e ∈ t.glb.evts, e.queue = []) ∧
          t.safe = { s.safe with sdtCounters := [] })) ∧
      (∀ (n : Nat) (f : List Force), s.grp.xferAsked = false → ∃ t, exec (.xferData l h n (.forces f)) s = .next t ∧ Got s t l h 3 ∧ LinksOnly s t) ∧
      (tagFree s .group = false → ∀ n : Nat,
        let again (i : Instr) : Prop := ∃ t, exec i s = .next t ∧ LinksOnly s t ∧ Got s t l h 2 ∧ (t.grp.br l).retrySent = satInc (s.grp.br l).retrySent ∧ Sends s t l h.src (· == .retry)
        again (.rdReq l h n n n) ∧ again (.wrReq l h n n true []) ∧ again (.semAcqFrame l h n n n) ∧ again (.semRelFrame l h n) ∧ again (.doorbell l h 1)) ∧
      (tagFree s .group = true →
        (∀ off n sem : Nat, (∀ z ∈ (s.grp.br l).sems, z.held = false ∧ z.revoked = false) →
          (sharedOk s l off (8 * n) = true → ∃ t, exec (.rdReq l h off n sem) s = .next t ∧ LinksOnly s t ∧ Got s t l h 2 ∧
            Sends s t l h.src (· == .rdRsp .ok (s.dram.readList (sharedAddr s l off).toNat (8 * n)))) ∧
          (sharedOk s l off (8 * n) = false → ∃ t, exec (.rdReq l h off n sem) s = .next t ∧ LinksOnly s t ∧ Got s t l h 2 ∧ Sends s t l h.src (· == .rdRsp .remoteError []))) ∧
        (∀ (off sem : Nat) (b : Bool) (data : List Byte), (∀ z ∈ (s.grp.br l).sems, z.held = false ∧ z.revoked = false) →
          (sharedOk s l off data.length = true → ∃ t, exec (.wrReq l h off sem b data) s = .next t ∧ Got s t l h 2 ∧ Sends s t l h.src (· == .wrRsp .ok) ∧
            (s.dram.wf = true → t.dram.readList (sharedAddr s l off).toNat data.length = data ∧
              ∀ a, (a < (sharedAddr s l off).toNat ∨ (sharedAddr s l off).toNat + data.length ≤ a) → t.dram.read a = s.dram.read a) ∧
            LinksOnly { s with dram := t.dram } t) ∧
          (sharedOk s l off data.length = false → ∃ t, exec (.wrReq l h off sem b data) s = .next t ∧ LinksOnly s t ∧ Sends s t l h.src (· == .wrRsp .remoteError))) ∧
        (∀ sem lo hi : Nat, sem < (s.grp.br l).sems.length → (∀ z ∈ (s.grp.br l).sems, z.held = false) →
          ∃ t, exec (.semAcqFrame l h sem lo hi) s = .next t ∧ LinksOnly s t ∧ Got s t l h 2 ∧ Sends s t l h.src (· == .semRsp .ok) ∧
            nthD (t.grp.br l).sems sem {} = { unit := 0, first := lo, last := hi, held := true } ∧ ∀ i, i ≠ sem → nthD (t.grp.br l).sems i {} = nthD (s.grp.br l).sems i {}) ∧
        (∀ sem lo hi : Nat, (nthD (s.grp.br l).sems sem {}).held = true → crossing s l lo hi = none →
          ∃ t, exec (.semAcqFrame l h sem lo hi) s = .next t ∧ LinksOnly s t ∧ Sends s t l h.src (· == .retry) ∧ (t.grp.br l).sems = (s.grp.br l).sems) ∧
        (∀ sem : Nat, sem < (s.grp.br l).sems.length → (nthD (s.grp.br l).sems sem {}).revoked = false → ∃ t, exec (.semRelFrame l h sem) s = .next t ∧ LinksOnly s t ∧ Got s t l h 2 ∧
          Sends s t l h.src (· == .semRsp .ok) ∧ nthD (t.grp.br l).sems sem {} = {}) ∧
        (∀ v : Reg32, v ≠ 0 → ((s.grp.br l).bells.length < 16 → ∃ t, exec (.doorbell l h v) s = .next t ∧ LinksOnly s t ∧ Got s t l h 2 ∧
            (t.grp.br l).bells = (s.grp.br l).bells ++ [v] ∧ Sends s t l h.src (· == .wrRsp .ok)) ∧
          (16 ≤ (s.grp.br l).bells.length → ∃ t, exec (.doorbell l h v) s = .next t ∧ LinksOnly s t ∧ (t.grp.br l).bells = (s.grp.br l).bells ∧
            Sends s t l h.src (· == .wrRsp .refusedCapacity)))) ∧
      (s.txe.tags.find? (fun t => t.tag == h.tag && t.unit == l.peer) = none → (h.tag.extractLsb' 10 4 : BitVec 4) = epochOf s l.peer → ∀ data : List Byte,
        (∃ t, exec (.rdRsp l h st data) s = .next t ∧ LinksOnly s t) ∧ (∃ t, exec (.wrRsp l h st) s = .next t ∧ LinksOnly s t) ∧ (∃ t, exec (.semRsp l h st) s = .next t ∧ LinksOnly s t)) ∧
      (∀ e, s.txe.tags.find? (fun t => t.tag == h.tag && t.unit == l.peer) = some e → e.posted = false →
        (∀ off len addr sem, e.req = .glRead off len addr sem → ∀ data : List Byte, s.dram.wf = true → e.ring = none → data.length = len → inDram addr len = true →
          ∃ t, exec (.rdRsp l h .ok data) s = .next t ∧ Got s t l h 3 ∧ (∀ z ∈ t.txe.tags, z.tag ≠ e.tag) ∧ t.dram.readList addr.toNat len = data ∧
            (∀ a, (a < addr.toNat ∨ addr.toNat + len ≤ a) → t.dram.read a = s.dram.read a) ∧ t.fab = s.fab ∧ t.cyc = s.cyc ∧ t.glb = s.glb ∧ t.pim = s.pim) ∧
        (∀ off data sem, e.req = .glWrite off data sem → ∃ t, exec (.wrRsp l h st) s = .next t ∧ Got s t l h 3 ∧ (∀ z ∈ t.txe.tags, z.tag ≠ e.tag) ∧
          t.fab = s.fab ∧ t.cyc = s.cyc ∧ t.glb = s.glb ∧ t.pim = s.pim) ∧
        (∀ sem lo hi, e.req = .glSem sem lo hi → ∃ t, exec (.semRsp l h st) s = .next t ∧ Got s t l h 3 ∧ (∀ z ∈ t.txe.tags, z.tag ≠ e.tag) ∧
          t.fab = s.fab ∧ t.cyc = s.cyc ∧ t.glb = s.glb ∧ t.pim = s.pim) ∧
        (e.retries < 16 → ∃ t, exec (.retry l h) s = .next t ∧ Got s t l h 3 ∧ (t.grp.br l).retryRcvd = satInc (s.grp.br l).retryRcvd ∧
          { e with retries := e.retries + 1, again := true } ∈ t.txe.tags ∧ LinksOnly { s with txe := { s.txe with tags := t.txe.tags } } t) ∧
        (16 ≤ e.retries → ∃ t, exec (.retry l h) s = .next t ∧ (∀ z ∈ t.txe.tags, z.tag ≠ e.tag) ∧ t.fab = s.fab ∧ t.cyc = s.cyc ∧ t.pim = s.pim))) ∧
    (inGroup s = false → exec .inputAgreement s = .next s ∧ exec .voteSend s = .next s ∧ exec .voteDecide s = .next s) ∧
    (inGroup s = true → s.grp.formed = true → s.grp.role.voting = true →
      let u := passTo s (s.cyc.timerTtc - 60000)
      let v := passTo s (s.cyc.timerTtc - 28000)
      (s.ci.act.hdr.imageHash ≠ voteHash s → exec .voteSend s = .next s) ∧
      (s.ci.act.hdr.imageHash = voteHash s → ∃ t, exec .voteSend s = .next t ∧ LinksOnly { u with grp := { s.grp with ownVotes := ownVotes s }, txe := { u.txe with allocs := t.txe.allocs } } t ∧
        (linkOk s l = true → ownPos s ≠ 0 → s.grp.brL.queues.length = 4 → s.grp.brR.queues.length = 4 →
          (∀ es ∈ pieces 63 (ownVotes s), Sends s t l (peerPos s l) (· == .vote es)) ∧ (ownVotes s = [] → Sends s t l (peerPos s l) (· == .vote [])))) ∧
      (votedSids s (votersNow s) = [] → exec .voteDecide s = .next { v with grp := { s.grp with decided := none, decidedNone := false } }) ∧
      (votersNow s = [ownPos s] → votedSids s [ownPos s] ≠ [] → ∃ t, exec .voteDecide s = .next t ∧
        (∀ e ∈ s.grp.ownVotes, ∃ ds, t.grp.decided = some ds ∧ ∃ d ∈ ds, d.sid = e.sid) ∧ t = { v with grp := { s.grp with decided := t.grp.decided, decidedNone := false } }) ∧
      (∀ p q : Nat, votersNow s = [p, q] → votedSids s [p, q] ≠ [] → (votedSids s [p, q]).all (fun sid => (voteOf s p sid).isSome && voteOf s p sid == voteOf s q sid) = true →
        ∃ t, exec .voteDecide s = .next t ∧ t.grp.decidedNone = false ∧ t.grp.decided = some ((votedSids s [p, q]).filterMap (voteOf s p)) ∧ t.evr = s.evr ∧
          t.safe = s.safe ∧ t.pim = s.pim ∧ t.fab = s.fab ∧ t.cyc = s.cyc ∧ t.glb = s.glb) ∧
      (∀ (p q : Nat) (sid : Sid), votersNow s = [p, q] → sid ∈ votedSids s [p, q] → voteOf s p sid ≠ voteOf s q sid → s.safe.cause = 0 →
        ∃ t, exec .voteDecide s = .next t ∧ t.grp.decidedNone = true ∧ t.grp.noMajority = satInc s.grp.noMajority ∧ t.safe.cause = 2 ∧ (∀ o ∈ t.safe.so, o.cmd = false) ∧
          (∀ r, sigRec s.ci.act sid = some r → ∃ ds, t.grp.decided = some ds ∧ ∃ d ∈ ds, d.sid = sid ∧ d.val = imgValue r.t r.substValue) ∧
          Records s t .safety srcSafe (cFault 2) ∧ t.pim = s.pim ∧ t.fab = s.fab ∧ t.cyc = s.cyc)) ∧
    (inGroup s = true → s.cyc.started = true → s.grp.ended = [] → s.grp.warmAt = none →
      ∃ t, exec .inputAgreement s = .next t ∧ t.grp.ownWrites = [] ∧ t.grp.ended = [] ∧ t.fab = s.fab ∧ t.cyc = s.cyc ∧ t.safe = s.safe ∧ t.glb = s.glb ∧ t.pim.staging = s.pim.staging ∧
        (∀ r ∈ s.ci.act.sigs, ∀ d, r.writer = 0x44 → (∀ z ∈ s.ci.act.sigs, z.sid = r.sid → z = r) → s.pim.dyn.find? (fun d => d.sid == r.sid) = some d →
          ∀ R : Report, s.grp.formed = true → (∃ e ∈ deltasAt s s.cyc.mcc, (findWord e.2 (r.pimOffset / 32)).isSome = true) →
          ((deltasAt s s.cyc.mcc).filter (fun e => countsIn s e.1)).length <
            2 * (((deltasAt s s.cyc.mcc).filter (fun e => countsIn s e.1)).filter (fun e => reportOf e.2 r (dynSig r d).v == R)).length →
          ∃ d', t.pim.dyn.find? (fun d => d.sid == r.sid) = some d' ∧ d'.val = R.val ∧ d'.code = qNorm (qCode R.q)) ∧
        (∀ r ∈ s.ci.act.sigs, (∀ e ∈ deltasAt s s.cyc.mcc, findWord e.2 (r.pimOffset / 32) = none ∧ findWord e.2 (qualOff r / 32) = none) →
          (∀ z ∈ s.ci.act.sigs, z.sid = r.sid → z = r) → (t.pim.dyn.find? (fun d => d.sid == r.sid)).map (·.val) = (s.pim.dyn.find? (fun d => d.sid == r.sid)).map (·.val)))
end

