-- ==== Sys2Proof/Laws/Coded.lean ====
section
/-! SUPPORT. Laws/Coded.lean: a code word carries its number, and the coded operations that need no check carry sum, difference and
multiple under the signatures the manual gives them. -/

namespace Sys2Proof.Machine

theorem decodeWord_codeWord (d : Int) (b : Nat) (x : Int) : decodeWord d b (codeWord d b x) = x := by
  simp only [decodeWord, codeWord, codeA]; omega

theorem codeValid_codeWord (d : Int) (b : Nat) (lo hi x : Int) :
    codeValid d b lo hi (codeWord d b x) = true ↔ lo ≤ x ∧ x ≤ hi := by
  simp only [codeValid, decodeWord_codeWord, Bool.and_eq_true, decide_eq_true_eq]
  simp only [codeWord, codeA]; omega

theorem codeAdd_codeWord (d : Int) (b c : Nat) (x y : Int) :
    codeAdd d (codeWord d b x) (codeWord d c y) = codeWord d (b + c) (x + y) := by
  simp only [codeAdd, codeWord]; push_cast; ring

theorem codeSub_codeWord (d : Int) (b c : Nat) (x y : Int) (h : c ≤ b) :
    codeSub d (codeWord d b x) (codeWord d c y) = codeWord d (b - c) (x - y) := by
  simp only [codeSub, codeWord]; push_cast [h]; ring

theorem codeScale_codeWord (d : Int) (b k : Nat) (x : Int) :
    codeScale d k (codeWord d b x) = codeWord d (k * b) (k * x) := by
  simp only [codeScale, codeWord]; push_cast; ring

theorem resign_codeWord (old new : Int) (b : Nat) (x : Int) : resign old new (codeWord old b x) = codeWord new b x := by
  simp only [resign, codeWord]; ring

/-- A variable of an instance released later, not signed again, fails its check unless the releases agree modulo A. -/
theorem codeValid_stale (old new : Int) (b : Nat) (lo hi x : Int) (h : (old - new) % codeA ≠ 0) :
    codeValid new b lo hi (codeWord old b x) = false := by
  have k : ¬ (codeA * x + ↑b + old - ↑b - new) % codeA = 0 := by simp only [codeA] at *; omega
  simp [codeValid, codeWord, k]

end Sys2Proof.Machine
end

