-- ==== Sys2Proof/Laws/Mem.lean ====
section
/-! SUPPORT. Laws/Mem.lean: the byte memory: every operation keeps the canonical form, a read after a write gives what was
written there and what stood elsewhere. -/

namespace Sys2Proof.Machine

theorem Mem.wfFrom_le {m : Mem} {a b : Nat} (h : a ≤ b) (w : m.wfFrom b = true) : m.wfFrom a = true := by
  cases m with
  | nil => rfl
  | cons c m => simp only [Mem.wfFrom, Bool.and_eq_true, decide_eq_true_eq] at *; exact ⟨⟨by omega, w.1.2⟩, w.2⟩

theorem Mem.read_below {m : Mem} {lo x : Nat} (w : m.wfFrom lo = true) (h : x < lo) : m.read x = 0 := by
  cases m with
  | nil => rfl
  | cons c m =>
    simp only [Mem.wfFrom, Bool.and_eq_true, decide_eq_true_eq] at w
    have : c.1 ≠ x := by omega
    simp [Mem.read, this, show x < c.1 by omega]

theorem Mem.write_wfFrom {m : Mem} {lo x : Nat} {v : BitVec 8} (w : m.wfFrom lo = true) (h : lo ≤ x) : (m.write x v).wfFrom lo = true := by
  induction m generalizing lo with
  | nil =>
    unfold Mem.write
    split
    · rfl
    · rename_i hv
      simp only [Mem.wfFrom, Bool.and_eq_true, decide_eq_true_eq]
      exact ⟨⟨h, hv⟩, trivial⟩
  | cons c m ih =>
    simp only [Mem.wfFrom, Bool.and_eq_true, decide_eq_true_eq] at w
    unfold Mem.write
    split
    · split
      · simp only [Mem.wfFrom, Bool.and_eq_true, decide_eq_true_eq]; exact w
      · rename_i hx hv
        simp only [Mem.wfFrom, Bool.and_eq_true, decide_eq_true_eq]
        exact ⟨⟨h, hv⟩, ⟨by omega, w.1.2⟩, w.2⟩
    · split
      · split
        · exact Mem.wfFrom_le (by omega) w.2
        · rename_i hx hxa hv
          simp only [Mem.wfFrom, Bool.and_eq_true, decide_eq_true_eq]
          subst hxa
          exact ⟨⟨h, hv⟩, w.2⟩
      · simp only [Mem.wfFrom, Bool.and_eq_true, decide_eq_true_eq]
        exact ⟨w.1, ih w.2 (by omega)⟩

/-- A write keeps the canonical form. -/
theorem Mem.write_wf {m : Mem} (w : m.wf = true) (x : Nat) (v : BitVec 8) : (m.write x v).wf = true :=
  Mem.write_wfFrom w (Nat.zero_le _)

theorem Mem.read_write_from {m : Mem} {lo : Nat} (w : m.wfFrom lo = true) (x y : Nat) (v : BitVec 8) :
    (m.write x v).read y = if y = x then v else m.read y := by
  induction m generalizing lo with
  | nil =>
    unfold Mem.write
    by_cases hv : v = 0#8
    · subst hv; simp [Mem.read]
    · by_cases hy : y = x
      · simp [hv, Mem.read, hy]
      · have : ¬ x = y := fun h => hy h.symm
        simp [hv, Mem.read, hy, this]
  | cons c m ih =>
    obtain ⟨a, b⟩ := c
    simp only [Mem.wfFrom, Bool.and_eq_true, decide_eq_true_eq] at w
    unfold Mem.write
    by_cases h1 : x < a
    · by_cases hv : v = 0#8
      · subst hv
        by_cases hy : y = x
        · subst hy; simp [h1, Mem.read, show ¬ a = y by omega]
        · simp [h1, hy]
      · by_cases hy : y = x
        · subst hy; simp [h1, hv, Mem.read]
        · have hn : ¬ x = y := fun h => hy h.symm
          by_cases hlt : y < x
          · simp [h1, hv, hn, hy, Mem.read, hlt, show ¬ a = y by omega, show y < a by omega]
          · simp [h1, hv, hn, hy, Mem.read, hlt]
    · by_cases h2 : x = a
      · subst h2
        by_cases hv : v = 0#8
        · subst hv
          by_cases hy : y = x
          · subst hy; simp [Mem.read_below w.2 (by omega : y < y + 1)]
          · have hn : ¬ x = y := fun h => hy h.symm
            simp only [Nat.lt_irrefl, if_false, if_true, hy, Mem.read, hn]
            by_cases hlt : y < x
            · simp [hlt, Mem.read_below w.2 (by omega : y < x + 1)]
            · simp [hlt]
        · by_cases hy : y = x
          · subst hy; simp [hv, Mem.read]
          · have hn : ¬ x = y := fun h => hy h.symm
            simp [hv, hy, Mem.read, hn]
      · simp only [h1, h2, if_false, Mem.read, ih w.2]
        by_cases hy : y = x
        · subst hy; simp [show ¬ a = y by omega, show ¬ y < a by omega]
        · simp [hy]

/-- A read after a write: the value written at its address, what stood there elsewhere. -/
theorem Mem.read_write {m : Mem} (w : m.wf = true) (x y : Nat) (v : BitVec 8) :
    (m.write x v).read y = if y = x then v else m.read y := Mem.read_write_from w x y v

theorem Mem.writeLE_wf {m : Mem} (w : m.wf = true) (a n v : Nat) : (m.writeLE a n v).wf = true := by
  induction n generalizing m a v with
  | zero => exact w
  | succ n ih => exact ih (Mem.write_wf w _ _) _ _

theorem Mem.writeList_wf {m : Mem} (w : m.wf = true) (a : Nat) (l : List (BitVec 8)) : (m.writeList a l).wf = true := by
  induction l generalizing m a with
  | nil => exact w
  | cons b l ih => exact ih (Mem.write_wf w _ _) _

theorem Mem.clear_wfFrom {m : Mem} {l : Nat} (w : m.wfFrom l = true) (lo hi : Nat) : (m.clear lo hi).wfFrom l = true := by
  induction m generalizing l with
  | nil => rfl
  | cons c m ih =>
    simp only [Mem.wfFrom, Bool.and_eq_true, decide_eq_true_eq] at w
    have e : Mem.clear (c :: m) lo hi = if (decide (c.1 < lo) || decide (hi ≤ c.1)) = true then c :: Mem.clear m lo hi else Mem.clear m lo hi := by
      simp only [Mem.clear, List.filter_cons]
    rw [e]
    split
    · simp only [Mem.wfFrom, Bool.and_eq_true, decide_eq_true_eq]; exact ⟨w.1, ih w.2⟩
    · exact Mem.wfFrom_le (by omega) (ih w.2)

/-- Clearing a range keeps the canonical form. -/
theorem Mem.clear_wf {m : Mem} (w : m.wf = true) (lo hi : Nat) : (m.clear lo hi).wf = true := Mem.clear_wfFrom w lo hi

/-- A byte outside the bytes of a multi-byte write reads as before. -/
theorem Mem.read_writeLE_out {m : Mem} (w : m.wf = true) {a n : Nat} (v y : Nat) (h : y < a ∨ a + n ≤ y) :
    (m.writeLE a n v).read y = m.read y := by
  induction n generalizing m a v with
  | zero => rfl
  | succ n ih =>
    rw [Mem.writeLE, ih (Mem.write_wf w _ _) _ (by omega), Mem.read_write w, if_neg (by omega)]

/-- A multi-byte read after the write of the same bytes gives the number written, modulo its size. -/
theorem Mem.readLE_writeLE {m : Mem} (w : m.wf = true) (a n v : Nat) : (m.writeLE a n v).readLE a n = v % 2 ^ (8 * n) := by
  induction n generalizing m a v with
  | zero => simp [Mem.readLE, Nat.mod_one]
  | succ n ih =>
    have hw := Mem.write_wf w a (BitVec.ofNat 8 (v % 256))
    have h1 := Mem.read_writeLE_out hw (a := a + 1) (n := n) (v / 256) a (by omega)
    rw [Mem.writeLE, Mem.readLE, ih hw, h1, Mem.read_write w, if_pos rfl]
    have e : 2 ^ (8 * (n + 1)) = 256 * 2 ^ (8 * n) := by rw [Nat.mul_add, Nat.pow_add]; simp [Nat.mul_comm]
    rw [e, Nat.mod_mul]
    simp

/-- A byte outside a written list reads as before. -/
theorem Mem.read_writeList_out {m : Mem} (w : m.wf = true) {a : Nat} {l : List (BitVec 8)} {y : Nat} (h : y < a ∨ a + l.length ≤ y) :
    (m.writeList a l).read y = m.read y := by
  induction l generalizing m a with
  | nil => rfl
  | cons b l ih =>
    simp only [List.length_cons] at h
    rw [Mem.writeList, ih (Mem.write_wf w _ _) (by omega), Mem.read_write w, if_neg (by omega)]

@[simp] theorem Mem.readList_length (m : Mem) (a n : Nat) : (m.readList a n).length = n := by
  induction n generalizing a with
  | zero => rfl
  | succ n ih => simp [Mem.readList, ih]

theorem Mem.readList_congr {m k : Mem} {a n : Nat} (h : ∀ y, a ≤ y → y < a + n → m.read y = k.read y) : m.readList a n = k.readList a n := by
  induction n generalizing a with
  | zero => rfl
  | succ n ih =>
    simp only [Mem.readList]
    rw [h a (by omega) (by omega), ih (fun y h1 h2 => h y (by omega) (by omega))]

/-- A list read where it was written is the list. -/
theorem Mem.readList_writeList {m : Mem} (w : m.wf = true) (a : Nat) (l : List (BitVec 8)) : (m.writeList a l).readList a l.length = l := by
  induction l generalizing m a with
  | nil => rfl
  | cons b l ih =>
    have hw := Mem.write_wf w a b
    simp only [Mem.writeList, List.length_cons, Mem.readList]
    rw [ih hw, Mem.read_writeList_out hw (by omega), Mem.read_write w, if_pos rfl]

end Sys2Proof.Machine
end

