-- ==== Sys2Proof/Laws/State.lean ====
section
/-! SUPPORT. Laws/State.lean: what the shared operations leave: for each of them, one lemma per part of the state that it does
not touch. -/

namespace Sys2Proof.Machine

/-- A fold of steps that keep a part of the state keeps it. -/
theorem foldl_keeps {α β : Type} (g : State → α) (f : State → β → State) (h : ∀ s x, g (f s x) = g s) :
    ∀ (l : List β) (s : State), g (l.foldl f s) = g s
  | [], _ => rfl
  | x :: l, s => by rw [List.foldl_cons, foldl_keeps g f h l, h]

/-! ### modPmu -/

@[simp] theorem modPmu_pending (s : State) (i : Nat) (f : PmuInst → PmuInst) : (modPmu s i f).pending = s.pending := rfl
@[simp] theorem modPmu_ci (s : State) (i : Nat) (f : PmuInst → PmuInst) : (modPmu s i f).ci = s.ci := rfl
@[simp] theorem modPmu_fab (s : State) (i : Nat) (f : PmuInst → PmuInst) : (modPmu s i f).fab = s.fab := rfl
@[simp] theorem modPmu_cyc (s : State) (i : Nat) (f : PmuInst → PmuInst) : (modPmu s i f).cyc = s.cyc := rfl
@[simp] theorem modPmu_glb (s : State) (i : Nat) (f : PmuInst → PmuInst) : (modPmu s i f).glb = s.glb := rfl
@[simp] theorem modPmu_pim (s : State) (i : Nat) (f : PmuInst → PmuInst) : (modPmu s i f).pim = s.pim := rfl
@[simp] theorem modPmu_arb (s : State) (i : Nat) (f : PmuInst → PmuInst) : (modPmu s i f).arb = s.arb := rfl
@[simp] theorem modPmu_txe (s : State) (i : Nat) (f : PmuInst → PmuInst) : (modPmu s i f).txe = s.txe := rfl
@[simp] theorem modPmu_eth (s : State) (i : Nat) (f : PmuInst → PmuInst) : (modPmu s i f).eth = s.eth := rfl
@[simp] theorem modPmu_mvb (s : State) (i : Nat) (f : PmuInst → PmuInst) : (modPmu s i f).mvb = s.mvb := rfl
@[simp] theorem modPmu_can0 (s : State) (i : Nat) (f : PmuInst → PmuInst) : (modPmu s i f).can0 = s.can0 := rfl
@[simp] theorem modPmu_can1 (s : State) (i : Nat) (f : PmuInst → PmuInst) : (modPmu s i f).can1 = s.can1 := rfl
@[simp] theorem modPmu_gw (s : State) (i : Nat) (f : PmuInst → PmuInst) : (modPmu s i f).gw = s.gw := rfl
@[simp] theorem modPmu_tb (s : State) (i : Nat) (f : PmuInst → PmuInst) : (modPmu s i f).tb = s.tb := rfl
@[simp] theorem modPmu_grp (s : State) (i : Nat) (f : PmuInst → PmuInst) : (modPmu s i f).grp = s.grp := rfl
@[simp] theorem modPmu_safe (s : State) (i : Nat) (f : PmuInst → PmuInst) : (modPmu s i f).safe = s.safe := rfl
@[simp] theorem modPmu_tk (s : State) (i : Nat) (f : PmuInst → PmuInst) : (modPmu s i f).tk = s.tk := rfl
@[simp] theorem modPmu_upd (s : State) (i : Nat) (f : PmuInst → PmuInst) : (modPmu s i f).upd = s.upd := rfl
@[simp] theorem modPmu_pgv (s : State) (i : Nat) (f : PmuInst → PmuInst) : (modPmu s i f).pgv = s.pgv := rfl
@[simp] theorem modPmu_rst (s : State) (i : Nat) (f : PmuInst → PmuInst) : (modPmu s i f).rst = s.rst := rfl
@[simp] theorem modPmu_cul (s : State) (i : Nat) (f : PmuInst → PmuInst) : (modPmu s i f).cul = s.cul := rfl
@[simp] theorem modPmu_evr (s : State) (i : Nat) (f : PmuInst → PmuInst) : (modPmu s i f).evr = s.evr := rfl
@[simp] theorem modPmu_pin (s : State) (i : Nat) (f : PmuInst → PmuInst) : (modPmu s i f).pin = s.pin := rfl
@[simp] theorem modPmu_clk (s : State) (i : Nat) (f : PmuInst → PmuInst) : (modPmu s i f).clk = s.clk := rfl
@[simp] theorem modPmu_dram (s : State) (i : Nat) (f : PmuInst → PmuInst) : (modPmu s i f).dram = s.dram := rfl
@[simp] theorem modPmu_host (s : State) (i : Nat) (f : PmuInst → PmuInst) : (modPmu s i f).host = s.host := rfl
@[simp] theorem modPmu_latches (s : State) (i : Nat) (f : PmuInst → PmuInst) : (modPmu s i f).latches = s.latches := rfl
@[simp] theorem modPmu_out (s : State) (i : Nat) (f : PmuInst → PmuInst) : (modPmu s i f).out = s.out := rfl

/-! ### pmuCount -/

@[simp] theorem pmuCount_pending (s : State) (i : Nat) (ev : Nat) (n : Nat) : (pmuCount s i ev n).pending = s.pending := by
  unfold pmuCount; dsimp only; (repeat' split) <;> rfl
@[simp] theorem pmuCount_ci (s : State) (i : Nat) (ev : Nat) (n : Nat) : (pmuCount s i ev n).ci = s.ci := by
  unfold pmuCount; dsimp only; (repeat' split) <;> rfl
@[simp] theorem pmuCount_fab (s : State) (i : Nat) (ev : Nat) (n : Nat) : (pmuCount s i ev n).fab = s.fab := by
  unfold pmuCount; dsimp only; (repeat' split) <;> rfl
@[simp] theorem pmuCount_cyc (s : State) (i : Nat) (ev : Nat) (n : Nat) : (pmuCount s i ev n).cyc = s.cyc := by
  unfold pmuCount; dsimp only; (repeat' split) <;> rfl
@[simp] theorem pmuCount_glb (s : State) (i : Nat) (ev : Nat) (n : Nat) : (pmuCount s i ev n).glb = s.glb := by
  unfold pmuCount; dsimp only; (repeat' split) <;> rfl
@[simp] theorem pmuCount_pim (s : State) (i : Nat) (ev : Nat) (n : Nat) : (pmuCount s i ev n).pim = s.pim := by
  unfold pmuCount; dsimp only; (repeat' split) <;> rfl
@[simp] theorem pmuCount_arb (s : State) (i : Nat) (ev : Nat) (n : Nat) : (pmuCount s i ev n).arb = s.arb := by
  unfold pmuCount; dsimp only; (repeat' split) <;> rfl
@[simp] theorem pmuCount_txe (s : State) (i : Nat) (ev : Nat) (n : Nat) : (pmuCount s i ev n).txe = s.txe := by
  unfold pmuCount; dsimp only; (repeat' split) <;> rfl
@[simp] theorem pmuCount_eth (s : State) (i : Nat) (ev : Nat) (n : Nat) : (pmuCount s i ev n).eth = s.eth := by
  unfold pmuCount; dsimp only; (repeat' split) <;> rfl
@[simp] theorem pmuCount_mvb (s : State) (i : Nat) (ev : Nat) (n : Nat) : (pmuCount s i ev n).mvb = s.mvb := by
  unfold pmuCount; dsimp only; (repeat' split) <;> rfl
@[simp] theorem pmuCount_can0 (s : State) (i : Nat) (ev : Nat) (n : Nat) : (pmuCount s i ev n).can0 = s.can0 := by
  unfold pmuCount; dsimp only; (repeat' split) <;> rfl
@[simp] theorem pmuCount_can1 (s : State) (i : Nat) (ev : Nat) (n : Nat) : (pmuCount s i ev n).can1 = s.can1 := by
  unfold pmuCount; dsimp only; (repeat' split) <;> rfl
@[simp] theorem pmuCount_gw (s : State) (i : Nat) (ev : Nat) (n : Nat) : (pmuCount s i ev n).gw = s.gw := by
  unfold pmuCount; dsimp only; (repeat' split) <;> rfl
@[simp] theorem pmuCount_tb (s : State) (i : Nat) (ev : Nat) (n : Nat) : (pmuCount s i ev n).tb = s.tb := by
  unfold pmuCount; dsimp only; (repeat' split) <;> rfl
@[simp] theorem pmuCount_grp (s : State) (i : Nat) (ev : Nat) (n : Nat) : (pmuCount s i ev n).grp = s.grp := by
  unfold pmuCount; dsimp only; (repeat' split) <;> rfl
@[simp] theorem pmuCount_safe (s : State) (i : Nat) (ev : Nat) (n : Nat) : (pmuCount s i ev n).safe = s.safe := by
  unfold pmuCount; dsimp only; (repeat' split) <;> rfl
@[simp] theorem pmuCount_tk (s : State) (i : Nat) (ev : Nat) (n : Nat) : (pmuCount s i ev n).tk = s.tk := by
  unfold pmuCount; dsimp only; (repeat' split) <;> rfl
@[simp] theorem pmuCount_upd (s : State) (i : Nat) (ev : Nat) (n : Nat) : (pmuCount s i ev n).upd = s.upd := by
  unfold pmuCount; dsimp only; (repeat' split) <;> rfl
@[simp] theorem pmuCount_pgv (s : State) (i : Nat) (ev : Nat) (n : Nat) : (pmuCount s i ev n).pgv = s.pgv := by
  unfold pmuCount; dsimp only; (repeat' split) <;> rfl
@[simp] theorem pmuCount_rst (s : State) (i : Nat) (ev : Nat) (n : Nat) : (pmuCount s i ev n).rst = s.rst := by
  unfold pmuCount; dsimp only; (repeat' split) <;> rfl
@[simp] theorem pmuCount_cul (s : State) (i : Nat) (ev : Nat) (n : Nat) : (pmuCount s i ev n).cul = s.cul := by
  unfold pmuCount; dsimp only; (repeat' split) <;> rfl
@[simp] theorem pmuCount_evr (s : State) (i : Nat) (ev : Nat) (n : Nat) : (pmuCount s i ev n).evr = s.evr := by
  unfold pmuCount; dsimp only; (repeat' split) <;> rfl
@[simp] theorem pmuCount_pin (s : State) (i : Nat) (ev : Nat) (n : Nat) : (pmuCount s i ev n).pin = s.pin := by
  unfold pmuCount; dsimp only; (repeat' split) <;> rfl
@[simp] theorem pmuCount_clk (s : State) (i : Nat) (ev : Nat) (n : Nat) : (pmuCount s i ev n).clk = s.clk := by
  unfold pmuCount; dsimp only; (repeat' split) <;> rfl
@[simp] theorem pmuCount_dram (s : State) (i : Nat) (ev : Nat) (n : Nat) : (pmuCount s i ev n).dram = s.dram := by
  unfold pmuCount; dsimp only; (repeat' split) <;> rfl
@[simp] theorem pmuCount_host (s : State) (i : Nat) (ev : Nat) (n : Nat) : (pmuCount s i ev n).host = s.host := by
  unfold pmuCount; dsimp only; (repeat' split) <;> rfl
@[simp] theorem pmuCount_latches (s : State) (i : Nat) (ev : Nat) (n : Nat) : (pmuCount s i ev n).latches = s.latches := by
  unfold pmuCount; dsimp only; (repeat' split) <;> rfl

/-! ### pmuTick -/

@[simp] theorem pmuTick_pending (n : Nat) (s : State) (i : Nat) : (pmuTick n s i).pending = s.pending := pmuCount_pending ..
@[simp] theorem pmuTick_ci (n : Nat) (s : State) (i : Nat) : (pmuTick n s i).ci = s.ci := pmuCount_ci ..
@[simp] theorem pmuTick_fab (n : Nat) (s : State) (i : Nat) : (pmuTick n s i).fab = s.fab := pmuCount_fab ..
@[simp] theorem pmuTick_cyc (n : Nat) (s : State) (i : Nat) : (pmuTick n s i).cyc = s.cyc := pmuCount_cyc ..
@[simp] theorem pmuTick_glb (n : Nat) (s : State) (i : Nat) : (pmuTick n s i).glb = s.glb := pmuCount_glb ..
@[simp] theorem pmuTick_pim (n : Nat) (s : State) (i : Nat) : (pmuTick n s i).pim = s.pim := pmuCount_pim ..
@[simp] theorem pmuTick_arb (n : Nat) (s : State) (i : Nat) : (pmuTick n s i).arb = s.arb := pmuCount_arb ..
@[simp] theorem pmuTick_txe (n : Nat) (s : State) (i : Nat) : (pmuTick n s i).txe = s.txe := pmuCount_txe ..
@[simp] theorem pmuTick_eth (n : Nat) (s : State) (i : Nat) : (pmuTick n s i).eth = s.eth := pmuCount_eth ..
@[simp] theorem pmuTick_mvb (n : Nat) (s : State) (i : Nat) : (pmuTick n s i).mvb = s.mvb := pmuCount_mvb ..
@[simp] theorem pmuTick_can0 (n : Nat) (s : State) (i : Nat) : (pmuTick n s i).can0 = s.can0 := pmuCount_can0 ..
@[simp] theorem pmuTick_can1 (n : Nat) (s : State) (i : Nat) : (pmuTick n s i).can1 = s.can1 := pmuCount_can1 ..
@[simp] theorem pmuTick_gw (n : Nat) (s : State) (i : Nat) : (pmuTick n s i).gw = s.gw := pmuCount_gw ..
@[simp] theorem pmuTick_tb (n : Nat) (s : State) (i : Nat) : (pmuTick n s i).tb = s.tb := pmuCount_tb ..
@[simp] theorem pmuTick_grp (n : Nat) (s : State) (i : Nat) : (pmuTick n s i).grp = s.grp := pmuCount_grp ..
@[simp] theorem pmuTick_safe (n : Nat) (s : State) (i : Nat) : (pmuTick n s i).safe = s.safe := pmuCount_safe ..
@[simp] theorem pmuTick_tk (n : Nat) (s : State) (i : Nat) : (pmuTick n s i).tk = s.tk := pmuCount_tk ..
@[simp] theorem pmuTick_upd (n : Nat) (s : State) (i : Nat) : (pmuTick n s i).upd = s.upd := pmuCount_upd ..
@[simp] theorem pmuTick_pgv (n : Nat) (s : State) (i : Nat) : (pmuTick n s i).pgv = s.pgv := pmuCount_pgv ..
@[simp] theorem pmuTick_rst (n : Nat) (s : State) (i : Nat) : (pmuTick n s i).rst = s.rst := pmuCount_rst ..
@[simp] theorem pmuTick_cul (n : Nat) (s : State) (i : Nat) : (pmuTick n s i).cul = s.cul := pmuCount_cul ..
@[simp] theorem pmuTick_evr (n : Nat) (s : State) (i : Nat) : (pmuTick n s i).evr = s.evr := pmuCount_evr ..
@[simp] theorem pmuTick_pin (n : Nat) (s : State) (i : Nat) : (pmuTick n s i).pin = s.pin := pmuCount_pin ..
@[simp] theorem pmuTick_clk (n : Nat) (s : State) (i : Nat) : (pmuTick n s i).clk = s.clk := pmuCount_clk ..
@[simp] theorem pmuTick_dram (n : Nat) (s : State) (i : Nat) : (pmuTick n s i).dram = s.dram := pmuCount_dram ..
@[simp] theorem pmuTick_host (n : Nat) (s : State) (i : Nat) : (pmuTick n s i).host = s.host := pmuCount_host ..
@[simp] theorem pmuTick_latches (n : Nat) (s : State) (i : Nat) : (pmuTick n s i).latches = s.latches := pmuCount_latches ..

/-! ### pmuPass -/

@[simp] theorem pmuPass_pending (s : State) (n : Nat) : (pmuPass s n).pending = s.pending := foldl_keeps State.pending _ (fun _ _ => pmuTick_pending ..) _ _
@[simp] theorem pmuPass_ci (s : State) (n : Nat) : (pmuPass s n).ci = s.ci := foldl_keeps State.ci _ (fun _ _ => pmuTick_ci ..) _ _
@[simp] theorem pmuPass_fab (s : State) (n : Nat) : (pmuPass s n).fab = s.fab := foldl_keeps State.fab _ (fun _ _ => pmuTick_fab ..) _ _
@[simp] theorem pmuPass_cyc (s : State) (n : Nat) : (pmuPass s n).cyc = s.cyc := foldl_keeps State.cyc _ (fun _ _ => pmuTick_cyc ..) _ _
@[simp] theorem pmuPass_glb (s : State) (n : Nat) : (pmuPass s n).glb = s.glb := foldl_keeps State.glb _ (fun _ _ => pmuTick_glb ..) _ _
@[simp] theorem pmuPass_pim (s : State) (n : Nat) : (pmuPass s n).pim = s.pim := foldl_keeps State.pim _ (fun _ _ => pmuTick_pim ..) _ _
@[simp] theorem pmuPass_arb (s : State) (n : Nat) : (pmuPass s n).arb = s.arb := foldl_keeps State.arb _ (fun _ _ => pmuTick_arb ..) _ _
@[simp] theorem pmuPass_txe (s : State) (n : Nat) : (pmuPass s n).txe = s.txe := foldl_keeps State.txe _ (fun _ _ => pmuTick_txe ..) _ _
@[simp] theorem pmuPass_eth (s : State) (n : Nat) : (pmuPass s n).eth = s.eth := foldl_keeps State.eth _ (fun _ _ => pmuTick_eth ..) _ _
@[simp] theorem pmuPass_mvb (s : State) (n : Nat) : (pmuPass s n).mvb = s.mvb := foldl_keeps State.mvb _ (fun _ _ => pmuTick_mvb ..) _ _
@[simp] theorem pmuPass_can0 (s : State) (n : Nat) : (pmuPass s n).can0 = s.can0 := foldl_keeps State.can0 _ (fun _ _ => pmuTick_can0 ..) _ _
@[simp] theorem pmuPass_can1 (s : State) (n : Nat) : (pmuPass s n).can1 = s.can1 := foldl_keeps State.can1 _ (fun _ _ => pmuTick_can1 ..) _ _
@[simp] theorem pmuPass_gw (s : State) (n : Nat) : (pmuPass s n).gw = s.gw := foldl_keeps State.gw _ (fun _ _ => pmuTick_gw ..) _ _
@[simp] theorem pmuPass_tb (s : State) (n : Nat) : (pmuPass s n).tb = s.tb := foldl_keeps State.tb _ (fun _ _ => pmuTick_tb ..) _ _
@[simp] theorem pmuPass_grp (s : State) (n : Nat) : (pmuPass s n).grp = s.grp := foldl_keeps State.grp _ (fun _ _ => pmuTick_grp ..) _ _
@[simp] theorem pmuPass_safe (s : State) (n : Nat) : (pmuPass s n).safe = s.safe := foldl_keeps State.safe _ (fun _ _ => pmuTick_safe ..) _ _
@[simp] theorem pmuPass_tk (s : State) (n : Nat) : (pmuPass s n).tk = s.tk := foldl_keeps State.tk _ (fun _ _ => pmuTick_tk ..) _ _
@[simp] theorem pmuPass_upd (s : State) (n : Nat) : (pmuPass s n).upd = s.upd := foldl_keeps State.upd _ (fun _ _ => pmuTick_upd ..) _ _
@[simp] theorem pmuPass_pgv (s : State) (n : Nat) : (pmuPass s n).pgv = s.pgv := foldl_keeps State.pgv _ (fun _ _ => pmuTick_pgv ..) _ _
@[simp] theorem pmuPass_rst (s : State) (n : Nat) : (pmuPass s n).rst = s.rst := foldl_keeps State.rst _ (fun _ _ => pmuTick_rst ..) _ _
@[simp] theorem pmuPass_cul (s : State) (n : Nat) : (pmuPass s n).cul = s.cul := foldl_keeps State.cul _ (fun _ _ => pmuTick_cul ..) _ _
@[simp] theorem pmuPass_evr (s : State) (n : Nat) : (pmuPass s n).evr = s.evr := foldl_keeps State.evr _ (fun _ _ => pmuTick_evr ..) _ _
@[simp] theorem pmuPass_pin (s : State) (n : Nat) : (pmuPass s n).pin = s.pin := foldl_keeps State.pin _ (fun _ _ => pmuTick_pin ..) _ _
@[simp] theorem pmuPass_clk (s : State) (n : Nat) : (pmuPass s n).clk = s.clk := foldl_keeps State.clk _ (fun _ _ => pmuTick_clk ..) _ _
@[simp] theorem pmuPass_dram (s : State) (n : Nat) : (pmuPass s n).dram = s.dram := foldl_keeps State.dram _ (fun _ _ => pmuTick_dram ..) _ _
@[simp] theorem pmuPass_host (s : State) (n : Nat) : (pmuPass s n).host = s.host := foldl_keeps State.host _ (fun _ _ => pmuTick_host ..) _ _
@[simp] theorem pmuPass_latches (s : State) (n : Nat) : (pmuPass s n).latches = s.latches := foldl_keeps State.latches _ (fun _ _ => pmuTick_latches ..) _ _

/-! ### passTime -/

@[simp] theorem passTime_pending (s : State) (n : Nat) : (passTime s n).pending = s.pending := pmuPass_pending ..
@[simp] theorem passTime_ci (s : State) (n : Nat) : (passTime s n).ci = s.ci := pmuPass_ci ..
@[simp] theorem passTime_fab (s : State) (n : Nat) : (passTime s n).fab = s.fab := pmuPass_fab ..
@[simp] theorem passTime_cyc (s : State) (n : Nat) : (passTime s n).cyc = s.cyc := pmuPass_cyc ..
@[simp] theorem passTime_glb (s : State) (n : Nat) : (passTime s n).glb = s.glb := pmuPass_glb ..
@[simp] theorem passTime_pim (s : State) (n : Nat) : (passTime s n).pim = s.pim := pmuPass_pim ..
@[simp] theorem passTime_arb (s : State) (n : Nat) : (passTime s n).arb = s.arb := pmuPass_arb ..
@[simp] theorem passTime_txe (s : State) (n : Nat) : (passTime s n).txe = s.txe := pmuPass_txe ..
@[simp] theorem passTime_eth (s : State) (n : Nat) : (passTime s n).eth = s.eth := pmuPass_eth ..
@[simp] theorem passTime_mvb (s : State) (n : Nat) : (passTime s n).mvb = s.mvb := pmuPass_mvb ..
@[simp] theorem passTime_can0 (s : State) (n : Nat) : (passTime s n).can0 = s.can0 := pmuPass_can0 ..
@[simp] theorem passTime_can1 (s : State) (n : Nat) : (passTime s n).can1 = s.can1 := pmuPass_can1 ..
@[simp] theorem passTime_gw (s : State) (n : Nat) : (passTime s n).gw = s.gw := pmuPass_gw ..
@[simp] theorem passTime_grp (s : State) (n : Nat) : (passTime s n).grp = s.grp := pmuPass_grp ..
@[simp] theorem passTime_safe (s : State) (n : Nat) : (passTime s n).safe = s.safe := pmuPass_safe ..
@[simp] theorem passTime_tk (s : State) (n : Nat) : (passTime s n).tk = s.tk := pmuPass_tk ..
@[simp] theorem passTime_upd (s : State) (n : Nat) : (passTime s n).upd = s.upd := pmuPass_upd ..
@[simp] theorem passTime_pgv (s : State) (n : Nat) : (passTime s n).pgv = s.pgv := pmuPass_pgv ..
@[simp] theorem passTime_rst (s : State) (n : Nat) : (passTime s n).rst = s.rst := pmuPass_rst ..
@[simp] theorem passTime_evr (s : State) (n : Nat) : (passTime s n).evr = s.evr := pmuPass_evr ..
@[simp] theorem passTime_pin (s : State) (n : Nat) :
    (passTime s n).pin = { s.pin with store := storeAfter s n, charged := s.pin.charged || storeAfter s n == storeFull } := by
  simp [passTime]
@[simp] theorem passTime_clk (s : State) (n : Nat) : (passTime s n).clk = devAfter s.clk s.tb.ttc n := by simp [passTime]
@[simp] theorem passTime_dram (s : State) (n : Nat) : (passTime s n).dram = s.dram := pmuPass_dram ..
@[simp] theorem passTime_host (s : State) (n : Nat) : (passTime s n).host = s.host := pmuPass_host ..
@[simp] theorem passTime_latches (s : State) (n : Nat) : (passTime s n).latches = s.latches := pmuPass_latches ..

/-! ### passTo -/

@[simp] theorem passTo_pending (s : State) (t : Word) : (passTo s t).pending = s.pending := by
  unfold passTo; split <;> first | rfl | exact passTime_pending ..
@[simp] theorem passTo_ci (s : State) (t : Word) : (passTo s t).ci = s.ci := by
  unfold passTo; split <;> first | rfl | exact passTime_ci ..
@[simp] theorem passTo_fab (s : State) (t : Word) : (passTo s t).fab = s.fab := by
  unfold passTo; split <;> first | rfl | exact passTime_fab ..
@[simp] theorem passTo_cyc (s : State) (t : Word) : (passTo s t).cyc = s.cyc := by
  unfold passTo; split <;> first | rfl | exact passTime_cyc ..
@[simp] theorem passTo_glb (s : State) (t : Word) : (passTo s t).glb = s.glb := by
  unfold passTo; split <;> first | rfl | exact passTime_glb ..
@[simp] theorem passTo_pim (s : State) (t : Word) : (passTo s t).pim = s.pim := by
  unfold passTo; split <;> first | rfl | exact passTime_pim ..
@[simp] theorem passTo_arb (s : State) (t : Word) : (passTo s t).arb = s.arb := by
  unfold passTo; split <;> first | rfl | exact passTime_arb ..
@[simp] theorem passTo_txe (s : State) (t : Word) : (passTo s t).txe = s.txe := by
  unfold passTo; split <;> first | rfl | exact passTime_txe ..
@[simp] theorem passTo_eth (s : State) (t : Word) : (passTo s t).eth = s.eth := by
  unfold passTo; split <;> first | rfl | exact passTime_eth ..
@[simp] theorem passTo_mvb (s : State) (t : Word) : (passTo s t).mvb = s.mvb := by
  unfold passTo; split <;> first | rfl | exact passTime_mvb ..
@[simp] theorem passTo_can0 (s : State) (t : Word) : (passTo s t).can0 = s.can0 := by
  unfold passTo; split <;> first | rfl | exact passTime_can0 ..
@[simp] theorem passTo_can1 (s : State) (t : Word) : (passTo s t).can1 = s.can1 := by
  unfold passTo; split <;> first | rfl | exact passTime_can1 ..
@[simp] theorem passTo_gw (s : State) (t : Word) : (passTo s t).gw = s.gw := by
  unfold passTo; split <;> first | rfl | exact passTime_gw ..
@[simp] theorem passTo_grp (s : State) (t : Word) : (passTo s t).grp = s.grp := by
  unfold passTo; split <;> first | rfl | exact passTime_grp ..
@[simp] theorem passTo_safe (s : State) (t : Word) : (passTo s t).safe = s.safe := by
  unfold passTo; split <;> first | rfl | exact passTime_safe ..
@[simp] theorem passTo_tk (s : State) (t : Word) : (passTo s t).tk = s.tk := by
  unfold passTo; split <;> first | rfl | exact passTime_tk ..
@[simp] theorem passTo_upd (s : State) (t : Word) : (passTo s t).upd = s.upd := by
  unfold passTo; split <;> first | rfl | exact passTime_upd ..
@[simp] theorem passTo_pgv (s : State) (t : Word) : (passTo s t).pgv = s.pgv := by
  unfold passTo; split <;> first | rfl | exact passTime_pgv ..
@[simp] theorem passTo_rst (s : State) (t : Word) : (passTo s t).rst = s.rst := by
  unfold passTo; split <;> first | rfl | exact passTime_rst ..
@[simp] theorem passTo_evr (s : State) (t : Word) : (passTo s t).evr = s.evr := by
  unfold passTo; split <;> first | rfl | exact passTime_evr ..
/-- Passing time changes nothing of the pins but the hold-up store (R523). -/
theorem passTo_pin (s : State) (t : Word) : ∃ n c, (passTo s t).pin = { s.pin with store := n, charged := c } := by
  unfold passTo; split
  · exact ⟨_, _, passTime_pin ..⟩
  · exact ⟨_, _, rfl⟩
@[simp] theorem passTo_powerGood (s : State) (t : Word) : (passTo s t).pin.powerGood = s.pin.powerGood := by
  obtain ⟨n, c, h⟩ := passTo_pin s t; rw [h]
@[simp] theorem passTo_warn (s : State) (t : Word) : (passTo s t).pin.warn = s.pin.warn := by
  obtain ⟨n, c, h⟩ := passTo_pin s t; rw [h]
@[simp] theorem passTo_latched (s : State) (t : Word) : (passTo s t).pin.latched = s.pin.latched := by
  obtain ⟨n, c, h⟩ := passTo_pin s t; rw [h]
/-- Passing time changes nothing of the clocks but the measurement of the reference (R60, R63). -/
theorem passTo_clk (s : State) (t : Word) : ∃ n d, (passTo s t).clk = { s.clk with devNs := n, refDev := d } := by
  unfold passTo; split
  · exact ⟨_, _, passTime_clk ..⟩
  · exact ⟨_, _, rfl⟩
@[simp] theorem passTo_clkOk (s : State) (t : Word) : (passTo s t).clk.ok = s.clk.ok := by
  obtain ⟨n, d, h⟩ := passTo_clk s t; rw [h]
@[simp] theorem passTo_acMask (s : State) (t : Word) : (passTo s t).clk.acMask = s.clk.acMask := by
  obtain ⟨n, d, h⟩ := passTo_clk s t; rw [h]
@[simp] theorem passTo_dram (s : State) (t : Word) : (passTo s t).dram = s.dram := by
  unfold passTo; split <;> first | rfl | exact passTime_dram ..
@[simp] theorem passTo_host (s : State) (t : Word) : (passTo s t).host = s.host := by
  unfold passTo; split <;> first | rfl | exact passTime_host ..
@[simp] theorem passTo_latches (s : State) (t : Word) : (passTo s t).latches = s.latches := by
  unfold passTo; split <;> first | rfl | exact passTime_latches ..

/-! ### rxClk -/

@[simp] theorem rxClk_pending (s : State) (i : Nat) (v : Bool) : (rxClk s i v).pending = s.pending := rfl
@[simp] theorem rxClk_ci (s : State) (i : Nat) (v : Bool) : (rxClk s i v).ci = s.ci := rfl
@[simp] theorem rxClk_fab (s : State) (i : Nat) (v : Bool) : (rxClk s i v).fab = s.fab := rfl
@[simp] theorem rxClk_cyc (s : State) (i : Nat) (v : Bool) : (rxClk s i v).cyc = s.cyc := rfl
@[simp] theorem rxClk_glb (s : State) (i : Nat) (v : Bool) : (rxClk s i v).glb = s.glb := rfl
@[simp] theorem rxClk_pim (s : State) (i : Nat) (v : Bool) : (rxClk s i v).pim = s.pim := rfl
@[simp] theorem rxClk_arb (s : State) (i : Nat) (v : Bool) : (rxClk s i v).arb = s.arb := rfl
@[simp] theorem rxClk_txe (s : State) (i : Nat) (v : Bool) : (rxClk s i v).txe = s.txe := rfl
@[simp] theorem rxClk_eth (s : State) (i : Nat) (v : Bool) : (rxClk s i v).eth = s.eth := rfl
@[simp] theorem rxClk_mvb (s : State) (i : Nat) (v : Bool) : (rxClk s i v).mvb = s.mvb := rfl
@[simp] theorem rxClk_can0 (s : State) (i : Nat) (v : Bool) : (rxClk s i v).can0 = s.can0 := rfl
@[simp] theorem rxClk_can1 (s : State) (i : Nat) (v : Bool) : (rxClk s i v).can1 = s.can1 := rfl
@[simp] theorem rxClk_gw (s : State) (i : Nat) (v : Bool) : (rxClk s i v).gw = s.gw := rfl
@[simp] theorem rxClk_tb (s : State) (i : Nat) (v : Bool) : (rxClk s i v).tb = s.tb := rfl
@[simp] theorem rxClk_grp (s : State) (i : Nat) (v : Bool) : (rxClk s i v).grp = s.grp := rfl
@[simp] theorem rxClk_safe (s : State) (i : Nat) (v : Bool) : (rxClk s i v).safe = s.safe := rfl
@[simp] theorem rxClk_tk (s : State) (i : Nat) (v : Bool) : (rxClk s i v).tk = s.tk := rfl
@[simp] theorem rxClk_upd (s : State) (i : Nat) (v : Bool) : (rxClk s i v).upd = s.upd := rfl
@[simp] theorem rxClk_pgv (s : State) (i : Nat) (v : Bool) : (rxClk s i v).pgv = s.pgv := rfl
@[simp] theorem rxClk_rst (s : State) (i : Nat) (v : Bool) : (rxClk s i v).rst = s.rst := rfl
@[simp] theorem rxClk_cul (s : State) (i : Nat) (v : Bool) : (rxClk s i v).cul = s.cul := rfl
@[simp] theorem rxClk_evr (s : State) (i : Nat) (v : Bool) : (rxClk s i v).evr = s.evr := rfl
@[simp] theorem rxClk_pmu (s : State) (i : Nat) (v : Bool) : (rxClk s i v).pmu = s.pmu := rfl
@[simp] theorem rxClk_pin (s : State) (i : Nat) (v : Bool) : (rxClk s i v).pin = s.pin := rfl
@[simp] theorem rxClk_dram (s : State) (i : Nat) (v : Bool) : (rxClk s i v).dram = s.dram := rfl
@[simp] theorem rxClk_host (s : State) (i : Nat) (v : Bool) : (rxClk s i v).host = s.host := rfl
@[simp] theorem rxClk_latches (s : State) (i : Nat) (v : Bool) : (rxClk s i v).latches = s.latches := rfl
@[simp] theorem rxClk_out (s : State) (i : Nat) (v : Bool) : (rxClk s i v).out = s.out := rfl

/-! ### recordAs -/

@[simp] theorem recordAs_pending (s : State) (r : Rec) : (recordAs s r).pending = s.pending := rfl
@[simp] theorem recordAs_ci (s : State) (r : Rec) : (recordAs s r).ci = s.ci := rfl
@[simp] theorem recordAs_fab (s : State) (r : Rec) : (recordAs s r).fab = s.fab := rfl
@[simp] theorem recordAs_cyc (s : State) (r : Rec) : (recordAs s r).cyc = s.cyc := rfl
@[simp] theorem recordAs_glb (s : State) (r : Rec) : (recordAs s r).glb = s.glb := rfl
@[simp] theorem recordAs_pim (s : State) (r : Rec) : (recordAs s r).pim = s.pim := rfl
@[simp] theorem recordAs_arb (s : State) (r : Rec) : (recordAs s r).arb = s.arb := rfl
@[simp] theorem recordAs_txe (s : State) (r : Rec) : (recordAs s r).txe = s.txe := rfl
@[simp] theorem recordAs_eth (s : State) (r : Rec) : (recordAs s r).eth = s.eth := rfl
@[simp] theorem recordAs_mvb (s : State) (r : Rec) : (recordAs s r).mvb = s.mvb := rfl
@[simp] theorem recordAs_can0 (s : State) (r : Rec) : (recordAs s r).can0 = s.can0 := rfl
@[simp] theorem recordAs_can1 (s : State) (r : Rec) : (recordAs s r).can1 = s.can1 := rfl
@[simp] theorem recordAs_gw (s : State) (r : Rec) : (recordAs s r).gw = s.gw := rfl
@[simp] theorem recordAs_tb (s : State) (r : Rec) : (recordAs s r).tb = s.tb := rfl
@[simp] theorem recordAs_grp (s : State) (r : Rec) : (recordAs s r).grp = s.grp := rfl
@[simp] theorem recordAs_safe (s : State) (r : Rec) : (recordAs s r).safe = s.safe := rfl
@[simp] theorem recordAs_tk (s : State) (r : Rec) : (recordAs s r).tk = s.tk := rfl
@[simp] theorem recordAs_upd (s : State) (r : Rec) : (recordAs s r).upd = s.upd := rfl
@[simp] theorem recordAs_pgv (s : State) (r : Rec) : (recordAs s r).pgv = s.pgv := rfl
@[simp] theorem recordAs_rst (s : State) (r : Rec) : (recordAs s r).rst = s.rst := rfl
@[simp] theorem recordAs_cul (s : State) (r : Rec) : (recordAs s r).cul = s.cul := rfl
@[simp] theorem recordAs_pmu (s : State) (r : Rec) : (recordAs s r).pmu = s.pmu := rfl
@[simp] theorem recordAs_pin (s : State) (r : Rec) : (recordAs s r).pin = s.pin := rfl
@[simp] theorem recordAs_clk (s : State) (r : Rec) : (recordAs s r).clk = s.clk := rfl
@[simp] theorem recordAs_dram (s : State) (r : Rec) : (recordAs s r).dram = s.dram := rfl
@[simp] theorem recordAs_host (s : State) (r : Rec) : (recordAs s r).host = s.host := rfl
@[simp] theorem recordAs_latches (s : State) (r : Rec) : (recordAs s r).latches = s.latches := rfl
@[simp] theorem recordAs_out (s : State) (r : Rec) : (recordAs s r).out = s.out := rfl

/-! ### record -/

@[simp] theorem record_pending (s : State) (sev : Sev) (src : BitVec 12) (code : BitVec 16) (subject : optParam Nat 0) (detail : List Byte) : (record s sev src code subject detail).pending = s.pending := rfl
@[simp] theorem record_ci (s : State) (sev : Sev) (src : BitVec 12) (code : BitVec 16) (subject : optParam Nat 0) (detail : List Byte) : (record s sev src code subject detail).ci = s.ci := rfl
@[simp] theorem record_fab (s : State) (sev : Sev) (src : BitVec 12) (code : BitVec 16) (subject : optParam Nat 0) (detail : List Byte) : (record s sev src code subject detail).fab = s.fab := rfl
@[simp] theorem record_cyc (s : State) (sev : Sev) (src : BitVec 12) (code : BitVec 16) (subject : optParam Nat 0) (detail : List Byte) : (record s sev src code subject detail).cyc = s.cyc := rfl
@[simp] theorem record_glb (s : State) (sev : Sev) (src : BitVec 12) (code : BitVec 16) (subject : optParam Nat 0) (detail : List Byte) : (record s sev src code subject detail).glb = s.glb := rfl
@[simp] theorem record_pim (s : State) (sev : Sev) (src : BitVec 12) (code : BitVec 16) (subject : optParam Nat 0) (detail : List Byte) : (record s sev src code subject detail).pim = s.pim := rfl
@[simp] theorem record_arb (s : State) (sev : Sev) (src : BitVec 12) (code : BitVec 16) (subject : optParam Nat 0) (detail : List Byte) : (record s sev src code subject detail).arb = s.arb := rfl
@[simp] theorem record_txe (s : State) (sev : Sev) (src : BitVec 12) (code : BitVec 16) (subject : optParam Nat 0) (detail : List Byte) : (record s sev src code subject detail).txe = s.txe := rfl
@[simp] theorem record_eth (s : State) (sev : Sev) (src : BitVec 12) (code : BitVec 16) (subject : optParam Nat 0) (detail : List Byte) : (record s sev src code subject detail).eth = s.eth := rfl
@[simp] theorem record_mvb (s : State) (sev : Sev) (src : BitVec 12) (code : BitVec 16) (subject : optParam Nat 0) (detail : List Byte) : (record s sev src code subject detail).mvb = s.mvb := rfl
@[simp] theorem record_can0 (s : State) (sev : Sev) (src : BitVec 12) (code : BitVec 16) (subject : optParam Nat 0) (detail : List Byte) : (record s sev src code subject detail).can0 = s.can0 := rfl
@[simp] theorem record_can1 (s : State) (sev : Sev) (src : BitVec 12) (code : BitVec 16) (subject : optParam Nat 0) (detail : List Byte) : (record s sev src code subject detail).can1 = s.can1 := rfl
@[simp] theorem record_gw (s : State) (sev : Sev) (src : BitVec 12) (code : BitVec 16) (subject : optParam Nat 0) (detail : List Byte) : (record s sev src code subject detail).gw = s.gw := rfl
@[simp] theorem record_tb (s : State) (sev : Sev) (src : BitVec 12) (code : BitVec 16) (subject : optParam Nat 0) (detail : List Byte) : (record s sev src code subject detail).tb = s.tb := rfl
@[simp] theorem record_grp (s : State) (sev : Sev) (src : BitVec 12) (code : BitVec 16) (subject : optParam Nat 0) (detail : List Byte) : (record s sev src code subject detail).grp = s.grp := rfl
@[simp] theorem record_safe (s : State) (sev : Sev) (src : BitVec 12) (code : BitVec 16) (subject : optParam Nat 0) (detail : List Byte) : (record s sev src code subject detail).safe = s.safe := rfl
@[simp] theorem record_tk (s : State) (sev : Sev) (src : BitVec 12) (code : BitVec 16) (subject : optParam Nat 0) (detail : List Byte) : (record s sev src code subject detail).tk = s.tk := rfl
@[simp] theorem record_upd (s : State) (sev : Sev) (src : BitVec 12) (code : BitVec 16) (subject : optParam Nat 0) (detail : List Byte) : (record s sev src code subject detail).upd = s.upd := rfl
@[simp] theorem record_pgv (s : State) (sev : Sev) (src : BitVec 12) (code : BitVec 16) (subject : optParam Nat 0) (detail : List Byte) : (record s sev src code subject detail).pgv = s.pgv := rfl
@[simp] theorem record_rst (s : State) (sev : Sev) (src : BitVec 12) (code : BitVec 16) (subject : optParam Nat 0) (detail : List Byte) : (record s sev src code subject detail).rst = s.rst := rfl
@[simp] theorem record_cul (s : State) (sev : Sev) (src : BitVec 12) (code : BitVec 16) (subject : optParam Nat 0) (detail : List Byte) : (record s sev src code subject detail).cul = s.cul := rfl
@[simp] theorem record_pmu (s : State) (sev : Sev) (src : BitVec 12) (code : BitVec 16) (subject : optParam Nat 0) (detail : List Byte) : (record s sev src code subject detail).pmu = s.pmu := rfl
@[simp] theorem record_pin (s : State) (sev : Sev) (src : BitVec 12) (code : BitVec 16) (subject : optParam Nat 0) (detail : List Byte) : (record s sev src code subject detail).pin = s.pin := rfl
@[simp] theorem record_clk (s : State) (sev : Sev) (src : BitVec 12) (code : BitVec 16) (subject : optParam Nat 0) (detail : List Byte) : (record s sev src code subject detail).clk = s.clk := rfl
@[simp] theorem record_dram (s : State) (sev : Sev) (src : BitVec 12) (code : BitVec 16) (subject : optParam Nat 0) (detail : List Byte) : (record s sev src code subject detail).dram = s.dram := rfl
@[simp] theorem record_host (s : State) (sev : Sev) (src : BitVec 12) (code : BitVec 16) (subject : optParam Nat 0) (detail : List Byte) : (record s sev src code subject detail).host = s.host := rfl
@[simp] theorem record_latches (s : State) (sev : Sev) (src : BitVec 12) (code : BitVec 16) (subject : optParam Nat 0) (detail : List Byte) : (record s sev src code subject detail).latches = s.latches := rfl
@[simp] theorem record_out (s : State) (sev : Sev) (src : BitVec 12) (code : BitVec 16) (subject : optParam Nat 0) (detail : List Byte) : (record s sev src code subject detail).out = s.out := rfl

/-! ### suppress -/

@[simp] theorem suppress_pending (s : State) (src : BitVec 12) (code : BitVec 16) : (suppress s src code).pending = s.pending := rfl
@[simp] theorem suppress_ci (s : State) (src : BitVec 12) (code : BitVec 16) : (suppress s src code).ci = s.ci := rfl
@[simp] theorem suppress_fab (s : State) (src : BitVec 12) (code : BitVec 16) : (suppress s src code).fab = s.fab := rfl
@[simp] theorem suppress_cyc (s : State) (src : BitVec 12) (code : BitVec 16) : (suppress s src code).cyc = s.cyc := rfl
@[simp] theorem suppress_glb (s : State) (src : BitVec 12) (code : BitVec 16) : (suppress s src code).glb = s.glb := rfl
@[simp] theorem suppress_pim (s : State) (src : BitVec 12) (code : BitVec 16) : (suppress s src code).pim = s.pim := rfl
@[simp] theorem suppress_arb (s : State) (src : BitVec 12) (code : BitVec 16) : (suppress s src code).arb = s.arb := rfl
@[simp] theorem suppress_txe (s : State) (src : BitVec 12) (code : BitVec 16) : (suppress s src code).txe = s.txe := rfl
@[simp] theorem suppress_eth (s : State) (src : BitVec 12) (code : BitVec 16) : (suppress s src code).eth = s.eth := rfl
@[simp] theorem suppress_mvb (s : State) (src : BitVec 12) (code : BitVec 16) : (suppress s src code).mvb = s.mvb := rfl
@[simp] theorem suppress_can0 (s : State) (src : BitVec 12) (code : BitVec 16) : (suppress s src code).can0 = s.can0 := rfl
@[simp] theorem suppress_can1 (s : State) (src : BitVec 12) (code : BitVec 16) : (suppress s src code).can1 = s.can1 := rfl
@[simp] theorem suppress_gw (s : State) (src : BitVec 12) (code : BitVec 16) : (suppress s src code).gw = s.gw := rfl
@[simp] theorem suppress_tb (s : State) (src : BitVec 12) (code : BitVec 16) : (suppress s src code).tb = s.tb := rfl
@[simp] theorem suppress_grp (s : State) (src : BitVec 12) (code : BitVec 16) : (suppress s src code).grp = s.grp := rfl
@[simp] theorem suppress_safe (s : State) (src : BitVec 12) (code : BitVec 16) : (suppress s src code).safe = s.safe := rfl
@[simp] theorem suppress_tk (s : State) (src : BitVec 12) (code : BitVec 16) : (suppress s src code).tk = s.tk := rfl
@[simp] theorem suppress_upd (s : State) (src : BitVec 12) (code : BitVec 16) : (suppress s src code).upd = s.upd := rfl
@[simp] theorem suppress_pgv (s : State) (src : BitVec 12) (code : BitVec 16) : (suppress s src code).pgv = s.pgv := rfl
@[simp] theorem suppress_rst (s : State) (src : BitVec 12) (code : BitVec 16) : (suppress s src code).rst = s.rst := rfl
@[simp] theorem suppress_cul (s : State) (src : BitVec 12) (code : BitVec 16) : (suppress s src code).cul = s.cul := rfl
@[simp] theorem suppress_pmu (s : State) (src : BitVec 12) (code : BitVec 16) : (suppress s src code).pmu = s.pmu := rfl
@[simp] theorem suppress_pin (s : State) (src : BitVec 12) (code : BitVec 16) : (suppress s src code).pin = s.pin := rfl
@[simp] theorem suppress_clk (s : State) (src : BitVec 12) (code : BitVec 16) : (suppress s src code).clk = s.clk := rfl
@[simp] theorem suppress_dram (s : State) (src : BitVec 12) (code : BitVec 16) : (suppress s src code).dram = s.dram := rfl
@[simp] theorem suppress_host (s : State) (src : BitVec 12) (code : BitVec 16) : (suppress s src code).host = s.host := rfl
@[simp] theorem suppress_latches (s : State) (src : BitVec 12) (code : BitVec 16) : (suppress s src code).latches = s.latches := rfl
@[simp] theorem suppress_out (s : State) (src : BitVec 12) (code : BitVec 16) : (suppress s src code).out = s.out := rfl

/-! ### modTile -/

@[simp] theorem modTile_pending (s : State) (n : TileNo) (g : Tile → Tile) : (modTile s n g).pending = s.pending := rfl
@[simp] theorem modTile_ci (s : State) (n : TileNo) (g : Tile → Tile) : (modTile s n g).ci = s.ci := rfl
@[simp] theorem modTile_cyc (s : State) (n : TileNo) (g : Tile → Tile) : (modTile s n g).cyc = s.cyc := rfl
@[simp] theorem modTile_glb (s : State) (n : TileNo) (g : Tile → Tile) : (modTile s n g).glb = s.glb := rfl
@[simp] theorem modTile_pim (s : State) (n : TileNo) (g : Tile → Tile) : (modTile s n g).pim = s.pim := rfl
@[simp] theorem modTile_arb (s : State) (n : TileNo) (g : Tile → Tile) : (modTile s n g).arb = s.arb := rfl
@[simp] theorem modTile_txe (s : State) (n : TileNo) (g : Tile → Tile) : (modTile s n g).txe = s.txe := rfl
@[simp] theorem modTile_eth (s : State) (n : TileNo) (g : Tile → Tile) : (modTile s n g).eth = s.eth := rfl
@[simp] theorem modTile_mvb (s : State) (n : TileNo) (g : Tile → Tile) : (modTile s n g).mvb = s.mvb := rfl
@[simp] theorem modTile_can0 (s : State) (n : TileNo) (g : Tile → Tile) : (modTile s n g).can0 = s.can0 := rfl
@[simp] theorem modTile_can1 (s : State) (n : TileNo) (g : Tile → Tile) : (modTile s n g).can1 = s.can1 := rfl
@[simp] theorem modTile_gw (s : State) (n : TileNo) (g : Tile → Tile) : (modTile s n g).gw = s.gw := rfl
@[simp] theorem modTile_tb (s : State) (n : TileNo) (g : Tile → Tile) : (modTile s n g).tb = s.tb := rfl
@[simp] theorem modTile_grp (s : State) (n : TileNo) (g : Tile → Tile) : (modTile s n g).grp = s.grp := rfl
@[simp] theorem modTile_safe (s : State) (n : TileNo) (g : Tile → Tile) : (modTile s n g).safe = s.safe := rfl
@[simp] theorem modTile_tk (s : State) (n : TileNo) (g : Tile → Tile) : (modTile s n g).tk = s.tk := rfl
@[simp] theorem modTile_upd (s : State) (n : TileNo) (g : Tile → Tile) : (modTile s n g).upd = s.upd := rfl
@[simp] theorem modTile_pgv (s : State) (n : TileNo) (g : Tile → Tile) : (modTile s n g).pgv = s.pgv := rfl
@[simp] theorem modTile_rst (s : State) (n : TileNo) (g : Tile → Tile) : (modTile s n g).rst = s.rst := rfl
@[simp] theorem modTile_cul (s : State) (n : TileNo) (g : Tile → Tile) : (modTile s n g).cul = s.cul := rfl
@[simp] theorem modTile_evr (s : State) (n : TileNo) (g : Tile → Tile) : (modTile s n g).evr = s.evr := rfl
@[simp] theorem modTile_pmu (s : State) (n : TileNo) (g : Tile → Tile) : (modTile s n g).pmu = s.pmu := rfl
@[simp] theorem modTile_pin (s : State) (n : TileNo) (g : Tile → Tile) : (modTile s n g).pin = s.pin := rfl
@[simp] theorem modTile_clk (s : State) (n : TileNo) (g : Tile → Tile) : (modTile s n g).clk = s.clk := rfl
@[simp] theorem modTile_dram (s : State) (n : TileNo) (g : Tile → Tile) : (modTile s n g).dram = s.dram := rfl
@[simp] theorem modTile_host (s : State) (n : TileNo) (g : Tile → Tile) : (modTile s n g).host = s.host := rfl
@[simp] theorem modTile_latches (s : State) (n : TileNo) (g : Tile → Tile) : (modTile s n g).latches = s.latches := rfl
@[simp] theorem modTile_out (s : State) (n : TileNo) (g : Tile → Tile) : (modTile s n g).out = s.out := rfl

/-! ### modEth -/

@[simp] theorem modEth_pending (s : State) (i : EthNo) (f : EthPort → EthPort) : (modEth s i f).pending = s.pending := rfl
@[simp] theorem modEth_ci (s : State) (i : EthNo) (f : EthPort → EthPort) : (modEth s i f).ci = s.ci := rfl
@[simp] theorem modEth_fab (s : State) (i : EthNo) (f : EthPort → EthPort) : (modEth s i f).fab = s.fab := rfl
@[simp] theorem modEth_cyc (s : State) (i : EthNo) (f : EthPort → EthPort) : (modEth s i f).cyc = s.cyc := rfl
@[simp] theorem modEth_glb (s : State) (i : EthNo) (f : EthPort → EthPort) : (modEth s i f).glb = s.glb := rfl
@[simp] theorem modEth_pim (s : State) (i : EthNo) (f : EthPort → EthPort) : (modEth s i f).pim = s.pim := rfl
@[simp] theorem modEth_arb (s : State) (i : EthNo) (f : EthPort → EthPort) : (modEth s i f).arb = s.arb := rfl
@[simp] theorem modEth_txe (s : State) (i : EthNo) (f : EthPort → EthPort) : (modEth s i f).txe = s.txe := rfl
@[simp] theorem modEth_mvb (s : State) (i : EthNo) (f : EthPort → EthPort) : (modEth s i f).mvb = s.mvb := rfl
@[simp] theorem modEth_can0 (s : State) (i : EthNo) (f : EthPort → EthPort) : (modEth s i f).can0 = s.can0 := rfl
@[simp] theorem modEth_can1 (s : State) (i : EthNo) (f : EthPort → EthPort) : (modEth s i f).can1 = s.can1 := rfl
@[simp] theorem modEth_gw (s : State) (i : EthNo) (f : EthPort → EthPort) : (modEth s i f).gw = s.gw := rfl
@[simp] theorem modEth_tb (s : State) (i : EthNo) (f : EthPort → EthPort) : (modEth s i f).tb = s.tb := rfl
@[simp] theorem modEth_grp (s : State) (i : EthNo) (f : EthPort → EthPort) : (modEth s i f).grp = s.grp := rfl
@[simp] theorem modEth_safe (s : State) (i : EthNo) (f : EthPort → EthPort) : (modEth s i f).safe = s.safe := rfl
@[simp] theorem modEth_tk (s : State) (i : EthNo) (f : EthPort → EthPort) : (modEth s i f).tk = s.tk := rfl
@[simp] theorem modEth_upd (s : State) (i : EthNo) (f : EthPort → EthPort) : (modEth s i f).upd = s.upd := rfl
@[simp] theorem modEth_pgv (s : State) (i : EthNo) (f : EthPort → EthPort) : (modEth s i f).pgv = s.pgv := rfl
@[simp] theorem modEth_rst (s : State) (i : EthNo) (f : EthPort → EthPort) : (modEth s i f).rst = s.rst := rfl
@[simp] theorem modEth_cul (s : State) (i : EthNo) (f : EthPort → EthPort) : (modEth s i f).cul = s.cul := rfl
@[simp] theorem modEth_evr (s : State) (i : EthNo) (f : EthPort → EthPort) : (modEth s i f).evr = s.evr := rfl
@[simp] theorem modEth_pmu (s : State) (i : EthNo) (f : EthPort → EthPort) : (modEth s i f).pmu = s.pmu := rfl
@[simp] theorem modEth_pin (s : State) (i : EthNo) (f : EthPort → EthPort) : (modEth s i f).pin = s.pin := rfl
@[simp] theorem modEth_clk (s : State) (i : EthNo) (f : EthPort → EthPort) : (modEth s i f).clk = s.clk := rfl
@[simp] theorem modEth_dram (s : State) (i : EthNo) (f : EthPort → EthPort) : (modEth s i f).dram = s.dram := rfl
@[simp] theorem modEth_host (s : State) (i : EthNo) (f : EthPort → EthPort) : (modEth s i f).host = s.host := rfl
@[simp] theorem modEth_latches (s : State) (i : EthNo) (f : EthPort → EthPort) : (modEth s i f).latches = s.latches := rfl
@[simp] theorem modEth_out (s : State) (i : EthNo) (f : EthPort → EthPort) : (modEth s i f).out = s.out := rfl

/-! ### modPub -/

@[simp] theorem modPub_pending (s : State) (i : Nat) (f : PubStat → PubStat) : (modPub s i f).pending = s.pending := rfl
@[simp] theorem modPub_ci (s : State) (i : Nat) (f : PubStat → PubStat) : (modPub s i f).ci = s.ci := rfl
@[simp] theorem modPub_fab (s : State) (i : Nat) (f : PubStat → PubStat) : (modPub s i f).fab = s.fab := rfl
@[simp] theorem modPub_cyc (s : State) (i : Nat) (f : PubStat → PubStat) : (modPub s i f).cyc = s.cyc := rfl
@[simp] theorem modPub_glb (s : State) (i : Nat) (f : PubStat → PubStat) : (modPub s i f).glb = s.glb := rfl
@[simp] theorem modPub_pim (s : State) (i : Nat) (f : PubStat → PubStat) : (modPub s i f).pim = s.pim := rfl
@[simp] theorem modPub_arb (s : State) (i : Nat) (f : PubStat → PubStat) : (modPub s i f).arb = s.arb := rfl
@[simp] theorem modPub_txe (s : State) (i : Nat) (f : PubStat → PubStat) : (modPub s i f).txe = s.txe := rfl
@[simp] theorem modPub_mvb (s : State) (i : Nat) (f : PubStat → PubStat) : (modPub s i f).mvb = s.mvb := rfl
@[simp] theorem modPub_can0 (s : State) (i : Nat) (f : PubStat → PubStat) : (modPub s i f).can0 = s.can0 := rfl
@[simp] theorem modPub_can1 (s : State) (i : Nat) (f : PubStat → PubStat) : (modPub s i f).can1 = s.can1 := rfl
@[simp] theorem modPub_gw (s : State) (i : Nat) (f : PubStat → PubStat) : (modPub s i f).gw = s.gw := rfl
@[simp] theorem modPub_tb (s : State) (i : Nat) (f : PubStat → PubStat) : (modPub s i f).tb = s.tb := rfl
@[simp] theorem modPub_grp (s : State) (i : Nat) (f : PubStat → PubStat) : (modPub s i f).grp = s.grp := rfl
@[simp] theorem modPub_safe (s : State) (i : Nat) (f : PubStat → PubStat) : (modPub s i f).safe = s.safe := rfl
@[simp] theorem modPub_tk (s : State) (i : Nat) (f : PubStat → PubStat) : (modPub s i f).tk = s.tk := rfl
@[simp] theorem modPub_upd (s : State) (i : Nat) (f : PubStat → PubStat) : (modPub s i f).upd = s.upd := rfl
@[simp] theorem modPub_pgv (s : State) (i : Nat) (f : PubStat → PubStat) : (modPub s i f).pgv = s.pgv := rfl
@[simp] theorem modPub_rst (s : State) (i : Nat) (f : PubStat → PubStat) : (modPub s i f).rst = s.rst := rfl
@[simp] theorem modPub_cul (s : State) (i : Nat) (f : PubStat → PubStat) : (modPub s i f).cul = s.cul := rfl
@[simp] theorem modPub_evr (s : State) (i : Nat) (f : PubStat → PubStat) : (modPub s i f).evr = s.evr := rfl
@[simp] theorem modPub_pmu (s : State) (i : Nat) (f : PubStat → PubStat) : (modPub s i f).pmu = s.pmu := rfl
@[simp] theorem modPub_pin (s : State) (i : Nat) (f : PubStat → PubStat) : (modPub s i f).pin = s.pin := rfl
@[simp] theorem modPub_clk (s : State) (i : Nat) (f : PubStat → PubStat) : (modPub s i f).clk = s.clk := rfl
@[simp] theorem modPub_dram (s : State) (i : Nat) (f : PubStat → PubStat) : (modPub s i f).dram = s.dram := rfl
@[simp] theorem modPub_host (s : State) (i : Nat) (f : PubStat → PubStat) : (modPub s i f).host = s.host := rfl
@[simp] theorem modPub_latches (s : State) (i : Nat) (f : PubStat → PubStat) : (modPub s i f).latches = s.latches := rfl
@[simp] theorem modPub_out (s : State) (i : Nat) (f : PubStat → PubStat) : (modPub s i f).out = s.out := rfl

/-! ### modSub -/

@[simp] theorem modSub_pending (s : State) (i : Nat) (f : SubStat → SubStat) : (modSub s i f).pending = s.pending := rfl
@[simp] theorem modSub_ci (s : State) (i : Nat) (f : SubStat → SubStat) : (modSub s i f).ci = s.ci := rfl
@[simp] theorem modSub_fab (s : State) (i : Nat) (f : SubStat → SubStat) : (modSub s i f).fab = s.fab := rfl
@[simp] theorem modSub_cyc (s : State) (i : Nat) (f : SubStat → SubStat) : (modSub s i f).cyc = s.cyc := rfl
@[simp] theorem modSub_glb (s : State) (i : Nat) (f : SubStat → SubStat) : (modSub s i f).glb = s.glb := rfl
@[simp] theorem modSub_pim (s : State) (i : Nat) (f : SubStat → SubStat) : (modSub s i f).pim = s.pim := rfl
@[simp] theorem modSub_arb (s : State) (i : Nat) (f : SubStat → SubStat) : (modSub s i f).arb = s.arb := rfl
@[simp] theorem modSub_txe (s : State) (i : Nat) (f : SubStat → SubStat) : (modSub s i f).txe = s.txe := rfl
@[simp] theorem modSub_mvb (s : State) (i : Nat) (f : SubStat → SubStat) : (modSub s i f).mvb = s.mvb := rfl
@[simp] theorem modSub_can0 (s : State) (i : Nat) (f : SubStat → SubStat) : (modSub s i f).can0 = s.can0 := rfl
@[simp] theorem modSub_can1 (s : State) (i : Nat) (f : SubStat → SubStat) : (modSub s i f).can1 = s.can1 := rfl
@[simp] theorem modSub_gw (s : State) (i : Nat) (f : SubStat → SubStat) : (modSub s i f).gw = s.gw := rfl
@[simp] theorem modSub_tb (s : State) (i : Nat) (f : SubStat → SubStat) : (modSub s i f).tb = s.tb := rfl
@[simp] theorem modSub_grp (s : State) (i : Nat) (f : SubStat → SubStat) : (modSub s i f).grp = s.grp := rfl
@[simp] theorem modSub_safe (s : State) (i : Nat) (f : SubStat → SubStat) : (modSub s i f).safe = s.safe := rfl
@[simp] theorem modSub_tk (s : State) (i : Nat) (f : SubStat → SubStat) : (modSub s i f).tk = s.tk := rfl
@[simp] theorem modSub_upd (s : State) (i : Nat) (f : SubStat → SubStat) : (modSub s i f).upd = s.upd := rfl
@[simp] theorem modSub_pgv (s : State) (i : Nat) (f : SubStat → SubStat) : (modSub s i f).pgv = s.pgv := rfl
@[simp] theorem modSub_rst (s : State) (i : Nat) (f : SubStat → SubStat) : (modSub s i f).rst = s.rst := rfl
@[simp] theorem modSub_cul (s : State) (i : Nat) (f : SubStat → SubStat) : (modSub s i f).cul = s.cul := rfl
@[simp] theorem modSub_evr (s : State) (i : Nat) (f : SubStat → SubStat) : (modSub s i f).evr = s.evr := rfl
@[simp] theorem modSub_pmu (s : State) (i : Nat) (f : SubStat → SubStat) : (modSub s i f).pmu = s.pmu := rfl
@[simp] theorem modSub_pin (s : State) (i : Nat) (f : SubStat → SubStat) : (modSub s i f).pin = s.pin := rfl
@[simp] theorem modSub_clk (s : State) (i : Nat) (f : SubStat → SubStat) : (modSub s i f).clk = s.clk := rfl
@[simp] theorem modSub_dram (s : State) (i : Nat) (f : SubStat → SubStat) : (modSub s i f).dram = s.dram := rfl
@[simp] theorem modSub_host (s : State) (i : Nat) (f : SubStat → SubStat) : (modSub s i f).host = s.host := rfl
@[simp] theorem modSub_latches (s : State) (i : Nat) (f : SubStat → SubStat) : (modSub s i f).latches = s.latches := rfl
@[simp] theorem modSub_out (s : State) (i : Nat) (f : SubStat → SubStat) : (modSub s i f).out = s.out := rfl

/-! ### modBr -/

@[simp] theorem modBr_pending (s : State) (l : GLink) (f : Bridge → Bridge) : (modBr s l f).pending = s.pending := by
  unfold modBr; first | rfl | ((repeat' split) <;> rfl)
@[simp] theorem modBr_ci (s : State) (l : GLink) (f : Bridge → Bridge) : (modBr s l f).ci = s.ci := by
  unfold modBr; first | rfl | ((repeat' split) <;> rfl)
@[simp] theorem modBr_fab (s : State) (l : GLink) (f : Bridge → Bridge) : (modBr s l f).fab = s.fab := by
  unfold modBr; first | rfl | ((repeat' split) <;> rfl)
@[simp] theorem modBr_cyc (s : State) (l : GLink) (f : Bridge → Bridge) : (modBr s l f).cyc = s.cyc := by
  unfold modBr; first | rfl | ((repeat' split) <;> rfl)
@[simp] theorem modBr_glb (s : State) (l : GLink) (f : Bridge → Bridge) : (modBr s l f).glb = s.glb := by
  unfold modBr; first | rfl | ((repeat' split) <;> rfl)
@[simp] theorem modBr_pim (s : State) (l : GLink) (f : Bridge → Bridge) : (modBr s l f).pim = s.pim := by
  unfold modBr; first | rfl | ((repeat' split) <;> rfl)
@[simp] theorem modBr_arb (s : State) (l : GLink) (f : Bridge → Bridge) : (modBr s l f).arb = s.arb := by
  unfold modBr; first | rfl | ((repeat' split) <;> rfl)
@[simp] theorem modBr_txe (s : State) (l : GLink) (f : Bridge → Bridge) : (modBr s l f).txe = s.txe := by
  unfold modBr; first | rfl | ((repeat' split) <;> rfl)
@[simp] theorem modBr_eth (s : State) (l : GLink) (f : Bridge → Bridge) : (modBr s l f).eth = s.eth := by
  unfold modBr; first | rfl | ((repeat' split) <;> rfl)
@[simp] theorem modBr_mvb (s : State) (l : GLink) (f : Bridge → Bridge) : (modBr s l f).mvb = s.mvb := by
  unfold modBr; first | rfl | ((repeat' split) <;> rfl)
@[simp] theorem modBr_can0 (s : State) (l : GLink) (f : Bridge → Bridge) : (modBr s l f).can0 = s.can0 := by
  unfold modBr; first | rfl | ((repeat' split) <;> rfl)
@[simp] theorem modBr_can1 (s : State) (l : GLink) (f : Bridge → Bridge) : (modBr s l f).can1 = s.can1 := by
  unfold modBr; first | rfl | ((repeat' split) <;> rfl)
@[simp] theorem modBr_gw (s : State) (l : GLink) (f : Bridge → Bridge) : (modBr s l f).gw = s.gw := by
  unfold modBr; first | rfl | ((repeat' split) <;> rfl)
@[simp] theorem modBr_tb (s : State) (l : GLink) (f : Bridge → Bridge) : (modBr s l f).tb = s.tb := by
  unfold modBr; first | rfl | ((repeat' split) <;> rfl)
@[simp] theorem modBr_safe (s : State) (l : GLink) (f : Bridge → Bridge) : (modBr s l f).safe = s.safe := by
  unfold modBr; first | rfl | ((repeat' split) <;> rfl)
@[simp] theorem modBr_tk (s : State) (l : GLink) (f : Bridge → Bridge) : (modBr s l f).tk = s.tk := by
  unfold modBr; first | rfl | ((repeat' split) <;> rfl)
@[simp] theorem modBr_upd (s : State) (l : GLink) (f : Bridge → Bridge) : (modBr s l f).upd = s.upd := by
  unfold modBr; first | rfl | ((repeat' split) <;> rfl)
@[simp] theorem modBr_pgv (s : State) (l : GLink) (f : Bridge → Bridge) : (modBr s l f).pgv = s.pgv := by
  unfold modBr; first | rfl | ((repeat' split) <;> rfl)
@[simp] theorem modBr_rst (s : State) (l : GLink) (f : Bridge → Bridge) : (modBr s l f).rst = s.rst := by
  unfold modBr; first | rfl | ((repeat' split) <;> rfl)
@[simp] theorem modBr_cul (s : State) (l : GLink) (f : Bridge → Bridge) : (modBr s l f).cul = s.cul := by
  unfold modBr; first | rfl | ((repeat' split) <;> rfl)
@[simp] theorem modBr_evr (s : State) (l : GLink) (f : Bridge → Bridge) : (modBr s l f).evr = s.evr := by
  unfold modBr; first | rfl | ((repeat' split) <;> rfl)
@[simp] theorem modBr_pmu (s : State) (l : GLink) (f : Bridge → Bridge) : (modBr s l f).pmu = s.pmu := by
  unfold modBr; first | rfl | ((repeat' split) <;> rfl)
@[simp] theorem modBr_pin (s : State) (l : GLink) (f : Bridge → Bridge) : (modBr s l f).pin = s.pin := by
  unfold modBr; first | rfl | ((repeat' split) <;> rfl)
@[simp] theorem modBr_clk (s : State) (l : GLink) (f : Bridge → Bridge) : (modBr s l f).clk = s.clk := by
  unfold modBr; first | rfl | ((repeat' split) <;> rfl)
@[simp] theorem modBr_dram (s : State) (l : GLink) (f : Bridge → Bridge) : (modBr s l f).dram = s.dram := by
  unfold modBr; first | rfl | ((repeat' split) <;> rfl)
@[simp] theorem modBr_host (s : State) (l : GLink) (f : Bridge → Bridge) : (modBr s l f).host = s.host := by
  unfold modBr; first | rfl | ((repeat' split) <;> rfl)
@[simp] theorem modBr_latches (s : State) (l : GLink) (f : Bridge → Bridge) : (modBr s l f).latches = s.latches := by
  unfold modBr; first | rfl | ((repeat' split) <;> rfl)
@[simp] theorem modBr_out (s : State) (l : GLink) (f : Bridge → Bridge) : (modBr s l f).out = s.out := by
  unfold modBr; first | rfl | ((repeat' split) <;> rfl)

/-! ### modPeer -/

@[simp] theorem modPeer_pending (s : State) (l : GLink) (f : Peer → Peer) : (modPeer s l f).pending = s.pending := by
  unfold modPeer; first | rfl | ((repeat' split) <;> rfl)
@[simp] theorem modPeer_ci (s : State) (l : GLink) (f : Peer → Peer) : (modPeer s l f).ci = s.ci := by
  unfold modPeer; first | rfl | ((repeat' split) <;> rfl)
@[simp] theorem modPeer_fab (s : State) (l : GLink) (f : Peer → Peer) : (modPeer s l f).fab = s.fab := by
  unfold modPeer; first | rfl | ((repeat' split) <;> rfl)
@[simp] theorem modPeer_cyc (s : State) (l : GLink) (f : Peer → Peer) : (modPeer s l f).cyc = s.cyc := by
  unfold modPeer; first | rfl | ((repeat' split) <;> rfl)
@[simp] theorem modPeer_glb (s : State) (l : GLink) (f : Peer → Peer) : (modPeer s l f).glb = s.glb := by
  unfold modPeer; first | rfl | ((repeat' split) <;> rfl)
@[simp] theorem modPeer_pim (s : State) (l : GLink) (f : Peer → Peer) : (modPeer s l f).pim = s.pim := by
  unfold modPeer; first | rfl | ((repeat' split) <;> rfl)
@[simp] theorem modPeer_arb (s : State) (l : GLink) (f : Peer → Peer) : (modPeer s l f).arb = s.arb := by
  unfold modPeer; first | rfl | ((repeat' split) <;> rfl)
@[simp] theorem modPeer_txe (s : State) (l : GLink) (f : Peer → Peer) : (modPeer s l f).txe = s.txe := by
  unfold modPeer; first | rfl | ((repeat' split) <;> rfl)
@[simp] theorem modPeer_eth (s : State) (l : GLink) (f : Peer → Peer) : (modPeer s l f).eth = s.eth := by
  unfold modPeer; first | rfl | ((repeat' split) <;> rfl)
@[simp] theorem modPeer_mvb (s : State) (l : GLink) (f : Peer → Peer) : (modPeer s l f).mvb = s.mvb := by
  unfold modPeer; first | rfl | ((repeat' split) <;> rfl)
@[simp] theorem modPeer_can0 (s : State) (l : GLink) (f : Peer → Peer) : (modPeer s l f).can0 = s.can0 := by
  unfold modPeer; first | rfl | ((repeat' split) <;> rfl)
@[simp] theorem modPeer_can1 (s : State) (l : GLink) (f : Peer → Peer) : (modPeer s l f).can1 = s.can1 := by
  unfold modPeer; first | rfl | ((repeat' split) <;> rfl)
@[simp] theorem modPeer_gw (s : State) (l : GLink) (f : Peer → Peer) : (modPeer s l f).gw = s.gw := by
  unfold modPeer; first | rfl | ((repeat' split) <;> rfl)
@[simp] theorem modPeer_tb (s : State) (l : GLink) (f : Peer → Peer) : (modPeer s l f).tb = s.tb := by
  unfold modPeer; first | rfl | ((repeat' split) <;> rfl)
@[simp] theorem modPeer_safe (s : State) (l : GLink) (f : Peer → Peer) : (modPeer s l f).safe = s.safe := by
  unfold modPeer; first | rfl | ((repeat' split) <;> rfl)
@[simp] theorem modPeer_tk (s : State) (l : GLink) (f : Peer → Peer) : (modPeer s l f).tk = s.tk := by
  unfold modPeer; first | rfl | ((repeat' split) <;> rfl)
@[simp] theorem modPeer_upd (s : State) (l : GLink) (f : Peer → Peer) : (modPeer s l f).upd = s.upd := by
  unfold modPeer; first | rfl | ((repeat' split) <;> rfl)
@[simp] theorem modPeer_pgv (s : State) (l : GLink) (f : Peer → Peer) : (modPeer s l f).pgv = s.pgv := by
  unfold modPeer; first | rfl | ((repeat' split) <;> rfl)
@[simp] theorem modPeer_rst (s : State) (l : GLink) (f : Peer → Peer) : (modPeer s l f).rst = s.rst := by
  unfold modPeer; first | rfl | ((repeat' split) <;> rfl)
@[simp] theorem modPeer_cul (s : State) (l : GLink) (f : Peer → Peer) : (modPeer s l f).cul = s.cul := by
  unfold modPeer; first | rfl | ((repeat' split) <;> rfl)
@[simp] theorem modPeer_evr (s : State) (l : GLink) (f : Peer → Peer) : (modPeer s l f).evr = s.evr := by
  unfold modPeer; first | rfl | ((repeat' split) <;> rfl)
@[simp] theorem modPeer_pmu (s : State) (l : GLink) (f : Peer → Peer) : (modPeer s l f).pmu = s.pmu := by
  unfold modPeer; first | rfl | ((repeat' split) <;> rfl)
@[simp] theorem modPeer_pin (s : State) (l : GLink) (f : Peer → Peer) : (modPeer s l f).pin = s.pin := by
  unfold modPeer; first | rfl | ((repeat' split) <;> rfl)
@[simp] theorem modPeer_clk (s : State) (l : GLink) (f : Peer → Peer) : (modPeer s l f).clk = s.clk := by
  unfold modPeer; first | rfl | ((repeat' split) <;> rfl)
@[simp] theorem modPeer_dram (s : State) (l : GLink) (f : Peer → Peer) : (modPeer s l f).dram = s.dram := by
  unfold modPeer; first | rfl | ((repeat' split) <;> rfl)
@[simp] theorem modPeer_host (s : State) (l : GLink) (f : Peer → Peer) : (modPeer s l f).host = s.host := by
  unfold modPeer; first | rfl | ((repeat' split) <;> rfl)
@[simp] theorem modPeer_latches (s : State) (l : GLink) (f : Peer → Peer) : (modPeer s l f).latches = s.latches := by
  unfold modPeer; first | rfl | ((repeat' split) <;> rfl)
@[simp] theorem modPeer_out (s : State) (l : GLink) (f : Peer → Peer) : (modPeer s l f).out = s.out := by
  unfold modPeer; first | rfl | ((repeat' split) <;> rfl)

/-! ### modSo -/

@[simp] theorem modSo_pending (s : State) (n : Nat) (f : SafeOut → SafeOut) : (modSo s n f).pending = s.pending := rfl
@[simp] theorem modSo_ci (s : State) (n : Nat) (f : SafeOut → SafeOut) : (modSo s n f).ci = s.ci := rfl
@[simp] theorem modSo_fab (s : State) (n : Nat) (f : SafeOut → SafeOut) : (modSo s n f).fab = s.fab := rfl
@[simp] theorem modSo_cyc (s : State) (n : Nat) (f : SafeOut → SafeOut) : (modSo s n f).cyc = s.cyc := rfl
@[simp] theorem modSo_glb (s : State) (n : Nat) (f : SafeOut → SafeOut) : (modSo s n f).glb = s.glb := rfl
@[simp] theorem modSo_pim (s : State) (n : Nat) (f : SafeOut → SafeOut) : (modSo s n f).pim = s.pim := rfl
@[simp] theorem modSo_arb (s : State) (n : Nat) (f : SafeOut → SafeOut) : (modSo s n f).arb = s.arb := rfl
@[simp] theorem modSo_txe (s : State) (n : Nat) (f : SafeOut → SafeOut) : (modSo s n f).txe = s.txe := rfl
@[simp] theorem modSo_eth (s : State) (n : Nat) (f : SafeOut → SafeOut) : (modSo s n f).eth = s.eth := rfl
@[simp] theorem modSo_mvb (s : State) (n : Nat) (f : SafeOut → SafeOut) : (modSo s n f).mvb = s.mvb := rfl
@[simp] theorem modSo_can0 (s : State) (n : Nat) (f : SafeOut → SafeOut) : (modSo s n f).can0 = s.can0 := rfl
@[simp] theorem modSo_can1 (s : State) (n : Nat) (f : SafeOut → SafeOut) : (modSo s n f).can1 = s.can1 := rfl
@[simp] theorem modSo_gw (s : State) (n : Nat) (f : SafeOut → SafeOut) : (modSo s n f).gw = s.gw := rfl
@[simp] theorem modSo_tb (s : State) (n : Nat) (f : SafeOut → SafeOut) : (modSo s n f).tb = s.tb := rfl
@[simp] theorem modSo_grp (s : State) (n : Nat) (f : SafeOut → SafeOut) : (modSo s n f).grp = s.grp := rfl
@[simp] theorem modSo_tk (s : State) (n : Nat) (f : SafeOut → SafeOut) : (modSo s n f).tk = s.tk := rfl
@[simp] theorem modSo_upd (s : State) (n : Nat) (f : SafeOut → SafeOut) : (modSo s n f).upd = s.upd := rfl
@[simp] theorem modSo_pgv (s : State) (n : Nat) (f : SafeOut → SafeOut) : (modSo s n f).pgv = s.pgv := rfl
@[simp] theorem modSo_rst (s : State) (n : Nat) (f : SafeOut → SafeOut) : (modSo s n f).rst = s.rst := rfl
@[simp] theorem modSo_cul (s : State) (n : Nat) (f : SafeOut → SafeOut) : (modSo s n f).cul = s.cul := rfl
@[simp] theorem modSo_evr (s : State) (n : Nat) (f : SafeOut → SafeOut) : (modSo s n f).evr = s.evr := rfl
@[simp] theorem modSo_pmu (s : State) (n : Nat) (f : SafeOut → SafeOut) : (modSo s n f).pmu = s.pmu := rfl
@[simp] theorem modSo_pin (s : State) (n : Nat) (f : SafeOut → SafeOut) : (modSo s n f).pin = s.pin := rfl
@[simp] theorem modSo_clk (s : State) (n : Nat) (f : SafeOut → SafeOut) : (modSo s n f).clk = s.clk := rfl
@[simp] theorem modSo_dram (s : State) (n : Nat) (f : SafeOut → SafeOut) : (modSo s n f).dram = s.dram := rfl
@[simp] theorem modSo_host (s : State) (n : Nat) (f : SafeOut → SafeOut) : (modSo s n f).host = s.host := rfl
@[simp] theorem modSo_latches (s : State) (n : Nat) (f : SafeOut → SafeOut) : (modSo s n f).latches = s.latches := rfl
@[simp] theorem modSo_out (s : State) (n : Nat) (f : SafeOut → SafeOut) : (modSo s n f).out = s.out := rfl

/-! ### modSi -/

@[simp] theorem modSi_pending (s : State) (n : Nat) (f : SafePair → SafePair) : (modSi s n f).pending = s.pending := rfl
@[simp] theorem modSi_ci (s : State) (n : Nat) (f : SafePair → SafePair) : (modSi s n f).ci = s.ci := rfl
@[simp] theorem modSi_fab (s : State) (n : Nat) (f : SafePair → SafePair) : (modSi s n f).fab = s.fab := rfl
@[simp] theorem modSi_cyc (s : State) (n : Nat) (f : SafePair → SafePair) : (modSi s n f).cyc = s.cyc := rfl
@[simp] theorem modSi_glb (s : State) (n : Nat) (f : SafePair → SafePair) : (modSi s n f).glb = s.glb := rfl
@[simp] theorem modSi_pim (s : State) (n : Nat) (f : SafePair → SafePair) : (modSi s n f).pim = s.pim := rfl
@[simp] theorem modSi_arb (s : State) (n : Nat) (f : SafePair → SafePair) : (modSi s n f).arb = s.arb := rfl
@[simp] theorem modSi_txe (s : State) (n : Nat) (f : SafePair → SafePair) : (modSi s n f).txe = s.txe := rfl
@[simp] theorem modSi_eth (s : State) (n : Nat) (f : SafePair → SafePair) : (modSi s n f).eth = s.eth := rfl
@[simp] theorem modSi_mvb (s : State) (n : Nat) (f : SafePair → SafePair) : (modSi s n f).mvb = s.mvb := rfl
@[simp] theorem modSi_can0 (s : State) (n : Nat) (f : SafePair → SafePair) : (modSi s n f).can0 = s.can0 := rfl
@[simp] theorem modSi_can1 (s : State) (n : Nat) (f : SafePair → SafePair) : (modSi s n f).can1 = s.can1 := rfl
@[simp] theorem modSi_gw (s : State) (n : Nat) (f : SafePair → SafePair) : (modSi s n f).gw = s.gw := rfl
@[simp] theorem modSi_tb (s : State) (n : Nat) (f : SafePair → SafePair) : (modSi s n f).tb = s.tb := rfl
@[simp] theorem modSi_grp (s : State) (n : Nat) (f : SafePair → SafePair) : (modSi s n f).grp = s.grp := rfl
@[simp] theorem modSi_tk (s : State) (n : Nat) (f : SafePair → SafePair) : (modSi s n f).tk = s.tk := rfl
@[simp] theorem modSi_upd (s : State) (n : Nat) (f : SafePair → SafePair) : (modSi s n f).upd = s.upd := rfl
@[simp] theorem modSi_pgv (s : State) (n : Nat) (f : SafePair → SafePair) : (modSi s n f).pgv = s.pgv := rfl
@[simp] theorem modSi_rst (s : State) (n : Nat) (f : SafePair → SafePair) : (modSi s n f).rst = s.rst := rfl
@[simp] theorem modSi_cul (s : State) (n : Nat) (f : SafePair → SafePair) : (modSi s n f).cul = s.cul := rfl
@[simp] theorem modSi_evr (s : State) (n : Nat) (f : SafePair → SafePair) : (modSi s n f).evr = s.evr := rfl
@[simp] theorem modSi_pmu (s : State) (n : Nat) (f : SafePair → SafePair) : (modSi s n f).pmu = s.pmu := rfl
@[simp] theorem modSi_pin (s : State) (n : Nat) (f : SafePair → SafePair) : (modSi s n f).pin = s.pin := rfl
@[simp] theorem modSi_clk (s : State) (n : Nat) (f : SafePair → SafePair) : (modSi s n f).clk = s.clk := rfl
@[simp] theorem modSi_dram (s : State) (n : Nat) (f : SafePair → SafePair) : (modSi s n f).dram = s.dram := rfl
@[simp] theorem modSi_host (s : State) (n : Nat) (f : SafePair → SafePair) : (modSi s n f).host = s.host := rfl
@[simp] theorem modSi_latches (s : State) (n : Nat) (f : SafePair → SafePair) : (modSi s n f).latches = s.latches := rfl
@[simp] theorem modSi_out (s : State) (n : Nat) (f : SafePair → SafePair) : (modSi s n f).out = s.out := rfl

/-! ### modPtp -/

@[simp] theorem modPtp_pending (s : State) (b : Bool) (f : PtpPlane → PtpPlane) : (modPtp s b f).pending = s.pending := by
  unfold modPtp; first | rfl | ((repeat' split) <;> rfl)
@[simp] theorem modPtp_ci (s : State) (b : Bool) (f : PtpPlane → PtpPlane) : (modPtp s b f).ci = s.ci := by
  unfold modPtp; first | rfl | ((repeat' split) <;> rfl)
@[simp] theorem modPtp_fab (s : State) (b : Bool) (f : PtpPlane → PtpPlane) : (modPtp s b f).fab = s.fab := by
  unfold modPtp; first | rfl | ((repeat' split) <;> rfl)
@[simp] theorem modPtp_cyc (s : State) (b : Bool) (f : PtpPlane → PtpPlane) : (modPtp s b f).cyc = s.cyc := by
  unfold modPtp; first | rfl | ((repeat' split) <;> rfl)
@[simp] theorem modPtp_glb (s : State) (b : Bool) (f : PtpPlane → PtpPlane) : (modPtp s b f).glb = s.glb := by
  unfold modPtp; first | rfl | ((repeat' split) <;> rfl)
@[simp] theorem modPtp_pim (s : State) (b : Bool) (f : PtpPlane → PtpPlane) : (modPtp s b f).pim = s.pim := by
  unfold modPtp; first | rfl | ((repeat' split) <;> rfl)
@[simp] theorem modPtp_arb (s : State) (b : Bool) (f : PtpPlane → PtpPlane) : (modPtp s b f).arb = s.arb := by
  unfold modPtp; first | rfl | ((repeat' split) <;> rfl)
@[simp] theorem modPtp_txe (s : State) (b : Bool) (f : PtpPlane → PtpPlane) : (modPtp s b f).txe = s.txe := by
  unfold modPtp; first | rfl | ((repeat' split) <;> rfl)
@[simp] theorem modPtp_eth (s : State) (b : Bool) (f : PtpPlane → PtpPlane) : (modPtp s b f).eth = s.eth := by
  unfold modPtp; first | rfl | ((repeat' split) <;> rfl)
@[simp] theorem modPtp_mvb (s : State) (b : Bool) (f : PtpPlane → PtpPlane) : (modPtp s b f).mvb = s.mvb := by
  unfold modPtp; first | rfl | ((repeat' split) <;> rfl)
@[simp] theorem modPtp_can0 (s : State) (b : Bool) (f : PtpPlane → PtpPlane) : (modPtp s b f).can0 = s.can0 := by
  unfold modPtp; first | rfl | ((repeat' split) <;> rfl)
@[simp] theorem modPtp_can1 (s : State) (b : Bool) (f : PtpPlane → PtpPlane) : (modPtp s b f).can1 = s.can1 := by
  unfold modPtp; first | rfl | ((repeat' split) <;> rfl)
@[simp] theorem modPtp_gw (s : State) (b : Bool) (f : PtpPlane → PtpPlane) : (modPtp s b f).gw = s.gw := by
  unfold modPtp; first | rfl | ((repeat' split) <;> rfl)
@[simp] theorem modPtp_grp (s : State) (b : Bool) (f : PtpPlane → PtpPlane) : (modPtp s b f).grp = s.grp := by
  unfold modPtp; first | rfl | ((repeat' split) <;> rfl)
@[simp] theorem modPtp_safe (s : State) (b : Bool) (f : PtpPlane → PtpPlane) : (modPtp s b f).safe = s.safe := by
  unfold modPtp; first | rfl | ((repeat' split) <;> rfl)
@[simp] theorem modPtp_tk (s : State) (b : Bool) (f : PtpPlane → PtpPlane) : (modPtp s b f).tk = s.tk := by
  unfold modPtp; first | rfl | ((repeat' split) <;> rfl)
@[simp] theorem modPtp_upd (s : State) (b : Bool) (f : PtpPlane → PtpPlane) : (modPtp s b f).upd = s.upd := by
  unfold modPtp; first | rfl | ((repeat' split) <;> rfl)
@[simp] theorem modPtp_pgv (s : State) (b : Bool) (f : PtpPlane → PtpPlane) : (modPtp s b f).pgv = s.pgv := by
  unfold modPtp; first | rfl | ((repeat' split) <;> rfl)
@[simp] theorem modPtp_rst (s : State) (b : Bool) (f : PtpPlane → PtpPlane) : (modPtp s b f).rst = s.rst := by
  unfold modPtp; first | rfl | ((repeat' split) <;> rfl)
@[simp] theorem modPtp_cul (s : State) (b : Bool) (f : PtpPlane → PtpPlane) : (modPtp s b f).cul = s.cul := by
  unfold modPtp; first | rfl | ((repeat' split) <;> rfl)
@[simp] theorem modPtp_evr (s : State) (b : Bool) (f : PtpPlane → PtpPlane) : (modPtp s b f).evr = s.evr := by
  unfold modPtp; first | rfl | ((repeat' split) <;> rfl)
@[simp] theorem modPtp_pmu (s : State) (b : Bool) (f : PtpPlane → PtpPlane) : (modPtp s b f).pmu = s.pmu := by
  unfold modPtp; first | rfl | ((repeat' split) <;> rfl)
@[simp] theorem modPtp_pin (s : State) (b : Bool) (f : PtpPlane → PtpPlane) : (modPtp s b f).pin = s.pin := by
  unfold modPtp; first | rfl | ((repeat' split) <;> rfl)
@[simp] theorem modPtp_clk (s : State) (b : Bool) (f : PtpPlane → PtpPlane) : (modPtp s b f).clk = s.clk := by
  unfold modPtp; first | rfl | ((repeat' split) <;> rfl)
@[simp] theorem modPtp_dram (s : State) (b : Bool) (f : PtpPlane → PtpPlane) : (modPtp s b f).dram = s.dram := by
  unfold modPtp; first | rfl | ((repeat' split) <;> rfl)
@[simp] theorem modPtp_host (s : State) (b : Bool) (f : PtpPlane → PtpPlane) : (modPtp s b f).host = s.host := by
  unfold modPtp; first | rfl | ((repeat' split) <;> rfl)
@[simp] theorem modPtp_latches (s : State) (b : Bool) (f : PtpPlane → PtpPlane) : (modPtp s b f).latches = s.latches := by
  unfold modPtp; first | rfl | ((repeat' split) <;> rfl)
@[simp] theorem modPtp_out (s : State) (b : Bool) (f : PtpPlane → PtpPlane) : (modPtp s b f).out = s.out := by
  unfold modPtp; first | rfl | ((repeat' split) <;> rfl)

/-! ### modSlot -/

@[simp] theorem modSlot_pending (s : State) (n : Nat) (f : CallSlot → CallSlot) : (modSlot s n f).pending = s.pending := rfl
@[simp] theorem modSlot_ci (s : State) (n : Nat) (f : CallSlot → CallSlot) : (modSlot s n f).ci = s.ci := rfl
@[simp] theorem modSlot_fab (s : State) (n : Nat) (f : CallSlot → CallSlot) : (modSlot s n f).fab = s.fab := rfl
@[simp] theorem modSlot_cyc (s : State) (n : Nat) (f : CallSlot → CallSlot) : (modSlot s n f).cyc = s.cyc := rfl
@[simp] theorem modSlot_glb (s : State) (n : Nat) (f : CallSlot → CallSlot) : (modSlot s n f).glb = s.glb := rfl
@[simp] theorem modSlot_pim (s : State) (n : Nat) (f : CallSlot → CallSlot) : (modSlot s n f).pim = s.pim := rfl
@[simp] theorem modSlot_arb (s : State) (n : Nat) (f : CallSlot → CallSlot) : (modSlot s n f).arb = s.arb := rfl
@[simp] theorem modSlot_txe (s : State) (n : Nat) (f : CallSlot → CallSlot) : (modSlot s n f).txe = s.txe := rfl
@[simp] theorem modSlot_eth (s : State) (n : Nat) (f : CallSlot → CallSlot) : (modSlot s n f).eth = s.eth := rfl
@[simp] theorem modSlot_mvb (s : State) (n : Nat) (f : CallSlot → CallSlot) : (modSlot s n f).mvb = s.mvb := rfl
@[simp] theorem modSlot_can0 (s : State) (n : Nat) (f : CallSlot → CallSlot) : (modSlot s n f).can0 = s.can0 := rfl
@[simp] theorem modSlot_can1 (s : State) (n : Nat) (f : CallSlot → CallSlot) : (modSlot s n f).can1 = s.can1 := rfl
@[simp] theorem modSlot_gw (s : State) (n : Nat) (f : CallSlot → CallSlot) : (modSlot s n f).gw = s.gw := rfl
@[simp] theorem modSlot_tb (s : State) (n : Nat) (f : CallSlot → CallSlot) : (modSlot s n f).tb = s.tb := rfl
@[simp] theorem modSlot_grp (s : State) (n : Nat) (f : CallSlot → CallSlot) : (modSlot s n f).grp = s.grp := rfl
@[simp] theorem modSlot_safe (s : State) (n : Nat) (f : CallSlot → CallSlot) : (modSlot s n f).safe = s.safe := rfl
@[simp] theorem modSlot_upd (s : State) (n : Nat) (f : CallSlot → CallSlot) : (modSlot s n f).upd = s.upd := rfl
@[simp] theorem modSlot_pgv (s : State) (n : Nat) (f : CallSlot → CallSlot) : (modSlot s n f).pgv = s.pgv := rfl
@[simp] theorem modSlot_rst (s : State) (n : Nat) (f : CallSlot → CallSlot) : (modSlot s n f).rst = s.rst := rfl
@[simp] theorem modSlot_cul (s : State) (n : Nat) (f : CallSlot → CallSlot) : (modSlot s n f).cul = s.cul := rfl
@[simp] theorem modSlot_evr (s : State) (n : Nat) (f : CallSlot → CallSlot) : (modSlot s n f).evr = s.evr := rfl
@[simp] theorem modSlot_pmu (s : State) (n : Nat) (f : CallSlot → CallSlot) : (modSlot s n f).pmu = s.pmu := rfl
@[simp] theorem modSlot_pin (s : State) (n : Nat) (f : CallSlot → CallSlot) : (modSlot s n f).pin = s.pin := rfl
@[simp] theorem modSlot_clk (s : State) (n : Nat) (f : CallSlot → CallSlot) : (modSlot s n f).clk = s.clk := rfl
@[simp] theorem modSlot_dram (s : State) (n : Nat) (f : CallSlot → CallSlot) : (modSlot s n f).dram = s.dram := rfl
@[simp] theorem modSlot_host (s : State) (n : Nat) (f : CallSlot → CallSlot) : (modSlot s n f).host = s.host := rfl
@[simp] theorem modSlot_latches (s : State) (n : Nat) (f : CallSlot → CallSlot) : (modSlot s n f).latches = s.latches := rfl
@[simp] theorem modSlot_out (s : State) (n : Nat) (f : CallSlot → CallSlot) : (modSlot s n f).out = s.out := rfl

/-! ### modRing -/

@[simp] theorem modRing_pending (s : State) (n : Nat) (f : Ring → Ring) : (modRing s n f).pending = s.pending := rfl
@[simp] theorem modRing_ci (s : State) (n : Nat) (f : Ring → Ring) : (modRing s n f).ci = s.ci := rfl
@[simp] theorem modRing_fab (s : State) (n : Nat) (f : Ring → Ring) : (modRing s n f).fab = s.fab := rfl
@[simp] theorem modRing_cyc (s : State) (n : Nat) (f : Ring → Ring) : (modRing s n f).cyc = s.cyc := rfl
@[simp] theorem modRing_glb (s : State) (n : Nat) (f : Ring → Ring) : (modRing s n f).glb = s.glb := rfl
@[simp] theorem modRing_pim (s : State) (n : Nat) (f : Ring → Ring) : (modRing s n f).pim = s.pim := rfl
@[simp] theorem modRing_arb (s : State) (n : Nat) (f : Ring → Ring) : (modRing s n f).arb = s.arb := rfl
@[simp] theorem modRing_eth (s : State) (n : Nat) (f : Ring → Ring) : (modRing s n f).eth = s.eth := rfl
@[simp] theorem modRing_mvb (s : State) (n : Nat) (f : Ring → Ring) : (modRing s n f).mvb = s.mvb := rfl
@[simp] theorem modRing_can0 (s : State) (n : Nat) (f : Ring → Ring) : (modRing s n f).can0 = s.can0 := rfl
@[simp] theorem modRing_can1 (s : State) (n : Nat) (f : Ring → Ring) : (modRing s n f).can1 = s.can1 := rfl
@[simp] theorem modRing_gw (s : State) (n : Nat) (f : Ring → Ring) : (modRing s n f).gw = s.gw := rfl
@[simp] theorem modRing_tb (s : State) (n : Nat) (f : Ring → Ring) : (modRing s n f).tb = s.tb := rfl
@[simp] theorem modRing_grp (s : State) (n : Nat) (f : Ring → Ring) : (modRing s n f).grp = s.grp := rfl
@[simp] theorem modRing_safe (s : State) (n : Nat) (f : Ring → Ring) : (modRing s n f).safe = s.safe := rfl
@[simp] theorem modRing_tk (s : State) (n : Nat) (f : Ring → Ring) : (modRing s n f).tk = s.tk := rfl
@[simp] theorem modRing_upd (s : State) (n : Nat) (f : Ring → Ring) : (modRing s n f).upd = s.upd := rfl
@[simp] theorem modRing_pgv (s : State) (n : Nat) (f : Ring → Ring) : (modRing s n f).pgv = s.pgv := rfl
@[simp] theorem modRing_rst (s : State) (n : Nat) (f : Ring → Ring) : (modRing s n f).rst = s.rst := rfl
@[simp] theorem modRing_cul (s : State) (n : Nat) (f : Ring → Ring) : (modRing s n f).cul = s.cul := rfl
@[simp] theorem modRing_evr (s : State) (n : Nat) (f : Ring → Ring) : (modRing s n f).evr = s.evr := rfl
@[simp] theorem modRing_pmu (s : State) (n : Nat) (f : Ring → Ring) : (modRing s n f).pmu = s.pmu := rfl
@[simp] theorem modRing_pin (s : State) (n : Nat) (f : Ring → Ring) : (modRing s n f).pin = s.pin := rfl
@[simp] theorem modRing_clk (s : State) (n : Nat) (f : Ring → Ring) : (modRing s n f).clk = s.clk := rfl
@[simp] theorem modRing_dram (s : State) (n : Nat) (f : Ring → Ring) : (modRing s n f).dram = s.dram := rfl
@[simp] theorem modRing_host (s : State) (n : Nat) (f : Ring → Ring) : (modRing s n f).host = s.host := rfl
@[simp] theorem modRing_latches (s : State) (n : Nat) (f : Ring → Ring) : (modRing s n f).latches = s.latches := rfl
@[simp] theorem modRing_out (s : State) (n : Nat) (f : Ring → Ring) : (modRing s n f).out = s.out := rfl

/-! ### modTag -/

@[simp] theorem modTag_pending (s : State) (tag : BitVec 18) (f : TagEnt → TagEnt) : (modTag s tag f).pending = s.pending := by
  unfold modTag; first | rfl | ((repeat' split) <;> rfl)
@[simp] theorem modTag_ci (s : State) (tag : BitVec 18) (f : TagEnt → TagEnt) : (modTag s tag f).ci = s.ci := by
  unfold modTag; first | rfl | ((repeat' split) <;> rfl)
@[simp] theorem modTag_fab (s : State) (tag : BitVec 18) (f : TagEnt → TagEnt) : (modTag s tag f).fab = s.fab := by
  unfold modTag; first | rfl | ((repeat' split) <;> rfl)
@[simp] theorem modTag_cyc (s : State) (tag : BitVec 18) (f : TagEnt → TagEnt) : (modTag s tag f).cyc = s.cyc := by
  unfold modTag; first | rfl | ((repeat' split) <;> rfl)
@[simp] theorem modTag_glb (s : State) (tag : BitVec 18) (f : TagEnt → TagEnt) : (modTag s tag f).glb = s.glb := by
  unfold modTag; first | rfl | ((repeat' split) <;> rfl)
@[simp] theorem modTag_pim (s : State) (tag : BitVec 18) (f : TagEnt → TagEnt) : (modTag s tag f).pim = s.pim := by
  unfold modTag; first | rfl | ((repeat' split) <;> rfl)
@[simp] theorem modTag_arb (s : State) (tag : BitVec 18) (f : TagEnt → TagEnt) : (modTag s tag f).arb = s.arb := by
  unfold modTag; first | rfl | ((repeat' split) <;> rfl)
@[simp] theorem modTag_eth (s : State) (tag : BitVec 18) (f : TagEnt → TagEnt) : (modTag s tag f).eth = s.eth := by
  unfold modTag; first | rfl | ((repeat' split) <;> rfl)
@[simp] theorem modTag_mvb (s : State) (tag : BitVec 18) (f : TagEnt → TagEnt) : (modTag s tag f).mvb = s.mvb := by
  unfold modTag; first | rfl | ((repeat' split) <;> rfl)
@[simp] theorem modTag_can0 (s : State) (tag : BitVec 18) (f : TagEnt → TagEnt) : (modTag s tag f).can0 = s.can0 := by
  unfold modTag; first | rfl | ((repeat' split) <;> rfl)
@[simp] theorem modTag_can1 (s : State) (tag : BitVec 18) (f : TagEnt → TagEnt) : (modTag s tag f).can1 = s.can1 := by
  unfold modTag; first | rfl | ((repeat' split) <;> rfl)
@[simp] theorem modTag_gw (s : State) (tag : BitVec 18) (f : TagEnt → TagEnt) : (modTag s tag f).gw = s.gw := by
  unfold modTag; first | rfl | ((repeat' split) <;> rfl)
@[simp] theorem modTag_tb (s : State) (tag : BitVec 18) (f : TagEnt → TagEnt) : (modTag s tag f).tb = s.tb := by
  unfold modTag; first | rfl | ((repeat' split) <;> rfl)
@[simp] theorem modTag_grp (s : State) (tag : BitVec 18) (f : TagEnt → TagEnt) : (modTag s tag f).grp = s.grp := by
  unfold modTag; first | rfl | ((repeat' split) <;> rfl)
@[simp] theorem modTag_safe (s : State) (tag : BitVec 18) (f : TagEnt → TagEnt) : (modTag s tag f).safe = s.safe := by
  unfold modTag; first | rfl | ((repeat' split) <;> rfl)
@[simp] theorem modTag_tk (s : State) (tag : BitVec 18) (f : TagEnt → TagEnt) : (modTag s tag f).tk = s.tk := by
  unfold modTag; first | rfl | ((repeat' split) <;> rfl)
@[simp] theorem modTag_upd (s : State) (tag : BitVec 18) (f : TagEnt → TagEnt) : (modTag s tag f).upd = s.upd := by
  unfold modTag; first | rfl | ((repeat' split) <;> rfl)
@[simp] theorem modTag_pgv (s : State) (tag : BitVec 18) (f : TagEnt → TagEnt) : (modTag s tag f).pgv = s.pgv := by
  unfold modTag; first | rfl | ((repeat' split) <;> rfl)
@[simp] theorem modTag_rst (s : State) (tag : BitVec 18) (f : TagEnt → TagEnt) : (modTag s tag f).rst = s.rst := by
  unfold modTag; first | rfl | ((repeat' split) <;> rfl)
@[simp] theorem modTag_cul (s : State) (tag : BitVec 18) (f : TagEnt → TagEnt) : (modTag s tag f).cul = s.cul := by
  unfold modTag; first | rfl | ((repeat' split) <;> rfl)
@[simp] theorem modTag_evr (s : State) (tag : BitVec 18) (f : TagEnt → TagEnt) : (modTag s tag f).evr = s.evr := by
  unfold modTag; first | rfl | ((repeat' split) <;> rfl)
@[simp] theorem modTag_pmu (s : State) (tag : BitVec 18) (f : TagEnt → TagEnt) : (modTag s tag f).pmu = s.pmu := by
  unfold modTag; first | rfl | ((repeat' split) <;> rfl)
@[simp] theorem modTag_pin (s : State) (tag : BitVec 18) (f : TagEnt → TagEnt) : (modTag s tag f).pin = s.pin := by
  unfold modTag; first | rfl | ((repeat' split) <;> rfl)
@[simp] theorem modTag_clk (s : State) (tag : BitVec 18) (f : TagEnt → TagEnt) : (modTag s tag f).clk = s.clk := by
  unfold modTag; first | rfl | ((repeat' split) <;> rfl)
@[simp] theorem modTag_dram (s : State) (tag : BitVec 18) (f : TagEnt → TagEnt) : (modTag s tag f).dram = s.dram := by
  unfold modTag; first | rfl | ((repeat' split) <;> rfl)
@[simp] theorem modTag_host (s : State) (tag : BitVec 18) (f : TagEnt → TagEnt) : (modTag s tag f).host = s.host := by
  unfold modTag; first | rfl | ((repeat' split) <;> rfl)
@[simp] theorem modTag_latches (s : State) (tag : BitVec 18) (f : TagEnt → TagEnt) : (modTag s tag f).latches = s.latches := by
  unfold modTag; first | rfl | ((repeat' split) <;> rfl)
@[simp] theorem modTag_out (s : State) (tag : BitVec 18) (f : TagEnt → TagEnt) : (modTag s tag f).out = s.out := by
  unfold modTag; first | rfl | ((repeat' split) <;> rfl)

/-! ### modUpdSlot -/

@[simp] theorem modUpdSlot_pending (s : State) (t : ImgType) (b : Bool) (f : UpdSlot → UpdSlot) : (modUpdSlot s t b f).pending = s.pending := rfl
@[simp] theorem modUpdSlot_ci (s : State) (t : ImgType) (b : Bool) (f : UpdSlot → UpdSlot) : (modUpdSlot s t b f).ci = s.ci := rfl
@[simp] theorem modUpdSlot_fab (s : State) (t : ImgType) (b : Bool) (f : UpdSlot → UpdSlot) : (modUpdSlot s t b f).fab = s.fab := rfl
@[simp] theorem modUpdSlot_cyc (s : State) (t : ImgType) (b : Bool) (f : UpdSlot → UpdSlot) : (modUpdSlot s t b f).cyc = s.cyc := rfl
@[simp] theorem modUpdSlot_glb (s : State) (t : ImgType) (b : Bool) (f : UpdSlot → UpdSlot) : (modUpdSlot s t b f).glb = s.glb := rfl
@[simp] theorem modUpdSlot_pim (s : State) (t : ImgType) (b : Bool) (f : UpdSlot → UpdSlot) : (modUpdSlot s t b f).pim = s.pim := rfl
@[simp] theorem modUpdSlot_arb (s : State) (t : ImgType) (b : Bool) (f : UpdSlot → UpdSlot) : (modUpdSlot s t b f).arb = s.arb := rfl
@[simp] theorem modUpdSlot_txe (s : State) (t : ImgType) (b : Bool) (f : UpdSlot → UpdSlot) : (modUpdSlot s t b f).txe = s.txe := rfl
@[simp] theorem modUpdSlot_eth (s : State) (t : ImgType) (b : Bool) (f : UpdSlot → UpdSlot) : (modUpdSlot s t b f).eth = s.eth := rfl
@[simp] theorem modUpdSlot_mvb (s : State) (t : ImgType) (b : Bool) (f : UpdSlot → UpdSlot) : (modUpdSlot s t b f).mvb = s.mvb := rfl
@[simp] theorem modUpdSlot_can0 (s : State) (t : ImgType) (b : Bool) (f : UpdSlot → UpdSlot) : (modUpdSlot s t b f).can0 = s.can0 := rfl
@[simp] theorem modUpdSlot_can1 (s : State) (t : ImgType) (b : Bool) (f : UpdSlot → UpdSlot) : (modUpdSlot s t b f).can1 = s.can1 := rfl
@[simp] theorem modUpdSlot_gw (s : State) (t : ImgType) (b : Bool) (f : UpdSlot → UpdSlot) : (modUpdSlot s t b f).gw = s.gw := rfl
@[simp] theorem modUpdSlot_tb (s : State) (t : ImgType) (b : Bool) (f : UpdSlot → UpdSlot) : (modUpdSlot s t b f).tb = s.tb := rfl
@[simp] theorem modUpdSlot_grp (s : State) (t : ImgType) (b : Bool) (f : UpdSlot → UpdSlot) : (modUpdSlot s t b f).grp = s.grp := rfl
@[simp] theorem modUpdSlot_safe (s : State) (t : ImgType) (b : Bool) (f : UpdSlot → UpdSlot) : (modUpdSlot s t b f).safe = s.safe := rfl
@[simp] theorem modUpdSlot_tk (s : State) (t : ImgType) (b : Bool) (f : UpdSlot → UpdSlot) : (modUpdSlot s t b f).tk = s.tk := rfl
@[simp] theorem modUpdSlot_pgv (s : State) (t : ImgType) (b : Bool) (f : UpdSlot → UpdSlot) : (modUpdSlot s t b f).pgv = s.pgv := rfl
@[simp] theorem modUpdSlot_rst (s : State) (t : ImgType) (b : Bool) (f : UpdSlot → UpdSlot) : (modUpdSlot s t b f).rst = s.rst := rfl
@[simp] theorem modUpdSlot_cul (s : State) (t : ImgType) (b : Bool) (f : UpdSlot → UpdSlot) : (modUpdSlot s t b f).cul = s.cul := rfl
@[simp] theorem modUpdSlot_evr (s : State) (t : ImgType) (b : Bool) (f : UpdSlot → UpdSlot) : (modUpdSlot s t b f).evr = s.evr := rfl
@[simp] theorem modUpdSlot_pmu (s : State) (t : ImgType) (b : Bool) (f : UpdSlot → UpdSlot) : (modUpdSlot s t b f).pmu = s.pmu := rfl
@[simp] theorem modUpdSlot_pin (s : State) (t : ImgType) (b : Bool) (f : UpdSlot → UpdSlot) : (modUpdSlot s t b f).pin = s.pin := rfl
@[simp] theorem modUpdSlot_clk (s : State) (t : ImgType) (b : Bool) (f : UpdSlot → UpdSlot) : (modUpdSlot s t b f).clk = s.clk := rfl
@[simp] theorem modUpdSlot_dram (s : State) (t : ImgType) (b : Bool) (f : UpdSlot → UpdSlot) : (modUpdSlot s t b f).dram = s.dram := rfl
@[simp] theorem modUpdSlot_host (s : State) (t : ImgType) (b : Bool) (f : UpdSlot → UpdSlot) : (modUpdSlot s t b f).host = s.host := rfl
@[simp] theorem modUpdSlot_latches (s : State) (t : ImgType) (b : Bool) (f : UpdSlot → UpdSlot) : (modUpdSlot s t b f).latches = s.latches := rfl
@[simp] theorem modUpdSlot_out (s : State) (t : ImgType) (b : Bool) (f : UpdSlot → UpdSlot) : (modUpdSlot s t b f).out = s.out := rfl

/-! ### modCan -/

@[simp] theorem modCan_pending (s : State) (n : Nat) (f : Can → Can) : (modCan s n f).pending = s.pending := by
  unfold modCan; first | rfl | ((repeat' split) <;> rfl)
@[simp] theorem modCan_ci (s : State) (n : Nat) (f : Can → Can) : (modCan s n f).ci = s.ci := by
  unfold modCan; first | rfl | ((repeat' split) <;> rfl)
@[simp] theorem modCan_fab (s : State) (n : Nat) (f : Can → Can) : (modCan s n f).fab = s.fab := by
  unfold modCan; first | rfl | ((repeat' split) <;> rfl)
@[simp] theorem modCan_cyc (s : State) (n : Nat) (f : Can → Can) : (modCan s n f).cyc = s.cyc := by
  unfold modCan; first | rfl | ((repeat' split) <;> rfl)
@[simp] theorem modCan_glb (s : State) (n : Nat) (f : Can → Can) : (modCan s n f).glb = s.glb := by
  unfold modCan; first | rfl | ((repeat' split) <;> rfl)
@[simp] theorem modCan_pim (s : State) (n : Nat) (f : Can → Can) : (modCan s n f).pim = s.pim := by
  unfold modCan; first | rfl | ((repeat' split) <;> rfl)
@[simp] theorem modCan_arb (s : State) (n : Nat) (f : Can → Can) : (modCan s n f).arb = s.arb := by
  unfold modCan; first | rfl | ((repeat' split) <;> rfl)
@[simp] theorem modCan_txe (s : State) (n : Nat) (f : Can → Can) : (modCan s n f).txe = s.txe := by
  unfold modCan; first | rfl | ((repeat' split) <;> rfl)
@[simp] theorem modCan_eth (s : State) (n : Nat) (f : Can → Can) : (modCan s n f).eth = s.eth := by
  unfold modCan; first | rfl | ((repeat' split) <;> rfl)
@[simp] theorem modCan_mvb (s : State) (n : Nat) (f : Can → Can) : (modCan s n f).mvb = s.mvb := by
  unfold modCan; first | rfl | ((repeat' split) <;> rfl)
@[simp] theorem modCan_gw (s : State) (n : Nat) (f : Can → Can) : (modCan s n f).gw = s.gw := by
  unfold modCan; first | rfl | ((repeat' split) <;> rfl)
@[simp] theorem modCan_tb (s : State) (n : Nat) (f : Can → Can) : (modCan s n f).tb = s.tb := by
  unfold modCan; first | rfl | ((repeat' split) <;> rfl)
@[simp] theorem modCan_grp (s : State) (n : Nat) (f : Can → Can) : (modCan s n f).grp = s.grp := by
  unfold modCan; first | rfl | ((repeat' split) <;> rfl)
@[simp] theorem modCan_safe (s : State) (n : Nat) (f : Can → Can) : (modCan s n f).safe = s.safe := by
  unfold modCan; first | rfl | ((repeat' split) <;> rfl)
@[simp] theorem modCan_tk (s : State) (n : Nat) (f : Can → Can) : (modCan s n f).tk = s.tk := by
  unfold modCan; first | rfl | ((repeat' split) <;> rfl)
@[simp] theorem modCan_upd (s : State) (n : Nat) (f : Can → Can) : (modCan s n f).upd = s.upd := by
  unfold modCan; first | rfl | ((repeat' split) <;> rfl)
@[simp] theorem modCan_pgv (s : State) (n : Nat) (f : Can → Can) : (modCan s n f).pgv = s.pgv := by
  unfold modCan; first | rfl | ((repeat' split) <;> rfl)
@[simp] theorem modCan_rst (s : State) (n : Nat) (f : Can → Can) : (modCan s n f).rst = s.rst := by
  unfold modCan; first | rfl | ((repeat' split) <;> rfl)
@[simp] theorem modCan_cul (s : State) (n : Nat) (f : Can → Can) : (modCan s n f).cul = s.cul := by
  unfold modCan; first | rfl | ((repeat' split) <;> rfl)
@[simp] theorem modCan_evr (s : State) (n : Nat) (f : Can → Can) : (modCan s n f).evr = s.evr := by
  unfold modCan; first | rfl | ((repeat' split) <;> rfl)
@[simp] theorem modCan_pmu (s : State) (n : Nat) (f : Can → Can) : (modCan s n f).pmu = s.pmu := by
  unfold modCan; first | rfl | ((repeat' split) <;> rfl)
@[simp] theorem modCan_pin (s : State) (n : Nat) (f : Can → Can) : (modCan s n f).pin = s.pin := by
  unfold modCan; first | rfl | ((repeat' split) <;> rfl)
@[simp] theorem modCan_clk (s : State) (n : Nat) (f : Can → Can) : (modCan s n f).clk = s.clk := by
  unfold modCan; first | rfl | ((repeat' split) <;> rfl)
@[simp] theorem modCan_dram (s : State) (n : Nat) (f : Can → Can) : (modCan s n f).dram = s.dram := by
  unfold modCan; first | rfl | ((repeat' split) <;> rfl)
@[simp] theorem modCan_host (s : State) (n : Nat) (f : Can → Can) : (modCan s n f).host = s.host := by
  unfold modCan; first | rfl | ((repeat' split) <;> rfl)
@[simp] theorem modCan_latches (s : State) (n : Nat) (f : Can → Can) : (modCan s n f).latches = s.latches := by
  unfold modCan; first | rfl | ((repeat' split) <;> rfl)
@[simp] theorem modCan_out (s : State) (n : Nat) (f : Can → Can) : (modCan s n f).out = s.out := by
  unfold modCan; first | rfl | ((repeat' split) <;> rfl)

end Sys2Proof.Machine
end

