-- ==== Sys2Proof/Laws/Ops.lean ====
section
/-! SUPPORT. Laws/Ops.lean: positions of lists, tiles and records: what the shared operations do, said once. -/

namespace Sys2Proof

@[simp] theorem nthD_modNth_self {α : Type} (l : List α) (i : Nat) (f : α → α) (d : α) (h : i < l.length) :
    nthD (modNth l i f) i d = f (nthD l i d) := by
  induction l generalizing i with
  | nil => simp at h
  | cons x l ih => cases i with
    | zero => rfl
    | succ i => simpa [modNth, nthD] using ih i (by simpa using h)

theorem nthD_modNth_ne {α : Type} (l : List α) {i j : Nat} (f : α → α) (d : α) (h : j ≠ i) :
    nthD (modNth l i f) j d = nthD l j d := by
  induction l generalizing i j with
  | nil => rfl
  | cons x l ih => cases i with
    | zero => cases j with
      | zero => exact absurd rfl h
      | succ j => rfl
    | succ i => cases j with
      | zero => rfl
      | succ j => simpa [modNth, nthD] using ih (i := i) (j := j) (by omega)

theorem modNth_modNth {α : Type} (l : List α) (i : Nat) (f g : α → α) : modNth (modNth l i f) i g = modNth l i (fun x => g (f x)) := by
  induction l generalizing i with
  | nil => rfl
  | cons x l ih => cases i with
    | zero => rfl
    | succ i => simp [modNth, ih]

theorem mem_modNth {α : Type} {l : List α} {i : Nat} {f : α → α} {y : α} (h : y ∈ modNth l i f) : y ∈ l ∨ ∃ x ∈ l, y = f x := by
  induction l generalizing i with
  | nil => exact .inl h
  | cons x l ih =>
    cases i with
    | zero =>
      rcases List.mem_cons.1 h with rfl | h
      · exact .inr ⟨x, by simp, rfl⟩
      · exact .inl (by simp [h])
    | succ i =>
      rcases List.mem_cons.1 h with rfl | h
      · exact .inl (by simp)
      · rcases ih h with h | ⟨z, hz, e⟩
        · exact .inl (by simp [h])
        · exact .inr ⟨z, by simp [hz], e⟩

/-- What holds of every element and is kept by f holds of every element after one position is changed by f. -/
theorem forall_modNth {α : Type} {P : α → Prop} {l : List α} {i : Nat} {f : α → α} (h : ∀ x ∈ l, P x) (hf : ∀ x, P x → P (f x)) :
    ∀ y ∈ modNth l i f, P y := fun y hy => by
  rcases mem_modNth hy with h1 | ⟨x, hx, rfl⟩
  · exact h y h1
  · exact hf x (h x hx)

theorem nthD_mem {α : Type} {l : List α} {i : Nat} (d : α) (h : i < l.length) : nthD l i d ∈ l := by
  induction l generalizing i with
  | nil => simp at h
  | cons x l ih => cases i with
    | zero => simp [nthD]
    | succ i => simpa [nthD] using .inr (ih (by simpa using h))

end Sys2Proof

namespace Sys2Proof.Machine

/-! ## Tiles -/

theorem tile_modTile_self {s : State} {n : TileNo} (h : s.fab.tiles.length = 48) (g : Tile → Tile) :
    (modTile s n g).fab.tile n = g (s.fab.tile n) := by
  have : n.val < s.fab.tiles.length := by have := n.isLt; omega
  simp [modTile, Fabric.tile, Fabric.modTile, this]

theorem tile_modTile_ne {s : State} {n m : TileNo} (h : m ≠ n) (g : Tile → Tile) : (modTile s n g).fab.tile m = s.fab.tile m := by
  have : m.val ≠ n.val := fun e => h (Fin.ext e)
  simp [modTile, Fabric.tile, Fabric.modTile, nthD_modNth_ne _ _ _ this]

@[simp] theorem modTile_length (s : State) (n : TileNo) (g : Tile → Tile) : (modTile s n g).fab.tiles.length = s.fab.tiles.length := by
  simp [modTile, Fabric.modTile]

/-- A change of one tile that keeps the canonical form and the register count keeps the fabric's shape. -/
theorem FabOk_modTile {s : State} (h : FabOk s.fab) {n : TileNo} {g : Tile → Tile}
    (hg : ∀ t, t.mem.wf = true ∧ t.regs.length = 32 → (g t).mem.wf = true ∧ (g t).regs.length = 32) : FabOk (modTile s n g).fab :=
  ⟨by simp [h.1], forall_modNth h.2 hg⟩

theorem FabOk.tile {f : Fabric} (h : FabOk f) (n : TileNo) : (f.tile n).mem.wf = true ∧ (f.tile n).regs.length = 32 :=
  h.2 _ (nthD_mem _ (by rw [h.1]; exact n.isLt))

/-! ## Records -/

/-- A record written takes the next SEQ and stands first in the ring. -/
theorem recordAs_ring (s : State) (r : Rec) : ∃ l, (recordAs s r).evr.ring = r :: l ∧ (∀ x ∈ l, x ∈ s.evr.ring) := by
  refine ⟨if s.evr.ring.length ≥ 16384 then s.evr.ring.dropLast else s.evr.ring, ?_, ?_⟩
  · simp [recordAs, Evr.write]
  · intro x hx
    split at hx
    · exact List.dropLast_subset _ hx
    · exact hx

/-- A record written with `record` is there, with its severity, source and code. -/
theorem record_records (s : State) (sev : Sev) (src : BitVec 12) (code : BitVec 16) (subj : Nat) (d : List Byte) :
    Records s (record s sev src code subj d) sev src code := by
  obtain ⟨l, h, -⟩ := recordAs_ring s (mkRec s sev src code s.cyc.mcc (BitVec.ofNat 32 subj) d)
  exact ⟨_, by rw [record, h]; exact .head _, rfl, rfl, rfl, rfl⟩

@[simp] theorem recordAs_nextSeq (s : State) (r : Rec) : (recordAs s r).evr.nextSeq = seqNext r.seq := rfl

/-- A record that stands in the ring is still there after another one unless the ring was full. -/
theorem recordAs_keeps {s : State} {x : Rec} (r : Rec) (h : x ∈ s.evr.ring) (hl : s.evr.ring.length < 16384) :
    x ∈ (recordAs s r).evr.ring := by
  have : ¬ (s.evr.ring.length ≥ 16384) := by omega
  simp [recordAs, Evr.write, this, h]

/-! ## Performance monitors (R481): outside the core instances a count reaches nothing but the monitors -/

theorem pmuAdd_irq (i j n : Nat) (spc : Word) (p : PmuInst) (h : 8 ≤ i) : (pmuAdd i j n spc p).irq = p.irq := by
  simp [pmuAdd, isAc, show ¬ i < 8 by omega]

theorem pmuAddCh_irq (i j n : Nat) (spc : Word) (p : PmuInst) (h : 8 ≤ i) : (pmuAddCh i j n spc p).irq = p.irq := by
  unfold pmuAddCh; dsimp only; split <;> simp [pmuAdd_irq _ _ _ _ _ h]

theorem pmuFold_irq (i ev n : Nat) (spc : Word) (h : 8 ≤ i) (p : PmuInst) : ∀ (l : List Nat) (q : PmuInst),
    (l.foldl (fun q j => if pmuHit p j ev then pmuAddCh i j n spc q else q) q).irq = q.irq
  | [], _ => rfl
  | a :: l, q => by rw [List.foldl_cons, pmuFold_irq i ev n spc h p l]; split <;> simp [pmuAddCh_irq _ _ _ _ _ h]

theorem pmuCount_out {s : State} {i ev n : Nat} (h : 8 ≤ i) : (pmuCount s i ev n).out = s.out := by
  have : ∀ p, (pmuEvent i ev n (Config.spcFree s.tb.ttc) p).irq = p.irq := fun p => pmuFold_irq i ev n _ h p _ p
  unfold pmuCount
  simp only [this]
  simp only [Bool.false_eq_true, if_false]
  split <;> rfl

theorem state_eta (a : State) : a = State.mk a.pending a.ci a.fab a.cyc a.glb a.pim a.arb a.txe a.eth a.mvb a.can0 a.can1
    a.gw a.tb a.grp a.safe a.tk a.upd a.pgv a.rst a.cul a.evr a.pmu a.pin a.clk a.dram a.host a.latches a.out := rfl

/-- A count of an instance outside the application cores changes the monitors only. -/
theorem pmuCount_eq {s : State} {i ev n : Nat} (h : 8 ≤ i) : pmuCount s i ev n = { s with pmu := (pmuCount s i ev n).pmu } := by
  rw [state_eta (pmuCount s i ev n)]
  simp [pmuCount_out h]

/-- A count followed by a change of one tile reaches that tile and the monitors only. -/
theorem onlyTile_count (s : State) (n : TileNo) (i ev k : Nat) (h : 8 ≤ i) (g : Tile → Tile) :
    OnlyTile s (modTile (pmuCount s i ev k) n g) n := by
  refine ⟨fun m hm => ?_, ?_⟩
  · rw [tile_modTile_ne hm]; simp
  · unfold OnlyTiles; rw [pmuCount_eq h]; rfl

/-- A change of one tile reaches that tile only. -/
theorem onlyTile_mod (s : State) (n : TileNo) (g : Tile → Tile) : OnlyTile s (modTile s n g) n :=
  ⟨fun m hm => tile_modTile_ne hm g, rfl⟩

/-! ## Accesses of the cores (R58, R449, R503) -/

/-- An access of a core while the cores run is carried out. -/
theorem coreAccess_runs {s : State} {core : Fin 8} {c : Instr} {k : State → State} (h : s.rst.clusterHeld = false) (hs : coresStopped s = false) :
    coreAccess s core c k = k s := by simp [coreAccess, h, hs]

/-- One made while they stand still waits behind those that wait. -/
theorem coreAccess_waits {s : State} {core : Fin 8} {c : Instr} {k : State → State} (h : s.rst.clusterHeld = false) (hs : coresStopped s = true) :
    coreAccess s core c k = { s with host := s.host ++ [c] } := by simp [coreAccess, h, hs]

/-- One of a held cluster is a bus error and nothing else. -/
theorem coreAccess_held {s : State} {core : Fin 8} {c : Instr} {k : State → State} (h : s.rst.clusterHeld = true) :
    coreAccess s core c k = { s with out := .busError core.val :: s.out } := by simp [coreAccess, h]

end Sys2Proof.Machine
end

