-- ==== Sys2Proof/Laws/Group.lean ====
section
/-! SUPPORT. Laws/Group.lean: what the shared operations of the group links reach: the bridges, the monitors and what is sent, and for the frame of an
exchange the count of tags allocated. -/

namespace Sys2Proof.Machine

theorem LinksOnly.refl (s : State) : LinksOnly s s := rfl

theorem LinksOnly.trans {s t u : State} (h : LinksOnly s t) (k : LinksOnly t u) : LinksOnly s u := by
  unfold LinksOnly at *
  rw [k, h]

/-- A change of a bridge reaches the bridges only. -/
theorem linksOnly_modBr (s : State) (l : GLink) (f : Bridge → Bridge) : LinksOnly s (modBr s l f) := by
  cases l <;> rfl

theorem linksOnly_pmuCount (s : State) (i ev n : Nat) (h : 8 ≤ i) : LinksOnly s (pmuCount s i ev n) := by
  unfold LinksOnly; rw [pmuCount_eq h]

theorem linksOnly_out (s : State) (l : List Out) : LinksOnly s { s with out := l } := rfl

theorem linksOnly_emitFrame (s : State) (l : GLink) (vc : Nat) (f : GlFrame) : LinksOnly s (emitFrame s l vc f) :=
  ((linksOnly_pmuCount s 12 0x300 1 (by decide)).trans (linksOnly_modBr _ l _)).trans (linksOnly_out _ _)

theorem linksOnly_pumpVc (l : GLink) (vc : Nat) : ∀ (q : List GlFrame) (s : State), LinksOnly s (pumpVc l vc q s)
  | [], s => linksOnly_modBr s l _
  | f :: q, s => by
    unfold pumpVc
    split
    · exact (linksOnly_emitFrame s l vc f).trans (linksOnly_pumpVc l vc q _)
    · exact linksOnly_modBr s l _

/-- Sending what waits on a link reaches the links only. -/
theorem linksOnly_pump (s : State) (l : GLink) : LinksOnly s (pump s l) := by
  unfold pump
  simp only [List.foldl]
  exact (((linksOnly_pumpVc l 0 _ s).trans (linksOnly_pumpVc l 1 _ _)).trans (linksOnly_pumpVc l 3 _ _)).trans (linksOnly_pumpVc l 2 _ _)

/-- A frame given to a link reaches the links only, whether it is sent, waits for credit or finds the link down. -/
theorem linksOnly_putFrame (s : State) (l : GLink) (f : GlFrame) : LinksOnly s (putFrame s l f) := by
  unfold putFrame
  split
  · exact (linksOnly_modBr s l _).trans (linksOnly_pump _ l)
  · exact LinksOnly.refl s

/-- A tag taken and freed within one command counts as allocated; nothing else changes but the monitors. -/
theorem linksOnly_passTag (s : State) : LinksOnly (tagged 1 s) (passTag s) := by
  unfold LinksOnly passTag tagged
  rw [pmuCount_eq (s := s) (i := 10) (by decide)]

/-- A frame sent reaches the links only, and the frame of an exchange without a tag of its own takes one. -/
theorem linksOnly_glSend (s : State) (l : GLink) (dst : Nat) (b : GlBody) (tag : BitVec 18) :
    LinksOnly (if tag = 0 && b.begins then tagged 1 s else s) (glSend s l dst b tag) := by
  unfold glSend
  split
  · exact (linksOnly_passTag s).trans (linksOnly_putFrame _ l _)
  · exact linksOnly_putFrame s l _

/-- The state as a frame that comes over a link leaves it before it does anything: counted, its credits taken, its buffer freed, what waited sent. -/
theorem glRecv_hears {s : State} {l : GLink} {h : GlHdr} (b : GlBody) (k : State → State) (hh : Hears s l h) :
    glRecv s l h b k = k (pump (modBr (pmuCount s 12 0x301 1) l (fun x => { x with
      rxFrames := x.rxFrames + 1, farFreed := h.cred, freed := setNth x.freed b.vc (h.vseq + 1) })) l) := by
  obtain ⟨h1, h2, h3, h4, -⟩ := hh
  rcases h4 with h4 | h4 <;> simp [glRecv, h1, h2, h3, h4]

/-- A frame over a link that passes none does nothing. -/
theorem glRecv_down {s : State} {l : GLink} (h : GlHdr) (b : GlBody) (k : State → State) (hl : linkOk s l = false) : glRecv s l h b k = s := by
  simp [glRecv, hl]

theorem linksOnly_received (s : State) (l : GLink) (f : Bridge → Bridge) : LinksOnly s (pump (modBr (pmuCount s 12 0x301 1) l f) l) :=
  ((linksOnly_pmuCount s 12 0x301 1 (by decide)).trans (linksOnly_modBr _ l f)).trans (linksOnly_pump _ l)

end Sys2Proof.Machine
end

