-- ==== Sys2Proof/Machine/ImgBytes.lean ====
section
/-! DEFINITION. Machine/ImgBytes.lean: the bytes of the header, the directory and the fixed-length records of a configuration image
(04_configuration_image, R64 to R66, R70, R74 to R76, R80, R81). -/

namespace Sys2Proof.Machine

/-- The 256 bytes of the header (R65). -/
def headBytes (h : ImgHeader) : List Byte :=
  layout [(4, h.magic.toNat), (1, h.fmtMajor), (1, h.fmtMinor), (2, h.hdrLen)] ++ beBytes 16 h.part.toNat ++
  layout [(4, h.version.toNat), (4, h.imageLen), (2, h.sectionCount), (2, h.dirEntryLen), (4, h.dirOffset), (1, h.declaredClass.toNat),
    (7, h.zero29.toNat)] ++ beBytes 48 h.baseHash.toNat ++ beBytes 48 h.imageHash.toNat ++
  layout [(8, h.buildTime.toNat), (4, h.toolId.toNat), (4, h.sigblkOffset)] ++ beBytes 16 h.projectId.toNat ++ leBytes 80 h.zeroB0.toNat

/-- The 64 bytes of a directory entry (R66). -/
def dirBytes (e : DirEntry) : List Byte :=
  layout [(2, e.id), (2, e.recordLen), (4, e.offset), (4, e.length), (4, e.recordCount)] ++ beBytes 48 e.hash.toNat

/-- The 16 bytes of a tile record (R70). -/
def tileBytes (r : TileRec) : List Byte :=
  layout [(1, r.tile), (1, r.task.toNat), (2, r.slackEvt.toNat), (4, r.codeOffset), (4, r.codeLen), (4, r.wcetCyc)]

/-- The 32 bytes of a task record; `rest` is the byte at 0x07 and the 14 from 0x12 (R74). -/
def taskBytes (t : TaskRec) : List Byte :=
  layout [(1, t.id), (1, t.kind), (1, t.priority), (1, t.periodExp), (1, t.engine), (1, t.ovrLimit), (1, t.ovrReaction), (1, t.rest % 256),
    (4, t.triggerSid.toNat), (4, t.slackNs), (2, t.phase), (14, t.rest / 256)]

/-- Bools as the bits of a FLAGS byte, the first in bit 0. -/
def flagByte : List Bool → Nat
  | [] => 0
  | b :: l => (if b then 1 else 0) + 2 * flagByte l

/-- The fields of an IOMAP record after its header (R76). -/
def ioFields : IoRec → List (Nat × Nat)
  | .port id enable mode ip mask vlan pcp =>
    [(1, id), (1, enable), (1, mode), (1, 0), (4, ip.toNat), (4, mask.toNat), (2, vlan), (1, pcp), (5, 0)]
  | .pdPub c f n len dest pexp og timed sdt a b pull pcp smi =>
    [(4, c), (4, f.toNat), (2, n), (2, len), (4, dest.toNat), (1, pexp), (1, og), (1, flagByte [timed, sdt, a, b, pull]), (1, pcp), (4, smi), (4, 0)]
  | .pdSub c f n len src timed sdt pull pullExp smi =>
    [(4, c), (4, f.toNat), (2, n), (2, len), (4, src.toNat), (1, flagByte [timed, sdt, pull]), (1, pullExp), (2, 0), (4, smi), (4, 0)]
  | .mdSession c role len t => [(4, c), (1, role), (1, 0), (2, len), (4, t)]
  | .outGroup id us => [(1, id), (3, 0), (4, us)]
  | .mvbRole role addr => [(1, role), (1, 0), (2, addr), (4, 0)]
  | .mvbPort addr fcode src og => [(2, addr), (1, fcode), (1, if src then 1 else 0), (1, og), (3, 0)]
  | .mvbMfl addr fcode slot => [(2, addr), (1, fcode), (1, slot)]
  | .canPort p mode nom data => [(1, p), (1, mode), (2, nom), (2, data), (2, 0)]
  | .canId p tx dlc ext fd brs ident pexp og =>
    [(1, p), (1, if tx then 1 else 0), (1, dlc), (1, flagByte [ext, fd, brs]), (4, ident), (1, pexp), (1, og), (2, 0)]
  | .node id => [(2, id), (2, 0)]
  | .safeIo c sid => [(1, c), (3, 0), (4, sid.toNat), (4, 0)]
  | .updNeighbour ip mask => [(4, ip.toNat), (1, mask), (3, 0)]
  | .undefined _ => []

/-- The bytes of an IOMAP record whose unlisted bytes are zero: its header, then its fields (R75, R76). -/
def ioBytes (r : IoRec) : List Byte := layout ([(1, r.kind), (1, 0), (2, ioLen r.kind)] ++ ioFields r)

/-- The 64 bytes of the GROUP record; `rest` holds its last 51 (R69, R80). -/
def groupBytes (r : GroupRec) : List Byte :=
  layout [(1, r.modeHigh.toNat * 2 + if r.group then 1 else 0), (1, r.groupId), (1, r.rackId), (1, r.protoMajor), (1, r.protoMinor), (1, r.nMiss),
    (2, r.probationS), (4, r.rotateMin), (1, r.onlineMaxClass), (51, r.rest)]

/-- The 32 bytes of the POWER record; SHED_ORDER is filled up with the byte that ends it (R80, R449). -/
def powerBytes (r : PowerRec) : List Byte :=
  layout ([(2, r.capTokens), (1, r.acMaxStep), (1, r.rest % 256)] ++ (r.shedOrder ++ List.replicate (8 - r.shedOrder.length) 0xFF).map (fun p => (1, p)) ++
    [(20, r.rest / 256)])

/-- The FLAGS byte of the TIME record (R80). -/
def timeFlags (r : TimeRec) : Nat := r.flagsHigh.toNat * 32 + flagByte [r.resyncAtMajor, r.ptpMaster, r.syncOut, r.ptpA, r.ptpB]

/-- The 32 bytes of the TIME record (R80). -/
def timeBytes (r : TimeRec) : List Byte :=
  layout [(4, r.tbaseUs), (1, r.syncRef), (1, timeFlags r), (2, r.slew), (2, r.window), (2, r.rest % 65536), (4, r.stepMaxUs), (1, r.refExp),
    (15, r.rest / 65536)]

/-- The 16 bytes of a SETTINGS record (R81). -/
def settingBytes (r : SettingRec) : List Byte := layout [(4, r.addr.toNat), (4, r.mask.toNat), (4, r.value.toNat), (4, r.rest.toNat)]

end Sys2Proof.Machine
end

