-- ==== Sys2Proof/Machine/LedOps.lean ====
section
/-! DEFINITION. Machine/LedOps.lean: what the six LEDs of the front panel show (02_connectors_supplies_environment, R28, R29): a view of
the state that no command changes. -/

namespace Sys2Proof.Machine

/-- The colour an LED lights in. -/
inductive Colour where
  | green | yellow | blue | amber | red
  deriving DecidableEq, Repr

/-- What an LED shows: off, lit, or flashing at a rate in tenths of a hertz with half of each period lit. -/
inductive Led where
  | off
  | steady (c : Colour)
  | flash (c : Colour) (rate : Nat)
  deriving DecidableEq, Repr

/-- The six LEDs. -/
structure Leds where
  pwr : Led
  run : Led
  force : Led
  role : Led
  sync : Led
  fault : Led
  deriving DecidableEq, Repr

/-- 24V_IN within 16.8 V to 30.0 V, as measured. -/
def inputOk (s : State) : Bool := decide (16800 ≤ s.pgv.voltMv.toNat) && decide (s.pgv.voltMv.toNat ≤ 30000)

/-- Whether the module is powered and not DORMANT: else every LED is dark (R28). -/
def ledLit (s : State) : Bool := s.pin.powerGood && s.glb.state != .dormant

/-- PWR (R28, R38). -/
def ledPwr (s : State) : Led :=
  if !ledLit s then .off else if inputOk s then .steady .green else .flash .green 20

/-- RUN (R28). -/
def ledRun (s : State) : Led :=
  match s.glb.state with
  | .run => .steady .green
  | .stop => .flash .green 10
  | .hold => .flash .green 40
  | _ => .off

/-- FORCE (R28). -/
def ledForce (s : State) : Led := if !ledLit s || s.glb.forces.isEmpty then .off else .steady .amber

/-- The colour of a driving or voting role (R28). -/
def roleColour : GRole → Option Colour
  | .active => some .green
  | .standby => some .yellow
  | .arbiter => some .blue
  | _ => none

/-- ROLE (R28). A member in PROBATION while the group state is MAINTENANCE has both flashing states of the table and shows that of PROBATION
(DEDUCED, assumption 23). -/
def ledRole (s : State) : Led :=
  if !ledLit s || !inGroup s || s.grp.state == .forming then .off
  else match s.grp.role, roleColour s.grp.role with
    | .probation, _ => .flash .yellow 10
    | _, some c => if s.grp.state = .maintenance then .flash c 5 else .steady c
    | _, none => .off

/-- SYNC: a refused step before holdover and SYNC_LOST, and these before TIME_VALID, where several hold (R28; log entry 23). -/
def ledSync (s : State) : Led :=
  if !ledLit s then .off
  else if s.tb.stepRefused then .flash .green 40
  else if s.tb.state = .holdover ∨ s.cyc.syncLost = true then .flash .green 10
  else if s.tb.valid && s.cyc.refPresent then .steady .green
  else .off

/-- FAULT, powered and driven by the Canary, also in a module that its self-test holds in reset; dark without power and in DORMANT. `Running`
in the table is RUN and HOLD: in the other states a port, plane, peer or latent fault and role OUT do not flash it (R28, R29, R390, R420;
DEDUCED, assumption 98). -/
def ledFault (s : State) : Led :=
  if !ledLit s && !(s.pin.qualifying && s.safe.faultLed) then .off
  else if s.safe.failSilent || s.safe.faultLed || s.glb.state == .safeHalt then .steady .red
  else if s.rst.faultLed1Hz || (s.glb.state == .run || s.glb.state == .hold) &&
      (portFault s || planeFault s false || planeFault s true || peerFault s || s.grp.latent != 0 || s.grp.role == .out) then .flash .red 10
  else .off

/-- The six LEDs: those of the LED test while it runs, else those of R28 (R29). -/
def leds (s : State) : Leds :=
  let test (c : Colour) : Leds := ⟨.steady .green, .steady .green, .steady .amber, .steady c, .steady .green, .steady .red⟩
  match s.pin.ledPhase with
  | 1 => test .green
  | 2 => test .green
  | 3 => test .yellow
  | 4 => test .blue
  | _ => ⟨ledPwr s, ledRun s, ledForce s, ledRole s, ledSync s, ledFault s⟩

end Sys2Proof.Machine
end

