-- ==== Sys2Proof/Machine/TileFetch.lean ====
section
/-! DEFINITION. Machine/TileFetch.lean: which command an instruction word of a tile program stands for, and which one a tile's program names next
(06_tile_instruction_set, R120 to R122, R124, R127). -/

namespace Sys2Proof.Machine

/-- The command that a decoded instruction in a slot of a tile stands for; none where the slot may not hold it (R122, R127). -/
def cmdOf (n : TileNo) (sl : Slot) (i : TInstr) : Option Instr :=
  match i.op.toNat, sl, i.f with
  | 0x00, _, .z => some (.nop n sl)
  | 0x01, _, .rr f => some (.mov n sl f)
  | 0x02, .s0, .l f => some (.limm n f)
  | 0x03, _, .rr f => some (.add n sl f)
  | 0x04, _, .ri f => some (.addi n sl f)
  | 0x05, _, .rr f => some (.sub n sl f)
  | 0x06, _, .rr f => some (.neg n sl f)
  | 0x07, _, .rr f => some (.abs n sl f)
  | 0x08, _, .rr f => some (.min n sl f)
  | 0x09, _, .rr f => some (.max n sl f)
  | 0x0A, _, .rr f => some (.lim n sl f)
  | 0x0B, _, .rr f => some (.mul n sl f)
  | 0x0C, _, .rr f => some (.mac n sl f)
  | 0x0D, .s0, .rr f => some (.div n f)
  | 0x0E, .s0, .rr f => some (.mod n f)
  | 0x0F, .s0, .rr f => some (.sqrt n f)
  | 0x10, _, .rr f => some (.and n sl f)
  | 0x11, _, .rr f => some (.or n sl f)
  | 0x12, _, .rr f => some (.xor n sl f)
  | 0x13, _, .rr f => some (.not n sl f)
  | 0x14, _, .rr f => some (.shl n sl f)
  | 0x15, _, .rr f => some (.shr n sl f)
  | 0x16, _, .rr f => some (.cmp n sl f)
  | 0x17, _, .ci f => some (.cmpi n sl f)
  | 0x18, _, .rr f => some (.sel n sl f)
  | 0x19, _, .rr f => some (.cvt n sl f)
  | 0x1A, .s0, .m f => some (.ld n f)
  | 0x1B, .s0, .m f => some (.st n f)
  | 0x1C, .s0, .lp f => some (.loop n f)
  | 0x1D, .s0, .b f => some (.br n f)
  | 0x1E, .s0, .b f => some (.brf n f)
  | 0x1F, .s0, .b f => some (.brk n f)
  | 0x20, .s0, .fb f => some (.ton n f)
  | 0x21, .s0, .fb f => some (.tof n f)
  | 0x22, .s0, .fb f => some (.tp n f)
  | 0x23, .s0, .fb f => some (.rtrig n f)
  | 0x24, .s0, .fb f => some (.ftrig n f)
  | 0x25, .s0, .fb f => some (.ctu n f)
  | 0x26, .s0, .fb f => some (.ctd n f)
  | 0x27, .s0, .fb f => some (.pt1 n f)
  | 0x28, .s0, .fb f => some (.ramp n f)
  | 0x29, .s0, .fb f => some (.pid n f)
  | 0x2A, _, .rr f => some (.qmrg n sl f)
  | 0x2B, _, .rr f => some (.qtst n sl f)
  | 0x2C, _, .ri f => some (.qset n sl f)
  | 0x2D, .s0, .a r => some (.launch n r)
  | 0x2E, .s0, .e f => some (.evrec n f)
  | 0x2F, .s0, .x k => some (.xmit n k)
  | 0x30, .s0, .z => some (.slack n)
  | 0x31, .s0, .z => some (.endOp n)
  | 0x32, _, .rr f => some (.getf n sl f)
  | _, _, _ => none

/-- The bundle that a tile's running program names next (R104, R120, R121). -/
def Tile.bundle (t : Tile) (p : TileProg) : Option Bundle :=
  match t.runner with
  | .none => none
  | .main => p.main[t.pc]?
  | .handler h => match p.handlers.find? (fun e => e.evtTask == h.task) with
    | some e => e.code[h.pc]?
    | none => none

/-- The command that a tile's running program names next: slot 0 of its bundle, or slot 1 once slot 0 has been issued (R122). -/
def nextTileCmd (s : State) (n : TileNo) : Option Instr :=
  let t := s.fab.tile n
  match t.bundle (tileProg s n t.codeHalf), t.open0 with
  | none, _ => none
  | some b, none => (decodeTile b.w0 b.w1).bind (cmdOf n .s0)
  | some b, some _ => (decodeTile b.w1 0).bind (cmdOf n .s1)

end Sys2Proof.Machine
end

