-- ==== Sys2Proof/WellFormed.lean ====
section
/-! DEFINITION. WellFormed.lean: which commands the manual admits: every operand within the field, the table or the range that its
rule gives it. A command that is not well formed has a meaning all the same; no statement needs it. -/

namespace Sys2Proof

open Machine

/-- A position of a group, 1 to 3 (R16). -/
def posOk (p : Nat) : Bool := decide (1 ≤ p) && decide (p ≤ 3)

/-- A frame header: positions of two bits, one credit byte for each VC (R326). -/
def glHdrOk (h : GlHdr) : Bool := posOk h.src && decide (h.dst ≤ 3) && decide (h.cred.length = 4)

/-- A heartbeat: its sender's position, protocol bytes, group number (R331). -/
def hbOk (p : HbPay) : Bool :=
  posOk p.position && decide (p.proto.1 < 256) && decide (p.proto.2 < 256) && decide (p.groupId < 65536)

/-- An ORDER: positions of the group, 0 for none (R327). -/
def orderOk (o : OrderMsg) : Bool :=
  posOk o.issuer && decide (o.active ≤ 3) && decide (o.standby ≤ 3) && decide (o.arbiter ≤ 3) && decide (o.subject ≤ 3)

/-- A TARGET's argument: a position where it names one (R327). -/
def targetOk : TargetArg → Bool
  | .clearLatent p => posOk p
  | _ => true

/-- An input delta entry: a 32-byte word of the PIM, whole or absent where it is the same (R203, R334). -/
def deltaOk : DeltaEnt → Bool
  | .word _ _ w bs => decide (w < 262144) && (decide (bs.length = 32) || bs.isEmpty)
  | .bell _ n => decide (n < 2 ^ 32)
  | _ => true

/-- A CAN frame: an 11-bit identifier where it is not extended, at most 64 bytes, 8 without FD (R281, R282). -/
def canOk (f : CanFrame) : Bool :=
  (f.ext || decide (f.ident.toNat < 2048)) && decide (f.data.length ≤ if f.fd then 64 else 8)

/-- An Ethernet frame: a priority of three bits, a VLAN of twelve (R253, R256). -/
def ethOk (f : EthFrame) : Bool := decide (f.pcp < 8) && f.vid.all (fun v => decide (v < 4096))

/-- A trusted kernel call: one of eight slots, RESP_MAX of 32 bits (R411, R412). -/
def callOk (c : CallReq) : Bool := decide (c.slot < 8) && decide (c.respMax < 2 ^ 32)

/-- An offset of 32 bits and a length of 16 (R297, R357). -/
def lenOk (off len : Nat) : Bool := decide (off < 2 ^ 32) && decide (len < 65536)

/-- A manifest's fields (R427). -/
def manifestOk (m : Manifest) : Bool :=
  decide (m.typeCode < 256) && decide (m.targetLen < 2 ^ 32) && decide (m.pkgLen < 2 ^ 32) && decide (m.blockCount < 2 ^ 32)

/-- A member entry (R428). -/
def memberOk (e : MemberEnt) : Bool := decide (e.position ≤ 3) && decide (e.slotState < 256) && decide (e.nextBlock < 2 ^ 32)

/-- A segment: one of four, at most 16,384 bytes (R428). -/
def segOk (e : SegEnt) : Bool := decide (e.seg < 4) && decide (e.block < 2 ^ 32) && decide (e.data.length ≤ 16384)

/-- A chain message given by a call (R428). -/
def chainOk : ChainMsg → Bool
  | .manifest h m => decide (h.typeCode < 256) && manifestOk m
  | .manifestReply h es => decide (h.typeCode < 256) && es.all memberOk
  | .segment h e => decide (h.typeCode < 256) && segOk e
  | .statusReq h => decide (h.typeCode < 256)
  | .statusReply h es _ _ => decide (h.typeCode < 256) && es.all memberOk
  | .command h _ ts => decide (h.typeCode < 256) && decide (1 ≤ ts.length) && decide (ts.length ≤ 8)
  | .commandReply h es => decide (h.typeCode < 256) && es.all memberOk

/-- Whether a command's operands are within what the manual gives them. -/
def Instr.wf : Instr → Bool
  | .powerUpThreshold => true
  | .powerGood _ => true
  | .ledTestPhaseEnd => true
  | .trustedKernelStart => true
  | .activePlaneLoaded => true
  | .powerFailWarning => true
  | .overVoltageLockout => true
  | .warningClear => true
  | .holdUpCutoff => true
  | .overvoltageSustained => true
  | .wakeAccept => true
  | .wakeExpiry => true
  | .rstN => true
  | .moduleResetTakeEffect => true
  | .syncInEdge => true
  | .thermalLimit => true
  | .thermalDerate _ => true
  | .clockFault _ => true
  | .clkAcStepDone _ => true
  | .boundary => true
  | .settlingComplete => true
  | .taskRelease => true
  | .fillEnd _ => true
  | .drainComplete _ => true
  | .deadlineExpiry _ => true
  | .scheduledTransfer xfer => decide (xfer < 8192)
  | .eventDispatch _ evt => decide (evt < 16)
  | .handlerEnd _ => true
  | .scratchpadScrub _ corrected => decide (corrected ≤ 32768)
  | .scratchpadEccError _ addr _ => decide (addr < 0x40000)
  | .linkEccError xfer _ => decide (xfer < 8192)
  | .fabricReset _ => true
  | .fabricResetDone => true
  | .tileReset _ => true
  | .tileResetDone _ => true
  | .nop _ _ => true
  | .mov _ _ f => fieldsOk 0x01 (.rr f)
  | .limm _ f => fieldsOk 0x02 (.l f)
  | .add _ _ f => fieldsOk 0x03 (.rr f)
  | .addi _ _ f => fieldsOk 0x04 (.ri f)
  | .sub _ _ f => fieldsOk 0x05 (.rr f)
  | .neg _ _ f => fieldsOk 0x06 (.rr f)
  | .abs _ _ f => fieldsOk 0x07 (.rr f)
  | .min _ _ f => fieldsOk 0x08 (.rr f)
  | .max _ _ f => fieldsOk 0x09 (.rr f)
  | .lim _ _ f => fieldsOk 0x0A (.rr f)
  | .mul _ _ f => fieldsOk 0x0B (.rr f)
  | .mac _ _ f => fieldsOk 0x0C (.rr f)
  | .div _ f => fieldsOk 0x0D (.rr f)
  | .mod _ f => fieldsOk 0x0E (.rr f)
  | .sqrt _ f => fieldsOk 0x0F (.rr f)
  | .and _ _ f => fieldsOk 0x10 (.rr f)
  | .or _ _ f => fieldsOk 0x11 (.rr f)
  | .xor _ _ f => fieldsOk 0x12 (.rr f)
  | .not _ _ f => fieldsOk 0x13 (.rr f)
  | .shl _ _ f => fieldsOk 0x14 (.rr f)
  | .shr _ _ f => fieldsOk 0x15 (.rr f)
  | .cmp _ _ f => fieldsOk 0x16 (.rr f)
  | .cmpi _ _ f => fieldsOk 0x17 (.ci f)
  | .sel _ _ f => fieldsOk 0x18 (.rr f)
  | .cvt _ _ f => fieldsOk 0x19 (.rr f)
  | .ld _ f => fieldsOk 0x1A (.m f)
  | .st _ f => fieldsOk 0x1B (.m f)
  | .loop _ f => fieldsOk 0x1C (.lp f)
  | .br _ f => fieldsOk 0x1D (.b f)
  | .brf _ f => fieldsOk 0x1E (.b f)
  | .brk _ f => fieldsOk 0x1F (.b f)
  | .ton _ f => fieldsOk 0x20 (.fb f)
  | .tof _ f => fieldsOk 0x21 (.fb f)
  | .tp _ f => fieldsOk 0x22 (.fb f)
  | .rtrig _ f => fieldsOk 0x23 (.fb f)
  | .ftrig _ f => fieldsOk 0x24 (.fb f)
  | .ctu _ f => fieldsOk 0x25 (.fb f)
  | .ctd _ f => fieldsOk 0x26 (.fb f)
  | .pt1 _ f => fieldsOk 0x27 (.fb f)
  | .ramp _ f => fieldsOk 0x28 (.fb f)
  | .pid _ f => fieldsOk 0x29 (.fb f)
  | .qmrg _ _ f => fieldsOk 0x2A (.rr f)
  | .qtst _ _ f => fieldsOk 0x2B (.rr f)
  | .qset _ _ f => fieldsOk 0x2C (.ri f)
  | .launch _ _ => true
  | .evrec _ f => fieldsOk 0x2E (.e f)
  | .xmit _ _ => true
  | .slack _ => true
  | .endOp _ => true
  | .getf _ _ f => fieldsOk 0x32 (.rr f)
  | .launchFire q => decide (q < 80)
  | .soLaunch => true
  | .gateEntry _ => true
  | .frameTransmit _ => true
  | .frameReceive _ f raw _ => ethOk f && decide (raw.length < 65536)
  | .sdtSkewTimeout subNo => decide (subNo < 4096)
  | .linkUp _ _ => true
  | .linkDown _ => true
  | .prpSupervision => true
  | .prpEntryAge _ => true
  | .pdCounterForget subNo _ => decide (subNo < 4096)
  | .arpRefresh => true
  | .mdReassemblyTimeout _ _ => true
  | .hostFrameSubmit _ _ _ pcp => decide (pcp < 8)
  | .mvbBasicPeriod j => decide (j < 64)
  | .mvbPoll => true
  | .mvbMasterFrame f a _ _ => decide (f < 16) && decide (a < 4096)
  | .mvbSlaveFrame data _ _ => decide (data.length ≤ 32)
  | .canFrameReceive n f => decide (n < 2) && canOk f
  | .canTxComplete n _ => decide (n < 2)
  | .canTxTimeout n _ => decide (n < 2)
  | .busOff n => decide (n < 2)
  | .busOffRecoveryDone n => decide (n < 2)
  | .canopenSync n => decide (n < 2)
  | .semaphoreRevoke _ sem => decide (sem < 256)
  | .postedWriteFailure _ _ => true
  | .transactionComplete _ => true
  | .tagTimeout _ => true
  | .retryReissue _ => true
  | .receiveBufferDequeue _ => true
  | .stagingEntryFree => true
  | .holdCutoff _ _ => true
  | .quarantineEnd _ => true
  | .sigWrite _ _ _ => true
  | .sigAtomic _ _ _ _ _ => true
  | .dmaCopy _ _ _ count => decide (count < 2 ^ 32)
  | .mdReceive _ ses _ len => decide (len < 65536) && decide (ses < 65536)
  | .mdNotify _ ses _ len _ => decide (len < 65536) && decide (ses < 65536)
  | .mdRequest _ ses _ len _ expected => decide (len < 65536) && decide (ses < 65536) && decide (expected < 256)
  | .mdReply _ ses _ len _ => decide (len < 65536) && decide (ses < 65536)
  | .mdReplyConfirm _ ses _ len _ => decide (len < 65536) && decide (ses < 65536)
  | .mdConfirm _ ses _ len _ => decide (len < 65536) && decide (ses < 65536)
  | .mvbRead _ port _ _ sem => decide (sem < 256) && decide (port < 65536)
  | .mvbWrite _ port _ _ sem => decide (sem < 256) && decide (port < 65536)
  | .canSend _ n _ len _ _ _ sem => decide (sem < 256) && decide (len < 65536) && decide (n < 2) && decide (len ≤ 64)
  | .canRecv _ n _ _ us _ => decide (n < 2) && decide (us ≤ 1000000)
  | .semAcq _ unit sem first last => decide (sem < 256) && decide (first ≤ last) && decide (last < 2 ^ 32) && decide (unit < 256)
  | .semRel _ sem => decide (sem < 256)
  | .glRead _ _ off len _ sem => decide (sem < 256) && lenOk off len
  | .glWrite _ _ off len _ sem => decide (sem < 256) && lenOk off len
  | .glSemAcq _ _ sem first last => decide (sem < 256) && decide (first ≤ last) && decide (last < 2 ^ 32)
  | .glSemRel _ _ sem => decide (sem < 256)
  | .glDoorbell _ _ _ => true
  | .snapshotRead _ off => decide (off < 0x800000) && decide (off % 8 = 0)
  | .splitLoRead _ addr => decide (addr.toNat % 4 = 0)
  | .taskDone _ _ _ => true
  | .glbTaskRelRead _ => true
  | .glbEvtStatRead _ _ => true
  | .fabTileMaxRead _ _ => true
  | .pimaStgHwmRead _ => true
  | .pimaSnapStatRead _ _ => true
  | .pimaWaitRead _ _ => true
  | .safeRespRead _ => true
  | .pgvMeasRead _ => true
  | .glxDbRead _ _ => true
  | .evrReadRequest _ _ => true
  | .evrReadComplete _ => true
  | .watchdogKick => true
  | .watchdogExpiry => true
  | .acStepRequest _ => true
  | .pmuEvselWrite _ _ _ _ => true
  | .counterClear _ _ => true
  | .dumpArm _ _ => true
  | .pmuCounterWrap _ _ _ => true
  | .dumpRecordWrite => true
  | .tkFieldWrite _ _ _ => true
  | .protectedAccess _ _ _ => true
  | .registerWrite _ _ _ _ => true
  | .sessionOpen c _ => callOk c
  | .sessionClose c => callOk c
  | .sigmapRead c _ off len => callOk c && lenOk off len
  | .runtimeReady c => callOk c
  | .forceList c => callOk c
  | .startWarm c => callOk c
  | .startCold c => callOk c
  | .stop c => callOk c
  | .hold c => callOk c
  | .continue c => callOk c
  | .step c n => callOk c && decide (n < 65536)
  | .automaticStart => true
  | .dormantEnter c => callOk c
  | .forceSet c _ _ _ => callOk c
  | .forceClear c _ => callOk c
  | .forceClearAll c => callOk c
  | .timeAccept c => callOk c
  | .safeAck c => callOk c
  | .roleSwap c => callOk c
  | .groupMaintEnter c => callOk c
  | .groupMaintLeave c => callOk c
  | .groupClearLatent c pos => callOk c && posOk pos
  | .maintEnable c => callOk c
  | .maintDisable c => callOk c
  | .regWrite c _ _ _ => callOk c
  | .moduleReset c => callOk c
  | .runtimeReset c => callOk c
  | .portReset c _ => callOk c
  | .pimFreeze c _ => callOk c
  | .txeQuotaWrite c _ _ _ => callOk c
  | .pgvCapLimitWrite c _ => callOk c
  | .settingsReset c => callOk c
  | .tileDebugRead c _ addr len => callOk c && decide (addr < 0x40000) && decide (len ≤ 0x40000)
  | .evrClear c sev => callOk c && decide (sev < 256)
  | .keystoreLoad c _ => callOk c
  | .updMsg c m => callOk c && chainOk m
  | .updActivate c _ => callOk c
  | .updConfirm c _ => callOk c
  | .updRevert c _ => callOk c
  | .updAbort c _ => callOk c
  | .updSlotInfo c _ => callOk c
  | .sessionExpiry _ => true
  | .lockoutEnd => true
  | .shadowLoadDone => true
  | .manifest _ h m => decide (h.typeCode < 256) && manifestOk m
  | .manifestReply _ h es => decide (h.typeCode < 256) && es.all memberOk
  | .segment h e => decide (h.typeCode < 256) && segOk e
  | .statusReq _ h => decide (h.typeCode < 256)
  | .statusReply _ h es _ => decide (h.typeCode < 256) && es.all memberOk
  | .commandActivate _ h ts => decide (h.typeCode < 256) && decide (1 ≤ ts.length) && decide (ts.length ≤ 8)
  | .commandConfirm _ h ts => decide (h.typeCode < 256) && decide (1 ≤ ts.length) && decide (ts.length ≤ 8)
  | .commandRevert _ h ts => decide (h.typeCode < 256) && decide (1 ≤ ts.length) && decide (ts.length ≤ 8)
  | .commandAbort _ h ts => decide (h.typeCode < 256) && decide (1 ≤ ts.length) && decide (ts.length ≤ 8)
  | .commandReply _ h es => decide (h.typeCode < 256) && es.all memberOk
  | .verificationDone _ _ => true
  | .updateSessionIdle _ => true
  | .healthReached _ => true
  | .lehrEnd _ => true
  | .powerWindow _ _ _ units => decide (units.length = 18)
  | .retentionPoint => true
  | .countersRecordWrite => true
  | .flushComplete => true
  | .backgroundCopy => true
  | .timeStep => true
  | .announceTimeout _ => true
  | .syncTimeout => true
  | .ptpDelayReq _ => true
  | .ptpMasterSend _ => true
  | .gmTimeValid => true
  | .glLinkUp _ => true
  | .glLinkDown _ => true
  | .hbSend => true
  | .hb _ h p => glHdrOk h && hbOk p
  | .hbRelay _ h p => glHdrOk h && hbOk p
  | .heartbeatCheck => true
  | .failSilentIndication _ => true
  | .orderTakeover _ h o => glHdrOk h && orderOk o
  | .orderExclude _ h o => glHdrOk h && orderOk o
  | .orderAdoptMcc _ h o => glHdrOk h && orderOk o
  | .orderRoles _ h o => glHdrOk h && orderOk o
  | .ack _ h type _ _ => glHdrOk h && decide (type < 256)
  | .targetModeCommand _ h _ a => glHdrOk h && targetOk a
  | .targetForceChange _ h _ cs => glHdrOk h && decide (cs.length ≤ 1024)
  | .targetTimeStep _ h mcc => glHdrOk h && decide (mcc.refusedCase ≤ 2)
  | .targetRoleSwap _ h _ => glHdrOk h
  | .targetMaintEnter _ h _ => glHdrOk h
  | .targetMaintLeave _ h _ => glHdrOk h
  | .propose rx => rx.all (fun x => glHdrOk x.2.1)
  | .accept _ h _ _ => glHdrOk h
  | .commit _ h _ _ => glHdrOk h
  | .abort rx => rx.all (fun x => glHdrOk x.2.1)
  | .delta _ h es => glHdrOk h && es.all deltaOk
  | .deltaEnd _ h entries frames => glHdrOk h && decide (entries < 2 ^ 32) && decide (frames < 65536)
  | .inputAgreement => true
  | .voteSend => true
  | .vote _ h es => glHdrOk h && decide (es.length ≤ 1024)
  | .voteDecide => true
  | .mirror _ h es => glHdrOk h && es.all deltaOk
  | .rdReq _ h off words sem => glHdrOk h && decide (sem < 256) && decide (off < 2 ^ 32) && decide (1 ≤ words) && decide (words ≤ 128)
  | .wrReq _ h off sem _ data => glHdrOk h && decide (sem < 256) && decide (off < 2 ^ 32) && decide (data.length ≤ 1024) && decide (data.length % 8 = 0)
  | .semAcqFrame _ h sem first last => glHdrOk h && decide (sem < 256) && decide (first ≤ last) && decide (last < 2 ^ 32)
  | .semRelFrame _ h sem => glHdrOk h && decide (sem < 256)
  | .doorbell _ h _ => glHdrOk h
  | .xferReq _ h _ => glHdrOk h
  | .rdRsp _ h _ data => glHdrOk h && decide (data.length ≤ 1024) && decide (data.length % 8 = 0)
  | .wrRsp _ h _ => glHdrOk h
  | .semRsp _ h _ => glHdrOk h
  | .retry _ h => glHdrOk h
  | .xferData _ h off _ => glHdrOk h && decide (off < 2 ^ 32)
  | .credit _ h => glHdrOk h
  | .creditReturnTimer _ => true
  | .formingTimeout => true
  | .probationEnd pos => posOk pos
  | .rotationMinute => true
  | .driveCheck => true
  | .safetyTaskEnd _ _ _ _ _ => true
  | .soReadback _ _ => true
  | .soTestPulse _ _ => true
  | .inputTestPulse _ _ _ _ _ => true
  | .safeInputChange _ _ => true
  | .inputDiscrepancyTimeout _ => true
  | .inputFaultClear _ => true
  | .livenessPulse _ => true
  | .canaryWatch _ => true
  | .failSilence _ => true
  | .canaryReset => true
  | .sramScrub corrected _ => decide (corrected < 2 ^ 32)
  | .coreSelfTest _ => true
  | .rstNRelease => true
  | .vstbyBelowMinimum => true
  | .vstbyReturn => true
  | .portResetDone u => decide (u < 16)
  | .clusterRelease => true
  | .lehrLeftWrite => true

end Sys2Proof
end

