-- ==== Sys2Proof/Tests/Slice0.lean ====
section
/-! SUPPORT. Tests/Slice0.lean: the model's own tests. Small states built from one another; for every clause of every statement that
has premises a state and operands that meet all of them together (`test_premises_…`, one fact per clause); the well-formedness smoke
test; worked examples of the manual. -/

section
set_option Elab.async false

namespace Sys2Proof.Tests
open Sys2Proof Sys2Proof.Machine

/-- A small program: one fill and one drain descriptor, a handler for event task 0. -/
def wProg : TileProg :=
  { fillCount := 1, drainCount := 1, descs := [⟨0x20000, 1, 0, false, false, 0, 0⟩, ⟨0x20000, 1, 0, true, false, 0, 0⟩, ⟨0x20001, 1, 0, true, true, 0, 0⟩],
    handlers := [{ evtTask := 0, descFirst := 2, descCount := 1, wcetCyc := 500 }], slackCyc := 700, localInit := [1, 2, 3] }

def wImg : ConfImage :=
  { tiles := (List.range 48).map (fun i => if i = 0 then { tile := 0, task := 0, slackEvt := 1, wcetCyc := 8000 }
      else if i = 1 then { tile := 1, task := 1, wcetCyc := 8000 } else { tile := i }),
    progs := [wProg, wProg],
    xfers := [{ task := 0, src := 0, dst := 1, startSlot := 5, slotCount := 1, words := 2, srcOff := 3, dstOff := 7 }],
    sigs := [{ sid := 0x101, ty := 3, pimOffset := 0x400000, dir := 2, writer := 0, forceAllowed := true },
             { sid := 0x102, ty := 3, pimOffset := 0x400020, writer := 0x20 },
             { sid := 0x103, ty := 3, pimOffset := 0x400040, writer := 0x50, forceAllowed := true }],
    tasks := [{ id := 0 }, { id := 1, periodExp := 1, priority := 2 }, { id := 2, engine := 1, priority := 1 }, { id := 3, engine := 2 },
              { id := 0x20, kind := 1, triggerSid := 0x103, priority := 3 }],
    iomap := [.port 0 1 0 0x0A000010A 0xFFFF0000 0 0, .outGroup 1 50, .node 1] }

/-- A module that runs the small image. -/
def w0 : State :=
  { ci := { act := wImg, activeValid := true }, fab := { state := .running, tiles := List.replicate 48 { phase := .idle } },
    glb := { state := .run }, cyc := { running := true, started := true, mcc := 5, lenNs := 1000000 },
    pin := { powerGood := true }, tk := { running := true }, pim := { settledMcc := some 5 } }

def wFill : State := modTile w0 0 (fun t => { t with phase := .fill, inst := true, task := 0, relMcc := 5, deadline := 8000, budget := 8000 })
def wLate : State := modTile w0 0 (fun t => { t with phase := .program, inst := true, task := 0, relMcc := 5 })
def wInst : State := { w0 with glb := { w0.glb with inst := [⟨0, 5, 6, false, 0, false, false, [], []⟩] } }
def wDrain : State := modTile wInst 0 (fun t => { t with phase := .drain, inst := true, task := 0, relMcc := 5, cyc := 500, deadline := 7500, budget := 8000, mem := [(0x38000, 7)] })
def wXmit : State := modTile w0 0 (fun t => { t with phase := .program, sent := [0], mem := [(0x3C018, 9), (0x3C021, 8)] })
def wEvt : State := { w0 with cyc := { w0.cyc with timerTtc := 1000000 }, glb := { w0.glb with relDone := some 5, evts := modNth w0.glb.evts 0 (fun e => { e with queue := [⟨1, 0, 2, 5, false⟩] }) } }
def wHand : State := modTile w0 0 (fun t => { t with hand := some ⟨0, ⟨1, 0, 2, 5, false⟩, 0, 5, 0, 0, [], none, [], 0, false, true⟩ })
def wReset : State := modTile w0 0 (fun t => { t with phase := .reset })
def wLoading : State := { w0 with fab := { w0.fab with state := .loading } }
def wThird : State := modTile wDrain 0 (fun t => { t with resets := [1, 0] })
def wHalted : State := { w0 with fab := { w0.fab with state := .halted } }
end Sys2Proof.Tests
namespace Sys2Proof.Tests
open Sys2Proof Sys2Proof.Machine
def wKeys : KeyStore :=
  { seq := 1, keys := [⟨1, 1, false, 0⟩, ⟨2, 2, false, 0⟩, ⟨3, 3, false, 0⟩, ⟨4, 4, false, 0⟩, ⟨6, 4, false, 0⟩], root := 1,
    sig := { keyClass := 5 } }

/-- The smallest image that passes every check: no signal, no task, all tiles unused. -/
def wEmptyImg : ConfImage :=
  { hdr := { version := 1, imageLen := 33557888, storedLen := 33557888, imageHash := 5, calcHash := 5, sigblkOffset := 33554432 },
    dir := [(0, 0, 0, 256, 0), (1, 0, 17825792, 784, 48), (2, 0, 18874368, 262144, 0), (3, 32, 19922944, 0, 0), (4, 32, 20971520, 0, 0),
      (5, 0, 22020096, 8, 1), (6, 32, 23068672, 0, 0), (7, 0, 24117248, 0, 0), (8, 0, 25165824, 3808, 1), (9, 64, 26214400, 64, 1),
      (10, 32, 27262976, 32, 1), (11, 32, 28311552, 32, 1), (12, 16, 29360128, 0, 0)].map
        (fun x => { id := x.1, recordLen := x.2.1, offset := x.2.2.1, length := x.2.2.2.1, recordCount := x.2.2.2.2 }),
    sig := { keyId := 1 }, tiles := (List.range 48).map (fun i => { tile := i }), progs := List.replicate 48 {},
    iomap := [.node 1], ioHeads := [{ kind := 11, len := 8 }], safety := { sig := { keyClass := 2, keyId := 2 }, resultSids := [0, 0, 0, 0, 0, 0] },
    power := { shedOrder := [2, 5, 4, 3, 7, 6, 1, 0] } }

/-- A slot whose image a key signs. -/
def wSlot (h : Nat) (cls : Byte) (key : BitVec 128) (g : ConfImage) : UpdSlot :=
  { st := .active, img := { version := 1, hash := BitVec.ofNat 384 h, calcHash := BitVec.ofNat 384 h, sig := { keyClass := cls, keyId := key }, ci := g } }

/-- A module that can boot: a key store, five images, a good Cullet. -/
def wBoot : State :=
  { pin := { powerGood := true },
    tk := { storeA := some wKeys, fuses := { serial := 5 } },
    upd := { slots := [(wSlot 11 4 4 {}, {}), (wSlot 12 4 4 {}, {}), (wSlot 13 4 4 {}, {}), (wSlot 14 4 4 {}, {}), (wSlot 77 1 1 wEmptyImg, {})] },
    cul := { counters := { a := some (1, {}), b := some (1, {}) },
             bootctl := { a := some (1, List.replicate 5 { version := 1 }), b := some (1, List.replicate 5 { version := 1 }) },
             boot := List.replicate 5 { version := 1 }, cstore := { a := some (1, []), b := some (1, []) } } }
/-- The same once its kernel runs. -/
def wConf : State := { wBoot with tk := { wBoot.tk with running := true }, glb := { state := .config } }
def extra : List State := [wBoot, wConf, { wConf with rst := { wConf.rst with clusterLocked := true } }]
end Sys2Proof.Tests

namespace Sys2Proof.Tests


end Sys2Proof.Tests

/-! ### Samples. Supplies, clocks, resets, fabric. -/
namespace Sys2Proof.Tests.K
open Sys2Proof Sys2Proof.Machine Sys2Proof.Tests 
def mods : List (State → State) := [
  (fun s => { s with pin := { s.pin with warn := some ⟨false, 0⟩ } }),
  (fun s => { s with clk := { s.clk with acMask := true } }),
  (fun s => { s with rst := { s.rst with moduleDue := true } }),
  (fun s => { s with safe := { s.safe with failSilent := true, armed := true, canaryLatch := 3 }, ci := { s.ci with act := { s.ci.act with safety := { s.ci.act.safety with canaryRestart := 1 } } } }),
  (fun s => { s with rst := { s.rst with wdogArmed := true, clusterHeld := false, portHeld := 0 } }),
  (fun s => { s with rst := { s.rst with wdogArmed := true, clusterHeld := false }, pgv := { s.pgv with stalled := true } }),
  (fun s => { s with glb := { s.glb with state := .stop }, ci := { s.ci with act := { s.ci.act with power := { s.ci.act.power with acMaxStep := 3 } } } }),
  (fun s => { s with glb := { s.glb with state := .dormant }, pin := { s.pin with powerGood := false, supplyHigh := true } }),
  (fun s => { s with glb := { s.glb with state := .config }, ci := { s.ci with activeValid := false } }),
  (fun s => { s with glb := { s.glb with state := .boot }, tk := { s.tk with running := false } }),
  (fun s => { s with pin := { s.pin with powerGood := false, qualifying := true, ledPhase := 3 } }),
  (fun s => { s with ci := { s.ci with act := { s.ci.act with group := { s.ci.act.group with group := true } } }, grp := { s.grp with role := .active, formed := true } }),
  (fun s => { s with grp := { s.grp with brL := { s.grp.brL with up := true }, brR := { s.grp.brR with up := true } }, safe := { s.safe with so := [{cmd := true}, {cmd := true}] } })]
def base : List State := [w0, wFill, wInst, wDrain, wXmit, wEvt, wHand, wReset, wLate, wLoading, wThird, wHalted, State.reset]
def more : List State := [{ wThird with fab := { wThird.fab with lastEsc := some 0 } }, { wThird with fab := { wThird.fab with lastEsc := some 0 }, cul := { wThird.cul with optime := 700 } },
  { w0 with cul := { w0.cul with retained := w0.cul.retained.write (retGen w0) } }, { w0 with pending := [.rstN] },
  { w0 with clk := { w0.clk with acMask := true }, rst := { w0.rst with clusterHeld := false, wdogArmed := true } },
  modTile wDrain 0 (fun t => { t with deadline := 0 }), modTile wHand 0 (fun t => { t with hand := t.hand.map (fun h => { h with ended := false }) }),
  { w0 with rst := { w0.rst with clusterHeld := false } },
  { w0 with rst := { w0.rst with clusterHeld := false }, ci := { w0.ci with act := { w0.ci.act with power := { w0.ci.act.power with acMaxStep := 3 } } } },
  { w0 with rst := { w0.rst with clusterHeld := false, wdogArmed := true }, pgv := { w0.pgv with stalled := true, stable := 2000 }, host := [.watchdogKick] }]
def samples : List State := base ++ mods.map (fun f => f w0) ++ mods.map (fun f => f wHand) ++ extra ++ more
def l1 : List (State) := samples
def l3 : List (Fin 48) := [0,1]
def l4 : List (Nat) := [0,1,3,8]
def l5 : List (Bool) := [false,true]
def l6 : List (Instance) := samples.flatMap (·.glb.inst)
def l8 : List (EvtEntry) := [⟨1, 0, 2, 5, false⟩]
def l9 : List (List EvtEntry) := [[]]
def l10 : List (HandlerEnt) := wProg.handlers
def l11 : List (HandlerRun) := samples.filterMap (fun s => (s.fab.tile 0).hand)
def l15 : List (Byte) := [0,1,6,8,9,60,69,72,76,81,200]
def l16 : List (BitVec 3) := [0,3,7]
def l17 : List (Fin 19) := List.finRange 19

end Sys2Proof.Tests.K

/-! ### Samples. Tile instructions. -/
namespace Sys2Proof.Tests.K1
open Sys2Proof Sys2Proof.Machine Sys2Proof.Tests 
def md (s : State) (f : Tile → Tile) : State := { s with fab := (modTile s 0 f).fab }
def rg (t : Tile) : Tile := { t with regs := [0,5,0xFFFFFFFFFFFFFFF9,0x41200000,0x30000,0x3C000,1,0] ++ List.replicate 24 0x7FFFFFFF80000000 }
def op1 (t : Tile) : Tile := { t with open0 := some { cyc := 3, wr := some (2, 7), set := 1 } }
def mainP (t : Tile) : Tile := { rg t with loops := [⟨0,5,2⟩], phase := .program, inst := true, task := 0, relMcc := 5, deadline := 8000, budget := 8000 }
def handP (t : Tile) : Tile := { rg t with hand := t.hand.map (fun h => { h with ended := false }) }
def samples1 : List State := [md w0 mainP, md wHand handP, md w0 (fun t => op1 (mainP t)), md wHand (fun t => op1 (handP t)), md wThird mainP, md w0 (fun t => { mainP t with recs := List.replicate 4 ⟨1,2,3⟩ , mem := [(0x20040, 1), (0x30001, 5)] }),
  md w0 (fun t => { mainP t with open0 := some { cyc := 1, ctl := .stop } }), md wHand (fun t => { handP t with open0 := some { cyc := 1, ctl := .stop } })]
def l1 : List (State) := samples1
def l2 : List (TileNo) := [0, 1]
def l3 : List (Nat) := [0,1,3]
def l4 : List (Int) := [-200,-1,0,3,300]
def l7 : List (Word) := [0,5,0xFFFFFFFFFFFFFFF9,0x80000000,0x3F,0x7FFF]
def l10 : List (BitVec 6) := [3,0x1A]
def tys : List (BitVec 4) := [0,1,3,4,6,8,9,10,11,13]
def l11 : List (RR) := tys.flatMap fun ty => [0,1,2].flatMap fun fn => [⟨1, 2, 3, ty, fn⟩, ⟨1,2,0,ty,fn⟩, ⟨1,0,0,ty,fn⟩, ⟨1,2,4,ty,fn⟩]
def l12 : List (RI) := [⟨5,6,3,0xFFF⟩, ⟨5,6,9,3⟩, ⟨5,0,0,3⟩]
def l13 : List (CI) := [⟨5,6,3,1,3⟩]
def l15 : List (MF) := [⟨1,4,3,0⟩,⟨1,5,3,0⟩,⟨1,5,9,8⟩,⟨2,4,9,8⟩,⟨1,4,3,1⟩,⟨1,4,3,0xFFF⟩,⟨1,5,9,1⟩,⟨1,0,3,1⟩]
def l16 : List (BF) := [⟨6,0⟩,⟨1,0⟩,⟨6,3⟩,⟨0,4⟩]
def l17 : List (LPF) := [⟨0,3,2⟩,⟨2,3,2⟩,⟨1,9,4⟩,⟨1,2,4⟩]
def l18 : List (LoopFrame) := [⟨1,3,2⟩,⟨1,3,1⟩,⟨0,1,0⟩]
def l21 : List (EF) := [⟨2,3,4⟩,⟨2,7,4⟩]
def l23 : List (Tile) := samples1.map (·.fab.tile 0)
def l24 : List (HalfBundle) := [{ cyc := 3, wr := some (2, 7), set := 1 }, { cyc := 1, ctl := .stop }]
def l25 : List (HandlerRun) := samples1.filterMap (fun s => (s.fab.tile 0).hand)
def l26 : List (TFields) := [.rr ⟨1,2,3,3,0⟩, .m ⟨4,2,9,1⟩]
def l27 : List (Reg32) := [0, 5, 0x08E08001]
def l28 : List (TInstr) := [⟨2, .l ⟨7, 0x800100000005⟩⟩]

end Sys2Proof.Tests.K1

/-! ### Samples. Timers, counters, records. -/
namespace Sys2Proof.Tests.K1x
open Sys2Proof Sys2Proof.Machine Sys2Proof.Tests Sys2Proof.Tests.K1
def T0 : Tile := { regs := [0,1,0,3,2] ++ List.replicate 27 5, mem := [(0x20040, 3), (0x20044, 2)] }
def l1 : List (Tile) := [T0, { T0 with mem := [(0x20044,0xFF),(0x20045,0xFF),(0x20046,0xFF),(0x20047,0x7F)] }, { T0 with mem := [(0x20044,0),(0x20047,0x80), (0x20048,1)] }, { T0 with mem := [(0x20047,0x80)] }, { T0 with mem := [(0x20040,1)] }, { T0 with mem := [(0x2004C, 4)] }, { T0 with mem := [(0x20040, 9), (0x2004C, 13)] }, { T0 with mem := [(0x20040, 9), (0x2004C, 1)] }].map (fun t => t)
def l2 : List (FBF) := [⟨5,1,2,2⟩,⟨5,2,1,2⟩,⟨5,1,1,2⟩,⟨5,2,2,2⟩,⟨5,3,4,2⟩]
def l3 : List (Nat) := [0x20040,0x20044,0x20048,0x20041]
def l4 : List (TileProg) := [{}, { localInit := [1,2] }]
def l5 : List (Sev) := [.trace, .info, .notice, .warning, .error, .critical, .safety, .security]

end Sys2Proof.Tests.K1x

/-! ### Samples. Boundaries, launches, time base. -/
namespace Sys2Proof.Tests.K4
open Sys2Proof Sys2Proof.Machine Sys2Proof.Tests 
def wTb0 : State := { w0 with ci := { w0.ci with act := { w0.ci.act with time := { w0.ci.act.time with ptpA := true, ptpB := true, ptpMaster := true } } } }
def wTb : State := { wTb0 with tb := { wTb0.tb with a := { wTb0.tb.a with best := some { prio1 := 128 }, offset := some 3 }, state := .locked, ttc := 500 } }
def L1 : Launch := ⟨5, 5, [.mvb 3 [1,2]]⟩
def pend (st : MState) (c : ModeCmd) (k : Mcc) : State :=
  { w0 with glb := { w0.glb with state := st, pendCmd := some c, tgtMcc := k, evts := wEvt.glb.evts } }
def wE0 (k : Mcc) : State := { w0 with ci := { w0.ci with act := { w0.ci.act with tasks := wImg.tasks.filter (fun r => r.engine != 1) } }, cyc := { w0.cyc with mcc := k }, pim := { w0.pim with settledMcc := some k } }
def base : List State := [wE0 5, wE0 8, { wE0 5 with glb := wInst.glb }, {w0 with tb := {w0.tb with valid := true}}, {w0 with glb := {w0.glb with relDone := some 5}}, w0, wInst, wEvt, wHand, State.reset, wLoading, wHalted,
  pend .stop .startWarm 6, pend .stop .startCold 6, pend .run .stop 6, pend .hold .stop 5, pend .run .hold 6, pend .hold .cont 6,
  pend .hold (.step 3) 6, pend .stop .dormant 6, pend .run .stop 9,
  { w0 with glb := { w0.glb with state := .stop, autoDue := true, auto := 0 } },
  { w0 with glb := { w0.glb with state := .stop, autoDue := true, auto := 1 } },
  { w0 with glb := { w0.glb with state := .stop, autoDue := true, auto := 2 } },
  { w0 with cyc := { w0.cyc with mcc := 7, lenNs := 1000000, timerTtc := 900000 }, pim := { w0.pim with settledMcc := some 6 } },
  { w0 with cyc := { w0.cyc with mcc := 8, lenNs := 1000000, timerTtc := 900000 }, pim := { w0.pim with settledMcc := some 6 } },
  { w0 with cyc := { w0.cyc with queues := setNth (List.replicate 64 []) 1 [L1, L1], evtLaunch := setNth (List.replicate 16 none) 3 (some L1) } },
  { w0 with cyc := { w0.cyc with soLaunch := some (true, true) }, safe := { w0.safe with so := [{}, {faultHigh := true}] } },
  { w0 with cyc := { w0.cyc with soLaunch := some (true, true) }, safe := { w0.safe with cause := 3, so := [{}, {faultHigh := true}] } },
  { w0 with ci := { w0.ci with act := { w0.ci.act with tsn := [{ port := 0, entries := [(1, 5), (2, 7), (3,8)] }, { port := 1, entries := [(1, 5)] }] } }, cyc := { w0.cyc with timerTtc := 900000 } },
  wTb, { wTb with tb := { wTb.tb with b := { wTb.tb.b with best := some {id := 4} } } },
  { wTb with tb := { wTb.tb with stepDue := some ⟨5, 0, 0⟩, confirmed := some (-70) }, cyc := { wTb.cyc with timerTtc := 900 } },
  { wTb with tb := { wTb.tb with stepDue := some ⟨5, 2, 0⟩, offset := 12345, stepRefused := true } },
  { wTb with tb := { wTb.tb with a := { asGm := true } } },
  { wTb with tb := { wTb.tb with ptpCfg := 0x22 } } ]
def mods : List (State → State) := [id,
  (fun s => { s with ci := { s.ci with act := { s.ci.act with group := { s.ci.act.group with group := true } } }, grp := { s.grp with role := .active, formed := true } }),
  (fun s => { s with ci := { s.ci with act := { s.ci.act with time := { s.ci.act.time with syncRef := 1 } } } })]
def samples : List State := mods.flatMap (fun f => base.map f) ++
  [{ wTb with tb := { wTb.tb with valid := true, stepDue := some ⟨5, 2, 0⟩, offset := 12345, confirmed := some 9 } },
   { wTb with tb := { wTb.tb with a := {}, b := { wTb.tb.b with best := some { id := 4 } } } },
   { wTb with tb := { wTb.tb with stepDue := some ⟨5, 0, 0⟩, confirmed := none, acceptPending := true } }]
def l1 : List (State) := samples
def l4 : List (Fin 3) := [0,1,2]
def l5 : List (Nat) := [0,1,3,8]
def l6 : List (Bool) := [false,true]
def l9 : List (Launch) := [L1]
def l10 : List (List Launch) := [[], [L1]]

end Sys2Proof.Tests.K4

/-! ### Samples. Ethernet. -/
namespace Sys2Proof.Tests.K5
open Sys2Proof Sys2Proof.Machine Sys2Proof.Tests 
def img5 : ConfImage := { wImg with iomap := [.port 0 1 0 0x0A00000A 0xFFFF0000 0 3, .port 1 1 0 0x0A00000A 0xFFFF0000 0 3, .outGroup 1 50, .node 1,
  .pdSub 2000 0x103 1 4 0 false false false 0 0, .pdSub 2001 0x103 1 4 0 false true false 0 0, .pdSub 2002 0x103 1 16 0 true false false 0 0] }
def P : EthPort := { up := true, enable := true, speed := 2, txOk := true, hqTx := { enable := true, size := 4, sqTail := 3, base := 0x100000000 } }
def F1 (i : Fin 3) (n : Nat) : TxFrame := { frame := { pcp := n, pay := .host [1] }, pub := some i.val }
def w5 : State := { w0 with rst := { w0.rst with portHeld := 0 }, ci := { w0.ci with act := img5 }, eth := { w0.eth with ports := [P, P, P], subs := [{}, { held := some { ssc := 4, planeB := false, data := [1,2,3,4], due := 7 } }, {}] } }
def pdf (n : Nat) (seq : Nat) (fcs := true) : EthFrame := { src := 7, srcIp := 0x0A000005, dstIp := 0xEF000001, pay := .pd { mtype := .pd, comId := n, seq := BitVec.ofNat 32 seq, len := 4, fcsOk := fcs } [1,2,3,4] {} }
def tdat : List Byte := [0x54,0x50,1,8,0x40,0,0,0,0,0,0,0,1,2,3,4]
def tfr : EthFrame := { src := 7, srcIp := 0x0A000005, dstIp := 0xEF000001, pay := .pd { mtype := .pd, comId := 2002, seq := 9, len := 16 } tdat {} }
def samples : List State := [w5, { w5 with eth := { w5.eth with ports := [P, { P with up := false }, { P with enable := false }] } },
  { w5 with eth := { w5.eth with ports := [{ P with queues := [[], [F1 0 1], [], [F1 0 3, F1 1 3], [], [], [], []] }, { P with queues := [[], [F1 0 1], [], [], [], [], [], []] }, P] } },
  { w5 with eth := { w5.eth with nodes := [{ mac := 7, seqs := [3, 4] }, { mac := 9 }], arp := [(5, 6)], unresolved := [8], reasm := [⟨1, 2, 0, []⟩, ⟨3, 2, 0, []⟩], subs := [{ senders := [⟨0x0A000005, 5, false, 0⟩, ⟨6, 5, true, 0⟩] }, {}, {}] } },
  { w5 with ci := { w5.ci with act := { img5 with tsn := [{ port := 0, entries := [(255, 5), (2, 7), (3,8)] }] , group := { img5.group with group := true } } }, grp := { w5.grp with role := .standby, formed := true } },
  { w5 with glb := { w5.glb with state := .config } }, { w5 with safe := { w5.safe with failSilent := true } }, { w5 with tb := { w5.tb with valid := true, ttc := 500 } }, w0]
def l1 : List (State) := samples
def l2 : List (TxFrame) := [F1 0 1, F1 0 3]
def l3 : List (Fin 3) := [0,1,2]
def l4 : List (Nat) := [0,1,3,1600]
def l5 : List (Bool) := [false,true]
def l6 : List (EthFrame) := [pdf 2000 7, pdf 2000 3, pdf 2000 7 false, pdf 2001 7, pdf 2002 7, { src := 7, rct := some (false, 3), pay := .host [] }, { src := 7, pay := .host [] }, tfr, { tfr with pay := .pd { mtype := .pd, comId := 2002, seq := 9, len := 16 } (0 :: tdat.drop 1) {} }]
def l7 : List (TrdpHdr) := [{ mtype := .pd, comId := 2000, seq := 7, len := 4}, { mtype := .pd, comId := 2000, seq := 3, len := 4}, { mtype := .pd, comId := 2000, seq := 7, len := 4, fcsOk := false}, { mtype := .pd, comId := 2001, seq := 7, len := 4}, { mtype := .pd, comId := 2002, seq := 9, len := 16 }]
def l8 : List (List Byte) := [[1,2,3,4], tdat, 0 :: tdat.drop 1]
def l9 : List (SdtTrailer) := [{}]
def l10 : List (BitVec 2) := [0,1,2,3]
def l11 : List (BitVec 16) := [0,3]
def l12 : List (List (BitVec 16)) := [[3,4],[]]
def l13 : List (Ip4) := [0x0A000005, 6, 1]
def l14 : List (BitVec 128) := [2, 0]
def l15 : List (SenderCnt) := samples.flatMap (fun s => s.eth.subs.flatMap (·.senders))
def l16 : List (MdReasm) := samples.flatMap (·.eth.reasm)
def l17 : List (SubCfg) := [0,1,2].filterMap (subCfg img5)
def l18 : List (HeldCopy) := [{ ssc := 4, planeB := false, data := [1,2,3,4], due := 7 }]

end Sys2Proof.Tests.K5

/-! ### Samples. MVB, CAN, gateway. -/
namespace Sys2Proof.Tests.K6
open Sys2Proof Sys2Proof.Machine Sys2Proof.Tests 
def img6 : ConfImage := { wImg with iomap := [.node 1, .mvbRole 1 5, .mvbPort 3 1 false 0, .mvbPort 4 0 true 0, .mvbMfl 3 1 0x21, .mvbMfl 4 0 0x02, .mvbMfl 9 15 1, .canPort 0 1 500 0, .canPort 1 0 500 0, .canId 0 false 2 false false false 0x10 0 0, .canId 0 true 2 false false false 0x11 0 0], gwmap := [{ sid := 0x103, bus := 1, frame := 0, bitLen := 8 }, { sid := 0x103, bus := 0, frame := 3, bitLen := 8 }] }
def w6 : State := { w0 with rst := { w0.rst with portHeld := 0 }, ci := { w0.ci with act := img6 }, can0 := { enabled := true }, can1 := { enabled := true }, mvb := { bufs := [⟨4, [7,8]⟩], rxBufs := [⟨9, [1]⟩] } }
def pp : CanPend := { frame := { ident := 3 }, src := .record 1 }
def samples : List State := [w6, { w6 with rst := { w6.rst with portHeld := 8 } }, { w6 with mvb := { w6.mvb with due := [(1,3),(0,4)] } }, { w6 with mvb := { w6.mvb with due := [(0,4)], poll := some ⟨1, 3, none⟩, launched := [(4, {})] } },
  { w6 with ci := { w6.ci with act := { img6 with iomap := img6.iomap.filter (fun r => r.kind != 6) } } },
  { w6 with can0 := { w6.can0 with pend := [pp, { pp with src := .raw 5 }, { pp with src := .sync }] , txFailed := 3 }, can1 := { enabled := true, busOff := true, pend := [pp] } },
  { w6 with can0 := { enabled := true, synced := some 5 } }, { w6 with ci := { w6.ci with act := { img6 with time := { img6.time with tbaseUs := 2000 } } } },
  { w6 with can0 := {}, glb := { w6.glb with state := .stop } },
  { w6 with ci := { w6.ci with act := { img6 with group := { img6.group with group := true } } }, grp := { w6.grp with role := .standby, formed := true } }]
def l1 : List (State) := samples
def l2 : List (Nat) := [0,1,3,4]
def l3 : List (List (Nat × Nat)) := [[], [(0,4)]]
def l4 : List (List Byte) := [[7,8],[1,2,3,4]]
def l5 : List (MvbPoll) := [⟨1, 3, none⟩]
def l7 : List (CanFrame) := [{ ident := 0x10, data := [1,2] }, { ident := 0x10, data := [1] }, { ident := 0x12, data := [1] }, { ident := 0x10, data := [1,2], remote := true }]

end Sys2Proof.Tests.K6

/-! ### Samples. Transactions. -/
namespace Sys2Proof.Tests.K7
open Sys2Proof Sys2Proof.Machine Sys2Proof.Tests 
def img7 : ConfImage := { wImg with iomap := [.node 1, .port 0 1 0 0x0A00000A 0xFFFF0000 0 3, .port 1 1 0 0x0A00000A 0xFFFF0000 0 3, .mvbRole 1 5, .mvbPort 3 1 false 0, .mvbPort 1 0 true 0, .mvbPort 0 0 true 0,
  .mdSession 5000 0 64 100, .canPort 0 0 500 0, .canPort 1 0 500 0, .canId 0 false 2 false false false 0x10 0 0, .canId 0 true 2 false false false 0x11 0 0], gwmap := [{ sid := 0x103, bus := 0, frame := 0, bitLen := 8 }] }
def R : Ring := { base := 0x100000000, enable := true, size := 4, sqTail := 3 }
def w7 : State := { w0 with rst := { w0.rst with portHeld := 0 }, ci := { w0.ci with act := img7 }, can0 := { enabled := true }, can1 := { enabled := true }, txe := { w0.txe with rings := [R, { R with base := 0x100001000 }, R] }, eth := { w0.eth with tokens := [⟨3, 0, 0x0A000005, 5000, 9⟩], arp := [(0x0A000005, 7)] } }
def grp7 : State := { w7 with ci := { w7.ci with act := { img7 with group := { img7.group with group := true } } }, grp := { w7.grp with role := .standby, formed := true, brL := { w7.grp.brL with up := true } } }
def T (n : Nat) (u : TUnit) (c : TxClass) (r : TagReq) (p := false) : TagEnt := { tag := BitVec.ofNat 18 n, unit := u, cls := c, req := r, ring := some (1, 5), posted := p, due := some 900 }
def tg : List TagEnt := [T 1 .runtime .dma (.sigWrite 0x103 5), T 2 .runtime .dma (.dma 4 0x100003000 40), T 3 .mvb .bridge (.mvbWrite 3 [1] 255) true, T 4 .can0 .bridge (.canSend 5 [1] false false 255) true,
  { T 5 .peerL .group (.glRead 0 8 0x100003000 255) with again := true }, { T 6 .peerR .group (.glWrite 0 [1,2,3] 255) true with again := true }, T 7 .runtime .dma (.atomic 0x103 .addSat 3 4)]
def tRx : TagEnt := { T 8 .mvb .bridge (.reception { port := .mvb, cls := .bridge, writes := [{ sid := 0x103, val := 7 }] }) with ring := none, due := none, again := true }
/-- A deferred reception that writes no word. -/
def tRx0 : TagEnt := { tRx with req := .reception { port := .mvb, cls := .bridge, writes := [] } }
def w7t : State := { w7 with txe := { w7.txe with tags := tg }, pim := { w7.pim with ring := [{ ver := 4, sigs := [⟨0x103, 5, 3, ⟨7, 0⟩⟩] }] }, arb := { w7.arb with quar := 0 } }
def samples : List State := [w7, w7t, grp7, { grp7 with grp := { grp7.grp with role := .active } }, { w7 with txe := { w7.txe with rings := [R, { R with enable := false }, R] } },
  { w7 with txe := { w7.txe with rings := [R, { R with sqTail := 0 }, R] } }, { w7 with pgv := { w7.pgv with dmaPaused := 1 } },
  { w7t with txe := { w7t.txe with rx := [⟨.mvb, .bridge, [{ sid := 0x103, val := 7 }], none⟩, ⟨.can0, .bridge, [{ sid := 0x103, val := 7 }], none⟩] } },
  { w7t with txe := { w7t.txe with tags := w7t.txe.tags ++ [tRx] } },
  { w7 with gw := { w7.gw with sems := [{ held := true }, {}] }, grp := { w7.grp with brR := { w7.grp.brR with sems := [{ held := true }, {}] } } },
  { w7t with txe := { w7t.txe with tags := [tRx0] } },
  { w7t with txe := { w7t.txe with rx := [⟨.mvb, .bridge, [{ sid := 0x103, val := 7 }], none⟩] }, arb := { w7t.arb with freeze := 0xFFFF } },
  { w7t with txe := { w7t.txe with tags := w7t.txe.tags ++ [tRx] }, arb := { w7t.arb with freeze := 0xFFFF } }]
def l1 : List (State) := samples
def l2 : List (Nat) := [0,1,3,40]
def l4 : List (SubReq) := [{ req := 5, wait := false, posted := false }, { req := 6, wait := true, posted := true }]
def l5 : List (Sid) := [0x103, 0x102]
def l6 : List (SigRec) := wImg.sigs
def l7 : List (Word) := [0x100003000,3,4,5]
def l8 : List (Mcc) := [0,3,4,0x0A000005, 0x11]
def l9 : List (AtomFn) := [.addSat]
def l10 : List (GLink) := [.left,.right]
def l11 : List (Port) := [.mvb,.can0,.ecnA]
def l12 : List (BitVec 18) := [99]
def l13 : List (BitVec 16) := [5]
def l15 : List (Status) := [.remoteError, .timeout, .unitReset, .ok]
def l16 : List (TagEnt) := tg
def l18 : List (RxWait) := samples.flatMap (·.txe.rx) ++ [{ port := .mvb, cls := .bridge, writes := [] }, { port := .mvb, cls := .bridge, writes := [{ sid := 0x103, val := 7 }] }]
def l19 : List (TagEnt) := [tRx, tRx0]
def l20 : List (Published) := samples.flatMap (·.pim.ring)

end Sys2Proof.Tests.K7

/-! ### Samples. Registers, monitors, recorder. -/
namespace Sys2Proof.Tests.K8
open Sys2Proof Sys2Proof.Machine Sys2Proof.Tests 
def R : Ring := { base := 0x100000000, enable := true, size := 4, sqTail := 3 }
def rc (n : Nat) (sv : Sev := .notice) : Rec := { seq := BitVec.ofNat 32 n, optime := 0, sev := sv, src := 5, pwr := 0, ttc := 0, code := 7, gen := 0, mcc := 0, subject := 0, detail := [], sinceLast := 0, suppressed := 0 }
def g0 : State := { w0 with rst := { w0.rst with portHeld := 0, clusterHeld := false }, txe := { w0.txe with rings := [R, { R with base := 0x100001000 }, R] }, tk := { w0.tk with sessions := [{ handle := 3, role := .safetyEngineer, tokenId := 1, keyId := 0, notAfter := 0 }] } }
def g1 : State := { g0 with glb := { g0.glb with taskRel := 5, ovrLatch := 0xFF, inst := [⟨3, 5, 6, false, 0, false, false, [], []⟩, ⟨3, 4, 6, false, 0, false, false, [], []⟩], evts := modNth g0.glb.evts 1 (fun e => { e with drops := 3, highWater := 9, active := true, queue := [⟨1, 0, 2, 5, false⟩] }) } }
def g2 : State := { g1 with fab := (modTile g1 0 (fun t => { t with maxCyc := 77 })).fab, pim := { g1.pim with hwm := 9, ring := [{ ver := 4, sigs := [⟨0x103, 5, 3, ⟨7, 0⟩⟩] }], snaps := [{ ver := 4 }, { ver := 3 }, { ver := 5, ecc := true }, { expired := true }, {}, {}, {}, {}] } }
def g3 : State := { g2 with arb := { g2.arb with waits := setNth g2.arb.waits 3 (5, 6), violBanks := 0xFFFF }, safe := { g2.safe with lastUs := 4, maxUs := 9 }, pgv := { g2.pgv with peak := 8, input := 300 }, latches := [(0, 4, 5), (0, 0xF4000004, 7)] }
def g4 : State := { g3 with grp := { g3.grp with brL := { g3.grp.brL with bells := [4, 5] } }, evr := { g3.evr with ring := [rc 4 .error, rc 3, rc 2], pending := [2, 3, 4], nextSeq := 5, ctx := setNth g3.evr.ctx 1 { req := 3, busy := true }, store := [⟨0, rc 1 .safety, false, false⟩, ⟨1, { rc 1 with src := srcEvr, code := cRecorder 1 }, false, true⟩] } }
def P : PmuInst := { en := 0xFF, evsel := [1, 0x1100, 0x2101, 1, 1, 1, 1, 1], cnt := [1,2,3,4,5,6,7,8] }
def g5 : State := { g4 with pmu := { g4.pmu with inst := List.replicate 13 P, size := 4, base := 0x100010000, sel := 7 } }
def dt : TagEnt := { tag := 9, unit := .runtime, cls := .dma, req := .dump }
def samples : List State := [g0, { g5 with rst := { g5.rst with clusterHeld := true } }, g5, { g5 with evr := { g5.evr with flushing := true } }, { g5 with evr := { g5.evr with flushing := true, dropChanged := true } }, { g5 with pmu := { g5.pmu with arm := true, active := some ⟨0x100010000, [1,2,3]⟩ }, txe := { g5.txe with tags := [dt, { dt with tag := 10, req := .mdSend 0 4 }] } }, { g0 with clk := { g0.clk with acMask := true } }, w0]
def l1 : List (State) := samples
def l2 : List (Nat) := [0,1,3,4,5,7,8]
def l4 : List (Fin 8) := [0,1,2,3]
def l5 : List (Fin 13) := [0,1,8,10,12]
def l6 : List (Fin 16) := [0,1,3]
def l7 : List (Fin 32) := [0,3]
def l9 : List (BitVec 16) := [5,9]
def l11 : List (Word) := [0,0xE0000010,0xE0900000,0xF0900000,0xF0000000,0x100000000,0x600000000,0xF0000001,0xF4000008]
def l12 : List (BitVec 32) := [0xF000020C,0xF0200000,0xF030001C,0xF13F0010,0xF2000000,0xF2100004,0xF4000020,0xF100001C,0xFFFFFFFF,0xF520004,0,3,0x80000005,0xF0400008,0xF4000004,0xF0300014,0xF5200008,0xF520004,0xF0300000,0xF2000004,0xF0900000,0x101,0x102,0x3FF,0x801,0xF0000001]
def l14 : List (TaskRec) := wImg.tasks
def l15 : List (Instance) := samples.flatMap (·.glb.inst)
def l17 : List (DumpRec) := [⟨0x100010000, [1,2,3]⟩]
def l18 : List (TagEnt) := [dt]
def l22 : List (Nat × Nat × Reg32) := [(0, 4, 5), (1, 0xF4000004, 7), (0, 0xF4000004, 7)]
def l21 : List (CallReq) := [{ slot := 0, session := 3 }, { slot := 7, session := 4 }, { slot := 9, session := 3 }]

end Sys2Proof.Tests.K8

/-! ### Samples. Mode calls. -/
namespace Sys2Proof.Tests.K9
open Sys2Proof Sys2Proof.Machine Sys2Proof.Tests 
def img9 : ConfImage := { wImg with sigs := wImg.sigs.map (fun r => { r with forceAllowed := true }) ++ (wImg.sigs.take 1).map (fun r => { r with sid := 0x700, safe := true, forceAllowed := true }) }
def sess (r : Role) (h : Nat) : Session := { handle := BitVec.ofNat 16 h, role := r, tokenId := 1, keyId := 7, notAfter := 5000 }
def h0 : State := { w0 with ci := { w0.ci with act := img9 }, rst := { w0.rst with portHeld := 0, clusterHeld := false }, tk := { w0.tk with slots := [{ addr := 0x100002000 }, { addr := 0x100003000, busy := true }] ++ List.replicate 6 {}, sessions := [sess .safetyEngineer 3, sess .maintainer 4, sess .engineer 5, sess .viewer 6] }, cyc := { w0.cyc with running := true, started := true, timerTtc := w0.tb.ttc + 400000 }, pin := { w0.pin with powerGood := true, vstbyLow := false } }
def st (s : State) (m : MState) : State := { s with glb := { s.glb with state := m, pendCmd := none } }
def h1 : State := { st h0 .run with glb := { (st h0 .run).glb with forces := [⟨0x103, 5, 0, false⟩, ⟨0x700, 6, 0, false⟩] } }
def pend (s : State) (m : ModeCmd) : State := { s with glb := { s.glb with pendCmd := some m } }
def grp9 (r : GRole) (f : Bool) (s : State) : State := { s with ci := { s.ci with act := { s.ci.act with group := { s.ci.act.group with group := true } } }, grp := { s.grp with role := r, formed := f, brL := { s.grp.brL with up := true } } }
def hs := st h0 .stop
def hh := st h1 .hold
def samples : List State := [hs, h1, hh, pend hs .startWarm, pend h1 .stop, pend hh (.step 3), { hs with pin := { hs.pin with vstbyLow := true } }, { hh with glb := { hh.glb with holdDrained := true } }, { hh with glb := { hh.glb with stepping := true } },
  grp9 .standby true hs, grp9 .active true hs, grp9 .none false hs, { h1 with glb := { h1.glb with forceCmds := [⟨0x103, none, 5⟩] } }, st h0 .safeHalt]
def l1 : List (State) := samples
def l2 : List (Nat) := [0,1,1025]
def l3 : List (Bool) := [false,true]
def l4 : List (Sid) := [0x103, 0x700, 0x800]
def l6 : List (Word) := [0,3]
def l8 : List (BitVec 4) := [0,3,9]
def l11 : List (CallReq) := [{ slot := 0, session := 3, respMax := 40, seq := 5 }, { slot := 0, session := 4 }, { slot := 3, session := 5 , respMax := 30}, { slot := 0, session := 6, respMax := 30 }, { slot := 1, session := 3 }]

end Sys2Proof.Tests.K9

/-! ### Samples. Other calls. -/
namespace Sys2Proof.Tests.K10
open Sys2Proof Sys2Proof.Machine Sys2Proof.Tests Sys2Proof.Tests.K9
def kr : KeyRec := { id := 7, cls := 3 }
def ks : KeyStore := { seq := 5, keys := [kr], root := 1, sig := { keyClass := 5, keyId := 7 } }
def ses (r : Role) (h : Nat) (k : Nat := 9) : Session := { handle := BitVec.ofNat 16 h, role := r, tokenId := 1, keyId := BitVec.ofNat 128 k, notAfter := 5000000 }
def free (s : State) : State := { s with tk := { s.tk with running := true, storeA := some ks, storeInB := false, slots := [{ addr := 0x100002000 }] ++ List.replicate 7 {}, sessions := [ses .safetyEngineer 3, ses .maintainer 4, ses .engineer 5, ses .viewer 6] }, rst := { s.rst with clusterHeld := false } }
def a0 := free h1
def a1 := free hs
def dbg (s : State) : State := { s with fab := (modTile s 0 (fun t => { t with dbgEn := true, mem := t.mem.write 0x20005 7 })).fab, tk := { s.tk with maintBy := some 3 } }
def samples10 : List State := [a0, a1, dbg a0, { a0 with tb := { a0.tb with stepRefused := true, valid := true, ttc := 50 } }, { a1 with tb := { a1.tb with stepRefused := true, valid := true, ttc := 50 } }, { a0 with safe := { a0.safe with absentRun := 3 } },
  { a0 with pgv := { a0.pgv with portPowered := 0xFF } }, { a0 with pgv := { a0.pgv with portPowered := 0, limit := 160 } },
  let g := grp9 .active true a0; { g with grp := { g.grp with state := .nominal } }, let g := grp9 .active true a0; { g with grp := { g.grp with state := .single } },
  let g := grp9 .active true a0; { g with grp := { g.grp with state := .maintenance } }, { a0 with tk := { a0.tk with lockEnd := some 600 } }, { a1 with ci := { a1.ci with activeValid := true }, cul := { a1.cul with cur := { a1.cul.cur with keystoreFloor := 9 } } }]
def ipt (a b : Nat) (f : Bool := true) (sb := true) : Token := { formOk := f, role := .engineer, notBefore := BitVec.ofNat 64 a, notAfter := BitVec.ofNat 64 b, tokenId := 4, sig := { keyClass := 3, keyId := 7, mldsaOk := sb } }
def l1 : List (State) := samples10 ++ [dbg a0]
def l2 : List (Nat) := [0,3,0x20004]
def l3 : List (TileNo) := [0,1]
def l4 : List (Token) := [ipt 0 1000, ipt 60 1000, ipt 10 10, ipt 0 1000 false, ipt 0 1000 true false, ipt 0 40000000000000]
def l5 : List (KeyStore) := [ks, {ks with seq := 12, root := 2}]
def l6 : List (BitVec 16) := [3,9]
def l7 : List (CallReq) := [{ slot := 0, session := 3, respMax := 40, seq := 5 }, { slot := 0, session := 4 }, { slot := 3, session := 5 , respMax := 30}, { slot := 0, session := 6, respMax := 30 }, { slot := 1, session := 0 }]

end Sys2Proof.Tests.K10

/-! ### Samples. Register calls. -/
namespace Sys2Proof.Tests.K11
open Sys2Proof Sys2Proof.Machine Sys2Proof.Tests Sys2Proof.Tests.K9
def ses (r : Role) (h : Nat) (k : Nat := 9) : Session := { handle := BitVec.ofNat 16 h, role := r, tokenId := 1, keyId := BitVec.ofNat 128 k, notAfter := 5000000 }
def free (s : State) : State := { s with tk := { s.tk with running := true, slots := [{ addr := 0x100002000 }, { busy := true }] ++ List.replicate 6 {}, sessions := [ses .safetyEngineer 3, ses .maintainer 4, ses .engineer 5, ses .viewer 6] }, rst := { s.rst with clusterHeld := false, portHeld := 0 }, pin := { s.pin with powerGood := true, cutOff := false } }
def a0 := free h1
def a1 := free hs
def samples11 : List State := [a0, a1, { a1 with txe := { a1.txe with quotaNext := some [1,2,3,4,5,6] } }, { a1 with ci := { a1.ci with activeValid := true } }, { a0 with rst := { a0.rst with clusterHeld := true } }]
def l1 : List (State) := samples11
def l5 : List (BitVec 4) := [3,9]
def l7 : List (Fin 3) := [0,1,2]
def l8 : List (BitVec 11) := [5,1000]
def l9 : List (BitVec 9) := [5,200,300,500]
def l10 : List (BitVec 32) := [0,0xF0000000,0xFFFFFF85]
def l13 : List (CallReq) := [{ slot := 0, session := 3, respMax := 40, seq := 5 }, { slot := 0, session := 4 }, { slot := 3, session := 5 , respMax := 30}, { slot := 0, session := 9, respMax := 30 }, { slot := 1, session := 3 }]

end Sys2Proof.Tests.K11

/-! ### Samples. Field update. -/
namespace Sys2Proof.Tests.K12
open Sys2Proof Sys2Proof.Machine Sys2Proof.Tests Sys2Proof.Tests.K9
def ses (r : Role) (h : Nat) (k : Nat := 9) : Session := { handle := BitVec.ofNat 16 h, role := r, tokenId := 1, keyId := BitVec.ofNat 128 k, notAfter := 5000000 }
def mf : Manifest := { typeCode := 2, version := 3, targetLen := 100, targetHash := 12, pkgLen := 65540, blockCount := 2, pkgHash := 7, sig := { keyClass := 4, keyId := 4 } }
def mfc : Manifest := { mf with typeCode := 5, sig := { keyClass := 1, keyId := 1 } }
def sg (b k : Nat) (good := true) : SegEnt := ⟨b, k, if good then crc32c [BitVec.ofNat 8 0, 1, 2, 3] else 5, [BitVec.ofNat 8 k]⟩
def b0 : State := { wConf with rst := { wConf.rst with clusterHeld := false }, tk := { wConf.tk with slots := [{ addr := 0x100002000 }] ++ List.replicate 7 {}, sessions := [ses .safetyEngineer 3, ses .maintainer 4, ses .engineer 5, ses .viewer 6] }, ci := { wConf.ci with act := wImg }, glb := { wConf.glb with state := .stop }, cul := { wConf.cul with optime := 9000 } }
def us (i : Nat) (x : Option UpdSession) (st : SlotSt) (m : Option Manifest) (s : State) : State := { s with upd := { s.upd with sessions := setNth s.upd.sessions i x, slots := modNth s.upd.slots i (fun (a, b) => (a, { b with st := st, manifest := m, img := { b.img with version := 3, ci := wEmptyImg, sig := (m.map (·.sig)).getD {} } })) } }
def blk (i : Nat) (l : List (Nat × List Byte)) (s : State) : State := { s with upd := { s.upd with slots := modNth s.upd.slots i (fun (a, b) => (a, { b with blocks := l })) } }
def x0 : UpdSession := { manifest := mf, owner := .ecn 5, lastUse := 9000 }
def trial (i : Nat) (l : Nat) (s : State) : State := { s with cul := { s.cul with boot := modNth s.cul.boot i (fun e => { e with state := 1, version := 2, lehrLeft := BitVec.ofNat 32 l }), cur := { s.cul.cur with bootPending := 0x1F } } }
def samples12 : List State := [b0, { b0 with tk := { b0.tk with running := false } }, { b0 with ci := { b0.ci with swap := .proposed } }, { b0 with cul := { b0.cul with optime := 100 } }, { b0 with upd := { b0.upd with slots := modNth b0.upd.slots 1 (fun (a, b) => ({ a with manifest := some mf }, b)) } }, us 1 (some x0) .partly (some mf) b0, us 1 (some { x0 with got := [0], segs := [sg 1 0, sg 1 1, sg 1 2] }) .partly (some mf) b0,
  blk 1 [(0, [1,2,3])] (us 1 (some { x0 with owner := .runtime, segs := [sg 1 0, sg 1 1, sg 1 2 false], lastUse := 5 }) .partly (some mf) b0), us 1 (some { x0 with lastUse := 5, resumed := true }) .partly (some mf) b0,
  us 1 (some x0) .verifying (some mf) b0, us 1 none .verified (some mf) b0, us 4 none .verified (some mfc) b0, trial 1 0 b0, trial 4 5 b0, trial 1 5 { b0 with rst := { b0.rst with runtimeReady := true }, upd := { b0.upd with bootTick := 8900, lehrTick := 8999 } },
  { b0 with cul := { b0.cul with boot := b0.cul.boot.map (fun e => { e with floor := 9 }) } },
  { us 4 none .verified (some mfc) b0 with ci := { b0.ci with shadow := .loading, shd := wEmptyImg }, upd := { (us 4 none .verified (some mfc) b0).upd with act := some { ty := .ci, tokenId := 4 } } },
  { us 4 none .verified (some mfc) b0 with ci := { b0.ci with shadow := .loading, shd := { wEmptyImg with dir := [] } }, upd := { (us 4 none .verified (some mfc) b0).upd with act := some { ty := .ci, tokenId := 4 } } },
  us 1 none .invalid (some { mf with sig := { keyClass := 4, keyId := 77 } }) b0]
def tk (r : Role) (ser : Word := 5) : Token := { formOk := true, role := r, serial := ser, notBefore := 0, notAfter := 1000, tokenId := 4, sig := { keyClass := 3, keyId := 3 } }
def l1 : List (State) := samples12
def l3 : List (ImgType) := [.ur, .ci]
def l4 : List (ChainSrc) := [.ecn 5, .maint 4]
def l5 : List (ChainHdr) := [{ typeCode := 2, version := 3, target := 12 }, { typeCode := 5, version := 3, target := 12 }, { formOk := false }]
def l6 : List (Manifest) := [mf, mfc, { mf with formOk := false }]
def l9 : List (SegEnt) := [sg 1 3, sg 0 0]
def l10 : List (Verified) := [{ pkgHash := 7, img := { version := 3, hash := 12, calcHash := 12, sig := { keyClass := 4, keyId := 4 } } }, {}]
def l11 : List (List Token) := [[tk .safetyEngineer], [tk .maintainer 6, tk .maintainer], [tk .viewer 9], []]
def l12 : List (CallReq) := [{ slot := 0, session := 3, respMax := 40, seq := 5 }, { slot := 0, session := 4 }]
def l13 : List (UpdSession) := samples12.filterMap (fun s => updSession s .ur)
def l14 : List (Role) := [.none,.viewer,.maintainer,.engineer,.safetyEngineer]
def l15 : List (Activation) := samples12.filterMap (·.upd.act) ++ [{ ty := .ci, tokenId := 4, src := some (.ecn 5), hdr := { typeCode := 5, version := 3, target := 12 } }]
def l16 : List (Word) := [0,4]

end Sys2Proof.Tests.K12

/-! ### Samples. Safety island. -/
namespace Sys2Proof.Tests.K13
open Sys2Proof Sys2Proof.Machine Sys2Proof.Tests Sys2Proof.Tests.K9
def im : ConfImage := { wImg with sigs := wImg.sigs ++ [{ sid := 0x201, ty := 3, pimOffset := 0x400060, writer := 2 }, { sid := 0x202, ty := 0, pimOffset := 0x400080, writer := 0x44 }] }
def f0 : State := { w0 with ci := { w0.ci with act := im }, cyc := { w0.cyc with timerTtc := 1000000 }, glb := { w0.glb with inst := [⟨2, 5, 6, false, 0, false, false, [], []⟩] }, safe := { w0.safe with running := true }, tb := { w0.tb with ttc := 0 } }
def so (a b : SafeOut) : State := { f0 with safe := { f0.safe with so := [a, b] } }
def si (a b : SafePair) (m : Bool := false) : State := { f0 with safe := { f0.safe with si := [a, b] }, ci := { f0.ci with act := { im with safety := { im.safety with siMode := if m then 3 else 0 } } } }
def samples13 : List State := [f0, so { cmd := true } {}, so { cmd := true } { cmd := true, switch2 := true }, so { faultHigh := true, highRel := 5 } {}, { so { cmd := true } {} with safe := { (so { cmd := true } {}).safe with soMoved := true } },
  si { ch1 := true } {}, si { ch1 := true, ch2 := true, value := true } { fault := true, ch2 := true } , si { ch2 := true, fault := true, disc := true } {} true, si { ch1 := true, value := true } { ch1 := true, ch2 := true, fault := true } true, si {fault := true, stuck := true} {},
  { f0 with safe := { f0.safe with failSilent := true } }, { f0 with safe := { f0.safe with cause := 3 } }, { f0 with glb := { f0.glb with inst := [] } }, { f0 with pin := { f0.pin with powerGood := false } }]
def l1 : List (State) := samples13
def l2 : List (Nat) := [0,1,20]
def l3 : List (Fin 32) := [2,0]
def l5 : List (Fin 2) := [0,1]
def l6 : List (Sid) := [0x201,0x202,0x900]
def l11 : List (Instance) := f0.glb.inst
def l12 : List (TaskRec) := wImg.tasks
def l13 : List (SafePair) := samples13.flatMap (·.safe.si)
def l14 : List (SigRec) := im.sigs
def l15 : List (List CodedVar) := [[], [{ word := 5 }]]

end Sys2Proof.Tests.K13

/-! ### Samples. The replica group. -/
namespace Sys2Proof.Tests.K14
open Sys2Proof Sys2Proof.Machine Sys2Proof.Tests Sys2Proof.Tests.K9
def gi : ConfImage := { wImg with group := { wImg.group with group := true, groupId := 7, rackId := 4, rotateMin := 30 }, hdr := { wImg.hdr with imageHash := 5 }, sigs := wImg.sigs ++ [{ sid := 0x201, ty := 3, pimOffset := 0x400060, writer := 0x44, mirrored := true }, { sid := 0x202, ty := 3, pimOffset := 0x400080, writer := 1, voted := true, substValue := 9 }], iomap := wImg.iomap ++ [.mvbPort 3 1 true 0x101] }
def lk : Bridge := { up := true, txSeq := [1,2,3,4], farFreed := [0,1,2,3], freed := [7,7,7,7] }
def hbp (pos : Nat) (r : GRole) (m : Mcc := 5) : HbPay := { position := pos, role := r, gstate := .nominal, mstate := .run, mcc := m, bttc := 1000, epoch := 3, rack := 4, hash := 5, serial := 60 + BitVec.ofNat 64 pos, groupId := 7 }
def g14 : State := { w0 with ci := { w0.ci with act := gi, shd := { wEmptyImg with hdr := { wEmptyImg.hdr with imageHash := 9 } }, shadow := .valid, cls := 1 }, pin := { w0.pin with latched := some { gpos := 2, rack := 4, par := false } }, rst := { w0.rst with portHeld := 0, clusterHeld := false }, cyc := { w0.cyc with running := true, started := true, mcc := 5, bttc := 1000, timerTtc := 900000, refPresent := true, lenNs := 1000000 }, tb := { w0.tb with ttc := 100 }, pim := { w0.pim with dyn := gi.sigs.map freshDyn }, grp := { w0.grp with state := .nominal, role := .active, formed := true, roles := [.standby, .active, .arbiter], brL := lk, brR := lk, peerL := { hb := some (hbp 1 .standby), direct := some 5, relayed := some 5, deltaMcc := 5, delta := [.word true false (0x400060/32) (List.replicate 32 1)], frames := 1, deltaEnd := some (1,1), votesMcc := 5, votes := some [⟨0x202, 0, 9⟩] }, peerR := { hb := some (hbp 3 .arbiter), direct := some 5, relayed := some 5, deltaMcc := 5, delta := [.word true false (0x400060/32) (List.replicate 32 1)], frames := 1, deltaEnd := some (1,1), votesMcc := 5, votes := some [⟨0x202, 0, 9⟩] }, ownDelta := [.mask 0], ownVotes := [⟨0x202, 0, 9⟩] } }
def R14 (s : State) (rs : List GRole) (st : GState := .nominal) : State := { s with grp := { s.grp with roles := rs, role := roleAt rs 2, state := st } }
def stb := R14 g14 [.active, .standby, .arbiter]
def arb := R14 g14 [.active, .arbiter, .standby]
def two := R14 g14 [.out, .active, .standby] .degraded2
def one := R14 g14 [.out, .active, .out] .single
def outm := { R14 g14 [.active, .out, .standby] .degraded2 with grp := { (R14 g14 [.active, .out, .standby] .degraded2).grp with xferAsked := false } }
def outA := { outm with grp := { outm.grp with xferAsked := true } }
def outX := { outA with grp := { outA.grp with xferMcc := some 3 } }
def unf : State := { g14 with pin := { g14.pin with latched := some { gpos := 1, rack := 4, par := false } }, grp := { g14.grp with formed := false, role := .none, roles := [.none,.none,.none], state := .forming, peerL := {}, peerR := {} } }
def unf2 : State := { unf with pin := g14.pin, grp := { unf.grp with peerL := { hb := some { hbp 1 .none with gstate := .forming } } } }
def P14 (s : State) (l : GLink) (f : Peer → Peer) : State := { s with grp := s.grp.modPeer l f }
def B14 (s : State) (l : GLink) (f : Bridge → Bridge) : State := { s with grp := s.grp.modBr l f }
def miss (s : State) (l : GLink) (n : Nat) : State := P14 s l (fun p => { p with direct := some 4, relayed := some 4, misses := n })
def swp (s : State) (c : Bool) : State := { s with ci := { s.ci with swap := if c then .committed else .proposed }, grp := { s.grp with swap := some { hash := 9, target := 400, committed := c } } }
def tg (r : TagReq) (retries : Nat := 0) : TagEnt := { tag := 9, unit := .peerL, cls := .group, req := r, retries := retries }
def T14 (t : TagEnt) : State := { g14 with txe := { g14.txe with tags := [t, { t with tag := 10, unit := .peerR }] } }
def sems : List Sema := [{ unit := 0, first := 0, last := 8, held := true }, { revoked := true }] ++ List.replicate 62 ({} : Sema)
def shared (s : State) : State := { s with grp := { s.grp with brL := { s.grp.brL with sharedBase := 0x100000000, sharedEn := true }, brR := { s.grp.brR with sharedBase := 0x100000000, sharedEn := true } } }
def busy14 (s : State) : State := { s with tk := { s.tk with slots := [{ addr := 0x100002000, call := 0x40, busy := true }, { addr := 0x100003000, call := 0x99, busy := true }, { addr := 0x100004000, call := 0x31, busy := true }, { addr := 0x100005000, call := 0x10, busy := true, frame := some 3 }] ++ List.replicate 4 {} } }
def full : State := { g14 with txe := { g14.txe with tags := List.replicate 1024 (tg (.glSem 0 0 0)) } }
def asked (s : State) : State := { s with upd := { s.upd with act := some { ty := .ci, tokenId := 4 } } }
def h8 (p : Peer) : Peer := { p with hb := p.hb.map (fun h => { h with hash := 8 }) }
def base14 : List State := [g14, stb, arb, two, one, outm, outA, outX, unf, unf2, w0, B14 g14 .left (fun b => { b with txSeq := [9,40,40,40], farFreed := [0,0,0,0], queues := [[],[{hdr := {}, body := .deltaEnd 0 0}],[],[]] }), { g14 with grp := { g14.grp with formed := true, swapDue := some 30 } },
  miss g14 .left 0, miss g14 .right 1, miss stb .left 1, miss arb .left 1, miss two .right 1, P14 g14 .left (fun p => { p with failSilent := true }),
  B14 g14 .left (fun b => { b with up := false }), B14 g14 .right (fun b => { b with txSeq := [9,40,40,40], farFreed := [0,0,0,0] }), B14 g14 .left (fun b => { b with wrong := true }),
  swp g14 false, swp two false, swp g14 true, swp stb false, { swp g14 false with ci := { (swp g14 false).ci with aborts := 2 } }, { g14 with ci := { g14.ci with shadow := .invalid, lastStatus := 3 } },
  shared g14, B14 (shared g14) .left (fun b => { b with sems := sems }), B14 (shared g14) .right (fun b => { b with bells := List.replicate 16 3 }), full, busy14 stb, busy14 g14,
  { g14 with grp := { g14.grp with check := some { at_ := 4, oldRoles := [.active, .standby, .arbiter], oldSeq := 8, seen := 0x1F } } }, { g14 with grp := { g14.grp with check := some { at_ := 4, oldRoles := [.active, .standby, .arbiter], oldSeq := 8 } } },
  R14 g14 [.active, .standby, .probation] .degraded2, R14 g14 [.active, .standby, .probation] .maintenance, { R14 g14 [.active, .probation, .standby] .degraded2 with grp := { (R14 g14 [.active, .probation, .standby] .degraded2).grp with swapDue := some 7 } },
  { g14 with grp := { g14.grp with rotLeft := 1 } }, { stb with grp := { stb.grp with rotLeft := 1 } }, { stb with tb := { stb.tb with stepDue := some ⟨5, 2, 0⟩ } },
  { g14 with grp := { g14.grp with due := some { at_ := 4, roles := [.active, .standby, .arbiter] } } },
  { stb with grp := { stb.grp with mirror := some { at_ := 3, buf := [(0x201, 7, 0)] } } }, { two with grp := { two.grp with peerR := { two.grp.peerR with votes := some [⟨0x202, 0, 8⟩] } } },
  { two with grp := { two.grp with ownVotes := [], peerR := { two.grp.peerR with votes := none } } }, { g14 with cyc := { g14.cyc with timerTtc := 15000 } },
  T14 (tg (.glRead 0 3 0x100000000 0)), T14 (tg (.glWrite 0 [1,2,3] 0)), T14 (tg (.glSem 0 0 0)), T14 (tg (.glSem 0 0 0) 16), T14 { tg (.glWrite 0 [1,2] 0) with ring := some (1, 3) },
  P14 g14 .left (fun p => { p with deltaMcc := 4, votesMcc := 4 }), P14 (P14 g14 .left (fun p => { p with delta := [], frames := 0, deltaEnd := some (0,0) })) .right (fun p => { p with delta := [], frames := 0, deltaEnd := some (0,0) }),
  asked g14, asked one, { g14 with tb := { g14.tb with ttc := 0 - 90000 } }, P14 (P14 g14 .left h8) .right h8, { unf with grp := { unf.grp with firstOp := some 0 }, cul := { unf.cul with optime := 200 } },
  { unf with grp := { unf.grp with firstOp := some 150 }, cul := { unf.cul with optime := 200 } }, { g14 with grp := { g14.grp with probLeft := 5 } },
  { g14 with grp := { g14.grp with check := some { at_ := 0xFFFFFFF0, oldRoles := [.active, .standby, .arbiter], oldSeq := 8, seen := 0x1F } } },
  { g14 with grp := { g14.grp with check := some { at_ := 0xFFFFFFF0, oldRoles := [.active, .standby, .arbiter], oldSeq := 8 } } },
  asked { swp g14 false with ci := { (swp g14 false).ci with aborts := 2 } }, { g14 with grp := { g14.grp with hopIds := [⟨5, 77⟩], observedHb := 9 } },
  { g14 with ci := { g14.ci with shadow := .loading, offered := some { wEmptyImg with hdr := { wEmptyImg.hdr with imageHash := 9 } } } },
  { g14 with ci := { g14.ci with shadow := .empty, shd := {} } }, { g14 with cyc := { g14.cyc with started := false } }]
def samples14 : List State := base14
def l1 : List (State) := samples14
def l2 : List (GLink) := [.left, .right]
def l3 : List (GlHdr) := [{ src := 1, dst := 2, epoch := 3, vseq := 6, tag := 9, mcc := 5, cred := [1,1,2,3] }, { src := 3, dst := 0, tag := 0, vseq := 6, mcc := 5, cred := [1,1,2,3] }, { src := 1, dst := 3, mcc := 4 }, { crcOk := false, src := 1, dst := 2 }, { listed := false, src := 1, dst := 2, vseq := 6 }]
def l4 : List (Nat) := [0,1,2,3]
def l6 : List (Hash) := [9]
def l9 : List (Status) := [.ok, .refusedPolicy]
def l10 : List (HbPay) := [hbp 1 .standby, hbp 1 .active, hbp 3 .standby, hbp 3 .active, hbp 2 .arbiter, { hbp 2 .none with gstate := .forming }, { hbp 3 .none with gstate := .forming }, hbp 1 .arbiter, hbp 3 .arbiter]
def l11 : List (OrderMsg) := [{ issuer := 1, target := 8, active := 2, standby := 3, subject := 1, arg := 0 }, { issuer := 1, target := 8, active := 1, standby := 3, subject := 2, arg := 9 }, { issuer := 3, target := 8, subject := 2, arg := 0xFFFFFFFF }]
def l13 : List (ModeCmd) := [.startWarm, .stop, .hold]
def l14 : List (BitVec 32) := [0,3,5,400]
def l21 : List (Word) := [0,3,0x100000000]
def l25 : List (List Byte) := [[], [1,2,3], [1,2,3,4,5,6,7,8]]
def l31 : List (Sid) := [0x201,0x202]

end Sys2Proof.Tests.K14

namespace Sys2Proof.Tests
open Sys2Proof Sys2Proof.Machine

/-! ### Premises of the statements that states and operands meet -/

theorem test_premises_EmptyQueueTicks :
    (let s := K.l1[0]'(by decide); s.pending = []) := by decide +kernel

theorem test_premises_ShapeKept :
    (let s := K.l1[0]'(by decide); Shape s ∧ (match step s with | .next _ => true | _ => false) = true) := by unfold Shape FabOk; decide +kernel

theorem test_premises_SafeOutputsKept :
    (let s := K.l1[0]'(by decide); SoOk s.safe ∧ (match step s with | .next _ => true | _ => false) = true) := by unfold SoOk; decide +kernel

theorem test_premises_BoundsKept :
    (let s := K.l1[0]'(by decide); Bounded s ∧ (match step s with | .next _ => true | _ => false) = true) := by unfold Bounded; decide +kernel

theorem test_premises_ResetValues :
    (∃ o ∈ State.reset.safe.so, True) := by decide +kernel

theorem test_premises_TileWordRoundTrip :
    (let op := K1.l10[0]'(by decide); let f := K1.l26[0]'(by decide); fieldsOk op.toNat f = true) ∧
    (let w := K1.l27[0]'(by decide); let hi := K1.l27[0]'(by decide); (decodeTile w hi).isSome = true) ∧
    (let w := K1.l27[2]'(by decide); let hi := K1.l27[1]'(by decide); let i := K1.l28[0]'(by decide); decodeTile w hi = some i ∧ (encodeTile i.op i.f).2 = some hi) := ⟨by decide +kernel, by decide +kernel, by decide +kernel⟩

theorem test_premises_TileArithmetic_1 :
    (let n := K1.l2[0]'(by decide); let f := K1.l11[12]'(by decide); let s := K1.l1[0]'(by decide); FabOk s.fab ∧ fieldsOk 3 (TFields.rr f) = true ∧ (s.fab.tile n).ready Slot.s0 = true) ∧
    (let n := K1.l2[0]'(by decide); let f := K1.l11[12]'(by decide); let s := K1.l1[2]'(by decide); ((s.fab.tile n).open0).isSome = true ∧ FabOk s.fab ∧ fieldsOk 3 (TFields.rr f) = true ∧ (s.fab.tile n).ready Slot.s1 = true) ∧
    (let n := K1.l2[0]'(by decide); let f := K1.l11[12]'(by decide); let s := K1.l1[0]'(by decide); FabOk s.fab ∧ fieldsOk 5 (TFields.rr f) = true ∧ (s.fab.tile n).ready Slot.s0 = true) ∧
    (let n := K1.l2[0]'(by decide); let f := K1.l11[12]'(by decide); let s := K1.l1[2]'(by decide); ((s.fab.tile n).open0).isSome = true ∧ FabOk s.fab ∧ fieldsOk 5 (TFields.rr f) = true ∧ (s.fab.tile n).ready Slot.s1 = true) ∧
    (let n := K1.l2[0]'(by decide); let f := K1.l11[12]'(by decide); let s := K1.l1[0]'(by decide); FabOk s.fab ∧ fieldsOk 11 (TFields.rr f) = true ∧ (s.fab.tile n).ready Slot.s0 = true) ∧
    (let n := K1.l2[0]'(by decide); let f := K1.l11[12]'(by decide); let s := K1.l1[2]'(by decide); ((s.fab.tile n).open0).isSome = true ∧ FabOk s.fab ∧ fieldsOk 11 (TFields.rr f) = true ∧ (s.fab.tile n).ready Slot.s1 = true) ∧
    (let n := K1.l2[0]'(by decide); let f := K1.l11[12]'(by decide); let s := K1.l1[0]'(by decide); FabOk s.fab ∧ fieldsOk 12 (TFields.rr f) = true ∧ (s.fab.tile n).ready Slot.s0 = true) ∧
    (let n := K1.l2[0]'(by decide); let f := K1.l11[12]'(by decide); let s := K1.l1[2]'(by decide); ((s.fab.tile n).open0).isSome = true ∧ FabOk s.fab ∧ fieldsOk 12 (TFields.rr f) = true ∧ (s.fab.tile n).ready Slot.s1 = true) := ⟨by unfold FabOk; decide +kernel, by unfold FabOk; decide +kernel, by unfold FabOk; decide +kernel, by unfold FabOk; decide +kernel, by unfold FabOk; decide +kernel, by unfold FabOk; decide +kernel, by unfold FabOk; decide +kernel, by unfold FabOk; decide +kernel⟩

theorem test_premises_TileArithmetic_2 :
    (let n := K1.l2[0]'(by decide); let f := K1.l11[13]'(by decide); let s := K1.l1[0]'(by decide); FabOk s.fab ∧ fieldsOk 6 (TFields.rr f) = true ∧ (s.fab.tile n).ready Slot.s0 = true) ∧
    (let n := K1.l2[0]'(by decide); let f := K1.l11[13]'(by decide); let s := K1.l1[2]'(by decide); ((s.fab.tile n).open0).isSome = true ∧ FabOk s.fab ∧ fieldsOk 6 (TFields.rr f) = true ∧ (s.fab.tile n).ready Slot.s1 = true) ∧
    (let n := K1.l2[0]'(by decide); let f := K1.l11[13]'(by decide); let s := K1.l1[0]'(by decide); FabOk s.fab ∧ fieldsOk 7 (TFields.rr f) = true ∧ (s.fab.tile n).ready Slot.s0 = true) ∧
    (let n := K1.l2[0]'(by decide); let f := K1.l11[13]'(by decide); let s := K1.l1[2]'(by decide); ((s.fab.tile n).open0).isSome = true ∧ FabOk s.fab ∧ fieldsOk 7 (TFields.rr f) = true ∧ (s.fab.tile n).ready Slot.s1 = true) ∧
    (let n := K1.l2[0]'(by decide); let f := K1.l11[0]'(by decide); let s := K1.l1[0]'(by decide); FabOk s.fab ∧ fieldsOk 8 (TFields.rr f) = true ∧ (s.fab.tile n).ready Slot.s0 = true) ∧
    (let n := K1.l2[0]'(by decide); let f := K1.l11[0]'(by decide); let s := K1.l1[2]'(by decide); ((s.fab.tile n).open0).isSome = true ∧ FabOk s.fab ∧ fieldsOk 8 (TFields.rr f) = true ∧ (s.fab.tile n).ready Slot.s1 = true) ∧
    (let n := K1.l2[0]'(by decide); let f := K1.l11[0]'(by decide); let s := K1.l1[0]'(by decide); FabOk s.fab ∧ fieldsOk 9 (TFields.rr f) = true ∧ (s.fab.tile n).ready Slot.s0 = true) ∧
    (let n := K1.l2[0]'(by decide); let f := K1.l11[0]'(by decide); let s := K1.l1[2]'(by decide); ((s.fab.tile n).open0).isSome = true ∧ FabOk s.fab ∧ fieldsOk 9 (TFields.rr f) = true ∧ (s.fab.tile n).ready Slot.s1 = true) := ⟨by unfold FabOk; decide +kernel, by unfold FabOk; decide +kernel, by unfold FabOk; decide +kernel, by unfold FabOk; decide +kernel, by unfold FabOk; decide +kernel, by unfold FabOk; decide +kernel, by unfold FabOk; decide +kernel, by unfold FabOk; decide +kernel⟩

theorem test_premises_TileArithmetic_3 :
    (let n := K1.l2[0]'(by decide); let f := K1.l11[0]'(by decide); let s := K1.l1[0]'(by decide); FabOk s.fab ∧ fieldsOk 10 (TFields.rr f) = true ∧ (s.fab.tile n).ready Slot.s0 = true) ∧
    (let n := K1.l2[0]'(by decide); let f := K1.l11[0]'(by decide); let s := K1.l1[2]'(by decide); ((s.fab.tile n).open0).isSome = true ∧ FabOk s.fab ∧ fieldsOk 10 (TFields.rr f) = true ∧ (s.fab.tile n).ready Slot.s1 = true) ∧
    (let n := K1.l2[0]'(by decide); let g := K1.l12[0]'(by decide); let s := K1.l1[0]'(by decide); FabOk s.fab ∧ fieldsOk 4 (TFields.ri g) = true ∧ (s.fab.tile n).ready Slot.s0 = true) ∧
    (let n := K1.l2[0]'(by decide); let g := K1.l12[0]'(by decide); let s := K1.l1[2]'(by decide); ((s.fab.tile n).open0).isSome = true ∧ FabOk s.fab ∧ fieldsOk 4 (TFields.ri g) = true ∧ (s.fab.tile n).ready Slot.s1 = true) ∧
    (let n := K1.l2[0]'(by decide); let f := K1.l11[12]'(by decide); let s := K1.l1[0]'(by decide); (s.fab.tile n).ready Slot.s0 = true ∧ fieldsOk 13 (TFields.rr f) = true) ∧
    (let n := K1.l2[0]'(by decide); let f := K1.l11[12]'(by decide); let s := K1.l1[0]'(by decide); (s.fab.tile n).ready Slot.s0 = true ∧ fieldsOk 14 (TFields.rr f) = true) ∧
    (let n := K1.l2[0]'(by decide); let f := K1.l11[73]'(by decide); let s := K1.l1[0]'(by decide); (s.fab.tile n).ready Slot.s0 = true ∧ fieldsOk 15 (TFields.rr f) = true) := ⟨by unfold FabOk; decide +kernel, by unfold FabOk; decide +kernel, by unfold FabOk; decide +kernel, by unfold FabOk; decide +kernel, by decide +kernel, by decide +kernel, by decide +kernel⟩

theorem test_premises_TileLogic_1 :
    (let n := K1.l2[0]'(by decide); let s := K1.l1[0]'(by decide); FabOk s.fab ∧ fieldsOk 0 TFields.z = true ∧ (s.fab.tile n).ready Slot.s0 = true) ∧
    (let n := K1.l2[0]'(by decide); let s := K1.l1[2]'(by decide); ((s.fab.tile n).open0).isSome = true ∧ FabOk s.fab ∧ fieldsOk 0 TFields.z = true ∧ (s.fab.tile n).ready Slot.s1 = true) ∧
    (let n := K1.l2[0]'(by decide); let f := K1.l11[1]'(by decide); let s := K1.l1[0]'(by decide); FabOk s.fab ∧ fieldsOk 1 (TFields.rr f) = true ∧ (s.fab.tile n).ready Slot.s0 = true) ∧
    (let n := K1.l2[0]'(by decide); let f := K1.l11[1]'(by decide); let s := K1.l1[2]'(by decide); ((s.fab.tile n).open0).isSome = true ∧ FabOk s.fab ∧ fieldsOk 1 (TFields.rr f) = true ∧ (s.fab.tile n).ready Slot.s1 = true) ∧
    (let n := K1.l2[0]'(by decide); let f := K1.l11[0]'(by decide); let s := K1.l1[0]'(by decide); FabOk s.fab ∧ fieldsOk 16 (TFields.rr f) = true ∧ (s.fab.tile n).ready Slot.s0 = true) ∧
    (let n := K1.l2[0]'(by decide); let f := K1.l11[0]'(by decide); let s := K1.l1[2]'(by decide); ((s.fab.tile n).open0).isSome = true ∧ FabOk s.fab ∧ fieldsOk 16 (TFields.rr f) = true ∧ (s.fab.tile n).ready Slot.s1 = true) ∧
    (let n := K1.l2[0]'(by decide); let f := K1.l11[0]'(by decide); let s := K1.l1[0]'(by decide); FabOk s.fab ∧ fieldsOk 17 (TFields.rr f) = true ∧ (s.fab.tile n).ready Slot.s0 = true) ∧
    (let n := K1.l2[0]'(by decide); let f := K1.l11[0]'(by decide); let s := K1.l1[2]'(by decide); ((s.fab.tile n).open0).isSome = true ∧ FabOk s.fab ∧ fieldsOk 17 (TFields.rr f) = true ∧ (s.fab.tile n).ready Slot.s1 = true) := ⟨by unfold FabOk; decide +kernel, by unfold FabOk; decide +kernel, by unfold FabOk; decide +kernel, by unfold FabOk; decide +kernel, by unfold FabOk; decide +kernel, by unfold FabOk; decide +kernel, by unfold FabOk; decide +kernel, by unfold FabOk; decide +kernel⟩

theorem test_premises_TileLogic_2 :
    (let n := K1.l2[0]'(by decide); let f := K1.l11[0]'(by decide); let s := K1.l1[0]'(by decide); FabOk s.fab ∧ fieldsOk 18 (TFields.rr f) = true ∧ (s.fab.tile n).ready Slot.s0 = true) ∧
    (let n := K1.l2[0]'(by decide); let f := K1.l11[0]'(by decide); let s := K1.l1[2]'(by decide); ((s.fab.tile n).open0).isSome = true ∧ FabOk s.fab ∧ fieldsOk 18 (TFields.rr f) = true ∧ (s.fab.tile n).ready Slot.s1 = true) ∧
    (let n := K1.l2[0]'(by decide); let f := K1.l11[1]'(by decide); let s := K1.l1[0]'(by decide); FabOk s.fab ∧ fieldsOk 19 (TFields.rr f) = true ∧ (s.fab.tile n).ready Slot.s0 = true) ∧
    (let n := K1.l2[0]'(by decide); let f := K1.l11[1]'(by decide); let s := K1.l1[2]'(by decide); ((s.fab.tile n).open0).isSome = true ∧ FabOk s.fab ∧ fieldsOk 19 (TFields.rr f) = true ∧ (s.fab.tile n).ready Slot.s1 = true) ∧
    (let n := K1.l2[0]'(by decide); let f := K1.l11[0]'(by decide); let s := K1.l1[0]'(by decide); FabOk s.fab ∧ fieldsOk 20 (TFields.rr f) = true ∧ (s.fab.tile n).ready Slot.s0 = true) ∧
    (let n := K1.l2[0]'(by decide); let f := K1.l11[0]'(by decide); let s := K1.l1[2]'(by decide); ((s.fab.tile n).open0).isSome = true ∧ FabOk s.fab ∧ fieldsOk 20 (TFields.rr f) = true ∧ (s.fab.tile n).ready Slot.s1 = true) ∧
    (let n := K1.l2[0]'(by decide); let f := K1.l11[0]'(by decide); let s := K1.l1[0]'(by decide); FabOk s.fab ∧ fieldsOk 21 (TFields.rr f) = true ∧ (s.fab.tile n).ready Slot.s0 = true) ∧
    (let n := K1.l2[0]'(by decide); let f := K1.l11[0]'(by decide); let s := K1.l1[2]'(by decide); ((s.fab.tile n).open0).isSome = true ∧ FabOk s.fab ∧ fieldsOk 21 (TFields.rr f) = true ∧ (s.fab.tile n).ready Slot.s1 = true) := ⟨by unfold FabOk; decide +kernel, by unfold FabOk; decide +kernel, by unfold FabOk; decide +kernel, by unfold FabOk; decide +kernel, by unfold FabOk; decide +kernel, by unfold FabOk; decide +kernel, by unfold FabOk; decide +kernel, by unfold FabOk; decide +kernel⟩

theorem test_premises_TileLogic_3 :
    (let n := K1.l2[0]'(by decide); let f := K1.l11[0]'(by decide); let s := K1.l1[0]'(by decide); FabOk s.fab ∧ fieldsOk 22 (TFields.rr f) = true ∧ (s.fab.tile n).ready Slot.s0 = true) ∧
    (let n := K1.l2[0]'(by decide); let f := K1.l11[0]'(by decide); let s := K1.l1[2]'(by decide); ((s.fab.tile n).open0).isSome = true ∧ FabOk s.fab ∧ fieldsOk 22 (TFields.rr f) = true ∧ (s.fab.tile n).ready Slot.s1 = true) ∧
    (let n := K1.l2[0]'(by decide); let k := K1.l13[0]'(by decide); let s := K1.l1[0]'(by decide); FabOk s.fab ∧ fieldsOk 23 (TFields.ci k) = true ∧ (s.fab.tile n).ready Slot.s0 = true) ∧
    (let n := K1.l2[0]'(by decide); let k := K1.l13[0]'(by decide); let s := K1.l1[2]'(by decide); ((s.fab.tile n).open0).isSome = true ∧ FabOk s.fab ∧ fieldsOk 23 (TFields.ci k) = true ∧ (s.fab.tile n).ready Slot.s1 = true) ∧
    (let n := K1.l2[0]'(by decide); let f := K1.l11[0]'(by decide); let s := K1.l1[0]'(by decide); FabOk s.fab ∧ fieldsOk 24 (TFields.rr f) = true ∧ (s.fab.tile n).ready Slot.s0 = true) ∧
    (let n := K1.l2[0]'(by decide); let f := K1.l11[0]'(by decide); let s := K1.l1[2]'(by decide); ((s.fab.tile n).open0).isSome = true ∧ FabOk s.fab ∧ fieldsOk 24 (TFields.rr f) = true ∧ (s.fab.tile n).ready Slot.s1 = true) ∧
    (let n := K1.l2[0]'(by decide); let f := K1.l11[1]'(by decide); let s := K1.l1[0]'(by decide); FabOk s.fab ∧ fieldsOk 25 (TFields.rr f) = true ∧ (s.fab.tile n).ready Slot.s0 = true) ∧
    (let n := K1.l2[0]'(by decide); let f := K1.l11[1]'(by decide); let s := K1.l1[2]'(by decide); ((s.fab.tile n).open0).isSome = true ∧ FabOk s.fab ∧ fieldsOk 25 (TFields.rr f) = true ∧ (s.fab.tile n).ready Slot.s1 = true) := ⟨by unfold FabOk; decide +kernel, by unfold FabOk; decide +kernel, by unfold FabOk; decide +kernel, by unfold FabOk; decide +kernel, by unfold FabOk; decide +kernel, by unfold FabOk; decide +kernel, by unfold FabOk; decide +kernel, by unfold FabOk; decide +kernel⟩

theorem test_premises_TileLogic_4 :
    (let n := K1.l2[0]'(by decide); let f := K1.l11[0]'(by decide); let s := K1.l1[0]'(by decide); FabOk s.fab ∧ fieldsOk 42 (TFields.rr f) = true ∧ (s.fab.tile n).ready Slot.s0 = true) ∧
    (let n := K1.l2[0]'(by decide); let f := K1.l11[0]'(by decide); let s := K1.l1[2]'(by decide); ((s.fab.tile n).open0).isSome = true ∧ FabOk s.fab ∧ fieldsOk 42 (TFields.rr f) = true ∧ (s.fab.tile n).ready Slot.s1 = true) ∧
    (let n := K1.l2[0]'(by decide); let f := K1.l11[1]'(by decide); let s := K1.l1[0]'(by decide); FabOk s.fab ∧ fieldsOk 43 (TFields.rr f) = true ∧ (s.fab.tile n).ready Slot.s0 = true) ∧
    (let n := K1.l2[0]'(by decide); let f := K1.l11[1]'(by decide); let s := K1.l1[2]'(by decide); ((s.fab.tile n).open0).isSome = true ∧ FabOk s.fab ∧ fieldsOk 43 (TFields.rr f) = true ∧ (s.fab.tile n).ready Slot.s1 = true) ∧
    (let n := K1.l2[0]'(by decide); let g := K1.l12[2]'(by decide); let s := K1.l1[0]'(by decide); FabOk s.fab ∧ fieldsOk 44 (TFields.ri g) = true ∧ (s.fab.tile n).ready Slot.s0 = true) ∧
    (let n := K1.l2[0]'(by decide); let g := K1.l12[2]'(by decide); let s := K1.l1[2]'(by decide); ((s.fab.tile n).open0).isSome = true ∧ FabOk s.fab ∧ fieldsOk 44 (TFields.ri g) = true ∧ (s.fab.tile n).ready Slot.s1 = true) ∧
    (let n := K1.l2[0]'(by decide); let f := K1.l11[2]'(by decide); let s := K1.l1[0]'(by decide); FabOk s.fab ∧ fieldsOk 50 (TFields.rr f) = true ∧ (s.fab.tile n).ready Slot.s0 = true) ∧
    (let n := K1.l2[0]'(by decide); let f := K1.l11[2]'(by decide); let s := K1.l1[2]'(by decide); ((s.fab.tile n).open0).isSome = true ∧ FabOk s.fab ∧ fieldsOk 50 (TFields.rr f) = true ∧ (s.fab.tile n).ready Slot.s1 = true) := ⟨by unfold FabOk; decide +kernel, by unfold FabOk; decide +kernel, by unfold FabOk; decide +kernel, by unfold FabOk; decide +kernel, by unfold FabOk; decide +kernel, by unfold FabOk; decide +kernel, by unfold FabOk; decide +kernel, by unfold FabOk; decide +kernel⟩

theorem test_premises_TileLogic_5 :
    (let n := K1.l2[0]'(by decide); let s := K1.l1[0]'(by decide); FabOk s.fab ∧ (s.fab.tile n).ready Slot.s0 = true) := by unfold FabOk; decide +kernel

theorem test_premises_TileControl :
    (let n := K1.l2[0]'(by decide); let b := K1.l16[3]'(by decide); let s := K1.l1[0]'(by decide); (s.fab.tile n).ready Slot.s0 = true ∧ fieldsOk 29 (TFields.b b) = true) ∧
    (let n := K1.l2[0]'(by decide); let b := K1.l16[2]'(by decide); let s := K1.l1[0]'(by decide); (s.fab.tile n).ready Slot.s0 = true ∧ fieldsOk 30 (TFields.b b) = true) ∧
    (let n := K1.l2[0]'(by decide); let b := K1.l16[0]'(by decide); let s := K1.l1[0]'(by decide); (s.fab.tile n).ready Slot.s0 = true ∧ fieldsOk 31 (TFields.b b) = true) ∧
    (let n := K1.l2[0]'(by decide); let l := K1.l17[0]'(by decide); let s := K1.l1[0]'(by decide); (s.fab.tile n).ready Slot.s0 = true ∧ fieldsOk 28 (TFields.lp l) = true) := ⟨by decide +kernel, by decide +kernel, by decide +kernel, by decide +kernel⟩

theorem test_premises_LoopRules :
    (let c := K1.l3[1]'(by decide); 0 < c) ∧
    (let pc := K1.l3[2]'(by decide); let f := K1.l18[0]'(by decide); f.last = pc ∧ 1 < f.left) ∧
    (let pc := K1.l3[1]'(by decide); let f := K1.l18[2]'(by decide); f.last = pc ∧ f.left ≤ 1) ∧
    (let pc := K1.l3[0]'(by decide); let f := K1.l18[0]'(by decide); f.last ≠ pc) ∧
    (let t := K1.l23[0]'(by decide); let l := K1.l17[1]'(by decide); l.ra ≠ 0 ∧ opnd 3 (t.reg l.ra) ≤ 0) ∧
    (let l := K1.l17[0]'(by decide); l.ra = 0) := ⟨by decide +kernel, by decide +kernel, by decide +kernel, by decide +kernel, by decide +kernel, by decide +kernel⟩

theorem test_premises_IntegerArithmetic_1 :
    (let f := K1.l11[0]'(by decide); let b := K1.l7[1]'(by decide); tyClass f.ty ≠ TyClass.float ∧ tyWidth f.ty ≤ (BitVec.extractLsb' 0 6 b).toNat ∧ f.fn = 0) ∧
    (let f := K1.l11[4]'(by decide); let b := K1.l7[1]'(by decide); tyClass f.ty ≠ TyClass.float ∧ tyWidth f.ty ≤ (BitVec.extractLsb' 0 6 b).toNat ∧ f.fn = 1) ∧
    (let f := K1.l11[12]'(by decide); tyClass f.ty = TyClass.int ∧ f.fn = 0) ∧
    (let f := K1.l11[16]'(by decide); tyClass f.ty = TyClass.int ∧ f.fn = 1) ∧
    (let f := K1.l11[12]'(by decide); let i := K1.l4[0]'(by decide); tyClass f.ty = TyClass.int ∧ ¬(tyMin f.ty ≤ i ∧ i ≤ tyMax f.ty)) ∧
    (let f := K1.l11[12]'(by decide); let i := K1.l4[1]'(by decide); tyClass f.ty = TyClass.int ∧ tyMin f.ty ≤ i ∧ i ≤ tyMax f.ty) ∧
    (let f := K1.l11[12]'(by decide); let i := K1.l4[4]'(by decide); tyClass f.ty = TyClass.int ∧ tyMax f.ty < i) ∧
    (let f := K1.l11[12]'(by decide); let i := K1.l4[0]'(by decide); tyClass f.ty = TyClass.int ∧ i < tyMin f.ty) := ⟨by decide +kernel, by decide +kernel, by decide +kernel, by decide +kernel, by decide +kernel, by decide +kernel, by decide +kernel, by decide +kernel⟩

theorem test_premises_IntegerArithmetic_2 :
    (let f := K1.l11[12]'(by decide); tyClass f.ty = TyClass.int) ∧
    (let f := K1.l11[12]'(by decide); let b := K1.l7[0]'(by decide); tyClass f.ty = TyClass.int ∧ opnd f.ty b = 0) ∧
    (let f := K1.l11[12]'(by decide); let b := K1.l7[1]'(by decide); tyClass f.ty = TyClass.int ∧ opnd f.ty b ≠ 0) := ⟨by decide +kernel, by decide +kernel, by decide +kernel⟩

theorem test_premises_TileLoadStore :
    (let n := K1.l2[0]'(by decide); let f := K1.l15[0]'(by decide); let s := K1.l1[0]'(by decide); FabOk s.fab ∧ (s.fab.tile n).ready Slot.s0 = true ∧ mayAccess (tileImg s n) n ((s.fab.tile n).leaveSlack Slot.s0) (tileProg s n (s.fab.tile n).codeHalf) false (mAddr ((s.fab.tile n).leaveSlack Slot.s0) f) (tySize f.ty) = true) ∧
    (let n := K1.l2[0]'(by decide); let f := K1.l15[1]'(by decide); let s := K1.l1[0]'(by decide); FabOk s.fab ∧ (s.fab.tile n).ready Slot.s0 = true ∧ mayAccess (tileImg s n) n ((s.fab.tile n).leaveSlack Slot.s0) (tileProg s n (s.fab.tile n).codeHalf) true (mAddr ((s.fab.tile n).leaveSlack Slot.s0) f) (tySize f.ty) = true) ∧
    (let n := K1.l2[0]'(by decide); let f := K1.l15[0]'(by decide); let s := K1.l1[1]'(by decide); FabOk s.fab ∧ (s.fab.tile n).ready Slot.s0 = true ∧ mayAccess (tileImg s n) n ((s.fab.tile n).leaveSlack Slot.s0) (tileProg s n (s.fab.tile n).codeHalf) false (mAddr ((s.fab.tile n).leaveSlack Slot.s0) f) (tySize f.ty) = false ∧ s.fab.state ≠ FabState.halted) ∧
    (let n := K1.l2[0]'(by decide); let f := K1.l15[0]'(by decide); let s := K1.l1[0]'(by decide); FabOk s.fab ∧ (s.fab.tile n).ready Slot.s0 = true ∧ mayAccess (tileImg s n) n ((s.fab.tile n).leaveSlack Slot.s0) (tileProg s n (s.fab.tile n).codeHalf) true (mAddr ((s.fab.tile n).leaveSlack Slot.s0) f) (tySize f.ty) = false ∧ s.fab.state ≠ FabState.halted) := ⟨by unfold FabOk; decide +kernel, by unfold FabOk; decide +kernel, by unfold FabOk; decide +kernel, by unfold FabOk; decide +kernel⟩

theorem test_premises_FunctionBlocks :
    (let s := K1.l1[0]'(by decide); let n : TileNo := 0; let f : FBF := ⟨5, 1, 2, 2⟩; let g : FBF := ⟨5, 1, 0, 2⟩; FabOk s.fab ∧ (s.fab.tile n).ready .s0 = true ∧ (s.fab.tile n).runner = .main ∧ mainMay true (instAddr f) 64 = true ∧ (∀ op ∈ [0x20, 0x21, 0x22, 0x25, 0x26, 0x29], fieldsOk op (.fb f) = true) ∧ (∀ op ∈ [0x23, 0x24, 0x27, 0x28], fieldsOk op (.fb g) = true)) := by unfold FabOk; decide +kernel

theorem test_premises_Timers_1 :
    (let t := K1x.l1[0]'(by decide); t.mem.wf = true) ∧
    (let t := K1x.l1[0]'(by decide); let a := K1x.l3[0]'(by decide); let z := K1x.l3[0]'(by decide); t.mem.wf = true ∧ (z < a + 4 ∨ a + 16 ≤ z)) ∧
    (let t := K1x.l1[0]'(by decide); let f := K1x.l2[0]'(by decide); let a := K1x.l3[0]'(by decide); t.mem.wf = true ∧ (if f.rb = 0 then max 0 (fld t.mem a) else max 0 (opnd 11 (t.reg f.rb))) = 0 ∧ 0 ≤ fld t.mem (a + 4)) ∧
    (let t := K1x.l1[0]'(by decide); let f := K1x.l2[0]'(by decide); let a := K1x.l3[0]'(by decide); t.mem.wf = true ∧ Machine.isTrue (t.reg f.ra) = true ∧ (fun m i => bit (m.read (a + 12)) i) t.mem 0 = false ∧ (fun m i => bit (m.read (a + 12)) i) t.mem 2 = false) ∧
    (let t := K1x.l1[5]'(by decide); let a := K1x.l3[0]'(by decide); t.mem.wf = true ∧ (fun m i => bit (m.read (a + 12)) i) t.mem 2 = true) ∧
    (let t := K1x.l1[5]'(by decide); let f := K1x.l2[0]'(by decide); let a := K1x.l3[0]'(by decide); t.mem.wf = true ∧ (fun m i => bit (m.read (a + 12)) i) t.mem 2 = true ∧ (if f.rb = 0 then max 0 (fld t.mem a) else max 0 (opnd 11 (t.reg f.rb))) ≤ min (fld t.mem (a + 4) + dtUs t a 8 ((fun m i => bit (m.read (a + 12)) i) t.mem 3)) (if f.rb = 0 then max 0 (fld t.mem a) else max 0 (opnd 11 (t.reg f.rb)))) ∧
    (let t := K1x.l1[5]'(by decide); let f := K1x.l2[1]'(by decide); let a := K1x.l3[0]'(by decide); t.mem.wf = true ∧ (fun m i => bit (m.read (a + 12)) i) t.mem 2 = true ∧ min (fld t.mem (a + 4) + dtUs t a 8 ((fun m i => bit (m.read (a + 12)) i) t.mem 3)) (if f.rb = 0 then max 0 (fld t.mem a) else max 0 (opnd 11 (t.reg f.rb))) < if f.rb = 0 then max 0 (fld t.mem a) else max 0 (opnd 11 (t.reg f.rb))) ∧
    (let t := K1x.l1[0]'(by decide); let f := K1x.l2[1]'(by decide); let a := K1x.l3[0]'(by decide); t.mem.wf = true ∧ Machine.isTrue (t.reg f.ra) = false ∧ (fun m i => bit (m.read (a + 12)) i) t.mem 2 = false) := ⟨by decide +kernel, by decide +kernel, by decide +kernel, by decide +kernel, by decide +kernel, by decide +kernel, by decide +kernel, by decide +kernel⟩

theorem test_premises_Timers_2 :
    (let t := K1x.l1[7]'(by decide); let f := K1x.l2[0]'(by decide); let a := K1x.l3[0]'(by decide); t.mem.wf = true ∧ Machine.isTrue (t.reg f.ra) = true ∧ (fun m i => bit (m.read (a + 12)) i) t.mem 0 = true ∧ (fun m i => bit (m.read (a + 12)) i) t.mem 2 = false) := by decide +kernel

theorem test_premises_CountersEdges :
    (let t := K1x.l1[0]'(by decide); t.mem.wf = true) ∧
    (let t := K1x.l1[0]'(by decide); let a := K1x.l3[0]'(by decide); let z := K1x.l3[0]'(by decide); t.mem.wf = true ∧ (z < a + 4 ∨ a + 8 < z)) ∧
    (let t := K1x.l1[0]'(by decide); let a := K1x.l3[0]'(by decide); let z := K1x.l3[1]'(by decide); t.mem.wf = true ∧ z ≠ a) ∧
    (let t := K1x.l1[0]'(by decide); let a := K1x.l3[0]'(by decide); let p := K1x.l4[0]'(by decide); t.mem.wf = true ∧ 131072 + p.localInit.length ≤ a ∧ a < 258048) := ⟨by decide +kernel, by decide +kernel, by decide +kernel, by decide +kernel⟩

theorem test_premises_TileSystem_1 :
    (let n := K1.l2[0]'(by decide); let s := K1.l1[6]'(by decide); let a := K1.l24[1]'(by decide); FabOk s.fab ∧ (s.fab.tile n).ready Slot.s1 = true ∧ (s.fab.tile n).open0 = some a ∧ a.ctl = Ctl.stop) ∧
    (let n := K1.l2[0]'(by decide); let s := K1.l1[7]'(by decide); let a := K1.l24[1]'(by decide); FabOk s.fab ∧ (s.fab.tile n).ready Slot.s1 = true ∧ (s.fab.tile n).open0 = some a ∧ a.ctl = Ctl.stop) ∧
    (let n := K1.l2[0]'(by decide); let s := K1.l1[0]'(by decide); FabOk s.fab ∧ (s.fab.tile n).ready Slot.s0 = true) ∧
    (let n := K1.l2[0]'(by decide); let s := K1.l1[0]'(by decide); FabOk s.fab ∧ (s.fab.tile n).ready Slot.s0 = true ∧ (s.fab.tile n).runner = Runner.main) ∧
    (let n := K1.l2[0]'(by decide); let s := K1.l1[1]'(by decide); let h := K1.l25[0]'(by decide); FabOk s.fab ∧ (s.fab.tile n).ready Slot.s0 = true ∧ (s.fab.tile n).runner = Runner.handler h) ∧
    (let n := K1.l2[0]'(by decide); let s := K1.l1[0]'(by decide); FabOk s.fab ∧ (s.fab.tile n).ready Slot.s0 = true ∧ (s.fab.tile n).runner = Runner.main ∧ s.fab.state ≠ FabState.halted) ∧
    (let n := K1.l2[0]'(by decide); let s := K1.l1[0]'(by decide); let f := K1.l21[0]'(by decide); FabOk s.fab ∧ (s.fab.tile n).ready Slot.s0 = true ∧ (s.fab.tile n).runner = Runner.main ∧ f.sev.toNat ≤ 4) ∧
    (let n := K1.l2[0]'(by decide); let s := K1.l1[1]'(by decide); let f := K1.l21[0]'(by decide); let h := K1.l25[0]'(by decide); FabOk s.fab ∧ (s.fab.tile n).ready Slot.s0 = true ∧ (s.fab.tile n).runner = Runner.handler h ∧ f.sev.toNat ≤ 4) := ⟨by unfold FabOk; decide +kernel, by unfold FabOk; decide +kernel, by unfold FabOk; decide +kernel, by unfold FabOk; decide +kernel, by unfold FabOk; decide +kernel, by unfold FabOk; decide +kernel, by unfold FabOk; decide +kernel, by unfold FabOk; decide +kernel⟩

theorem test_premises_TileSystem_2 :
    (let n := K1.l2[0]'(by decide); let s := K1.l1[1]'(by decide); let h := K1.l25[0]'(by decide); FabOk s.fab ∧ (s.fab.tile n).ready Slot.s0 = true ∧ (s.fab.tile n).runner = Runner.handler h ∧ s.fab.state ≠ FabState.halted) := by unfold FabOk; decide +kernel

theorem test_premises_Severities :
    (let s := K1.l1[0]'(by decide); s.evr.pending = [] ∧ s.evr.ring.length < 16384 ∧ (goodSlots s.evr.store).length < 49152) ∧
    (let s := K1.l1[0]'(by decide); let sev := K1x.l5[1]'(by decide); s.evr.pending = [] ∧ s.evr.ring.length < 16384 ∧ (goodSlots s.evr.store).length < 49152 ∧ sev ≠ Sev.trace) ∧
    (let s := K1.l1[0]'(by decide); let sev := K1x.l5[0]'(by decide); s.evr.pending = [] ∧ s.evr.ring.length < 16384 ∧ (goodSlots s.evr.store).length < 49152 ∧ sev = Sev.trace) := ⟨by decide +kernel, by decide +kernel, by decide +kernel⟩

theorem test_premises_TilePhases :
    (let n := K.l3[0]'(by decide); let s := K.l1[1]'(by decide); FabOk s.fab ∧ (s.fab.tile n).phase = TPhase.fill) ∧
    (let n := K.l3[0]'(by decide); let s := K.l1[0]'(by decide); FabOk s.fab ∧ (s.fab.tile n).phase ≠ TPhase.fill) ∧
    (let n := K.l3[0]'(by decide); let s := K.l1[47]'(by decide); FabOk s.fab ∧ (s.fab.tile n).phase = TPhase.drain ∧ (s.fab.tile n).deadline < drainCyc (tileProg s n (s.fab.tile n).codeHalf)) ∧
    (let n := K.l3[0]'(by decide); let s := K.l1[3]'(by decide); ∃ i ∈ s.glb.inst, FabOk s.fab ∧ (s.fab.tile n).phase = TPhase.drain ∧ drainCyc (tileProg s n (s.fab.tile n).codeHalf) ≤ (s.fab.tile n).deadline ∧ i.task = BitVec.toNat (s.fab.tile n).task ∧ i.rel = (s.fab.tile n).relMcc ∧ ∀ j ∈ s.glb.inst, j.task = i.task → j.rel = i.rel → j = i) := ⟨by unfold FabOk; decide +kernel, by unfold FabOk; decide +kernel, by unfold FabOk; decide +kernel, by unfold FabOk; decide +kernel⟩

theorem test_premises_DeadlineStops :
    (let n := K.l3[0]'(by decide); let s := K.l1[8]'(by decide); FabOk s.fab ∧ deadlineDue s n = true ∧ s.fab.state ≠ FabState.halted) ∧
    (let n := K.l3[0]'(by decide); let s := K.l1[0]'(by decide); FabOk s.fab ∧ ((s.fab.tile n).inst = false ∨ deadlineDue s n = false)) := ⟨by unfold FabOk; decide +kernel, by unfold FabOk; decide +kernel⟩

theorem test_premises_HandlersRun :
    (let n := K.l3[0]'(by decide); let s := K.l1[5]'(by decide); ∃ k ∈ dispatchable s n, ∃ x ∈ ((nthD s.glb.evts k { }).queue).take 1, ∃ q ∈ [((nthD s.glb.evts k { }).queue).drop 1], ∃ e ∈ (List.find? (fun h => h.evtTask == k) (tileProg s n (s.fab.tile n).codeHalf).handlers).toList, FabOk s.fab ∧ (s.fab.tile n).codeHalf = servHalf s n ∧ (s.fab.tile n).hand = none ∧ (s.fab.tile n).open0 = none ∧ ((s.fab.tile n).phase = TPhase.idle ∨ (s.fab.tile n).phase = TPhase.slack) ∧ s.glb.state = MState.run ∧ s.fab.state = FabState.running ∧ handlersOpen s = true ∧ (nthD s.glb.evts k { }).queue = x :: q ∧ fitsWindow s n e = true ∧ firstWindow s n k = true) ∧
    (let n := K.l3[0]'(by decide); let s := K.l1[0]'(by decide); let k := K.l4[0]'(by decide); FabOk s.fab ∧ (servable s n k = none ∨ firstWindow s n k = false)) ∧
    (let n := K.l3[0]'(by decide); let s := K.l1[6]'(by decide); ∃ h ∈ ((s.fab.tile n).hand).toList, FabOk s.fab ∧ h.ended = true) ∧
    (let n := K.l3[0]'(by decide); let s := K.l1[0]'(by decide); let h := K.l11[0]'(by decide); FabOk s.fab ∧ ((s.fab.tile n).hand = none ∨ (s.fab.tile n).hand = some h ∧ h.ended = false)) := ⟨by unfold FabOk; decide +kernel, by unfold FabOk; decide +kernel, by unfold FabOk; decide +kernel, by unfold FabOk; decide +kernel⟩

theorem test_premises_FabricEcc :
    (let s := K.l1[0]'(by decide); FabOk s.fab) ∧
    (let s := K.l1[0]'(by decide); FabOk s.fab ∧ s.fab.state ≠ FabState.halted) := ⟨by unfold FabOk; decide +kernel, by unfold FabOk; decide +kernel⟩

theorem test_premises_TileResets :
    (let s := K.l1[0]'(by decide); FabOk s.fab ∧ s.fab.state ≠ FabState.halted) ∧
    (let n := K.l3[0]'(by decide); let s := K.l1[7]'(by decide); FabOk s.fab ∧ (s.fab.tile n).phase = TPhase.reset ∧ (s.fab.state = FabState.running ∨ s.fab.state = FabState.ready)) ∧
    (let n := K.l3[0]'(by decide); let s := K.l1[0]'(by decide); FabOk s.fab ∧ (s.fab.tile n).phase ≠ TPhase.reset) := ⟨by unfold FabOk; decide +kernel, by unfold FabOk; decide +kernel, by unfold FabOk; decide +kernel⟩

theorem test_premises_FabricResets :
    (let act := K.l5[0]'(by decide); let s := K.l1[0]'(by decide); FabOk s.fab ∧ s.fab.state ≠ FabState.halted ∧ ¬(act = true ∧ inGroup s = true ∧ s.grp.role = GRole.active)) ∧
    (let act := K.l5[1]'(by decide); let s := K.l1[24]'(by decide); FabOk s.fab ∧ s.fab.state ≠ FabState.halted ∧ act = true ∧ inGroup s = true ∧ s.grp.role = GRole.active) ∧
    (let s := K.l1[11]'(by decide); FabOk s.fab ∧ s.fab.state = FabState.halted) ∧
    (let s := K.l1[9]'(by decide); FabOk s.fab ∧ s.fab.state = FabState.loading) ∧
    (let s := K.l1[0]'(by decide); FabOk s.fab ∧ s.fab.state ≠ FabState.loading) := ⟨by unfold FabOk; decide +kernel, by unfold FabOk; decide +kernel, by unfold FabOk; decide +kernel, by unfold FabOk; decide +kernel, by unfold FabOk; decide +kernel⟩

theorem test_premises_SupplyPins :
    (let s := K.l1[20]'(by decide); s.glb.state = MState.dormant ∧ s.pin.powerGood = false ∧ s.pin.vstbyLow = false ∧ s.pin.cutOff = false) ∧
    (let s := K.l1[0]'(by decide); s.glb.state ≠ MState.dormant ∨ s.pin.vstbyLow = true) ∧
    (let s := K.l1[0]'(by decide); s.pin.qualifying = false) ∧
    (let s := K.l1[23]'(by decide); s.pin.qualifying = true) ∧
    (let s := K.l1[23]'(by decide); 1 ≤ s.pin.ledPhase ∧ s.pin.ledPhase ≤ 4) ∧
    (let s := K.l1[0]'(by decide); s.pin.powerGood = true) := ⟨by decide +kernel, by decide +kernel, by decide +kernel, by decide +kernel, by decide +kernel, by decide +kernel⟩

theorem test_premises_PowerFailure :
    (let s := K.l1[0]'(by decide); s.pin.powerGood = true ∧ s.pin.warn = none) ∧
    (let s := K.l1[13]'(by decide); (s.pin.warn).isSome = true ∧ s.pin.powerGood = true) ∧
    (let s := K.l1[13]'(by decide); (s.pin.warn).isSome = true ∧ s.pin.powerGood = true ∧ s.safe.failSilent = false) := ⟨by decide +kernel, by decide +kernel, by decide +kernel⟩

theorem test_premises_FailSilence :
    (let s := K.l1[0]'(by decide); s.safe.failSilent = false ∧ s.pin.powerGood = true) ∧
    (let s := K.l1[0]'(by decide); let c := K.l15[1]'(by decide); s.safe.failSilent = false ∧ s.pin.powerGood = true ∧ 1 ≤ BitVec.toNat c ∧ BitVec.toNat c ≤ 8) ∧
    (let s := K.l1[0]'(by decide); let i := K.l17[0]'(by decide); s.safe.failSilent = false ∧ s.pin.powerGood = true ∧ ↑i ≤ 4) := ⟨by decide +kernel, by decide +kernel, by decide +kernel⟩

theorem test_premises_ClockFaults_1 :
    (let s := K.l1[14]'(by decide); let i := K.l17[5]'(by decide); ↑i = 5 ∧ s.clk.acMask = true) ∧
    (let s := K.l1[0]'(by decide); let i := K.l17[5]'(by decide); ↑i = 5 ∧ s.clk.acMask = false ∨ ↑i = 6) ∧
    (let i := K.l17[7]'(by decide); let u := K.l4[0]'(by decide); (↑i, u) ∈ [(7, 0), (8, 1), (9, 2), (10, 6), (11, 7), (12, 3), (13, 5)]) ∧
    (let i := K.l17[14]'(by decide); 14 ≤ ↑i ∧ ↑i ≤ 16) ∧
    (let i := K.l17[17]'(by decide); ↑i = 17 ∨ ↑i = 18) ∧
    (let s := K.l1[14]'(by decide); s.clk.acMask = true) ∧
    (let s := K.l1[14]'(by decide); s.clk.acMask = true ∧ (s.host = [] ∨ s.pgv.stalled = true)) ∧
    (let s := K.l1[14]'(by decide); s.clk.acMask = true ∧ s.pgv.stalled = false) := ⟨by decide +kernel, by decide +kernel, by decide +kernel, by decide +kernel, by decide +kernel, by decide +kernel, by decide +kernel, by decide +kernel⟩

theorem test_premises_ClockFaults_2 :
    (let s := K.l1[0]'(by decide); s.clk.acMask = false) := by decide +kernel

theorem test_premises_ResetsReachAll :
    (let s := K.l1[23]'(by decide); s.pin.powerGood = false ∧ s.pin.qualifying = true) ∧
    (let s := K.l1[15]'(by decide); s.rst.moduleDue = true ∧ s.pin.powerGood = true ∧ s.pin.cutOff = false ∧ s.glb.state ≠ MState.dormant) ∧
    (let s := K.l1[0]'(by decide); s.rst.moduleDue = false ∨ s.pin.powerGood = false ∨ s.pin.cutOff = true ∨ s.glb.state = MState.dormant) ∧
    (let s := K.l1[16]'(by decide); s.safe.failSilent = true ∧ s.safe.armed = true ∧ s.pin.powerGood = true ∧ s.ci.act.safety.canaryRestart = 1 ∧ (s.safe.canaryLatch ≠ 6 ∨ s.pgv.edgeC.toInt < 85)) ∧
    (let s := K.l1[0]'(by decide); s.safe.armed = false ∨ s.ci.act.safety.canaryRestart = 0) := ⟨by decide +kernel, by decide +kernel, by decide +kernel, by decide +kernel, by decide +kernel⟩

theorem test_premises_BootSteps :
    (let s := K.l1[39]'(by decide); s.pin.powerGood = true ∧ s.pin.rstHeld = false ∧ s.glb.state = MState.boot ∧ s.tk.running = false ∧ s.safe.failSilent = false ∧ (bootStore s).2 = true ∧ (bootTk (bootStore s).1).2 = true) ∧
    (let s := K.l1[22]'(by decide); s.pin.powerGood = true ∧ s.pin.rstHeld = false ∧ s.glb.state = MState.boot ∧ s.tk.running = false ∧ s.safe.failSilent = false ∧ ((bootStore s).2 = false ∨ (bootTk (bootStore s).1).2 = false)) ∧
    (let s := K.l1[40]'(by decide); s.tk.running = true ∧ s.glb.state = MState.config ∧ s.ci.activeValid = false ∧ (bootSlotOf (ciCheck s) ImgType.ci).2 = true ∧ (bootSlotOf (bootSlotOf (ciCheck s) ImgType.ci).1 ImgType.tilefw).2 = true) ∧
    (let s := K.l1[21]'(by decide); s.tk.running = true ∧ s.glb.state = MState.config ∧ s.ci.activeValid = false ∧ (bootSlotOf (ciCheck s) ImgType.ci).2 = false) ∧
    (let s := K.l1[40]'(by decide); s.tk.running = true ∧ s.rst.clusterHeld = true ∧ s.rst.clusterLocked = false ∧ s.glb.state ≠ MState.dormant ∧ s.safe.failSilent = false ∧ (bootSlotOf s ImgType.ur).2 = true) ∧
    (let s := K.l1[0]'(by decide); s.tk.running = true ∧ s.rst.clusterHeld = true ∧ s.rst.clusterLocked = false ∧ s.glb.state ≠ MState.dormant ∧ s.safe.failSilent = false ∧ (bootSlotOf s ImgType.ur).2 = false) ∧
    (let s := K.l1[41]'(by decide); s.rst.clusterLocked = true) := ⟨by decide +kernel, by decide +kernel, by decide +kernel, by decide +kernel, by decide +kernel, by decide +kernel, by decide +kernel⟩

theorem test_premises_Watchdog :
    (let s := K.l1[17]'(by decide); s.rst.wdogArmed = true ∧ s.pgv.stalled = false ∧ s.tk.sessions.length ≤ 8) ∧
    (let s := K.l1[0]'(by decide); s.rst.wdogArmed = false ∨ s.pgv.stalled = true) ∧
    (let s := K.l1[0]'(by decide); s.rst.clusterHeld = true) ∧
    (let s := K.l1[18]'(by decide); s.rst.clusterHeld = false ∧ coresStopped s = true) ∧
    (let s := K.l1[17]'(by decide); s.rst.wdogArmed = true ∧ s.rst.clusterHeld = false ∧ coresStopped s = false) ∧
    (let s := K.l1[49]'(by decide); s.rst.wdogArmed = false ∧ s.rst.clusterHeld = false ∧ coresStopped s = false) := ⟨by decide +kernel, by decide +kernel, by decide +kernel, by decide +kernel, by decide +kernel, by decide +kernel⟩

theorem test_premises_PortResetEnds :
    (let s := K.l1[0]'(by decide); let u := K.l4[0]'(by decide); u ≤ 8 ∧ bit s.rst.portHeld u = true ∧ s.ci.activeValid = true ∧ bit s.pgv.portRefused u = false ∧ bit s.rst.portNoFw u = false ∧ s.upd.portSeq = []) := by decide +kernel

theorem test_premises_PowerGovernor :
    (let s := K.l1[0]'(by decide); s.rst.clusterHeld = true) ∧
    (let s := K.l1[18]'(by decide); s.rst.clusterHeld = false ∧ coresStopped s = true) ∧
    (let s := K.l1[50]'(by decide); let st := K.l16[2]'(by decide); s.rst.clusterHeld = false ∧ coresStopped s = false ∧ s.ci.act.power.acMaxStep < st.toNat) ∧
    (let s := K.l1[17]'(by decide); let st := K.l16[0]'(by decide); s.rst.clusterHeld = false ∧ coresStopped s = false ∧ st.toNat ≤ s.ci.act.power.acMaxStep) ∧
    (let s := K.l1[12]'(by decide); s.pin.powerGood = false) ∧
    (let s := K.l1[18]'(by decide); s.pin.powerGood = true ∧ s.pgv.stalled = true) ∧
    (let s := K.l1[0]'(by decide); s.pin.powerGood = true ∧ (s.pgv.stalled = false ∨ s.host = [])) := ⟨by decide +kernel, by decide +kernel, by decide +kernel, by decide +kernel, by decide +kernel, by decide +kernel, by decide +kernel⟩

theorem test_premises_CulletWrites :
    (let s := K.l1[0]'(by decide); s.tk.running = true ∧ s.ci.activeValid = true ∧ retDiffers s = true) ∧
    (let s := K.l1[44]'(by decide); s.tk.running = true ∧ retDiffers s = false) ∧
    (let s := K.l1[20]'(by decide); s.tk.running = true ∧ s.glb.state = MState.dormant) ∧
    (let s := K.l1[0]'(by decide); s.tk.running = true ∧ s.glb.state ≠ MState.dormant) ∧
    (let s := K.l1[0]'(by decide); s.tk.running = true) := ⟨by decide +kernel, by decide +kernel, by decide +kernel, by decide +kernel, by decide +kernel⟩

theorem test_premises_ModeBoundaries :
    (let s := K4.l1[0]'(by decide); s.cyc.running = true ∧ s.pin.powerGood = true ∧ inGroup s = false ∧ s.grp.adoptDue = none) ∧
    (let s := K4.l1[9]'(by decide); s.cyc.running = false ∨ s.pin.powerGood = false) ∧
    (let s := K4.l1[21]'(by decide); inGroup s = false ∧ s.glb.state = MState.stop ∧ s.cyc.started = true ∧ s.glb.autoDue = true) ∧
    (let s := K4.l1[0]'(by decide); s.glb.state ≠ MState.stop) := ⟨by decide +kernel, by decide +kernel, by decide +kernel, by decide +kernel⟩

theorem test_premises_SettleAndRelease :
    (let s := K4.l1[24]'(by decide); FabOk s.fab ∧ s.cyc.running = true ∧ s.cyc.started = true ∧ s.pim.settledMcc ≠ some s.cyc.mcc) ∧
    (let s := K4.l1[0]'(by decide); FabOk s.fab ∧ (s.cyc.running = false ∨ s.cyc.started = false ∨ s.pim.settledMcc = some s.cyc.mcc)) ∧
    (let s := K4.l1[0]'(by decide); FabOk s.fab ∧ s.cyc.running = true ∧ s.cyc.started = true ∧ s.glb.relDone ≠ some s.cyc.mcc) ∧
    (let s := K4.l1[12]'(by decide); FabOk s.fab ∧ s.cyc.running = true ∧ s.cyc.started = true ∧ s.glb.relDone ≠ some s.cyc.mcc ∧ s.glb.state ≠ MState.run ∧ s.glb.state ≠ MState.hold) ∧
    (let s := K4.l1[0]'(by decide); FabOk s.fab ∧ s.cyc.running = true ∧ s.cyc.started = true ∧ s.glb.relDone ≠ some s.cyc.mcc ∧ s.glb.state = MState.run ∧ s.fab.state = FabState.running ∧ s.ci.affected = [] ∧ ∀ r ∈ s.ci.act.tasks, r.engine ≠ 1) ∧
    (let s := K4.l1[4]'(by decide); FabOk s.fab ∧ (s.cyc.running = false ∨ s.cyc.started = false ∨ s.glb.relDone = some s.cyc.mcc)) := ⟨by unfold FabOk; decide +kernel, by unfold FabOk; decide +kernel, by unfold FabOk; decide +kernel, by unfold FabOk; decide +kernel, by unfold FabOk; decide +kernel, by unfold FabOk; decide +kernel⟩

theorem test_premises_Launches_1 :
    (let s := K4.l1[26]'(by decide); let q := K4.l5[1]'(by decide); ∃ l ∈ (launchQueue s q).take 1, ∃ ls ∈ [(launchQueue s q).drop 1], q < 64 ∧ s.cyc.queues.length = 64 ∧ launchQueue s q = l :: ls ∧ launchDue (passTo s l.ttc) l = true) ∧
    (let s := K4.l1[0]'(by decide); let q := K4.l5[0]'(by decide); q < 64 ∧ launchQueue s q = []) ∧
    (let s := K4.l1[26]'(by decide); let n := K4.l5[2]'(by decide); ∃ l ∈ (nthD s.cyc.evtLaunch n none).toList, n < 16 ∧ s.cyc.evtLaunch.length = 16 ∧ launchDue (passTo s l.ttc) l = true) ∧
    (let s := K4.l1[27]'(by decide); let a := K4.l6[1]'(by decide); let b := K4.l6[1]'(by decide); s.cyc.soLaunch = some (a, b) ∧ s.safe.so.length = 2) ∧
    (let s := K4.l1[0]'(by decide); s.cyc.soLaunch = none) ∧
    (let s := K4.l1[29]'(by decide); let p := K4.l4[0]'(by decide); s.eth.ports.length = 3 ∧ (ethPort s p).gclCur + 1 < (gateList s.ci.act p).length ∧ (ethPort s p).gclEndTtc ≠ s.cyc.timerTtc) ∧
    (let s := K4.l1[0]'(by decide); let p := K4.l4[0]'(by decide); (gateList s.ci.act p).length ≤ (ethPort s p).gclCur + 1 ∨ (ethPort s p).gclEndTtc = s.cyc.timerTtc) ∧
    (let s := K4.l1[0]'(by decide); s.pin.powerGood = true ∧ s.glb.state ≠ MState.dormant) := ⟨by decide +kernel, by decide +kernel, by decide +kernel, by decide +kernel, by decide +kernel, by decide +kernel, by decide +kernel, by decide +kernel⟩

theorem test_premises_Launches_2 :
    (let s := K4.l1[9]'(by decide); s.pin.powerGood = false ∨ s.glb.state = MState.dormant) := by decide +kernel

theorem test_premises_TimeBaseEvents_1 :
    (let s := K4.l1[32]'(by decide); ∃ d ∈ (s.tb.stepDue).toList, (stepOffset s d).isSome = true ∧ s.cyc.started = true ∧ atOrBefore d.target s.cyc.mcc = true) ∧
    (let s := K4.l1[108]'(by decide); ∃ d ∈ (s.tb.stepDue).toList, d.refusedCase ≠ 0 ∧ s.tb.valid = true) ∧
    (let s := K4.l1[32]'(by decide); ∃ d ∈ (s.tb.stepDue).toList, d.refusedCase = 0 ∨ s.tb.valid = false) ∧
    (let s := K4.l1[33]'(by decide); ∃ d ∈ (s.tb.stepDue).toList, stepOffset s d = none ∧ s.cyc.started = true ∧ atOrBefore d.target s.cyc.mcc = true) ∧
    (let s := K4.l1[0]'(by decide); s.tb.stepDue = none) ∧
    (let s := K4.l1[30]'(by decide); let b := K4.l6[0]'(by decide); ptpOn s b = true ∧ (ptpOf s b).best ≠ none) ∧
    (let s := K4.l1[34]'(by decide); let b := K4.l6[0]'(by decide); ptpOn s b = true ∧ (ptpOf s b).best = none ∧ (ptpOf s b).timedOut = false ∧ s.tb.selB = b) ∧
    (let s := K4.l1[0]'(by decide); let b := K4.l6[0]'(by decide); ptpOn s b = false ∨ (ptpOf s b).best = none ∧ (ptpOf s b).timedOut = true) := ⟨by decide +kernel, by decide +kernel, by decide +kernel, by decide +kernel, by decide +kernel, by decide +kernel, by decide +kernel, by decide +kernel⟩

theorem test_premises_TimeBaseEvents_2 :
    (let s := K4.l1[30]'(by decide); let b := K4.l6[0]'(by decide); ptpOn s b = true ∧ ((ptpOf s b).best ≠ none ∨ asProfile s b = true)) ∧
    (let s := K4.l1[0]'(by decide); let b := K4.l6[0]'(by decide); ptpOn s b = false) ∧
    (let s := K4.l1[30]'(by decide); let b := K4.l6[1]'(by decide); ptpOn s b = true ∧ gmCapable s = true ∧ (ptpOf s b).best = none) ∧
    (let s := K4.l1[0]'(by decide); gmCapable s = false) ∧
    (let s := K4.l1[34]'(by decide); (s.tb.a.asGm = true ∨ s.tb.b.asGm = true) ∧ s.tb.valid = false) ∧
    (let s := K4.l1[0]'(by decide); s.tb.a.asGm = false ∧ s.tb.b.asGm = false ∨ s.tb.valid = true) := ⟨by decide +kernel, by decide +kernel, by decide +kernel, by decide +kernel, by decide +kernel, by decide +kernel⟩

theorem test_premises_Ethernet_1 :
    (let s := K5.l1[2]'(by decide); let p := K5.l3[0]'(by decide); let tc := K5.l4[2]'(by decide); let f := K5.l2[1]'(by decide); s.eth.ports.length = 3 ∧ (∀ (q : Fin 3), (ethPort s q).queues.length = 8) ∧ nextFrame s p = some (tc, f)) ∧
    (let s := K5.l1[0]'(by decide); let p := K5.l3[0]'(by decide); s.eth.ports.length = 3 ∧ (∀ (q : Fin 3), (ethPort s q).queues.length = 8) ∧ nextFrame s p = none) ∧
    (let s := K5.l1[1]'(by decide); let p := K5.l3[1]'(by decide); s.eth.ports.length = 3 ∧ (∀ (q : Fin 3), (ethPort s q).queues.length = 8) ∧ ((ethPort s p).up = false ∨ (ethPort s p).enable = false ∨ portHeld s (EthNo.port p) = true)) ∧
    (let s := K5.l1[0]'(by decide); let p := K5.l3[0]'(by decide); s.eth.ports.length = 3 ∧ (∀ (q : Fin 3), (ethPort s q).queues.length = 8) ∧ (ethPort s p).up = true ∧ (ethPort s p).enable = true ∧ portHeld s (EthNo.port p) = false) ∧
    (let s := K5.l1[0]'(by decide); let p := K5.l3[0]'(by decide); let f := K5.l6[2]'(by decide); let h := K5.l7[2]'(by decide); let data := K5.l8[0]'(by decide); let tr := K5.l9[0]'(by decide); ∃ n ∈ (subsOf s.ci.act h.comId).take 1, ∃ c ∈ (subCfg s.ci.act n).toList, s.eth.ports.length = 3 ∧ (∀ (q : Fin 3), (ethPort s q).queues.length = 8) ∧ (ethPort s p).up = true ∧ (ethPort s p).enable = true ∧ portHeld s (EthNo.port p) = false ∧ p ≠ 2 ∧ 64 ≤ f.bytes ∧ f.bytes ≤ 1522 ∧ f.rct = none ∧ f.vid = none ∧ f.pay = EthPay.pd h data tr ∧ accepts s p f.dstIp = true ∧ h.mtype = TrdpType.pd ∧ subsOf s.ci.act h.comId = [n] ∧ n < s.eth.subs.length ∧ pdHdrOk s n c f.srcIp h = false) ∧
    (let s := K5.l1[7]'(by decide); let p := K5.l3[0]'(by decide); let f := K5.l6[7]'(by decide); let h := K5.l7[4]'(by decide); let data := K5.l8[1]'(by decide); let tr := K5.l9[0]'(by decide); ∃ n ∈ (subsOf s.ci.act h.comId).take 1, ∃ c ∈ (subCfg s.ci.act n).toList, s.eth.ports.length = 3 ∧ (∀ (q : Fin 3), (ethPort s q).queues.length = 8) ∧ (ethPort s p).up = true ∧ (ethPort s p).enable = true ∧ portHeld s (EthNo.port p) = false ∧ p ≠ 2 ∧ 64 ≤ f.bytes ∧ f.bytes ≤ 1522 ∧ f.rct = none ∧ f.vid = none ∧ f.pay = EthPay.pd h data tr ∧ accepts s p f.dstIp = true ∧ h.mtype = TrdpType.pd ∧ subsOf s.ci.act h.comId = [n] ∧ n < s.eth.subs.length ∧ pdHdrOk s n c f.srcIp h = true ∧ c.timed = true ∧ c.sdt = false ∧ inGroup s = false ∧ s.txe.tags = [] ∧ s.eth.timedHeld = [] ∧ List.take 3 data = [84, 80, 1] ∧ s.tb.valid = true ∧ bit (nthD data 3 0) 3 = true ∧ atOrBefore (BitVec.ofNat 32 (leNat (List.take 4 (List.drop 4 data)).reverse)) (ltAt s.tb.ttc) = false) ∧
    (let s := K5.l1[0]'(by decide); let p := K5.l3[0]'(by decide); let f := K5.l6[8]'(by decide); let h := K5.l7[4]'(by decide); let data := K5.l8[2]'(by decide); let tr := K5.l9[0]'(by decide); ∃ n ∈ (subsOf s.ci.act h.comId).take 1, ∃ c ∈ (subCfg s.ci.act n).toList, s.eth.ports.length = 3 ∧ (∀ (q : Fin 3), (ethPort s q).queues.length = 8) ∧ (ethPort s p).up = true ∧ (ethPort s p).enable = true ∧ portHeld s (EthNo.port p) = false ∧ p ≠ 2 ∧ 64 ≤ f.bytes ∧ f.bytes ≤ 1522 ∧ f.rct = none ∧ f.vid = none ∧ f.pay = EthPay.pd h data tr ∧ accepts s p f.dstIp = true ∧ h.mtype = TrdpType.pd ∧ subsOf s.ci.act h.comId = [n] ∧ n < s.eth.subs.length ∧ pdHdrOk s n c f.srcIp h = true ∧ c.timed = true ∧ List.take 3 data ≠ [84, 80, 1]) ∧
    (let s := K5.l1[0]'(by decide); let p := K5.l3[0]'(by decide); let f := K5.l6[0]'(by decide); let h := K5.l7[0]'(by decide); let data := K5.l8[0]'(by decide); let tr := K5.l9[0]'(by decide); ∃ n ∈ (subsOf s.ci.act h.comId).take 1, ∃ c ∈ (subCfg s.ci.act n).toList, s.eth.ports.length = 3 ∧ (∀ (q : Fin 3), (ethPort s q).queues.length = 8) ∧ (ethPort s p).up = true ∧ (ethPort s p).enable = true ∧ portHeld s (EthNo.port p) = false ∧ p ≠ 2 ∧ 64 ≤ f.bytes ∧ f.bytes ≤ 1522 ∧ f.rct = none ∧ f.vid = none ∧ f.pay = EthPay.pd h data tr ∧ accepts s p f.dstIp = true ∧ h.mtype = TrdpType.pd ∧ subsOf s.ci.act h.comId = [n] ∧ n < s.eth.subs.length ∧ pdHdrOk s n c f.srcIp h = true ∧ c.timed = false ∧ c.sdt = false ∧ inGroup s = false ∧ s.txe.tags = [] ∧ s.txe.rx = [] ∧ s.arb.freeze = 0 ∧ s.arb.quar = 0 ∧ s.eth.timedHeld = [] ∧ 0 < quotaOf s TxClass.pd ∧ txeRoom s (rxEnts s (List.filter (ownsWrite s.ci.act TxClass.pd) (pdWrites s c data qGood))) = true) := ⟨by decide +kernel, by decide +kernel, by decide +kernel, by decide +kernel, by decide +kernel, by decide +kernel, by decide +kernel, by decide +kernel⟩

theorem test_premises_Ethernet_2 :
    (let s := K5.l1[3]'(by decide); let p := K5.l3[0]'(by decide); let f := K5.l6[5]'(by decide); let lan := K5.l5[0]'(by decide); let q := K5.l11[1]'(by decide); ∃ y0 ∈ (List.find? (fun y => y.mac == f.src) s.eth.nodes).toList, s.eth.ports.length = 3 ∧ (∀ (q : Fin 3), (ethPort s q).queues.length = 8) ∧ (ethPort s p).up = true ∧ (ethPort s p).enable = true ∧ portHeld s (EthNo.port p) = false ∧ p ≠ 2 ∧ 64 ≤ f.bytes ∧ f.bytes ≤ 1522 ∧ f.rct = some (lan, q) ∧ f.vid = none ∧ bypasses s.ci.act f = false ∧ inGroup s = false ∧ y0.seqs.contains q = true) ∧
    (let s := K5.l1[1]'(by decide); let p := K5.l3[1]'(by decide); let speed := K5.l10[2]'(by decide); s.eth.ports.length = 3 ∧ (∀ (q : Fin 3), (ethPort s q).queues.length = 8) ∧ (ethPort s p).up = false ∧ (ethPort s p).enable = true ∧ portHeld s (EthNo.port p) = false ∧ speed = 2 ∧ (portCfg s.ci.act p).mode ≠ 2) ∧
    (let s := K5.l1[0]'(by decide); let p := K5.l3[0]'(by decide); s.eth.ports.length = 3 ∧ (∀ (q : Fin 3), (ethPort s q).queues.length = 8) ∧ (ethPort s p).up = true) ∧
    (let s := K5.l1[1]'(by decide); let p := K5.l3[1]'(by decide); s.eth.ports.length = 3 ∧ (∀ (q : Fin 3), (ethPort s q).queues.length = 8) ∧ (ethPort s p).up = false) ∧
    (let s := K5.l1[0]'(by decide); let p := K5.l3[0]'(by decide); let len := K5.l4[0]'(by decide); s.eth.ports.length = 3 ∧ (∀ (q : Fin 3), (ethPort s q).queues.length = 8) ∧ (ethPort s p).hqTx.enable = true ∧ (ethPort s p).hqTx.sqHead ≠ (ethPort s p).hqTx.sqTail ∧ inGroup s = false ∧ len ≤ 1514 ∧ (ethPort s p).enable = true ∧ portHeld s (EthNo.port p) = false) ∧
    (let s := K5.l1[0]'(by decide); let p := K5.l3[0]'(by decide); let len := K5.l4[3]'(by decide); s.eth.ports.length = 3 ∧ (∀ (q : Fin 3), (ethPort s q).queues.length = 8) ∧ (ethPort s p).hqTx.enable = true ∧ (ethPort s p).hqTx.sqHead ≠ (ethPort s p).hqTx.sqTail ∧ inGroup s = false ∧ 1514 < len) ∧
    (let s := K5.l1[8]'(by decide); let p := K5.l3[0]'(by decide); s.eth.ports.length = 3 ∧ (∀ (q : Fin 3), (ethPort s q).queues.length = 8) ∧ ((ethPort s p).hqTx.enable = false ∨ (ethPort s p).hqTx.sqHead = (ethPort s p).hqTx.sqTail)) ∧
    (let s := K5.l1[0]'(by decide); let sub := K5.l4[1]'(by decide); ((subOf s sub).held).isSome = true ∧ (subCfg s.ci.act sub).isSome = true ∧ s.eth.ports.length = 3 ∧ (∀ (q : Fin 3), (ethPort s q).queues.length = 8) ∧ sub < s.eth.subs.length) := ⟨by decide +kernel, by decide +kernel, by decide +kernel, by decide +kernel, by decide +kernel, by decide +kernel, by decide +kernel, by decide +kernel⟩

theorem test_premises_Ethernet_3 :
    (let s := K5.l1[0]'(by decide); let sub := K5.l4[0]'(by decide); s.eth.ports.length = 3 ∧ (∀ (q : Fin 3), (ethPort s q).queues.length = 8) ∧ (subOf s sub).held = none) ∧
    (let s := K5.l1[0]'(by decide); s.eth.ports.length = 3 ∧ (∀ (q : Fin 3), (ethPort s q).queues.length = 8) ∧ mayTransmit s = true) ∧
    (let s := K5.l1[4]'(by decide); s.eth.ports.length = 3 ∧ (∀ (q : Fin 3), (ethPort s q).queues.length = 8) ∧ mayTransmit s = false) ∧
    (let s := K5.l1[0]'(by decide); let mac : Mac := 0x000000000007#48; s.eth.ports.length = 3 ∧ (∀ (q : Fin 3), (ethPort s q).queues.length = 8) ∧ List.find? (fun y => y.mac == mac) s.eth.nodes = none) ∧
    (let s := K5.l1[3]'(by decide); let mac : Mac := 0x000000000007#48; (List.find? (fun y => y.mac == mac) s.eth.nodes).isSome = true ∧ s.eth.ports.length = 3 ∧ ∀ (q : Fin 3), (ethPort s q).queues.length = 8) ∧
    (let s := K5.l1[0]'(by decide); let sub := K5.l4[0]'(by decide); let src := K5.l13[0]'(by decide); s.eth.ports.length = 3 ∧ (∀ (q : Fin 3), (ethPort s q).queues.length = 8) ∧ List.find? (fun y => y.src == src) (subOf s sub).senders = none) ∧
    (let s := K5.l1[3]'(by decide); let sub := K5.l4[0]'(by decide); let src := K5.l13[0]'(by decide); (List.find? (fun y => y.src == src) (subOf s sub).senders).isSome = true ∧ s.eth.ports.length = 3 ∧ (∀ (q : Fin 3), (ethPort s q).queues.length = 8) ∧ sub < s.eth.subs.length) ∧
    (let s := K5.l1[0]'(by decide); s.eth.ports.length = 3 ∧ ∀ (q : Fin 3), (ethPort s q).queues.length = 8) := ⟨by decide +kernel, by decide +kernel, by decide +kernel, by decide +kernel, by decide +kernel, by decide +kernel, by decide +kernel, by decide +kernel⟩

theorem test_premises_Ethernet_4 :
    (let s := K5.l1[0]'(by decide); let src := K5.l13[0]'(by decide); let id := K5.l14[0]'(by decide); s.eth.ports.length = 3 ∧ (∀ (q : Fin 3), (ethPort s q).queues.length = 8) ∧ List.find? (fun y => y.src == src && y.session == id) s.eth.reasm = none) ∧
    (let s := K5.l1[3]'(by decide); let src := K5.l13[2]'(by decide); let id := K5.l14[0]'(by decide); (List.find? (fun y => y.src == src && y.session == id) s.eth.reasm).isSome = true ∧ s.eth.ports.length = 3 ∧ ∀ (q : Fin 3), (ethPort s q).queues.length = 8) := ⟨by decide +kernel, by decide +kernel⟩

theorem test_premises_LegacyBuses_1 :
    (let s := K6.l1[0]'(by decide); let j := K6.l2[0]'(by decide); portHeld s Port.mvb = false ∧ periodBegins s j = true) ∧
    (let s := K6.l1[0]'(by decide); let j := K6.l2[1]'(by decide); portHeld s Port.mvb = true ∨ periodBegins s j = false) ∧
    (let s := K6.l1[0]'(by decide); s.mvb.due = []) ∧
    (let s := K6.l1[2]'(by decide); let f := K6.l2[1]'(by decide); let a := K6.l2[2]'(by decide); ∃ rest ∈ [(s.mvb.due).drop 1], s.mvb.due = (f, a) :: rest ∧ baNow s = true ∧ f ≠ 15) ∧
    (let s := K6.l1[0]'(by decide); let f := K6.l2[0]'(by decide); portHeld s Port.mvb = false ∧ f ≤ 4 ∧ s.ci.act.time.syncRef ≠ 2) ∧
    (let s := K6.l1[1]'(by decide); portHeld s Port.mvb = true) ∧
    (let s := K6.l1[3]'(by decide); ∃ p ∈ (s.mvb.poll).toList, let c := K6.l2[1]'(by decide); let data := K6.l4[1]'(by decide); portHeld s Port.mvb = false ∧ p.fcode ≠ 15 ∧ mvbPortOf s.ci.act p.addr = some (c, false) ∧ data.length = mvbSize c) ∧
    (let s := K6.l1[0]'(by decide); let n := K6.l2[0]'(by decide); let f := K6.l7[3]'(by decide); n < 2 ∧ ((canOf s n).enabled = false ∨ (canOf s n).busOff = true ∨ f.remote = true)) := ⟨by decide +kernel, by decide +kernel, by decide +kernel, by decide +kernel, by decide +kernel, by decide +kernel, by decide +kernel, by decide +kernel⟩

theorem test_premises_LegacyBuses_2 :
    (let s := K6.l1[0]'(by decide); let n := K6.l2[0]'(by decide); let f := K6.l7[0]'(by decide); n < 2 ∧ (canOf s n).enabled = true ∧ (canOf s n).busOff = false ∧ f.remote = false) ∧
    (let s := K6.l1[5]'(by decide); let n := K6.l2[0]'(by decide); let i := K6.l2[0]'(by decide); ((canOf s n).pend[i]?).isSome = true ∧ n < 2 ∧ (canOf s n).busOff = false ∧ (canOf s n).monitor = false ∧ mayTransmit s = true ∧ canWins (canOf s n) i = true) ∧
    (let s := K6.l1[5]'(by decide); let n := K6.l2[0]'(by decide); let i := K6.l2[0]'(by decide); ((canOf s n).pend[i]?).isSome = true ∧ n < 2) ∧
    (let s := K6.l1[0]'(by decide); let n := K6.l2[0]'(by decide); let i := K6.l2[0]'(by decide); n < 2 ∧ (canOf s n).pend[i]? = none) ∧
    (let s := K6.l1[0]'(by decide); let n := K6.l2[0]'(by decide); n < 2 ∧ (canOf s n).enabled = true ∧ (canOf s n).busOff = false) ∧
    (let s := K6.l1[5]'(by decide); let n := K6.l2[1]'(by decide); n < 2 ∧ (canOf s n).busOff = true) ∧
    (let n := K6.l2[0]'(by decide); n < 2) ∧
    (let s := K6.l1[0]'(by decide); let n := K6.l2[0]'(by decide); n < 2 ∧ Option.map (fun x => x.1) (canPortOf s.ci.act n) = some 1 ∧ (s.glb.state = MState.run ∨ s.glb.state = MState.hold) ∧ (canOf s n).enabled = true ∧ (canOf s n).monitor = false ∧ mayTransmit s = true ∧ (canOf s n).synced ≠ some s.cyc.mcc) := ⟨by decide +kernel, by decide +kernel, by decide +kernel, by decide +kernel, by decide +kernel, by decide +kernel, by decide +kernel, by decide +kernel⟩

theorem test_premises_LegacyBuses_3 :
    (let s := K6.l1[6]'(by decide); let n := K6.l2[0]'(by decide); n < 2 ∧ (canOf s n).synced = some s.cyc.mcc) ∧
    (let s := K6.l1[8]'(by decide); let n := K6.l2[0]'(by decide); n < 2 ∧ s.glb.state ≠ MState.run ∧ s.glb.state ≠ MState.hold) := ⟨by decide +kernel, by decide +kernel⟩

theorem test_premises_Submissions_1 :
    (let s := K7.l1[0]'(by decide); let sid := K7.l5[0]'(by decide); ∃ r ∈ (sigRec s.ci.act sid).toList, s.txe.tags = [] ∧ Entry s 1 ∧ 0 < quotaOf s TxClass.dma ∧ 0 < quotaOf s TxClass.bridge ∧ 0 < quotaOf s TxClass.group ∧ (∀ x ∈ s.gw.sems, x.revoked = false) ∧ r.writer = 80 ∧ passive s = false) ∧
    (let s := K7.l1[0]'(by decide); let sid := K7.l5[1]'(by decide); ∃ r ∈ (sigRec s.ci.act sid).toList, s.txe.tags = [] ∧ Entry s 1 ∧ 0 < quotaOf s TxClass.dma ∧ 0 < quotaOf s TxClass.bridge ∧ 0 < quotaOf s TxClass.group ∧ (∀ x ∈ s.gw.sems, x.revoked = false) ∧ r.writer ≠ 80 ∧ engine2Writer s r = false) ∧
    (let s := K7.l1[0]'(by decide); s.txe.tags = [] ∧ Entry s 1 ∧ 0 < quotaOf s TxClass.dma ∧ 0 < quotaOf s TxClass.bridge ∧ 0 < quotaOf s TxClass.group ∧ (∀ x ∈ s.gw.sems, x.revoked = false) ∧ dmaStarts s = true) ∧
    (let s := K7.l1[6]'(by decide); let q := K7.l4[0]'(by decide); s.txe.tags = [] ∧ Entry s 1 ∧ 0 < quotaOf s TxClass.dma ∧ 0 < quotaOf s TxClass.bridge ∧ 0 < quotaOf s TxClass.group ∧ (∀ x ∈ s.gw.sems, x.revoked = false) ∧ dmaStarts s = false ∧ q.wait = false) ∧
    (let s := K7.l1[0]'(by decide); let port := K7.l2[0]'(by decide); s.txe.tags = [] ∧ Entry s 1 ∧ 0 < quotaOf s TxClass.dma ∧ 0 < quotaOf s TxClass.bridge ∧ 0 < quotaOf s TxClass.group ∧ (∀ x ∈ s.gw.sems, x.revoked = false) ∧ (mvbPortOf s.ci.act port).isSome = true) ∧
    (let s := K7.l1[0]'(by decide); let port := K7.l2[3]'(by decide); s.txe.tags = [] ∧ Entry s 1 ∧ 0 < quotaOf s TxClass.dma ∧ 0 < quotaOf s TxClass.bridge ∧ 0 < quotaOf s TxClass.group ∧ (∀ x ∈ s.gw.sems, x.revoked = false) ∧ mvbPortOf s.ci.act port = none) ∧
    (let s := K7.l1[0]'(by decide); let port := K7.l2[1]'(by decide); let c := K7.l2[0]'(by decide); s.txe.tags = [] ∧ Entry s 1 ∧ 0 < quotaOf s TxClass.dma ∧ 0 < quotaOf s TxClass.bridge ∧ 0 < quotaOf s TxClass.group ∧ (∀ x ∈ s.gw.sems, x.revoked = false) ∧ mvbPortOf s.ci.act port = some (c, true) ∧ (∀ e ∈ s.ci.act.gwmap, ¬(e.bus = 0 ∧ e.frame = port)) ∧ drives s = true ∧ bothFault s.mvb = false) ∧
    (let s := K7.l1[0]'(by decide); let port := K7.l2[2]'(by decide); let c := K7.l2[1]'(by decide); s.txe.tags = [] ∧ Entry s 1 ∧ 0 < quotaOf s TxClass.dma ∧ 0 < quotaOf s TxClass.bridge ∧ 0 < quotaOf s TxClass.group ∧ (∀ x ∈ s.gw.sems, x.revoked = false) ∧ mvbPortOf s.ci.act port = some (c, false)) := ⟨by unfold Entry; decide +kernel, by unfold Entry; decide +kernel, by unfold Entry; decide +kernel, by unfold Entry; decide +kernel, by unfold Entry; decide +kernel, by unfold Entry; decide +kernel, by unfold Entry; decide +kernel, by unfold Entry; decide +kernel⟩

theorem test_premises_Submissions_2 :
    (let s := K7.l1[0]'(by decide); let n := K7.l2[0]'(by decide); let id := K7.l8[0]'(by decide); s.txe.tags = [] ∧ Entry s 1 ∧ 0 < quotaOf s TxClass.dma ∧ 0 < quotaOf s TxClass.bridge ∧ 0 < quotaOf s TxClass.group ∧ (∀ x ∈ s.gw.sems, x.revoked = false) ∧ drives s = true ∧ canUsed s.ci.act n id = false) ∧
    (let s := K7.l1[0]'(by decide); let n := K7.l2[0]'(by decide); let id := K7.l8[4]'(by decide); s.txe.tags = [] ∧ Entry s 1 ∧ 0 < quotaOf s TxClass.dma ∧ 0 < quotaOf s TxClass.bridge ∧ 0 < quotaOf s TxClass.group ∧ (∀ x ∈ s.gw.sems, x.revoked = false) ∧ (drives s = false ∨ canUsed s.ci.act n id = true)) ∧
    (let s := K7.l1[0]'(by decide); s.txe.tags = [] ∧ Entry s 1 ∧ 0 < quotaOf s TxClass.dma ∧ 0 < quotaOf s TxClass.bridge ∧ 0 < quotaOf s TxClass.group ∧ ∀ x ∈ s.gw.sems, x.revoked = false) ∧
    (let s := K7.l1[0]'(by decide); let len := K7.l2[3]'(by decide); s.txe.tags = [] ∧ Entry s 1 ∧ 0 < quotaOf s TxClass.dma ∧ 0 < quotaOf s TxClass.bridge ∧ 0 < quotaOf s TxClass.group ∧ (∀ x ∈ s.gw.sems, x.revoked = false) ∧ 8 ≤ len ∧ len ≤ 1024 ∧ len % 8 = 0) ∧
    (let s := K7.l1[0]'(by decide); let len := K7.l2[0]'(by decide); s.txe.tags = [] ∧ Entry s 1 ∧ 0 < quotaOf s TxClass.dma ∧ 0 < quotaOf s TxClass.bridge ∧ 0 < quotaOf s TxClass.group ∧ (∀ x ∈ s.gw.sems, x.revoked = false) ∧ (len < 8 ∨ 1024 < len)) ∧
    (let s := K7.l1[0]'(by decide); let v := K7.l8[1]'(by decide); s.txe.tags = [] ∧ Entry s 1 ∧ 0 < quotaOf s TxClass.dma ∧ 0 < quotaOf s TxClass.bridge ∧ 0 < quotaOf s TxClass.group ∧ (∀ x ∈ s.gw.sems, x.revoked = false) ∧ v ≠ 0) ∧
    (let s := K7.l1[0]'(by decide); let ses := K7.l2[0]'(by decide); let a := K7.l7[0]'(by decide); (mdSession s.ci.act ses).isSome = true ∧ s.txe.tags = [] ∧ Entry s 0 ∧ 0 < quotaOf s TxClass.md ∧ BitVec.toNat a % 64 = 0) ∧
    (let s := K7.l1[0]'(by decide); let ses := K7.l2[0]'(by decide); let len := K7.l2[0]'(by decide); let a := K7.l7[0]'(by decide); ∃ m ∈ (mdSession s.ci.act ses).toList, s.txe.tags = [] ∧ Entry s 0 ∧ 0 < quotaOf s TxClass.md ∧ BitVec.toNat a % 64 = 0 ∧ passive s = false ∧ len ≤ m.2.2.1) := ⟨by unfold Entry; decide +kernel, by unfold Entry; decide +kernel, by unfold Entry; decide +kernel, by unfold Entry; decide +kernel, by unfold Entry; decide +kernel, by unfold Entry; decide +kernel, by unfold Entry; decide +kernel, by unfold Entry; decide +kernel⟩

theorem test_premises_Submissions_3 :
    (let s := K7.l1[0]'(by decide); let ses := K7.l2[0]'(by decide); let len := K7.l2[0]'(by decide); let a := K7.l7[0]'(by decide); ∃ m ∈ (mdSession s.ci.act ses).toList, let tok := K7.l8[1]'(by decide); s.txe.tags = [] ∧ Entry s 0 ∧ 0 < quotaOf s TxClass.md ∧ BitVec.toNat a % 64 = 0 ∧ passive s = false ∧ len ≤ m.2.2.1 ∧ ∃ k ∈ s.eth.tokens, k.token = tok ∧ k.session = ses) ∧
    (let s := K7.l1[0]'(by decide); let ses := K7.l2[0]'(by decide); let len := K7.l2[0]'(by decide); let a := K7.l7[0]'(by decide); ∃ m ∈ (mdSession s.ci.act ses).toList, let tok := K7.l8[0]'(by decide); s.txe.tags = [] ∧ Entry s 0 ∧ 0 < quotaOf s TxClass.md ∧ BitVec.toNat a % 64 = 0 ∧ passive s = false ∧ len ≤ m.2.2.1 ∧ ∀ k ∈ s.eth.tokens, ¬(k.token = tok ∧ k.session = ses)) ∧
    (let s := K7.l1[2]'(by decide); let ses := K7.l2[0]'(by decide); let a := K7.l7[0]'(by decide); (mdSession s.ci.act ses).isSome = true ∧ s.txe.tags = [] ∧ Entry s 0 ∧ 0 < quotaOf s TxClass.md ∧ BitVec.toNat a % 64 = 0 ∧ passive s = true) ∧
    (let s := K7.l1[0]'(by decide); let a := K7.l7[1]'(by decide); s.txe.tags = [] ∧ Entry s 0 ∧ BitVec.toNat a % 64 ≠ 0) ∧
    (let s := K7.l1[4]'(by decide); s.txe.tags = [] ∧ (nthD s.txe.rings 1 { }).enable = false) := ⟨by unfold Entry; decide +kernel, by unfold Entry; decide +kernel, by unfold Entry; decide +kernel, by unfold Entry; decide +kernel, by decide +kernel⟩

theorem test_premises_TagsInFlight_1 :
    (let s := K7.l1[0]'(by decide); let tag := K7.l12[0]'(by decide); tagOf s tag = none) ∧
    (let s := K7.l1[1]'(by decide); ∃ e ∈ s.txe.tags, let sid := K7.l5[0]'(by decide); let v := K7.l7[3]'(by decide); ∃ r ∈ (sigRec s.ci.act sid).toList, tagOf s e.tag = some e ∧ e.req = TagReq.sigWrite sid v ∧ engine2Writer s r = false ∧ s.arb.freeze = 0 ∧ s.arb.quar = 0 ∧ e.posted = false ∧ olderWrite s e = false ∧ (e.cls ≠ TxClass.dma ∨ dmaPaused s e = false) ∧ txeRoom s [stgNow s r v qGood false StgOwner.txe] = true) ∧
    (let s := K7.l1[1]'(by decide); ∃ e ∈ s.txe.tags, let ver := K7.l8[2]'(by decide); let a := K7.l7[0]'(by decide); let n := K7.l2[3]'(by decide); ∃ x ∈ (List.find? (fun x => x.ver == ver) s.pim.ring).toList, let k := K7.l2[1]'(by decide); let q := K7.l13[0]'(by decide); tagOf s e.tag = some e ∧ e.req = TagReq.dma ver a n ∧ e.again = false ∧ dmaPaused s e = false ∧ s.arb.freeze = 0 ∧ e.ring = some (k, q) ∧ e.posted = false ∧ inDram a n = true ∧ s.dram.wf = true ∧ s.arb.quar = 0 ∧ x.eccWords = [] ∧ s.pim.softWords = [] ∧ (BitVec.toNat (nthD s.txe.rings k { }).cqAddr + 32 ≤ BitVec.toNat a ∨ BitVec.toNat a + n ≤ BitVec.toNat (nthD s.txe.rings k { }).cqAddr)) ∧
    (let s := K7.l1[1]'(by decide); ∃ e ∈ s.txe.tags, (e.due).isSome = true ∧ tagOf s e.tag = some e) ∧
    (let s := K7.l1[1]'(by decide); ∃ e ∈ s.txe.tags, tagOf s e.tag = some e ∧ e.again = false) ∧
    (let s := K7.l1[1]'(by decide); ∃ e ∈ s.txe.tags, let l := K7.l10[0]'(by decide); tagOf s e.tag = some e ∧ e.again = true ∧ e.unit = l.peer) ∧
    (let s := K7.l1[1]'(by decide); ∃ e ∈ s.txe.tags, let st := K7.l15[0]'(by decide); tagOf s e.tag = some e ∧ e.posted = true ∧ (st = Status.remoteError ∨ st = Status.timeout ∨ st = Status.unitReset)) ∧
    (let s := K7.l1[1]'(by decide); ∃ e ∈ s.txe.tags, tagOf s e.tag = some e ∧ e.posted = false) := ⟨by decide +kernel, by decide +kernel, by decide +kernel, by decide +kernel, by decide +kernel, by decide +kernel, by decide +kernel, by decide +kernel⟩

theorem test_premises_TagsInFlight_2 :
    (let s := K7.l1[7]'(by decide); let p := K7.l11[0]'(by decide); ∃ x ∈ (List.find? (fun x => x.port == p) s.txe.rx).toList, tagFree s x.cls = true) ∧
    (let s := K7.l1[0]'(by decide); let p := K7.l11[0]'(by decide); List.find? (fun x => x.port == p) s.txe.rx = none) ∧
    (let s := K7.l1[10]'(by decide); let e := K7.l19[1]'(by decide); let x := K7.l18[3]'(by decide); nextArrival s = some (e, x)) ∧
    (let s := K7.l1[0]'(by decide); nextArrival s = none ∧ ∀ e ∈ s.txe.tags, e.again = false ∨ e.cls ≠ TxClass.dma) ∧
    (let s := K7.l1[1]'(by decide); let e := K7.l16[6]'(by decide); let sid := K7.l5[0]'(by decide); let fn := K7.l9[0]'(by decide); let x := K7.l7[1]'(by decide); let y := K7.l7[2]'(by decide); tagOf s e.tag = some e ∧ e.req = TagReq.atomic sid fn x y ∧ e.posted = false) ∧
    (let s := K7.l1[9]'(by decide); let sem := K7.l2[0]'(by decide); sem < s.gw.sems.length ∧ (nthD s.gw.sems sem { }).held = true) ∧
    (let s := K7.l1[9]'(by decide); let l := K7.l10[1]'(by decide); let sem := K7.l2[0]'(by decide); sem < (s.grp.br l).sems.length ∧ (nthD (s.grp.br l).sems sem { }).held = true) ∧
    (let s := K7.l1[0]'(by decide); let l := K7.l10[0]'(by decide); let sem := K7.l2[0]'(by decide); (nthD (s.grp.br l).sems sem { }).held = false) := ⟨by decide +kernel, by decide +kernel, by decide +kernel, by decide +kernel, by decide +kernel, by decide +kernel, by decide +kernel, by decide +kernel⟩

theorem test_premises_HeldClusterAccess :
    (let s := K8.l1[1]'(by decide); s.rst.clusterHeld = true) ∧
    (let s := K8.l1[6]'(by decide); s.rst.clusterHeld = false ∧ coresStopped s = true) := ⟨by decide +kernel, by decide +kernel⟩

theorem test_premises_RegisterReads :
    (let s := K8.l1[0]'(by decide); let a := K8.l12[13]'(by decide); (splitVal s (BitVec.toNat a)).isSome = true ∧ s.rst.clusterHeld = false ∧ coresStopped s = false) ∧
    (let s := K8.l1[0]'(by decide); s.rst.clusterHeld = false ∧ coresStopped s = false) ∧
    (let s := K8.l1[0]'(by decide); let n := K8.l6[0]'(by decide); s.rst.clusterHeld = false ∧ coresStopped s = false ∧ ↑n < s.glb.evts.length) ∧
    (let s := K8.l1[0]'(by decide); s.rst.clusterHeld = false ∧ coresStopped s = false ∧ FabOk s.fab) ∧
    (let s := K8.l1[0]'(by decide); s.rst.clusterHeld = false ∧ coresStopped s = false ∧ s.pim.snaps.length = 8) ∧
    (let s := K8.l1[0]'(by decide); s.rst.clusterHeld = false ∧ coresStopped s = false ∧ s.arb.waits.length = 16) ∧
    (let s := K8.l1[0]'(by decide); let k := K8.l4[0]'(by decide); let off := K8.l2[0]'(by decide); s.rst.clusterHeld = false ∧ coresStopped s = false ∧ off < 8388608 ∧ s.arb.freeze = 0 ∧ s.pim.snaps.length = 8 ∧ s.pim.softWords = [] ∧ badOf s.pim (nthD s.pim.snaps ↑k { }).ver = []) := ⟨by decide +kernel, by decide +kernel, by decide +kernel, by unfold FabOk; decide +kernel, by decide +kernel, by decide +kernel, by decide +kernel⟩

theorem test_premises_RegisterStores_1 :
    (let s := K8.l1[0]'(by decide); let a := K8.l12[0]'(by decide); let v := K8.l12[12]'(by decide); s.rst.clusterHeld = false ∧ coresStopped s = false ∧ tkMask (BitVec.toNat a) ≠ 0 ∧ tkViolated s (BitVec.toNat a) v = false) ∧
    (let s := K8.l1[0]'(by decide); let a := K8.l12[0]'(by decide); s.rst.clusterHeld = false ∧ coresStopped s = false ∧ tkMask (BitVec.toNat a) ≠ 0) ∧
    (let s := K8.l1[0]'(by decide); let a := K8.l11[0]'(by decide); s.rst.clusterHeld = false ∧ coresStopped s = false ∧ inSnapWindow (BitVec.toNat a) = false ∧ ¬(4294967296 ≤ BitVec.toNat a ∧ BitVec.toNat a < 21474836480) ∧ ¬(4026531840 ≤ BitVec.toNat a ∧ BitVec.toNat a < 4294967296 ∧ assigned (BitVec.toNat a) = true)) ∧
    (let s := K8.l1[0]'(by decide); let a := K8.l11[5]'(by decide); s.rst.clusterHeld = false ∧ coresStopped s = false ∧ inSnapWindow (BitVec.toNat a) = false ∧ 4294967296 ≤ BitVec.toNat a ∧ BitVec.toNat a < 21474836480) ∧
    (let s := K8.l1[0]'(by decide); let a := K8.l11[4]'(by decide); s.rst.clusterHeld = false ∧ coresStopped s = false ∧ inSnapWindow (BitVec.toNat a) = false ∧ 4026531840 ≤ BitVec.toNat a ∧ BitVec.toNat a < 4294967296 ∧ assigned (BitVec.toNat a) = true) ∧
    (let s := K8.l1[0]'(by decide); let a := K8.l11[7]'(by decide); s.rst.clusterHeld = false ∧ coresStopped s = false ∧ inSnapWindow (BitVec.toNat a) = false ∧ 4026531840 ≤ BitVec.toNat a ∧ BitVec.toNat a < 4294967296 ∧ assigned (BitVec.toNat a) = true ∧ BitVec.toNat a % 4 ≠ 0) ∧
    (let s := K8.l1[0]'(by decide); let k := K8.l4[0]'(by decide); let a := K8.l11[4]'(by decide); s.rst.clusterHeld = false ∧ coresStopped s = false ∧ inSnapWindow (BitVec.toNat a) = false ∧ 4026531840 ≤ BitVec.toNat a ∧ BitVec.toNat a < 4294967296 ∧ assigned (BitVec.toNat a) = true ∧ BitVec.toNat a % 4 = 0 ∧ loadActs (BitVec.toNat a) = false ∧ ∀ x ∈ s.latches, ¬(x.1 = ↑k ∧ x.2.1 + 4 = BitVec.toNat a)) ∧
    (let s := K8.l1[2]'(by decide); let k := K8.l4[0]'(by decide); let a := K8.l11[8]'(by decide); (List.find? (fun y => y.1 == ↑k && y.2.1 + 4 == BitVec.toNat a) s.latches).isSome = true ∧ s.rst.clusterHeld = false ∧ coresStopped s = false ∧ inSnapWindow (BitVec.toNat a) = false ∧ 4026531840 ≤ BitVec.toNat a ∧ BitVec.toNat a < 4294967296 ∧ assigned (BitVec.toNat a) = true ∧ BitVec.toNat a % 4 = 0 ∧ loadActs (BitVec.toNat a) = false) := ⟨by decide +kernel, by decide +kernel, by decide +kernel, by decide +kernel, by decide +kernel, by decide +kernel, by decide +kernel, by decide +kernel⟩

theorem test_premises_RegisterStores_2 :
    (let s := K8.l1[0]'(by decide); let a := K8.l11[1]'(by decide); s.rst.clusterHeld = false ∧ coresStopped s = false ∧ inSnapWindow (BitVec.toNat a) = true) ∧
    (let s := K8.l1[0]'(by decide); let a := K8.l12[0]'(by decide); s.rst.clusterHeld = false ∧ coresStopped s = false ∧ assigned (BitVec.toNat a) = true ∧ inSnapWindow (BitVec.toNat a) = false) ∧
    (let s := K8.l1[0]'(by decide); let a := K8.l12[25]'(by decide); s.rst.clusterHeld = false ∧ coresStopped s = false ∧ assigned (BitVec.toNat a) = true ∧ inSnapWindow (BitVec.toNat a) = false ∧ BitVec.toNat a % 4 ≠ 0) ∧
    (let s := K8.l1[0]'(by decide); let a := K8.l12[8]'(by decide); s.rst.clusterHeld = false ∧ coresStopped s = false ∧ assigned (BitVec.toNat a) = false ∧ inSnapWindow (BitVec.toNat a) = false) ∧
    (let s := K8.l1[0]'(by decide); s.rst.clusterHeld = false ∧ coresStopped s = false) ∧
    (let s := K8.l1[0]'(by decide); s.rst.clusterHeld = false ∧ coresStopped s = false ∧ 3 ≤ s.txe.rings.length) ∧
    (let s := K8.l1[2]'(by decide); let n := K8.l7[1]'(by decide); let lo := K8.l9[0]'(by decide); ∃ r ∈ (taskRec s.ci.act ↑n).toList, ∃ i ∈ s.glb.inst, s.rst.clusterHeld = false ∧ coresStopped s = false ∧ r.engine = 2 ∧ r.id = ↑n ∧ i.task = ↑n ∧ BitVec.setWidth 16 i.rel = lo ∧ ∀ j ∈ s.glb.inst, j.task = ↑n → BitVec.setWidth 16 j.rel = lo → j = i) ∧
    (let s := K8.l1[0]'(by decide); let n := K8.l7[0]'(by decide); let lo := K8.l9[0]'(by decide); s.rst.clusterHeld = false ∧ coresStopped s = false ∧ ∀ i ∈ s.glb.inst, ¬(i.task = ↑n ∧ BitVec.setWidth 16 i.rel = lo)) := ⟨by decide +kernel, by decide +kernel, by decide +kernel, by decide +kernel, by decide +kernel, by decide +kernel, by decide +kernel, by decide +kernel⟩

theorem test_premises_Monitors :
    (let s := K8.l1[0]'(by decide); s.pmu.inst.length = 13 ∧ (∀ p ∈ s.pmu.inst, p.evsel.length = 8 ∧ p.cnt.length = 8) ∧ s.rst.clusterHeld = false ∧ coresStopped s = false) ∧
    (let s := K8.l1[0]'(by decide); let v := K8.l12[9]'(by decide); s.pmu.inst.length = 13 ∧ (∀ p ∈ s.pmu.inst, p.evsel.length = 8 ∧ p.cnt.length = 8) ∧ s.rst.clusterHeld = false ∧ coresStopped s = false ∧ bit v 31 = false) ∧
    (let s := K8.l1[2]'(by decide); let v := K8.l12[0]'(by decide); s.pmu.inst.length = 13 ∧ (∀ p ∈ s.pmu.inst, p.evsel.length = 8 ∧ p.cnt.length = 8) ∧ s.rst.clusterHeld = false ∧ coresStopped s = false ∧ bit v 31 = true ∧ s.pmu.arm = false ∧ 4 ≤ s.pmu.size.toNat ∧ s.pmu.size.toNat ≤ 16 ∧ inDram s.pmu.base (dumpLen s.pmu * 2 ^ s.pmu.size.toNat) = true) ∧
    (let s := K8.l1[5]'(by decide); let v := K8.l12[0]'(by decide); s.pmu.inst.length = 13 ∧ (∀ p ∈ s.pmu.inst, p.evsel.length = 8 ∧ p.cnt.length = 8) ∧ s.rst.clusterHeld = false ∧ coresStopped s = false ∧ bit v 31 = true ∧ s.pmu.arm = true) ∧
    (let s := K8.l1[0]'(by decide); let i := K8.l5[0]'(by decide); let n := K8.l4[0]'(by decide); s.pmu.inst.length = 13 ∧ (∀ p ∈ s.pmu.inst, p.evsel.length = 8 ∧ p.cnt.length = 8) ∧ bit (nthD s.pmu.inst ↑i { }).en ↑n = false) ∧
    (let s := K8.l1[1]'(by decide); let i := K8.l5[0]'(by decide); let n := K8.l4[1]'(by decide); s.pmu.inst.length = 13 ∧ (∀ p ∈ s.pmu.inst, p.evsel.length = 8 ∧ p.cnt.length = 8) ∧ bit (nthD s.pmu.inst ↑i { }).en ↑n = true ∧ (↑n % 2 = 1 ∨ bit (nthD (nthD s.pmu.inst ↑i { }).evsel (↑n + 1) 0) 12 = false)) ∧
    (let s := K8.l1[5]'(by decide); ∃ r ∈ (s.pmu.active).toList, ∃ e ∈ (List.find? (fun t => t.req == TagReq.dump) s.txe.tags).toList, s.pmu.inst.length = 13 ∧ (∀ p ∈ s.pmu.inst, p.evsel.length = 8 ∧ p.cnt.length = 8) ∧ dmaPaused s e = false ∧ e.ring = none ∧ e.posted = false ∧ inDram r.addr r.bytes.length = true ∧ s.dram.wf = true) ∧
    (let s := K8.l1[0]'(by decide); s.pmu.inst.length = 13 ∧ (∀ p ∈ s.pmu.inst, p.evsel.length = 8 ∧ p.cnt.length = 8) ∧ s.pmu.active = none) := ⟨by decide +kernel, by decide +kernel, by decide +kernel, by decide +kernel, by decide +kernel, by decide +kernel, by decide +kernel, by decide +kernel⟩

theorem test_premises_EventRecorder :
    (let s := K8.l1[0]'(by decide); s.evr.ctx.length = 8 ∧ s.rst.clusterHeld = false ∧ coresStopped s = false) ∧
    (let s := K8.l1[1]'(by decide); let k := K8.l4[1]'(by decide); s.evr.ctx.length = 8 ∧ (nthD s.evr.ctx ↑k { }).busy = true) ∧
    (let s := K8.l1[0]'(by decide); let k := K8.l4[0]'(by decide); s.evr.ctx.length = 8 ∧ (nthD s.evr.ctx ↑k { }).busy = false) ∧
    (let s := K8.l1[3]'(by decide); s.evr.ctx.length = 8 ∧ s.evr.flushing = true ∧ s.evr.clearWait = [] ∧ s.evr.pending.length ≤ 512) ∧
    (let s := K8.l1[0]'(by decide); s.evr.ctx.length = 8 ∧ s.evr.flushing = false) ∧
    (let s := K8.l1[3]'(by decide); s.evr.ctx.length = 8 ∧ s.evr.flushing = true) ∧
    (let s := K8.l1[0]'(by decide); let c := K8.l21[0]'(by decide); let sev := K8.l2[1]'(by decide); s.evr.ctx.length = 8 ∧ 1 ≤ sev ∧ sev ≤ 7 ∧ (s.glb.state = MState.stop ∨ s.glb.state = MState.run ∨ s.glb.state = MState.hold) ∧ s.evr.flushing = false ∧ CallReady s c (if 6 ≤ sev then Role.safetyEngineer else Role.maintainer)) := ⟨by decide +kernel, by decide +kernel, by decide +kernel, by decide +kernel, by decide +kernel, by decide +kernel, by unfold CallReady; decide +kernel⟩

theorem test_premises_ModeCalls_1 :
    (let s := K9.l1[0]'(by decide); let c := K9.l11[0]'(by decide); s.dram.wf = true ∧ CallReady s c Role.maintainer ∧ inGroup s = false ∧ s.glb.state = MState.stop ∧ s.glb.pendCmd ≠ some ModeCmd.startWarm) ∧
    (let s := K9.l1[0]'(by decide); let c := K9.l11[0]'(by decide); s.dram.wf = true ∧ CallReady s c Role.maintainer ∧ inGroup s = false ∧ s.glb.state = MState.stop ∧ s.glb.pendCmd ≠ some ModeCmd.startCold) ∧
    (let s := K9.l1[0]'(by decide); let c := K9.l11[0]'(by decide); s.dram.wf = true ∧ CallReady s c Role.maintainer ∧ inGroup s = false ∧ s.glb.state = MState.stop ∧ s.glb.pendCmd ≠ some ModeCmd.dormant ∧ s.pin.vstbyLow = false ∧ s.upd.act = none ∧ s.upd.waiting = []) ∧
    (let s := K9.l1[6]'(by decide); let c := K9.l11[0]'(by decide); s.dram.wf = true ∧ CallReady s c Role.maintainer ∧ inGroup s = false ∧ s.glb.state = MState.stop ∧ s.glb.pendCmd ≠ some ModeCmd.dormant ∧ (s.pin.vstbyLow = true ∨ s.upd.act ≠ none)) ∧
    (let s := K9.l1[0]'(by decide); let c := K9.l11[0]'(by decide); s.dram.wf = true ∧ CallReady s c Role.maintainer ∧ inGroup s = false ∧ s.glb.state = MState.stop ∧ s.glb.pendCmd = none) ∧
    (let s := K9.l1[1]'(by decide); let c := K9.l11[0]'(by decide); s.dram.wf = true ∧ CallReady s c Role.maintainer ∧ inGroup s = false ∧ (s.glb.state = MState.run ∨ s.glb.state = MState.hold) ∧ s.glb.pendCmd ≠ some ModeCmd.stop) ∧
    (let s := K9.l1[1]'(by decide); let c := K9.l11[0]'(by decide); s.dram.wf = true ∧ CallReady s c Role.maintainer ∧ inGroup s = false ∧ (s.glb.state = MState.run ∨ s.glb.state = MState.hold) ∧ s.glb.pendCmd ≠ some ModeCmd.dormant) ∧
    (let s := K9.l1[2]'(by decide); let c := K9.l11[0]'(by decide); s.dram.wf = true ∧ CallReady s c Role.maintainer ∧ inGroup s = false ∧ s.glb.state = MState.hold ∧ s.glb.pendCmd = none) := ⟨by unfold CallReady; decide +kernel, by unfold CallReady; decide +kernel, by unfold CallReady; decide +kernel, by unfold CallReady; decide +kernel, by unfold CallReady; decide +kernel, by unfold CallReady; decide +kernel, by unfold CallReady; decide +kernel, by unfold CallReady; decide +kernel⟩

theorem test_premises_ModeCalls_2 :
    (let s := K9.l1[3]'(by decide); let c := K9.l11[0]'(by decide); (s.glb.pendCmd).isSome = true ∧ s.dram.wf = true ∧ CallReady s c Role.engineer ∧ inGroup s = false) ∧
    (let s := K9.l1[1]'(by decide); let c := K9.l11[0]'(by decide); s.dram.wf = true ∧ CallReady s c Role.engineer ∧ inGroup s = false ∧ s.glb.state = MState.run ∧ s.glb.pendCmd ≠ some ModeCmd.hold) ∧
    (let s := K9.l1[2]'(by decide); let c := K9.l11[0]'(by decide); s.dram.wf = true ∧ CallReady s c Role.engineer ∧ inGroup s = false ∧ s.glb.state = MState.hold ∧ s.glb.pendCmd ≠ some ModeCmd.cont) ∧
    (let s := K9.l1[7]'(by decide); let c := K9.l11[0]'(by decide); let n := K9.l2[1]'(by decide); s.dram.wf = true ∧ CallReady s c Role.engineer ∧ inGroup s = false ∧ s.glb.state = MState.hold ∧ s.glb.pendCmd ≠ some (ModeCmd.step n) ∧ 1 ≤ n ∧ n ≤ 1024 ∧ s.glb.holdDrained = true ∧ s.glb.stepping = false) ∧
    (let s := K9.l1[8]'(by decide); let c := K9.l11[0]'(by decide); let n := K9.l2[1]'(by decide); s.dram.wf = true ∧ CallReady s c Role.engineer ∧ inGroup s = false ∧ s.glb.state = MState.hold ∧ s.glb.pendCmd ≠ some (ModeCmd.step n) ∧ 1 ≤ n ∧ n ≤ 1024 ∧ s.glb.stepping = true) ∧
    (let s := K9.l1[2]'(by decide); let c := K9.l11[0]'(by decide); let n := K9.l2[0]'(by decide); s.dram.wf = true ∧ CallReady s c Role.engineer ∧ inGroup s = false ∧ s.glb.state = MState.hold ∧ s.glb.pendCmd ≠ some (ModeCmd.step n) ∧ (n = 0 ∨ 1024 < n)) ∧
    (let s := K9.l1[11]'(by decide); let c := K9.l11[0]'(by decide); s.dram.wf = true ∧ CallReady s c Role.maintainer ∧ inGroup s = true ∧ s.grp.formed = false) ∧
    (let s := K9.l1[9]'(by decide); let c := K9.l11[0]'(by decide); s.dram.wf = true ∧ CallReady s c Role.maintainer ∧ inGroup s = true ∧ s.grp.formed = true ∧ (s.grp.role = GRole.standby ∨ s.grp.role = GRole.arbiter)) := ⟨by unfold CallReady; decide +kernel, by unfold CallReady; decide +kernel, by unfold CallReady; decide +kernel, by unfold CallReady; decide +kernel, by unfold CallReady; decide +kernel, by unfold CallReady; decide +kernel, by unfold CallReady; decide +kernel, by unfold CallReady; decide +kernel⟩

theorem test_premises_ModeCalls_3 :
    (let s := K9.l1[0]'(by decide); let c := K9.l11[2]'(by decide); let sid := K9.l4[1]'(by decide); let v := K9.l6[0]'(by decide); ∃ code ∈ [qGood, qUninit, qStale, qCommLost, qSubst, qInvalid], ∃ r ∈ (sigRec s.ci.act sid).toList, s.dram.wf = true ∧ CallReady s c Role.engineer ∧ inGroup s = false ∧ (s.glb.state = MState.run ∨ s.glb.state = MState.stop ∨ s.glb.state = MState.hold) ∧ r.forceAllowed = true ∧ r.voted = false ∧ outOfRange r (rawOf r.t v) = false ∧ r.safe = true ∧ roleOf s c.session ≠ Role.safetyEngineer) ∧
    (let s := K9.l1[0]'(by decide); let c := K9.l11[0]'(by decide); let sid := K9.l4[0]'(by decide); let v := K9.l6[0]'(by decide); ∃ code ∈ [qGood, qUninit, qStale, qCommLost, qSubst, qInvalid], ∃ r ∈ (sigRec s.ci.act sid).toList, s.dram.wf = true ∧ CallReady s c Role.engineer ∧ inGroup s = false ∧ (s.glb.state = MState.run ∨ s.glb.state = MState.stop ∨ s.glb.state = MState.hold) ∧ r.forceAllowed = true ∧ r.voted = false ∧ outOfRange r (rawOf r.t v) = false ∧ (r.safe = true → roleOf s c.session = Role.safetyEngineer) ∧ (willBeForced s sid = true ∨ heldForces s < 1024)) ∧
    (let s := K9.l1[0]'(by decide); let c := K9.l11[0]'(by decide); let sid := K9.l4[2]'(by decide); s.dram.wf = true ∧ CallReady s c Role.engineer ∧ inGroup s = false ∧ (s.glb.state = MState.run ∨ s.glb.state = MState.stop ∨ s.glb.state = MState.hold) ∧ sigRec s.ci.act sid = none) ∧
    (let s := K9.l1[1]'(by decide); let c := K9.l11[0]'(by decide); let sid := K9.l4[0]'(by decide); ∃ r ∈ (sigRec s.ci.act sid).toList, s.dram.wf = true ∧ CallReady s c Role.engineer ∧ inGroup s = false ∧ (s.glb.state = MState.run ∨ s.glb.state = MState.stop ∨ s.glb.state = MState.hold) ∧ (r.safe = true → roleOf s c.session = Role.safetyEngineer) ∧ willBeForced s sid = true) ∧
    (let s := K9.l1[0]'(by decide); let c := K9.l11[0]'(by decide); let sid := K9.l4[0]'(by decide); s.dram.wf = true ∧ CallReady s c Role.engineer ∧ inGroup s = false ∧ (s.glb.state = MState.run ∨ s.glb.state = MState.stop ∨ s.glb.state = MState.hold) ∧ willBeForced s sid = false ∧ ∀ (r : SigRec), sigRec s.ci.act sid = some r → r.safe = false) ∧
    (let s := K9.l1[0]'(by decide); let c := K9.l11[0]'(by decide); s.dram.wf = true ∧ CallReady s c Role.engineer ∧ inGroup s = false ∧ (s.glb.state = MState.run ∨ s.glb.state = MState.stop ∨ s.glb.state = MState.hold)) ∧
    (let s := K9.l1[0]'(by decide); let c := K9.l11[0]'(by decide); s.dram.wf = true ∧ CallReady s c Role.viewer ∧ inDram (nthD s.tk.slots c.slot { }).addr (32 + c.respMax) = true ∧ 24 ≤ c.respMax) := ⟨by unfold CallReady; decide +kernel, by unfold CallReady; decide +kernel, by unfold CallReady; decide +kernel, by unfold CallReady; decide +kernel, by unfold CallReady; decide +kernel, by unfold CallReady; decide +kernel, by unfold CallReady; decide +kernel⟩

theorem test_premises_OtherCalls_1 :
    (let s := K10.l1[0]'(by decide); let c := K10.l7[0]'(by decide); s.dram.wf = true ∧ CallReady s c Role.engineer ∧ inGroup s = false ∧ s.tb.stepRefused = false) ∧
    (let s := K10.l1[3]'(by decide); let c := K10.l7[0]'(by decide); s.dram.wf = true ∧ CallReady s c Role.engineer ∧ inGroup s = false ∧ s.tb.stepRefused = true ∧ (s.glb.state = MState.run ∨ s.glb.state = MState.hold)) ∧
    (let s := K10.l1[4]'(by decide); let c := K10.l7[0]'(by decide); s.dram.wf = true ∧ CallReady s c Role.engineer ∧ inGroup s = false ∧ s.tb.stepRefused = true ∧ (s.glb.state = MState.stop ∨ s.glb.state = MState.config)) ∧
    (let s := K10.l1[0]'(by decide); let c := K10.l7[0]'(by decide); s.dram.wf = true ∧ CallReady s c Role.engineer ∧ inGroup s = false) ∧
    (let s := K10.l1[5]'(by decide); let c := K10.l7[0]'(by decide); s.dram.wf = true ∧ CallReady s c Role.maintainer ∧ inGroup s = false ∧ (s.glb.state = MState.run ∨ s.glb.state = MState.hold) ∧ 2 ≤ s.safe.absentRun) ∧
    (let s := K10.l1[0]'(by decide); let c := K10.l7[0]'(by decide); s.dram.wf = true ∧ CallReady s c Role.maintainer ∧ inGroup s = false ∧ (s.safe.absentRun < 2 ∨ s.glb.state = MState.stop)) ∧
    (let s := K10.l1[0]'(by decide); let c := K10.l7[0]'(by decide); s.dram.wf = true ∧ CallReady s c Role.maintainer ∧ inGroup s = false) ∧
    (let s := K10.l1[8]'(by decide); let c := K10.l7[0]'(by decide); s.dram.wf = true ∧ CallReady s c Role.maintainer ∧ inGroup s = true ∧ s.grp.formed = true ∧ s.grp.role = GRole.active ∧ s.grp.state = GState.nominal) := ⟨by unfold CallReady; decide +kernel, by unfold CallReady; decide +kernel, by unfold CallReady; decide +kernel, by unfold CallReady; decide +kernel, by unfold CallReady; decide +kernel, by unfold CallReady; decide +kernel, by unfold CallReady; decide +kernel, by unfold CallReady; decide +kernel⟩

theorem test_premises_OtherCalls_2 :
    (let s := K10.l1[9]'(by decide); let c := K10.l7[0]'(by decide); s.dram.wf = true ∧ CallReady s c Role.maintainer ∧ inGroup s = true ∧ s.grp.formed = true ∧ s.grp.role = GRole.active ∧ (s.grp.state = GState.forming ∨ s.grp.state = GState.single)) ∧
    (let s := K10.l1[8]'(by decide); let c := K10.l7[0]'(by decide); let n := K10.l2[1]'(by decide); s.dram.wf = true ∧ CallReady s c Role.maintainer ∧ inGroup s = true ∧ s.grp.formed = true ∧ s.grp.role = GRole.active ∧ 1 ≤ n ∧ n ≤ 3) ∧
    (let s := K10.l1[8]'(by decide); let c := K10.l7[0]'(by decide); s.dram.wf = true ∧ CallReady s c Role.engineer ∧ inGroup s = true ∧ s.grp.formed = true ∧ s.grp.role = GRole.active ∧ s.grp.state = GState.nominal) ∧
    (let s := K10.l1[10]'(by decide); let c := K10.l7[0]'(by decide); s.dram.wf = true ∧ CallReady s c Role.engineer ∧ inGroup s = true ∧ s.grp.formed = true ∧ s.grp.role = GRole.active ∧ s.grp.state = GState.maintenance ∧ s.glb.state = MState.run) ∧
    (let s := K10.l1[6]'(by decide); let c := K10.l7[0]'(by decide); s.dram.wf = true ∧ CallReady s c Role.maintainer ∧ bit s.pgv.portPowered 2 = true ∧ s.eth.ports.length = 3) ∧
    (let s := K10.l1[7]'(by decide); let c := K10.l7[0]'(by decide); s.dram.wf = true ∧ CallReady s c Role.maintainer ∧ bit s.pgv.portPowered 2 = false ∧ headroom s < 8) ∧
    (let s := K10.l1[0]'(by decide); let c := K10.l7[0]'(by decide); s.dram.wf = true ∧ CallReady s c Role.maintainer ∧ s.eth.ports.length = 3) ∧
    (let s := K10.l1[12]'(by decide); let c := K10.l7[0]'(by decide); let k := K10.l5[0]'(by decide); s.dram.wf = true ∧ CallReady s c Role.maintainer ∧ k.seq ≤ s.cul.cur.keystoreFloor) := ⟨by unfold CallReady; decide +kernel, by unfold CallReady; decide +kernel, by unfold CallReady; decide +kernel, by unfold CallReady; decide +kernel, by unfold CallReady; decide +kernel, by unfold CallReady; decide +kernel, by unfold CallReady; decide +kernel, by unfold CallReady; decide +kernel⟩

theorem test_premises_OtherCalls_3 :
    (let s := K10.l1[0]'(by decide); let c := K10.l7[0]'(by decide); let k := K10.l5[0]'(by decide); let i := K10.l2[0]'(by decide); s.dram.wf = true ∧ CallReady s c Role.maintainer ∧ k.formOk = true ∧ 1 ≤ k.keys.length ∧ k.keys.length ≤ 64 ∧ i < 4 ∧ nthD s.tk.fuses.roots i none = some k.root ∧ bit s.tk.fuses.revoked i = false ∧ k.sig.magicOk = true ∧ k.sig.keyClass = 5 ∧ k.sig.ecdsaOk = true ∧ k.sig.mldsaOk = true ∧ s.cul.cur.keystoreFloor < k.seq ∧ k.revokeRoot = 0 ∧ k.newRoot = none) ∧
    (let s := K10.l1[0]'(by decide); let c := K10.l7[0]'(by decide); let tok := K10.l4[0]'(by decide); ∃ k ∈ (keyFor s 3 tok.sig).toList, s.dram.wf = true ∧ CallReady s c Role.none ∧ s.tk.lockEnd = none ∧ (k.bind = 0 ∨ k.bind = s.tk.fuses.serial) ∧ tok.formOk = true ∧ tok.serial = s.tk.fuses.serial ∧ tok.sig.magicOk = true ∧ tok.sig.len = 3456 ∧ tok.sig.keyClass = 3 ∧ tok.sig.ecdsaOk = true ∧ tok.sig.mldsaOk = true ∧ tok.notBefore < tok.notAfter ∧ BitVec.toNat tok.notAfter ≤ BitVec.toNat tok.notBefore + 28800000000000 ∧ s.tk.sessions.length < 8 ∧ (s.tb.valid = true ∧ tok.notBefore ≤ s.tb.ttc ∧ s.tb.ttc < tok.notAfter ∨ s.tb.valid = false ∧ s.tb.ttc ≤ tok.notAfter)) ∧
    (let s := K10.l1[0]'(by decide); let c := K10.l7[0]'(by decide); let tok := K10.l4[2]'(by decide); ∃ k ∈ (keyFor s 3 tok.sig).toList, s.dram.wf = true ∧ CallReady s c Role.none ∧ s.tk.lockEnd = none ∧ (k.bind = 0 ∨ k.bind = s.tk.fuses.serial) ∧ tok.formOk = true ∧ tok.serial = s.tk.fuses.serial ∧ tok.sig.magicOk = true ∧ tok.sig.len = 3456 ∧ tok.sig.keyClass = 3 ∧ tok.sig.ecdsaOk = true ∧ tok.sig.mldsaOk = true ∧ tok.notAfter ≤ tok.notBefore) ∧
    (let s := K10.l1[11]'(by decide); let c := K10.l7[0]'(by decide); s.dram.wf = true ∧ CallReady s c Role.none ∧ s.tk.lockEnd.isSome = true) ∧
    (let s := K10.l1[0]'(by decide); let c := K10.l7[0]'(by decide); s.dram.wf = true ∧ CallReady s c Role.viewer ∧ (∀ x ∈ s.tk.slots, x.busy = false) ∧ s.tk.maintBy ≠ some c.session) ∧
    (let s := K10.l1[0]'(by decide); let c := K10.l7[0]'(by decide); let off := K10.l2[0]'(by decide); let len := K10.l2[0]'(by decide); s.dram.wf = true ∧ CallReady s c Role.none ∧ s.ci.activeValid = true ∧ inDram (nthD s.tk.slots c.slot { }).addr (32 + c.respMax) = true ∧ len ≤ c.respMax ∧ off + len ≤ 32 * s.ci.act.sigs.length) ∧
    (let s := K10.l1[0]'(by decide); let c := K10.l7[0]'(by decide); s.dram.wf = true ∧ CallReady s c Role.none ∧ s.ci.shadow ≠ ShadowSt.valid) ∧
    (let s := K10.l1[0]'(by decide); let c := K10.l7[0]'(by decide); s.dram.wf = true ∧ CallReady s c Role.none ∧ s.rst.clusterHeld = false) := ⟨by unfold CallReady; decide +kernel, by unfold CallReady; decide +kernel, by unfold CallReady; decide +kernel, by unfold CallReady; decide +kernel, by unfold CallReady; decide +kernel, by unfold CallReady; decide +kernel, by unfold CallReady; decide +kernel, by unfold CallReady; decide +kernel⟩

theorem test_premises_OtherCalls_4 :
    (let s := K10.l1[1]'(by decide); let c := K10.l7[0]'(by decide); s.dram.wf = true ∧ CallReady s c Role.engineer ∧ s.glb.state = MState.stop) ∧
    (let s := K10.l1[0]'(by decide); let c := K10.l7[0]'(by decide); s.dram.wf = true ∧ CallReady s c Role.engineer ∧ s.glb.state ≠ MState.stop) ∧
    (let s := K10.l1[2]'(by decide); let c := K10.l7[0]'(by decide); let n := K10.l3[0]'(by decide); let a := K10.l2[2]'(by decide); let len := K10.l2[0]'(by decide); s.dram.wf = true ∧ CallReady s c Role.engineer ∧ (s.fab.tile n).dbgEn = true ∧ 131072 ≤ a ∧ a + len ≤ 262144 ∧ len ≤ c.respMax ∧ inDram (nthD s.tk.slots c.slot { }).addr (32 + c.respMax) = true) ∧
    (let s := K10.l1[0]'(by decide); let c := K10.l7[0]'(by decide); let n := K10.l3[0]'(by decide); s.dram.wf = true ∧ CallReady s c Role.engineer ∧ (s.fab.tile n).dbgEn = false) ∧
    (let s := K10.l1[0]'(by decide); let h := K10.l6[1]'(by decide); s.dram.wf = true ∧ sessionOf s h = none) ∧
    (let s := K10.l1[3]'(by decide); let h := K10.l6[0]'(by decide); ∃ x ∈ (sessionOf s h).toList, s.dram.wf = true ∧ s.tb.valid = true ∧ s.tb.ttc ≤ x.notAfter ∧ BitVec.toNat (x.notAfter - s.tb.ttc) < 2 ^ 63 ∧ x.opEnd = none) ∧
    (let s := K10.l1[11]'(by decide); ∃ e ∈ (s.tk.lockEnd).toList, s.dram.wf = true ∧ s.tk.running = true ∧ s.glb.state ≠ MState.dormant ∧ e < 2 ^ 40 ∧ s.cul.opNs < 100000000) ∧
    (let s := K10.l1[0]'(by decide); s.dram.wf = true ∧ s.tk.lockEnd = none) := ⟨by unfold CallReady; decide +kernel, by unfold CallReady; decide +kernel, by unfold CallReady; decide +kernel, by unfold CallReady; decide +kernel, by decide +kernel, by decide +kernel, by decide +kernel, by decide +kernel⟩

theorem test_premises_RegisterCalls_1 :
    (let s := K11.l1[0]'(by decide); let c := K11.l13[0]'(by decide); let a := K11.l10[0]'(by decide); s.dram.wf = true ∧ CallReady s c Role.engineer ∧ tkMask (BitVec.toNat a) = 0) ∧
    (let s := K11.l1[0]'(by decide); let c := K11.l13[0]'(by decide); s.dram.wf = true ∧ CallReady s c Role.engineer) ∧
    (let s := K11.l1[0]'(by decide); let c := K11.l13[0]'(by decide); s.dram.wf = true ∧ CallReady s c Role.engineer ∧ FabOk s.fab) ∧
    (let s := K11.l1[0]'(by decide); let c := K11.l13[0]'(by decide); let v := K11.l10[0]'(by decide); s.dram.wf = true ∧ CallReady s c Role.engineer ∧ ((BitVec.extractLsb' 0 7 v).toNat < 4 ∨ 64 < (BitVec.extractLsb' 0 7 v).toNat)) ∧
    (let s := K11.l1[0]'(by decide); let c := K11.l13[0]'(by decide); let v := K11.l10[2]'(by decide); s.dram.wf = true ∧ CallReady s c Role.engineer ∧ 4 ≤ (BitVec.extractLsb' 0 7 v).toNat ∧ (BitVec.extractLsb' 0 7 v).toNat ≤ 64) ∧
    (let s := K11.l1[0]'(by decide); let c := K11.l13[0]'(by decide); s.dram.wf = true ∧ CallReady s c Role.engineer ∧ s.pin.powerGood = true ∧ s.pin.cutOff = false ∧ s.rst.moduleDue = false ∧ s.glb.state ≠ MState.dormant) ∧
    (let s := K11.l1[0]'(by decide); let c := K11.l13[0]'(by decide); s.dram.wf = true ∧ CallReady s c Role.engineer ∧ s.tk.sessions.length ≤ 8) ∧
    (let s := K11.l1[0]'(by decide); let c := K11.l13[0]'(by decide); let u := K11.l5[1]'(by decide); s.dram.wf = true ∧ CallReady s c Role.engineer ∧ 8 < u.toNat) := ⟨by unfold CallReady; decide +kernel, by unfold CallReady; decide +kernel, by unfold CallReady FabOk; decide +kernel, by unfold CallReady; decide +kernel, by unfold CallReady; decide +kernel, by unfold CallReady; decide +kernel, by unfold CallReady; decide +kernel, by unfold CallReady; decide +kernel⟩

theorem test_premises_RegisterCalls_2 :
    (let s := K11.l1[0]'(by decide); let c := K11.l13[0]'(by decide); let u := K11.l5[0]'(by decide); s.dram.wf = true ∧ CallReady s c Role.engineer ∧ u.toNat ≤ 8) ∧
    (let s := K11.l1[1]'(by decide); let c := K11.l13[0]'(by decide); s.dram.wf = true ∧ CallReady s c Role.engineer ∧ s.glb.state = MState.stop) ∧
    (let s := K11.l1[0]'(by decide); let c := K11.l13[0]'(by decide); s.dram.wf = true ∧ CallReady s c Role.engineer ∧ s.glb.state ≠ MState.stop ∧ s.glb.state ≠ MState.boot) ∧
    (let s := K11.l1[0]'(by decide); let c := K11.l13[0]'(by decide); let i := K11.l7[0]'(by decide); let lo := K11.l8[0]'(by decide); let hi := K11.l8[0]'(by decide); s.dram.wf = true ∧ CallReady s c Role.engineer ∧ (quotasNext s).length = 6 ∧ (setNth (setNth (quotasNext s) (2 * ↑i) lo.toNat) (2 * ↑i + 1) hi.toNat).sum ≤ 1024) ∧
    (let s := K11.l1[0]'(by decide); let c := K11.l13[0]'(by decide); let i := K11.l7[0]'(by decide); let lo := K11.l8[0]'(by decide); let hi := K11.l8[1]'(by decide); s.dram.wf = true ∧ CallReady s c Role.engineer ∧ (quotasNext s).length = 6 ∧ 1024 < (setNth (setNth (quotasNext s) (2 * ↑i) lo.toNat) (2 * ↑i + 1) hi.toNat).sum) ∧
    (let s := K11.l1[0]'(by decide); let c := K11.l13[0]'(by decide); let l := K11.l9[0]'(by decide); s.dram.wf = true ∧ CallReady s c Role.engineer ∧ (l.toNat < 160 ∨ 480 < l.toNat)) ∧
    (let s := K11.l1[0]'(by decide); let c := K11.l13[0]'(by decide); let l := K11.l9[1]'(by decide); s.dram.wf = true ∧ CallReady s c Role.engineer ∧ 160 ≤ l.toNat ∧ l.toNat ≤ 480 ∧ l.toNat < reservation s.ci.act) ∧
    (let s := K11.l1[0]'(by decide); let c := K11.l13[0]'(by decide); let l := K11.l9[2]'(by decide); s.dram.wf = true ∧ CallReady s c Role.engineer ∧ 160 ≤ l.toNat ∧ l.toNat ≤ 480 ∧ reservation s.ci.act ≤ l.toNat) := ⟨by unfold CallReady; decide +kernel, by unfold CallReady; decide +kernel, by unfold CallReady; decide +kernel, by unfold CallReady; decide +kernel, by unfold CallReady; decide +kernel, by unfold CallReady; decide +kernel, by unfold CallReady; decide +kernel, by unfold CallReady; decide +kernel⟩

theorem test_premises_RegisterCalls_3 :
    (let s := K11.l1[0]'(by decide); let c := K11.l13[3]'(by decide); s.dram.wf = true ∧ c.slot < s.tk.slots.length ∧ (nthD s.tk.slots c.slot { }).busy = false ∧ sessionOf s c.session = none ∧ s.rst.clusterHeld = false) ∧
    (let s := K11.l1[0]'(by decide); let c := K11.l13[4]'(by decide); s.dram.wf = true ∧ c.slot < s.tk.slots.length ∧ (nthD s.tk.slots c.slot { }).busy = true ∧ s.rst.clusterHeld = false) ∧
    (let s := K11.l1[4]'(by decide); s.dram.wf = true ∧ s.rst.clusterHeld = true) := ⟨by decide +kernel, by decide +kernel, by decide +kernel⟩

theorem test_premises_Downloads_1 :
    (let s := K12.l1[1]'(by decide); s.upd.slots.length = 5 ∧ s.upd.sessions.length = 5 ∧ s.cul.boot.length = 5 ∧ s.tk.running = false) ∧
    (let s := K12.l1[0]'(by decide); let h := K12.l5[0]'(by decide); let t := K12.l3[0]'(by decide); let m := K12.l6[0]'(by decide); s.upd.slots.length = 5 ∧ s.upd.sessions.length = 5 ∧ s.cul.boot.length = 5 ∧ s.tk.running = true ∧ imgTypeOf m.typeCode = some t ∧ manifestForm s h m = Status.ok ∧ (entOf s t).floor ≤ m.version ∧ m.delta = false ∧ (entOf s t).state ≠ 1 ∧ activating s t = false ∧ updSession s t = none ∧ (otherSlot s t).st = SlotSt.empty ∧ ((activeSlot s t).img.version ≠ m.version ∨ (activeSlot s t).img.hash ≠ m.targetHash) ∧ m.targetLen ≤ t.size ∧ m.pkgLen ≤ t.size) ∧
    (let s := K12.l1[15]'(by decide); let h := K12.l5[0]'(by decide); let t := K12.l3[0]'(by decide); let m := K12.l6[0]'(by decide); s.upd.slots.length = 5 ∧ s.upd.sessions.length = 5 ∧ s.cul.boot.length = 5 ∧ s.tk.running = true ∧ imgTypeOf m.typeCode = some t ∧ manifestForm s h m = Status.ok ∧ m.version < (entOf s t).floor) ∧
    (let s := K12.l1[0]'(by decide); let t := K12.l3[0]'(by decide); let m := K12.l6[2]'(by decide); s.upd.slots.length = 5 ∧ s.upd.sessions.length = 5 ∧ s.cul.boot.length = 5 ∧ s.tk.running = true ∧ imgTypeOf m.typeCode = some t ∧ m.formOk = false) ∧
    (let s := K12.l1[0]'(by decide); s.upd.slots.length = 5 ∧ s.upd.sessions.length = 5 ∧ s.cul.boot.length = 5) ∧
    (let s := K12.l1[5]'(by decide); let h := K12.l5[0]'(by decide); ∃ t ∈ (imgTypeOf h.typeCode).toList, ∃ x ∈ (updSession s t).toList, let e := K12.l9[0]'(by decide); s.upd.slots.length = 5 ∧ s.upd.sessions.length = 5 ∧ s.cul.boot.length = 5 ∧ s.tk.running = true ∧ h.formOk = true ∧ revokedSession s t = false ∧ slotRevoked s t h = false ∧ x.manifest.version = h.version ∧ x.manifest.targetHash = h.target ∧ (otherSlot s t).st = SlotSt.partly ∧ x.resumed = false ∧ e.block ∉ x.got ∧ e.block < x.manifest.blockCount ∧ e.seg < 4 ∧ (∀ y ∈ x.segs, ¬(y.block = e.block ∧ y.seg = e.seg)) ∧ allSegs (x.segs ++ [e]) e.block = false) ∧
    (let s := K12.l1[6]'(by decide); let h := K12.l5[0]'(by decide); ∃ t ∈ (imgTypeOf h.typeCode).toList, ∃ x ∈ (updSession s t).toList, let e := K12.l9[0]'(by decide); (wholeBlock (x.segs ++ [e]) x.manifest e.block).isSome = true ∧ s.upd.slots.length = 5 ∧ s.upd.sessions.length = 5 ∧ s.cul.boot.length = 5 ∧ s.tk.running = true ∧ h.formOk = true ∧ revokedSession s t = false ∧ slotRevoked s t h = false ∧ x.manifest.version = h.version ∧ x.manifest.targetHash = h.target ∧ (otherSlot s t).st = SlotSt.partly ∧ x.resumed = false ∧ e.block ∉ x.got ∧ e.block < x.manifest.blockCount ∧ e.seg < 4 ∧ (∀ y ∈ x.segs, ¬(y.block = e.block ∧ y.seg = e.seg)) ∧ allSegs (x.segs ++ [e]) e.block = true ∧ neighbours s = []) ∧
    (let s := K12.l1[7]'(by decide); let h := K12.l5[0]'(by decide); ∃ t ∈ (imgTypeOf h.typeCode).toList, ∃ x ∈ (updSession s t).toList, let e := K12.l9[0]'(by decide); s.upd.slots.length = 5 ∧ s.upd.sessions.length = 5 ∧ s.cul.boot.length = 5 ∧ s.tk.running = true ∧ h.formOk = true ∧ revokedSession s t = false ∧ slotRevoked s t h = false ∧ x.manifest.version = h.version ∧ x.manifest.targetHash = h.target ∧ (otherSlot s t).st = SlotSt.partly ∧ x.resumed = false ∧ e.block ∉ x.got ∧ e.block < x.manifest.blockCount ∧ e.seg < 4 ∧ (∀ y ∈ x.segs, ¬(y.block = e.block ∧ y.seg = e.seg)) ∧ wholeBlock (x.segs ++ [e]) x.manifest e.block = none ∧ allSegs (x.segs ++ [e]) e.block = true) := ⟨by decide +kernel, by decide +kernel, by decide +kernel, by decide +kernel, by decide +kernel, by decide +kernel, by decide +kernel, by decide +kernel⟩

theorem test_premises_Downloads_2 :
    (let s := K12.l1[0]'(by decide); s.upd.slots.length = 5 ∧ s.upd.sessions.length = 5 ∧ s.cul.boot.length = 5 ∧ s.tk.running = true) ∧
    (let s := K12.l1[18]'(by decide); let h := K12.l5[0]'(by decide); ∃ t ∈ (imgTypeOf h.typeCode).toList, s.upd.slots.length = 5 ∧ s.upd.sessions.length = 5 ∧ s.cul.boot.length = 5 ∧ slotRevoked s t h = true ∧ updSession s t = none ∧ s.tk.running = true ∧ h.formOk = true) ∧
    (let s := K12.l1[18]'(by decide); let src := K12.l4[0]'(by decide); let h := K12.l5[0]'(by decide); ∃ t ∈ (imgTypeOf h.typeCode).toList, let ts := K12.l11[0]'(by decide); ∃ i ∈ [Instr.commandActivate src h ts, Instr.commandConfirm src h ts, Instr.commandRevert src h ts, Instr.commandAbort src h ts], s.upd.slots.length = 5 ∧ s.upd.sessions.length = 5 ∧ s.cul.boot.length = 5 ∧ slotRevoked s t h = true ∧ updSession s t = none ∧ s.tk.running = true ∧ h.formOk = true ∧ 1 ≤ ts.length ∧ ts.length ≤ 8) ∧
    (let s := K12.l1[9]'(by decide); let t := K12.l3[0]'(by decide); let v := K12.l10[0]'(by decide); ∃ m ∈ ((otherSlot s t).manifest).toList, s.upd.slots.length = 5 ∧ s.upd.sessions.length = 5 ∧ s.cul.boot.length = 5 ∧ (otherSlot s t).st = SlotSt.verifying ∧ s.upd.waiting = [] ∧ verifyStatus s t m v = Status.ok) ∧
    (let s := K12.l1[9]'(by decide); let t := K12.l3[0]'(by decide); let v := K12.l10[1]'(by decide); ∃ m ∈ ((otherSlot s t).manifest).toList, s.upd.slots.length = 5 ∧ s.upd.sessions.length = 5 ∧ s.cul.boot.length = 5 ∧ (otherSlot s t).st = SlotSt.verifying ∧ s.upd.waiting = [] ∧ verifyStatus s t m v ≠ Status.ok) ∧
    (let s := K12.l1[0]'(by decide); let t := K12.l3[0]'(by decide); s.upd.slots.length = 5 ∧ s.upd.sessions.length = 5 ∧ s.cul.boot.length = 5 ∧ (otherSlot s t).manifest = none) ∧
    (let s := K12.l1[5]'(by decide); let t := K12.l3[0]'(by decide); ∃ x ∈ (updSession s t).toList, s.upd.slots.length = 5 ∧ s.upd.sessions.length = 5 ∧ s.cul.boot.length = 5 ∧ s.cul.optime.toNat < x.lastUse + 6000) ∧
    (let s := K12.l1[7]'(by decide); let t := K12.l3[0]'(by decide); ∃ x ∈ (updSession s t).toList, s.upd.slots.length = 5 ∧ s.upd.sessions.length = 5 ∧ s.cul.boot.length = 5 ∧ x.lastUse + 6000 ≤ s.cul.optime.toNat) := ⟨by decide +kernel, by decide +kernel, by decide +kernel, by decide +kernel, by decide +kernel, by decide +kernel, by decide +kernel, by decide +kernel⟩

theorem test_premises_Downloads_3 :
    (let s := K12.l1[5]'(by decide); let src := K12.l4[0]'(by decide); let h := K12.l5[0]'(by decide); ∃ t ∈ (imgTypeOf h.typeCode).toList, let ts := K12.l11[0]'(by decide); let r := K12.l14[4]'(by decide); let tok := K12.l16[1]'(by decide); ∃ x ∈ (updSession s t).toList, s.upd.slots.length = 5 ∧ s.upd.sessions.length = 5 ∧ s.cul.boot.length = 5 ∧ s.tk.running = true ∧ h.formOk = true ∧ 1 ≤ ts.length ∧ ts.length ≤ 8 ∧ commandRole s ts = (s, r, tok) ∧ slotRevoked s t h = false ∧ Role.maintainer.rank ≤ r.rank ∧ x.owner = src) ∧
    (let s := K12.l1[5]'(by decide); let src := K12.l4[1]'(by decide); let h := K12.l5[0]'(by decide); ∃ t ∈ (imgTypeOf h.typeCode).toList, let ts := K12.l11[0]'(by decide); let r := K12.l14[4]'(by decide); let tok := K12.l16[1]'(by decide); ∃ x ∈ (updSession s t).toList, s.upd.slots.length = 5 ∧ s.upd.sessions.length = 5 ∧ s.cul.boot.length = 5 ∧ s.tk.running = true ∧ h.formOk = true ∧ 1 ≤ ts.length ∧ ts.length ≤ 8 ∧ commandRole s ts = (s, r, tok) ∧ slotRevoked s t h = false ∧ Role.maintainer.rank ≤ r.rank ∧ x.owner ≠ src) ∧
    (let s := K12.l1[5]'(by decide); let t := K12.l3[0]'(by decide); let c := K12.l12[0]'(by decide); (updSession s t).isSome = true ∧ s.upd.slots.length = 5 ∧ s.upd.sessions.length = 5 ∧ s.cul.boot.length = 5 ∧ s.dram.wf = true ∧ CallReady s c Role.maintainer) ∧
    (let s := K12.l1[0]'(by decide); let t := K12.l3[0]'(by decide); let c := K12.l12[0]'(by decide); s.upd.slots.length = 5 ∧ s.upd.sessions.length = 5 ∧ s.cul.boot.length = 5 ∧ s.dram.wf = true ∧ CallReady s c Role.maintainer ∧ updSession s t = none) ∧
    (let s := K12.l1[0]'(by decide); let c := K12.l12[0]'(by decide); s.upd.slots.length = 5 ∧ s.upd.sessions.length = 5 ∧ s.cul.boot.length = 5 ∧ s.dram.wf = true ∧ CallReady s c Role.maintainer) ∧
    (let s := K12.l1[0]'(by decide); let h := K12.l5[2]'(by decide); let c := K12.l12[0]'(by decide); let e := K12.l9[0]'(by decide); s.upd.slots.length = 5 ∧ s.upd.sessions.length = 5 ∧ s.cul.boot.length = 5 ∧ s.dram.wf = true ∧ CallReady s c Role.maintainer ∧ s.tk.running = true ∧ (match exec (.segment h e) s with | .next _ => true | _ => false) = true) ∧
    (let s := K12.l1[4]'(by decide); let t := K12.l3[0]'(by decide); let c := K12.l12[0]'(by decide); ((updSlot s t false).manifest).isSome = true ∧ s.upd.slots.length = 5 ∧ s.upd.sessions.length = 5 ∧ s.cul.boot.length = 5 ∧ s.dram.wf = true ∧ CallReady s c Role.viewer ∧ inDram (nthD s.tk.slots c.slot { }).addr (32 + c.respMax) = true ∧ 7 ≤ c.respMax) := ⟨by decide +kernel, by decide +kernel, by unfold CallReady; decide +kernel, by unfold CallReady; decide +kernel, by unfold CallReady; decide +kernel, by unfold CallReady; decide +kernel, by unfold CallReady; decide +kernel⟩

theorem test_premises_Activations_1 :
    (let s := K12.l1[1]'(by decide); s.upd.slots.length = 5 ∧ s.upd.sessions.length = 5 ∧ s.cul.boot.length = 5 ∧ s.tk.running = false) ∧
    (let s := K12.l1[10]'(by decide); let h := K12.l5[0]'(by decide); ∃ t ∈ (imgTypeOf h.typeCode).toList, let ts := K12.l11[0]'(by decide); let r := K12.l14[4]'(by decide); let tok := K12.l16[1]'(by decide); ∃ m ∈ ((otherSlot s t).manifest).toList, s.upd.slots.length = 5 ∧ s.upd.sessions.length = 5 ∧ s.cul.boot.length = 5 ∧ s.tk.running = true ∧ h.formOk = true ∧ 1 ≤ ts.length ∧ ts.length ≤ 8 ∧ commandRole s ts = (s, r, tok) ∧ slotRevoked s t h = false ∧ updSession s t = none ∧ (t = ImgType.ur ∨ t = ImgType.ci) ∧ (activateRole s t).rank ≤ r.rank ∧ (otherSlot s t).st = SlotSt.verified ∧ m.version = h.version ∧ m.targetHash = h.target ∧ (entOf s t).floor ≤ (otherSlot s t).img.version ∧ (keyFor s t.keyClass (otherSlot s t).img.sig).isSome = true ∧ actBusy s = false ∧ (s.glb.state = MState.run ∨ s.glb.state = MState.stop)) ∧
    (let s := K12.l1[2]'(by decide); let h := K12.l5[1]'(by decide); ∃ t ∈ (imgTypeOf h.typeCode).toList, let ts := K12.l11[0]'(by decide); let r := K12.l14[4]'(by decide); let tok := K12.l16[1]'(by decide); s.upd.slots.length = 5 ∧ s.upd.sessions.length = 5 ∧ s.cul.boot.length = 5 ∧ s.tk.running = true ∧ h.formOk = true ∧ 1 ≤ ts.length ∧ ts.length ≤ 8 ∧ commandRole s ts = (s, r, tok) ∧ slotRevoked s t h = false ∧ updSession s t = none ∧ t = ImgType.ci ∧ (otherSlot s t).manifest = none ∧ (s.ci.swap = SwapSt.proposed ∨ s.ci.swap = SwapSt.committed) ∧ (activateRole s t).rank ≤ r.rank) ∧
    (let s := K12.l1[0]'(by decide); let h := K12.l5[0]'(by decide); ∃ t ∈ (imgTypeOf h.typeCode).toList, let ts := K12.l11[0]'(by decide); let r := K12.l14[4]'(by decide); let tok := K12.l16[1]'(by decide); s.upd.slots.length = 5 ∧ s.upd.sessions.length = 5 ∧ s.cul.boot.length = 5 ∧ s.tk.running = true ∧ h.formOk = true ∧ 1 ≤ ts.length ∧ ts.length ≤ 8 ∧ commandRole s ts = (s, r, tok) ∧ slotRevoked s t h = false ∧ updSession s t = none ∧ (otherSlot s t).manifest = none ∧ (t = ImgType.ci → s.ci.swap ≠ SwapSt.proposed ∧ s.ci.swap ≠ SwapSt.committed)) ∧
    (let s := K12.l1[12]'(by decide); let h := K12.l5[0]'(by decide); ∃ t ∈ (imgTypeOf h.typeCode).toList, let ts := K12.l11[0]'(by decide); let r := K12.l14[4]'(by decide); let tok := K12.l16[1]'(by decide); s.upd.slots.length = 5 ∧ s.upd.sessions.length = 5 ∧ s.cul.boot.length = 5 ∧ s.tk.running = true ∧ h.formOk = true ∧ 1 ≤ ts.length ∧ ts.length ≤ 8 ∧ commandRole s ts = (s, r, tok) ∧ slotRevoked s t h = false ∧ updSession s t = none ∧ Role.engineer.rank ≤ r.rank ∧ (entOf s t).state = 1 ∧ nthD s.upd.trialStart t.idx 0 + 6000 ≤ s.cul.optime.toNat) ∧
    (let s := K12.l1[0]'(by decide); let h := K12.l5[0]'(by decide); ∃ t ∈ (imgTypeOf h.typeCode).toList, let ts := K12.l11[0]'(by decide); let r := K12.l14[4]'(by decide); let tok := K12.l16[1]'(by decide); s.upd.slots.length = 5 ∧ s.upd.sessions.length = 5 ∧ s.cul.boot.length = 5 ∧ s.tk.running = true ∧ h.formOk = true ∧ 1 ≤ ts.length ∧ ts.length ≤ 8 ∧ commandRole s ts = (s, r, tok) ∧ slotRevoked s t h = false ∧ updSession s t = none ∧ (entOf s t).state ≠ 1) ∧
    (let s := K12.l1[12]'(by decide); let h := K12.l5[0]'(by decide); ∃ t ∈ (imgTypeOf h.typeCode).toList, let ts := K12.l11[0]'(by decide); let r := K12.l14[4]'(by decide); let tok := K12.l16[1]'(by decide); s.upd.slots.length = 5 ∧ s.upd.sessions.length = 5 ∧ s.cul.boot.length = 5 ∧ s.tk.running = true ∧ h.formOk = true ∧ 1 ≤ ts.length ∧ ts.length ≤ 8 ∧ commandRole s ts = (s, r, tok) ∧ slotRevoked s t h = false ∧ updSession s t = none ∧ t = ImgType.ur ∧ Role.maintainer.rank ≤ r.rank ∧ (entOf s t).state = 1 ∧ actBusy s = false) ∧
    (let s := K12.l1[10]'(by decide); let t := K12.l3[0]'(by decide); let c := K12.l12[0]'(by decide); s.upd.slots.length = 5 ∧ s.upd.sessions.length = 5 ∧ s.cul.boot.length = 5 ∧ s.dram.wf = true ∧ CallReady s c Role.safetyEngineer ∧ (t = ImgType.ur ∨ t = ImgType.ci) ∧ (otherSlot s t).st = SlotSt.verified ∧ (entOf s t).floor ≤ (otherSlot s t).img.version ∧ (keyFor s t.keyClass (otherSlot s t).img.sig).isSome = true ∧ actBusy s = false ∧ (s.glb.state = MState.run ∨ s.glb.state = MState.stop)) := ⟨by decide +kernel, by decide +kernel, by decide +kernel, by decide +kernel, by decide +kernel, by decide +kernel, by decide +kernel, by unfold CallReady; decide +kernel⟩

theorem test_premises_Activations_2 :
    (let s := K12.l1[0]'(by decide); let t := K12.l3[0]'(by decide); let c := K12.l12[0]'(by decide); s.upd.slots.length = 5 ∧ s.upd.sessions.length = 5 ∧ s.cul.boot.length = 5 ∧ s.dram.wf = true ∧ CallReady s c Role.safetyEngineer ∧ (otherSlot s t).st = SlotSt.empty ∧ s.upd.act = none) ∧
    (let s := K12.l1[12]'(by decide); let t := K12.l3[0]'(by decide); let c := K12.l12[0]'(by decide); s.upd.slots.length = 5 ∧ s.upd.sessions.length = 5 ∧ s.cul.boot.length = 5 ∧ s.dram.wf = true ∧ CallReady s c Role.engineer ∧ (entOf s t).state = 1 ∧ nthD s.upd.trialStart t.idx 0 + 6000 ≤ s.cul.optime.toNat) ∧
    (let s := K12.l1[3]'(by decide); let t := K12.l3[0]'(by decide); let c := K12.l12[0]'(by decide); s.upd.slots.length = 5 ∧ s.upd.sessions.length = 5 ∧ s.cul.boot.length = 5 ∧ s.dram.wf = true ∧ CallReady s c Role.engineer ∧ s.cul.optime.toNat < nthD s.upd.trialStart t.idx 0 + 6000) ∧
    (let s := K12.l1[12]'(by decide); let t := K12.l3[0]'(by decide); let c := K12.l12[0]'(by decide); s.upd.slots.length = 5 ∧ s.upd.sessions.length = 5 ∧ s.cul.boot.length = 5 ∧ s.dram.wf = true ∧ CallReady s c Role.maintainer ∧ t = ImgType.ur ∧ (entOf s t).state = 1 ∧ actBusy s = false) ∧
    (let s := K12.l1[0]'(by decide); let t := K12.l3[0]'(by decide); let c := K12.l12[0]'(by decide); s.upd.slots.length = 5 ∧ s.upd.sessions.length = 5 ∧ s.cul.boot.length = 5 ∧ s.dram.wf = true ∧ CallReady s c Role.maintainer ∧ (entOf s t).state ≠ 1) ∧
    (let s := K12.l1[14]'(by decide); let t := K12.l3[0]'(by decide); s.upd.slots.length = 5 ∧ s.upd.sessions.length = 5 ∧ s.cul.boot.length = 5 ∧ (entOf s t).state = 1 ∧ healthy s t = true ∧ s.cul.optime.toNat ≤ s.upd.bootTick + 600) ∧
    (let s := K12.l1[0]'(by decide); let t := K12.l3[0]'(by decide); s.upd.slots.length = 5 ∧ s.upd.sessions.length = 5 ∧ s.cul.boot.length = 5 ∧ (entOf s t).state ≠ 1) ∧
    (let s := K12.l1[12]'(by decide); let t := K12.l3[0]'(by decide); s.upd.slots.length = 5 ∧ s.upd.sessions.length = 5 ∧ s.cul.boot.length = 5 ∧ (entOf s t).state = 1 ∧ BitVec.toNat (entOf s t).lehrLeft ≤ s.cul.optime.toNat - s.upd.lehrTick) := ⟨by unfold CallReady; decide +kernel, by unfold CallReady; decide +kernel, by unfold CallReady; decide +kernel, by unfold CallReady; decide +kernel, by unfold CallReady; decide +kernel, by decide +kernel, by decide +kernel, by decide +kernel⟩

theorem test_premises_Activations_3 :
    (let s := K12.l1[14]'(by decide); let t := K12.l3[0]'(by decide); s.upd.slots.length = 5 ∧ s.upd.sessions.length = 5 ∧ s.cul.boot.length = 5 ∧ (entOf s t).state = 1 ∧ s.cul.optime.toNat - s.upd.lehrTick < BitVec.toNat (entOf s t).lehrLeft) ∧
    (let s := K12.l1[0]'(by decide); s.upd.slots.length = 5 ∧ s.upd.sessions.length = 5 ∧ s.cul.boot.length = 5 ∧ s.ci.shadow ≠ ShadowSt.loading) ∧
    (let s := K12.l1[16]'(by decide); (s.upd.act).isSome = true ∧ s.upd.slots.length = 5 ∧ s.upd.sessions.length = 5 ∧ s.cul.boot.length = 5 ∧ s.ci.shadow = ShadowSt.loading ∧ inGroup s = false ∧ validate s (s.ci.offered.getD s.ci.shd) true = none) ∧
    (let s := K12.l1[17]'(by decide); (s.upd.act).isSome = true ∧ (validate s (s.ci.offered.getD s.ci.shd) true).isSome = true ∧ s.upd.slots.length = 5 ∧ s.upd.sessions.length = 5 ∧ s.cul.boot.length = 5 ∧ s.ci.shadow = ShadowSt.loading ∧ inGroup s = false ∧ s.upd.waiting = []) := ⟨by decide +kernel, by decide +kernel, by decide +kernel, by decide +kernel⟩

theorem test_premises_SafetyIsland_1 :
    (let s := K13.l1[0]'(by decide); let k := K13.l3[0]'(by decide); ∃ r ∈ (taskRec s.ci.act ↑k).toList, ∃ i ∈ (List.find? (fun j => j.task == ↑k && !j.complete) s.glb.inst).toList, let us := K13.l2[0]'(by decide); let sid := K13.l6[0]'(by decide); ∃ x ∈ (sigRec s.ci.act sid).toList, r.engine = 1 ∧ s.safe.failSilent = false ∧ i.fin = s.cyc.mcc + 1 ∧ inGroup s = false ∧ i.task ≠ s.ci.act.safety.funcTask ∧ BitVec.toNat x.writer = i.task ∧ 10000 < BitVec.toInt (s.cyc.timerTtc - (passTo s (releaseTtc s i + BitVec.ofNat 64 (us * 1000))).tb.ttc)) ∧
    (let s := K13.l1[0]'(by decide); let k := K13.l3[1]'(by decide); ∀ i ∈ s.glb.inst, i.task = ↑k → i.complete = true) ∧
    (let s := K13.l1[0]'(by decide); safeIoOn s = true ∧ s.safe.so.length = 2 ∧ s.safe.si.length = 2) ∧
    (let s := K13.l1[0]'(by decide); let b := K9.l3[0]'(by decide); safeIoOn s = true ∧ s.safe.so.length = 2 ∧ s.safe.si.length = 2 ∧ (nthD s.safe.so 0 { }).cmd = false ∧ s.safe.cause = 0 ∧ (nthD s.safe.so 0 { }).faultHigh = false ∧ (nthD s.safe.so 1 { }).cmd = b) ∧
    (let s := K13.l1[1]'(by decide); let b := K9.l3[0]'(by decide); safeIoOn s = true ∧ s.safe.so.length = 2 ∧ s.safe.si.length = 2 ∧ (nthD s.safe.so 0 { }).cmd = true ∧ (nthD s.safe.so 1 { }).cmd = b) ∧
    (let s := K13.l1[0]'(by decide); safeIoOn s = true ∧ s.safe.so.length = 2 ∧ s.safe.si.length = 2 ∧ s.safe.soMoved = false) ∧
    (let s := K13.l1[0]'(by decide); safeIoOn s = true ∧ s.safe.so.length = 2 ∧ s.safe.si.length = 2 ∧ s.safe.soMoved = false ∧ s.safe.cause = 0 ∧ (nthD s.safe.so 0 { }).faultHigh = false) ∧
    (let s := K13.l1[4]'(by decide); safeIoOn s = true ∧ s.safe.so.length = 2 ∧ s.safe.si.length = 2 ∧ s.safe.soMoved = true) := ⟨by decide +kernel, by decide +kernel, by decide +kernel, by decide +kernel, by decide +kernel, by decide +kernel, by decide +kernel, by decide +kernel⟩

theorem test_premises_SafetyIsland_2 :
    (let s := K13.l1[5]'(by decide); let t2 := K9.l3[0]'(by decide); let p := K13.l13[10]'(by decide); let q := K13.l13[0]'(by decide); safeIoOn s = true ∧ s.safe.so.length = 2 ∧ s.safe.si.length = 2 ∧ nthD s.safe.si 0 { } = p ∧ nthD s.safe.si 1 { } = q ∧ (if t2 = true then p.ch2 = true else p.ch1 = true) ∧ p.fault = false ∧ q.ch1 = false ∧ q.ch2 = false) ∧
    (let s := K13.l1[0]'(by decide); safeIoOn s = true ∧ s.safe.so.length = 2 ∧ s.safe.si.length = 2 ∧ ∀ n < 2, (nthD s.safe.si n { }).ch1 = false ∧ (nthD s.safe.si n { }).ch2 = false) ∧
    (let s := K13.l1[5]'(by decide); let n := K13.l5[0]'(by decide); safeIoOn s = true ∧ s.safe.so.length = 2 ∧ s.safe.si.length = 2 ∧ (nthD s.safe.si ↑n { }).fault = false ∧ disagree s ↑n = true) ∧
    (let s := K13.l1[0]'(by decide); let n := K13.l5[0]'(by decide); safeIoOn s = true ∧ s.safe.so.length = 2 ∧ s.safe.si.length = 2 ∧ (nthD s.safe.si ↑n { }).fault = false ∧ disagree s ↑n = false) ∧
    (let s := K13.l1[0]'(by decide); let n := K13.l5[0]'(by decide); safeIoOn s = true ∧ s.safe.so.length = 2 ∧ s.safe.si.length = 2 ∧ (nthD s.safe.si ↑n { }).fault = false) ∧
    (let s := K13.l1[7]'(by decide); let n := K13.l5[0]'(by decide); safeIoOn s = true ∧ s.safe.so.length = 2 ∧ s.safe.si.length = 2 ∧ (nthD s.safe.si ↑n { }).fault = true ∧ (nthD s.safe.si ↑n { }).ch1 = false ∧ (nthD s.safe.si ↑n { }).ch2 = bit s.ci.act.safety.siMode ↑n) ∧
    (let s := K13.l1[0]'(by decide); safeIoOn s = true ∧ s.safe.so.length = 2 ∧ s.safe.si.length = 2 ∧ s.safe.cause = 0) ∧
    (let s := K13.l1[10]'(by decide); safeIoOn s = false) := ⟨by decide +kernel, by decide +kernel, by decide +kernel, by decide +kernel, by decide +kernel, by decide +kernel, by decide +kernel, by decide +kernel⟩

theorem test_premises_GroupLinks_1 :
    (let s := K14.l1[0]'(by decide); let l := K14.l2[0]'(by decide); inGroup s = true ∧ bit s.rst.portHeld l.port.num = false) ∧
    (let s := K14.l1[10]'(by decide); inGroup s = false) ∧
    (let s := K14.l1[0]'(by decide); let l := K14.l2[0]'(by decide); (s.grp.br l).up = true) ∧
    (let s := K14.l1[10]'(by decide); let l := K14.l2[0]'(by decide); (s.grp.br l).up = false) ∧
    (let s := K14.l1[10]'(by decide); let l := K14.l2[0]'(by decide); linkOk s l = false) ∧
    (let s := K14.l1[0]'(by decide); let l := K14.l2[0]'(by decide); let h := K14.l3[3]'(by decide); linkOk s l = true ∧ h.crcOk = false ∧ (s.grp.br l).crcRun < 16) ∧
    (let s := K14.l1[0]'(by decide); let l := K14.l2[0]'(by decide); let h := K14.l3[2]'(by decide); linkOk s l = true ∧ h.crcOk = true ∧ h.listed = true ∧ h.dst ≠ 0 ∧ h.dst ≠ ownPos s ∧ (s.grp.br l).queues.length = 4 ∧ (s.grp.br l.other).queues.length = 4) ∧
    (let s := K14.l1[0]'(by decide); let l := K14.l2[0]'(by decide); let h := K14.l3[4]'(by decide); linkOk s l = true ∧ h.crcOk = true ∧ h.listed = false ∧ (s.grp.br l).queues.length = 4) := ⟨by decide +kernel, by decide +kernel, by decide +kernel, by decide +kernel, by decide +kernel, by decide +kernel, by decide +kernel, by decide +kernel⟩

theorem test_premises_GroupLinks_2 :
    (let s := K14.l1[0]'(by decide); let l := K14.l2[0]'(by decide); let h := K14.l3[0]'(by decide); Hears s l h) ∧
    (let s := K14.l1[0]'(by decide); let l := K14.l2[0]'(by decide); linkOk s l = true ∧ (∀ q ∈ (s.grp.br l).queues, q = []) ∧ (s.grp.br l).queues.length = 4) ∧
    (let s := K14.l1[11]'(by decide); let l := K14.l2[0]'(by decide); ∃ q ∈ (s.grp.br l).queues, q ≠ []) ∧
    (let s := K14.l1[0]'(by decide); inGroup s = true ∧ s.cyc.started = true ∧ s.grp.check = none ∧ s.grp.brL.queues.length = 4 ∧ s.grp.brR.queues.length = 4) ∧
    (let s := K14.l1[0]'(by decide); let l := K14.l2[0]'(by decide); let h := K14.l3[0]'(by decide); let p := K14.l10[2]'(by decide); Hears s l h ∧ ownPos s ≠ 0 ∧ p.position ≠ peerPos s l) ∧
    (let s := K14.l1[0]'(by decide); let l := K14.l2[0]'(by decide); let h := K14.l3[0]'(by decide); let p := K14.l10[0]'(by decide); Hears s l h ∧ ownPos s ≠ 0 ∧ p.position = peerPos s l ∧ s.grp.formed = true ∧ s.grp.role.voting = true ∧ p.role.voting = true ∧ (roleAt s.grp.roles p.position).voting = true ∧ p.hash = s.ci.act.hdr.imageHash ∧ s.grp.check = none ∧ bit s.grp.latent (p.position - 1) = false ∧ (∀ (q : HbPay), (s.grp.peer l).hb = some q → q.epoch = p.epoch) ∧ p.role ≠ GRole.active) ∧
    (let s := K14.l1[15]'(by decide); let l := K14.l2[0]'(by decide); let h := K14.l3[0]'(by decide); let p := K14.l10[1]'(by decide); Hears s l h ∧ ownPos s ≠ 0 ∧ p.position = peerPos s l ∧ s.grp.formed = true ∧ s.grp.role.voting = true ∧ p.role.voting = true ∧ (roleAt s.grp.roles p.position).voting = true ∧ p.hash = s.ci.act.hdr.imageHash ∧ s.grp.check = none ∧ bit s.grp.latent (p.position - 1) = false ∧ (∀ (q : HbPay), (s.grp.peer l).hb = some q → q.epoch = p.epoch) ∧ p.role = GRole.active ∧ s.grp.role ≠ GRole.active ∧ (s.grp.peer l).direct ≠ some p.mcc ∧ (s.grp.peer l).relayed ≠ some p.mcc ∧ p.mcc = s.cyc.mcc ∧ (skewTo s p).natAbs ≤ 10000 ∧ s.cyc.refPresent = true ∧ s.cyc.syncLost = false) ∧
    (let s := K14.l1[0]'(by decide); let l := K14.l2[0]'(by decide); let h := K14.l3[0]'(by decide); let p := K14.l10[2]'(by decide); Hears s l h ∧ ownPos s ≠ 0 ∧ p.position = peerPos s l.other ∧ s.grp.formed = true ∧ s.grp.role.voting = true ∧ p.role.voting = true ∧ p.role ≠ GRole.active ∧ (roleAt s.grp.roles p.position).voting = true ∧ p.hash = s.ci.act.hdr.imageHash ∧ s.grp.check = none ∧ bit s.grp.latent (p.position - 1) = false ∧ ∀ (q : HbPay), (s.grp.peer l.other).hb = some q → q.epoch = p.epoch) := ⟨by unfold Hears; decide +kernel, by decide +kernel, by decide +kernel, by decide +kernel, by unfold Hears; decide +kernel, by unfold Hears; decide +kernel, by unfold Hears; decide +kernel, by unfold Hears; decide +kernel⟩

theorem test_premises_GroupLinks_3 :
    (let s := K14.l1[0]'(by decide); let l := K14.l2[0]'(by decide); let h := K14.l3[0]'(by decide); let p := K14.l10[0]'(by decide); Hears s l h ∧ ownPos s ≠ 0 ∧ p.position ≠ peerPos s l.other) ∧
    (let s := K14.l1[8]'(by decide); let l := K14.l2[0]'(by decide); let h := K14.l3[1]'(by decide); let p := K14.l10[6]'(by decide); Hears s l h ∧ ownPos s ≠ 0 ∧ p.position = peerPos s l ∧ s.grp.formed = false ∧ joinable s = true ∧ hbMatches s p = true ∧ p.gstate = GState.forming ∧ ownPos s < p.position ∧ (s.grp.peer l).hb = none ∧ (s.grp.peer l).adoptSent = false ∧ (s.grp.peer l.other).hb = none) ∧
    (let s := K14.l1[5]'(by decide); let l := K14.l2[0]'(by decide); let h := K14.l3[0]'(by decide); let p := K14.l10[0]'(by decide); Hears s l h ∧ ownPos s ≠ 0 ∧ p.position = peerPos s l ∧ s.grp.role = GRole.out ∧ p.role = GRole.standby ∧ p.gstate = GState.nominal ∧ joinable s = true ∧ hbMatches s p = true ∧ s.grp.outForGood = false ∧ s.grp.xferAsked = false ∧ s.grp.outDue = false) ∧
    (let s := K14.l1[67]'(by decide); inGroup s = true ∧ s.cyc.started = false) ∧
    (let s := K14.l1[8]'(by decide); inGroup s = true ∧ s.cyc.started = true ∧ s.grp.formed = false) ∧
    (let s := K14.l1[0]'(by decide); inGroup s = true ∧ s.cyc.started = true ∧ s.grp.formed = true ∧ s.grp.role.voting = true ∧ s.grp.peerL.failSilent = false ∧ s.grp.peerR.failSilent = false ∧ 0 < s.ci.act.group.nMiss ∧ s.grp.peerL.direct = some s.cyc.mcc ∧ s.grp.peerL.relayed = some s.cyc.mcc ∧ s.grp.peerR.direct = some s.cyc.mcc ∧ s.grp.peerR.relayed = some s.cyc.mcc) ∧
    (let s := K14.l1[13]'(by decide); let l := K14.l2[0]'(by decide); inGroup s = true ∧ s.cyc.started = true ∧ s.grp.formed = true ∧ s.grp.role.voting = true ∧ s.grp.peerL.failSilent = false ∧ s.grp.peerR.failSilent = false ∧ 0 < s.ci.act.group.nMiss ∧ (s.grp.peer l).direct ≠ some s.cyc.mcc ∧ (s.grp.peer l).relayed ≠ some s.cyc.mcc ∧ (s.grp.peer l.other).direct = some s.cyc.mcc ∧ (s.grp.peer l.other).relayed = some s.cyc.mcc ∧ (s.grp.peer l).misses + 1 < s.ci.act.group.nMiss) ∧
    (let s := K14.l1[14]'(by decide); let l := K14.l2[1]'(by decide); inGroup s = true ∧ s.cyc.started = true ∧ s.grp.formed = true ∧ s.grp.role.voting = true ∧ s.grp.peerL.failSilent = false ∧ s.grp.peerR.failSilent = false ∧ 0 < s.ci.act.group.nMiss ∧ (s.grp.peer l).direct ≠ some s.cyc.mcc ∧ (s.grp.peer l).relayed ≠ some s.cyc.mcc ∧ (s.grp.peer l.other).direct = some s.cyc.mcc ∧ (s.grp.peer l.other).relayed = some s.cyc.mcc ∧ s.ci.act.group.nMiss = (s.grp.peer l).misses + 1 ∧ mayDeclare s (peerPos s l) false = true ∧ s.grp.due = none ∧ s.grp.check = none) := ⟨by unfold Hears; decide +kernel, by unfold Hears; decide +kernel, by unfold Hears; decide +kernel, by decide +kernel, by decide +kernel, by decide +kernel, by decide +kernel, by decide +kernel⟩

theorem test_premises_GroupLinks_4 :
    (let s := K14.l1[0]'(by decide); let l := K14.l2[0]'(by decide); linkOk s l = true ∧ ownPos s ≠ 0) := by decide +kernel

theorem test_premises_GroupOrders_1 :
    (let s := K14.l1[10]'(by decide); let l := K14.l2[0]'(by decide); linkOk s l = false) ∧
    (let s := K14.l1[0]'(by decide); let l := K14.l2[0]'(by decide); let h := K14.l3[2]'(by decide); linkOk s l = true ∧ h.crcOk = true ∧ h.listed = true ∧ h.dst ≠ 0 ∧ h.dst ≠ ownPos s ∧ (s.grp.br l).queues.length = 4 ∧ (s.grp.br l.other).queues.length = 4) ∧
    (let s := K14.l1[0]'(by decide); let l := K14.l2[0]'(by decide); let h := K14.l3[0]'(by decide); let o := K14.l11[0]'(by decide); Hears s l h ∧ ownPos s ≠ 0 ∧ h.src = peerPos s l ∧ o.arg ≠ 4294967295 ∧ o.subject ≠ 0 ∧ s.grp.check = none ∧ s.grp.due = none) ∧
    (let s := K14.l1[0]'(by decide); let l := K14.l2[0]'(by decide); let h := K14.l3[0]'(by decide); let o := K14.l11[2]'(by decide); Hears s l h ∧ ownPos s ≠ 0 ∧ h.src = peerPos s l ∧ o.arg = 4294967295 ∧ o.subject = ownPos s) ∧
    (let s := K14.l1[9]'(by decide); let l := K14.l2[0]'(by decide); let h := K14.l3[0]'(by decide); let o := K14.l11[0]'(by decide); Hears s l h ∧ ownPos s ≠ 0 ∧ h.src = peerPos s l ∧ s.grp.formed = false ∧ ∃ x ∈ matchedHb s, x.position = o.issuer) ∧
    (let s := K14.l1[8]'(by decide); let l := K14.l2[0]'(by decide); let h := K14.l3[1]'(by decide); let o := K14.l11[0]'(by decide); Hears s l h ∧ ownPos s ≠ 0 ∧ h.src = peerPos s l ∧ s.grp.formed = false ∧ ∀ x ∈ matchedHb s, x.position ≠ o.issuer) ∧
    (let s := K14.l1[6]'(by decide); let l := K14.l2[0]'(by decide); let h := K14.l3[0]'(by decide); let o := K14.l11[1]'(by decide); Hears s l h ∧ ownPos s ≠ 0 ∧ h.src = peerPos s l ∧ o.subject = ownPos s ∧ s.grp.xferAsked = true) ∧
    (let s := K14.l1[0]'(by decide); let l := K14.l2[0]'(by decide); let h := K14.l3[0]'(by decide); let o := K14.l11[0]'(by decide); Hears s l h ∧ ownPos s ≠ 0 ∧ h.src = peerPos s l ∧ (o.subject ≠ ownPos s ∨ s.grp.xferAsked = false)) := ⟨by decide +kernel, by decide +kernel, by unfold Hears; decide +kernel, by unfold Hears; decide +kernel, by unfold Hears; decide +kernel, by unfold Hears; decide +kernel, by unfold Hears; decide +kernel, by unfold Hears; decide +kernel⟩

theorem test_premises_GroupOrders_2 :
    (let s := K14.l1[0]'(by decide); let l := K14.l2[0]'(by decide); let h := K14.l3[0]'(by decide); let type := K14.l4[0]'(by decide); Hears s l h ∧ ownPos s ≠ 0 ∧ h.src = peerPos s l ∧ (type ≠ 5 ∨ s.grp.role = GRole.active)) ∧
    (let s := K14.l1[1]'(by decide); let l := K14.l2[0]'(by decide); let h := K14.l3[0]'(by decide); let st := K14.l9[1]'(by decide); Hears s l h ∧ ownPos s ≠ 0 ∧ h.src = peerPos s l ∧ s.grp.role ≠ GRole.active ∧ st ≠ Status.deferred ∧ st ≠ Status.ok ∧ s.tk.slots.length = 8) ∧
    (let s := K14.l1[1]'(by decide); let l := K14.l2[0]'(by decide); let h := K14.l3[0]'(by decide); let c := K14.l13[0]'(by decide); Hears s l h ∧ ownPos s ≠ 0 ∧ h.src = peerPos s l ∧ s.grp.role ≠ GRole.active ∧ (∀ n < 8, (nthD s.tk.slots n { }).busy = false) ∧ c ≠ ModeCmd.dormant) ∧
    (let s := K14.l1[1]'(by decide); let l := K14.l2[0]'(by decide); let h := K14.l3[0]'(by decide); Hears s l h ∧ ownPos s ≠ 0 ∧ h.src = peerPos s l ∧ s.grp.role ≠ GRole.active ∧ ∀ n < 8, (nthD s.tk.slots n { }).busy = false) ∧
    (let s := K14.l1[0]'(by decide); let l := K14.l2[0]'(by decide); let h := K14.l3[0]'(by decide); Hears s l h ∧ ownPos s ≠ 0 ∧ h.src = peerPos s l ∧ s.grp.role = GRole.active ∧ s.grp.state = GState.nominal) ∧
    (let s := K14.l1[3]'(by decide); let l := K14.l2[0]'(by decide); let h := K14.l3[0]'(by decide); Hears s l h ∧ ownPos s ≠ 0 ∧ h.src = peerPos s l ∧ s.grp.role = GRole.active ∧ s.grp.state ≠ GState.nominal) ∧
    (let s := K14.l1[58]'(by decide); ∃ z ∈ (s.grp.firstOp).toList, inGroup s = true ∧ s.grp.formed = false ∧ z + 100 ≤ s.cul.optime.toNat) ∧
    (let s := K14.l1[0]'(by decide); inGroup s = false ∨ s.grp.formed = true ∨ s.grp.firstOp = none) := ⟨by unfold Hears; decide +kernel, by unfold Hears; decide +kernel, by unfold Hears; decide +kernel, by unfold Hears; decide +kernel, by unfold Hears; decide +kernel, by unfold Hears; decide +kernel, by decide +kernel, by decide +kernel⟩

theorem test_premises_GroupOrders_3 :
    (let s := K14.l1[59]'(by decide); ∃ z ∈ (s.grp.firstOp).toList, s.cul.optime.toNat < z + 100) ∧
    (let s := K14.l1[60]'(by decide); ownPos s ≠ 0 ∧ s.grp.probLeft ≠ 0) ∧
    (let s := K14.l1[37]'(by decide); let p := K14.l4[3]'(by decide); inGroup s = true ∧ s.grp.formed = true ∧ roleAt s.grp.roles p = GRole.probation ∧ bit s.grp.latent (p - 1) = false ∧ (p ≠ ownPos s ∨ s.grp.probLeft = 0) ∧ (s.grp.state = GState.maintenance ∨ s.grp.due.isSome = true ∨ s.grp.swapDue.isSome = true)) ∧
    (let s := K14.l1[36]'(by decide); let p := K14.l4[3]'(by decide); inGroup s = true ∧ s.grp.formed = true ∧ roleAt s.grp.roles p = GRole.probation ∧ bit s.grp.latent (p - 1) = false ∧ (p ≠ ownPos s ∨ s.grp.probLeft = 0) ∧ s.grp.state ≠ GState.maintenance ∧ s.grp.due = none ∧ s.grp.swapDue = none) ∧
    (let s := K14.l1[0]'(by decide); let p := K14.l4[0]'(by decide); roleAt s.grp.roles p ≠ GRole.probation) ∧
    (let s := K14.l1[0]'(by decide); s.grp.formed = true ∧ (s.grp.state = GState.nominal ∨ s.grp.state = GState.degraded2) ∧ s.tk.running = true ∧ s.glb.state ≠ MState.dormant ∧ (2 ≤ BitVec.toNat s.grp.rotLeft ∨ s.grp.role ≠ GRole.active ∨ s.grp.swapDue.isSome = true)) ∧
    (let s := K14.l1[39]'(by decide); s.grp.formed = true ∧ (s.grp.state = GState.nominal ∨ s.grp.state = GState.degraded2) ∧ s.tk.running = true ∧ s.glb.state ≠ MState.dormant ∧ BitVec.toNat s.grp.rotLeft ≤ 1 ∧ s.grp.role = GRole.active ∧ s.grp.swapDue = none) ∧
    (let s := K14.l1[4]'(by decide); s.grp.formed = false ∨ s.grp.state = GState.maintenance ∨ s.grp.state = GState.single ∨ s.tk.running = false ∨ s.glb.state = MState.dormant) := ⟨by decide +kernel, by decide +kernel, by decide +kernel, by decide +kernel, by decide +kernel, by decide +kernel, by decide +kernel, by decide +kernel⟩

theorem test_premises_GroupOrders_4 :
    (let s := K14.l1[0]'(by decide); s.grp.check = none) ∧
    (let s := K14.l1[34]'(by decide); ∃ c ∈ (s.grp.check).toList, before s.cyc.mcc (c.at_ + BitVec.ofNat 32 (checkWindow s.ci.act)) = true) ∧
    (let s := K14.l1[61]'(by decide); ∃ c ∈ (s.grp.check).toList, before s.cyc.mcc (c.at_ + BitVec.ofNat 32 (checkWindow s.ci.act)) = false ∧ transmitPorts s.ci.act &&& ~~~c.seen = 0) ∧
    (let s := K14.l1[62]'(by decide); ∃ c ∈ (s.grp.check).toList, before s.cyc.mcc (c.at_ + BitVec.ofNat 32 (checkWindow s.ci.act)) = false ∧ transmitPorts s.ci.act &&& ~~~c.seen ≠ 0) := ⟨by decide +kernel, by decide +kernel, by decide +kernel, by decide +kernel⟩

theorem test_premises_GroupAgreement_1 :
    (let s := K14.l1[10]'(by decide); let l := K14.l2[0]'(by decide); linkOk s l = false) ∧
    (let s := K14.l1[55]'(by decide); ciActive s = true ∧ s.grp.role = GRole.active ∧ s.grp.formed = true ∧ s.ci.shadow = ShadowSt.valid ∧ (s.ci.swap = SwapSt.idle ∨ s.ci.swap = SwapSt.aborted) ∧ s.ci.aborts < 3 ∧ s.ci.cls ≠ 3 ∧ voters s.grp.roles = [ownPos s] ∧ ownPos s ≠ 0) ∧
    (let s := K14.l1[54]'(by decide); let l := K14.l2[0]'(by decide); ciActive s = true ∧ s.grp.role = GRole.active ∧ s.grp.formed = true ∧ s.ci.shadow = ShadowSt.valid ∧ (s.ci.swap = SwapSt.idle ∨ s.ci.swap = SwapSt.aborted) ∧ s.ci.aborts < 3 ∧ s.ci.cls ≠ 3 ∧ (roleAt s.grp.roles (peerPos s l)).voting = true ∧ ownPos s ≠ 0) ∧
    (let s := K14.l1[0]'(by decide); ciActive s = false ∨ s.grp.role ≠ GRole.active ∨ s.ci.shadow ≠ ShadowSt.valid ∨ s.ci.swap = SwapSt.proposed) ∧
    (let s := K14.l1[22]'(by decide); ∃ r ∈ (s.grp.swap).toList, s.grp.role = GRole.active ∧ r.committed = false ∧ s.ci.aborts < 2) ∧
    (let s := K14.l1[63]'(by decide); ∃ r ∈ (s.grp.swap).toList, ∃ a ∈ (s.upd.act).toList, s.grp.role = GRole.active ∧ r.committed = false ∧ 2 ≤ s.ci.aborts ∧ a.ty = ImgType.ci ∧ s.upd.waiting = []) ∧
    (let s := K14.l1[0]'(by decide); s.grp.swap = none) ∧
    (let s := K14.l1[0]'(by decide); let l := K14.l2[0]'(by decide); let h := K14.l3[0]'(by decide); Hears s l h ∧ ownPos s ≠ 0 ∧ h.src = peerPos s l) := ⟨by decide +kernel, by decide +kernel, by decide +kernel, by decide +kernel, by decide +kernel, by decide +kernel, by decide +kernel, by unfold Hears; decide +kernel⟩

theorem test_premises_GroupAgreement_2 :
    (let s := K14.l1[0]'(by decide); let l := K14.l2[0]'(by decide); let h := K14.l3[0]'(by decide); let x := K14.l6[0]'(by decide); let m := K14.l14[3]'(by decide); Hears s l h ∧ ownPos s ≠ 0 ∧ h.src = peerPos s l ∧ s.ci.shd.hdr.imageHash = x ∧ s.ci.shadow = ShadowSt.valid ∧ 1000000 ≤ nsToMcc s m) ∧
    (let s := K14.l1[0]'(by decide); let l := K14.l2[0]'(by decide); let h := K14.l3[0]'(by decide); let m := K14.l14[0]'(by decide); Hears s l h ∧ ownPos s ≠ 0 ∧ h.src = peerPos s l ∧ nsToMcc s m < 1000000) ∧
    (let s := K14.l1[22]'(by decide); let l := K14.l2[0]'(by decide); let h := K14.l3[0]'(by decide); let x := K14.l6[0]'(by decide); ∃ r ∈ (s.grp.swap).toList, Hears s l h ∧ ownPos s ≠ 0 ∧ h.src = peerPos s l ∧ r.hash = x ∧ r.committed = false ∧ s.ci.aborts < 2) ∧
    (let s := K14.l1[63]'(by decide); let l := K14.l2[0]'(by decide); let h := K14.l3[0]'(by decide); let x := K14.l6[0]'(by decide); ∃ r ∈ (s.grp.swap).toList, ∃ a ∈ (s.upd.act).toList, Hears s l h ∧ ownPos s ≠ 0 ∧ h.src = peerPos s l ∧ r.hash = x ∧ r.committed = false ∧ 2 ≤ s.ci.aborts ∧ a.ty = ImgType.ci ∧ s.upd.waiting = []) ∧
    (let s := K14.l1[22]'(by decide); let l := K14.l2[0]'(by decide); let h := K14.l3[0]'(by decide); let x := K14.l6[0]'(by decide); let st := K14.l9[0]'(by decide); ∃ r ∈ (s.grp.swap).toList, Hears s l h ∧ ownPos s ≠ 0 ∧ h.src = peerPos s l ∧ s.grp.role = GRole.active ∧ r.committed = false ∧ r.hash = x ∧ st = Status.ok ∧ s.ci.swap = SwapSt.proposed ∧ (roleAt s.grp.roles (peerPos s l.other)).voting = true ∧ (s.grp.peer l.other).accepted = false) ∧
    (let s := K14.l1[23]'(by decide); let l := K14.l2[1]'(by decide); let h := K14.l3[1]'(by decide); let x := K14.l6[0]'(by decide); let st := K14.l9[0]'(by decide); ∃ r ∈ (s.grp.swap).toList, Hears s l h ∧ ownPos s ≠ 0 ∧ h.src = peerPos s l ∧ s.grp.role = GRole.active ∧ r.committed = false ∧ r.hash = x ∧ st = Status.ok ∧ s.ci.swap = SwapSt.proposed ∧ (roleAt s.grp.roles (peerPos s l.other)).voting = false ∧ 10000000 ≤ nsToMcc s r.target) ∧
    (let s := K14.l1[0]'(by decide); let l := K14.l2[0]'(by decide); let h := K14.l3[0]'(by decide); let st := K14.l9[1]'(by decide); Hears s l h ∧ ownPos s ≠ 0 ∧ h.src = peerPos s l ∧ (s.grp.role ≠ GRole.active ∨ st ≠ Status.ok)) ∧
    (let s := K14.l1[0]'(by decide); let l := K14.l2[0]'(by decide); let h := K14.l3[0]'(by decide); Hears s l h ∧ ownPos s ≠ 0 ∧ h.src = peerPos s l ∧ (s.grp.peer l).deltaMcc = h.mcc) := ⟨by unfold Hears; decide +kernel, by unfold Hears; decide +kernel, by unfold Hears; decide +kernel, by unfold Hears; decide +kernel, by unfold Hears; decide +kernel, by unfold Hears; decide +kernel, by unfold Hears; decide +kernel, by unfold Hears; decide +kernel⟩

theorem test_premises_GroupAgreement_3 :
    (let s := K14.l1[8]'(by decide); let l := K14.l2[0]'(by decide); let h := K14.l3[1]'(by decide); Hears s l h ∧ ownPos s ≠ 0 ∧ h.src = peerPos s l ∧ (s.grp.peer l).deltaMcc ≠ h.mcc) ∧
    (let s := K14.l1[0]'(by decide); let l := K14.l2[0]'(by decide); let h := K14.l3[0]'(by decide); Hears s l h ∧ ownPos s ≠ 0 ∧ h.src = peerPos s l ∧ h.mcc = s.cyc.mcc ∧ atOrBefore s.tb.ttc (t0 s + 28000) = false) ∧
    (let s := K14.l1[56]'(by decide); let l := K14.l2[0]'(by decide); let h := K14.l3[0]'(by decide); Hears s l h ∧ ownPos s ≠ 0 ∧ h.src = peerPos s l ∧ (s.grp.peer l).deltaMcc = h.mcc ∧ (h.mcc ≠ s.cyc.mcc ∨ atOrBefore s.tb.ttc (t0 s + 28000) = true)) ∧
    (let s := K14.l1[8]'(by decide); let l := K14.l2[0]'(by decide); let h := K14.l3[1]'(by decide); Hears s l h ∧ ownPos s ≠ 0 ∧ h.src = peerPos s l ∧ 30000 ≤ nsToBoundary s ∧ (s.grp.peer l).votesMcc ≠ h.mcc) ∧
    (let s := K14.l1[0]'(by decide); let l := K14.l2[0]'(by decide); let h := K14.l3[0]'(by decide); ((s.grp.peer l).votes).isSome = true ∧ Hears s l h ∧ ownPos s ≠ 0 ∧ h.src = peerPos s l ∧ 30000 ≤ nsToBoundary s ∧ (s.grp.peer l).votesMcc = h.mcc) ∧
    (let s := K14.l1[46]'(by decide); let l := K14.l2[0]'(by decide); let h := K14.l3[0]'(by decide); Hears s l h ∧ ownPos s ≠ 0 ∧ h.src = peerPos s l ∧ nsToBoundary s < 30000) ∧
    (let s := K14.l1[0]'(by decide); let l := K14.l2[0]'(by decide); let h := K14.l3[0]'(by decide); Hears s l h ∧ ownPos s ≠ 0 ∧ h.src = peerPos s l ∧ s.grp.mirror = none) ∧
    (let s := K14.l1[43]'(by decide); let l := K14.l2[0]'(by decide); let h := K14.l3[0]'(by decide); (s.grp.mirror).isSome = true ∧ Hears s l h ∧ ownPos s ≠ 0 ∧ h.src = peerPos s l) := ⟨by unfold Hears; decide +kernel, by unfold Hears; decide +kernel, by unfold Hears; decide +kernel, by unfold Hears; decide +kernel, by unfold Hears; decide +kernel, by unfold Hears; decide +kernel, by unfold Hears; decide +kernel, by unfold Hears; decide +kernel⟩

theorem test_premises_GroupAgreement_4 :
    (let s := K14.l1[1]'(by decide); let l := K14.l2[0]'(by decide); let h := K14.l3[0]'(by decide); Hears s l h ∧ ownPos s ≠ 0 ∧ h.src = peerPos s l ∧ s.grp.role = GRole.standby ∧ bit s.grp.latent (h.src - 1) = false) ∧
    (let s := K14.l1[2]'(by decide); let l := K14.l2[0]'(by decide); let h := K14.l3[0]'(by decide); Hears s l h ∧ ownPos s ≠ 0 ∧ h.src = peerPos s l ∧ (s.grp.role = GRole.arbiter ∨ s.grp.role = GRole.out)) ∧
    (let s := K14.l1[6]'(by decide); let l := K14.l2[0]'(by decide); let h := K14.l3[0]'(by decide); Hears s l h ∧ ownPos s ≠ 0 ∧ h.src = peerPos s l ∧ s.grp.xferAsked = true) ∧
    (let s := K14.l1[6]'(by decide); let l := K14.l2[0]'(by decide); let h := K14.l3[0]'(by decide); Hears s l h ∧ ownPos s ≠ 0 ∧ h.src = peerPos s l ∧ s.grp.xferAsked = true ∧ s.grp.xferMcc = none) ∧
    (let s := K14.l1[0]'(by decide); let l := K14.l2[0]'(by decide); let h := K14.l3[0]'(by decide); Hears s l h ∧ ownPos s ≠ 0 ∧ h.src = peerPos s l ∧ s.grp.xferAsked = false) ∧
    (let s := K14.l1[31]'(by decide); let l := K14.l2[0]'(by decide); let h := K14.l3[0]'(by decide); Hears s l h ∧ ownPos s ≠ 0 ∧ h.src = peerPos s l ∧ tagFree s TxClass.group = false) ∧
    (let s := K14.l1[28]'(by decide); let l := K14.l2[0]'(by decide); let h := K14.l3[0]'(by decide); let off := K14.l4[0]'(by decide); let n := K14.l4[0]'(by decide); Hears s l h ∧ ownPos s ≠ 0 ∧ h.src = peerPos s l ∧ tagFree s TxClass.group = true ∧ (∀ z ∈ (s.grp.br l).sems, z.held = false ∧ z.revoked = false) ∧ sharedOk s l off (8 * n) = true) ∧
    (let s := K14.l1[0]'(by decide); let l := K14.l2[0]'(by decide); let h := K14.l3[0]'(by decide); let off := K14.l4[0]'(by decide); let n := K14.l4[0]'(by decide); Hears s l h ∧ ownPos s ≠ 0 ∧ h.src = peerPos s l ∧ tagFree s TxClass.group = true ∧ (∀ z ∈ (s.grp.br l).sems, z.held = false ∧ z.revoked = false) ∧ sharedOk s l off (8 * n) = false) := ⟨by unfold Hears; decide +kernel, by unfold Hears; decide +kernel, by unfold Hears; decide +kernel, by unfold Hears; decide +kernel, by unfold Hears; decide +kernel, by unfold Hears; decide +kernel, by unfold Hears; decide +kernel, by unfold Hears; decide +kernel⟩

theorem test_premises_GroupAgreement_5 :
    (let s := K14.l1[28]'(by decide); let l := K14.l2[0]'(by decide); let h := K14.l3[0]'(by decide); let off := K14.l4[0]'(by decide); let data := K14.l25[0]'(by decide); Hears s l h ∧ ownPos s ≠ 0 ∧ h.src = peerPos s l ∧ tagFree s TxClass.group = true ∧ (∀ z ∈ (s.grp.br l).sems, z.held = false ∧ z.revoked = false) ∧ sharedOk s l off data.length = true) ∧
    (let s := K14.l1[0]'(by decide); let l := K14.l2[0]'(by decide); let h := K14.l3[0]'(by decide); let off := K14.l4[0]'(by decide); let data := K14.l25[0]'(by decide); Hears s l h ∧ ownPos s ≠ 0 ∧ h.src = peerPos s l ∧ tagFree s TxClass.group = true ∧ (∀ z ∈ (s.grp.br l).sems, z.held = false ∧ z.revoked = false) ∧ sharedOk s l off data.length = false) ∧
    (let s := K14.l1[0]'(by decide); let l := K14.l2[0]'(by decide); let h := K14.l3[0]'(by decide); let sem := K14.l4[0]'(by decide); Hears s l h ∧ ownPos s ≠ 0 ∧ h.src = peerPos s l ∧ tagFree s TxClass.group = true ∧ sem < (s.grp.br l).sems.length ∧ ∀ z ∈ (s.grp.br l).sems, z.held = false) ∧
    (let s := K14.l1[29]'(by decide); let l := K14.l2[0]'(by decide); let h := K14.l3[0]'(by decide); let sem := K14.l4[0]'(by decide); let lo := K14.l4[0]'(by decide); let hi := K14.l4[0]'(by decide); Hears s l h ∧ ownPos s ≠ 0 ∧ h.src = peerPos s l ∧ tagFree s TxClass.group = true ∧ (nthD (s.grp.br l).sems sem { }).held = true ∧ crossing s l lo hi = none) ∧
    (let s := K14.l1[0]'(by decide); let l := K14.l2[0]'(by decide); let h := K14.l3[0]'(by decide); let sem := K14.l4[0]'(by decide); Hears s l h ∧ ownPos s ≠ 0 ∧ h.src = peerPos s l ∧ tagFree s TxClass.group = true ∧ sem < (s.grp.br l).sems.length ∧ (nthD (s.grp.br l).sems sem { }).revoked = false) ∧
    (let s := K14.l1[0]'(by decide); let l := K14.l2[0]'(by decide); let h := K14.l3[0]'(by decide); let v := K14.l14[1]'(by decide); Hears s l h ∧ ownPos s ≠ 0 ∧ h.src = peerPos s l ∧ tagFree s TxClass.group = true ∧ v ≠ 0 ∧ (s.grp.br l).bells.length < 16) ∧
    (let s := K14.l1[30]'(by decide); let l := K14.l2[1]'(by decide); let h := K14.l3[1]'(by decide); let v := K14.l14[1]'(by decide); Hears s l h ∧ ownPos s ≠ 0 ∧ h.src = peerPos s l ∧ tagFree s TxClass.group = true ∧ v ≠ 0 ∧ 16 ≤ (s.grp.br l).bells.length) ∧
    (let s := K14.l1[0]'(by decide); let l := K14.l2[0]'(by decide); let h := K14.l3[0]'(by decide); Hears s l h ∧ ownPos s ≠ 0 ∧ h.src = peerPos s l ∧ List.find? (fun t => t.tag == h.tag && t.unit == l.peer) s.txe.tags = none ∧ BitVec.extractLsb' 10 4 h.tag = epochOf s l.peer) := ⟨by unfold Hears; decide +kernel, by unfold Hears; decide +kernel, by unfold Hears; decide +kernel, by unfold Hears; decide +kernel, by unfold Hears; decide +kernel, by unfold Hears; decide +kernel, by unfold Hears; decide +kernel, by unfold Hears; decide +kernel⟩

theorem test_premises_GroupAgreement_6 :
    (let s := K14.l1[47]'(by decide); let l := K14.l2[0]'(by decide); let h := K14.l3[0]'(by decide); ∃ e ∈ (List.find? (fun t => t.tag == h.tag && t.unit == l.peer) s.txe.tags).toList, let off := K14.l4[0]'(by decide); let len := K14.l4[3]'(by decide); let addr := K14.l21[2]'(by decide); let sem := K14.l4[0]'(by decide); let data := K14.l25[1]'(by decide); Hears s l h ∧ ownPos s ≠ 0 ∧ h.src = peerPos s l ∧ e.posted = false ∧ e.req = TagReq.glRead off len addr sem ∧ s.dram.wf = true ∧ e.ring = none ∧ data.length = len ∧ inDram addr len = true) ∧
    (let s := K14.l1[48]'(by decide); let l := K14.l2[0]'(by decide); let h := K14.l3[0]'(by decide); ∃ e ∈ (List.find? (fun t => t.tag == h.tag && t.unit == l.peer) s.txe.tags).toList, let off := K14.l4[0]'(by decide); let data := K14.l25[1]'(by decide); let sem := K14.l4[0]'(by decide); Hears s l h ∧ ownPos s ≠ 0 ∧ h.src = peerPos s l ∧ e.posted = false ∧ e.req = TagReq.glWrite off data sem) ∧
    (let s := K14.l1[31]'(by decide); let l := K14.l2[0]'(by decide); let h := K14.l3[0]'(by decide); ∃ e ∈ (List.find? (fun t => t.tag == h.tag && t.unit == l.peer) s.txe.tags).toList, let sem := K14.l4[0]'(by decide); let lo := K14.l4[0]'(by decide); let hi := K14.l4[0]'(by decide); Hears s l h ∧ ownPos s ≠ 0 ∧ h.src = peerPos s l ∧ e.posted = false ∧ e.req = TagReq.glSem sem lo hi) ∧
    (let s := K14.l1[31]'(by decide); let l := K14.l2[0]'(by decide); let h := K14.l3[0]'(by decide); ∃ e ∈ (List.find? (fun t => t.tag == h.tag && t.unit == l.peer) s.txe.tags).toList, Hears s l h ∧ ownPos s ≠ 0 ∧ h.src = peerPos s l ∧ e.posted = false ∧ e.retries < 16) ∧
    (let s := K14.l1[50]'(by decide); let l := K14.l2[0]'(by decide); let h := K14.l3[0]'(by decide); ∃ e ∈ (List.find? (fun t => t.tag == h.tag && t.unit == l.peer) s.txe.tags).toList, Hears s l h ∧ ownPos s ≠ 0 ∧ h.src = peerPos s l ∧ e.posted = false ∧ 16 ≤ e.retries) ∧
    (let s := K14.l1[10]'(by decide); inGroup s = false) ∧
    (let s := K14.l1[57]'(by decide); inGroup s = true ∧ s.grp.formed = true ∧ s.grp.role.voting = true ∧ s.ci.act.hdr.imageHash ≠ voteHash s) ∧
    (let s := K14.l1[0]'(by decide); inGroup s = true ∧ s.grp.formed = true ∧ s.grp.role.voting = true ∧ s.ci.act.hdr.imageHash = voteHash s) := ⟨by unfold Hears; decide +kernel, by unfold Hears; decide +kernel, by unfold Hears; decide +kernel, by unfold Hears; decide +kernel, by unfold Hears; decide +kernel, by decide +kernel, by decide +kernel, by decide +kernel⟩

theorem test_premises_GroupAgreement_7 :
    (let s := K14.l1[45]'(by decide); inGroup s = true ∧ s.grp.formed = true ∧ s.grp.role.voting = true ∧ votedSids s (votersNow s) = []) ∧
    (let s := K14.l1[4]'(by decide); inGroup s = true ∧ s.grp.formed = true ∧ s.grp.role.voting = true ∧ votersNow s = [ownPos s] ∧ votedSids s [ownPos s] ≠ []) ∧
    (let s := K14.l1[3]'(by decide); ∃ p ∈ (votersNow s).take 1, let q := K14.l4[3]'(by decide); inGroup s = true ∧ s.grp.formed = true ∧ s.grp.role.voting = true ∧ votersNow s = [p, q] ∧ votedSids s [p, q] ≠ [] ∧ ((votedSids s [p, q]).all fun sid => (voteOf s p sid).isSome && voteOf s p sid == voteOf s q sid) = true) ∧
    (let s := K14.l1[44]'(by decide); let p := K14.l4[2]'(by decide); let q := K14.l4[3]'(by decide); let sid := K14.l31[1]'(by decide); inGroup s = true ∧ s.grp.formed = true ∧ s.grp.role.voting = true ∧ votersNow s = [p, q] ∧ sid ∈ votedSids s [p, q] ∧ voteOf s p sid ≠ voteOf s q sid ∧ s.safe.cause = 0) ∧
    (let s := K14.l1[0]'(by decide); inGroup s = true ∧ s.cyc.started = true ∧ s.grp.ended = [] ∧ s.grp.warmAt = none) := ⟨by decide +kernel, by decide +kernel, by decide +kernel, by decide +kernel, by decide +kernel⟩

end Sys2Proof.Tests
/-! ### More premises -/

namespace Sys2Proof.Tests
open Sys2Proof Sys2Proof.Machine

theorem test_premises_StepRunsFront : ({ w0 with pending := [.boundary, .taskRelease] } : State).pending = [Instr.boundary] ++ [.taskRelease] := by
  decide

theorem test_premises_TransferMovesWords :
    let e : XferEnt := wImg.xfers[0]'(by decide)
    FabOk wXmit.fab ∧ wXmit.ci.act.xfers[0]? = some e ∧ 0 ∈ (wXmit.fab.tile 0).sent ∧ (wXmit.fab.tile 0).phase ≠ .reset ∧
      (wXmit.fab.tile 1).phase ≠ .reset ∧ 1 ∉ (wXmit.fab.tile 0).sent := by
  unfold FabOk; decide +kernel

theorem test_premises_invariants : SoOk w0.safe ∧ Bounded w0 ∧ w0.dram.wf = true := by
  unfold SoOk Bounded; decide +kernel

theorem test_premises_a_step : (match step w0 with | .next _ => true | _ => false) = true := by decide +kernel

theorem test_premises_TileWordRoundTrip_limm :
    (decodeTile 0x08E08001 5).isSome = true ∧ (encodeTile 2 (.l ⟨7, 0x800100000005⟩)).2 = some 5 := by decide

/-! ### Well-formedness: an ill-formed term for each check is refused -/

theorem test_wf_positions : Instr.wf (.probationEnd 0) = false ∧ Instr.wf (.probationEnd 4) = false := by decide

theorem test_wf_frame_header : Instr.wf (.credit .left { src := 1, dst := 4 }) = false ∧ Instr.wf (.credit .left { src := 1, cred := [0] }) = false := by
  decide

theorem test_wf_heartbeat : Instr.wf (.hb .left { src := 1 } { position := 4 }) = false ∧
    Instr.wf (.hb .left { src := 1 } { position := 1, proto := (256, 0) }) = false := by decide

theorem test_wf_order : Instr.wf (.orderRoles .left { src := 1 } { issuer := 0, target := 5 }) = false := by decide

theorem test_wf_target : Instr.wf (.targetModeCommand .left { src := 1 } 0 (.clearLatent 0)) = false := by decide

theorem test_wf_delta : Instr.wf (.delta .left { src := 1 } [.word true false 262144 []]) = false ∧
    Instr.wf (.delta .left { src := 1 } [.word true false 0 [1]]) = false := by decide

theorem test_wf_can : Instr.wf (.canFrameReceive 0 { ident := 2048 }) = false ∧
    Instr.wf (.canFrameReceive 0 { ident := 5, data := [0, 0, 0, 0, 0, 0, 0, 0, 0] }) = false ∧ Instr.wf (.busOff 2) = false := by decide

theorem test_wf_ethernet : Instr.wf (.frameReceive 0 { pcp := 8, pay := .unsupported } [] true) = false ∧
    Instr.wf (.hostFrameSubmit 0 0 64 8) = false := by decide

theorem test_wf_call : Instr.wf (.stop { slot := 8 }) = false ∧ Instr.wf (.stop { respMax := 0x100000000 }) = false := by decide

theorem test_wf_lengths : Instr.wf (.glRead {} .left 0 65536 0 0) = false ∧ Instr.wf (.semAcq {} 0 0 5 4) = false ∧
    Instr.wf (.mdReceive {} 0 0 65536) = false := by decide

theorem test_wf_manifest : Instr.wf (.updMsg {} (.manifest { typeCode := 256 } {})) = false ∧
    Instr.wf (.updMsg {} (.manifestReply {} [{ position := 4, status := .ok, slotState := 0, nextBlock := 0, serial := 0 }])) = false := by decide

theorem test_wf_segment : Instr.wf (.updMsg {} (.segment {} { block := 0, seg := 4, crc := 0, data := [] })) = false ∧
    Instr.wf (.updMsg {} (.command {} .activate [])) = false := by decide

theorem test_wf_numbers : Instr.wf (.scheduledTransfer 8192) = false ∧ Instr.wf (.eventDispatch 0 16) = false ∧ Instr.wf (.launchFire 80) = false ∧
    Instr.wf (.mvbBasicPeriod 64) = false ∧ Instr.wf (.sdtSkewTimeout 4096) = false ∧ Instr.wf (.snapshotRead 0 4) = false ∧
    Instr.wf (.powerWindow 0 0 0 []) = false ∧ Instr.wf (.evrClear {} 256) = false := by decide

theorem test_wf_tile_fields : Instr.wf (.div 0 { rd := 1, ra := 2, ty := 0 }) = false ∧ Instr.wf (.cmpi 0 .s0 { rd := 1, ra := 2, ty := 3, cond := 6, imm := 0 }) = false ∧
    Instr.wf (.add 0 .s0 { rd := 1, ra := 2, rb := 3, ty := 3 }) = true := by decide

/-! ### Worked examples of the manual -/

/-- The temperature of 12_legacy_buses_and_gateway: bits 20 to 31 of 00 37 A1 5C, scale 0.0625, as a REAL. -/
theorem test_gateway_temperature :
    extract [0x00, 0x37, 0xA1, 0x5C] 20 12 false = 348 ∧
    (convIn { sid := 0, bitOff := 20, bitLen := 12, signed := true, scale := 0x3D800000 } 9 12 348).val = 0x41AE0000 ∧
    (convIn { sid := 0, bitOff := 20, bitLen := 12, signed := true, scale := 0x3D800000 } 9 12 348).code = qGood := by decide +kernel

/-- The setpoint of the same example: 19.3 with scale 0.05 and offset -10 goes out as 586 in bits 4 to 13. -/
theorem test_gateway_setpoint :
    (convOut { sid := 0, bitOff := 4, bitLen := 10, scale := 0x3D4CCCCD, offset := 0xC1200000 } 9 10 0x419A6666).1 = 586 ∧
    putBit (insertField [0, 0, 0, 0] 4 10 false 586) 0 true = [0x89, 0x28, 0x00, 0x00] := by decide +kernel

/-- The code word of 15_safety_island (R368): a speed of 160.42 km/h in the instance released at MCC 8,000,016. -/
theorem test_code_word : codeWord (codeSig 8000016) 1234 16042 = 1051095570 ∧ codeSig 8000016 = 6454 ∧
    codedOk 8000016 [{ word := 1051095570, sig := 1234, lo := 0, hi := 50000 }] = true ∧
    codedOk 8000017 [{ word := 1051095570, sig := 1234, lo := 0, hi := 50000 }] = false := by decide +kernel

/-- A quotient toward zero, and a zero divisor that fails (R369). -/
theorem test_coded_divide :
    (codeDiv 7 { word := BitVec.ofInt 64 (codeWord 7 3 (-7)), sig := 3 } { word := BitVec.ofInt 64 (codeWord 7 5 2), sig := 5 } { word := 0, sig := 9 }).map
      (fun z => decodeWord 7 9 z.word.toInt) = some (-3) ∧
    codeDiv 7 { word := BitVec.ofInt 64 (codeWord 7 3 1), sig := 3 } { word := BitVec.ofInt 64 (codeWord 7 5 0), sig := 5 } { word := 0, sig := 9 } = none := by
  decide +kernel

/-- The words of B1 and B8 of 06_tile_instruction_set. -/
theorem test_handler_words :
    decodeTile 0x70003C04 0 = some ⟨0x1C, .lp { ra := 0, bound := 15, len := 4 }⟩ ∧
    decodeTile 0x7BA00005 0 = some ⟨0x1E, .b { ra := 29, disp := 5 }⟩ := by decide +kernel

/-- The word or words of an instruction for a bundle. -/
def bw (op : BitVec 6) (f : TFields) : Reg32 := (encodeTile op f).1

/-- The door obstacle handler of 06_tile_instruction_set, B0 to B13. -/
def doorCode : List Bundle :=
  [⟨bw 2 (.l ⟨24, 0x3E000⟩), 0x3E000⟩, ⟨bw 0x1C (.lp ⟨0, 15, 4⟩), bw 1 (.rr { rd := 25, ra := 0 })⟩,
   ⟨bw 0x1A (.m ⟨26, 24, 0, 0⟩), 0⟩, ⟨bw 0x1A (.m ⟨27, 24, 13, 32⟩), 0⟩,
   ⟨bw 0x2B (.rr { rd := 28, ra := 27, fn := 1 }), bw 4 (.ri { rd := 24, ra := 24, ty := 3, imm := 1 })⟩,
   ⟨bw 0x10 (.rr { rd := 28, ra := 28, rb := 26 }), 0⟩, ⟨bw 0x11 (.rr { rd := 25, ra := 25, rb := 28 }), 0⟩,
   ⟨bw 0x13 (.rr { rd := 29, ra := 25 }), 0⟩, ⟨bw 0x1E (.b ⟨29, 5⟩), 0⟩, ⟨bw 2 (.l ⟨30, 0x3E040⟩), 0x3E040⟩,
   ⟨bw 0x1B (.m ⟨25, 30, 0, 0⟩), bw 0x2C (.ri { rd := 31, imm := 0 })⟩, ⟨bw 0x1B (.m ⟨31, 30, 13, 1⟩), 0⟩,
   ⟨bw 0x2E (.e ⟨25, 2, 0x0E01⟩), 0⟩, ⟨bw 0x31 .z, 0⟩]

/-- Its worst case: 196 + 124 + 106 = 426 cycles. -/
theorem test_handler_wcet :
    handlerWcet { descs := [⟨0x20000, 2, 0, false, true, 0, 0⟩, ⟨0x20002, 1, 2, true, true, 0, 0⟩] } { evtTask := 0, descCount := 2, code := doorCode } = 426 ∧
    progWcet 0 doorCode = 124 := by decide +kernel

/-- Times are compared by signed difference (R9): 0x100 is after 0xFFFFFF00. -/
theorem test_signed_difference : before (0xFFFFFF00 : Reg32) 0x100 = true ∧ atOrBefore (0xFFFFFF00 : Reg32) 0x100 = true ∧
    before (0x100 : Reg32) 0xFFFFFF00 = false := by decide

/-- The step at the front of the queue is the command's own effect: a transfer of 2 words arrives in tile 1 (R109). -/
theorem test_transfer : (match step { wXmit with pending := [.scheduledTransfer 0] } with
    | .next t => (t.fab.tile 1).mem.read 0x3C038 == 9 && (t.fab.tile 1).mem.read 0x3C041 == 8 && t.pending.isEmpty
    | _ => false) = true := by decide +kernel

end Sys2Proof.Tests

end
end

/-! ## Counters and edge blocks (R135) -/

namespace Sys2Proof.Machine

/-! ### Bytes and fields of local data -/

theorem Mem.read_eq_zero {m : Mem} {x : Nat} (h : ∀ c ∈ m, c.1 ≠ x) : m.read x = 0 := by
  induction m with
  | nil => rfl
  | cons c m ih =>
    obtain ⟨hc, hm⟩ := List.forall_mem_cons.1 h
    simp only [Mem.read, if_neg hc, ih hm, ite_self]

theorem Mem.mem_clear {m : Mem} {lo hi : Nat} {c : Nat × BitVec 8} :
    c ∈ m.clear lo hi ↔ c ∈ m ∧ (c.1 < lo ∨ hi ≤ c.1) := by
  simp [Mem.clear]

theorem Mem.readLE_congr {m k : Mem} {a n : Nat} (h : ∀ y, a ≤ y → y < a + n → m.read y = k.read y) :
    m.readLE a n = k.readLE a n := by
  induction n generalizing a with
  | zero => rfl
  | succ n ih =>
    simp only [Mem.readLE]
    rw [h a (by omega) (by omega), ih (fun y h1 h2 => h y (by omega) (by omega))]

theorem fld_write_out {m : Mem} (w : m.wf = true) {a y : Nat} (v : BitVec 8) (h : y < a ∨ a + 4 ≤ y) :
    fld (m.write y v) a = fld m a := by
  have e : (m.write y v).readLE a 4 = m.readLE a 4 :=
    Mem.readLE_congr fun z _ _ => by rw [Mem.read_write w, if_neg (by omega)]
  rw [fld, e, fld]

theorem fld_setFld {m : Mem} (w : m.wf = true) (a : Nat) {i : Int} (lo : -(2 ^ 31) ≤ i) (hi : i ≤ 2 ^ 31 - 1) :
    fld (setFld m a i) a = i := by
  rw [fld, setFld, Mem.readLE_writeLE w, Nat.mod_eq_of_lt (BitVec.isLt _), BitVec.ofNat_toNat, BitVec.setWidth_eq,
    BitVec.toInt_ofInt_eq_self (by decide) lo (by omega)]

theorem fld_bounds (m : Mem) (a : Nat) : -(2 ^ 31) ≤ fld m a ∧ fld m a ≤ 2 ^ 31 - 1 :=
  ⟨BitVec.le_toInt _, Int.le_sub_one_of_lt BitVec.toInt_lt⟩

theorem setFld_wf {m : Mem} (w : m.wf = true) (a : Nat) (i : Int) : (setFld m a i).wf = true :=
  Mem.writeLE_wf w _ _ _

theorem read_setFld_out {m : Mem} (w : m.wf = true) {a y : Nat} (i : Int) (h : y < a ∨ a + 4 ≤ y) :
    (setFld m a i).read y = m.read y :=
  Mem.read_writeLE_out w _ _ h

/-- What the counters and the edge blocks write to the byte of the previous input. -/
theorem bit_setBit_clrBit (b : BitVec 8) (x : Bool) : bit (if x then setBit b 0 else clrBit b 0) 0 = x := by
  cases x <;> simp [bit, setBit, clrBit]

/-! ### The counters -/

/-- The counter value that CTU (`up`) or CTD writes back. -/
def counterCv (up : Bool) (f : FBF) (t : Tile) (a : Nat) : Int :=
  let rise := isTrue (t.reg f.ra) && !bit (t.mem.read (a + 8)) 0
  let cv := fld t.mem (a + 4)
  if up then (if isTrue (t.reg f.rb) then 0 else if rise then min (cv + 1) (2 ^ 31 - 1) else cv)
  else (if isTrue (t.reg f.rb) then fld t.mem a else if rise then max (cv - 1) (-(2 ^ 31)) else cv)

theorem counter_mem (up : Bool) (f : FBF) (t : Tile) (a : Nat) :
    (counter up f t a).1 = (setFld t.mem (a + 4) (counterCv up f t a)).write (a + 8)
      (if isTrue (t.reg f.ra) then setBit (t.mem.read (a + 8)) 0 else clrBit (t.mem.read (a + 8)) 0) := rfl

theorem counter_res (up : Bool) (f : FBF) (t : Tile) (a : Nat) :
    (counter up f t a).2 = boolRes (if up then decide (fld t.mem a ≤ counterCv up f t a) else decide (counterCv up f t a ≤ 0)) := rfl

theorem counterCv_bounds (up : Bool) (f : FBF) (t : Tile) (a : Nat) :
    -(2 ^ 31) ≤ counterCv up f t a ∧ counterCv up f t a ≤ 2 ^ 31 - 1 := by
  have hpv := fld_bounds t.mem a
  have hcv := fld_bounds t.mem (a + 4)
  unfold counterCv
  dsimp only
  split_ifs <;> omega

section
variable {t : Tile} (w : t.mem.wf = true) (up : Bool) (f : FBF) (a : Nat)
include w

theorem fld_counter : fld (counter up f t a).1 (a + 4) = counterCv up f t a := by
  obtain ⟨lo, hi⟩ := counterCv_bounds up f t a
  rw [counter_mem, fld_write_out (setFld_wf w _ _) _ (by omega), fld_setFld w _ lo hi]

theorem counter_keeps_input : bit ((counter up f t a).1.read (a + 8)) 0 = isTrue (t.reg f.ra) := by
  rw [counter_mem, Mem.read_write (setFld_wf w _ _), if_pos rfl, bit_setBit_clrBit]

theorem counter_read_out {z : Nat} (h : z < a + 4 ∨ a + 8 < z) : (counter up f t a).1.read z = t.mem.read z := by
  rw [counter_mem, Mem.read_write (setFld_wf w _ _), if_neg (by omega), read_setFld_out w _ (by omega)]

end

/-! ### The edge blocks -/

theorem edge_mem (rising : Bool) (f : FBF) (t : Tile) (a : Nat) :
    (edge rising f t a).1 = t.mem.write a
      (if isTrue (t.reg f.ra) then setBit (t.mem.read a) 0 else clrBit (t.mem.read a) 0) := rfl

theorem edge_res (rising : Bool) (f : FBF) (t : Tile) (a : Nat) :
    (edge rising f t a).2 = boolRes (if rising then isTrue (t.reg f.ra) && !bit (t.mem.read a) 0
      else !isTrue (t.reg f.ra) && bit (t.mem.read a) 0) := rfl

section
variable {t : Tile} (w : t.mem.wf = true) (rising : Bool) (f : FBF) (a : Nat)
include w

theorem edge_keeps_input : bit ((edge rising f t a).1.read a) 0 = isTrue (t.reg f.ra) := by
  rw [edge_mem, Mem.read_write w, if_pos rfl, bit_setBit_clrBit]

theorem edge_read_out {z : Nat} (h : z ≠ a) : (edge rising f t a).1.read z = t.mem.read z := by
  rw [edge_mem, Mem.read_write w, if_neg h]

end

/-- Where the kept input is still 0, as at the first execution, RTRIG fires on a true input alone. -/
theorem edge_rising_res_of_zero {t : Tile} {a : Nat} (f : FBF) (h : t.mem.read a = 0) :
    (edge true f t a).2 = boolRes (isTrue (t.reg f.ra)) := by
  simp [edge_res, h, bit]

/-- Behind the initial image, local data, windows and network buffers start at 0 (R121). -/
theorem init_read_eq_zero {t : Tile} (w : t.mem.wf = true) {p : TileProg} {a : Nat}
    (lo : 0x20000 + p.localInit.length ≤ a) (hi : a < 0x3F000) : (t.init p).mem.read a = 0 := by
  have hw := Mem.clear_wf (Mem.clear_wf w 0x30000 0x3F000) 0x20000 0x30000
  simp only [Tile.init, initMem, initLocal]
  rw [Mem.read_writeList_out hw (.inr lo)]
  refine Mem.read_eq_zero fun c hc => ?_
  simp only [Mem.mem_clear] at hc
  omega

/-- Settles O19: the counter value written back lies within a DINT, so it reads back as it was written; the byte of the
previous input lies outside its four bytes. -/
theorem countersEdges : Obligations.CountersEdges := by
  intro t f a w x y pv cv was up down
  have hup : fld up.1 (a + 4) = counterCv true f t a := fld_counter w true f a
  have hdown : fld down.1 (a + 4) = counterCv false f t a := fld_counter w false f a
  have hupQ : up.2 = boolRes (decide (pv ≤ fld up.1 (a + 4))) := by rw [hup]; exact counter_res true f t a
  have hdownQ : down.2 = boolRes (decide (fld down.1 (a + 4) ≤ 0)) := by rw [hdown]; exact counter_res false f t a
  refine ⟨hup, hdown, hupQ, hdownQ, counter_keeps_input w true f a, counter_keeps_input w false f a,
    fun z h => ⟨counter_read_out w true f a h, counter_read_out w false f a h⟩,
    fun rising => ⟨edge_keeps_input w rising f a, fun z h => edge_read_out w rising f a h⟩,
    edge_res true f t a, edge_res false f t a, fun p lo hi => ?_⟩
  have hinit : (t.init p).mem.read a = 0 := init_read_eq_zero w lo hi
  exact ⟨hinit, edge_rising_res_of_zero f hinit⟩

end Sys2Proof.Machine

/-! ## The severities (R466, R472 to R474) -/

namespace Sys2Proof.Machine

/-! ### The store takes a record -/

theorem mem_putSlot_self (x : StoreSlot) (l : List StoreSlot) : x ∈ putSlot x l := by
  induction l with
  | nil => exact .head _
  | cons y ys ih =>
    rw [putSlot]
    split
    · exact .head _
    · split
      · exact .head _
      · exact .tail _ ih

/-- Pinning the CLEAR records touches neither a slot's record nor its CRC. -/
theorem exists_mem_pinClears {x : StoreSlot} {l : List StoreSlot} (h : x ∈ l) : ∃ y ∈ pinClears l, y.r = x.r ∧ y.bad = x.bad :=
  ⟨_, List.mem_map_of_mem h, rfl, rfl⟩

/-- While a slot is empty, a record copied to the store stands there with a sound CRC. -/
theorem Evr.put_stores {e : Evr} (r : Rec) (h : (goodSlots e.store).length < 49152) :
    ∃ x ∈ (e.put r).store, x.r = r ∧ x.bad = false := by
  simp only [Evr.put, if_pos h]
  exact exists_mem_pinClears (mem_putSlot_self _ _)

theorem Evr.copyOne_of_nil {e : Evr} (h : e.pending = []) : e.copyOne = e := by
  simp [Evr.copyOne, h]

theorem Evr.copyOne_of_find {e : Evr} {q : Reg32} {qs : List Reg32} {r : Rec} (hq : e.pending = q :: qs)
    (hr : e.ring.find? (fun x => x.seq == q) = some r) : e.copyOne = Evr.put { e with pending := qs } r := by
  simp [Evr.copyOne, hq, hr]

/-! ### A record written while the ring has room -/

section
variable {s : State} (r : Rec)

@[simp] theorem recordAs_store : (recordAs s r).evr.store = s.evr.store := rfl

@[simp] theorem recordAs_flushing : (recordAs s r).evr.flushing = (s.evr.flushing || decide (4 ≤ r.sev.num)) := rfl

variable (room : s.evr.ring.length < 16384)
include room

theorem recordAs_evr_pending_of_room : (recordAs s r).evr.pending = (pendAdd (r :: s.evr.ring) s.evr.pending r).1 := by
  simp [recordAs, Evr.write, Nat.not_le.2 room]

variable (idle : s.evr.pending = [])
include idle

theorem recordAs_trace_not_pending (h : r.sev = .trace) : (recordAs s r).evr.pending = [] := by
  simp [recordAs_evr_pending_of_room r room, idle, pendAdd, h]

theorem recordAs_pending_alone (h : r.sev ≠ .trace) : (recordAs s r).evr.pending = [r.seq] := by
  simp [recordAs_evr_pending_of_room r room, idle, pendAdd, h]

/-- A TRACE record leaves the next copy nothing to do. -/
theorem recordAs_trace_copyOne (h : r.sev = .trace) : (recordAs s r).evr.copyOne.store = s.evr.store := by
  rw [Evr.copyOne_of_nil (recordAs_trace_not_pending r room idle h), recordAs_store]

/-- Any other record is the one pending and first in the ring, so the next copy finds it and stores it. -/
theorem recordAs_copyOne_stores (h : r.sev ≠ .trace) (free : (goodSlots s.evr.store).length < 49152) :
    ∃ x ∈ (recordAs s r).evr.copyOne.store, x.r = r ∧ x.bad = false := by
  obtain ⟨l, hring, -⟩ := recordAs_ring s r
  have hfind : (recordAs s r).evr.ring.find? (fun x => x.seq == r.seq) = some r := by simp [hring]
  rw [Evr.copyOne_of_find (recordAs_pending_alone r room idle h) hfind]
  exact Evr.put_stores r free

end

/-! ### The severities -/

theorem Sev.four_le_num (sev : Sev) :
    decide (4 ≤ sev.num) = (sev == .error || sev == .critical || sev == .safety || sev == .security) := by
  cases sev <;> rfl

/-- Settles O21: with room in the ring and none pending, a record of INFO or above is the one the next copy takes. -/
theorem severities : Obligations.Severities := by
  refine ⟨rfl, fun s src code n l idle room free sev => ?_⟩
  let r := mkRec s sev src code s.cyc.mcc (BitVec.ofNat 32 n) l
  refine ⟨record_records s sev src code n l, fun h => ⟨recordAs_pending_alone r room idle h, ?_⟩,
    fun h => ⟨recordAs_trace_not_pending r room idle h, recordAs_trace_copyOne r room idle h⟩, ?_⟩
  · obtain ⟨x, hx, hr, hbad⟩ := recordAs_copyOne_stores r room idle h free
    exact ⟨x, hx, congrArg Rec.seq hr, congrArg Rec.sev hr, hbad⟩
  · calc (recordAs s r).evr.flushing
        = (s.evr.flushing || decide (4 ≤ sev.num)) := recordAs_flushing r
      _ = _ := by simp only [Sev.four_le_num, Bool.or_assoc]

end Sys2Proof.Machine

/-! ## What a command reaches, and what every command keeps -/

namespace Sys2Proof.Machine

/-! ### Parts of the state -/

/-- The parts of the state. -/
inductive Part where
  | pending | ci | fab | cyc | glb | pim | arb | txe | eth | mvb | can0 | can1 | gw | tb | grp | safe | tk | upd | pgv | rst
  | cul | evr | pmu | pin | clk | dram | host | latches | out
  deriving DecidableEq

/-- The state s with the parts of a list as t has them. -/
def takes (w : List Part) (t s : State) : State where
  pending := bif w.contains .pending then t.pending else s.pending
  ci := bif w.contains .ci then t.ci else s.ci
  fab := bif w.contains .fab then t.fab else s.fab
  cyc := bif w.contains .cyc then t.cyc else s.cyc
  glb := bif w.contains .glb then t.glb else s.glb
  pim := bif w.contains .pim then t.pim else s.pim
  arb := bif w.contains .arb then t.arb else s.arb
  txe := bif w.contains .txe then t.txe else s.txe
  eth := bif w.contains .eth then t.eth else s.eth
  mvb := bif w.contains .mvb then t.mvb else s.mvb
  can0 := bif w.contains .can0 then t.can0 else s.can0
  can1 := bif w.contains .can1 then t.can1 else s.can1
  gw := bif w.contains .gw then t.gw else s.gw
  tb := bif w.contains .tb then t.tb else s.tb
  grp := bif w.contains .grp then t.grp else s.grp
  safe := bif w.contains .safe then t.safe else s.safe
  tk := bif w.contains .tk then t.tk else s.tk
  upd := bif w.contains .upd then t.upd else s.upd
  pgv := bif w.contains .pgv then t.pgv else s.pgv
  rst := bif w.contains .rst then t.rst else s.rst
  cul := bif w.contains .cul then t.cul else s.cul
  evr := bif w.contains .evr then t.evr else s.evr
  pmu := bif w.contains .pmu then t.pmu else s.pmu
  pin := bif w.contains .pin then t.pin else s.pin
  clk := bif w.contains .clk then t.clk else s.clk
  dram := bif w.contains .dram then t.dram else s.dram
  host := bif w.contains .host then t.host else s.host
  latches := bif w.contains .latches then t.latches else s.latches
  out := bif w.contains .out then t.out else s.out

theorem cond_cond_of_imp {α : Type} {a w : Bool} (h : a = true → w = true) (x y z : α) :
    (bif w then z else bif a then y else x) = bif w then z else x := by
  cases w <;> cases a <;> simp_all

theorem cond_of_imp {α : Type} {a w : Bool} (h : a = true → w = true) (x y : α) :
    (bif w then bif a then y else x else x) = bif a then y else x := by
  cases w <;> cases a <;> simp_all

theorem takes_self (w : List Part) (s : State) : takes w s s = s := by
  unfold takes; simp only [Bool.cond_self]

section
variable {a w : List Part} (h : a ⊆ w)
include h

theorem contains_of_subset {p : Part} (hp : a.contains p = true) : w.contains p = true := by
  rw [List.contains_iff_mem] at *; exact h hp

/-- What was taken before is taken again from the later state. -/
theorem takes_takes (s t u : State) : takes w u (takes a t s) = takes w u s := by
  unfold takes; congr 1 <;> exact cond_cond_of_imp (contains_of_subset h) ..

theorem takes_of_subset {s t : State} (ht : t = takes a t s) : t = takes w t s := by
  have hw : takes w (takes a t s) s = takes a t s := by
    unfold takes; congr 1 <;> exact cond_of_imp (contains_of_subset h) ..
  rw [← ht] at hw; exact hw.symm

theorem takes_trans {s t u : State} (ht : t = takes w t s) (hu : u = takes a u t) : u = takes w u s := by
  calc u = takes w u t := takes_of_subset h hu
    _ = takes w u (takes w t s) := congrArg (takes w u) ht
    _ = takes w u s := takes_takes (fun _ hp => hp) s t u

end

/-! ### What every command keeps -/

/-- The ring of records and the set of the pending ones within their bounds (R472). -/
def EvrOk (e : Evr) : Prop := e.ring.length ≤ 16384 ∧ e.pending.length ≤ 512

/-- From s to t only the parts of w change, and each condition that every step keeps stays. -/
structure Within (w : List Part) (s t : State) : Prop where
  frame : t = takes w t s
  dramWf : s.dram.wf = true → t.dram.wf = true
  fabOk : FabOk s.fab → FabOk t.fab
  soOk : SoOk s.safe → SoOk t.safe
  ringLe : s.pim.ring.length ≤ 4 → t.pim.ring.length ≤ 4
  evrOk : EvrOk s.evr → EvrOk t.evr
  logLe : s.txe.log.length ≤ 64 → t.txe.log.length ≤ 64

namespace Within

variable {w a : List Part} {s t u : State}

theorem refl : Within w s s := ⟨(takes_self w s).symm, id, id, id, id, id, id⟩

/-- A step that changes fewer parts, after others. -/
theorem trans (h : Within w s t) (k : Within a t u) (ha : a ⊆ w := by decide) : Within w s u where
  frame := takes_trans ha h.frame k.frame
  dramWf := k.dramWf ∘ h.dramWf
  fabOk := k.fabOk ∘ h.fabOk
  soOk := k.soOk ∘ h.soOk
  ringLe := k.ringLe ∘ h.ringLe
  evrOk := k.evrOk ∘ h.evrOk
  logLe := k.logLe ∘ h.logLe

/-- A change of parts within w. -/
theorem upd (h : Within w s t) (frame : u = takes w u t := by rfl) (dram : t.dram.wf = true → u.dram.wf = true := by exact id)
    (fab : FabOk t.fab → FabOk u.fab := by exact id) (safe : SoOk t.safe → SoOk u.safe := by exact id)
    (pim : t.pim.ring.length ≤ 4 → u.pim.ring.length ≤ 4 := by exact id) (evr : EvrOk t.evr → EvrOk u.evr := by exact id)
    (txe : t.txe.log.length ≤ 64 → u.txe.log.length ≤ 64 := by exact id) : Within w s u :=
  h.trans ⟨frame, dram, fab, safe, pim, evr, txe⟩ (fun _ hp => hp)

theorem mono (h : Within a s t) (ha : a ⊆ w := by decide) : Within w s t := refl.trans h ha

/-- A change of the parts named. -/
theorem set (w : List Part) (frame : t = takes w t s := by rfl) (dram : s.dram.wf = true → t.dram.wf = true := by exact id)
    (fab : FabOk s.fab → FabOk t.fab := by exact id) (safe : SoOk s.safe → SoOk t.safe := by exact id)
    (pim : s.pim.ring.length ≤ 4 → t.pim.ring.length ≤ 4 := by exact id) (evr : EvrOk s.evr → EvrOk t.evr := by exact id)
    (txe : s.txe.log.length ≤ 64 → t.txe.log.length ≤ 64 := by exact id) : Within w s t :=
  ⟨frame, dram, fab, safe, pim, evr, txe⟩

theorem skip : Within [] s s := refl

theorem seq {b : List Part} (h : Within a s t) (k : Within b t u) : Within (a ++ b) s u :=
  (h.mono (List.subset_append_left a b)).trans k (List.subset_append_right a b)

theorem ite {c : Prop} [Decidable c] (ht : Within w s t) (hu : Within w s u) : Within w s (if c then t else u) := by
  split
  · exact ht
  · exact hu

theorem cond {b : List Part} {c : Prop} [Decidable c] (ht : Within a s t) (hu : Within b s u) : Within (a ++ b) s (if c then t else u) := by
  split
  · exact ht.mono (List.subset_append_left a b)
  · exact hu.mono (List.subset_append_right a b)

theorem dcond {b : List Part} {c : Prop} [Decidable c] {f : c → State} {g : ¬c → State}
    (hf : ∀ h, Within a s (f h)) (hg : ∀ h, Within b s (g h)) :
    Within (a ++ b) s (if h : c then f h else g h) := by
  split
  · exact (hf _).mono (List.subset_append_left a b)
  · exact (hg _).mono (List.subset_append_right a b)

theorem fold {β : Type} {f : State → β → State} (hf : ∀ s x, Within a s (f s x)) : ∀ (l : List β) (s : State), Within a s (l.foldl f s)
  | [], _ => refl
  | x :: l, s => (hf s x).trans (fold hf l _) (fun _ hp => hp)

/-- A part set in a state that need not be unfolded. -/
theorem setEth (h : Within w s t) (x : Eth) (hw : [.eth] ⊆ w := by decide) : Within w s { t with eth := x } := h.trans (.set [.eth]) hw

/-! Each part outside w is as it was. -/

theorem cond_eq_right {α : Type} {b : Bool} (h : b = false) (x y : α) : (bif b then x else y) = y := h ▸ rfl

section
variable (h : Within w s t)
include h

theorem pending_eq (hw : w.contains .pending = false := by decide) : t.pending = s.pending :=
    (congrArg State.pending h.frame).trans (cond_eq_right hw ..)

theorem ci_eq (hw : w.contains .ci = false := by decide) : t.ci = s.ci := (congrArg State.ci h.frame).trans (cond_eq_right hw ..)

theorem fab_eq (hw : w.contains .fab = false := by decide) : t.fab = s.fab := (congrArg State.fab h.frame).trans (cond_eq_right hw ..)

theorem cyc_eq (hw : w.contains .cyc = false := by decide) : t.cyc = s.cyc := (congrArg State.cyc h.frame).trans (cond_eq_right hw ..)

theorem glb_eq (hw : w.contains .glb = false := by decide) : t.glb = s.glb := (congrArg State.glb h.frame).trans (cond_eq_right hw ..)

theorem pim_eq (hw : w.contains .pim = false := by decide) : t.pim = s.pim := (congrArg State.pim h.frame).trans (cond_eq_right hw ..)

theorem arb_eq (hw : w.contains .arb = false := by decide) : t.arb = s.arb := (congrArg State.arb h.frame).trans (cond_eq_right hw ..)

theorem txe_eq (hw : w.contains .txe = false := by decide) : t.txe = s.txe := (congrArg State.txe h.frame).trans (cond_eq_right hw ..)

theorem eth_eq (hw : w.contains .eth = false := by decide) : t.eth = s.eth := (congrArg State.eth h.frame).trans (cond_eq_right hw ..)

theorem mvb_eq (hw : w.contains .mvb = false := by decide) : t.mvb = s.mvb := (congrArg State.mvb h.frame).trans (cond_eq_right hw ..)

theorem can0_eq (hw : w.contains .can0 = false := by decide) : t.can0 = s.can0 := (congrArg State.can0 h.frame).trans (cond_eq_right hw ..)

theorem can1_eq (hw : w.contains .can1 = false := by decide) : t.can1 = s.can1 := (congrArg State.can1 h.frame).trans (cond_eq_right hw ..)

theorem gw_eq (hw : w.contains .gw = false := by decide) : t.gw = s.gw := (congrArg State.gw h.frame).trans (cond_eq_right hw ..)

theorem tb_eq (hw : w.contains .tb = false := by decide) : t.tb = s.tb := (congrArg State.tb h.frame).trans (cond_eq_right hw ..)

theorem grp_eq (hw : w.contains .grp = false := by decide) : t.grp = s.grp := (congrArg State.grp h.frame).trans (cond_eq_right hw ..)

theorem safe_eq (hw : w.contains .safe = false := by decide) : t.safe = s.safe := (congrArg State.safe h.frame).trans (cond_eq_right hw ..)

theorem tk_eq (hw : w.contains .tk = false := by decide) : t.tk = s.tk := (congrArg State.tk h.frame).trans (cond_eq_right hw ..)

theorem upd_eq (hw : w.contains .upd = false := by decide) : t.upd = s.upd := (congrArg State.upd h.frame).trans (cond_eq_right hw ..)

theorem pgv_eq (hw : w.contains .pgv = false := by decide) : t.pgv = s.pgv := (congrArg State.pgv h.frame).trans (cond_eq_right hw ..)

theorem rst_eq (hw : w.contains .rst = false := by decide) : t.rst = s.rst := (congrArg State.rst h.frame).trans (cond_eq_right hw ..)

theorem cul_eq (hw : w.contains .cul = false := by decide) : t.cul = s.cul := (congrArg State.cul h.frame).trans (cond_eq_right hw ..)

theorem evr_eq (hw : w.contains .evr = false := by decide) : t.evr = s.evr := (congrArg State.evr h.frame).trans (cond_eq_right hw ..)

theorem pmu_eq (hw : w.contains .pmu = false := by decide) : t.pmu = s.pmu := (congrArg State.pmu h.frame).trans (cond_eq_right hw ..)

theorem pin_eq (hw : w.contains .pin = false := by decide) : t.pin = s.pin := (congrArg State.pin h.frame).trans (cond_eq_right hw ..)

theorem clk_eq (hw : w.contains .clk = false := by decide) : t.clk = s.clk := (congrArg State.clk h.frame).trans (cond_eq_right hw ..)

theorem dram_eq (hw : w.contains .dram = false := by decide) : t.dram = s.dram := (congrArg State.dram h.frame).trans (cond_eq_right hw ..)

theorem host_eq (hw : w.contains .host = false := by decide) : t.host = s.host := (congrArg State.host h.frame).trans (cond_eq_right hw ..)

theorem latches_eq (hw : w.contains .latches = false := by decide) : t.latches = s.latches :=
    (congrArg State.latches h.frame).trans (cond_eq_right hw ..)

theorem out_eq (hw : w.contains .out = false := by decide) : t.out = s.out := (congrArg State.out h.frame).trans (cond_eq_right hw ..)

end

end Within

/-- A command that ends in a next state, reached within w. -/
def Goes (w : List Part) (s : State) (o : Host.Outcome State Fault Refusal) : Prop := ∃ t, o = .next t ∧ Within w s t

theorem Goes.intro {w : List Part} {s t : State} (h : Within w s t) : Goes w s (.next t) := ⟨t, rfl, h⟩

end Sys2Proof.Machine

/-! ## What each function of the model reaches -/

namespace Sys2Proof.Machine

-- One declaration after another: elaborated side by side, their terms together pass the memory that the check allows.
set_option Elab.async false

open Within

/-! ### Machine/Ops.lean -/

theorem modPmu_within (s : State) (i : Nat) (f : PmuInst → PmuInst) : Within [.pmu] s (modPmu s i f) :=
  refl.upd

section
variable {w : List Part} {s : State} {c : Instr} {k : State → State} (hk : ∀ u, Within w u (k u))
include hk

theorem coreAccess_within {core : Fin 8} (hw : [.host, .out] ⊆ w := by decide) : Within w s (coreAccess s core c k) := by
  unfold coreAccess
  split
  · exact refl.trans (.set [.host, .out]) hw
  · split
    · exact refl.trans (.set [.host, .out]) hw
    · exact hk s

theorem coreStall_within (hw : [.host] ⊆ w := by decide) : Within w s (coreStall s c k) := by
  unfold coreStall
  split
  · exact refl
  · split
    · exact refl.trans (.set [.host]) hw
    · exact hk s

end

theorem pmuCount_within (s : State) (i ev n : Nat) : Within [.pmu, .out] s (pmuCount s i ev n) :=
  refl.trans (modPmu_within ..) |>.trans (.cond .skip (.set [.pmu])) |>.trans (.cond (.set [.out]) .skip)

theorem pmuTick_within (n : Nat) (s : State) (i : Nat) : Within [.pmu, .out] s (pmuTick n s i) :=
  refl.trans (modPmu_within ..) |>.trans (pmuCount_within ..)

theorem pmuPass_within (s : State) (n : Nat) : Within [.pmu, .out] s (pmuPass s n) :=
  refl.trans (.fold (fun _ _ => pmuTick_within ..) _ _)

theorem passTime_within (s : State) (n : Nat) : Within [.tb, .cul, .pmu, .pin, .clk, .out] s (passTime s n) :=
  refl.trans (pmuPass_within ..) |>.upd

theorem idle_within (s : State) : Within [.tb, .cul, .pmu, .pin, .clk, .out] s (idle s) := by
  unfold idle
  split
  · exact refl.trans (passTime_within ..) |>.upd
  · exact refl

theorem passTo_within (s : State) (t : Word) : Within [.tb, .cul, .pmu, .pin, .clk, .out] s (passTo s t) := by
  unfold passTo
  split
  · exact refl.trans (passTime_within ..)
  · exact refl

theorem rxClk_within (s : State) (i : Nat) (v : Bool) : Within [.clk] s (rxClk s i v) :=
  refl.upd

theorem minSev_le (ring : List Rec) : ∀ l : List Reg32, minSev ring l ≤ 8
  | [] => Nat.le_refl 8
  | _ :: l => Nat.le_trans (Nat.min_le_right ..) (minSev_le ring l)

/-- The least severity is that of one of the pending records, unless none is below 8. -/
theorem minSev_mem (ring : List Rec) : ∀ {l : List Reg32}, minSev ring l < 8 → ∃ q ∈ l, sevOf ring q = minSev ring l
  | [], h => absurd h (Nat.lt_irrefl 8)
  | q :: l, h => by
    by_cases hq : sevOf ring q ≤ minSev ring l
    · exact ⟨q, by simp, (Nat.min_eq_left hq).symm⟩
    · have hm : minSev ring (q :: l) = minSev ring l := Nat.min_eq_right (by omega)
      obtain ⟨x, hx, e⟩ := minSev_mem ring (l := l) (by omega)
      exact ⟨x, by simp [hx], by omega⟩

theorem dropFirst_length_le {α : Type} (p : α → Bool) : ∀ l : List α, (dropFirst p l).length ≤ l.length
  | [] => Nat.le_refl 0
  | x :: l => by
    unfold dropFirst
    split
    · exact Nat.le_succ _
    · exact Nat.succ_le_succ (dropFirst_length_le p l)

theorem dropFirst_length_lt {α : Type} {p : α → Bool} : ∀ {l : List α}, (∃ x ∈ l, p x = true) → (dropFirst p l).length < l.length
  | [], h => by simp at h
  | x :: l, h => by
    unfold dropFirst
    split
    · exact Nat.lt_succ_self _
    · next hx =>
      have : ∃ y ∈ l, p y = true := by simpa [hx] using h
      exact Nat.succ_lt_succ (dropFirst_length_lt this)

theorem sevNum_lt (v : Sev) : v.num < 8 := by cases v <;> decide

/-- The pending set stays within its 512 places (R472). -/
theorem pendAdd_length_le {ring : List Rec} {l : List Reg32} (r : Rec) (h : l.length ≤ 512) : (pendAdd ring l r).1.length ≤ 512 := by
  unfold pendAdd
  split
  · exact h
  · split
    · simp only [List.length_append, List.length_singleton]; omega
    · dsimp only
      split
      · exact h
      · next hr =>
        have := sevNum_lt r.sev
        obtain ⟨q, hq, e⟩ : ∃ q ∈ l, sevOf ring q = minSev ring l := by
          by_cases h8 : minSev ring l < 8
          · exact minSev_mem ring h8
          · omega
        have := dropFirst_length_lt (p := fun q => sevOf ring q == minSev ring l) ⟨q, hq, by simp [e]⟩
        simp only [List.length_append, List.length_singleton]; omega

theorem Evr.write_ring_length_le {e : Evr} (r : Rec) (h : e.ring.length ≤ 16384) : (e.write r).ring.length ≤ 16384 := by
  by_cases hl : 16384 ≤ e.ring.length
  · simp [Evr.write, hl]; omega
  · simp [Evr.write, hl]; omega

theorem Evr.write_ok {e : Evr} (r : Rec) (h : EvrOk e) : EvrOk (e.write r) := by
  refine ⟨Evr.write_ring_length_le r h.1, pendAdd_length_le r ?_⟩
  split
  · exact Nat.le_trans (List.length_filter_le ..) h.2
  · exact h.2

theorem recordAs_within (s : State) (r : Rec) : Within [.evr] s (recordAs s r) :=
  refl.upd (evr := Evr.write_ok r)

theorem record_within (s : State) (sev : Sev) (src : BitVec 12) (code : BitVec 16) (subject : Nat) (detail : List Byte) :
    Within [.evr] s (record s sev src code subject detail) :=
  refl.trans (recordAs_within ..)

theorem suppress_within (s : State) (src : BitVec 12) (code : BitVec 16) : Within [.evr] s (suppress s src code) :=
  refl.upd

/-- What every tile keeps: its scratchpad's canonical form and its 32 registers. -/
def TileOk (t : Tile) : Prop := t.mem.wf = true ∧ t.regs.length = 32

theorem modTile_within (s : State) (n : TileNo) (g : Tile → Tile)
    (hg : FabOk s.fab → ∀ t, TileOk t → TileOk (g t) := by exact fun _ _ h => h) :
    Within [.fab] s (modTile s n g) :=
  refl.upd (fab := fun h => FabOk_modTile h (hg h))

/-- A change of every tile that keeps the canonical form and the register count keeps the fabric's shape. -/
theorem FabOk.map {f : Fabric} (h : FabOk f) {g : Tile → Tile}
    (hg : ∀ t, t.mem.wf = true ∧ t.regs.length = 32 → (g t).mem.wf = true ∧ (g t).regs.length = 32) {l : List Tile} (hl : l = f.tiles.map g)
    {f' : Fabric} (hf : f'.tiles = l) : FabOk f' := by
  subst hl
  refine ⟨by simp [hf, h.1], fun t ht => ?_⟩
  rw [hf] at ht
  obtain ⟨x, hx, rfl⟩ := List.mem_map.1 ht
  exact hg x (h.2 x hx)

theorem fabricHold_within (s : State) (esc : Bool) : Within [.fab, .glb, .pmu] s (fabricHold s esc) :=
  refl.upd (fab := fun h => h.map (g := Tile.held) (fun _ k => k) rfl rfl)

theorem fabricEscalate_within (s : State) : Within [.fab, .glb, .rst, .evr, .pmu] s (fabricEscalate s) :=
  refl.trans (fabricHold_within ..) |>.upd |>.trans (.cond (.seq (.set [.fab, .glb]) (record_within ..)) .skip)

theorem tileResetRecord_within (s : State) (n : TileNo) (commanded : Bool) : Within [.evr] s (tileResetRecord s n commanded) := by
  unfold tileResetRecord
  dsimp only
  split
  · exact refl.trans (record_within ..)
  · split
    · exact refl.trans (record_within ..)
    · split
      · exact refl.trans (record_within ..)
      · exact refl

theorem resetTile_within (s : State) (n : TileNo) : Within [.fab, .glb, .rst, .evr, .pmu, .out] s (resetTile s n) := by
  unfold resetTile
  dsimp only
  refine .trans ?_ (.cond (fabricEscalate_within ..) .skip)
  refine .trans ?_ (pmuCount_within ..)
  exact refl.upd (fab := fun h => FabOk_modTile h (fun _ k => k))

theorem tileReset_within (s : State) (n : TileNo) (src : ResetSource) : Within [.fab, .glb, .rst, .evr, .pmu, .out] s (tileReset s n src) := by
  unfold tileReset
  split
  · exact refl
  · exact refl.upd |>.trans (tileResetRecord_within ..) |>.trans (resetTile_within ..)

theorem tileTrap_within (s : State) (n : TileNo) (addr : Nat) : Within [.fab, .glb, .rst, .evr, .pmu, .out] s (tileTrap s n addr) :=
  refl.trans (record_within ..) |>.trans (tileReset_within ..)

/-! ### Machine/PimOps.lean -/

theorem noteUsed_within (s : State) : Within [.pim] s (noteUsed s) :=
  refl.upd

theorem addStaging_within (s : State) (es : List StgEnt) : Within [.pim] s (addStaging s es) :=
  refl.upd |>.trans (noteUsed_within ..)

theorem dropInst_within (s : State) (task : Nat) (rel : Mcc) : Within [.pim] s (dropInst s task rel) :=
  refl.upd

theorem modDyn_foldl_ring {β : Type} {sid : β → Sid} {g : β → SigDyn → SigDyn} :
    ∀ (l : List β) (p : Pim), (l.foldl (fun p e => p.modDyn (sid e) (g e)) p).ring = p.ring
  | [], _ => rfl
  | _ :: l, p => by rw [List.foldl_cons, modDyn_foldl_ring l]; rfl

theorem commitStaging_within (s : State) (k : Mcc) : Within [.pim] s (commitStaging s k) :=
  refl.upd (pim := fun h => by dsimp only [commitStaging]; rw [modDyn_foldl_ring]; exact h)

theorem dropoutRecords_within (s : State) (k : Mcc) : Within [.pim, .evr] s (dropoutRecords s k) :=
  refl.trans (.fold (fun _ _ => .seq (.set [.pim]) (record_within ..)) _ _)
    |>.trans (.fold (fun _ _ => (by split; exacts [.mono (.seq (.set [.pim]) (record_within ..))] : Within [.pim, .evr] _ _)) _ _)

theorem noteAges_within (s : State) (k : Mcc) : Within [.pim] s (noteAges s k) :=
  refl.upd

theorem carryRecord_within (s : State) (k : Mcc) : Within [.evr] s (carryRecord s k) := by
  unfold carryRecord
  dsimp only
  split
  · exact refl
  · exact refl.trans (record_within ..)

theorem pimUncorr_within (s : State) (w : Nat) : Within [.pim, .evr] s (pimUncorr s w) :=
  refl.upd |>.trans (record_within ..)

theorem noteWait_within (s : State) (fab : Bool) (words : List Nat) : Within [.arb] s (noteWait s fab words) :=
  refl.trans (.fold (fun _ _ => .set [.arb]) _ _)

theorem pimMeet_within (s : State) (bad words : List Nat) : Within [.pim, .evr] s (pimMeet s bad words) :=
  refl.upd |>.trans (.fold (fun _ _ => pimUncorr_within ..) _ _)

theorem publish_within (s : State) (k : Mcc) : Within [.pim] s (publish s k) :=
  refl.upd (pim := fun _ => List.length_take_le ..)

theorem refuseWriter_within (s : State) (sid : Sid) : Within [.evr] s (refuseWriter s sid) :=
  refl.trans (record_within ..)

/-! ### Machine/ModeOps.lean -/

theorem setState_within (s : State) (m : MState) : Within [.glb, .evr] s (setState s m) :=
  refl.upd |>.trans (record_within ..)

theorem lapse_within (s : State) : Within [.glb, .rst, .evr] s (lapse s) := by
  unfold lapse
  split
  · exact refl
  · exact refl.upd |>.trans (record_within ..)

theorem enterStop_within (s : State) (c : StopCause) : Within [.fab, .cyc, .glb, .pim, .evr] s (enterStop s c) := by
  unfold enterStop
  refine .trans ?_ (setState_within ..)
  refine .upd ?_ (t := List.foldl ..) (fab := fun h => h.map (g := fun t => { t with recs := [] }) (fun _ k => k) rfl rfl)
  exact refl.trans (.fold (fun _ _ => dropInst_within ..) _ _)

theorem ownStop_within (s : State) (c : StopCause) : Within [.fab, .cyc, .glb, .pim, .rst, .evr] s (ownStop s c) :=
  refl.trans (lapse_within ..) |>.trans (enterStop_within ..)

theorem enterSafeHalt_within (s : State) : Within [.cyc, .glb, .rst, .evr] s (enterSafeHalt s) :=
  refl.trans (lapse_within ..) |>.upd |>.trans (setState_within ..)

theorem restartSigs_within (s : State) (cold : Bool) : Within [.pim, .evr] s (restartSigs s cold) :=
  refl.upd |>.trans (.fold (fun _ _ => record_within ..) _ _)

theorem retentionPoint_within (s : State) : Within [.rst, .cul] s (retentionPoint s) := by
  unfold retentionPoint
  split
  · exact refl.upd
  · exact refl

theorem initMem_wf {m : Mem} (h : m.wf = true) (p : TileProg) : (initMem p m).wf = true :=
  Mem.writeList_wf (Mem.clear_wf (Mem.clear_wf h _ _) _ _) _ _

theorem initLocal_wf {m : Mem} (h : m.wf = true) (p : TileProg) : (initLocal p m).wf = true :=
  Mem.writeList_wf (Mem.clear_wf h _ _) _ _

/-- A change of every tile by its number that keeps the canonical form and the register count keeps the fabric's shape. -/
theorem FabOk.zipMap {f : Fabric} (h : FabOk f) {g : Nat × Tile → Tile}
    (hg : ∀ i t, t.mem.wf = true ∧ t.regs.length = 32 → (g (i, t)).mem.wf = true ∧ (g (i, t)).regs.length = 32)
    {f' : Fabric} (hf : f'.tiles = ((List.range 48).zip f.tiles).map g) : FabOk f' := by
  refine ⟨by simp [hf, h.1], fun t ht => ?_⟩
  rw [hf] at ht
  obtain ⟨⟨i, x⟩, hx, rfl⟩ := List.mem_map.1 ht
  exact hg i x (h.2 x (List.of_mem_zip hx).2)

theorem restartInit_ok (s : State) (i : Nat) (t : Tile) (h : t.mem.wf = true ∧ t.regs.length = 32) :
    (if h : i < 48 then t.restartInit s ⟨i, h⟩ else t).mem.wf = true ∧
      (if h : i < 48 then t.restartInit s ⟨i, h⟩ else t).regs.length = 32 := by
  split
  · exact ⟨initMem_wf h.1 _, h.2⟩
  · exact h

theorem enterRun_within (s : State) (cold : Bool) : Within [.fab, .glb, .pim, .rst, .cul, .evr] s (enterRun s cold) := by
  unfold enterRun
  refine .trans ?_ (setState_within ..)
  refine .trans ?_ (.cond (retentionPoint_within ..) .skip)
  refine .trans ?_ (.cond (record_within ..) .skip)
  refine .upd ?_ (t := restartSigs ..) (fab := fun h => h.zipMap (restartInit_ok _) rfl)
  exact refl.trans (restartSigs_within ..)

theorem setPending_within (s : State) (c : ModeCmd) (tgt : Mcc) : Within [.glb, .rst, .out] s (setPending s c tgt) :=
  refl.upd

theorem modeCommand_within (s : State) (c : ModeCmd) : Within [.glb, .rst, .out] s (modeCommand s c).1 := by
  unfold modeCommand
  split
  · exact refl
  · split
    · exact refl
    · split
      · exact refl
      · split <;> split
        · exact refl
        · exact refl.trans (setPending_within ..)
        · exact refl
        · exact refl.trans (setPending_within ..)

theorem addForceCmd_within (s : State) (c : ForceCmd) : Within [.glb] s (addForceCmd s c) :=
  refl.upd

theorem forcesEffect_within (s : State) (k : Mcc) : Within [.glb] s (forcesEffect s k) :=
  refl.upd

/-! ### Machine/TaskOps.lean -/

theorem raiseEvent_within (s : State) (n : Nat) (v : SigVal) (doorbell : Bool) : Within [.glb, .evr] s (raiseEvent s n v doorbell) := by
  unfold raiseEvent
  split
  · dsimp only
    split
    · exact refl.upd
    · exact refl.upd |>.trans (.cond (suppress_within ..) (record_within ..))
  · exact refl

theorem raiseFor_within (s : State) (sid : Sid) (v : SigVal) (doorbell : Bool) : Within [.glb, .evr] s (raiseFor s sid v doorbell) :=
  refl.trans (.fold (fun _ _ => raiseEvent_within ..) _ _)

theorem raiseNoted_within (s : State) (sid : Sid) (v : SigVal) (m : Mcc) : Within [.glb, .evr] s (raiseNoted s sid v m) :=
  refl.trans (raiseFor_within ..) |>.upd

theorem acceptWrite_within (s : State) (e : StgEnt) : Within [.glb, .pim, .evr] s (acceptWrite s e) :=
  refl.trans (addStaging_within ..) |>.trans (.cond .skip (raiseNoted_within ..))

theorem agedEvents_within (s : State) (k : Mcc) (old new : List PubSig) : Within [.glb, .evr] s (agedEvents s k old new) := by
  unfold agedEvents
  refine .upd ?_ (t := List.foldl ..)
  refine .fold (fun s g => ?_) new s
  split
  · exact .ite refl (refl.trans (raiseFor_within ..))
  · exact refl

theorem settledEvents_within (s : State) (old new : List PubSig) : Within [.glb, .evr] s (settledEvents s old new) :=
  refl.trans (.fold (fun _ _ => (by split; exacts [.mono (.cond .skip (raiseFor_within ..)), .mono .skip] : Within [.glb, .evr] _ _)) _ _)

theorem substOutputs_within (s : State) (task : Nat) : Within [.pim] s (substOutputs s task) :=
  refl.upd

theorem countOverrun_within (s : State) (r : TaskRec) (rel : Mcc) : Within [.glb, .pim, .evr, .pmu, .out] s (countOverrun s r rel) :=
  refl.trans (dropInst_within ..) |>.trans (pmuCount_within ..) |>.upd |>.trans (.cond (record_within ..) .skip)

theorem ovrReact_within (s : State) (r : TaskRec) (was : Byte) : Within [.fab, .cyc, .glb, .pim, .rst, .evr] s (ovrReact s r was) := by
  unfold ovrReact
  dsimp only
  split
  · exact refl
  · refine .trans ?_ (by
      split
      exacts [.mono (.set [.glb]), .mono (.cond .skip (ownStop_within ..)),
        .mono (.seq (.set [.glb]) (substOutputs_within ..))] : Within [.fab, .cyc, .glb, .pim, .rst, .evr] _ _)
    exact refl.upd |>.trans (record_within ..)

theorem overrun_within (s : State) (r : TaskRec) (rel : Mcc) : Within [.fab, .cyc, .glb, .pim, .rst, .evr, .pmu, .out] s (overrun s r rel) :=
  refl.trans (countOverrun_within ..) |>.trans (ovrReact_within ..)

theorem writeStaged_within (s : State) (writer tile : Nat) (x : StagedRec) : Within [.evr] s (writeStaged s writer tile x) :=
  refl.trans (recordAs_within ..)

theorem writeTaskRecs_within (s : State) (i : Instance) : Within [.evr] s (writeTaskRecs s i) :=
  refl.trans (.fold (fun _ _ => writeStaged_within ..) _ _)

theorem commitOuts_within (s : State) (r : TaskRec) (i : Instance) : Within [.pim] s (commitOuts s r i) := by
  unfold commitOuts
  split
  · exact refl.trans (dropInst_within ..) |>.trans (substOutputs_within ..)
  · exact refl

theorem noteComplete_within (s : State) (r : TaskRec) (i : Instance) : Within [.glb, .evr] s (noteComplete s r i) :=
  refl.upd |>.trans (.cond .skip (writeTaskRecs_within ..))

theorem commitInst_within (s : State) (r : TaskRec) (i : Instance) : Within [.glb, .pim, .evr] s (commitInst s r i) :=
  refl.trans (commitOuts_within ..) |>.trans (noteComplete_within ..)

theorem endInst_within (s : State) (i : Instance) : Within [.fab, .cyc, .glb, .pim, .rst, .evr, .pmu, .out] s (endInst s i) := by
  unfold endInst
  split
  · exact refl.trans (dropInst_within ..)
  · split
    · exact refl.trans (dropInst_within ..)
    · split
      · exact refl.trans (commitInst_within ..)
      · exact refl.trans (overrun_within ..) |>.trans (.cond (substOutputs_within ..) .skip)

theorem endInstances_within (s : State) (k : Mcc) : Within [.fab, .cyc, .glb, .pim, .rst, .evr, .pmu, .out] s (endInstances s k) :=
  refl.upd |>.trans (.fold (fun _ _ => endInst_within ..) _ _)

theorem missedRelease_within (s : State) (r : TaskRec) : Within [.fab, .cyc, .glb, .pim, .rst, .evr, .pmu, .out] s (missedRelease s r) := by
  unfold missedRelease
  split
  · exact refl.upd
  · exact refl.trans (overrun_within ..)

/-! ### Machine/CycOps.lean -/

theorem loseSync_within (s : State) (c : LostCause) (e : ℤ) : Within [.cyc, .evr] s (loseSync s c e) :=
  refl.upd |>.trans (record_within ..)

theorem clearLost_within (s : State) : Within [.cyc] s (clearLost s) :=
  refl.upd

theorem resyncedIn_within (s : State) (e : ℤ) : Within [.cyc] s (resyncedIn s e) := by
  unfold resyncedIn
  split
  · exact refl.trans (clearLost_within ..)
  · exact refl

theorem lostMeasure_within (s : State) (e : ℤ) : Within [.cyc] s (lostMeasure s e) := by
  unfold lostMeasure
  split
  · exact refl
  · dsimp only
    split
    · split
      · exact refl.trans (clearLost_within ..)
      · exact refl
    · split
      · exact refl.trans (clearLost_within ..)
      · exact refl.upd
    · split
      · exact refl.trans (clearLost_within ..)
      · split
        · split
          · exact refl.trans (clearLost_within ..)
          · exact refl.upd
        · exact refl.upd

theorem refBook_within (s : State) (k : Mcc) (was : Bool) : Within [.cyc, .evr] s (refBook s k was) :=
  refl.upd |>.trans (.cond (loseSync_within ..) .skip)

theorem correct_within (s : State) (k : Mcc) : Within [.cyc, .glb, .evr] s (correct s k) := by
  unfold correct
  refine .trans ?_ (.cond (record_within ..) .skip)
  refine .upd ?_ (t := ite ..)
  refine .trans ?_ (.cond (loseSync_within ..) .skip)
  exact refl.upd |>.trans (.cond (lostMeasure_within ..) (resyncedIn_within ..))

theorem seeReference_within (s : State) (t : Word) : Within [.cyc] s (seeReference s t) := by
  unfold seeReference
  split
  · exact refl
  · split
    · split
      · exact refl.upd
      · exact refl.upd
    · split
      · exact refl.upd
      · exact refl.upd

theorem lendReference_within (s : State) (e : ℤ) : Within [.cyc] s (lendReference s e) :=
  refl.upd

theorem queueNew_within (s : State) (og : Nat) (l : Launch) : Within [.cyc, .evr] s (queueNew s og l) := by
  unfold queueNew
  dsimp only
  split
  · exact refl.upd
  · exact refl.upd |>.trans (.cond (suppress_within ..) (record_within ..))

theorem dropLaunches_within (s : State) (p : LaunchItem → Bool) : Within [.cyc] s (dropLaunches s p) :=
  refl.upd

/-! ### Machine/FabricEvents.lean -/

theorem fillMeets_within (s : State) (ds : List WinDesc) (ver : Mcc) (task : Option Nat) :
    Within [.glb, .pim, .arb, .evr] s (fillMeets s ds ver task) := by
  unfold fillMeets
  dsimp only
  split
  · exact .ite (refl.trans (pimMeet_within ..) |>.trans (noteWait_within ..) |>.upd) (refl.trans (pimMeet_within ..) |>.trans (noteWait_within ..))
  · exact refl.trans (pimMeet_within ..) |>.trans (noteWait_within ..)

theorem Mem.foldl_wf {β : Type} {f : Mem → β → Mem} (hf : ∀ m x, m.wf = true → (f m x).wf = true) :
    ∀ (l : List β) (m : Mem), m.wf = true → (l.foldl f m).wf = true
  | [], _, h => h
  | x :: l, m, h => Mem.foldl_wf hf l _ (hf m x h)

theorem fillDesc_wf (sigs : List (SigRec × SigVal)) (base : Nat) (m : Mem) (d : WinDesc) (h : m.wf = true) : (fillDesc sigs base m d).wf = true := by
  refine Mem.foldl_wf (f := fun m (x : SigRec × SigVal) => _) (fun m x h => ?_) sigs _ (Mem.clear_wf h _ _)
  dsimp only
  split <;> split
  · exact Mem.write_wf (Mem.writeLE_wf h _ _ _) _ _
  · exact Mem.write_wf h _ _
  · exact Mem.writeLE_wf h _ _ _
  · exact h

theorem tileBlock_wf {m : Mem} (s : State) (n : TileNo) (task : Byte) (h : m.wf = true) : (tileBlock s n task m).wf = true :=
  Mem.writeLE_wf (Mem.write_wf (Mem.write_wf (Mem.write_wf h _ _) _ _) _ _) _ _ _

theorem releaseBlock_wf {m : Mem} (s : State) (n : TileNo) (r : TaskRec) (h : m.wf = true) : (releaseBlock s n r m).wf = true :=
  tileBlock_wf _ _ _ (Mem.writeLE_wf (Mem.writeLE_wf (Mem.writeLE_wf h _ _ _) _ _ _) _ _ _)

theorem handlerBlock_wf {m : Mem} (s : State) (n : TileNo) (mcc : Mcc) (task : Nat) (h : m.wf = true) : (handlerBlock s n m mcc task).wf = true :=
  Mem.write_wf (Mem.writeLE_wf (Mem.writeLE_wf (tileBlock_wf _ _ _ h) _ _ _) _ _ _) _ _

theorem mailboxFill_wf {m : Mem} (s : State) (task : Nat) (h : m.wf = true) : (mailboxFill s task m).wf = true :=
  Mem.writeList_wf (Mem.clear_wf h _ _) _ _

/-- A tile as it is, or with its program's initial data. -/
theorem freshTile_ok {t : Tile} (h : TileOk t) (c : Prop) [Decidable c] (p : TileProg) : TileOk (if c then t.initData p else t) := by
  split
  · exact ⟨initLocal_wf h.1 p, h.2⟩
  · exact h

theorem releaseTile_within (s : State) (r : TaskRec) (n : TileNo) : Within [.fab, .glb, .pim, .arb, .txe, .evr] s (releaseTile s r n) := by
  unfold releaseTile
  dsimp only
  split
  · exact refl.upd
  · refine .trans ?_ (.cond (record_within ..) .skip)
    refine .trans ?_ (fillMeets_within ..)
    refine .trans (.trans refl (modTile_within _ _ _ fun hf t _ => ?_)) (.cond (.set [.txe]) .skip)
    have h1 := freshTile_ok (hf.tile n) (((s.fab.tile n).codeHalf != s.ci.plane &&
      (s.fab.tile n).layout != (tileProg s n s.ci.plane).layoutId) = true)
      (tileProg s n s.ci.plane)
    have h2 := Mem.foldl_wf (fillDesc_wf (imageSigs s s.cyc.mcc) 0x30000) (fillDescs (tileProg s n s.ci.plane)) _ (releaseBlock_wf s n r h1.1)
    refine ⟨?_, h1.2⟩
    dsimp only
    split
    · exact mailboxFill_wf s _ h2
    · exact h2

theorem releaseFabric_within (s : State) (r : TaskRec) :
    Within [.fab, .cyc, .glb, .pim, .arb, .txe, .rst, .evr, .pmu, .out] s (releaseFabric s r) := by
  unfold releaseFabric
  split
  · exact refl.trans (missedRelease_within ..)
  · exact refl.upd |>.trans (.fold (fun _ _ => .dcond (fun _ => releaseTile_within ..) (fun _ => .skip)) _ _)

theorem execFillEnd_goes (n : TileNo) (s : State) : Goes [.fab, .pmu, .out] s (execFillEnd n s) := by
  refine .intro ?_
  split
  · exact refl.trans (pmuCount_within ..) |>.trans (modTile_within ..)
  · exact refl

theorem countComplete_within (s : State) (task : Nat) : Within [.fab] s (countComplete s task) :=
  refl.trans (.fold (fun _ _ => .dcond (fun _ => modTile_within ..) (fun _ => .skip)) _ _)

theorem drainTile_within (s : State) (n : TileNo) : Within [.fab, .glb, .pim, .arb, .pmu, .out] s (drainTile s n) := by
  unfold drainTile
  dsimp only
  split
  · exact refl.trans (modTile_within ..)
  · exact refl.trans (addStaging_within ..) |>.trans (noteWait_within ..) |>.trans (pmuCount_within ..) |>.trans (pmuCount_within ..) |>.upd
      |>.trans (modTile_within ..) |>.trans (.cond (countComplete_within ..) .skip)

theorem execDrainComplete_goes (n : TileNo) (s : State) : Goes [.fab, .glb, .pim, .arb, .pmu, .out] s (execDrainComplete n s) := by
  refine .intro ?_
  split
  · exact refl.trans (drainTile_within ..)
  · exact refl

theorem execDeadlineExpiry_goes (n : TileNo) (s : State) : Goes [.fab, .glb, .rst, .evr, .pmu, .out] s (execDeadlineExpiry n s) := by
  refine .intro ?_
  split
  · exact refl.trans (record_within ..) |>.trans (tileReset_within ..)
  · exact refl

theorem execScheduledTransfer_goes (xfer : Nat) (s : State) : Goes [.fab, .pmu, .out] s (execScheduledTransfer xfer s) := by
  refine .intro ?_
  split
  · exact refl
  · split
    · refine .ite (.trans (.trans ?_ (pmuCount_within ..)) (modTile_within ..)) refl
      exact refl.trans (modTile_within _ _ _ fun _ _ h => ⟨Mem.writeList_wf h.1 _ _, h.2⟩)
    · exact refl

theorem switchHalf_within (s : State) (n : TileNo) : Within [.fab, .evr] s (switchHalf s n) := by
  unfold switchHalf
  refine .ite refl ?_
  refine .trans ?_ (a := [.fab, .evr]) (.ite (refl.trans (record_within ..)) refl)
  exact refl.trans (modTile_within _ _ _ fun hf _ _ => freshTile_ok (hf.tile n) _ _)

theorem startHandler_within (s0 : State) (n : TileNo) (task : Nat) (h : HandlerEnt) (x : EvtEntry) :
    Within [.fab, .glb, .pim, .arb, .evr, .pmu, .out] s0 (startHandler s0 n task h x) := by
  unfold startHandler
  extract_lets s t p ver ds trig sigs sigs' m1 u run
  have hs : Within [.fab, .evr] s0 s := switchHalf_within ..
  have hu : Within [.glb, .pim, .arb, .evr] s u := fillMeets_within ..
  refine refl.trans hs |>.trans hu |>.upd |>.trans (pmuCount_within ..) |>.trans (modTile_within _ _ _ fun hf t k => ?_)
  simp only [pmuCount_fab, hu.fab_eq] at hf
  have hm : m1.wf = true := Mem.foldl_wf (fillDesc_wf _ _) _ _ (hf.tile n).1
  dsimp only [TileOk]
  exact ⟨handlerBlock_wf u n ver task hm, k.2⟩

theorem execEventDispatch_goes (n : TileNo) (task : Nat) (s : State) :
    Goes [.fab, .glb, .pim, .arb, .evr, .pmu, .out] s (execEventDispatch n task s) := by
  refine .intro ?_
  split
  · split
    · exact refl.trans (startHandler_within ..)
    · exact refl
  · exact refl

theorem execHandlerEnd_goes (n : TileNo) (s : State) : Goes [.fab, .glb, .pim, .pmu, .out] s (execHandlerEnd n s) := by
  refine .intro ?_
  split
  · exact refl
  · split
    · exact refl
    · exact refl.upd |>.trans (noteUsed_within ..) |>.trans (pmuCount_within ..) |>.trans (pmuCount_within ..) |>.trans (modTile_within ..)

theorem execScratchpadScrub_goes (n : TileNo) (corrected : Nat) (s : State) : Goes [.fab, .pmu, .out] s (execScratchpadScrub n corrected s) :=
  .intro (refl.trans (pmuCount_within ..) |>.trans (modTile_within ..))

theorem execScratchpadEccError_goes (n : TileNo) (addr : Nat) (correctable : Bool) (s : State) :
    Goes [.fab, .glb, .rst, .evr, .pmu, .out] s (execScratchpadEccError n addr correctable s) := by
  refine .intro ?_
  split
  · exact refl.trans (pmuCount_within ..) |>.trans (modTile_within ..)
  · exact refl.trans (modTile_within ..) |>.trans (record_within ..) |>.trans (tileReset_within ..)

theorem execLinkEccError_goes (xfer : Nat) (correctable : Bool) (s : State) :
    Goes [.fab, .glb, .rst, .evr, .pmu, .out] s (execLinkEccError xfer correctable s) := by
  refine .intro ?_
  split
  · exact refl.upd |>.trans (pmuCount_within ..)
  · refine .trans ?_ (by split; exacts [.mono .skip, .mono (.dcond (fun _ => tileReset_within ..) (fun _ => .skip))] :
      Within [.fab, .glb, .rst, .evr, .pmu, .out] _ _)
    exact refl.upd |>.trans (record_within ..)

theorem fabricReset_within (s : State) (activation : Bool) : Within [.fab, .glb, .rst, .evr, .pmu] s (fabricReset s activation) := by
  unfold fabricReset
  split
  · exact refl
  · split
    · exact refl.trans (record_within ..)
    · exact refl.trans (fabricHold_within ..) |>.upd |>.trans (.cond (record_within ..) .skip)

theorem execFabricReset_goes (activation : Bool) (s : State) : Goes [.fab, .glb, .rst, .evr, .pmu] s (execFabricReset activation s) :=
  .intro (refl.trans (fabricReset_within ..))

theorem restartTiles_within (s : State) : Within [.fab] s (restartTiles s) :=
  refl.upd (fab := fun h => h.zipMap (fun i t k => by
    dsimp only
    split
    · exact ⟨initMem_wf k.1 _, k.2⟩
    · exact k) rfl)

theorem restartTasks_within (s : State) : Within [.glb] s (restartTasks s) :=
  refl.upd

theorem execFabricResetDone_goes (s : State) : Goes [.fab, .glb] s (execFabricResetDone s) := by
  refine .intro ?_
  split
  · exact refl.trans (restartTiles_within ..) |>.trans (restartTasks_within ..) |>.upd
  · exact refl

theorem tileResetCmd_within (s : State) (n : TileNo) : Within [.fab, .glb, .rst, .evr, .pmu, .out] s (tileResetCmd s n) :=
  refl.trans (tileReset_within ..)

theorem execTileReset_goes (n : TileNo) (s : State) : Goes [.fab, .glb, .rst, .evr, .pmu, .out] s (execTileReset n s) :=
  .intro (refl.trans (tileResetCmd_within ..))

theorem restart_ok {t : Tile} (h : TileOk t) (g : ConfImage) (n : TileNo) (p : TileProg) (plane : BitVec 1) : TileOk (t.restart g n p plane) :=
  ⟨initMem_wf h.1 p, h.2⟩

theorem execTileResetDone_goes (n : TileNo) (s : State) : Goes [.fab] s (execTileResetDone n s) := by
  refine .intro (.ite ?_ refl)
  exact refl.trans (modTile_within _ _ _ fun _ _ h => ⟨(restart_ok h s.ci.act n (tileProg s n s.ci.plane) s.ci.plane).1, h.2⟩)

/-! ### Machine/TxeOps.lean -/

theorem dramWrite_within (s : State) (a : Word) (l : List Byte) : Within [.pmu, .dram, .out] s (dramWrite s a l) := by
  unfold dramWrite
  split
  · exact refl.upd (dram := fun h => Mem.writeList_wf h _ _) |>.trans (pmuCount_within ..)
  · exact refl

theorem modRing_within (s : State) (n : Nat) (f : Machine.Ring → Machine.Ring) : Within [.txe] s (modRing s n f) :=
  refl.upd

theorem pushCompl_within (s : State) (n : Nat) (rec : List Byte) : Within [.txe, .pmu, .dram, .out] s (pushCompl s n rec) := by
  unfold pushCompl
  dsimp only
  split
  · exact refl
  · split
    · exact refl.trans (dramWrite_within ..) |>.trans (modRing_within ..)
    · exact refl.trans (modRing_within ..)

theorem drainHeld_within (n : Nat) : ∀ (k : Nat) (s : State), Within [.txe, .pmu, .dram, .out] s (drainHeld s n k)
  | 0, _ => refl
  | k + 1, s => by
    unfold drainHeld
    dsimp only
    split
    · split
      · exact refl.trans (dramWrite_within ..) |>.trans (modRing_within ..) |>.trans (drainHeld_within n k _)
      · exact refl
    · exact refl

theorem complete_within (s : State) (n : Nat) (c : Machine.Compl) : Within [.txe, .pmu, .dram, .out] s (complete s n c) :=
  refl.trans (pushCompl_within ..)

theorem allocTag_within (s : State) (u : TUnit) (c : TxClass) (q : TagReq) (ring : Option (Nat × BitVec 16)) (posted : Bool) (due : Option Word) :
    Within [.txe, .pmu, .out] s (allocTag s u c q ring posted due).1 :=
  refl.trans (pmuCount_within s ..) |>.upd (txe := by simp [allocTag])

theorem passTag_within (s : State) : Within [.txe, .pmu, .out] s (passTag s) :=
  refl.trans (pmuCount_within s ..) |>.upd (txe := by simp [passTag])

theorem noteDeferred_within (s : State) : Within [.txe] s (noteDeferred s) :=
  refl.upd

theorem modTag_within (s : State) (tag : BitVec 18) (f : TagEnt → TagEnt) : Within [.txe] s (modTag s tag f) :=
  refl.upd

theorem noteTags_within (s : State) (c : TxClass) (st : Status) : Within [.txe, .evr, .pmu, .out] s (noteTags s c st) :=
  refl.trans (pmuCount_within s ..) |>.upd (txe := by simp) |>.trans (.cond (suppress_within ..) (record_within ..))

theorem mailFail_within (s : State) (e : FailEnt) (req : BitVec 16) (drop : Bool) (retries : Nat) :
    Within [.txe, .pmu, .dram, .out] s (mailFail s e req drop retries) := by
  unfold mailFail
  dsimp only
  split
  · split
    · exact refl.upd
    · exact refl.upd
  · split
    · split
      · exact refl.upd
      · exact refl.upd
    · split
      · split
        · exact refl.upd
        · exact refl.trans (complete_within ..)
      · exact refl

theorem failPosted_within (s : State) (e : FailEnt) (marks : List Sid) (req : BitVec 16) (drop : Bool) (retries : Nat) :
    Within [.pim, .txe, .evr, .pmu, .dram, .out] s (failPosted s e marks req drop retries) := by
  unfold failPosted
  extract_lets s1
  have h : Within [.txe, .evr, .pmu, .dram, .out] s s1 := refl.upd (txe := fun _ => by simp [logFail]) |>.trans (mailFail_within ..)
  exact refl.trans h |>.upd |>.trans (record_within ..)

theorem finishTag_within (s : State) (t : TagEnt) (st : Status) (target : Mcc) (sid : Sid) (len : Nat) (split : Bool) :
    Within [.pim, .arb, .txe, .evr, .pmu, .dram, .out] s (finishTag s t st target sid len split) := by
  unfold finishTag
  extract_lets _ _ s1
  have h : Within [.pim, .arb, .txe, .evr, .pmu, .dram, .out] s s1 := refl.upd
  refine .ite (.ite (h.trans (failPosted_within ..)) h) ?_
  split
  · exact h
  · exact .ite h.upd (h.trans (complete_within ..))

theorem resetTags_within (s : State) (u : TUnit) : Within [.pim, .arb, .txe, .evr, .pmu, .dram, .out] s (resetTags s u) :=
  refl.trans (.fold (fun _ _ => finishTag_within ..) _ _)

theorem bumpEpoch_within (s : State) (u : TUnit) : Within [.pim, .arb, .txe, .evr, .pmu, .dram, .out] s (bumpEpoch s u) :=
  refl.upd |>.trans (resetTags_within ..)

theorem waitAgain_within (s : State) (t : TagEnt) : Within [.txe] s (waitAgain s t) :=
  refl.trans (modTag_within ..)

theorem takeEntry_within (s : State) (n : Nat) : Within [.txe] s (takeEntry s n) :=
  refl.trans (modRing_within ..)

theorem refuseEntry_within (s : State) (n : Nat) (req : BitVec 16) (unit : Nat) (st : Status) (sid : Sid) :
    Within [.txe, .pmu, .dram, .out] s (refuseEntry s n req unit st sid) :=
  refl.trans (takeEntry_within ..) |>.trans (complete_within ..)

section
variable {w : List Part} {s : State} {run : State → State} (hr : ∀ u, Within w u (run u))
include hr

theorem submit_within {n : Nat} {req : BitVec 16} {wait : Bool} {u : TUnit} {c : TxClass} (hw : [.txe, .evr, .pmu, .dram, .out] ⊆ w := by decide) :
    Within w s (submit s n req wait u c run) := by
  unfold submit
  dsimp only
  split
  · exact refl
  · split
    · exact (refl.trans (modRing_within ..) (List.Subset.trans (by decide) hw)).trans (hr _) (List.Subset.refl w)
    · refine .mono (a := [.txe, .evr, .pmu, .dram, .out]) ?_ hw
      split
      · split
        · exact refl
        · exact refl.trans (noteTags_within ..) |>.trans (modRing_within ..) |>.trans (complete_within ..)
      · exact refl.trans (noteTags_within ..) |>.trans (refuseEntry_within ..)

end

theorem submitRefused_within (s : State) (n : Nat) (req : BitVec 16) (unit : Nat) (st : Status) (sid : Sid) :
    Within [.txe, .pmu, .dram, .out] s (submitRefused s n req unit st sid) := by
  unfold submitRefused
  dsimp only
  split
  · exact refl
  · exact refl.upd |>.trans (refuseEntry_within ..)

theorem acceptAll_within (s : State) (es : List StgEnt) : Within [.glb, .pim, .evr] s (acceptAll s es) :=
  refl.trans (.fold (fun _ _ => acceptWrite_within ..) _ _)

theorem ringBell_within (s : State) (sid : Sid) : Within [.glb, .grp, .evr] s (ringBell s sid) := by
  unfold ringBell
  split
  · exact refl.upd
  · exact refl.trans (raiseFor_within ..)

theorem ringBells_within (s : State) (ws : List RxWrite) : Within [.glb, .grp, .evr] s (ringBells s ws) :=
  refl.trans (.fold (fun _ _ => ringBell_within ..) _ _)

theorem refuseForeign_within (s : State) (x : RxWait) : Within [.evr] s (refuseForeign s x) :=
  refl.trans (.fold (fun _ _ => refuseWriter_within ..) _ _)

theorem arriveOwn_within (s : State) (x : RxWait) : Within [.glb, .pim, .arb, .grp, .evr] s (arriveOwn s x) :=
  refl.upd |>.trans (noteUsed_within ..) |>.trans (acceptAll_within ..) |>.trans (noteWait_within ..) |>.trans (ringBells_within ..)

theorem arrive_within (s : State) (x : RxWait) : Within [.glb, .pim, .arb, .grp, .evr] s (arrive s x) :=
  refl.trans (refuseForeign_within ..) |>.trans (arriveOwn_within ..)

theorem takeRx_within (s : State) (t : TagEnt) (x : RxWait) : Within [.glb, .pim, .arb, .txe, .grp, .evr, .pmu, .dram, .out] s (takeRx s t x) := by
  unfold takeRx
  split
  · exact refl.trans (finishTag_within ..)
  · exact refl.trans (finishTag_within ..) |>.trans (arrive_within ..)

theorem deliverRx_within (s : State) (x : RxWait) : Within [.glb, .pim, .arb, .txe, .grp, .evr, .pmu, .out] s (deliverRx s x) := by
  unfold deliverRx
  split
  · exact passTag_within s |>.mono
  · split
    · exact refl.trans (passTag_within ..) |>.trans (arrive_within ..)
    · refine .ite ?_ (.trans (.upd (t := pmuCount ..) ?_ (pim := by simp)) (noteDeferred_within ..))
      · exact refl.trans (allocTag_within ..) |>.trans (modTag_within ..)
      · exact refl.trans (allocTag_within ..) |>.trans (modTag_within ..) |>.trans (pmuCount_within ..)

theorem carryOwn_within (s : State) (x : RxWait) : Within [.glb, .pim, .arb, .txe, .grp, .evr, .pmu, .out] s (carryOwn s x) := by
  unfold carryOwn
  dsimp only
  split
  · exact refl
  · split
    · exact refl.trans (deliverRx_within ..)
    · split
      · exact refl.trans (noteTags_within ..) |>.upd
      · exact refl.upd |>.trans (.cond (suppress_within ..) (record_within ..))

theorem carryRx_within (s : State) (x : RxWait) : Within [.glb, .pim, .arb, .txe, .grp, .evr, .pmu, .out] s (carryRx s x) :=
  refl.trans (refuseForeign_within ..) |>.trans (carryOwn_within ..)

/-! ### Machine/SafetyOps.lean -/

theorem SoOk.of_off {f : Safe} (h : ∀ o ∈ f.so, o.cmd = false) : SoOk f := fun o ho _ => h o ho

theorem soOff_off (s : State) : ∀ o ∈ (soOff s).safe.so, o.cmd = false := by simp [soOff]

theorem soOff_within (s : State) : Within [.cyc, .safe, .out] s (soOff s) :=
  refl.upd (safe := fun _ => .of_off (soOff_off s))

/-- Whatever stood before, the safe state has both outputs off. -/
theorem enterIsland_off (s : State) (cause : Byte) (alone : Bool) : ∀ o ∈ (enterIsland s cause alone).safe.so, o.cmd = false := by
  unfold enterIsland
  dsimp only
  split <;> exact soOff_off _

theorem enterIsland_within (s : State) (cause : Byte) (alone : Bool) : Within [.cyc, .grp, .safe, .evr, .out] s (enterIsland s cause alone) where
  frame := by unfold enterIsland; dsimp only; split <;> rfl
  dramWf := by unfold enterIsland; dsimp only; split <;> exact id
  fabOk := by unfold enterIsland; dsimp only; split <;> exact id
  soOk _ := SoOk.of_off (enterIsland_off s cause alone)
  ringLe := by unfold enterIsland; dsimp only; split <;> exact id
  evrOk := by unfold enterIsland; dsimp only; split <;> exact Evr.write_ok _
  logLe := by unfold enterIsland; dsimp only; split <;> exact id

theorem islandReads_within (s : State) : Within [.pim, .arb, .evr] s (islandReads s) :=
  refl.trans (pimMeet_within ..) |>.trans (noteWait_within ..)

theorem SoOk.ite {c : Prop} [Decidable c] {f g : Safe} (hg : SoOk f → SoOk g) (h : SoOk f) : SoOk (if c then g else f) := by
  split
  · exact hg h
  · exact h

theorem evalSsv_ok {f : Safe} (b : SafetyBlock) (p : Nat) (l : List Src) (h : SoOk f) : SoOk (evalSsv b p l f) := by
  unfold evalSsv
  dsimp only
  split <;> exact h

theorem evalFunctions_within (s : State) : Within [.safe] s (evalFunctions s) :=
  refl.upd (safe := fun h => .ite (fun h => h) (.ite (fun h => h) (.ite (fun h => h) (.ite (fun h => h) (.ite (evalSsv_ok _ _ _) h)))))

/-- Outputs of before, none of them switched on or given a new reason to be off. -/
def Calmer (o x : SafeOut) : Prop :=
  o.cmd = true → x.cmd = true ∧ (o.faultHigh = true → x.faultHigh = true) ∧ (o.faultLow = true → x.faultLow = true)

theorem SoOk.calmer {f f' : Safe} (h : SoOk f) (hc : f'.cause ≠ 0 → f.cause ≠ 0) (hs : f'.failSilent = true → f.failSilent = true)
    (hso : ∀ o ∈ f'.so, ∃ x ∈ f.so, Calmer o x) : SoOk f' := by
  intro o ho hf
  obtain ⟨x, hx, k⟩ := hso o ho
  by_contra hn
  obtain ⟨hcmd, hh, hl⟩ := k (Bool.not_eq_false _ ▸ hn)
  have : x.cmd = false := h x hx (hf.imp hc (Or.imp hs (Or.imp hh hl)))
  simp [this] at hcmd

theorem SoOk.map {f f' : Safe} (h : SoOk f) {g : SafeOut → SafeOut} (hso : f'.so = f.so.map g) (hc : f'.cause ≠ 0 → f.cause ≠ 0)
    (hs : f'.failSilent = true → f.failSilent = true) (hg : ∀ o, Calmer (g o) o) : SoOk f' := by
  refine h.calmer hc hs fun o ho => ?_
  rw [hso] at ho
  obtain ⟨x, hx, rfl⟩ := List.mem_map.1 ho
  exact ⟨x, hx, hg x⟩

theorem ackEffect_within (s : State) : Within [.safe, .evr] s (ackEffect s).1 := by
  unfold ackEffect
  split
  · exact refl.upd (safe := fun h => h.map rfl (fun k => absurd rfl k) (fun k => k) (fun o => by simp +contextual [Calmer]))
  · exact refl.upd |>.trans (record_within ..)

theorem ssvRecord_within (s : State) (old : Safe) : Within [.evr] s (ssvRecord s old) := by
  unfold ssvRecord
  split
  · exact refl.trans (record_within ..)
  · exact refl

theorem releaseFunc_within (s : State) : Within [.cyc, .pim, .arb, .grp, .safe, .evr, .out] s (releaseFunc s) := by
  unfold releaseFunc
  extract_lets b _ s0 ev _ s1 s2 s3 present
  have h0 : Within [.safe] s s0 := .mono (.cond (.set [.safe]) .skip)
  have he : Within [.safe, .evr] s ev := refl.trans h0 |>.trans (evalFunctions_within ..) |>.trans (ssvRecord_within ..)
  have h1 : Within [.pim, .arb, .safe, .evr] s s1 :=
    refl.trans he |>.upd |>.trans (.fold (fun _ _ => record_within ..) _ _) |>.trans (islandReads_within ..)
  have h3 : Within [.cyc, .pim, .arb, .grp, .safe, .evr, .out] s s3 :=
    refl.trans h1 |>.trans (.cond (enterIsland_within ..) .skip) |>.trans (.cond (enterIsland_within ..) .skip)
  exact h3.upd (safe := fun h => h.map rfl (fun k => k) (fun k => k) (fun o k => ⟨k, fun k => k, fun k => k⟩))

theorem commitSo_within (s : State) (c0 c1 : Bool) : Within [.cyc] s (commitSo s c0 c1) :=
  refl.upd

/-! ### Machine/TkOps.lean -/

theorem maintOff_within (s : State) : Within [.eth, .tk, .pgv] s (maintOff s) :=
  refl.upd

theorem endSession_within (s : State) (h : BitVec 16) : Within [.eth, .tk, .pgv, .evr] s (endSession s h) := by
  unfold endSession
  extract_lets _ s1 s2
  have h1 : Within [.tk] s s1 := .set [.tk]
  have h2 : Within [.eth, .tk, .pgv, .evr] s s2 := refl.trans h1 |>.trans (.cond (maintOff_within ..) .skip)
  split
  · exact h2.trans (record_within ..)
  · exact h2

theorem endSessions_within (s : State) : Within [.eth, .tk, .pgv, .evr] s (endSessions s) :=
  refl.trans (.fold (fun _ _ => endSession_within ..) _ _)

theorem modSlot_within (s : State) (n : Nat) (f : CallSlot → CallSlot) : Within [.tk] s (modSlot s n f) :=
  refl.upd

theorem answer_within (s : State) (n : Nat) (st : Status) (data : List Byte) : Within [.tk, .pmu, .dram, .out] s (answer s n st data) :=
  refl.trans (modSlot_within ..) |>.trans (dramWrite_within ..) |>.upd

section
variable {w : List Part} {k : State → CallRes} (hk : ∀ u, Within w u (k u).1)
include hk

theorem callOn_within {s : State} {c : CallReq} {call : Nat} {need : Role} (hw : [.tk, .pmu, .dram, .out] ⊆ w := by decide) :
    Within w s (callOn s c call need k) := by
  unfold callOn
  have ht : [Part.tk] ⊆ w := List.Subset.trans (by decide) hw
  extract_lets x s1 r _ _ s2
  have h1 : Within w s s1 := refl.trans (modSlot_within ..) ht
  have hr : Within w s1 r.1 := by
    simp only [r]
    split
    · exact refl
    · exact hk s1
  have h2 : Within w s1 s2 := by
    simp only [s2]
    split
    · exact hr.trans (.set [.tk]) ht
    · exact hr
  exact .ite refl (.ite (refl.trans (modSlot_within ..) ht) ((h1.trans h2 (List.Subset.refl w)).trans (answer_within ..) hw))

end

theorem finishCalls_within (s : State) (call : Nat) (st : Status) : Within [.tk, .pmu, .dram, .out] s (finishCalls s call st) :=
  refl.trans (.fold (fun _ _ => .cond (answer_within ..) .skip) _ _)

theorem commandRec_within (s : State) (sev : Sev) (src : BitVec 12) (call subject : Nat) (h : BitVec 16) :
    Within [.evr] s (commandRec s sev src call subject h) :=
  refl.trans (record_within ..)

theorem writeBoot_within (s : State) (b : List BootEnt) : Within [.cul] s (writeBoot s b) :=
  refl.upd

theorem writeCounters_within (s : State) (f : Counters → Counters) : Within [.cul] s (writeCounters s f) :=
  refl.upd

theorem cfieldWrite_within (s : State) (addr mask value : Reg32) : Within [.cul] s (cfieldWrite s addr mask value) :=
  refl.upd

/-! ### Machine/EvrOps.lean -/

theorem dropSummary_within (s : State) : Within [.evr] s (dropSummary s) := by
  unfold dropSummary
  split
  · exact refl.upd |>.trans (record_within ..)
  · exact refl

theorem Evr.put_ring (e : Evr) (r : Rec) : (e.put r).ring = e.ring ∧ (e.put r).pending = e.pending := by
  unfold Evr.put
  dsimp only
  split
  · exact ⟨rfl, rfl⟩
  · split <;> exact ⟨rfl, rfl⟩

theorem clearEvr_within (s : State) (sev : Nat) (token : Word) : Within [.evr] s (clearEvr s sev token) := by
  unfold clearEvr
  extract_lets e gone e1 s1
  have h0 : Within [.evr] s { s with evr := e1 } :=
    .set [.evr] (evr := fun k => ⟨Nat.le_trans (List.length_filter_le ..) k.1, Nat.le_trans (List.length_filter_le ..) k.2⟩)
  have h1 : Within [.evr] s s1 := h0.trans (record_within ..)
  split
  · refine h1.upd (evr := fun k => ⟨?_, Nat.le_trans (List.length_filter_le ..) k.2⟩)
    exact Nat.le_trans (Nat.le_of_eq (congrArg List.length (Evr.put_ring ..).1)) k.1
  · exact h1

theorem Evr.copyOne_ring (e : Evr) : e.copyOne.ring = e.ring ∧ e.copyOne.pending = e.pending.drop 1 := by
  unfold Evr.copyOne
  split
  · next h => simp [h]
  · next q qs h =>
    dsimp only
    split
    · exact ⟨(Evr.put_ring ..).1, by rw [(Evr.put_ring ..).2, h]; rfl⟩
    · exact ⟨rfl, by rw [h]; rfl⟩

theorem EvrOk.copyOne {e : Evr} (h : EvrOk e) : EvrOk e.copyOne := by
  obtain ⟨hr, hp⟩ := Evr.copyOne_ring e
  exact ⟨hr ▸ h.1, by rw [hp, List.length_drop]; exact Nat.le_trans (Nat.sub_le ..) h.2⟩

theorem EvrOk.copyMany {e : Evr} (h : EvrOk e) : ∀ n, EvrOk (e.copyMany n) := fun n => by
  induction n generalizing e with
  | zero => exact h
  | succ n ih =>
    unfold Evr.copyMany
    split
    · exact h
    · exact ih h.copyOne

theorem flushDone_within (s : State) : Within [.tk, .cul, .evr, .pmu, .dram, .out] s (flushDone s) := by
  unfold flushDone
  dsimp only
  have h : Within [.tk, .cul, .evr, .pmu, .dram, .out] s
      { writeCounters (dropSummary s) id with evr := { (writeCounters (dropSummary s) id).evr.copyMany 513 with flushing := false } } :=
    refl.trans (dropSummary_within ..) |>.trans (writeCounters_within ..) |>.upd (evr := fun k => k.copyMany 513)
  split
  · exact h
  · exact h.upd.trans (.fold (fun _ _ => clearEvr_within ..) _ _) |>.trans (finishCalls_within ..)

theorem storeRebuild_within (s : State) : Within [.evr] s (storeRebuild s) := by
  unfold storeRebuild
  dsimp only
  split
  · exact refl.upd
  · exact refl

theorem storeScan_within (s : State) : Within [.evr] s (storeScan s) :=
  refl.upd |>.trans (record_within ..)

theorem execEvrReadRequest_goes (core : Fin 8) (q : Reg32) (s : State) : Goes [.evr, .host, .out] s (execEvrReadRequest core q s) := by
  refine .intro ?_
  exact coreAccess_within (fun _ => refl.upd)

theorem execEvrReadComplete_goes (core : Fin 8) (s : State) : Goes [.evr] s (execEvrReadComplete core s) := by
  refine .intro ?_
  split
  · exact refl.upd
  · exact refl

theorem execBackgroundCopy_goes (s : State) : Goes [.evr] s (execBackgroundCopy s) :=
  .intro (.ite refl (refl.upd (evr := fun h => h.copyOne)))

theorem execEvrClear_goes (c : CallReq) (sev : Nat) (s : State) : Goes [.tk, .evr, .pmu, .dram, .out] s (execEvrClear c sev s) := by
  refine .intro ?_
  refine callOn_within (fun _ => ?_)
  split
  · exact refl
  · split
    · exact refl.upd
    · exact refl.trans (clearEvr_within ..)

/-! ### Machine/GroupOps.lean -/

theorem modBr_within (s : State) (l : GLink) (f : Bridge → Bridge) : Within [.grp] s (modBr s l f) :=
  refl.upd

theorem modPeer_within (s : State) (l : GLink) (f : Peer → Peer) : Within [.grp] s (modPeer s l f) :=
  refl.upd

theorem emitFrame_within (s : State) (l : GLink) (vc : Nat) (f : GlFrame) : Within [.grp, .pmu, .out] s (emitFrame s l vc f) :=
  refl.trans (pmuCount_within ..) |>.trans (modBr_within ..) |>.upd

theorem pumpVc_within (l : GLink) (vc : Nat) : ∀ (fs : List GlFrame) (s : State), Within [.grp, .pmu, .out] s (pumpVc l vc fs s)
  | [], s => refl.trans (modBr_within ..)
  | f :: fs, s => by
    unfold pumpVc
    exact .ite (refl.trans (emitFrame_within ..) |>.trans (pumpVc_within l vc fs _)) (refl.trans (modBr_within ..))

theorem pump_within (s : State) (l : GLink) : Within [.grp, .pmu, .out] s (pump s l) :=
  refl.trans (.fold (fun _ _ => pumpVc_within ..) _ _)

theorem putFrame_within (s : State) (l : GLink) (f : GlFrame) : Within [.grp, .pmu, .out] s (putFrame s l f) := by
  unfold putFrame
  split
  · exact refl.trans (modBr_within ..) |>.trans (pump_within ..)
  · exact refl

theorem glSend_within (s : State) (l : GLink) (dst : Nat) (b : GlBody) (tag : BitVec 18) : Within [.txe, .grp, .pmu, .out] s (glSend s l dst b tag) :=
  refl.trans (.cond (passTag_within ..) .skip) |>.trans (putFrame_within ..)

theorem sendPeer_within (s : State) (pos : Nat) (b : GlBody) : Within [.txe, .grp, .pmu, .out] s (sendPeer s pos b) :=
  refl.trans (glSend_within ..)

theorem relay_within (s : State) (l : GLink) (h : GlHdr) (b : GlBody) : Within [.grp, .pmu, .out] s (relay s l h b) :=
  refl.trans (by split; exacts [.mono .skip, .mono (.set [.grp])] : Within [.grp] _ _) |>.trans (putFrame_within ..)

theorem sendPeers_within (s : State) (b : GlBody) : Within [.txe, .grp, .pmu, .out] s (sendPeers s b) :=
  refl.trans (sendPeer_within ..) |>.trans (sendPeer_within ..)

theorem sendEvery_within (s : State) (b : GlBody) : Within [.txe, .grp, .pmu, .out] s (sendEvery s b) :=
  refl.trans (.fold (fun _ _ => .seq (glSend_within ..) (glSend_within ..)) _ _)

theorem linkDown_within (s : State) (l : GLink) : Within [.grp, .evr, .clk] s (linkDown s l) :=
  refl.trans (modBr_within ..) |>.trans (rxClk_within ..) |>.trans (record_within ..)

theorem crcError_within (s : State) (l : GLink) : Within [.grp, .evr, .clk] s (crcError s l) :=
  refl.trans (modBr_within ..) |>.trans (.cond (linkDown_within ..) .skip)

section
variable {w : List Part} {k : State → State} (hk : ∀ u, Within w u (k u))
include hk

theorem glRecv_within {s : State} {l : GLink} {h : GlHdr} {b : GlBody} (hw : [.grp, .evr, .pmu, .clk, .out] ⊆ w := by decide) :
    Within w s (glRecv s l h b k) := by
  unfold glRecv
  extract_lets s1 s2
  have h2 : Within [.grp, .evr, .pmu, .clk, .out] s s2 :=
    refl.trans (pmuCount_within ..) |>.trans (modBr_within ..) |>.trans (pump_within ..)
  refine .ite refl (.ite ((crcError_within s l).mono (List.Subset.trans (by decide) hw)) ?_)
  refine .ite (refl.trans (h2.trans (modBr_within ..)) hw) (.ite (refl.trans (h2.trans (relay_within ..)) hw) ?_)
  exact (refl.trans h2 hw).trans (hk s2) (List.Subset.refl w)

end

theorem ackFrame_within (s : State) (h : GlHdr) (b : GlBody) (st : Status) : Within [.txe, .grp, .pmu, .out] s (ackFrame s h b st) :=
  refl.trans (sendPeer_within ..)

theorem goOut_within (s : State) : Within [.cyc, .grp, .safe, .evr, .out] s (goOut s) := by
  unfold goOut
  refine .trans ?_ (.cond (record_within ..) .skip)
  refine .upd ?_ (t := soOff ..)
  exact refl.upd |>.trans (soOff_within ..)

theorem joinGroup_within (s : State) : Within [.fab, .glb, .grp, .evr] s (joinGroup s) :=
  refl.upd (fab := fun h => h.zipMap (restartInit_ok _) rfl) |>.trans (.cond .skip (setState_within ..))

theorem setRoles_within (s : State) (roles : List GRole) : Within [.fab, .cyc, .glb, .tb, .grp, .safe, .evr, .out] s (setRoles s roles) :=
  refl.upd |>.trans (.cond (goOut_within ..) (.cond (.seq (.set [.grp]) (joinGroup_within ..)) (.set [.grp])))

theorem peerLost_within (s : State) (pos : Nat) : Within [.pim, .arb, .txe, .grp, .evr, .pmu, .dram, .out] s (peerLost s pos) := by
  unfold peerLost
  dsimp only
  split
  · exact refl
  · exact refl.trans (modPeer_within ..) |>.trans (bumpEpoch_within ..)

theorem dropSwap_within (s : State) : Within [.grp] s (dropSwap s) := by
  unfold dropSwap
  split
  · exact refl.upd
  · exact refl.upd

theorem declareFailed_within (s : State) (subj : Nat) : Within [.pim, .arb, .txe, .grp, .evr, .pmu, .dram, .out] s (declareFailed s subj) :=
  refl.trans (dropSwap_within ..) |>.trans (.cond .skip (.seq (.seq (.set [.grp]) (peerLost_within ..)) (sendEvery_within ..)))

theorem silentIndication_within (s : State) (pos : Nat) : Within [.pim, .arb, .txe, .grp, .evr, .pmu, .dram, .out] s (silentIndication s pos) :=
  refl.trans (modPeer_within ..) |>.trans (peerLost_within ..) |>.trans (.fold (fun _ _ => .cond (declareFailed_within ..) .skip) _ _)

theorem takeOrder_within (s : State) (h : GlHdr) (k : OrderKind) (o : OrderMsg) :
    Within [.pim, .arb, .txe, .grp, .evr, .pmu, .dram, .out] s (takeOrder s h k o) := by
  unfold takeOrder
  split
  · split
    · exact refl
    · exact refl.trans (silentIndication_within ..)
  · exact refl.trans (ackFrame_within ..) |>.trans (.cond .skip (.seq (.seq (dropSwap_within ..) (.cond .skip (peerLost_within ..))) (.set [.grp])))

theorem formGroup_within (s : State) : Within [.fab, .cyc, .glb, .tb, .grp, .safe, .evr, .out] s (formGroup s) := by
  unfold formGroup
  refine .trans ?_ (record_within ..)
  refine .upd ?_ (t := setRoles ..)
  exact refl.upd |>.trans (setRoles_within ..)

theorem ackSlots_within (s : State) (id : Reg32) (st : Status) : Within [.tk, .pmu, .dram, .out] s (ackSlots s id st) :=
  refl.trans (.fold (fun _ _ => .cond (answer_within ..) .skip) _ _)

theorem holdTarget_within (s : State) (mcc : Mcc) (x0 : TargetArg) : Within [.glb, .tb, .grp, .safe, .rst, .out] s (holdTarget s mcc x0) := by
  unfold holdTarget
  split
  · exact refl.trans (setPending_within ..)
  · exact refl.upd
  · exact refl.upd
  · exact refl.trans (.fold (fun _ _ => addForceCmd_within ..) _ _)
  · exact refl.upd
  · exact refl.upd
  · exact refl.upd
  · exact refl.upd

theorem setTarget_within (s : State) (mcc : Mcc) (a : TargetArg) : Within [.glb, .txe, .tb, .grp, .safe, .rst, .pmu, .out] s (setTarget s mcc a) :=
  refl.trans (holdTarget_within ..) |>.trans (sendPeers_within ..)

theorem groupCall_within {w : List Part} {act : State → State × Status} (hk : ∀ u, Within w u (act u).1) {s : State} {slot : Nat} {a : TargetArg}
    (hw : [.txe, .grp, .tk, .pmu, .out] ⊆ w := by decide) : Within w s (groupCall s slot a act).1 := by
  unfold groupCall
  split
  · exact refl
  · split
    · exact hk s
    · exact refl.trans (refl.trans (modSlot_within ..) |>.trans (sendPeer_within ..)) hw

theorem activeCall_within (s : State) (x0 : TargetArg) : Within [.glb, .txe, .tb, .grp, .safe, .rst, .pmu, .out] s (activeCall s x0).1 := by
  unfold activeCall
  split
  · dsimp only
    split
    · exact refl.trans (setTarget_within ..)
    · exact refl.trans (modeCommand_within ..)
  · split
    · exact refl.trans (setTarget_within ..)
    · exact refl
  · split
    · exact refl.trans (setTarget_within ..)
    · exact refl
  · exact refl.trans (setTarget_within ..)
  · split
    · exact refl
    · split
      · exact refl.trans (setTarget_within ..)
      · exact refl
  · split
    · exact refl.trans (setTarget_within ..)
    · exact refl
  · split
    · exact refl.trans (setTarget_within ..)
    · exact refl
  · split
    · exact refl.trans (setTarget_within ..)
    · exact refl

theorem takeTarget_within (s : State) (h : GlHdr) (mcc : Mcc) (a : TargetArg) :
    Within [.glb, .txe, .tb, .grp, .safe, .rst, .pmu, .out] s (takeTarget s h mcc a) := by
  unfold takeTarget
  split
  · exact refl.trans (activeCall_within ..) |>.trans (ackFrame_within ..)
  · exact refl.trans (holdTarget_within ..) |>.trans (ackFrame_within ..)

/-! ### Machine/PgvOps.lean -/

theorem pgvView_within (s : State) : Within [.pgv, .clk] s (pgvView s) :=
  refl.upd

theorem freshUnit_within (s : State) (u : Nat) : Within [.pgv] s (freshUnit s u) :=
  refl.upd

theorem setStep_within (s : State) (st : Nat) : Within [.pgv, .clk] s (setStep s st) := by
  unfold setStep
  split
  · exact refl
  · exact refl.trans (freshUnit_within ..) |>.upd

theorem requestStep_within (s : State) (st : Nat) : Within [.pgv, .clk] s (requestStep s st) := by
  unfold requestStep
  refine .ite refl.upd ?_
  extract_lets g _ s1
  have h1 : Within [.pgv, .clk] s s1 := refl.upd |>.trans (setStep_within ..)
  exact h1.upd.trans (pgvView_within ..)

theorem execAcStepRequest_goes (st : BitVec 3) (s : State) : Goes [.pgv, .clk, .host] s (execAcStepRequest st s) := by
  refine .intro ?_
  exact coreStall_within (fun _ => refl.trans (requestStep_within ..))

theorem powerPort_within (s : State) (p : Nat) : Within [.pgv, .evr] s (powerPort s p) := by
  unfold powerPort
  split
  · exact refl
  · split
    · exact refl.upd |>.trans (freshUnit_within ..)
    · exact refl.upd |>.trans (record_within ..)

theorem unpowerPort_within (s : State) (p : Nat) : Within [.pgv] s (unpowerPort s p) :=
  refl.upd

/-! ### Machine/CallEvents.lean -/

theorem modeCall_within (s : State) (c : CallReq) (m : ModeCmd) :
    Within [.glb, .txe, .tb, .grp, .safe, .tk, .rst, .pmu, .dram, .out] s (modeCall s c m) := by
  unfold modeCall
  refine callOn_within (fun _ => ?_)
  split
  · exact groupCall_within (fun _ => refl.trans (activeCall_within ..))
  · exact refl.trans (modeCommand_within ..)

theorem execStartWarm_goes (c : CallReq) (s : State) : Goes [.glb, .txe, .tb, .grp, .safe, .tk, .rst, .pmu, .dram, .out] s (execStartWarm c s) :=
  .intro (refl.trans (modeCall_within ..))

theorem execStartCold_goes (c : CallReq) (s : State) : Goes [.glb, .txe, .tb, .grp, .safe, .tk, .rst, .pmu, .dram, .out] s (execStartCold c s) :=
  .intro (refl.trans (modeCall_within ..))

theorem execStop_goes (c : CallReq) (s : State) : Goes [.glb, .txe, .tb, .grp, .safe, .tk, .rst, .pmu, .dram, .out] s (execStop c s) :=
  .intro (refl.trans (modeCall_within ..))

theorem execHold_goes (c : CallReq) (s : State) : Goes [.glb, .txe, .tb, .grp, .safe, .tk, .rst, .pmu, .dram, .out] s (execHold c s) :=
  .intro (refl.trans (modeCall_within ..))

theorem execContinue_goes (c : CallReq) (s : State) : Goes [.glb, .txe, .tb, .grp, .safe, .tk, .rst, .pmu, .dram, .out] s (execContinue c s) :=
  .intro (refl.trans (modeCall_within ..))

theorem execStep_goes (c : CallReq) (n : Nat) (s : State) : Goes [.glb, .txe, .tb, .grp, .safe, .tk, .rst, .pmu, .dram, .out] s (execStep c n s) :=
  .intro (refl.trans (modeCall_within ..))

theorem execDormantEnter_goes (c : CallReq) (s : State) :
    Goes [.glb, .txe, .tb, .grp, .safe, .tk, .rst, .pmu, .dram, .out] s (execDormantEnter c s) :=
  .intro (refl.trans (modeCall_within ..))

theorem forceRec_within (s : State) (call : Nat) (sid : Sid) (v : Word) (code : BitVec 4) (h : BitVec 16) :
    Within [.evr] s (forceRec s call sid v code h) :=
  refl.trans (record_within ..)

theorem forceChange_within (s : State) (slot : Nat) (cs : List ForceCmd) :
    Within [.glb, .txe, .tb, .grp, .safe, .tk, .rst, .pmu, .out] s (forceChange s slot cs).1 := by
  unfold forceChange
  split
  · exact groupCall_within (fun _ => refl.trans (activeCall_within ..))
  · exact refl.trans (.fold (fun _ _ => addForceCmd_within ..) _ _)

theorem forceDone_within {w : List Part} {s : State} {r : CallRes} {rec : State → State} (hr : Within w s r.1)
    (hrec : Within [.evr] r.1 (rec r.1)) (hw : [.evr] ⊆ w := by decide) : Within w s (forceDone r rec).1 := by
  unfold forceDone
  split
  · exact hr.trans hrec hw
  · exact hr

theorem execForceSet_goes (c : CallReq) (sid : Sid) (v : Word) (code : BitVec 4) (s : State) :
    Goes [.glb, .txe, .tb, .grp, .safe, .tk, .rst, .evr, .pmu, .dram, .out] s (execForceSet c sid v code s) := by
  refine .intro (callOn_within fun s => ?_)
  extract_lets x
  split
  · exact refl
  · split
    · exact forceDone_within (forceChange_within ..).mono (forceRec_within ..)
    · exact refl.trans (record_within ..)
    · exact refl

theorem execForceClear_goes (c : CallReq) (sid : Sid) (s : State) :
    Goes [.glb, .txe, .tb, .grp, .safe, .tk, .rst, .evr, .pmu, .dram, .out] s (execForceClear c sid s) := by
  refine .intro (callOn_within fun s => ?_)
  extract_lets safe f
  split
  · exact refl
  · split
    · exact refl
    · split
      · exact refl
      · exact forceDone_within (forceChange_within ..).mono (forceRec_within ..)

theorem execForceClearAll_goes (c : CallReq) (s : State) :
    Goes [.glb, .txe, .tb, .grp, .safe, .tk, .rst, .evr, .pmu, .dram, .out] s (execForceClearAll c s) := by
  refine .intro (callOn_within fun s => ?_)
  extract_lets held may go
  split
  · exact refl
  · exact forceDone_within (forceChange_within ..).mono (record_within ..)

theorem execForceList_goes (c : CallReq) (s : State) : Goes [.tk, .pmu, .dram, .out] s (execForceList c s) := by
  refine .intro ?_
  exact callOn_within (fun _ => refl)

theorem execTimeAccept_goes (c : CallReq) (s : State) :
    Goes [.glb, .txe, .tb, .grp, .safe, .tk, .rst, .pmu, .dram, .out] s (execTimeAccept c s) := by
  refine .intro (callOn_within fun s => ?_)
  extract_lets key
  split
  · exact groupCall_within fun _ => (activeCall_within ..).mono
  · split
    · exact refl
    · split
      · exact (holdTarget_within s (boundaryAfter s 10000) (.timeStep 1 (keyOf s c.session))).mono
      · exact refl

theorem execSafeAck_goes (c : CallReq) (s : State) : Goes [.glb, .txe, .tb, .grp, .safe, .tk, .rst, .pmu, .dram, .out] s (execSafeAck c s) := by
  refine .intro ?_
  refine callOn_within (fun _ => ?_)
  split
  · dsimp only
    split
    · exact groupCall_within (fun _ => refl.trans (activeCall_within ..))
    · exact groupCall_within (fun _ => refl.trans (activeCall_within ..))
  · split
    · exact refl.upd
    · exact refl

theorem grpCall_within (s : State) (c : CallReq) (need : Role) (a : TargetArg) :
    Within [.glb, .txe, .tb, .grp, .safe, .tk, .rst, .pmu, .dram, .out] s (grpCall s c need a) := by
  unfold grpCall
  refine callOn_within (fun _ => ?_)
  split
  · exact groupCall_within (fun _ => refl.trans (activeCall_within ..))
  · exact refl

theorem execRoleSwap_goes (c : CallReq) (s : State) : Goes [.glb, .txe, .tb, .grp, .safe, .tk, .rst, .pmu, .dram, .out] s (execRoleSwap c s) :=
  .intro (refl.trans (grpCall_within ..))

theorem execGroupMaintEnter_goes (c : CallReq) (s : State) :
    Goes [.glb, .txe, .tb, .grp, .safe, .tk, .rst, .pmu, .dram, .out] s (execGroupMaintEnter c s) :=
  .intro (refl.trans (grpCall_within ..))

theorem execGroupMaintLeave_goes (c : CallReq) (s : State) :
    Goes [.glb, .txe, .tb, .grp, .safe, .tk, .rst, .pmu, .dram, .out] s (execGroupMaintLeave c s) :=
  .intro (refl.trans (grpCall_within ..))

theorem execGroupClearLatent_goes (c : CallReq) (pos : Nat) (s : State) :
    Goes [.glb, .txe, .tb, .grp, .safe, .tk, .rst, .pmu, .dram, .out] s (execGroupClearLatent c pos s) :=
  .intro (refl.trans (grpCall_within ..))

theorem maintOn_within (s : State) (h : BitVec 16) : Within [.eth, .tk, .pgv, .evr] s (maintOn s h) :=
  refl.trans (powerPort_within ..) |>.upd

theorem execMaintEnable_goes (c : CallReq) (s : State) : Goes [.eth, .tk, .pgv, .evr, .pmu, .dram, .out] s (execMaintEnable c s) := by
  refine .intro ?_
  refine callOn_within (fun _ => ?_)
  split
  · exact refl.trans (maintOn_within ..)
  · exact refl

theorem execMaintDisable_goes (c : CallReq) (s : State) : Goes [.eth, .tk, .pgv, .pmu, .dram, .out] s (execMaintDisable c s) := by
  refine .intro ?_
  exact callOn_within (fun _ => refl.trans (maintOff_within ..))

theorem tokenRefused_within (s : State) (t : Token) (st : Status) : Within [.tk, .evr] s (tokenRefused s t st) :=
  refl.upd |>.trans (record_within ..)

theorem execSessionOpen_goes (c : CallReq) (t : Token) (s : State) : Goes [.tk, .evr, .pmu, .dram, .out] s (execSessionOpen c t s) := by
  refine .intro ?_
  refine callOn_within (fun _ => ?_)
  split
  · exact refl.upd |>.trans (record_within ..)
  · split
    · split
      · exact refl
      · exact refl.upd
    · exact refl.trans (tokenRefused_within ..)

theorem execSessionClose_goes (c : CallReq) (s : State) : Goes [.eth, .tk, .pgv, .evr, .pmu, .dram, .out] s (execSessionClose c s) := by
  refine .intro ?_
  exact callOn_within (fun _ => refl.trans (endSession_within ..))

theorem execSessionExpiry_goes (h : BitVec 16) (s : State) :
    Goes [.eth, .tb, .tk, .pgv, .cul, .evr, .pmu, .pin, .clk, .out] s (execSessionExpiry h s) := by
  refine .intro ?_
  split
  · exact refl
  · split
    · exact refl.trans (passTime_within ..) |>.trans (.cond (record_within ..) .skip) |>.trans (endSession_within ..)
    · exact refl

theorem execLockoutEnd_goes (s : State) : Goes [.tb, .tk, .cul, .pmu, .pin, .clk, .out] s (execLockoutEnd s) := by
  refine .intro ?_
  split
  · exact refl
  · exact refl.trans (passTime_within ..) |>.upd

theorem execSigmapRead_goes (c : CallReq) (shadow : Bool) (off len : Nat) (s : State) :
    Goes [.tk, .pmu, .dram, .out] s (execSigmapRead c shadow off len s) := by
  refine .intro (callOn_within fun s => ?_)
  rw [apply_ite Prod.fst]
  exact .ite refl refl

theorem execRuntimeReady_goes (c : CallReq) (s : State) : Goes [.tk, .rst, .pmu, .dram, .out] s (execRuntimeReady c s) := by
  refine .intro ?_
  exact callOn_within (fun _ => refl.upd)

theorem execSettingsReset_goes (c : CallReq) (s : State) : Goes [.tk, .evr, .pmu, .dram, .out] s (execSettingsReset c s) := by
  refine .intro ?_
  refine callOn_within (fun _ => ?_)
  split
  · exact refl.upd |>.trans (commandRec_within ..)
  · exact refl

theorem execTileDebugRead_goes (c : CallReq) (n : TileNo) (addr len : Nat) (s : State) :
    Goes [.tk, .pmu, .dram, .out] s (execTileDebugRead c n addr len s) := by
  refine .intro ?_
  refine callOn_within (fun _ => ?_)
  split
  · exact refl
  · exact refl

theorem takeStore_within (s : State) (k : KeyStore) : Within [.eth, .tk, .pgv, .cul, .evr] s (takeStore s k) :=
  refl.upd |>.trans (writeCounters_within ..) |>.trans (.fold (fun _ _ => endSession_within ..) _ _) |>.trans (.fold (fun _ _ => record_within ..) _ _)

/-! ### Machine/AgreeOps.lean -/

theorem buildDelta_within (s : State) : Within [.pim, .grp, .evr] s (buildDelta s) :=
  refl.upd |>.trans (.cond (.cond (suppress_within ..) (.seq (.set [.grp]) (record_within ..))) .skip)

theorem sendDelta_within (s : State) : Within [.txe, .grp, .pmu, .out] s (sendDelta s) :=
  refl.trans (.fold (fun _ _ => sendPeers_within ..) _ _) |>.trans (sendPeers_within ..) |>.trans (pmuCount_within ..)
    |>.trans (modBr_within ..) |>.trans (modBr_within ..)

theorem restartProbation_within (s : State) : Within [.grp] s (restartProbation s) := by
  unfold restartProbation
  split
  · exact refl.upd
  · exact refl

theorem inputMinority_within (s : State) (l : List (Nat × Sid)) : Within [.grp, .evr] s (inputMinority s l) :=
  refl.trans (.fold (fun _ _ => (by split; exacts [.mono (.seq (.seq (.set [.grp]) (record_within ..))
    (.cond (restartProbation_within ..) .skip))] : Within [.grp, .evr] _ _)) _ _)

theorem foldl_ring_le {β : Type} {f : Pim → β → Pim} (hf : ∀ p x, (f p x).ring = p.ring) :
    ∀ {l : List β} {p : Pim}, p.ring.length ≤ 4 → (l.foldl f p).ring.length ≤ 4
  | [], _, h => h
  | x :: _, p, h => foldl_ring_le hf (p := f p x) (hf p x ▸ h)

theorem takeRestart_within (s : State) (k : Mcc) (ds : List (Nat × List DeltaEnt)) : Within [.pim, .grp] s (takeRestart s k ds) := by
  unfold takeRestart
  exact .ite (refl.upd (pim := foldl_ring_le (by intros; rfl))) refl

theorem topoNote_within (was s : State) : Within [.evr] s (topoNote was s) := by
  unfold topoNote
  exact .ite refl (refl.trans (record_within ..))

theorem agreeInputs_within (s : State) (k : Mcc) : Within [.pim, .eth, .grp, .evr] s (agreeInputs s k) := by
  unfold agreeInputs
  extract_lets g ds touched old res s1 diff minor heldNow marks topo _ _ _ s2
  clear_value marks
  have h1 : Within [.pim] s s1 := refl.upd (pim := foldl_ring_le (by intros; rfl))
  have h2 : Within [.pim, .eth, .grp] s s2 := by
    refine h1.mono.upd (pim := fun h => ?_)
    cases marks <;> exact h
  exact refl.trans h2 |>.trans (topoNote_within ..) |>.trans (takeRestart_within ..) |>.trans (inputMinority_within ..)

theorem sharedOverrun_within (s : State) (r : TaskRec) (i : Instance) :
    Within [.fab, .cyc, .glb, .pim, .grp, .safe, .rst, .evr, .pmu, .out] s (sharedOverrun s r i) :=
  refl.trans (.cond (.set [.pim]) .skip) |>.trans (overrun_within ..) |>.trans (.cond (substOutputs_within ..) .skip)
    |>.trans (.cond (enterIsland_within ..) .skip)

theorem judgeInst_within (s : State) (masks : List (Nat × Reg32)) (i : Instance) :
    Within [.fab, .cyc, .glb, .pim, .grp, .safe, .rst, .evr, .pmu, .out] s (judgeInst s masks i) := by
  unfold judgeInst
  split
  · exact refl
  · next r _ =>
    extract_lets own n c out
    have ho : ∀ u, Within [.grp, .evr] u (out u) := fun u => refl.upd |>.trans (record_within ..)
    refine .ite (.ite (refl.trans (noteComplete_within ..)) (refl.upd.trans (ho _))) (.ite (.ite (refl.trans (ho s)) ?_) ?_)
    · exact refl.trans (sharedOverrun_within ..)
    · exact refl.trans (sharedOverrun_within ..)

theorem judgeCompletion_within (s : State) (k : Mcc) :
    Within [.fab, .cyc, .glb, .pim, .grp, .safe, .rst, .evr, .pmu, .out] s (judgeCompletion s k) := by
  unfold judgeCompletion
  split
  · exact refl.upd
  · exact refl.trans (.fold (fun _ _ => judgeInst_within ..) _ _) |>.upd

theorem noteMinority_within (s : State) (pos : Nat) (minor : Bool) :
    Within [.pim, .arb, .txe, .grp, .evr, .pmu, .dram, .out] s (noteMinority s pos minor) := by
  unfold noteMinority
  split
  · split
    · exact refl.upd |>.trans (record_within ..)
    · exact refl.upd
  · dsimp only
    split
    · exact refl.upd |>.trans (modPeer_within ..) |>.trans (record_within ..) |>.trans (.cond (declareFailed_within ..) .skip)
    · exact refl.trans (modPeer_within ..)

theorem compareProbation_within (s : State) (ds : List VoteEnt) : Within [.grp] s (compareProbation s ds) := by
  unfold compareProbation
  split
  · exact refl.trans (restartProbation_within ..)
  · exact refl

theorem decideVotes_within (s : State) : Within [.cyc, .pim, .arb, .txe, .grp, .safe, .evr, .pmu, .dram, .out] s (decideVotes s) := by
  unfold decideVotes
  dsimp only
  split
  · exact refl.upd
  · split
    · exact refl.upd |>.trans (compareProbation_within ..)
    · split
      · exact refl.upd |>.trans (.cond (.fold (fun _ _ => noteMinority_within ..) _ _) (.fold (fun _ _ => noteMinority_within ..) _ _))
          |>.trans (compareProbation_within ..)
      · exact refl.upd |>.trans (compareProbation_within ..) |>.trans (enterIsland_within ..)

theorem applyVotes_within (s : State) (k : Mcc) : Within [.pim, .grp] s (applyVotes s k) := by
  unfold applyVotes
  split
  · exact refl
  · exact refl.upd

theorem mirrorStart_within (s : State) (k : Mcc) : Within [.grp] s (mirrorStart s k) := by
  unfold mirrorStart
  exact .ite refl.upd refl

theorem sendMirror_within (s : State) (es : List DeltaEnt) : Within [.txe, .grp, .pmu, .out] s (sendMirror s es) :=
  refl.trans (.fold (fun _ _ => sendPeers_within ..) _ _)

theorem mirrorSend_within (s : State) : Within [.txe, .grp, .pmu, .out] s (mirrorSend s) := by
  unfold mirrorSend
  split
  · split
    · exact refl.trans (sendMirror_within ..) |>.upd
    · exact refl
  · exact refl

theorem mirrorNote_within (s : State) (pos : Nat) (es : List DeltaEnt) : Within [.grp] s (mirrorNote s pos es) := by
  unfold mirrorNote
  split
  · exact refl
  · exact refl.upd

theorem mirrorReport_within (s : State) (es : List DeltaEnt) : Within [.txe, .grp, .pmu, .out] s (mirrorReport s es) := by
  unfold mirrorReport
  split
  · exact refl
  · dsimp only
    split
    · exact refl
    · exact refl.trans (sendMirror_within ..)

theorem mirrorTake_within (s : State) (pos : Nat) (es : List DeltaEnt) : Within [.txe, .grp, .pmu, .out] s (mirrorTake s pos es) := by
  unfold mirrorTake
  split
  · exact refl.trans (mirrorNote_within ..) |>.trans (mirrorReport_within ..)
  · exact refl.trans (mirrorNote_within ..)

theorem mirrorApply_within (s : State) (k : Mcc) : Within [.pim, .grp, .evr] s (mirrorApply s k) := by
  unfold mirrorApply
  split
  · split
    · exact refl.upd |>.trans (.fold (fun _ _ => (by split; exacts [.mono (.cond .skip (.seq (.set [.pim]) (record_within ..)))] :
        Within [.pim, .evr] _ _)) _ _)
    · exact refl
  · exact refl

theorem shiftMcc_within (s : State) (d : Mcc) : Within [.ci, .cyc, .pim, .mvb, .gw, .tb, .pmu] s (shiftMcc s d) :=
  refl.upd

theorem SoOk.takeIsland {f : Safe} (h : SoOk f) (i : IslandState) : SoOk (takeIsland f i) := by
  intro o ho hf
  obtain ⟨⟨x, l⟩, hx, rfl⟩ := List.mem_map.1 ho
  have hs : f.failSilent = true → x.cmd = false := fun k => h x (List.of_mem_zip hx).1 (.inr (.inl k))
  rcases hf with hc | hs' | hh | hl
  · show (x.cmd && i.cause == 0 && !l.1 && !l.2) = false
    rw [show (i.cause == 0) = false from beq_eq_false_iff_ne.2 hc]
    simp
  · simp [hs hs']
  · have : l.1 = true := hh
    simp [this]
  · have : l.2 = true := hl
    simp [this]

theorem takePart_within (s : State) (l : GLink) (p : XferPart) : Within [.glb, .pim, .tb, .grp, .safe, .rst, .out] s (takePart s l p) := by
  unfold takePart
  extract_lets ahead
  split
  · exact refl.upd
  · exact refl.upd
  · exact refl.upd (pim := foldl_ring_le (by intros; rfl))
  · exact refl.upd (pim := foldl_ring_le (by intros; rfl))
  · exact refl.upd
  · exact refl.trans (.fold (fun _ _ => holdTarget_within ..) _ _)
  · exact refl.upd (safe := fun h => h.takeIsland _)
  · exact refl.upd

theorem judgeSkew_within (s : State) (p : HbPay) : Within [.cyc, .grp, .evr] s (judgeSkew s p) := by
  unfold judgeSkew
  split
  · exact refl
  · exact refl.upd |>.trans (.cond .skip (lendReference_within ..)) |>.trans (.cond (.seq (.set [.grp]) (record_within ..)) .skip)

theorem heldHb_within (s : State) : Within [.cyc, .grp, .evr] s (heldHb s) :=
  refl.trans (.fold (fun _ _ => (by split; exacts [.mono (.cond (judgeSkew_within ..) .skip), .mono .skip] : Within [.cyc, .grp, .evr] _ _)) _ _)

theorem commitSwap_within (s : State) (x : SwapRun) : Within [.ci, .txe, .grp, .pmu, .out] s (commitSwap s x) :=
  refl.upd |>.trans (sendEvery_within ..)

theorem acceptedAll_within (s : State) : Within [.ci, .txe, .grp, .pmu, .out] s (acceptedAll s) := by
  unfold acceptedAll
  split
  · split
    · exact refl.trans (commitSwap_within ..)
    · exact refl
  · exact refl

theorem adoptMcc_within (s : State) : Within [.ci, .cyc, .pim, .mvb, .gw, .tb, .grp, .pmu] s (adoptMcc s) := by
  unfold adoptMcc
  split
  · split
    · exact refl.trans (shiftMcc_within ..) |>.upd
    · exact refl
  · exact refl

theorem repeatRelease_within (s : State) (k : Mcc) : Within [.glb, .grp] s (repeatRelease s k) :=
  refl.upd

theorem abortProposal_within (s : State) : Within [.ci, .grp, .evr] s (abortProposal s) := by
  unfold abortProposal
  split
  · split
    · exact refl
    · exact refl.upd |>.trans (record_within ..)
  · exact refl

theorem rolesDue_within (s : State) (k : Mcc) : Within [.ci, .fab, .cyc, .glb, .tb, .grp, .safe, .evr, .out] s (rolesDue s k) := by
  unfold rolesDue
  split
  · exact refl
  · split
    · exact refl
    · exact refl.upd |>.trans (.cond (.set [.grp]) .skip) |>.trans (.cond (.set [.grp]) .skip) |>.trans (setRoles_within ..)
        |>.trans (.cond (.set [.grp]) .skip) |>.trans (.cond (.seq (.seq (.seq (abortProposal_within ..) (.set [.grp])) (record_within ..))
        (.cond (repeatRelease_within ..) .skip)) .skip)

theorem maintDue_within (s : State) (k : Mcc) : Within [.grp, .evr] s (maintDue s k) := by
  unfold maintDue
  split
  · split
    · exact refl.upd |>.trans (record_within ..)
    · exact refl
  · exact refl

theorem clearLatentDue_within (s : State) (k : Mcc) : Within [.grp] s (clearLatentDue s k) := by
  unfold clearLatentDue
  split
  · split
    · exact refl.upd
    · exact refl
  · exact refl

theorem rotateDue_within (s : State) (k : Mcc) : Within [.ci, .fab, .cyc, .glb, .tb, .grp, .safe, .evr, .out] s (rotateDue s k) := by
  unfold rotateDue
  split
  · split
    · exact refl.upd |>.trans (rolesDue_within ..)
    · exact refl
  · exact refl

theorem reassign_within (s : State) (pos : Nat) : Within [.grp] s (reassign s pos) :=
  refl.upd

theorem probWaiting_within (s : State) : Within [.grp] s (probWaiting s) := by
  unfold probWaiting
  split
  · split
    · exact refl
    · exact refl.upd |>.trans (.cond (reassign_within ..) .skip)
  · exact refl

theorem groupBoundary_within (s : State) (k : Mcc) : Within [.ci, .fab, .cyc, .glb, .pim, .txe, .tb, .grp, .safe, .evr, .pmu, .out] s
    (groupBoundary s k) := by
  unfold groupBoundary
  extract_lets s1 _ s2 s3 s4 s5
  have h1 : Within [.ci, .fab, .cyc, .glb, .pim, .txe, .tb, .grp, .safe, .evr, .pmu, .out] s s1 := refl.trans (rolesDue_within ..)
  have h2 : Within [.ci, .fab, .cyc, .glb, .pim, .txe, .tb, .grp, .safe, .evr, .pmu, .out] s s2 :=
    .ite (h1.trans (goOut_within ..)) h1.upd
  have h3 : Within [.ci, .fab, .cyc, .glb, .pim, .txe, .tb, .grp, .safe, .evr, .pmu, .out] s s3 :=
    h2.trans (clearLatentDue_within ..) |>.trans (maintDue_within ..) |>.trans (rotateDue_within ..)
  have h5 : Within [.ci, .fab, .cyc, .glb, .pim, .txe, .tb, .grp, .safe, .evr, .pmu, .out] s s5 :=
    h3.trans (.cond (formGroup_within ..) .skip) |>.trans (probWaiting_within ..) |>.trans (modBr_within ..) |>.trans (modBr_within ..)
  exact .ite refl (h5.upd.trans (mirrorApply_within ..) |>.trans (acceptedAll_within ..) |>.trans (heldHb_within ..))

/-! ### Machine/RemoteOps.lean -/

theorem execSemaphoreRevoke_goes (u : Option GLink) (sem : Nat) (s : State) : Goes [.gw, .grp, .evr] s (execSemaphoreRevoke u sem s) := by
  refine .intro ?_
  split
  · split
    · exact refl.upd |>.trans (record_within ..)
    · exact refl
  · split
    · exact refl.trans (modBr_within ..) |>.trans (record_within ..)
    · exact refl

theorem tagRetry_within (s : State) (t : TagEnt) : Within [.pim, .arb, .txe, .evr, .pmu, .dram, .out] s (tagRetry s t) := by
  unfold tagRetry
  split
  · exact refl.trans (pmuCount_within ..) |>.trans (finishTag_within ..)
  · exact refl.trans (pmuCount_within ..) |>.trans (modTag_within ..)

theorem issueGl_within (s : State) (l : GLink) (t : TagEnt) : Within [.pim, .arb, .txe, .grp, .evr, .pmu, .dram, .out] s (issueGl s l t) := by
  unfold issueGl
  dsimp only
  split
  · exact refl.trans (waitAgain_within ..)
  · split
    · split
      · split
        · exact refl.trans (modBr_within ..) |>.trans (glSend_within ..)
        · exact refl.trans (modBr_within ..)
      · exact refl.trans (tagRetry_within ..)
    · split
      · exact refl.trans (modBr_within ..) |>.trans (glSend_within ..)
      · exact refl.trans (modBr_within ..)
    · split
      · exact refl.trans (glSend_within ..)
      · exact refl

theorem submitGl_within (s : State) (q : SubReq) (l : GLink) (r : TagReq) :
    Within [.pim, .arb, .txe, .grp, .evr, .pmu, .dram, .out] s (submitGl s q l r) := by
  unfold submitGl
  refine submit_within (fun _ => ?_)
  dsimp only
  split
  · exact refl.trans (allocTag_within ..) |>.trans (issueGl_within ..)
  · exact refl.trans (allocTag_within ..)

theorem execGlRead_goes (q : SubReq) (l : GLink) (off len : Nat) (addr : Word) (sem : Nat) (s : State) :
    Goes [.pim, .arb, .txe, .grp, .evr, .pmu, .dram, .out] s (execGlRead q l off len addr sem s) := by
  refine .intro ?_
  split
  · exact refl.trans (submitGl_within ..)
  · exact refl.trans (submitRefused_within ..)

theorem execGlWrite_goes (q : SubReq) (l : GLink) (off len : Nat) (addr : Word) (sem : Nat) (s : State) :
    Goes [.pim, .arb, .txe, .grp, .evr, .pmu, .dram, .out] s (execGlWrite q l off len addr sem s) := by
  refine .intro ?_
  split
  · exact refl.trans (submitGl_within ..)
  · exact refl.trans (submitRefused_within ..)

theorem execGlSemAcq_goes (q : SubReq) (l : GLink) (sem first last : Nat) (s : State) :
    Goes [.pim, .arb, .txe, .grp, .evr, .pmu, .dram, .out] s (execGlSemAcq q l sem first last s) :=
  .intro (refl.trans (submitGl_within ..))

theorem execGlSemRel_goes (q : SubReq) (l : GLink) (sem : Nat) (s : State) :
    Goes [.pim, .arb, .txe, .grp, .evr, .pmu, .dram, .out] s (execGlSemRel q l sem s) :=
  .intro (refl.trans (submitGl_within ..))

theorem execGlDoorbell_goes (q : SubReq) (l : GLink) (v : Reg32) (s : State) :
    Goes [.pim, .arb, .txe, .grp, .evr, .pmu, .dram, .out] s (execGlDoorbell q l v s) := by
  refine .intro ?_
  split
  · exact refl.trans (submitRefused_within ..)
  · exact refl.trans (submitGl_within ..)

theorem glRetry_within (s : State) (l : GLink) (h : GlHdr) : Within [.txe, .grp, .pmu, .out] s (glRetry s l h) :=
  refl.trans (pmuCount_within ..) |>.trans (modBr_within ..) |>.trans (glSend_within ..)

theorem inbound_within {w : List Part} {k : State → State} (hk : ∀ u, Within w u (k u)) {s : State} {l : GLink} {h : GlHdr}
    (hw : [.txe, .grp, .evr, .pmu, .out] ⊆ w := by decide) : Within w s (inbound s l h k) := by
  unfold inbound
  split
  · exact hk s
  · exact (refl.trans (noteTags_within ..) |>.trans (glRetry_within ..)).mono hw

theorem execRdReq_goes (l : GLink) (h : GlHdr) (off words sem : Nat) (s : State) :
    Goes [.txe, .grp, .evr, .pmu, .clk, .out] s (execRdReq l h off words sem s) := by
  refine .intro ?_
  refine glRecv_within (fun _ => ?_)
  refine inbound_within (fun _ => ?_)
  split
  · exact refl.trans (glSend_within ..)
  · split
    · exact refl.trans (glRetry_within ..)
    · exact refl.trans (glSend_within ..)
    · exact refl.trans (glSend_within ..)

theorem execWrReq_goes (l : GLink) (h : GlHdr) (off sem : Nat) (posted : Bool) (data : List Byte) (s : State) :
    Goes [.txe, .grp, .evr, .pmu, .clk, .dram, .out] s (execWrReq l h off sem posted data s) := by
  refine .intro ?_
  refine glRecv_within (fun _ => ?_)
  refine inbound_within (fun _ => ?_)
  split
  · exact refl.trans (glSend_within ..)
  · split
    · exact refl.trans (glRetry_within ..)
    · exact refl.trans (glSend_within ..)
    · exact refl.trans (dramWrite_within ..) |>.trans (glSend_within ..)

theorem execSemAcqFrame_goes (l : GLink) (h : GlHdr) (sem first last : Nat) (s : State) :
    Goes [.txe, .grp, .evr, .pmu, .clk, .out] s (execSemAcqFrame l h sem first last s) := by
  refine .intro (glRecv_within fun _ => inbound_within fun s => ?_)
  extract_lets s1
  have h1 : Within [.grp] s s1 := by
    dsimp only [s1]
    split
    · exact refl.trans (modBr_within ..)
    · exact refl
  split
  · exact refl.trans h1 |>.trans (modBr_within ..) |>.trans (glSend_within ..)
  · exact refl.trans h1 |>.trans (glRetry_within ..)

theorem execSemRelFrame_goes (l : GLink) (h : GlHdr) (sem : Nat) (s : State) :
    Goes [.txe, .grp, .evr, .pmu, .clk, .out] s (execSemRelFrame l h sem s) :=
  .intro (glRecv_within fun _ => inbound_within fun _ => refl.trans (modBr_within ..) |>.trans (glSend_within ..))

theorem execDoorbell_goes (l : GLink) (h : GlHdr) (v : Reg32) (s : State) : Goes [.txe, .grp, .evr, .pmu, .clk, .out] s (execDoorbell l h v s) := by
  refine .intro ?_
  refine glRecv_within (fun _ => ?_)
  refine inbound_within (fun _ => ?_)
  split
  · exact refl.trans (glSend_within ..)
  · split
    · exact refl.trans (modBr_within ..) |>.trans (glSend_within ..)
    · exact refl.trans (glSend_within ..)

theorem onAnswer_within {w : List Part} {k : State → TagEnt → State} (hk : ∀ u t, Within w u (k u t)) {s : State} {l : GLink} {h : GlHdr}
    (hw : [.txe] ⊆ w := by decide) : Within w s (onAnswer s l h k) := by
  unfold onAnswer
  split
  · exact hk s _
  · exact .ite (Within.mono refl.upd hw) refl

theorem execRdRsp_goes (l : GLink) (h : GlHdr) (st : Status) (data : List Byte) (s : State) :
    Goes [.pim, .arb, .txe, .grp, .evr, .pmu, .clk, .dram, .out] s (execRdRsp l h st data s) := by
  refine .intro ?_
  refine glRecv_within (fun _ => ?_)
  refine onAnswer_within (fun _ _ => ?_)
  split
  · split
    · exact refl.trans (dramWrite_within ..) |>.trans (finishTag_within ..)
    · exact refl.trans (finishTag_within ..)
  · exact refl

theorem execWrRsp_goes (l : GLink) (h : GlHdr) (st : Status) (s : State) :
    Goes [.pim, .arb, .txe, .grp, .evr, .pmu, .clk, .dram, .out] s (execWrRsp l h st s) := by
  refine .intro ?_
  refine glRecv_within (fun _ => ?_)
  refine onAnswer_within (fun _ _ => ?_)
  split
  · exact refl.trans (finishTag_within ..)
  · exact refl.trans (finishTag_within ..)
  · exact refl

theorem execSemRsp_goes (l : GLink) (h : GlHdr) (st : Status) (s : State) :
    Goes [.pim, .arb, .txe, .grp, .evr, .pmu, .clk, .dram, .out] s (execSemRsp l h st s) := by
  refine .intro ?_
  refine glRecv_within (fun _ => ?_)
  refine onAnswer_within (fun _ _ => ?_)
  split
  · exact refl.trans (.cond .skip (modBr_within ..)) |>.trans (finishTag_within ..)
  · exact refl.trans (finishTag_within ..)
  · exact refl

theorem execRetry_goes (l : GLink) (h : GlHdr) (s : State) : Goes [.pim, .arb, .txe, .grp, .evr, .pmu, .clk, .dram, .out] s (execRetry l h s) := by
  refine .intro (glRecv_within fun _ => .trans (refl.trans (modBr_within ..)) (onAnswer_within (w := _) fun _ _ => ?_) (List.Subset.refl _))
  exact refl.trans (tagRetry_within ..)

/-! ### Machine/GwOps.lean -/

theorem gwReceive_within (s : State) (p : Port) (bus frame : Nat) (data : List Byte) :
    Within [.glb, .pim, .arb, .txe, .gw, .grp, .evr, .pmu, .out] s (gwReceive s p bus frame data) := by
  unfold gwReceive
  dsimp only
  split
  · exact refl
  · exact refl.upd |>.trans (.fold (fun _ _ => record_within ..) _ _) |>.trans (pmuCount_within ..) |>.trans (carryRx_within ..)

theorem busFail_within (s : State) (u : TUnit) (bus frame : Nat) (addr : Reg32) (st : Status) (x : Issue) :
    Within [.pim, .txe, .evr, .pmu, .dram, .out] s (busFail s u bus frame addr st x) :=
  refl.trans (.fold (fun _ _ => failPosted_within ..) _ _)

theorem busDone_within (s : State) (bus frame : Nat) : Within [.pim] s (busDone s bus frame) :=
  refl.upd

/-! ### Machine/BusOps.lean -/

theorem mvbLines_within (s : State) (a b : Bool) : Within [.mvb, .evr] s (mvbLines s a b) :=
  refl.upd |>.trans (.cond (record_within ..) .skip) |>.trans (.cond (record_within ..) .skip)
    |>.trans (.cond (.seq (.set [.mvb]) (record_within ..)) .skip)

theorem endPoll_within (s : State) : Within [.mvb] s (endPoll s) := by
  unfold endPoll
  split
  · exact refl.upd
  · exact refl

theorem mvbAnswer_within (s : State) (addr : Nat) (data : List Byte) (port : Bool) : Within [.pim, .mvb, .out] s (mvbAnswer s addr data port) :=
  refl.upd |>.trans (.cond (.seq (.set [.mvb]) (busDone_within ..)) .skip)

theorem modCan_within (s : State) (n : Nat) (f : Can → Can) : Within [.can0, .can1] s (modCan s n f) := by
  unfold modCan
  split
  · exact refl.upd
  · exact refl.upd

theorem canQueue_within (s : State) (n : Nat) (f : CanFrame) (src : CanSrc) (iss : Issue) (at_ : Option Word) :
    Within [.can0, .can1] s (canQueue s n f src iss at_) := by
  unfold canQueue
  dsimp only
  split
  · exact refl.trans (modCan_within ..)
  · exact refl

theorem canNmt_within (s : State) (cmd : Byte) : Within [.can0, .can1] s (canNmt s cmd) :=
  refl.trans (.fold (fun _ _ => (by split; exacts [.mono (canQueue_within ..), .mono .skip] : Within [.can0, .can1] _ _)) _ _)

theorem canErrors_within (s : State) (n : Nat) : Within [.can0, .can1] s (canErrors s n) := by
  unfold canErrors
  exact modCan_within ..

theorem canFail_within (s : State) (n : Nat) (p : CanPend) (st : Status) :
    Within [.pim, .arb, .txe, .can0, .can1, .evr, .pmu, .dram, .out] s (canFail s n p st) := by
  unfold canFail
  extract_lets s1
  have h1 : Within [.can0, .can1] s s1 := modCan_within ..
  split
  · exact refl.trans h1 |>.trans (busFail_within ..)
  · split
    · exact refl.trans (.cond h1 .skip) |>.trans (finishTag_within ..)
    · exact refl
  · exact refl

theorem canLaunch_within (s : State) (i : Nat) (data : List Byte) (iss : Issue) : Within [.can0, .can1] s (canLaunch s i data iss) := by
  unfold canLaunch
  split
  · exact refl
  · exact refl.trans (modCan_within ..) |>.trans (by split; exacts [.mono (modCan_within ..), .mono .skip] : Within [.can0, .can1] _ _)
      |>.trans (canQueue_within ..)

theorem fireItem_within (s : State) (x0 : LaunchItem) : Within [.pim, .txe, .mvb, .can0, .can1, .evr, .pmu, .dram, .out] s (fireItem s x0) := by
  unfold fireItem
  split
  · exact refl.upd |>.trans (.cond .skip (.cond (busFail_within ..) (.set [.mvb])))
  · exact refl.trans (canLaunch_within ..)

theorem fireLaunch_within (s : State) (l : Launch) : Within [.pim, .txe, .mvb, .can0, .can1, .evr, .pmu, .dram, .out] s (fireLaunch s l) :=
  refl.trans (.fold (fun _ _ => fireItem_within ..) _ _)

theorem fireLate_within (s : State) (l : Launch) : Within [.cyc, .pim, .txe, .mvb, .can0, .can1, .evr, .pmu, .dram, .out] s (fireLate s l) :=
  refl.upd |>.trans (fireLaunch_within ..)

theorem queueLaunch_within (s : State) (og : Nat) (items : List LaunchItem) (packed : Word) :
    Within [.cyc, .pim, .txe, .mvb, .can0, .can1, .evr, .pmu, .dram, .out] s (queueLaunch s og items packed) := by
  unfold queueLaunch
  dsimp only
  split
  · exact refl.trans (fireLate_within ..)
  · split
    · exact refl.upd |>.trans (queueNew_within ..)
    · exact refl.trans (queueNew_within ..)

theorem packAndQueue_within (s : State) (k : Mcc) (vals : List PubSig) (skip : List OutFrame) :
    Within [.cyc, .pim, .txe, .mvb, .can0, .can1, .gw, .evr, .pmu, .dram, .out] s (packAndQueue s k vals skip) := by
  unfold packAndQueue
  dsimp only
  split
  · exact refl
  · exact refl.upd |>.trans (.fold (fun _ _ => passTag_within ..) _ _) |>.trans (pmuCount_within ..)
      |>.trans (.fold (fun _ _ => queueLaunch_within ..) _ _)

theorem pollTag_within (s : State) (i : Nat) (u : TUnit) : Within [.pim, .arb, .txe, .gw, .evr, .pmu, .dram, .out] s (pollTag s i u) := by
  unfold pollTag
  extract_lets _ s1 _ s2
  have h1 : Within [.pim, .arb, .txe, .gw, .evr, .pmu, .dram, .out] s s1 := by
    dsimp only [s1]
    split
    · exact refl.upd.trans (finishTag_within ..)
    · exact refl
  exact .ite (h1.upd.trans (allocTag_within ..)) (h1.upd.trans (noteTags_within ..))

theorem canPolls_within (s : State) : Within [.pim, .arb, .txe, .can0, .can1, .gw, .evr, .pmu, .dram, .out] s (canPolls s) := by
  unfold canPolls
  split
  · exact refl
  · exact refl.trans (.fold (fun _ _ => (by split; exacts [.mono (.seq (pollTag_within ..) (canQueue_within ..)), .mono .skip] :
      Within [.pim, .arb, .txe, .can0, .can1, .gw, .evr, .pmu, .dram, .out] _ _)) _ _)

theorem pollAnswered_within (s : State) (bus frame : Nat) : Within [.pim, .arb, .txe, .evr, .pmu, .dram, .out] s (pollAnswered s bus frame) :=
  refl.trans (.fold (fun _ _ => .cond (by split; exacts [.mono (finishTag_within ..), .mono .skip] :
    Within [.pim, .arb, .txe, .evr, .pmu, .dram, .out] _ _) .skip) _ _)

theorem busRetry_within (s : State) (t : TagEnt) : Within [.pim, .arb, .txe, .mvb, .gw, .evr, .pmu, .dram, .out] s (busRetry s t) :=
  refl.upd |>.trans (tagRetry_within ..)

theorem underSem_within {w : List Part} {k : State → State} (hk : ∀ u, Within w u (k u)) {s : State} {t : TagEnt} {unit sem a : Nat}
    (hw : [.pim, .arb, .txe, .mvb, .gw, .evr, .pmu, .dram, .out] ⊆ w := by decide) : Within w s (underSem s t unit sem a k) := by
  unfold underSem
  split
  · exact (refl.trans (finishTag_within ..)).mono hw
  · exact (refl.trans (busRetry_within ..)).mono hw
  · exact hk s

theorem issueBus_within (s : State) (t : TagEnt) : Within [.pim, .arb, .txe, .mvb, .can0, .can1, .gw, .evr, .pmu, .dram, .out] s (issueBus s t) := by
  unfold issueBus
  split
  · exact refl.trans (waitAgain_within ..)
  · split
    · exact underSem_within fun _ => .ite (refl.trans (busRetry_within ..)) refl
    · refine underSem_within fun _ => .ite ?_ (.ite ?_ refl.upd)
      · exact refl.trans (busRetry_within ..)
      · exact refl.trans (finishTag_within ..)
    · refine underSem_within fun _ => .ite ?_ ?_
      · exact refl.trans (busRetry_within ..)
      · exact refl.trans (modCan_within ..)
    · exact underSem_within fun _ => refl
    · split
      · exact refl.upd
      · exact refl.trans (busRetry_within ..)
    · dsimp only
      split
      · exact refl.upd
      · exact refl.trans (finishTag_within ..)
    · exact refl

theorem submitBus_within (s : State) (q : SubReq) (u : TUnit) (r : TagReq) (ns : Nat) :
    Within [.pim, .arb, .txe, .mvb, .can0, .can1, .gw, .evr, .pmu, .dram, .out] s (submitBus s q u r ns) := by
  unfold submitBus
  refine submit_within (fun _ => ?_)
  dsimp only
  split
  · exact refl.trans (allocTag_within ..) |>.trans (issueBus_within ..)
  · exact refl.trans (allocTag_within ..)

/-! ### Machine/TimeOps.lean -/

theorem modPtp_within (s : State) (b : Bool) (f : PtpPlane → PtpPlane) : Within [.tb] s (modPtp s b f) := by
  unfold modPtp
  split
  · exact refl.upd
  · exact refl.upd

theorem tbState_within (s : State) (x : TbState) : Within [.tb, .evr] s (tbState s x) := by
  unfold tbState
  split
  · exact refl
  · exact refl.upd |>.trans (record_within ..)

theorem freshRun_within (s : State) : Within [.tb] s (freshRun s) :=
  refl.upd

theorem masterTaken_within (s : State) : Within [.tb, .evr] s (masterTaken s) :=
  refl.trans (freshRun_within ..) |>.trans (.cond (tbState_within ..) .skip)

theorem selectPlane_within (s : State) (b : Bool) : Within [.tb, .evr] s (selectPlane s b) :=
  refl.upd |>.trans (record_within ..) |>.trans (masterTaken_within ..)

theorem planeLost_within (s : State) : Within [.tb, .evr] s (planeLost s) := by
  unfold planeLost
  split
  · exact refl.trans (selectPlane_within ..)
  · split
    · exact refl.trans (tbState_within ..)
    · exact refl

theorem ptpRestart_within (s : State) (b : Bool) : Within [.tb, .evr] s (ptpRestart s b) :=
  refl.trans (modPtp_within ..) |>.trans (.cond (.seq (record_within ..) (planeLost_within ..)) .skip)

theorem takeAnnounce_within (s : State) (b : Bool) (d : PtpDs) (ls la : ℤ) : Within [.tb, .evr] s (takeAnnounce s b d ls la) := by
  unfold takeAnnounce
  extract_lets lost p take change s1 other s2
  clear_value other
  have hl : Within [.tb, .evr] s lost := refl.trans (modPtp_within ..)
  have h1 : Within [.tb, .evr] s s1 := refl.trans (modPtp_within ..)
  have h2 : Within [.tb, .evr] s s2 := .ite (h1.trans (masterTaken_within ..)) h1
  refine .ite refl (.ite (.ite (.ite (hl.trans (planeLost_within ..)) hl) refl) (.ite refl (.ite ?_ ?_)))
  · split
    · exact .ite (h2.trans (selectPlane_within ..)) h2
    · exact h2
  · split
    · exact .ite (h1.trans (selectPlane_within ..)) h1
    · exact .ite (h1.trans (selectPlane_within ..)) h1

theorem stepAt_within (s : State) (own : Mcc) (refused : Nat) : Within [.glb, .txe, .tb, .grp, .safe, .rst, .pmu, .out] s (stepAt s own refused) := by
  unfold stepAt
  split
  · exact refl
  · split
    · split
      · exact refl.trans (setTarget_within ..)
      · exact refl
    · exact refl.upd

theorem keepConfirmed_within (s : State) (o : ℤ) : Within [.tb] s (keepConfirmed s o) :=
  refl.upd

theorem refuseStep_within (s : State) (o : ℤ) : Within [.tb, .evr] s (refuseStep s o) :=
  refl.upd |>.trans (tbState_within ..) |>.trans (.cond .skip (.seq (.set [.tb]) (record_within ..)))

theorem endRefusal_within (s : State) : Within [.tb, .evr] s (endRefusal s) := by
  unfold endRefusal
  split
  · exact refl.upd |>.trans (tbState_within ..) |>.trans (record_within ..)
  · exact refl

theorem confirm_within (s : State) (o : ℤ) : Within [.glb, .txe, .tb, .grp, .safe, .rst, .evr, .pmu, .out] s (confirm s o) :=
  refl.trans (keepConfirmed_within ..) |>.trans (.cond (stepAt_within ..)
    (.cond (refuseStep_within ..) (.seq (endRefusal_within ..) (.cond (stepAt_within ..) .skip))))

theorem slew_within (s : State) (o : ℤ) : Within [.tb, .evr] s (slew s o) :=
  refl.upd |>.trans (.cond (record_within ..) .skip)

theorem lockStep_within (s : State) (o : ℤ) : Within [.tb, .evr] s (lockStep s o) :=
  refl.upd |>.trans (.cond (tbState_within ..) .skip)

theorem planeDiff_within (s : State) : Within [.tb, .evr] s (planeDiff s) := by
  unfold planeDiff
  split
  · split
    · exact refl.upd
    · split
      · exact refl.upd |>.trans (.cond (.seq (.set [.tb]) (record_within ..)) .skip)
      · exact refl.upd |>.trans (.cond (.set [.tb]) .skip)
  · exact refl

theorem measure_within (s : State) (o : ℤ) : Within [.glb, .txe, .tb, .grp, .safe, .rst, .evr, .pmu, .out] s (measure s o) := by
  unfold measure
  extract_lets h _ s0 run _ s1 s2 s3
  have h1 : Within [.tb] s s1 := refl.upd
  have h2 : Within [.glb, .txe, .tb, .grp, .safe, .rst, .evr, .pmu, .out] s s2 := .ite (refl.trans h1 |>.trans (confirm_within ..)) h1.mono
  have h3 : Within [.glb, .txe, .tb, .grp, .safe, .rst, .evr, .pmu, .out] s s3 := .ite (h2.trans (slew_within ..)) h2
  exact .ite refl.upd (h3.trans (lockStep_within ..))

theorem takeSync_within (s : State) (b : Bool) (m t1 : Word) : Within [.glb, .txe, .tb, .grp, .safe, .rst, .evr, .pmu, .out] s
    (takeSync s b m t1) := by
  unfold takeSync
  extract_lets p t2 o _ s1 s2
  have h1 : Within [.tb, .evr] s s1 := refl.upd |>.trans (modPtp_within ..)
  have h2 : Within [.tb, .evr] s s2 := .ite (h1.trans (tbState_within ..)) h1
  have h3 := h2.mono (w := [.glb, .txe, .tb, .grp, .safe, .rst, .evr, .pmu, .out])
  have h4 := h3.trans (.cond (c := s.tb.selB = b) (measure_within s2 o) .skip) |>.trans (planeDiff_within ..)
  split
  · exact .ite h4 refl
  · exact refl

theorem takeDelay_within (s : State) (b : Bool) (t4 : Word) : Within [.tb] s (takeDelay s b t4) := by
  unfold takeDelay
  split
  · exact refl.trans (modPtp_within ..)
  · exact refl

theorem takePeerDelay_within (s : State) (b : Bool) (t2 t3 : Word) : Within [.tb] s (takePeerDelay s b t2 t3) := by
  unfold takePeerDelay
  split
  · exact refl.trans (modPtp_within ..)
  · exact refl

/-! ### Machine/EthOps.lean -/

theorem modEth_within (s : State) (i : EthNo) (f : EthPort → EthPort) : Within [.eth] s (modEth s i f) :=
  refl.upd

theorem gateStart_within (s : State) (i : EthNo) : Within [.eth] s (gateStart s i) :=
  refl.trans (modEth_within ..)

theorem noteReplaced_within (s : State) (n : Nat) : Within [.eth] s (noteReplaced s n) := by
  unfold noteReplaced
  split
  · exact refl.upd
  · exact refl.upd

theorem enqueue_within (s : State) (i : EthNo) (tc : Nat) (f : TxFrame) : Within [.eth, .evr] s (enqueue s i tc f) := by
  unfold enqueue
  dsimp only
  split
  · exact refl
  · exact refl.trans (modEth_within ..) |>.trans (.cond .skip (.cond (suppress_within ..) (.seq (noteReplaced_within ..) (record_within ..))))

theorem sendPlanes_within (s : State) (a b : Bool) (tc : Nat) (f : EthFrame) (pub : Option Nat) (tag : Option (BitVec 18)) (pull : Bool) :
    Within [.eth, .evr] s (sendPlanes s a b tc f pub tag pull) := by
  unfold sendPlanes
  split
  · exact refl.upd |>.trans (enqueue_within ..) |>.trans (enqueue_within ..)
  · split
    · exact refl.trans (enqueue_within ..)
    · split
      · exact refl.trans (enqueue_within ..)
      · exact refl

theorem sendPtp_within (s : State) (b : Bool) (m : PtpMsg) : Within [.eth, .evr] s (sendPtp s b m) :=
  refl.trans (enqueue_within ..)

theorem sendArp_within (s : State) (i : EthNo) (ip : Ip4) (pay : EthPay) (mac : Mac) : Within [.eth, .evr] s (sendArp s i ip pay mac) :=
  refl.trans (enqueue_within ..)

theorem askArp_within (s : State) (a : Ip4) : Within [.eth, .evr] s (askArp s a) := by
  unfold askArp
  split
  · exact refl.trans (sendArp_within ..) |>.trans (sendArp_within ..)
  · exact refl

theorem unresolvedDest_within (s : State) (i : EthNo) (a : Ip4) : Within [.eth, .evr] s (unresolvedDest s i a) :=
  refl.upd |>.trans (.cond .skip (askArp_within ..)) |>.trans (.cond .skip (.seq (.set [.eth]) (record_within ..)))

theorem learnArp_within (s : State) (a : Ip4) (m : Mac) : Within [.eth] s (learnArp s a m) := by
  unfold learnArp
  split
  · exact refl.upd
  · split
    · exact refl.upd
    · exact refl

theorem modPub_within (s : State) (i : Nat) (f : PubStat → PubStat) : Within [.eth] s (modPub s i f) :=
  refl.upd

theorem sendPub_within (s : State) (i : Nat) (r : IoRec) (x : Published) (t : TrdpType) (seq : Reg32) (dst : Ip4) :
    Within [.eth, .evr] s (sendPub s i r x t seq dst) := by
  unfold sendPub
  split
  · split
    · exact refl.trans (unresolvedDest_within ..)
    · exact refl.trans (modPub_within ..) |>.trans (sendPlanes_within ..)
  · exact refl

theorem publishPd_within (s : State) (k : Mcc) : Within [.eth, .evr] s (publishPd s k) := by
  unfold publishPd
  split
  · exact refl
  · split
    · exact refl
    · exact refl.trans (.fold (fun _ _ => (by
        split
        split
        exacts [.mono (.cond (sendPub_within ..) .skip), .mono .skip] : Within [.eth, .evr] _ _)) _ _)

theorem sendStatus_within (s : State) (k : Mcc) : Within [.eth, .evr] s (sendStatus s k) := by
  unfold sendStatus
  split
  · exact refl
  · dsimp only
    split
    · exact refl.trans (sendPlanes_within ..)
    · exact refl

theorem pullRequests_within (s : State) (k : Mcc) : Within [.pim, .arb, .txe, .eth, .evr, .pmu, .dram, .out] s (pullRequests s k) := by
  unfold pullRequests
  refine .ite refl (.fold (fun s x => ?_) _ _)
  dsimp -zeta only
  split
  · refine .ite refl ?_
    extract_lets s1 a c h
    have h1 : Within [.pim, .arb, .txe, .evr, .pmu, .dram, .out] s s1 := by
      dsimp only [s1]
      split
      · exact finishTag_within ..
      · exact refl
    refine .ite (refl.trans h1 |>.trans (noteTags_within ..)) ?_
    split
    · exact refl.trans h1 |>.trans (unresolvedDest_within ..)
    · exact refl.trans h1 |>.trans (allocTag_within ..) |>.trans (sendPlanes_within ..)
  · exact refl

theorem modSub_within (s : State) (i : Nat) (f : SubStat → SubStat) : Within [.eth] s (modSub s i f) :=
  refl.upd

theorem rejectSub_within (s : State) (i : Nat) : Within [.eth] s (rejectSub s i) :=
  refl.trans (modSub_within ..)

theorem noteSender_within (s : State) (i : Nat) (c : SubCfg) (src : Ip4) (seq : Reg32) (planeB : Bool) :
    Within [.eth, .evr] s (noteSender s i c src seq planeB) :=
  refl.trans (modSub_within ..) |>.trans (.cond .skip (record_within ..))

theorem timedArrive_within (s : State) : Within [.glb, .pim, .arb, .txe, .eth, .grp, .evr, .pmu, .out] s (timedArrive s) :=
  refl.upd |>.trans (.fold (fun _ _ => carryRx_within ..) _ _)

theorem timedAct_within (s : State) (c : SubCfg) (data : List Byte) (x : RxWait) :
    Within [.glb, .pim, .arb, .txe, .eth, .grp, .evr, .pmu, .out] s (timedAct s c data x) := by
  unfold timedAct
  dsimp only
  split
  · exact refl.trans (carryRx_within ..)
  · split
    · exact refl.upd |>.trans (carryRx_within ..)
    · exact refl.upd

theorem answerPull_within (s : State) (i : Nat) (pp : Bool) : Within [.pim, .arb, .txe, .evr, .pmu, .dram, .out] s (answerPull s i pp) := by
  unfold answerPull
  split
  · exact refl.trans (finishTag_within ..)
  · exact refl

theorem acceptPd_within (s0 : State) (i : Nat) (c : SubCfg) (x : HeldCopy) (code : BitVec 4) :
    Within [.glb, .pim, .arb, .txe, .eth, .grp, .evr, .pmu, .dram, .out] s0 (acceptPd s0 i c x code) :=
  refl.trans (noteSender_within ..) |>.trans (timedArrive_within ..) |>.trans (modSub_within ..) |>.trans (answerPull_within ..)
    |>.trans (pmuCount_within ..) |>.trans (timedAct_within ..)

theorem sdtGood_within (s : State) (i : Nat) (c : SubCfg) (x : HeldCopy) :
    Within [.glb, .pim, .arb, .txe, .eth, .grp, .evr, .pmu, .dram, .out] s (sdtGood s i c x) :=
  refl.trans (modSub_within ..) |>.trans (.cond (record_within ..) .skip) |>.trans (acceptPd_within ..)

theorem sdtSingle_within (s : State) (i : Nat) (c : SubCfg) (x : HeldCopy) :
    Within [.glb, .pim, .arb, .txe, .eth, .grp, .evr, .pmu, .dram, .out] s (sdtSingle s i c x) :=
  refl.upd |>.trans (modSub_within ..) |>.trans (.cond (.seq (.set [.eth]) (record_within ..)) .skip) |>.trans (pmuCount_within ..)
    |>.trans (acceptPd_within ..)

theorem sdtMismatch_within (s : State) (i : Nat) (c : SubCfg) (x : HeldCopy) :
    Within [.glb, .pim, .arb, .txe, .eth, .grp, .evr, .pmu, .out] s (sdtMismatch s i c x) :=
  refl.upd |>.trans (modSub_within ..) |>.trans (.cond (suppress_within ..) (record_within ..)) |>.trans (pmuCount_within ..) |>.trans (carryRx_within ..)

theorem sdtHold_within (s : State) (i : Nat) (x : HeldCopy) : Within [.eth] s (sdtHold s i x) :=
  refl.trans (modSub_within ..)

theorem sdtCopy_within (s : State) (i : Nat) (c : SubCfg) (x : HeldCopy) :
    Within [.glb, .pim, .arb, .txe, .eth, .grp, .evr, .pmu, .dram, .out] s (sdtCopy s i c x) := by
  unfold sdtCopy
  split
  · exact refl.trans (rejectSub_within ..)
  · split
    · split
      · exact refl.trans (sdtHold_within ..)
      · exact refl.trans (sdtSingle_within ..)
    · split
      · split
        · exact refl.trans (rejectSub_within ..)
        · split
          · exact refl.trans (sdtGood_within ..)
          · exact refl.trans (sdtMismatch_within ..)
      · split
        · exact refl.trans (sdtSingle_within ..) |>.trans (sdtHold_within ..)
        · exact refl.trans (rejectSub_within ..)

theorem sdtRelease_within (s : State) (i : Nat) : Within [.glb, .pim, .arb, .txe, .eth, .grp, .evr, .pmu, .dram, .out] s (sdtRelease s i) := by
  unfold sdtRelease
  split
  · exact refl.trans (sdtSingle_within ..)
  · exact refl

theorem releasePlane_within (s : State) (b : Bool) : Within [.glb, .pim, .arb, .txe, .eth, .grp, .evr, .pmu, .dram, .out] s (releasePlane s b) :=
  refl.trans (.fold (fun _ _ => (by split; exacts [.mono (.cond (sdtRelease_within ..) .skip), .mono .skip] :
    Within [.glb, .pim, .arb, .txe, .eth, .grp, .evr, .pmu, .dram, .out] _ _)) _ _)

theorem hdrReject_within (s : State) (i : Nat) : Within [.eth] s (hdrReject s i) :=
  refl.upd |>.trans (rejectSub_within ..)

theorem pdReceive_within (s : State) (i : Nat) (b : Bool) (src : Ip4) (h : TrdpHdr) (data : List Byte) (tr : SdtTrailer) :
    Within [.glb, .pim, .arb, .txe, .eth, .grp, .evr, .pmu, .dram, .out] s (pdReceive s i b src h data tr) := by
  unfold pdReceive
  split
  · exact refl
  · split
    · exact refl.trans (hdrReject_within ..)
    · split
      · exact refl.upd |>.trans (rejectSub_within ..)
      · dsimp only
        split
        · exact refl.trans (sdtCopy_within ..)
        · exact refl.trans (acceptPd_within ..)

theorem pdTake_within (s : State) (p : EthNo) (src : Ip4) (h : TrdpHdr) (data : List Byte) (tr : SdtTrailer) :
    Within [.glb, .pim, .arb, .txe, .eth, .grp, .evr, .pmu, .dram, .out] s (pdTake s p src h data tr) := by
  unfold pdTake
  dsimp only
  split
  · exact refl.trans (modEth_within ..)
  · exact refl.trans (pdReceive_within ..)
  · exact refl.trans (.fold (fun _ _ => pdReceive_within ..) _ _)

theorem pullReply_within (s : State) (x : Nat × IoRec) (h : TrdpHdr) : Within [.eth, .evr] s (pullReply s x h) := by
  unfold pullReply
  split
  · exact refl
  · split
    · exact refl.trans (sendPub_within ..)
    · exact refl

theorem mdDrop_within (s : State) : Within [.eth] s (mdDrop s) :=
  refl.upd

theorem mdInto_within (s : State) (ses : Nat) (peer : Ip4) (h : TrdpHdr) (data : List Byte) :
    Within [.pim, .arb, .txe, .eth, .evr, .pmu, .dram, .out] s (mdInto s ses peer h data).1 := by
  unfold mdInto
  split
  · exact refl.trans (mdDrop_within ..)
  · next b _ =>
    extract_lets _ s1 fin ans tok _ s2
    have hf : ∀ u st len, Within [.pim, .arb, .txe, .evr, .pmu, .dram, .out] u (fin u st len) := fun u st len => by
      dsimp only [fin]
      split
      · exact finishTag_within ..
      · exact refl
    have h1 : Within [.pim, .arb, .txe, .eth, .evr, .pmu, .dram, .out] s s1 := refl.upd
    have h2 : Within [.pim, .arb, .txe, .eth, .evr, .pmu, .dram, .out] s s2 := .ite h1.upd h1
    split
    · exact h1.trans (hf ..)
    · exact h2.trans (dramWrite_within ..) |>.trans (hf ..)

theorem mdReplyIn_within (s : State) (peer : Ip4) (h : TrdpHdr) (data : List Byte) :
    Within [.pim, .arb, .txe, .eth, .evr, .pmu, .dram, .out] s (mdReplyIn s peer h data) := by
  unfold mdReplyIn
  split
  · exact refl.trans (mdDrop_within ..)
  · next t ses e g _ =>
    extract_lets r
    have hr : Within [.pim, .arb, .txe, .eth, .evr, .pmu, .dram, .out] s r.1 := by
      dsimp only [r]
      split
      · exact refl.trans (mdDrop_within ..)
      · exact mdInto_within ..
    refine .ite hr (.ite ?_ (hr.trans (modTag_within ..)))
    split
    · exact hr.trans (finishTag_within ..)
    · exact hr

theorem mdDeliver_within (s : State) (peer : Ip4) (h : TrdpHdr) (data : List Byte) (stamp : Word) :
    Within [.pim, .arb, .txe, .eth, .evr, .pmu, .dram, .out] s (mdDeliver s peer h data stamp) := by
  unfold mdDeliver
  extract_lets _ _ s1
  have h1 : Within [.pim, .arb, .txe, .eth, .evr, .pmu, .dram, .out] s s1 := refl.trans (pmuCount_within ..) |>.upd
  split
  · split
    · exact h1.trans (finishTag_within ..)
    · exact h1.trans (mdDrop_within ..)
  · exact h1.trans (mdReplyIn_within ..)
  · exact h1.trans (mdReplyIn_within ..)
  · split
    · exact h1.trans (mdDrop_within ..)
    · split
      · exact .ite (h1.trans (mdDrop_within ..)) (h1.trans (mdInto_within ..))
      · exact h1.trans (mdDrop_within ..)

theorem mdReasm_within (s : State) (src : Ip4) (h : TrdpHdr) (data : List Byte) (off : Nat) : Within [.eth] s (mdReasm s src h data off).1 := by
  unfold mdReasm
  extract_lets is cur x parts rest
  split
  · exact refl
  · split
    · exact refl.trans (mdDrop_within ..)
    · split <;> exact refl.upd

theorem mdSendMsg_within (s : State) (dst : Ip4) (h : TrdpHdr) (data : List Byte) (tag : BitVec 18) :
    Within [.eth, .evr, .pmu, .out] s (mdSendMsg s dst h data tag) := by
  unfold mdSendMsg
  split
  · exact refl.trans (unresolvedDest_within ..)
  · exact refl.trans (pmuCount_within ..) |>.trans (.fold (fun _ _ => (by split; exacts [.mono (sendPlanes_within ..)] : Within [.eth, .evr] _ _)) _ _)

/-! ### Machine/TileCore.lean -/

theorem bundleCount_within (s : State) (sl : Slot) : Within [.pmu, .out] s (bundleCount s sl) := by
  unfold bundleCount
  split
  · exact refl.trans (pmuCount_within ..)
  · exact refl

theorem trapWord_within (s : State) (n : TileNo) (sl : Slot) : Within [.fab, .glb, .rst, .evr, .pmu, .out] s (trapWord s n sl) :=
  refl.trans (tileTrap_within ..)

theorem TileOk.leaveSlack {t : Tile} (h : TileOk t) (sl : Slot) : TileOk (t.leaveSlack sl) := by
  unfold Tile.leaveSlack
  split
  · exact h
  · split <;> exact h

theorem TileOk.setReg {t : Tile} (h : TileOk t) (r : GReg) (v : Word) : TileOk (t.setReg r v) := by
  unfold Tile.setReg
  split
  · exact h
  · exact ⟨h.1, by simp [h.2]⟩

theorem TileOk.wr {t : Tile} (h : TileOk t) (w : Option (GReg × Word)) : TileOk (t.wr w) := by
  unfold Tile.wr
  split
  · exact h.setReg ..
  · exact h

theorem TileOk.endBundle {t : Tile} (h : TileOk t) (a b : HalfBundle) : TileOk (t.endBundle a b) := by
  have hw : TileOk ((t.wr a.wr).wr b.wr) := (h.wr _).wr _
  unfold Tile.endBundle
  dsimp only
  split <;> exact hw

theorem TileOk.take {t : Tile} (h : TileOk t) (sl : Slot) (b : HalfBundle) : TileOk (t.take sl b) := by
  unfold Tile.take
  split
  · exact h
  · exact h.endBundle ..
  · exact h

theorem issue_within (s : State) (n : TileNo) (sl : Slot) (op : Nat) (f : TFields) (h : Tile → HalfBundle) :
    Within [.fab, .glb, .rst, .evr, .pmu, .out] s (issue s n sl op f h) := by
  unfold issue
  refine .ite refl (.ite (refl.trans (trapWord_within ..)) ?_)
  exact refl.trans (modTile_within _ _ _ fun _ _ k => (k.leaveSlack sl).take ..) |>.trans (bundleCount_within ..)

theorem issueRR_within (s : State) (n : TileNo) (sl : Slot) (op : Nat) (f : RR) (g : Tile → Res) :
    Within [.fab, .glb, .rst, .evr, .pmu, .out] s (issueRR s n sl op f g) :=
  refl.trans (issue_within ..)

theorem issueMem_within (s : State) (n : TileNo) (op : Nat) (f : TFields) (g : Tile → TileProg → Except Nat (Mem × HalfBundle))
    (hg : ∀ t p m h, t.mem.wf = true → g t p = .ok (m, h) → m.wf = true) :
    Within [.fab, .glb, .rst, .evr, .pmu, .out] s (issueMem s n op f g) := by
  unfold issueMem
  refine .ite refl (.ite (refl.trans (trapWord_within ..)) ?_)
  dsimp only
  split
  · exact refl.trans (tileTrap_within ..)
  · next m h e =>
    exact refl.trans (modTile_within _ _ _ fun hf t k => ⟨hg _ _ _ _ (TileOk.leaveSlack (hf.tile n) .s0).1 e, ((k.leaveSlack .s0).take .s0 h).2⟩)

theorem execNop_goes (n : TileNo) (sl : Slot) (s : State) : Goes [.fab, .glb, .rst, .evr, .pmu, .out] s (execNop n sl s) :=
  .intro (refl.trans (issue_within ..))

theorem execMov_goes (n : TileNo) (sl : Slot) (f : RR) (s : State) : Goes [.fab, .glb, .rst, .evr, .pmu, .out] s (execMov n sl f s) :=
  .intro (refl.trans (issueRR_within ..))

theorem execLimm_goes (n : TileNo) (f : LF) (s : State) : Goes [.fab, .pmu, .out] s (execLimm n f s) := by
  refine .intro (.ite refl ?_)
  exact refl.trans (modTile_within _ _ _ fun _ _ k => (k.leaveSlack .s0).endBundle ..) |>.trans (bundleCount_within ..)

theorem execAdd_goes (n : TileNo) (sl : Slot) (f : RR) (s : State) : Goes [.fab, .glb, .rst, .evr, .pmu, .out] s (execAdd n sl f s) :=
  .intro (refl.trans (issueRR_within ..))

theorem execAddi_goes (n : TileNo) (sl : Slot) (f : RI) (s : State) : Goes [.fab, .glb, .rst, .evr, .pmu, .out] s (execAddi n sl f s) :=
  .intro (refl.trans (issue_within ..))

theorem execSub_goes (n : TileNo) (sl : Slot) (f : RR) (s : State) : Goes [.fab, .glb, .rst, .evr, .pmu, .out] s (execSub n sl f s) :=
  .intro (refl.trans (issueRR_within ..))

theorem execNeg_goes (n : TileNo) (sl : Slot) (f : RR) (s : State) : Goes [.fab, .glb, .rst, .evr, .pmu, .out] s (execNeg n sl f s) :=
  .intro (refl.trans (issueRR_within ..))

theorem execAbs_goes (n : TileNo) (sl : Slot) (f : RR) (s : State) : Goes [.fab, .glb, .rst, .evr, .pmu, .out] s (execAbs n sl f s) :=
  .intro (refl.trans (issueRR_within ..))

theorem execMin_goes (n : TileNo) (sl : Slot) (f : RR) (s : State) : Goes [.fab, .glb, .rst, .evr, .pmu, .out] s (execMin n sl f s) :=
  .intro (refl.trans (issueRR_within ..))

theorem execMax_goes (n : TileNo) (sl : Slot) (f : RR) (s : State) : Goes [.fab, .glb, .rst, .evr, .pmu, .out] s (execMax n sl f s) :=
  .intro (refl.trans (issueRR_within ..))

theorem execLim_goes (n : TileNo) (sl : Slot) (f : RR) (s : State) : Goes [.fab, .glb, .rst, .evr, .pmu, .out] s (execLim n sl f s) :=
  .intro (refl.trans (issueRR_within ..))

theorem execMul_goes (n : TileNo) (sl : Slot) (f : RR) (s : State) : Goes [.fab, .glb, .rst, .evr, .pmu, .out] s (execMul n sl f s) :=
  .intro (refl.trans (issueRR_within ..))

theorem execMac_goes (n : TileNo) (sl : Slot) (f : RR) (s : State) : Goes [.fab, .glb, .rst, .evr, .pmu, .out] s (execMac n sl f s) :=
  .intro (refl.trans (issueRR_within ..))

theorem execDiv_goes (n : TileNo) (f : RR) (s : State) : Goes [.fab, .glb, .rst, .evr, .pmu, .out] s (execDiv n f s) :=
  .intro (refl.trans (issueRR_within ..))

theorem execMod_goes (n : TileNo) (f : RR) (s : State) : Goes [.fab, .glb, .rst, .evr, .pmu, .out] s (execMod n f s) :=
  .intro (refl.trans (issueRR_within ..))

theorem execSqrt_goes (n : TileNo) (f : RR) (s : State) : Goes [.fab, .glb, .rst, .evr, .pmu, .out] s (execSqrt n f s) :=
  .intro (refl.trans (issueRR_within ..))

theorem execAnd_goes (n : TileNo) (sl : Slot) (f : RR) (s : State) : Goes [.fab, .glb, .rst, .evr, .pmu, .out] s (execAnd n sl f s) :=
  .intro (refl.trans (issueRR_within ..))

theorem execOr_goes (n : TileNo) (sl : Slot) (f : RR) (s : State) : Goes [.fab, .glb, .rst, .evr, .pmu, .out] s (execOr n sl f s) :=
  .intro (refl.trans (issueRR_within ..))

theorem execXor_goes (n : TileNo) (sl : Slot) (f : RR) (s : State) : Goes [.fab, .glb, .rst, .evr, .pmu, .out] s (execXor n sl f s) :=
  .intro (refl.trans (issueRR_within ..))

theorem execNot_goes (n : TileNo) (sl : Slot) (f : RR) (s : State) : Goes [.fab, .glb, .rst, .evr, .pmu, .out] s (execNot n sl f s) :=
  .intro (refl.trans (issueRR_within ..))

theorem execShl_goes (n : TileNo) (sl : Slot) (f : RR) (s : State) : Goes [.fab, .glb, .rst, .evr, .pmu, .out] s (execShl n sl f s) :=
  .intro (refl.trans (issueRR_within ..))

theorem execShr_goes (n : TileNo) (sl : Slot) (f : RR) (s : State) : Goes [.fab, .glb, .rst, .evr, .pmu, .out] s (execShr n sl f s) :=
  .intro (refl.trans (issueRR_within ..))

theorem execCmp_goes (n : TileNo) (sl : Slot) (f : RR) (s : State) : Goes [.fab, .glb, .rst, .evr, .pmu, .out] s (execCmp n sl f s) :=
  .intro (refl.trans (issueRR_within ..))

theorem execCmpi_goes (n : TileNo) (sl : Slot) (f : CI) (s : State) : Goes [.fab, .glb, .rst, .evr, .pmu, .out] s (execCmpi n sl f s) :=
  .intro (refl.trans (issue_within ..))

theorem execSel_goes (n : TileNo) (sl : Slot) (f : RR) (s : State) : Goes [.fab, .glb, .rst, .evr, .pmu, .out] s (execSel n sl f s) :=
  .intro (refl.trans (issueRR_within ..))

theorem execCvt_goes (n : TileNo) (sl : Slot) (f : RR) (s : State) : Goes [.fab, .glb, .rst, .evr, .pmu, .out] s (execCvt n sl f s) :=
  .intro (refl.trans (issue_within ..))

theorem execQmrg_goes (n : TileNo) (sl : Slot) (f : RR) (s : State) : Goes [.fab, .glb, .rst, .evr, .pmu, .out] s (execQmrg n sl f s) :=
  .intro (refl.trans (issueRR_within ..))

theorem execQtst_goes (n : TileNo) (sl : Slot) (f : RR) (s : State) : Goes [.fab, .glb, .rst, .evr, .pmu, .out] s (execQtst n sl f s) :=
  .intro (refl.trans (issueRR_within ..))

theorem execQset_goes (n : TileNo) (sl : Slot) (f : RI) (s : State) : Goes [.fab, .glb, .rst, .evr, .pmu, .out] s (execQset n sl f s) :=
  .intro (refl.trans (issue_within ..))

theorem execGetf_goes (n : TileNo) (sl : Slot) (f : RR) (s : State) : Goes [.fab, .glb, .rst, .evr, .pmu, .out] s (execGetf n sl f s) :=
  .intro (refl.trans (issue_within ..))

/-! ### Machine/ImgCheck.lean -/

theorem showCheck_within (s : State) (r : Option (Nat × Status)) : Within [.ci] s (showCheck s r) := by
  unfold showCheck
  split
  · exact refl.upd
  · exact refl.upd

theorem checkRec_within (s : State) (r : Nat × Status) : Within [.ci, .evr] s (checkRec s r) :=
  refl.trans (showCheck_within ..) |>.trans (record_within ..)

/-! ### Machine/PortOps.lean -/

theorem forgetPlane_within (s : State) (b : Bool) : Within [.eth] s (forgetPlane s b) :=
  refl.upd

theorem resetOffload_within (s : State) : Within [.eth] s (resetOffload s) :=
  refl.upd

theorem resetEth_within (s : State) (i : EthNo) :
    Within [.glb, .pim, .arb, .txe, .eth, .tb, .grp, .tk, .pgv, .evr, .pmu, .clk, .dram, .out] s (resetEth s i) :=
  refl.trans (modEth_within ..) |>.trans (rxClk_within ..) |>.trans (.cond (.set [.tk, .pgv])
    (.seq (.seq (.seq (.seq (releasePlane_within ..) (forgetPlane_within ..)) (.cond (resetOffload_within ..) .skip)) (modPtp_within ..))
    (ptpRestart_within ..)))

theorem failItem_within (s : State) (x0 : LaunchItem) : Within [.pim, .txe, .evr, .pmu, .dram, .out] s (failItem s x0) := by
  unfold failItem
  split
  · exact refl.trans (busFail_within ..)
  · split
    · exact refl.trans (busFail_within ..)
    · exact refl

theorem failLaunches_within (s : State) (p : LaunchItem → Bool) : Within [.cyc, .pim, .txe, .evr, .pmu, .dram, .out] s (failLaunches s p) :=
  refl.trans (dropLaunches_within ..) |>.trans (.fold (fun _ _ => failItem_within ..) _ _)

theorem dropBells_within (s : State) (bus : Nat) : Within [.gw] s (dropBells s bus) :=
  refl.upd

theorem resetMvb_within (s : State) : Within [.cyc, .pim, .txe, .mvb, .gw, .evr, .pmu, .dram, .out] s (resetMvb s) :=
  refl.trans (failLaunches_within ..) |>.trans (.fold (fun _ _ => failItem_within ..) _ _) |>.trans (dropBells_within ..) |>.upd

theorem resetCan_within (s : State) (n : Nat) : Within [.cyc, .pim, .arb, .txe, .can0, .can1, .gw, .evr, .pmu, .dram, .out] s (resetCan s n) :=
  refl.trans (failLaunches_within ..) |>.trans (modCan_within ..) |>.trans (.fold (fun _ _ => canFail_within ..) _ _) |>.trans (dropBells_within ..)

theorem resetGw_within (s : State) : Within [.gw] s (resetGw s) :=
  refl.upd

theorem resetGl_within (s : State) (l : GLink) : Within [.grp, .evr, .clk] s (resetGl s l) :=
  refl.trans (.cond (linkDown_within ..) .skip) |>.trans (modBr_within ..)

theorem resetBlock_within (s : State) (u : Nat) :
    Within [.cyc, .glb, .pim, .arb, .txe, .eth, .mvb, .can0, .can1, .gw, .tb, .grp, .tk, .pgv, .evr, .pmu, .clk, .dram, .out] s (resetBlock s u) := by
  unfold resetBlock
  split
  · exact refl.trans (resetEth_within ..)
  · exact refl.trans (resetEth_within ..)
  · exact refl.trans (resetEth_within ..)
  · exact refl.trans (resetMvb_within ..)
  · exact refl.trans (resetCan_within ..)
  · exact refl.trans (resetCan_within ..)
  · exact refl.trans (resetGl_within ..)
  · exact refl.trans (resetGl_within ..)
  · exact refl.trans (resetGw_within ..)

theorem dropReceptions_within (s : State) (u : Nat) : Within [.txe, .eth] s (dropReceptions s u) :=
  refl.upd

theorem portReset_within (s : State) (u : Nat) (src : ResetSource) :
    Within [.cyc, .glb, .pim, .arb, .txe, .eth, .mvb, .can0, .can1, .gw, .tb, .grp, .tk, .pgv, .rst, .evr, .pmu, .clk, .dram,
      .out] s (portReset s u src) := by
  unfold portReset
  split
  · exact refl
  · exact refl.trans (.cond (freshUnit_within ..) .skip) |>.trans (bumpEpoch_within ..) |>.trans (resetBlock_within ..)
      |>.trans (dropReceptions_within ..) |>.upd |>.trans (record_within ..)

theorem loadPort_within (s : State) (u : Nat) : Within [.eth, .can0, .can1] s (loadPort s u) := by
  unfold loadPort
  split
  · exact refl.trans (modEth_within ..)
  · exact refl.trans (modEth_within ..)
  · exact refl.trans (modCan_within ..)
  · exact refl.trans (modCan_within ..)
  · exact refl

theorem clkGood_within (s : State) (i : Nat) : Within [.clk] s (clkGood s i) :=
  refl.upd

theorem portDone_within (s : State) (u : Nat) :
    Within [.cyc, .glb, .pim, .arb, .txe, .eth, .mvb, .can0, .can1, .gw, .tb, .grp, .tk, .upd, .pgv, .rst, .evr, .pmu, .clk, .dram,
      .out] s (portDone s u) := by
  unfold portDone
  extract_lets s0 _ s1
  have h0 : Within [.clk] s s0 := by
    dsimp only [s0]
    split
    · exact clkGood_within ..
    · exact refl
  have h1 : Within [.cyc, .glb, .pim, .arb, .txe, .eth, .mvb, .can0, .can1, .gw, .tb, .grp, .tk, .upd, .pgv, .rst, .evr, .pmu, .clk,
    .dram, .out] s s1 :=
    refl.trans h0 |>.upd |>.trans (loadPort_within ..)
  refine .ite refl ?_
  split
  · refine .ite ?_ h1
    split
    · exact h1.upd.trans (portReset_within ..)
    · exact h1.upd
  · exact h1

theorem execPortResetDone_goes (u : Nat) (s : State) :
    Goes [.cyc, .glb, .pim, .arb, .txe, .eth, .mvb, .can0, .can1, .gw, .tb, .grp, .tk, .upd, .pgv, .rst, .evr, .pmu, .clk, .dram,
      .out] s (execPortResetDone u s) :=
  .intro (refl.trans (portDone_within ..))

/-! ### Machine/ResetOps.lean -/

theorem countCanary_within (s : State) (cause : Byte) : Within [.cul] s (countCanary s cause) :=
  refl.trans (writeCounters_within ..)

theorem linksSilent_within (s : State) : Within [.grp, .out] s (linksSilent s) :=
  refl.trans (.fold (fun _ _ => .cond (.seq (.set [.out]) (modBr_within ..)) .skip) _ _)

theorem failSilence_within (s : State) (cause : Byte) (island : Bool) :
    Within [.cyc, .glb, .grp, .safe, .rst, .cul, .evr, .out] s (failSilence s cause island) := by
  unfold failSilence
  extract_lets s1 _ s2 s3 halts s4
  have hl : Within _ (soOff s) s1 := linksSilent_within ..
  have hso : ∀ o ∈ s2.safe.so, o.cmd = false := by
    show ∀ o ∈ s1.safe.so, o.cmd = false
    rw [hl.safe_eq]
    exact soOff_off s
  have h1 : Within [.cyc, .grp, .safe, .evr, .out] s s1 := refl.trans (soOff_within s) |>.trans hl
  have h2 : Within [.cyc, .grp, .safe, .evr, .out] s s2 := h1.upd (safe := fun _ => .of_off hso)
  have h4 : Within [.cyc, .glb, .grp, .safe, .rst, .cul, .evr, .out] s s4 :=
    refl.trans h2 |>.trans (.cond (countCanary_within ..) .skip) |>.trans (.cond (enterSafeHalt_within ..) .skip)
  exact .ite refl h4.upd

theorem writeLehr_within (s : State) : Within [.upd, .cul] s (writeLehr s) :=
  refl.upd |>.trans (.cond (writeBoot_within ..) .skip)

theorem moduleReset_within (s : State) : Within [.rst, .cul, .evr] s (moduleReset s) := by
  unfold moduleReset
  split
  · exact refl
  · exact refl.trans (retentionPoint_within ..) |>.upd

theorem forall_mem_replicate {α : Type} {p : α → Prop} {n : Nat} {x : α} (h : p x) : ∀ y ∈ List.replicate n x, p y := by
  intro y hy
  rw [List.eq_of_mem_replicate hy]
  exact h

/-- A boot starts every block but the waiting commands and the outputs anew. -/
theorem bootState_within (s : State) (reason : BitVec 2) :
    Within [.ci, .fab, .cyc, .glb, .pim, .arb, .txe, .eth, .mvb, .can0, .can1, .gw, .tb, .grp, .safe, .tk, .upd, .pgv, .rst, .cul, .evr, .pmu, .pin,
      .clk, .dram, .host, .latches] s (bootState s reason) :=
  refl.upd (dram := fun _ => rfl) (fab := fun _ => ⟨rfl, forall_mem_replicate ⟨rfl, rfl⟩⟩)
    (safe := fun _ => .of_off (by simp [bootState, State.reset]))
    (pim := fun _ => Nat.zero_le _) (evr := fun _ => ⟨Nat.zero_le _, Nat.zero_le _⟩) (txe := fun _ => Nat.zero_le _)

theorem dropFrames_within (s : State) (tags : List (BitVec 18)) : Within [.eth, .can0, .can1, .grp] s (dropFrames s tags) :=
  refl.upd

theorem runtimeTags_within (s : State) : Within [.pim, .arb, .txe, .eth, .can0, .can1, .grp, .evr, .pmu, .dram, .out] s (runtimeTags s) :=
  refl.trans (dropFrames_within ..) |>.trans (.fold (fun _ _ => finishTag_within ..) _ _) |>.upd

theorem unitResetRings_within (s : State) :
    Within [.pim, .arb, .txe, .eth, .can0, .can1, .grp, .evr, .pmu, .dram, .host, .out] s (unitResetRings s) :=
  refl.trans (dropFrames_within ..) |>.trans (.fold (fun _ _ => finishTag_within ..) _ _) |>.upd

theorem runtimeReset_within (s : State) (src : ResetSource) :
    Within [.pim, .arb, .txe, .eth, .can0, .can1, .gw, .grp, .tk, .pgv, .rst, .evr, .pmu, .dram, .host, .latches, .out] s (runtimeReset s src) := by
  unfold runtimeReset
  extract_lets s1 gl
  have h1 : Within [.pim, .arb, .txe, .eth, .can0, .can1, .gw, .grp, .tk, .pgv, .rst, .evr, .pmu, .dram, .host, .latches, .out] s s1 :=
    refl.trans (endSessions_within ..) |>.trans (maintOff_within ..) |>.trans (runtimeTags_within ..)
  exact h1.upd (dram := fun _ => rfl) |>.trans (record_within ..)

theorem runtimeFault_within (s : State) (src : ResetSource) :
    Within [.pim, .arb, .txe, .eth, .can0, .can1, .gw, .grp, .tk, .pgv, .rst, .evr, .pmu, .dram, .host, .latches, .out] s (runtimeFault s src) :=
  refl.trans (runtimeReset_within ..) |>.upd

theorem enterDormant_within (s : State) : Within [.cyc, .glb, .safe, .rst, .evr, .out] s (enterDormant s) := by
  unfold enterDormant
  refine .upd ?_ (t := setState ..)
  refine .trans ?_ (setState_within ..)
  exact refl.upd |>.trans (soOff_within ..)

theorem finishDormant_within (s : State) : Within [.eth, .grp, .safe, .tk, .upd, .rst, .cul, .pin] s (finishDormant s) :=
  refl.trans (retentionPoint_within ..) |>.trans (writeCounters_within ..) |>.trans (writeLehr_within ..) |>.upd

theorem execFlushComplete_goes (s : State) :
    Goes [.eth, .grp, .safe, .tk, .upd, .rst, .cul, .evr, .pmu, .pin, .dram, .out] s (execFlushComplete s) := by
  refine .intro ?_
  split
  · exact refl
  · split
    · exact refl.trans (flushDone_within ..) |>.trans (finishDormant_within ..)
    · exact refl.trans (flushDone_within ..)

/-! ### Machine/RegOps.lean -/

theorem fieldSet_within (s : State) (addr : Nat) (v : Reg32) :
    Within [.cyc, .glb, .arb, .txe, .tb, .upd, .pgv, .rst, .clk] s (fieldSet s addr v) := by
  unfold fieldSet
  split
  · exact refl.upd
  · exact refl.upd |>.trans (pgvView_within ..)
  · exact refl.upd
  · exact refl.upd
  · exact refl.upd
  · exact refl.upd
  · exact refl.upd
  · exact refl.upd
  · exact refl.upd
  · exact refl.upd
  · exact refl.upd
  · exact refl.upd
  · exact refl

theorem fieldPut_within (s : State) (addr : Nat) (mask value : Reg32) :
    Within [.cyc, .glb, .arb, .txe, .tb, .upd, .pgv, .rst, .clk] s (fieldPut s addr mask value) :=
  refl.trans (fieldSet_within ..)

theorem freezeBanks_within (s : State) (v : BitVec 16) : Within [.arb, .evr] s (freezeBanks s v) :=
  refl.upd |>.trans (.cond .skip (record_within ..))

theorem fieldEffect_within (s : State) (h : BitVec 16) (addr : Nat) (mask v : Reg32) :
    Within [.fab, .cyc, .glb, .pim, .arb, .txe, .eth, .mvb, .can0, .can1, .gw, .tb, .grp, .tk, .upd, .pgv, .rst, .cul, .evr, .pmu, .clk, .dram,
      .out] s (fieldEffect s h addr mask v) := by
  unfold fieldEffect
  split
  · split
    · exact refl.trans (maintOn_within ..)
    · exact refl.trans (maintOff_within ..)
  · exact refl.upd |>.trans (.cond (portReset_within ..) .skip) |>.trans (.cond (moduleReset_within ..) .skip)
  · exact refl.upd |>.trans (.cond (fabricReset_within ..) (.cond (tileResetCmd_within ..) .skip))
  · exact refl.trans (freezeBanks_within ..)
  · split
    · exact refl.trans (fieldSet_within ..) |>.trans (cfieldWrite_within ..)
    · split
      · exact refl.trans (modTile_within ..)
      · exact refl

theorem regRecord_within (s : State) (h : BitVec 16) (addr : Nat) (v : Reg32) : Within [.evr] s (regRecord s h addr v) :=
  refl.trans (record_within ..)

theorem regWrite_within (s : State) (h : BitVec 16) (addr : Nat) (mask value : Reg32) :
    Within [.fab, .cyc, .glb, .pim, .arb, .txe, .eth, .mvb, .can0, .can1, .gw, .tb, .grp, .tk, .upd, .pgv, .rst, .cul, .evr, .pmu, .clk, .dram,
      .out] s (regWrite s h addr mask value).1 := by
  unfold regWrite
  dsimp only
  split
  · exact refl
  · split
    · exact refl.trans (regRecord_within ..) |>.trans (fieldEffect_within ..)
    · exact refl

theorem regCall_within (s : State) (c : CallReq) (addr : Nat) (mask value : Reg32) :
    Within [.fab, .cyc, .glb, .pim, .arb, .txe, .eth, .mvb, .can0, .can1, .gw, .tb, .grp, .tk, .upd, .pgv, .rst, .cul, .evr, .pmu, .clk, .dram, .host,
      .latches, .out] s (regCall s c addr mask value) :=
  .trans (callOn_within fun _ => (regWrite_within ..).mono) (.cond (runtimeReset_within ..) .skip)

/-! ### Machine/TxeEvents.lean -/

theorem beginHold_within (s : State) (tag : BitVec 18) (r : TagReq) : Within [.txe] s (beginHold s tag r) := by
  unfold beginHold
  split
  · split
    · split
      · exact refl.trans (modTag_within ..)
      · exact refl
    · exact refl
  · exact refl

theorem submitSig_within (s : State) (q : SubReq) (sid : Sid) (ok : Bool) (r : TagReq) :
    Within [.txe, .evr, .pmu, .dram, .out] s (submitSig s q sid ok r) := by
  unfold submitSig
  dsimp only
  split
  · exact submit_within (fun _ => refl.trans (allocTag_within ..) |>.trans (beginHold_within ..))
  · split
    · exact refl
    · exact refl.trans (refuseWriter_within ..) |>.trans (refuseEntry_within ..)

theorem execSigWrite_goes (q : SubReq) (sid : Sid) (v : Word) (s : State) : Goes [.txe, .evr, .pmu, .dram, .out] s (execSigWrite q sid v s) :=
  .intro (refl.trans (submitSig_within ..))

theorem execSigAtomic_goes (q : SubReq) (sid : Sid) (fn : AtomFn) (operand compare : Word) (s : State) :
    Goes [.txe, .evr, .pmu, .dram, .out] s (execSigAtomic q sid fn operand compare s) :=
  .intro (refl.trans (submitSig_within ..))

theorem execDmaCopy_goes (q : SubReq) (ver : Mcc) (addr : Word) (count : Nat) (s : State) :
    Goes [.txe, .evr, .pmu, .dram, .out] s (execDmaCopy q ver addr count s) := by
  refine .intro ?_
  dsimp only
  split
  · split
    · exact refl.trans (refuseEntry_within ..)
    · split
      · exact refl
      · exact refl.trans (modRing_within ..) |>.trans (noteDeferred_within ..) |>.trans (complete_within ..)
  · exact submit_within (fun _ => refl.trans (allocTag_within ..))

theorem atBanks_within {w : List Part} {s k : State} (hk : Within w s k) {t : TagEnt} {r : SigRec}
    (hw : [.pim, .arb, .txe, .evr, .pmu, .dram, .out] ⊆ w := by decide) : Within w s (atBanks s t r k) := by
  unfold atBanks
  exact .ite hk (.ite ((finishTag_within ..).mono hw) (.ite refl hk))

theorem stageTag_within (s : State) (t : TagEnt) (r : SigRec) (e : StgEnt) :
    Within [.glb, .pim, .arb, .txe, .evr, .pmu, .dram, .out] s (stageTag s t r e) := by
  unfold stageTag
  refine atBanks_within (.ite ?_ (.ite refl ?_))
  · refine .trans (.trans ?_ (noteWait_within ..)) (finishTag_within ..)
    exact .ite (refl.trans (addStaging_within ..)) (refl.trans (acceptWrite_within ..))
  · extract_lets s1
    have h1 : Within [.txe] s s1 := modTag_within ..
    exact (refl.trans h1 |>.trans (pmuCount_within s1 10 0x286 1)).upd (pim := fun h => by simpa using h) |>.trans (noteDeferred_within ..)

theorem refuseTag_within (s : State) (t : TagEnt) (sid : Sid) : Within [.pim, .arb, .txe, .evr, .pmu, .dram, .out] s (refuseTag s t sid) :=
  refl.trans (refuseWriter_within ..) |>.trans (finishTag_within ..)

theorem completeTag_within (s : State) (t : TagEnt) : Within [.glb, .pim, .arb, .txe, .grp, .evr, .pmu, .dram, .out] s (completeTag s t) := by
  have hf : ∀ st tgt sid len split, Within [.glb, .pim, .arb, .txe, .grp, .evr, .pmu, .dram, .out] s (finishTag s t st tgt sid len split) :=
    fun _ _ _ _ _ => (finishTag_within ..).mono
  unfold completeTag
  split
  · split
    · exact hf ..
    · refine .ite (refl.trans (refuseTag_within ..)) ?_
      split
      · exact hf ..
      · exact refl.trans (stageTag_within ..)
  · split
    · exact hf ..
    · refine .ite (refl.trans (refuseTag_within ..)) (.ite (hf ..) ?_)
      split
      · exact atBanks_within (hf ..)
      · exact refl.trans (stageTag_within ..)
  · refine .ite (hf ..) (.ite refl ?_)
    split
    · exact refl.trans (pimMeet_within ..) |>.trans (noteWait_within ..) |>.trans (dramWrite_within ..) |>.trans (finishTag_within ..)
    · exact hf ..
  · exact refl.trans (dramWrite_within ..) |>.trans (finishTag_within ..)
  · exact hf ..
  · exact hf ..
  · exact hf ..
  · exact .ite (refl.trans (takeRx_within ..)) refl
  · exact hf ..
  · exact refl

theorem execTransactionComplete_goes (tag : BitVec 18) (s : State) :
    Goes [.glb, .pim, .arb, .txe, .grp, .evr, .pmu, .dram, .out] s (execTransactionComplete tag s) := by
  refine .intro ?_
  split
  · exact refl
  · split
    · exact refl
    · exact refl.trans (completeTag_within ..)

theorem execTagTimeout_goes (tag : BitVec 18) (s : State) :
    Goes [.pim, .arb, .txe, .can0, .can1, .tb, .cul, .evr, .pmu, .pin, .clk, .dram, .out] s (execTagTimeout tag s) := by
  refine .intro ?_
  split
  · exact refl
  · split
    · exact refl
    · exact refl.trans (passTo_within ..) |>.upd |>.trans (finishTag_within ..)

theorem execRetryReissue_goes (tag : BitVec 18) (s : State) :
    Goes [.pim, .arb, .txe, .mvb, .can0, .can1, .gw, .grp, .evr, .pmu, .dram, .out] s (execRetryReissue tag s) := by
  refine .intro ?_
  split
  · exact refl
  · split
    · exact refl
    · dsimp only
      split
      · exact refl.trans (modTag_within ..) |>.trans (issueGl_within ..)
      · exact refl.trans (modTag_within ..) |>.trans (issueGl_within ..)
      · exact refl.trans (modTag_within ..) |>.trans (issueBus_within ..)
      · exact refl.trans (modTag_within ..) |>.trans (issueBus_within ..)
      · exact refl.trans (modTag_within ..) |>.trans (issueBus_within ..)
      · exact refl.trans (modTag_within ..) |>.trans (issueBus_within ..)
      · exact refl

theorem execPostedWriteFailure_goes (tag : BitVec 18) (st : Status) (s : State) :
    Goes [.pim, .arb, .txe, .evr, .pmu, .dram, .out] s (execPostedWriteFailure tag st s) := by
  refine .intro ?_
  split
  · exact refl
  · split
    · exact refl.trans (finishTag_within ..)
    · exact refl

theorem execReceiveBufferDequeue_goes (p : Port) (s : State) :
    Goes [.glb, .pim, .arb, .txe, .grp, .evr, .pmu, .out] s (execReceiveBufferDequeue p s) := by
  refine .intro ?_
  split
  · exact refl
  · split
    · exact refl.upd |>.trans (deliverRx_within ..)
    · exact refl

theorem execStagingEntryFree_goes (s : State) : Goes [.glb, .pim, .arb, .txe, .grp, .evr, .pmu, .dram, .out] s (execStagingEntryFree s) := by
  refine .intro ?_
  split
  · exact refl.trans (takeRx_within ..)
  · split
    · exact refl.trans (completeTag_within ..)
    · exact refl

theorem execHoldCutoff_goes (bank : Fin 16) (tag : BitVec 18) (s : State) :
    Goes [.pim, .arb, .txe, .evr, .pmu, .dram, .out] s (execHoldCutoff bank tag s) := by
  refine .intro ?_
  split
  · exact refl
  · split
    · exact refl.trans (pmuCount_within ..) |>.trans (finishTag_within ..) |>.upd |>.trans (record_within ..)
    · exact refl

theorem arriveAll_within (s : State) : Within [.glb, .pim, .arb, .txe, .grp, .evr, .pmu, .dram, .out] s (arriveAll s) :=
  refl.trans (.fold (fun _ _ => (by split; exacts [.mono (.cond (takeRx_within ..) .skip), .mono .skip] :
    Within [.glb, .pim, .arb, .txe, .grp, .evr, .pmu, .dram, .out] _ _)) _ _)

theorem execQuarantineEnd_goes (bank : Fin 16) (s : State) :
    Goes [.glb, .pim, .arb, .txe, .grp, .evr, .pmu, .dram, .out] s (execQuarantineEnd bank s) :=
  .intro (refl.upd |>.trans (arriveAll_within ..))

/-! ### Machine/EthEvents.lean -/

theorem countTwin_within (s : State) (b : Bool) (f : TxFrame) : Within [.eth] s (countTwin s b f) := by
  unfold countTwin
  split
  · exact refl
  · exact refl.trans (modEth_within ..)

theorem noteOut_within (s : State) (b : Bool) (f : TxFrame) : Within [.txe, .eth, .tb, .pmu, .out] s (noteOut s b f) := by
  unfold noteOut
  split
  · exact refl.trans (modPtp_within ..)
  · exact refl.trans (modPtp_within ..)
  · split
    · exact refl
    · exact refl.trans (pmuCount_within ..) |>.trans (modPub_within ..) |>.trans (countTwin_within ..)
  · split
    · exact refl.trans (modTag_within ..)
    · exact refl
  · exact refl

theorem execFrameTransmit_goes (p : Fin 3) (s : State) : Goes [.txe, .eth, .tb, .pmu, .out] s (execFrameTransmit p s) := by
  refine .intro ?_
  split
  · exact refl
  · exact refl.trans (modEth_within ..) |>.trans (noteOut_within ..) |>.upd

theorem execGateEntry_goes (p : Fin 3) (s : State) : Goes [.eth, .tb, .cul, .pmu, .pin, .clk, .out] s (execGateEntry p s) := by
  refine .intro ?_
  dsimp only
  split
  · exact refl.trans (passTo_within ..) |>.trans (modEth_within ..)
  · exact refl

theorem execLinkUp_goes (p : Fin 3) (speed : BitVec 2) (s : State) : Goes [.eth, .tb, .evr, .clk] s (execLinkUp p speed s) := by
  refine .intro ?_
  extract_lets x m fits s1 s2
  have h1 : Within [.eth, .tb, .evr, .clk] s s1 := refl.trans (modEth_within ..) |>.trans (rxClk_within ..)
  have h2 : Within [.eth, .tb, .evr, .clk] s s2 := h1.trans (modPtp_within ..)
  exact .ite refl (.ite h1 (.ite (h2.trans (sendArp_within ..)) h2))

theorem ethDown_within (s : State) (p : EthNo) : Within [.glb, .pim, .arb, .txe, .eth, .tb, .grp, .evr, .pmu, .clk, .dram, .out] s (ethDown s p) := by
  unfold ethDown
  split
  · exact refl
  · exact refl.trans (modEth_within ..) |>.trans (rxClk_within ..) |>.trans (record_within ..)
      |>.trans (.cond .skip (.seq (.seq (.seq (modPtp_within ..) (ptpRestart_within ..)) (releasePlane_within ..))
      (.cond .skip (record_within ..))))

theorem execLinkDown_goes (p : Fin 3) (s : State) :
    Goes [.glb, .pim, .arb, .txe, .eth, .tb, .grp, .evr, .pmu, .clk, .dram, .out] s (execLinkDown p s) :=
  .intro (refl.trans (ethDown_within ..))

theorem filtered_within (s : State) (i : EthNo) : Within [.eth] s (filtered s i) :=
  refl.trans (modEth_within ..)

theorem hostReceive_within (s : State) (i : EthNo) (pcp : Nat) (raw : List Byte) : Within [.eth, .pmu, .dram, .out] s (hostReceive s i pcp raw) := by
  unfold hostReceive
  dsimp only
  split
  · exact refl
  · exact refl.trans (dramWrite_within ..) |>.trans (dramWrite_within ..) |>.trans (modEth_within ..)

theorem toChain_within (s : State) (f : EthFrame) : Within [.out] s (toChain s f) :=
  refl.upd

theorem prpStage_within (s : State) (i : EthNo) (f : EthFrame) : Within [.eth, .evr, .pmu, .out] s (prpStage s i f).1 := by
  unfold prpStage
  split
  · exact refl
  · extract_lets _ s1 put _ s2
    have h1 : Within [.eth, .evr, .pmu, .out] s s1 := .ite refl refl.upd
    split
    · exact h1
    · split
      · split
        · exact (h1.trans (pmuCount_within s1 9 0x244 1)).upd
        · exact h1.upd
      · split
        · exact h1.upd
        · exact .ite (h1.upd.trans (suppress_within ..)) (h1.upd.trans (record_within ..))

theorem ptpDiscard_within (s : State) : Within [.tb] s (ptpDiscard s) :=
  refl.upd

theorem ptpReceive_within (s : State) (b : Bool) (m : PtpMsg) (domain : Byte) (l2 : Bool) :
    Within [.glb, .txe, .eth, .tb, .grp, .safe, .rst, .evr, .pmu, .out] s (ptpReceive s b m domain l2) := by
  unfold ptpReceive
  dsimp only
  split
  · exact refl
  · split
    · exact refl.trans (ptpDiscard_within ..)
    · split
      · exact refl.trans (takeAnnounce_within ..)
      · exact refl.trans (takeSync_within ..)
      · split
        · exact refl.trans (ptpDiscard_within ..)
        · split
          · exact refl.trans (takeDelay_within ..)
          · exact refl
      · split
        · exact refl.trans (ptpDiscard_within ..)
        · split
          · exact refl.trans (takePeerDelay_within ..)
          · exact refl
      · split
        · exact refl.trans (sendPtp_within ..)
        · exact refl
      · split
        · exact refl.trans (sendPtp_within ..)
        · exact refl.trans (ptpDiscard_within ..)
      · exact refl.trans (ptpDiscard_within ..)

theorem arpReceive_within (s : State) (i : EthNo) (f : EthFrame) : Within [.eth, .evr] s (arpReceive s i f) := by
  unfold arpReceive
  dsimp only
  split
  · split
    · exact refl.trans (filtered_within ..)
    · exact refl.trans (learnArp_within ..) |>.trans (.cond (sendArp_within ..) .skip)
  · split
    · exact refl.trans (learnArp_within ..)
    · exact refl.trans (filtered_within ..)
  · exact refl

theorem planeStages_within (s : State) (i : EthNo) (f : EthFrame) (raw : List Byte) :
    Within [.glb, .pim, .arb, .txe, .eth, .tb, .grp, .safe, .rst, .evr, .pmu, .dram, .out] s (planeStages s i f raw) := by
  unfold planeStages
  extract_lets b
  split
  · exact refl.trans (ptpReceive_within ..)
  · exact refl.trans (arpReceive_within ..)
  · exact refl.trans (arpReceive_within ..)
  · exact refl.upd
  · exact refl.trans (filtered_within ..)
  · refine .ite (refl.trans (filtered_within ..)) ?_
    split
    · split
      · exact .ite (refl.trans (pullReply_within ..)) (refl.trans (filtered_within ..))
      · exact refl.trans (filtered_within ..)
    · exact refl.trans (pdTake_within ..)
    · exact refl.trans (pdTake_within ..)
    · exact refl.trans (filtered_within ..)
  · next h data _ off _ =>
    refine .ite (refl.trans (filtered_within ..)) (.ite (refl.trans (toChain_within ..)) (.ite refl ?_))
    have hr := mdReasm_within s f.srcIp h data off
    split
    · next e =>
      rw [e] at hr
      exact refl.trans hr |>.trans (mdDeliver_within ..)
    · next e =>
      rw [e] at hr
      exact refl.trans hr
  · exact .ite (refl.trans (hostReceive_within ..)) (refl.trans (filtered_within ..))

theorem seeActive_within (s : State) (i : EthNo) (f : EthFrame) : Within [.grp] s (seeActive s i f) := by
  unfold seeActive
  split
  · exact refl.upd
  · exact refl

theorem execFrameReceive_goes (p : Fin 3) (f : EthFrame) (raw : List Byte) (fcsOk : Bool) (s : State) :
    Goes [.glb, .pim, .arb, .txe, .eth, .tb, .grp, .safe, .rst, .evr, .pmu, .dram, .out] s (execFrameReceive p f raw fcsOk s) := by
  refine .intro ?_
  extract_lets x s1 s2
  have h1 : Within [.eth] s s1 := modEth_within ..
  have h2 : Within [.glb, .pim, .arb, .txe, .eth, .tb, .grp, .safe, .rst, .evr, .pmu, .dram, .out] s s2 := refl.trans h1 |>.trans (seeActive_within ..)
  refine .ite refl (.ite (refl.trans (modEth_within ..)) (.ite ?_ ?_))
  · split
    · exact .ite (refl.trans h1 |>.trans (toChain_within ..)) (refl.trans h1 |>.trans (hostReceive_within ..))
    · exact refl.trans h1 |>.trans (filtered_within ..)
    · exact refl.trans h1 |>.trans (hostReceive_within ..)
  · have hf : Within [.glb, .pim, .arb, .txe, .eth, .tb, .grp, .safe, .rst, .evr, .pmu, .dram, .out] s (filtered s p) := (filtered_within ..).mono
    have hp : Within [.glb, .pim, .arb, .txe, .eth, .tb, .grp, .safe, .rst, .evr, .pmu, .dram, .out] s (match prpStage s2 p f with
        | (s2, true) => planeStages s2 p f raw
        | (s2, false) => s2) := by
      have hr := prpStage_within s2 p f
      split
      · next e =>
        rw [e] at hr
        exact h2.trans hr |>.trans (planeStages_within ..)
      · next e =>
        rw [e] at hr
        exact h2.trans hr
    split <;> exact .ite hf hp

theorem execSdtSkewTimeout_goes (sub : Nat) (s : State) :
    Goes [.glb, .pim, .arb, .txe, .eth, .tb, .grp, .cul, .evr, .pmu, .pin, .clk, .dram, .out] s (execSdtSkewTimeout sub s) := by
  refine .intro ?_
  split
  · exact refl.trans (passTo_within ..) |>.trans (sdtRelease_within ..)
  · exact refl

theorem execPrpSupervision_goes (s : State) : Goes [.eth, .tb, .cul, .evr, .pmu, .pin, .clk, .out] s (execPrpSupervision s) := by
  refine .intro ?_
  obtain ⟨u, hu⟩ : ∃ u, passTo s (s.eth.supAt + 2000000000) = u := ⟨_, rfl⟩
  rw [hu]
  have h0 : Within [.tb, .cul, .pmu, .pin, .clk, .out] s u := hu ▸ passTo_within ..
  exact .ite (refl.trans h0 |>.upd |>.trans (sendPlanes_within ..)) (refl.trans h0 |>.upd)

theorem execPrpEntryAge_goes (mac : Mac) (s : State) : Goes [.eth, .tb, .cul, .pmu, .pin, .clk, .out] s (execPrpEntryAge mac s) := by
  refine .intro ?_
  split
  · exact refl
  · exact setEth (refl.trans (passTo_within ..)) _

theorem execPdCounterForget_goes (sub : Nat) (src : Ip4) (s : State) :
    Goes [.eth, .tb, .cul, .pmu, .pin, .clk, .out] s (execPdCounterForget sub src s) := by
  refine .intro ?_
  split
  · exact refl
  · exact refl.trans (passTo_within ..) |>.trans (modSub_within ..)

theorem execArpRefresh_goes (s : State) : Goes [.eth, .tb, .cul, .evr, .pmu, .pin, .clk, .out] s (execArpRefresh s) := by
  refine .intro ?_
  obtain ⟨u, hu⟩ : ∃ u, passTo s (s.eth.arpAt + 60000000000) = u := ⟨_, rfl⟩
  rw [hu]
  have h0 : Within [.tb, .cul, .pmu, .pin, .clk, .out] s u := hu ▸ passTo_within ..
  exact refl.trans h0 |>.upd |>.trans (.fold (fun _ _ => askArp_within ..) _ _)

theorem execMdReassemblyTimeout_goes (src : Ip4) (m : BitVec 128) (s : State) :
    Goes [.eth, .tb, .cul, .pmu, .pin, .clk, .out] s (execMdReassemblyTimeout src m s) := by
  refine .intro ?_
  split
  · exact refl
  · exact setEth (refl.trans (passTo_within ..)) _

theorem execHostFrameSubmit_goes (p : Fin 3) (addr : Word) (len pcp : Nat) (s : State) :
    Goes [.eth, .evr, .pmu, .dram, .out] s (execHostFrameSubmit p addr len pcp s) := by
  refine .intro ?_
  dsimp only
  split
  · exact refl
  · exact refl.trans (modEth_within ..) |>.trans (.cond (.seq (modEth_within ..) (dramWrite_within ..))
      (.cond (dramWrite_within ..) (.seq (enqueue_within ..) (dramWrite_within ..))))

theorem mdSubmit_within {w : List Part} {run : State → BitVec 18 → State} (hr : ∀ u t, Within w u (run u t))
    {s : State} {q : SubReq} {ses : Nat}
    {addr : Word} {len : Nat} {recv : Bool} {r : TagReq} (hw : [.txe, .evr, .pmu, .dram, .out] ⊆ w := by decide) :
    Within w s (mdSubmit s q ses addr len recv r run) := by
  have hn : ∀ st, Within w s (submitRefused s 0 q.req TUnit.ethA.num st) := fun st =>
    (submitRefused_within ..).mono (List.Subset.trans (by decide) hw)
  unfold mdSubmit
  split
  · exact hn _
  · refine .ite (hn _) (.ite (hn _) (.ite (hn _) (submit_within (fun s => ?_) hw)))
    refine .trans (.mono (a := [.txe, .evr, .pmu, .dram, .out]) ?_ hw) (hr _ _) (List.Subset.refl w)
    exact refl.trans (allocTag_within ..) |>.trans (modTag_within ..)

theorem mdFromBuf_within (s : State) (t : TrdpType) (comId : Nat) (id : BitVec 128) (dst : Ip4) (addr : Word) (len : Nat) (tag : BitVec 18) :
    Within [.eth, .evr, .pmu, .out] s (mdFromBuf s t comId id dst addr len tag) :=
  refl.trans (mdSendMsg_within ..)

theorem execMdReceive_goes (q : SubReq) (ses : Nat) (addr : Word) (len : Nat) (s : State) :
    Goes [.txe, .eth, .evr, .pmu, .dram, .out] s (execMdReceive q ses addr len s) := by
  refine .intro ?_
  exact mdSubmit_within (fun _ _ => refl.upd)

theorem execMdNotify_goes (q : SubReq) (ses : Nat) (addr : Word) (len : Nat) (dst : Ip4) (s : State) :
    Goes [.txe, .eth, .evr, .pmu, .dram, .out] s (execMdNotify q ses addr len dst s) := by
  refine .intro ?_
  exact mdSubmit_within (fun _ _ => refl.trans (mdFromBuf_within ..))

theorem execMdRequest_goes (q : SubReq) (ses : Nat) (addr : Word) (len : Nat) (dst : Ip4) (expected : Nat) (s : State) :
    Goes [.txe, .eth, .evr, .pmu, .dram, .out] s (execMdRequest q ses addr len dst expected s) := by
  refine .intro ?_
  exact mdSubmit_within (fun _ _ => refl.trans (mdFromBuf_within ..))

theorem mdAnswer_within (s : State) (q : SubReq) (ses : Nat) (addr : Word) (len : Nat) (token : Reg32) (ty : TrdpType) :
    Within [.txe, .eth, .evr, .pmu, .dram, .out] s (mdAnswer s q ses addr len token ty) := by
  unfold mdAnswer
  split
  · exact refl.trans (submitRefused_within ..)
  · exact mdSubmit_within (fun _ _ => refl.upd |>.trans (mdFromBuf_within ..))

theorem execMdReply_goes (q : SubReq) (ses : Nat) (addr : Word) (len : Nat) (token : Reg32) (s : State) :
    Goes [.txe, .eth, .evr, .pmu, .dram, .out] s (execMdReply q ses addr len token s) :=
  .intro (refl.trans (mdAnswer_within ..))

theorem execMdReplyConfirm_goes (q : SubReq) (ses : Nat) (addr : Word) (len : Nat) (token : Reg32) (s : State) :
    Goes [.txe, .eth, .evr, .pmu, .dram, .out] s (execMdReplyConfirm q ses addr len token s) :=
  .intro (refl.trans (mdAnswer_within ..))

theorem execMdConfirm_goes (q : SubReq) (ses : Nat) (addr : Word) (len : Nat) (token : Reg32) (s : State) :
    Goes [.txe, .eth, .evr, .pmu, .dram, .out] s (execMdConfirm q ses addr len token s) :=
  .intro (refl.trans (mdAnswer_within ..))

/-! ### Machine/SupplyEvents.lean -/

theorem bootRom_within (s : State) : Within [.upd, .cul, .evr] s (bootRom s) :=
  refl.trans (storeRebuild_within ..) |>.upd |>.trans (writeCounters_within ..) |>.trans (.cond (.seq (writeBoot_within ..) (record_within ..)) .skip)

theorem execPowerUpThreshold_goes (s : State) : Goes [.pin] s (execPowerUpThreshold s) :=
  .intro (refl.upd)

theorem execPowerGood_goes (canaryOk : Bool) (s : State) :
    Goes [.ci, .fab, .cyc, .glb, .pim, .arb, .txe, .eth, .mvb, .can0, .can1, .gw, .tb, .grp, .safe, .tk, .upd, .pgv, .rst, .cul, .evr, .pmu,
      .pin, .clk, .dram, .host, .latches, .out] s (execPowerGood canaryOk s) := by
  refine .intro ?_
  split
  · exact refl
  · split
    · exact refl.upd
    · exact refl.trans (bootState_within ..) |>.upd |>.trans (bootRom_within ..)

theorem execLedTestPhaseEnd_goes (s : State) : Goes [.pin] s (execLedTestPhaseEnd s) := by
  refine .intro ?_
  split
  · exact refl
  · exact refl.upd

theorem powerFail_within (s : State) (overVoltage : Bool) (since : Word) : Within [.upd, .rst, .cul, .evr, .pin] s (powerFail s overVoltage since) :=
  refl.trans (retentionPoint_within ..) |>.trans (writeCounters_within ..) |>.trans (writeLehr_within ..) |>.upd

theorem execPowerFailWarning_goes (s : State) : Goes [.upd, .rst, .cul, .evr, .pin] s (execPowerFailWarning s) := by
  refine .intro ?_
  split
  · exact refl.trans (powerFail_within ..)
  · exact refl.upd

theorem execOverVoltageLockout_goes (s : State) : Goes [.upd, .rst, .cul, .evr, .pin] s (execOverVoltageLockout s) := by
  refine .intro ?_
  split
  · exact refl.trans (powerFail_within ..)
  · exact refl

theorem execWarningClear_goes (s : State) : Goes [.cul, .evr, .pin] s (execWarningClear s) := by
  refine .intro ?_
  split
  · exact refl
  · exact refl.upd |>.trans (writeCounters_within ..) |>.trans (record_within ..)

theorem execHoldUpCutoff_goes (s : State) : Goes [.cyc, .glb, .grp, .safe, .tk, .rst, .cul, .evr, .pin, .out] s (execHoldUpCutoff s) := by
  refine .intro ?_
  split
  · exact refl.trans (failSilence_within ..) |>.upd
  · exact refl

theorem execOvervoltageSustained_goes (s : State) : Goes [.evr] s (execOvervoltageSustained s) := by
  refine .intro ?_
  split
  · exact refl.trans (record_within ..)
  · exact refl

theorem execWakeAccept_goes (s : State) : Goes [.pin] s (execWakeAccept s) := by
  refine .intro ?_
  split
  · exact refl.upd
  · exact refl

theorem execWakeExpiry_goes (s : State) : Goes [.pin] s (execWakeExpiry s) := by
  refine .intro ?_
  split
  · exact refl
  · exact refl.upd

theorem execVstbyBelowMinimum_goes (s : State) : Goes [.pin] s (execVstbyBelowMinimum s) :=
  .intro (refl.upd)

theorem execVstbyReturn_goes (s : State) : Goes [.pin] s (execVstbyReturn s) :=
  .intro (refl.upd)

theorem execRstN_goes (s : State) : Goes [.rst, .cul, .evr, .pin] s (execRstN s) :=
  .intro (refl.upd |>.trans (moduleReset_within ..))

theorem execRstNRelease_goes (s : State) : Goes [.pin] s (execRstNRelease s) :=
  .intro (refl.upd)

theorem execModuleResetTakeEffect_goes (s : State) :
    Goes [.ci, .fab, .cyc, .glb, .pim, .arb, .txe, .eth, .mvb, .can0, .can1, .gw, .tb, .grp, .safe, .tk, .upd, .pgv, .rst, .cul, .evr, .pmu,
      .pin, .clk, .dram, .host, .latches, .out] s (execModuleResetTakeEffect s) := by
  refine .intro ?_
  split
  · exact refl.trans (writeCounters_within ..) |>.trans (bootState_within ..) |>.upd |>.trans (bootRom_within ..)
  · exact refl

theorem execCanaryReset_goes (s : State) :
    Goes [.ci, .fab, .cyc, .glb, .pim, .arb, .txe, .eth, .mvb, .can0, .can1, .gw, .tb, .grp, .safe, .tk, .upd, .pgv, .rst, .cul, .evr, .pmu, .pin,
      .clk, .dram, .host, .latches, .out] s (execCanaryReset s) := by
  refine .intro ?_
  obtain ⟨u, hu⟩ : ∃ u, passTo s (s.safe.silentAt + 1000000000) = u := ⟨_, rfl⟩
  rw [hu]
  have h0 : Within [.tb, .cul, .pmu, .pin, .clk, .out] s u := hu ▸ passTo_within ..
  have hr : Within [.tk, .rst, .cul, .evr, .pmu, .dram, .out] u (if u.safe.canaryCounted then retentionPoint
    (if u.evr.flushing then flushDone u else u) else u) :=
    .ite (.trans (t := if u.evr.flushing then flushDone u else u) (.ite (.mono (flushDone_within u)) refl) (retentionPoint_within ..)) refl
  refine .ite ?_ refl
  extract_lets _ s1
  have h1 : Within [.ci, .fab, .cyc, .glb, .pim, .arb, .txe, .eth, .mvb, .can0, .can1, .gw, .tb, .grp, .safe, .tk, .upd, .pgv, .rst, .cul, .evr, .pmu,
      .pin, .clk, .dram, .host, .latches, .out] s s1 :=
    refl.trans h0 |>.trans hr |>.trans (bootState_within _ 2)
  exact h1.upd.trans (bootRom_within ..)

theorem execThermalLimit_goes (s : State) : Goes [.cyc, .glb, .grp, .safe, .rst, .cul, .evr, .out] s (execThermalLimit s) := by
  refine .intro ?_
  split
  · exact refl
  · exact refl.trans (record_within ..) |>.trans (failSilence_within ..)

theorem execThermalDerate_goes (t : BitVec 8) (s : State) : Goes [.pgv, .evr, .clk] s (execThermalDerate t s) :=
  .intro (refl.upd |>.trans (.cond (setStep_within ..) .skip) |>.trans (.cond .skip (.seq (pgvView_within ..) (record_within ..))))

theorem clockNote_within (s : State) (i : Nat) : Within [.clk] s (clockNote s i) :=
  refl.upd

theorem clockRec_within (s : State) (sev : Sev) (i : Nat) : Within [.evr, .clk] s (clockRec s sev i) := by
  unfold clockRec
  dsimp only
  split
  · exact refl
  · exact refl.trans (clockNote_within ..) |>.trans (record_within ..)

theorem clusterFault_within (s : State) (i : Nat) :
    Within [.pim, .arb, .txe, .eth, .can0, .can1, .gw, .grp, .tk, .pgv, .rst, .evr, .pmu, .clk, .dram, .host, .latches, .out] s (clusterFault s i) :=
  refl.trans (clockRec_within ..) |>.trans (unitResetRings_within ..) |>.upd |>.trans (runtimeFault_within ..)

theorem clockReact_within (s : State) (i : Nat) :
    Within [.cyc, .glb, .pim, .arb, .txe, .eth, .mvb, .can0, .can1, .gw, .tb, .grp, .safe, .tk, .pgv, .rst, .cul, .evr, .pmu, .clk, .dram, .host,
      .latches, .out] s (clockReact s i) := by
  unfold clockReact
  split
  · exact refl.trans (clockRec_within ..) |>.trans (failSilence_within ..)
  · exact refl.trans (.cond .skip (clockNote_within ..)) |>.trans (failSilence_within ..)
  · exact refl.trans (clockRec_within ..) |>.trans (failSilence_within ..)
  · exact refl.trans (clockRec_within ..) |>.trans (failSilence_within ..)
  · exact refl.trans (clockRec_within ..) |>.trans (failSilence_within ..)
  · exact refl.trans (clusterFault_within ..)
  · exact refl.trans (clusterFault_within ..)
  · exact refl.trans (clockRec_within ..) |>.trans (portReset_within ..)
  · exact refl.trans (clockRec_within ..) |>.trans (portReset_within ..)
  · exact refl.trans (clockRec_within ..) |>.trans (portReset_within ..)
  · exact refl.trans (clockRec_within ..) |>.trans (portReset_within ..)
  · exact refl.trans (clockRec_within ..) |>.trans (portReset_within ..)
  · exact refl.trans (clockRec_within ..) |>.trans (portReset_within ..)
  · exact refl.trans (clockRec_within ..) |>.trans (portReset_within ..) |>.trans (portReset_within ..)
  · exact refl.trans (clockRec_within ..) |>.trans (ethDown_within ..)
  · exact refl.trans (clockRec_within ..) |>.trans (ethDown_within ..)
  · exact refl.trans (clockRec_within ..) |>.trans (ethDown_within ..)
  · split
    · exact refl.trans (clockRec_within ..) |>.trans (linkDown_within ..)
    · exact refl.trans (clockRec_within ..)
  · split
    · exact refl.trans (clockRec_within ..) |>.trans (linkDown_within ..)
    · exact refl.trans (clockRec_within ..)

theorem execClockFault_goes (i : Fin 19) (s : State) :
    Goes [.cyc, .glb, .pim, .arb, .txe, .eth, .mvb, .can0, .can1, .gw, .tb, .grp, .safe, .tk, .pgv, .rst, .cul, .evr, .pmu, .clk, .dram, .host,
      .latches, .out] s (execClockFault i s) := by
  refine .intro ?_
  split
  · exact refl
  · exact refl.upd |>.trans (clockReact_within ..)

theorem measureUnit_within (s : State) (u m : Nat) : Within [.pgv, .evr] s (measureUnit s u m) :=
  refl.upd |>.trans (.cond (record_within ..) .skip)

theorem noteStreams_within (s : State) : Within [.pgv] s (noteStreams s) :=
  refl.upd |>.trans (.cond .skip (.seq (.set [.pgv]) (freshUnit_within ..)))

theorem pauseDma_within (s : State) : Within [.txe, .pgv, .pmu, .dram, .out] s (pauseDma s) := by
  unfold pauseDma
  extract_lets _ s1
  have h1 : Within [.txe, .pgv, .pmu, .dram, .out] s s1 := refl.upd
  split
  · split
    · exact .ite h1 (h1.trans (complete_within ..))
    · exact h1
  · exact h1

theorem shedStep_within (s : State) :
    Within [.cyc, .glb, .pim, .arb, .txe, .eth, .mvb, .can0, .can1, .gw, .tb, .grp, .tk, .pgv, .rst, .evr, .pmu, .clk, .dram,
      .out] s (shedStep s) := by
  unfold shedStep
  split
  · exact refl.upd |>.trans (setStep_within ..)
  · split
    · exact refl.upd |>.trans (freshUnit_within ..) |>.trans (freshUnit_within ..)
    · split
      · exact refl.trans (pauseDma_within ..)
      · split
        · exact refl.upd |>.trans (portReset_within ..) |>.trans (freshUnit_within ..) |>.trans (record_within ..)
        · exact refl

theorem restore_within (s : State) (x0 : Restore) : Within [.pgv, .rst, .evr, .clk] s (restore s x0) := by
  unfold restore
  split
  · exact refl.upd |>.trans (powerPort_within ..)
  · exact refl.upd
  · exact refl.upd |>.trans (freshUnit_within ..) |>.trans (freshUnit_within ..)
  · exact refl.upd |>.trans (setStep_within ..)

theorem govern_within (s : State) :
    Within [.cyc, .glb, .pim, .arb, .txe, .eth, .mvb, .can0, .can1, .gw, .tb, .grp, .tk, .pgv, .rst, .evr, .pmu, .clk, .dram, .out] s (govern s) := by
  unfold govern
  split
  · exact refl.upd |>.trans (shedStep_within ..)
  · split
    · exact refl.upd
    · split
      · exact refl.upd
      · split
        · exact refl.upd |>.trans (restore_within ..)
        · exact refl.upd

theorem powerWindow_within (s : State) (input mv ma : Nat) (units : List Nat) :
    Within [.cyc, .glb, .pim, .arb, .txe, .eth, .mvb, .can0, .can1, .gw, .tb, .grp, .tk, .pgv, .rst, .evr, .pmu, .clk, .dram,
      .out] s (powerWindow s input mv ma units) :=
  refl.upd |>.trans (noteStreams_within ..) |>.trans (.fold (fun _ _ => measureUnit_within ..) _ _) |>.trans (govern_within ..)
    |>.trans (pgvView_within ..)

theorem kick_within (s : State) : Within [.rst] s (kick s) := by
  unfold kick
  split
  · exact refl.upd
  · exact refl

theorem execWatchdogKick_goes (s : State) : Goes [.rst, .host] s (execWatchdogKick s) := by
  refine .intro ?_
  exact coreStall_within (fun _ => refl.trans (kick_within ..))

theorem execWatchdogExpiry_goes (s : State) :
    Goes [.pim, .arb, .txe, .eth, .can0, .can1, .gw, .tb, .grp, .tk, .pgv, .rst, .cul, .evr, .pmu, .pin, .clk, .dram, .host, .latches,
      .out] s (execWatchdogExpiry s) := by
  refine .intro ?_
  split
  · exact refl.trans (passTo_within ..) |>.trans (record_within ..) |>.trans (runtimeFault_within ..)
  · exact refl

theorem execRetentionPoint_goes (s : State) : Goes [.rst, .cul] s (execRetentionPoint s) := by
  refine .intro ?_
  split
  · exact refl.trans (retentionPoint_within ..)
  · exact refl

theorem execCountersRecordWrite_goes (s : State) : Goes [.grp, .cul] s (execCountersRecordWrite s) := by
  refine .intro ?_
  split
  · exact refl.upd |>.trans (writeCounters_within ..)
  · exact refl

/-! ### Machine/UpdOps.lean -/

theorem modUpdSlot_within (s : State) (t : ImgType) (b : Bool) (f : UpdSlot → UpdSlot) : Within [.upd] s (modUpdSlot s t b f) :=
  refl.upd

theorem modOther_within (s : State) (t : ImgType) (f : UpdSlot → UpdSlot) : Within [.upd] s (modOther s t f) :=
  refl.trans (modUpdSlot_within ..)

theorem setSession_within (s : State) (t : ImgType) (x : Option UpdSession) : Within [.upd] s (setSession s t x) :=
  refl.upd

theorem setHave_within (s : State) (t : ImgType) (x : UpdSession) : Within [.upd] s (setHave s t x) :=
  refl.upd

theorem updAnswer_within (s : State) (st : Status) : Within [.upd] s (updAnswer s st) :=
  refl.upd

theorem endUpdSession_within (s : State) (t : ImgType) (st : SlotSt) (sev : Sev) : Within [.upd, .evr] s (endUpdSession s t st sev) :=
  refl.trans (setSession_within ..) |>.trans (modOther_within ..) |>.trans (record_within ..)

theorem endIfRevoked_within (s : State) (t : ImgType) : Within [.upd, .evr] s (endIfRevoked s t) := by
  unfold endIfRevoked
  split
  · exact refl.trans (endUpdSession_within ..)
  · exact refl

theorem newStore_within (s : State) (k : KeyStore) : Within [.eth, .tk, .upd, .pgv, .cul, .evr] s (newStore s k) :=
  refl.trans (takeStore_within ..) |>.trans (.fold (fun _ _ => endIfRevoked_within ..) _ _)

theorem bootEntWrite_within (s : State) (t : ImgType) (f : BootEnt → BootEnt) : Within [.upd, .cul] s (bootEntWrite s t f) :=
  refl.upd |>.trans (writeBoot_within ..)

theorem activationWrite_within (s : State) (t : ImgType) (token : Word) :
    Within [.eth, .tk, .upd, .pgv, .cul, .evr] s (activationWrite s t token) := by
  unfold activationWrite
  refine .trans ?_ (record_within ..)
  refine .trans ?_ (by split; exacts [.mono (.cond (newStore_within ..) .skip), .mono .skip] : Within [.eth, .tk, .upd, .pgv, .cul, .evr] _ _)
  refine .trans ?_ (setSession_within ..)
  exact refl.trans (bootEntWrite_within ..) |>.trans (modUpdSlot_within ..) |>.trans (modUpdSlot_within ..) |>.upd

theorem confirmWrite_within (s : State) (t : ImgType) (token : Word) : Within [.upd, .cul, .evr] s (confirmWrite s t token) :=
  refl.trans (bootEntWrite_within ..) |>.trans (modOther_within ..) |>.trans (record_within ..)

theorem revertWrite_within (s : State) (t : ImgType) (token : Word) : Within [.upd, .cul, .evr] s (revertWrite s t token) :=
  refl.trans (bootEntWrite_within ..) |>.trans (modUpdSlot_within ..) |>.trans (modUpdSlot_within ..) |>.trans (record_within ..)

theorem chainReply_within (s : State) (src : ChainSrc) (m : ChainMsg) : Within [.out] s (chainReply s src m) := by
  unfold chainReply
  split
  · exact refl.upd
  · exact refl

theorem toNeighbours_within (s : State) (m : ChainMsg) : Within [.out] s (toNeighbours s m) := by
  unfold toNeighbours
  split
  · exact refl.trans (.fold (fun _ _ => (by split; exacts [.mono (.set [.out])] : Within [.out] _ _)) _ _)
  · exact refl

theorem forwardBlock_within (s : State) (m : Manifest) (blk : Nat) (data : List Byte) (kept : Bool) :
    Within [.upd, .out] s (forwardBlock s m blk data kept) := by
  unfold forwardBlock
  split
  · exact refl
  · exact refl.trans (.fold (fun _ _ => toNeighbours_within ..) _ _) |>.upd |>.trans (.cond (toNeighbours_within ..) .skip)

theorem manifestRecord_within (s : State) (m : Manifest) (st : Status) : Within [.upd, .evr] s (manifestRecord s m st) := by
  unfold manifestRecord
  split
  · exact refl
  · exact refl
  · exact refl.trans (record_within ..)
  · split
    · exact refl
    · exact refl.upd |>.trans (record_within ..)
  · exact refl.trans (record_within ..)

theorem openSession_within (s : State) (t : ImgType) (src : ChainSrc) (m : Manifest) : Within [.upd, .evr] s (openSession s t src m) := by
  unfold openSession
  split
  · exact refl.trans (setSession_within ..) |>.trans (.cond (record_within ..) .skip)
  · exact refl.trans (modOther_within ..) |>.trans (setSession_within ..) |>.trans (setHave_within ..)

theorem takeManifest_within (s : State) (src : ChainSrc) (h : ChainHdr) (m : Manifest) : Within [.upd, .evr, .out] s (takeManifest s src h m).1 := by
  unfold takeManifest
  dsimp only
  split
  · exact refl.trans (manifestRecord_within ..) |>.trans (updAnswer_within ..)
  · split
    · exact refl
    · exact refl.upd |>.trans (toNeighbours_within ..) |>.trans (manifestRecord_within ..) |>.trans (updAnswer_within ..)
        |>.trans (.cond (openSession_within ..) .skip)

theorem blockWritten_within (s : State) (t : ImgType) (x : UpdSession) (blk : Nat) (data : List Byte) :
    Within [.upd] s (blockWritten s t x blk data) :=
  refl.trans (setSession_within ..) |>.trans (setHave_within ..) |>.trans (modOther_within ..)

theorem sessionSegment_within (s : State) (t : ImgType) (x : UpdSession) (e : SegEnt) : Within [.upd, .evr, .out] s (sessionSegment s t x e) := by
  unfold sessionSegment
  extract_lets x1 s0 segs
  have h0 : Within [.evr] s s0 := .ite (record_within ..) refl
  have hs : ∀ y, Within [.upd, .evr, .out] s (setSession s0 t y) := fun _ => refl.trans h0 |>.trans (setSession_within ..)
  refine .ite (hs _) (.ite (hs _) ?_)
  split
  · exact refl.trans h0 |>.trans (blockWritten_within ..) |>.trans (forwardBlock_within ..)
  · exact hs _

theorem touchSession_within (s : State) (t : ImgType) (h : ChainHdr) : Within [.upd] s (touchSession s t h) := by
  unfold touchSession
  split
  · split
    · exact refl.trans (setSession_within ..)
    · exact refl
  · exact refl

theorem passSegment_within (s : State) (t : ImgType) (h : ChainHdr) (e : SegEnt) : Within [.upd, .out] s (passSegment s t h e) := by
  unfold passSegment
  split
  · exact refl
  · extract_lets all own _ s1
    refine .ite refl (.ite refl.upd ?_)
    split
    · exact refl.upd.trans (forwardBlock_within ..)
    · exact refl.upd

theorem takeSegment_within (s : State) (h : ChainHdr) (e : SegEnt) : Within [.txe, .upd, .evr, .pmu, .out] s (takeSegment s h e) := by
  unfold takeSegment
  split
  · exact refl
  · exact refl.trans (passTag_within ..) |>.trans (endIfRevoked_within ..)
      |>.trans (.cond (updAnswer_within ..) (by split; exacts [.mono (.cond (sessionSegment_within ..)
      (.seq (touchSession_within ..) (passSegment_within ..))), .mono (passSegment_within ..)] : Within [.upd, .evr, .out] _ _))

theorem askNeighbours_within (s : State) : Within [.out] s (askNeighbours s) :=
  refl.trans (.fold (fun _ _ => .cond .skip (toNeighbours_within ..)) _ _)

theorem finishAct_within (s : State) (a : Activation) (st : Status) : Within [.tk, .upd, .pmu, .dram, .out] s (finishAct s a st) := by
  unfold finishAct
  extract_lets s1 s2
  have h1 : Within [.tk, .upd, .pmu, .dram, .out] s s1 := refl.trans (updAnswer_within ..)
  have h2 : Within [.tk, .upd, .pmu, .dram, .out] s s2 := by
    dsimp only [s2]
    split
    · exact .ite (h1.trans (answer_within ..)) h1
    · exact h1
  split
  · exact h2.trans (chainReply_within ..)
  · exact h2

theorem resetPorts_within (s : State) :
    Within [.cyc, .glb, .pim, .arb, .txe, .eth, .mvb, .can0, .can1, .gw, .tb, .grp, .tk, .upd, .pgv, .rst, .evr, .pmu, .clk, .dram, .out] s
      (resetPorts s) := by
  unfold resetPorts
  extract_lets dead _ s1
  have h1 : Within [.cyc, .glb, .pim, .arb, .txe, .eth, .mvb, .can0, .can1, .gw, .tb, .grp, .tk, .upd, .pgv, .rst, .evr, .pmu, .clk,
    .dram, .out] s s1 :=
    refl.upd.trans (.fold (fun _ _ => powerPort_within ..) _ _)
  split
  · exact h1
  · exact h1.upd.trans (portReset_within ..)

theorem actWrite_within (s : State) (a : Activation) : Within [.eth, .tk, .upd, .pgv, .cul, .evr] s (actWrite s a) := by
  unfold actWrite
  split
  · exact refl
  · split
    · exact refl.trans (revertWrite_within ..)
    · exact refl.trans (activationWrite_within ..)

theorem beginAct_within (s : State) (a : Activation) :
    Within [.ci, .fab, .cyc, .glb, .pim, .arb, .txe, .eth, .mvb, .can0, .can1, .gw, .tb, .grp, .tk, .upd, .pgv, .rst, .cul, .evr, .pmu, .clk,
      .dram, .out] s (beginAct s a) := by
  unfold beginAct
  split
  · exact refl.trans (.cond (revertWrite_within ..) .skip) |>.upd
  · exact refl.trans (actWrite_within ..) |>.trans (finishAct_within ..) |>.trans (fabricReset_within ..)
  · exact refl.trans (actWrite_within ..) |>.trans (finishAct_within ..) |>.trans (resetPorts_within ..)
  · exact refl.upd

theorem actBoundary_within (s : State) :
    Within [.fab, .cyc, .glb, .pim, .arb, .txe, .eth, .can0, .can1, .gw, .grp, .tk, .upd, .pgv, .rst, .cul, .evr, .pmu, .dram, .host,
      .latches, .out] s
      (actBoundary s) := by
  unfold actBoundary
  split
  · exact refl
  · split
    · exact refl.upd.trans (actWrite_within ..) |>.trans (finishAct_within ..) |>.trans (runtimeReset_within ..)
    · extract_lets _ s1
      have h1 : Within [.fab, .cyc, .glb, .pim, .arb, .txe, .eth, .can0, .can1, .gw, .grp, .tk, .upd, .pgv, .rst, .cul, .evr, .pmu, .dram, .host,
          .latches, .out] s s1 := .ite refl.upd (.ite refl (refl.trans (ownStop_within ..)))
      exact h1.upd.trans (actWrite_within ..) |>.trans (finishAct_within ..) |>.trans (moduleReset_within ..)
    · exact refl

theorem refuseNote_within (s : State) (t : ImgType) (st : Status) : Within [.evr] s (refuseNote s t st) := by
  unfold refuseNote
  split
  · exact refl.trans (record_within ..)
  · exact refl

theorem nextAct_within (s : State) :
    Within [.ci, .fab, .cyc, .glb, .pim, .arb, .txe, .eth, .mvb, .can0, .can1, .gw, .tb, .grp, .tk, .upd, .pgv, .rst, .cul, .evr, .pmu, .clk, .dram,
      .out] s (nextAct s) := by
  unfold nextAct
  split
  · exact refl
  · extract_lets _ s1
    refine .ite (.ite refl (refl.upd.trans (beginAct_within ..))) ?_
    split
    · exact refl
    · exact refl.upd.trans (beginAct_within ..)
    · exact refl.upd.trans (finishAct_within ..) |>.trans (refuseNote_within ..)

theorem askAct_within (s : State) (a : Activation) :
    Within [.ci, .fab, .cyc, .glb, .pim, .arb, .txe, .eth, .mvb, .can0, .can1, .gw, .tb, .grp, .tk, .upd, .pgv, .rst, .cul, .evr, .pmu, .clk, .dram,
      .out] s (askAct s a).1 := by
  unfold askAct
  extract_lets same running s1
  split
  · exact refl.trans (updAnswer_within s _)
  · split
    · exact refl.trans (updAnswer_within s _) |>.trans (record_within ..)
    · split
      · exact refl.trans (beginAct_within s a)
      · exact refl.upd
      · exact refl.trans (updAnswer_within s _) |>.trans (refuseNote_within ..)

theorem confirmCmd_within (s : State) (t : ImgType) (token : Word) : Within [.upd, .cul, .evr] s (confirmCmd s t token).1 := by
  unfold confirmCmd
  dsimp only
  split
  · exact refl.trans (confirmWrite_within ..) |>.trans (updAnswer_within ..)
  · exact refl.trans (updAnswer_within ..)

theorem revertCmd_within (s : State) (t : ImgType) (token : Word) :
    Within [.ci, .fab, .cyc, .glb, .pim, .arb, .txe, .eth, .mvb, .can0, .can1, .gw, .tb, .grp, .tk, .upd, .pgv, .rst, .cul, .evr, .pmu, .clk,
      .dram, .out] s (revertCmd s t token).1 := by
  unfold revertCmd
  split
  · exact refl.trans (updAnswer_within ..) |>.trans (refuseNote_within ..)
  · exact refl.trans (revertWrite_within ..) |>.trans (.cond (.set [.upd]) (beginAct_within ..)) |>.trans (updAnswer_within ..)

theorem abortCmd_within (s : State) (t : ImgType) (src : Option ChainSrc) : Within [.upd, .evr] s (abortCmd s t src).1 := by
  unfold abortCmd
  split
  · split
    · exact refl.trans (endUpdSession_within ..) |>.trans (updAnswer_within ..)
    · exact refl.trans (updAnswer_within ..)
  · exact refl.trans (updAnswer_within ..)

/-! ### Machine/SwapOps.lean -/

theorem discardInst_within (s : State) (i : Instance) : Within [.fab, .glb, .pim] s (discardInst s i) := by
  unfold discardInst
  extract_lets s1
  have h1 : Within [.fab, .glb, .pim] s s1 := refl.trans (dropInst_within ..)
  refine h1.upd (fab := fun h => h.map (g := fun t => if t.inst && t.task.toNat == i.task && t.relMcc == i.rel then
    { t with phase := .idle, inst := false, open0 := none, deadline := 0 } else t) (fun t k => ?_) rfl rfl)
  split <;> exact k

theorem holdAffected_within (s : State) (k : Mcc) (b : ConfImage) : Within [.ci, .fab, .glb, .pim] s (holdAffected s k b) :=
  refl.trans (.fold (fun _ _ => discardInst_within ..) _ _) |>.upd

theorem swapSigs_within (s : State) (k : Mcc) (b : ConfImage) : Within [.pim, .evr] s (swapSigs s k b) :=
  refl.upd |>.trans (.fold (fun _ _ => record_within ..) _ _)

theorem swapForce_within (b : ConfImage) (s : State) (f : Force) : Within [.glb, .evr] s (swapForce b s f) := by
  unfold swapForce
  dsimp only
  split
  · exact refl.upd |>.trans (record_within ..)
  · split
    · split
      · exact refl
      · exact refl.upd |>.trans (record_within ..)
    · exact refl.upd

theorem swapForces_within (s : State) (b : ConfImage) : Within [.glb, .evr] s (swapForces s b) :=
  refl.trans (.fold (fun _ _ => swapForce_within ..) _ _) |>.upd

theorem swapTiles_within (s : State) : Within [.fab] s (swapTiles s) :=
  refl.upd (fab := fun h => h.zipMap (fun i t k => by
    dsimp only
    split
    · exact k
    · split <;> exact k) rfl)

theorem swapEvents_within (s : State) : Within [.glb] s (swapEvents s) :=
  refl.upd

theorem swapPower_within (s : State) : Within [.pgv, .evr] s (swapPower s) :=
  refl.trans (.fold (fun _ _ => .cond (powerPort_within ..) (.cond .skip (unpowerPort_within ..))) _ _)

theorem swapTime_within (s : State) (a b : TimeRec) : Within [.cyc, .tb, .evr] s (swapTime s a b) :=
  refl.trans (.cond .skip (.seq (.set [.cyc]) (clearLost_within ..))) |>.trans (.cond (ptpRestart_within ..) .skip)
    |>.trans (.cond (ptpRestart_within ..) .skip)

theorem swapGroup_within (s : State) (was : Bool) : Within [.grp] s (swapGroup s was) := by
  unfold swapGroup
  split
  · exact refl
  · exact refl.upd

theorem swapStop_within (s : State) : Within [.fab, .cyc, .glb, .pim, .rst, .evr] s (swapStop s) := by
  unfold swapStop
  split
  · split
    · exact refl.trans (lapse_within ..) |>.upd
    · exact refl.trans (lapse_within ..) |>.upd
    · exact refl
  · exact refl.trans (ownStop_within ..)

theorem exchange_within (s : State) (k : Mcc) : Within [.ci, .fab, .cyc, .glb, .pim, .eth, .gw, .grp, .safe, .evr] s (exchange s k) :=
  refl.trans (swapForces_within ..) |>.trans (swapSigs_within ..) |>.upd |>.trans (swapTiles_within ..) |>.trans (swapEvents_within ..)

theorem swapWrite_within (s : State) : Within [.eth, .tk, .upd, .pgv, .cul, .evr, .pmu, .dram, .out] s (swapWrite s) := by
  unfold swapWrite
  split
  · split
    · exact refl.upd |>.trans (actWrite_within ..) |>.trans (finishAct_within ..)
    · exact refl
  · dsimp only
    split
    · exact refl.trans (activationWrite_within ..)
    · exact refl

theorem swapMismatch_within (s : State) : Within [.glb, .evr] s (swapMismatch s) := by
  unfold swapMismatch
  split
  · exact refl.upd |>.trans (record_within ..)
  · exact refl

theorem swapNow_within (s : State) (k : Mcc) (write : Bool) :
    Within [.ci, .fab, .cyc, .glb, .pim, .arb, .txe, .eth, .mvb, .can0, .can1, .gw, .tb, .grp, .safe, .tk, .upd, .pgv, .rst, .cul, .evr, .pmu,
      .clk, .dram, .out] s (swapNow s k write) :=
  refl.trans (.cond (swapStop_within ..) (.cond (holdAffected_within ..) .skip)) |>.trans (exchange_within ..) |>.trans (swapTime_within ..)
    |>.trans (swapGroup_within ..) |>.trans (.cond (.fold (fun _ _ => portReset_within ..) _ _) .skip)
    |>.trans (.cond (.seq (swapPower_within ..) (swapWrite_within ..)) (swapPower_within ..)) |>.trans (retentionPoint_within ..)
    |>.trans (record_within ..) |>.trans (.cond (swapMismatch_within ..) .skip) |>.trans (pgvView_within ..)

theorem swapDueAt_within (s : State) (k : Mcc) :
    Within [.ci, .fab, .cyc, .glb, .pim, .arb, .txe, .eth, .mvb, .can0, .can1, .gw, .tb, .grp, .safe, .tk, .upd, .pgv, .rst, .cul, .evr, .pmu,
      .clk, .dram, .out] s (swapDueAt s k) := by
  unfold swapDueAt
  split
  · exact refl.trans (swapNow_within ..)
  · split
    · exact refl.trans (swapNow_within ..) |>.upd
    · exact refl

/-! ### Machine/UpdEvents.lean -/

theorem commandRole_within (s : State) (ts : List Token) : Within [.tk] s (commandRole s ts).1 := by
  unfold commandRole
  split
  · exact refl
  · split
    · exact refl
    · exact refl.upd

theorem commandRun_within (s : State) (src : ChainSrc) (h : ChainHdr) (op : ChainOp) (t : ImgType) (role : Role) (tok : Word) (slot : Option Nat) :
    Within [.ci, .fab, .cyc, .glb, .pim, .arb, .txe, .eth, .mvb, .can0, .can1, .gw, .tb, .grp, .tk, .upd, .pgv, .rst, .cul, .evr, .pmu, .clk,
      .dram, .out] s (commandRun s src h op t role tok slot).1 := by
  unfold commandRun
  extract_lets need o named
  split
  · exact refl.trans (updAnswer_within s _)
  · split
    · split
      · exact refl.trans (updAnswer_within s _) |>.trans (record_within ..)
      · split
        · exact refl.trans (updAnswer_within s _)
        · exact refl.trans (askAct_within ..)
    · exact refl.trans (confirmCmd_within ..)
    · exact refl.trans (revertCmd_within ..)
    · exact refl.trans (abortCmd_within ..)

theorem takeCommand_within (s : State) (src : ChainSrc) (h : ChainHdr) (op : ChainOp) (ts : List Token) (slot : Option Nat) :
    Within [.ci, .fab, .cyc, .glb, .pim, .arb, .txe, .eth, .mvb, .can0, .can1, .gw, .tb, .grp, .tk, .upd, .pgv, .rst, .cul, .evr, .pmu, .clk,
      .dram, .out] s (takeCommand s src h op ts slot).1 := by
  unfold takeCommand
  split
  · exact refl.trans (updAnswer_within ..)
  · split
    · exact refl.trans (updAnswer_within ..)
    · split
      · exact refl.trans (updAnswer_within ..)
      · exact refl.trans (commandRole_within ..) |>.trans (touchSession_within ..) |>.trans (commandRun_within ..)

theorem chainCommand_within (s : State) (src : ChainSrc) (h : ChainHdr) (op : ChainOp) (ts : List Token) :
    Within [.ci, .fab, .cyc, .glb, .pim, .arb, .txe, .eth, .mvb, .can0, .can1, .gw, .tb, .grp, .tk, .upd, .pgv, .rst, .cul, .evr, .pmu, .clk,
      .dram, .out] s (chainCommand s src h op ts) := by
  unfold chainCommand
  dsimp only
  split
  · exact refl
  · split
    · exact refl.trans (takeCommand_within ..)
    · exact refl.trans (takeCommand_within ..) |>.trans (chainReply_within ..)

theorem execCommandActivate_goes (src : ChainSrc) (h : ChainHdr) (ts : List Token) (s : State) :
    Goes [.ci, .fab, .cyc, .glb, .pim, .arb, .txe, .eth, .mvb, .can0, .can1, .gw, .tb, .grp, .tk, .upd, .pgv, .rst, .cul, .evr, .pmu, .clk,
      .dram, .out] s (execCommandActivate src h ts s) :=
  .intro (refl.trans (chainCommand_within ..))

theorem execCommandConfirm_goes (src : ChainSrc) (h : ChainHdr) (ts : List Token) (s : State) :
    Goes [.ci, .fab, .cyc, .glb, .pim, .arb, .txe, .eth, .mvb, .can0, .can1, .gw, .tb, .grp, .tk, .upd, .pgv, .rst, .cul, .evr, .pmu, .clk,
      .dram, .out] s (execCommandConfirm src h ts s) :=
  .intro (refl.trans (chainCommand_within ..))

theorem execCommandRevert_goes (src : ChainSrc) (h : ChainHdr) (ts : List Token) (s : State) :
    Goes [.ci, .fab, .cyc, .glb, .pim, .arb, .txe, .eth, .mvb, .can0, .can1, .gw, .tb, .grp, .tk, .upd, .pgv, .rst, .cul, .evr, .pmu, .clk,
      .dram, .out] s (execCommandRevert src h ts s) :=
  .intro (refl.trans (chainCommand_within ..))

theorem execCommandAbort_goes (src : ChainSrc) (h : ChainHdr) (ts : List Token) (s : State) :
    Goes [.ci, .fab, .cyc, .glb, .pim, .arb, .txe, .eth, .mvb, .can0, .can1, .gw, .tb, .grp, .tk, .upd, .pgv, .rst, .cul, .evr, .pmu, .clk,
      .dram, .out] s (execCommandAbort src h ts s) :=
  .intro (refl.trans (chainCommand_within ..))

theorem execManifest_goes (src : ChainSrc) (h : ChainHdr) (m : Manifest) (s : State) : Goes [.upd, .evr, .out] s (execManifest src h m s) :=
  .intro (.ite refl (refl.trans (takeManifest_within ..) |>.trans (chainReply_within ..)))

theorem execManifestReply_goes (_src : ChainSrc) (_h : ChainHdr) (_es : List MemberEnt) (s : State) : Goes [] s (execManifestReply _src _h _es s) :=
  .intro (refl)

theorem execCommandReply_goes (_src : ChainSrc) (_h : ChainHdr) (_es : List MemberEnt) (s : State) : Goes [] s (execCommandReply _src _h _es s) :=
  .intro (refl)

theorem execSegment_goes (h : ChainHdr) (e : SegEnt) (s : State) : Goes [.txe, .upd, .evr, .pmu, .out] s (execSegment h e s) := by
  refine .intro ?_
  split
  · exact refl.trans (takeSegment_within ..)
  · exact refl

theorem execStatusReq_goes (src : ChainSrc) (h : ChainHdr) (s : State) : Goes [.out] s (execStatusReq src h s) := by
  refine .intro ?_
  split
  · exact refl.trans (chainReply_within ..)
  · exact refl

theorem resend_within (s : State) (src : ChainSrc) (h : ChainHdr) (missing : List (List Nat)) : Within [.out] s (resend s src h missing) := by
  unfold resend
  dsimp only
  split
  · exact refl
  · exact refl.trans (.fold (fun _ _ => .fold (fun _ _ => .set [.out]) _ _) _ _)

theorem execStatusReply_goes (src : ChainSrc) (h : ChainHdr) (_es : List MemberEnt) (missing : List (List Nat)) (s : State) :
    Goes [.out] s (execStatusReply src h _es missing s) := by
  refine .intro ?_
  split
  · exact refl.trans (resend_within ..)
  · exact refl

theorem verified_within (s : State) (t : ImgType) (v : Verified) :
    Within [.ci, .fab, .cyc, .glb, .pim, .arb, .txe, .eth, .mvb, .can0, .can1, .gw, .tb, .grp, .tk, .upd, .pgv, .rst, .cul, .evr, .pmu, .clk,
      .dram, .out] s (verified s t v) := by
  unfold verified
  dsimp only
  split
  · exact refl
  · split
    · exact refl
    · split
      · exact refl.trans (modOther_within ..) |>.trans (nextAct_within ..)
      · exact refl.trans (modOther_within ..) |>.trans (setSession_within ..) |>.trans (record_within ..) |>.trans (updAnswer_within ..)
          |>.trans (nextAct_within ..)

theorem execVerificationDone_goes (t : ImgType) (v : Verified) (s : State) :
    Goes [.ci, .fab, .cyc, .glb, .pim, .arb, .txe, .eth, .mvb, .can0, .can1, .gw, .tb, .grp, .tk, .upd, .pgv, .rst, .cul, .evr, .pmu, .clk,
      .dram, .out] s (execVerificationDone t v s) :=
  .intro (refl.trans (verified_within ..))

theorem execUpdateSessionIdle_goes (t : ImgType) (s : State) : Goes [.upd, .evr] s (execUpdateSessionIdle t s) := by
  refine .intro ?_
  split
  · exact refl
  · split
    · exact refl
    · split
      · exact refl.trans (endUpdSession_within ..)
      · exact refl.trans (setSession_within ..)

theorem execHealthReached_goes (t : ImgType) (s : State) : Goes [.cul] s (execHealthReached t s) := by
  refine .intro ?_
  split
  · exact refl.trans (writeCounters_within ..)
  · exact refl

theorem execLehrEnd_goes (t : ImgType) (s : State) : Goes [.upd, .cul, .evr] s (execLehrEnd t s) := by
  refine .intro ?_
  split
  · exact refl.trans (confirmWrite_within ..)
  · exact refl

theorem execLehrLeftWrite_goes (s : State) : Goes [.upd, .cul] s (execLehrLeftWrite s) := by
  refine .intro ?_
  split
  · exact refl.trans (writeLehr_within ..)
  · exact refl

theorem runtimeMsg_within (s : State) (slot : Nat) (x0 : ChainMsg) :
    Within [.ci, .fab, .cyc, .glb, .pim, .arb, .txe, .eth, .mvb, .can0, .can1, .gw, .tb, .grp, .tk, .upd, .pgv, .rst, .cul, .evr, .pmu, .clk,
      .dram, .out] s (runtimeMsg s slot x0).1 := by
  unfold runtimeMsg
  split
  · exact refl.trans (takeManifest_within ..)
  · next h e => exact (takeSegment_within s h e).mono
  · split <;> exact refl
  · exact refl.trans (takeCommand_within ..)
  · next h x missing y => exact (resend_within s .runtime h missing).mono
  · exact refl

theorem execUpdMsg_goes (c : CallReq) (m : ChainMsg) (s : State) :
    Goes [.ci, .fab, .cyc, .glb, .pim, .arb, .txe, .eth, .mvb, .can0, .can1, .gw, .tb, .grp, .tk, .upd, .pgv, .rst, .cul, .evr, .pmu, .clk,
      .dram, .out] s (execUpdMsg c m s) := by
  refine .intro ?_
  exact callOn_within (fun _ => refl.trans (runtimeMsg_within ..))

theorem updCall_within {w : List Part} {k : State → State × Status} (hk : ∀ u, Within w u (k u).1) {s : State} {c : CallReq} {call :
    Nat} {need : Role}
    (hw : [.tk, .upd, .pmu, .dram, .out] ⊆ w := by decide) : Within w s (updCall s c call need k) := by
  unfold updCall
  refine callOn_within (fun u => ?_) (List.Subset.trans (by decide) hw)
  dsimp only
  split
  · exact (updAnswer_within u _).mono (List.Subset.trans (by decide) hw)
  · exact hk u

theorem execUpdActivate_goes (c : CallReq) (t : ImgType) (s : State) :
    Goes [.ci, .fab, .cyc, .glb, .pim, .arb, .txe, .eth, .mvb, .can0, .can1, .gw, .tb, .grp, .tk, .upd, .pgv, .rst, .cul, .evr, .pmu, .clk,
      .dram, .out] s (execUpdActivate c t s) := by
  refine .intro ?_
  exact updCall_within (fun _ => refl.trans (askAct_within ..))

theorem execUpdConfirm_goes (c : CallReq) (t : ImgType) (s : State) : Goes [.tk, .upd, .cul, .evr, .pmu, .dram, .out] s (execUpdConfirm c t s) := by
  refine .intro ?_
  exact updCall_within (fun _ => refl.trans (confirmCmd_within ..))

theorem execUpdRevert_goes (c : CallReq) (t : ImgType) (s : State) :
    Goes [.ci, .fab, .cyc, .glb, .pim, .arb, .txe, .eth, .mvb, .can0, .can1, .gw, .tb, .grp, .tk, .upd, .pgv, .rst, .cul, .evr, .pmu, .clk,
      .dram, .out] s (execUpdRevert c t s) := by
  refine .intro ?_
  exact updCall_within (fun _ => refl.trans (revertCmd_within ..))

theorem execUpdAbort_goes (c : CallReq) (t : ImgType) (s : State) : Goes [.tk, .upd, .evr, .pmu, .dram, .out] s (execUpdAbort c t s) := by
  refine .intro ?_
  exact updCall_within (fun _ => refl.trans (abortCmd_within ..))

theorem execUpdSlotInfo_goes (c : CallReq) (t : ImgType) (s : State) : Goes [.tk, .pmu, .dram, .out] s (execUpdSlotInfo c t s) := by
  refine .intro ?_
  exact callOn_within (fun _ => refl)

theorem execKeystoreLoad_goes (c : CallReq) (k : KeyStore) (s : State) :
    Goes [.eth, .tk, .upd, .pgv, .cul, .evr, .pmu, .dram, .out] s (execKeystoreLoad c k s) := by
  refine .intro (callOn_within fun u => ?_)
  have hn : Within [.eth, .tk, .upd, .pgv, .cul, .evr, .pmu, .dram, .out] u (newStore u k) := (newStore_within u k).mono
  generalize newStore u k = v at hn ⊢
  generalize storeStatus u k = st
  split
  · exact hn
  · exact refl

theorem execShadowLoadDone_goes (s : State) :
    Goes [.ci, .fab, .cyc, .glb, .pim, .arb, .txe, .eth, .mvb, .can0, .can1, .gw, .tb, .grp, .tk, .upd, .pgv, .rst, .cul, .evr, .pmu, .clk,
      .dram, .out] s (execShadowLoadDone s) := by
  refine .intro ?_
  split
  · exact refl
  · split
    · exact refl
    · dsimp only
      split
      · exact refl.trans (checkRec_within ..) |>.upd |>.trans (finishAct_within ..) |>.trans (nextAct_within ..)
      · exact refl.trans (showCheck_within ..) |>.upd |>.trans (.cond .skip (.set [.ci]))

/-! ### Machine/BootEvents.lean -/

theorem rewriteSlot_within (s : State) (t : ImgType) (b : Bool) (floor : Reg32) : Within [.upd, .cul] s (rewriteSlot s t b floor) := by
  unfold rewriteSlot
  exact refl.trans (bootEntWrite_within ..) |>.trans (modUpdSlot_within ..) |>.trans (modUpdSlot_within ..)

theorem bootSlotOf_within (s : State) (t : ImgType) : Within [.upd, .cul, .evr] s (bootSlotOf s t).1 := by
  unfold bootSlotOf
  dsimp only
  split
  · split
    · exact refl.trans (rewriteSlot_within ..)
    · exact refl
  · split
    · exact refl
    · split
      · split
        · exact refl.trans (revertWrite_within ..)
        · exact refl.trans (rewriteSlot_within ..)
      · exact refl

theorem thirdFailure_within (s : State) (t : ImgType) : Within [.upd, .cul, .evr] s (thirdFailure s t) := by
  unfold thirdFailure
  split
  · exact refl.trans (revertWrite_within ..)
  · exact refl

theorem bootStore_within (s : State) : Within [.tk, .evr] s (bootStore s).1 := by
  unfold bootStore
  split
  · exact refl
  · split
    · exact refl.upd |>.trans (record_within ..)
    · exact refl

theorem bootTk_within (s : State) : Within [.upd, .cul, .evr] s (bootTk s).1 := by
  unfold bootTk
  extract_lets s0 r
  have hr : Within [.upd, .cul, .evr] s r.1 := refl.trans (thirdFailure_within ..) |>.trans (bootSlotOf_within ..)
  split
  · exact hr.trans (record_within ..)
  · exact hr

theorem bootStuck_within (s : State) : Within [.cyc, .safe, .evr, .out] s (bootStuck s) := by
  unfold bootStuck
  extract_lets s0 _ s1
  have h0 : Within [.cyc, .safe, .evr, .out] s s0 := refl.trans (soOff_within s)
  have h1 : Within [.cyc, .safe, .evr, .out] s s1 := h0.upd (safe := fun _ => by exact .of_off (soOff_off s)) |>.trans (record_within ..)
  exact h1.upd (evr := fun h => h.copyMany 513)

theorem repairCullet_within (s : State) : Within [.cul, .evr] s (repairCullet s) := by
  unfold repairCullet
  extract_lets floor s1 s2 _ s3 s4
  have h1 : Within [.cul, .evr] s s1 := .ite (refl.trans (writeCounters_within ..) |>.trans (record_within ..)) refl
  have h2 : Within [.cul, .evr] s s2 := .ite (h1.trans (record_within ..)) h1
  have h3 : Within [.cul, .evr] s s3 := .ite (h2.upd.trans (record_within ..)) h2
  have h4 : Within [.cul, .evr] s s4 := .ite (h3.trans (record_within ..)) (.ite (h3.trans (record_within ..)) h3)
  exact h4.upd

theorem bootCanary_within (s : State) : Within [.safe, .cul, .evr] s (bootCanary s) :=
  refl.trans (.cond (recordAs_within ..) .skip) |>.trans (.cond (countCanary_within ..) .skip) |>.trans (.cond (writeCounters_within ..) .skip) |>.upd

theorem failType_within (s : State) (i : Nat) : Within [.upd, .cul, .evr] s (failType s i) :=
  refl.trans (writeBoot_within ..) |>.trans (record_within ..) |>.trans (thirdFailure_within ..)

theorem lostAct_within (s : State) (a : Activation) : Within [.evr] s (lostAct s a) :=
  refl.trans (record_within ..)

theorem bootEngine_within (s : State) : Within [.upd, .cul, .evr] s (bootEngine s) :=
  refl.trans (.fold (fun _ _ => failType_within ..) _ _) |>.trans (.fold (fun _ _ => lostAct_within ..) _ _) |>.upd

theorem bootSettings_within (s : State) : Within [.cyc, .glb, .arb, .txe, .tb, .tk, .upd, .pgv, .rst, .cul, .clk] s (bootSettings s) := by
  unfold bootSettings
  extract_lets drop _ _ s1 s2
  have h1 : Within [.tk, .cul] s s1 := .ite refl.upd refl
  have h2 : Within [.cyc, .glb, .arb, .txe, .tb, .tk, .upd, .pgv, .rst, .cul, .clk] s s2 := refl.trans h1
    |>.trans (.fold (fun _ _ => fieldPut_within ..) _ _)
  exact h2.upd

theorem pimTest_within (s : State) : Within [.arb, .evr] s (pimTest s) :=
  refl.trans (freezeBanks_within ..) |>.trans (freezeBanks_within ..)

theorem tkStart_within (s : State) : Within [.cyc, .glb, .arb, .txe, .tb, .grp, .safe, .tk, .upd, .pgv, .rst, .cul, .evr, .clk] s (tkStart s) :=
  refl.upd |>.trans (pimTest_within ..) |>.trans (storeScan_within ..) |>.trans (repairCullet_within ..) |>.trans (bootCanary_within ..)
    |>.trans (bootEngine_within ..) |>.trans (writeCounters_within ..) |>.trans (bootSettings_within ..) |>.trans (pgvView_within ..)
    |>.trans (setState_within ..)

theorem execTrustedKernelStart_goes (s : State) :
    Goes [.cyc, .glb, .arb, .txe, .tb, .grp, .safe, .tk, .upd, .pgv, .rst, .cul, .evr, .clk, .out] s (execTrustedKernelStart s) := by
  refine .intro ?_
  extract_lets r q
  have hr : Within [.cyc, .glb, .arb, .txe, .tb, .grp, .safe, .tk, .upd, .pgv, .rst, .cul, .evr, .clk, .out] s r.1 := refl.trans (bootStore_within ..)
  have hq : Within [.cyc, .glb, .arb, .txe, .tb, .grp, .safe, .tk, .upd, .pgv, .rst, .cul, .evr, .clk, .out] s q.1 := hr.trans (bootTk_within ..)
  exact .ite refl (.ite (hr.trans (bootStuck_within ..)) (.ite (hq.trans (tkStart_within ..)) (hq.trans (bootStuck_within ..))))

theorem applySetting_within (s : State) (x : SettingRec) :
    Within [.cyc, .glb, .arb, .txe, .tb, .upd, .pgv, .rst, .cul, .clk] s (applySetting s x) := by
  unfold applySetting
  extract_lets a written m s1
  exact .ite refl (refl.trans (fieldPut_within ..) |>.trans (cfieldWrite_within ..))

theorem applySettings_within (s : State) : Within [.cyc, .glb, .arb, .txe, .tb, .upd, .pgv, .rst, .cul, .clk] s (applySettings s) :=
  refl.trans (.fold (fun _ _ => applySetting_within ..) _ _) |>.upd

theorem startPort_within (s : State) (slotOk : Bool) (p : Port) : Within [.eth, .can0, .can1, .pgv, .rst, .evr] s (startPort s slotOk p) := by
  unfold startPort
  split
  · exact refl.upd |>.trans (record_within ..)
  · exact refl.trans (.cond (powerPort_within ..) .skip) |>.trans (.cond .skip (.seq (.set [.rst]) (.cond (loadPort_within ..) .skip)))

theorem loadPlane_within (s : State) (g : ConfImage) (fwOk : Bool) :
    Within [.ci, .fab, .cyc, .glb, .pim, .arb, .txe, .eth, .can0, .can1, .tb, .safe, .upd, .pgv, .rst, .cul, .evr, .clk] s (loadPlane s g fwOk) :=
  refl.upd |>.trans (applySettings_within ..) |>.trans (.fold (fun _ _ => startPort_within ..) _ _) |>.trans (.cond (record_within ..) .skip)
    |>.trans (restartTiles_within ..) |>.trans (pgvView_within ..)

theorem firstStop_within (s : State) : Within [.glb, .can0, .can1, .evr] s (firstStop s) :=
  refl.upd |>.trans (.cond (record_within ..) .skip) |>.trans (setState_within ..) |>.trans (canNmt_within ..)

theorem ciCheckOne_within (s : State) (g : ConfImage) : Within [.ci, .evr] s (ciCheckOne s g) := by
  unfold ciCheckOne
  split
  · exact refl.trans (checkRec_within ..)
  · exact refl.trans (showCheck_within ..)

theorem ciCheck_within (s : State) : Within [.ci, .evr] s (ciCheck s) :=
  refl.trans (ciCheckOne_within ..) |>.trans (.cond (ciCheckOne_within ..) .skip)

theorem execActivePlaneLoaded_goes (s : State) :
    Goes [.ci, .fab, .cyc, .glb, .pim, .arb, .txe, .eth, .can0, .can1, .tb, .safe, .upd, .pgv, .rst, .cul, .evr, .clk] s
      (execActivePlaneLoaded s) := by
  refine .intro ?_
  extract_lets c f p g
  have hc : Within [.ci, .fab, .cyc, .glb, .pim, .arb, .txe, .eth, .can0, .can1, .tb, .safe, .upd, .pgv, .rst, .cul, .evr, .clk] s c.1 :=
    refl.trans (ciCheck_within ..) |>.trans (bootSlotOf_within ..)
  have hf : Within [.ci, .fab, .cyc, .glb, .pim, .arb, .txe, .eth, .can0, .can1, .tb, .safe, .upd, .pgv, .rst, .cul, .evr, .clk] s f.1 :=
    hc.trans (bootSlotOf_within ..)
  refine .ite refl (.ite (hc.trans (record_within ..)) (.ite (hf.trans (record_within ..)) ?_))
  exact hf.trans (bootSlotOf_within ..) |>.trans (showCheck_within ..) |>.trans (loadPlane_within ..) |>.trans (firstStop_within ..)

theorem execClusterRelease_goes (s : State) : Goes [.tk, .upd, .pgv, .rst, .cul, .evr, .clk] s (execClusterRelease s) := by
  refine .intro ?_
  split
  · exact refl
  · dsimp only
    split
    · exact refl.trans (bootSlotOf_within ..) |>.upd |>.trans (record_within ..)
    · exact refl.trans (bootSlotOf_within ..) |>.trans (clkGood_within ..) |>.trans (clkGood_within ..) |>.upd |>.trans (requestStep_within ..)

theorem autoStart_within (s : State) : Within [.glb, .txe, .tb, .grp, .safe, .rst, .pmu, .out] s (autoStart s) := by
  unfold autoStart
  extract_lets _ s0 c
  clear_value c
  split
  · exact refl.upd
  · refine .ite (.ite ?_ refl.upd) ?_
    · exact refl.upd.trans (activeCall_within s0 _)
    · exact refl.upd.trans (setPending_within s0 _ _)

theorem execAutomaticStart_goes (s : State) : Goes [.glb, .txe, .tb, .grp, .safe, .rst, .pmu, .out] s (execAutomaticStart s) := by
  refine .intro ?_
  split
  · exact refl.trans (autoStart_within ..)
  · exact refl

/-! ### Machine/SafetyEvents.lean -/

theorem codeFailure_within (s : State) (task : Nat) : Within [.cyc, .grp, .safe, .evr, .out] s (codeFailure s task) :=
  refl.upd |>.trans (.cond (record_within ..) (enterIsland_within ..))

theorem noteResponse_within (s : State) (task us : Nat) : Within [.safe] s (noteResponse s task us) := by
  unfold noteResponse
  split
  · exact refl
  · exact refl.upd

theorem safetyOutputs_within (s : State) (i : Instance) (ws : List (Sid × Word × BitVec 4)) (codeOk : Bool) :
    Within [.cyc, .pim, .grp, .safe, .evr, .out] s (safetyOutputs s i ws codeOk) := by
  unfold safetyOutputs
  split
  · exact refl.trans (codeFailure_within ..)
  · exact refl.trans (.fold (fun _ _ => refuseWriter_within ..) _ _) |>.trans (addStaging_within ..)

theorem execSafetyTaskEnd_goes (task : Fin 32) (writes : List (Sid × Word × BitVec 4)) (us : Nat) (vars : List CodedVar)
    (flowOk : Bool) (s : State) :
    Goes [.cyc, .glb, .pim, .tb, .grp, .safe, .rst, .cul, .evr, .pmu, .pin, .clk, .out] s (execSafetyTaskEnd task writes us vars flowOk s) := by
  refine .intro ?_
  split
  · split
    · exact refl
    · exact refl.trans (passTo_within ..) |>.trans (.cond .skip (.cond (failSilence_within ..)
        (.seq (.seq (safetyOutputs_within ..) (noteResponse_within ..)) (.set [.glb, .safe]))))
  · exact refl

theorem modSo_within (s : State) (n : Nat) (f : SafeOut → SafeOut)
    (hf : ∀ o, Calmer (f o) o := by exact fun _ k => ⟨k, fun k => k, fun k => k⟩) :
    Within [.safe] s (modSo s n f) := by
  refine refl.upd (safe := fun h => h.calmer (fun k => k) (fun k => k) fun o ho => ?_)
  rcases mem_modNth ho with h1 | ⟨x, hx, rfl⟩
  · exact ⟨o, h1, fun k => ⟨k, fun k => k, fun k => k⟩⟩
  · exact ⟨x, hx, hf x⟩

/-- The output's fault stands only with the safe state, which switches both off. -/
theorem faultHigh_within (s : State) (n : Nat) : Within [.cyc, .grp, .safe, .evr, .out] s (faultHigh s n) := by
  have h : ∀ u, u = takes [.safe] u s → u.dram = s.dram → u.fab = s.fab → u.pim = s.pim → u.evr = s.evr → u.txe = s.txe →
      Within [.cyc, .grp, .safe, .evr, .out] s (enterIsland u 0x04 true) := fun u hu hd hf hp he ht =>
    have k := enterIsland_within u 0x04 true
    { frame := takes_trans (by decide) (takes_of_subset (by decide) hu) k.frame
      dramWf := hd ▸ k.dramWf, fabOk := hf ▸ k.fabOk, soOk := fun _ => .of_off (enterIsland_off u 0x04 true)
      ringLe := hp ▸ k.ringLe, evrOk := he ▸ k.evrOk, logLe := ht ▸ k.logLe }
  unfold faultHigh
  exact .ite refl.upd (h _ rfl rfl rfl rfl rfl rfl)

theorem faultLow_within (s : State) (n : Nat) : Within [.safe, .evr, .out] s (faultLow s n) := by
  unfold faultLow
  exact refl.trans (modSo_within s n (fun o => { o with faultLow := true, cmd := false }) fun _ k => absurd k Bool.false_ne_true) |>.upd
    |>.trans (record_within ..)

theorem judgeReadback_within (s : State) (n : Nat) (rb : Bool) : Within [.cyc, .glb, .grp, .safe, .rst, .cul, .evr, .out] s (judgeReadback s n rb) :=
  refl.trans (modSo_within ..) |>.trans (.cond (.seq (faultHigh_within ..) (.cond (failSilence_within ..) .skip)) (.cond (faultLow_within ..) .skip))

theorem execSoReadback_goes (rb0 rb1 : Bool) (s : State) :
    Goes [.cyc, .glb, .tb, .grp, .safe, .rst, .cul, .evr, .pmu, .pin, .clk, .out] s (execSoReadback rb0 rb1 s) := by
  refine .intro ?_
  split
  · exact refl
  · exact refl.trans (.cond (passTo_within ..) .skip) |>.trans (judgeReadback_within ..) |>.trans (judgeReadback_within ..)

theorem judgeTest_within (s : State) (n : Nat) (pass : Bool) : Within [.cyc, .grp, .safe, .evr, .out] s (judgeTest s n pass) :=
  refl.trans (modSo_within ..) |>.trans (.cond .skip (faultHigh_within ..))

theorem execSoTestPulse_goes (pass0 pass1 : Bool) (s : State) :
    Goes [.cyc, .tb, .grp, .safe, .cul, .evr, .pmu, .pin, .clk, .out] s (execSoTestPulse pass0 pass1 s) := by
  refine .intro ?_
  split
  · exact refl
  · exact refl.trans (.cond (passTo_within ..) .skip) |>.trans (judgeTest_within ..) |>.trans (judgeTest_within ..)

theorem modSi_within (s : State) (n : Nat) (f : SafePair → SafePair) : Within [.safe] s (modSi s n f) :=
  refl.upd

theorem writePair_within (s : State) (n : Nat) : Within [.glb, .pim, .safe, .evr] s (writePair s n) := by
  unfold writePair
  extract_lets s1
  have h1 : Within [.safe] s s1 := modSi_within ..
  split
  · exact .ite (refl.trans h1 |>.trans (acceptWrite_within ..)) (refl.trans h1 |>.trans (refuseWriter_within ..))
  · exact refl.trans h1

theorem pairFault_within (s : State) (n : Nat) : Within [.glb, .pim, .safe, .evr] s (pairFault s n) := by
  unfold pairFault
  split
  · exact refl
  · exact refl.trans (modSi_within ..) |>.trans (record_within ..) |>.trans (writePair_within ..)

theorem execSafeInputChange_goes (ch : Fin 4) (v : Bool) (s : State) : Goes [.glb, .pim, .safe, .evr] s (execSafeInputChange ch v s) := by
  refine .intro ?_
  split
  · exact refl
  · exact refl.trans (modSi_within ..) |>.trans (.cond .skip (.set [.safe])) |>.trans (.cond .skip (writePair_within ..))

theorem judgePair_within (s : State) (t2 : Bool) (n : Nat) (drop1 drop2 : Bool) :
    Within [.glb, .pim, .safe, .evr] s (judgePair s t2 n drop1 drop2) := by
  unfold judgePair
  exact .ite (refl.trans (modSi_within ..) |>.trans (pairFault_within ..)) refl

theorem execInputTestPulse_goes (t2 a1 a2 b1 b2 : Bool) (s : State) : Goes [.glb, .pim, .safe, .evr] s (execInputTestPulse t2 a1 a2 b1 b2 s) := by
  refine .intro ?_
  split
  · exact refl
  · exact refl.upd |>.trans (judgePair_within ..) |>.trans (judgePair_within ..)

theorem execInputDiscrepancyTimeout_goes (pair : Fin 2) (s : State) : Goes [.glb, .pim, .safe, .evr] s (execInputDiscrepancyTimeout pair s) := by
  refine .intro ?_
  split
  · exact refl.trans (modSi_within ..) |>.trans (pairFault_within ..)
  · exact refl

theorem execInputFaultClear_goes (pair : Fin 2) (s : State) : Goes [.glb, .pim, .safe, .evr] s (execInputFaultClear pair s) := by
  refine .intro ?_
  split
  · exact refl.trans (modSi_within ..) |>.trans (record_within ..) |>.trans (writePair_within ..)
  · exact refl

theorem pairsAtBoundary_within (s : State) : Within [.glb, .pim, .safe, .evr] s (pairsAtBoundary s) := by
  unfold pairsAtBoundary
  split
  · exact refl
  · exact refl.trans (.fold (fun _ _ => writePair_within ..) _ _) |>.upd

theorem execLivenessPulse_goes (onTime : Bool) (s : State) :
    Goes [.cyc, .glb, .grp, .safe, .rst, .cul, .evr, .out] s (execLivenessPulse onTime s) := by
  refine .intro ?_
  split
  · exact refl
  · exact refl.trans (failSilence_within ..)

theorem canaryFail_within (s : State) (cause : Byte) : Within [.cyc, .glb, .grp, .safe, .rst, .cul, .evr, .out] s (canaryFail s cause) := by
  unfold canaryFail
  split
  · exact refl.trans (failSilence_within ..)
  · exact refl

theorem execCanaryWatch_goes (cause : Byte) (s : State) : Goes [.cyc, .glb, .grp, .safe, .rst, .cul, .evr, .out] s (execCanaryWatch cause s) :=
  .intro (refl.trans (canaryFail_within ..))

theorem execFailSilence_goes (cause : Byte) (s : State) : Goes [.cyc, .glb, .grp, .safe, .rst, .cul, .evr, .out] s (execFailSilence cause s) :=
  .intro (refl.trans (canaryFail_within ..))

theorem execSramScrub_goes (corrected : Nat) (uncorrectable : Bool) (s : State) :
    Goes [.cyc, .grp, .safe, .evr, .out] s (execSramScrub corrected uncorrectable s) := by
  refine .intro ?_
  split
  · exact refl
  · exact refl.upd |>.trans (.cond (enterIsland_within ..) .skip)

theorem execCoreSelfTest_goes (pass : Bool) (s : State) : Goes [.cyc, .glb, .grp, .safe, .rst, .cul, .evr, .out] s (execCoreSelfTest pass s) := by
  refine .intro ?_
  split
  · exact refl
  · exact refl.trans (failSilence_within ..)

/-! ### Machine/CycleEvents.lean -/

theorem execSyncInEdge_goes (s : State) : Goes [.cyc, .tb] s (execSyncInEdge s) := by
  refine .intro ?_
  split
  · exact refl
  · exact refl.upd |>.trans (.cond (seeReference_within ..) .skip)

theorem ringAgreed_within (s : State) : Within [.glb, .grp, .evr] s (ringAgreed s) :=
  refl.upd |>.trans (.fold (fun _ _ => (by split; exacts [.mono (.fold (fun _ _ => raiseFor_within ..) _ _)] : Within [.glb, .evr] _ _)) _ _)

theorem compatStale_within (s : State) (old new : List PubSig) : Within [.evr] s (compatStale s old new) :=
  refl.trans (.fold (fun _ _ => record_within ..) _ _)

theorem settle_within (s : State) (k : Mcc) : Within [.glb, .pim, .txe, .eth, .grp, .evr, .pmu, .out] s (settle s k) :=
  refl.trans (dropoutRecords_within ..) |>.trans (carryRecord_within ..) |>.trans (publish_within ..) |>.trans (noteAges_within ..)
    |>.trans (by split; exacts [.mono (.seq (.seq (.seq (compatStale_within ..) (settledEvents_within ..)) (ringAgreed_within ..))
    (mirrorSend_within ..)), .mono (.seq (compatStale_within ..) (agedEvents_within ..)), .mono .skip] :
    Within [.glb, .txe, .grp, .evr, .pmu, .out] _ _) |>.trans (publishPd_within ..) |>.trans (sendStatus_within ..)

theorem execSettlingComplete_goes (s : State) : Goes [.glb, .pim, .txe, .eth, .grp, .evr, .pmu, .out] s (execSettlingComplete s) := by
  refine .intro ?_
  split
  · exact refl.trans (settle_within ..)
  · exact refl

theorem ackAtRelease_within (s : State) : Within [.safe, .tk, .evr, .pmu, .dram, .out] s (ackAtRelease s) := by
  unfold ackAtRelease
  split
  · split
    · exact refl.trans (ackEffect_within ..) |>.trans (finishCalls_within ..)
    · exact refl
  · exact refl

theorem safeMailbox_within (s : State) (task : Nat) : Within [.txe, .safe] s (safeMailbox s task) :=
  refl.upd

theorem releaseSafety_within (s : State) (r : TaskRec) :
    Within [.cyc, .glb, .pim, .arb, .txe, .grp, .safe, .tk, .evr, .pmu, .dram, .out] s (releaseSafety s r) :=
  refl.upd |>.trans (safeMailbox_within ..) |>.trans (.cond (.seq (ackAtRelease_within ..) (releaseFunc_within ..)) (.set [.safe]))

theorem releaseTask_within (s : State) (r : TaskRec) :
    Within [.fab, .cyc, .glb, .pim, .arb, .txe, .grp, .safe, .tk, .rst, .evr, .pmu, .dram, .out] s (releaseTask s r) := by
  unfold releaseTask
  split
  · exact refl
  · split
    · exact refl.trans (releaseFabric_within ..)
    · split
      · exact refl.trans (releaseSafety_within ..)
      · exact refl

theorem execTaskRelease_goes (s : State) :
    Goes [.fab, .cyc, .glb, .pim, .arb, .txe, .tb, .grp, .safe, .tk, .rst, .cul, .evr, .pmu, .pin, .clk, .dram, .out] s (execTaskRelease s) := by
  refine .intro ?_
  split
  · exact refl
  · exact refl.trans (passTo_within ..) |>.upd |>.trans (.fold (fun _ _ => releaseTask_within ..) _ _)

/-! ### Machine/GroupEvents.lean -/

theorem execGlLinkUp_goes (l : GLink) (s : State) : Goes [.grp, .pmu, .clk, .out] s (execGlLinkUp l s) := by
  refine .intro ?_
  split
  · exact refl.trans (modBr_within ..) |>.trans (rxClk_within ..) |>.trans (pump_within ..)
  · exact refl

theorem execGlLinkDown_goes (l : GLink) (s : State) : Goes [.grp, .evr, .clk] s (execGlLinkDown l s) := by
  refine .intro ?_
  split
  · exact refl.trans (linkDown_within ..)
  · exact refl

theorem execCredit_goes (l : GLink) (h : GlHdr) (s : State) : Goes [.grp, .evr, .pmu, .clk, .out] s (execCredit l h s) :=
  .intro (glRecv_within fun _ => refl)

theorem execCreditReturnTimer_goes (l : GLink) (s : State) : Goes [.txe, .grp, .pmu, .out] s (execCreditReturnTimer l s) := by
  refine .intro ?_
  split
  · exact refl.trans (glSend_within ..)
  · exact refl

theorem execHbSend_goes (s : State) : Goes [.txe, .tb, .grp, .cul, .pmu, .pin, .clk, .out] s (execHbSend s) := by
  refine .intro ?_
  obtain ⟨u, hu⟩ : ∃ u, passTo s (t0 s + 500) = u := ⟨_, rfl⟩
  rw [hu]
  have h0 : Within [.tb, .cul, .pmu, .pin, .clk, .out] s u := hu ▸ passTo_within ..
  refine .ite ?_ refl
  extract_lets u b _ s0
  have h1 : Within [.grp] u s0 := by
    dsimp only [s0]
    split
    · exact .ite refl.upd refl
    · exact refl
  exact refl.trans h0 |>.trans h1 |>.trans (glSend_within ..) |>.trans (glSend_within ..)

theorem hbActive_within (s : State) (p : HbPay) : Within [.cyc, .grp, .evr] s (hbActive s p) := by
  unfold hbActive
  split
  · exact refl.trans (judgeSkew_within ..)
  · exact refl

theorem hbForm_within (s : State) (l : GLink) (p : HbPay) : Within [.txe, .grp, .pmu, .out] s (hbForm s l p) := by
  unfold hbForm
  split
  · exact refl
  · split
    · exact refl.trans (modPeer_within ..) |>.trans (sendPeer_within ..)
    · exact refl

theorem hbReturn_within (s : State) (l : GLink) (p : HbPay) : Within [.txe, .grp, .evr, .pmu, .out] s (hbReturn s l p) := by
  unfold hbReturn
  extract_lets gone other standby s1
  have hn : ∀ sev c d, Within [.txe, .grp, .evr, .pmu, .out] s (record (modPeer s l (fun x => { x with hashNoted := true })) sev srcGrp c d) :=
    fun _ _ _ => refl.trans (modPeer_within ..) |>.trans (record_within ..)
  refine .ite refl (.ite (.ite refl (hn ..)) (.ite (.ite refl (hn ..)) (.ite refl (.ite ?_ refl))))
  exact refl.upd.trans (glSend_within ..)

theorem hbNote_within (s : State) (l : GLink) (p : HbPay) (relayed : Bool) :
    Within [.pim, .arb, .txe, .grp, .evr, .pmu, .dram, .out] s (hbNote s l p relayed) := by
  unfold hbNote
  extract_lets old newEpoch back s1 s2 i _ s3 _ s4 _ s5
  have h2 : Within [.pim, .arb, .txe, .grp, .evr, .pmu, .dram, .out] s s2 :=
    refl.trans (modPeer_within ..) |>.trans (.cond (bumpEpoch_within ..) .skip)
  have h3 : Within [.pim, .arb, .txe, .grp, .evr, .pmu, .dram, .out] s s3 := .ite h2.upd h2
  have h4 : Within [.pim, .arb, .txe, .grp, .evr, .pmu, .dram, .out] s s4 := .ite h3 h3.upd
  have h5 : Within [.pim, .arb, .txe, .grp, .evr, .pmu, .dram, .out] s s5 := by
    dsimp only [s5]
    split
    · exact .ite h4.upd h4
    · exact h4
  split
  · exact .ite h5.upd h5
  · exact h5

theorem hbTake_within (s : State) (p : HbPay) (relayed : Bool) :
    Within [.cyc, .pim, .arb, .txe, .grp, .evr, .pmu, .dram, .out] s (hbTake s p relayed) :=
  refl.trans (hbNote_within ..) |>.trans (.cond (declareFailed_within ..) .skip) |>.trans (.cond (hbActive_within ..) .skip)
    |>.trans (hbForm_within ..) |>.trans (hbReturn_within ..)

theorem announced_within (s : State) (l : GLink) (p : HbPay) : Within [.grp] s (announced s l p) :=
  refl.trans (modBr_within ..)

theorem execHb_goes (l : GLink) (h : GlHdr) (p : HbPay) (s : State) :
    Goes [.cyc, .pim, .arb, .txe, .grp, .evr, .pmu, .clk, .dram, .out] s (execHb l h p s) := by
  refine .intro ?_
  refine glRecv_within (fun _ => ?_)
  split
  · exact refl.trans (announced_within ..) |>.trans (modBr_within ..) |>.trans (record_within ..)
  · exact refl.trans (putFrame_within ..) |>.trans (announced_within ..) |>.trans (hbTake_within ..)

theorem execHbRelay_goes (l : GLink) (h : GlHdr) (p : HbPay) (s : State) :
    Goes [.cyc, .pim, .arb, .txe, .grp, .evr, .pmu, .clk, .dram, .out] s (execHbRelay l h p s) := by
  refine .intro ?_
  refine glRecv_within (fun _ => ?_)
  split
  · exact refl.trans (hbTake_within ..)
  · exact refl

theorem checkPeer_within (s : State) (l : GLink) : Within [.grp, .pmu, .out] s (checkPeer s l) :=
  refl.trans (.cond .skip (modBr_within ..)) |>.trans (.cond .skip (modBr_within ..)) |>.trans (pmuCount_within ..) |>.trans (modPeer_within ..)

theorem lostAll_within (s : State) : Within [.pim, .arb, .txe, .grp, .evr, .pmu, .dram, .out] s (lostAll s) := by
  unfold lostAll
  split
  · exact refl.trans (.fold (fun _ _ => .cond .skip (declareFailed_within ..)) _ _)
  · exact refl.upd |>.trans (record_within ..)

theorem execHeartbeatCheck_goes (s : State) :
    Goes [.pim, .arb, .txe, .tb, .grp, .cul, .evr, .pmu, .pin, .clk, .dram, .out] s (execHeartbeatCheck s) := by
  refine .intro ?_
  split
  · exact refl
  · exact refl.trans (passTo_within ..) |>.trans (checkPeer_within ..) |>.trans (checkPeer_within ..)
      |>.trans (.cond .skip (.cond (lostAll_within ..) (.fold (fun _ _ => .cond (declareFailed_within ..) .skip) _ _)))

theorem execFailSilentIndication_goes (l : GLink) (s : State) :
    Goes [.pim, .arb, .txe, .grp, .evr, .pmu, .dram, .out] s (execFailSilentIndication l s) := by
  refine .intro ?_
  split
  · exact refl.trans (glSend_within ..) |>.trans (silentIndication_within ..)
  · exact refl

theorem execOrderTakeover_goes (l : GLink) (h : GlHdr) (o : OrderMsg) (s : State) :
    Goes [.pim, .arb, .txe, .grp, .evr, .pmu, .clk, .dram, .out] s (execOrderTakeover l h o s) := by
  refine .intro ?_
  exact glRecv_within (fun _ => refl.trans (takeOrder_within ..))

theorem execOrderExclude_goes (l : GLink) (h : GlHdr) (o : OrderMsg) (s : State) :
    Goes [.pim, .arb, .txe, .grp, .evr, .pmu, .clk, .dram, .out] s (execOrderExclude l h o s) := by
  refine .intro ?_
  exact glRecv_within (fun _ => refl.trans (takeOrder_within ..))

theorem execOrderAdoptMcc_goes (l : GLink) (h : GlHdr) (o : OrderMsg) (s : State) :
    Goes [.txe, .grp, .evr, .pmu, .clk, .out] s (execOrderAdoptMcc l h o s) := by
  refine .intro ?_
  exact glRecv_within (fun _ => refl.trans (ackFrame_within ..) |>.trans (.cond (.set [.grp]) .skip))

theorem execOrderRoles_goes (l : GLink) (h : GlHdr) (o : OrderMsg) (s : State) :
    Goes [.txe, .grp, .evr, .pmu, .clk, .out] s (execOrderRoles l h o s) := by
  refine .intro ?_
  exact glRecv_within (fun _ => refl.trans (ackFrame_within ..) |>.trans (.cond (.set [.grp]) .skip))

theorem execAck_goes (l : GLink) (h : GlHdr) (type : Nat) (id : Reg32) (st : Status) (s : State) :
    Goes [.grp, .tk, .evr, .pmu, .clk, .dram, .out] s (execAck l h type id st s) := by
  refine .intro ?_
  refine glRecv_within (fun _ => ?_)
  split
  · exact refl.trans (ackSlots_within ..)
  · exact refl

theorem execTargetModeCommand_goes (l : GLink) (h : GlHdr) (mcc : Mcc) (a : TargetArg) (s : State) :
    Goes [.glb, .txe, .tb, .grp, .safe, .rst, .evr, .pmu, .clk, .out] s (execTargetModeCommand l h mcc a s) := by
  refine .intro ?_
  split
  · exact glRecv_within (fun _ => refl.trans (takeTarget_within ..))
  · exact refl

theorem execTargetForceChange_goes (l : GLink) (h : GlHdr) (mcc : Mcc) (cs : List ForceCmd) (s : State) :
    Goes [.glb, .txe, .tb, .grp, .safe, .rst, .evr, .pmu, .clk, .out] s (execTargetForceChange l h mcc cs s) := by
  refine .intro ?_
  exact glRecv_within (fun _ => refl.trans (takeTarget_within ..))

theorem execTargetTimeStep_goes (l : GLink) (h : GlHdr) (mcc : StepDue) (s : State) :
    Goes [.glb, .txe, .tb, .grp, .safe, .rst, .evr, .pmu, .clk, .out] s (execTargetTimeStep l h mcc s) := by
  refine .intro ?_
  exact glRecv_within (fun _ => refl.trans (takeTarget_within ..))

theorem execTargetRoleSwap_goes (l : GLink) (h : GlHdr) (mcc : Mcc) (s : State) :
    Goes [.glb, .txe, .tb, .grp, .safe, .rst, .evr, .pmu, .clk, .out] s (execTargetRoleSwap l h mcc s) := by
  refine .intro ?_
  exact glRecv_within (fun _ => refl.trans (takeTarget_within ..))

theorem execTargetMaintEnter_goes (l : GLink) (h : GlHdr) (mcc : Mcc) (s : State) :
    Goes [.glb, .txe, .tb, .grp, .safe, .rst, .evr, .pmu, .clk, .out] s (execTargetMaintEnter l h mcc s) := by
  refine .intro ?_
  exact glRecv_within (fun _ => refl.trans (takeTarget_within ..))

theorem execTargetMaintLeave_goes (l : GLink) (h : GlHdr) (mcc : Mcc) (s : State) :
    Goes [.glb, .txe, .tb, .grp, .safe, .rst, .evr, .pmu, .clk, .out] s (execTargetMaintLeave l h mcc s) := by
  refine .intro ?_
  exact glRecv_within (fun _ => refl.trans (takeTarget_within ..))

theorem sendPropose_within (s : State) : Within [.ci, .txe, .grp, .pmu, .out] s (sendPropose s) := by
  unfold sendPropose
  split
  · exact refl.trans (modPeer_within ..) |>.trans (modPeer_within ..) |>.upd |>.trans (.cond (commitSwap_within ..) (sendPeers_within ..))
  · exact refl

theorem execPropose_goes (rx : Option (GLink × GlHdr × Hash × Mcc)) (s : State) :
    Goes [.ci, .txe, .grp, .evr, .pmu, .clk, .out] s (execPropose rx s) := by
  refine .intro ?_
  split
  · exact refl.trans (sendPropose_within ..)
  · exact glRecv_within (fun _ => refl.trans (.cond (.set [.ci, .grp]) .skip) |>.trans (sendPeer_within ..))

theorem execAccept_goes (l : GLink) (h : GlHdr) (hash : Hash) (st : Status) (s : State) :
    Goes [.ci, .txe, .grp, .evr, .pmu, .clk, .out] s (execAccept l h hash st s) := by
  refine .intro ?_
  refine glRecv_within (fun _ => ?_)
  split
  · split
    · exact refl.trans (modPeer_within ..) |>.trans (acceptedAll_within ..)
    · exact refl
  · exact refl

theorem execCommit_goes (l : GLink) (h : GlHdr) (hash : Hash) (mcc : Mcc) (s : State) :
    Goes [.ci, .grp, .evr, .pmu, .clk, .out] s (execCommit l h hash mcc s) := by
  refine .intro ?_
  refine glRecv_within (fun _ => ?_)
  split
  · exact refl.upd
  · exact refl

theorem countAbort_within (s : State) :
    Within [.ci, .fab, .cyc, .glb, .pim, .arb, .txe, .eth, .mvb, .can0, .can1, .gw, .tb, .grp, .tk, .upd, .pgv, .rst, .cul, .evr, .pmu, .clk, .dram,
      .out] s (countAbort s) := by
  unfold countAbort
  extract_lets _ _ s1 _ s2
  refine .ite refl.upd ?_
  split
  · exact .ite (refl.upd.trans (record_within ..) |>.trans (finishAct_within ..) |>.trans (nextAct_within ..)) refl.upd
  · exact refl.upd

theorem execAbort_goes (rx : Option (GLink × GlHdr × Hash)) (s : State) :
    Goes [.ci, .fab, .cyc, .glb, .pim, .arb, .txe, .eth, .mvb, .can0, .can1, .gw, .tb, .grp, .tk, .upd, .pgv, .rst, .cul, .evr, .pmu, .clk,
      .dram, .out] s (execAbort rx s) := by
  refine .intro ?_
  split
  · split
    · split
      · exact refl.trans (sendEvery_within ..) |>.trans (countAbort_within ..)
      · exact refl
    · exact refl
  · refine glRecv_within (fun _ => ?_)
    split
    · split
      · exact refl.trans (countAbort_within ..)
      · exact refl
    · exact refl

theorem execDelta_goes (l : GLink) (h : GlHdr) (es : List DeltaEnt) (s : State) : Goes [.grp, .evr, .pmu, .clk, .out] s (execDelta l h es s) := by
  refine .intro ?_
  exact glRecv_within (fun _ => refl.trans (modPeer_within ..) |>.trans (modBr_within ..))

theorem execDeltaEnd_goes (l : GLink) (h : GlHdr) (entries frames : Nat) (s : State) :
    Goes [.grp, .evr, .pmu, .clk, .out] s (execDeltaEnd l h entries frames s) := by
  refine .intro ?_
  refine glRecv_within (fun _ => ?_)
  split
  · exact refl
  · exact refl.trans (modPeer_within ..)

theorem countAgreed_within (s : State) : Within [.grp] s (countAgreed s) := by
  unfold countAgreed
  split
  · exact refl
  · exact refl.upd

theorem execInputAgreement_goes (s : State) :
    Goes [.fab, .cyc, .glb, .pim, .eth, .tb, .grp, .safe, .rst, .cul, .evr, .pmu, .pin, .clk, .out] s (execInputAgreement s) := by
  refine .intro ?_
  split
  · exact refl.trans (passTo_within ..) |>.trans (countAgreed_within ..) |>.trans (agreeInputs_within ..) |>.trans (judgeCompletion_within ..)
      |>.trans (mirrorStart_within ..)
  · exact refl

theorem execVoteSend_goes (s : State) : Goes [.txe, .tb, .grp, .cul, .pmu, .pin, .clk, .out] s (execVoteSend s) := by
  refine .intro ?_
  split
  · exact refl.trans (passTo_within ..) |>.upd |>.trans (.fold (fun _ _ => sendPeers_within ..) _ _)
  · exact refl

theorem execVote_goes (l : GLink) (h : GlHdr) (es : List VoteEnt) (s : State) : Goes [.grp, .evr, .pmu, .clk, .out] s (execVote l h es s) := by
  refine .intro ?_
  refine glRecv_within (fun _ => ?_)
  split
  · exact refl.trans (modPeer_within ..)
  · exact refl

theorem execVoteDecide_goes (s : State) :
    Goes [.cyc, .pim, .arb, .txe, .tb, .grp, .safe, .cul, .evr, .pmu, .pin, .clk, .dram, .out] s (execVoteDecide s) := by
  refine .intro ?_
  split
  · exact refl.trans (passTo_within ..) |>.trans (decideVotes_within ..)
  · exact refl

theorem execMirror_goes (l : GLink) (h : GlHdr) (es : List DeltaEnt) (s : State) :
    Goes [.txe, .grp, .evr, .pmu, .clk, .out] s (execMirror l h es s) := by
  refine .intro ?_
  exact glRecv_within (fun _ => refl.trans (mirrorTake_within ..))

theorem execXferReq_goes (l : GLink) (h : GlHdr) (serial : Word) (s : State) :
    Goes [.txe, .grp, .evr, .pmu, .clk, .out] s (execXferReq l h serial s) := by
  refine .intro (glRecv_within fun s => ?_)
  extract_lets i marked ps s1 find o
  have h1 : Within [.txe, .grp, .pmu, .out] s s1 := .fold (fun s x => by exact glSend_within ..) _ _
  exact .ite (refl.trans h1 |>.trans (glSend_within ..)) refl

theorem execXferData_goes (l : GLink) (h : GlHdr) (off : Nat) (p : XferPart) (s : State) :
    Goes [.glb, .pim, .tb, .grp, .safe, .rst, .evr, .pmu, .clk, .out] s (execXferData l h off p s) := by
  refine .intro ?_
  refine glRecv_within (fun _ => ?_)
  split
  · exact refl.trans (takePart_within ..)
  · exact refl

theorem execFormingTimeout_goes (s : State) : Goes [.grp] s (execFormingTimeout s) :=
  .intro (.ite refl.upd refl)

theorem execProbationEnd_goes (pos : Nat) (s : State) : Goes [.grp] s (execProbationEnd pos s) := by
  refine .intro ?_
  split
  · split
    · exact refl.upd
    · exact refl.trans (reassign_within ..) |>.upd
  · exact refl

theorem execRotationMinute_goes (s : State) : Goes [.glb, .txe, .tb, .grp, .safe, .rst, .pmu, .out] s (execRotationMinute s) := by
  refine .intro ?_
  split
  · exact refl.upd |>.trans (.cond (setTarget_within ..) .skip)
  · exact refl

theorem execDriveCheck_goes (s : State) : Goes [.grp, .evr] s (execDriveCheck s) := by
  refine .intro ?_
  split
  · exact refl
  · dsimp only
    split
    · exact refl
    · split
      · exact refl.upd
      · exact refl.upd |>.trans (.cond (record_within ..) .skip)

/-! ### Machine/TimeEvents.lean -/

theorem fireStepped_within (s : State) : Within [.cyc, .pim, .txe, .mvb, .can0, .can1, .evr, .pmu, .dram, .out] s (fireStepped s) :=
  refl.upd |>.trans (.fold (fun _ _ => fireLate_within ..) _ _)

theorem stepTtc_within (s : State) (o : ℤ) :
    Within [.fab, .cyc, .pim, .txe, .eth, .mvb, .can0, .can1, .tb, .safe, .rst, .evr, .pmu, .pin, .clk, .dram, .out] s (stepTtc s o) := by
  unfold stepTtc
  refine .trans (.upd refl (fab := fun h => h.map (g := fun t => { t with
      relTtc := t.relTtc - BitVec.ofInt 64 o, winStart := t.winStart - BitVec.ofInt 64 o })
    (fun _ k => k) rfl rfl)) (fireStepped_within ..)

theorem stepDone_within (s : State) : Within [.tb] s (stepDone s) :=
  refl.upd

theorem applyStep_within (s : State) (d : StepDue) (o : ℤ) :
    Within [.fab, .cyc, .pim, .txe, .eth, .mvb, .can0, .can1, .tb, .safe, .rst, .evr, .pmu, .pin, .clk, .dram, .out] s (applyStep s d o) :=
  refl.trans (stepTtc_within ..) |>.trans (stepDone_within ..) |>.upd |>.trans (freshRun_within ..) |>.trans (tbState_within ..)
    |>.trans (record_within ..)

theorem execTimeStep_goes (s : State) :
    Goes [.fab, .cyc, .pim, .txe, .eth, .mvb, .can0, .can1, .tb, .safe, .rst, .cul, .evr, .pmu, .pin, .clk, .dram, .out] s (execTimeStep s) := by
  refine .intro ?_
  obtain ⟨u, hu⟩ : ∃ u, passTo s (t0 s + 100000) = u := ⟨_, rfl⟩
  rw [hu]
  have h0 : Within [.tb, .cul, .pmu, .pin, .clk, .out] s u := hu ▸ passTo_within ..
  split
  · exact refl
  · refine .ite refl ?_
    dsimp only
    split
    · exact refl.trans h0 |>.trans (applyStep_within ..)
    · exact refl.trans h0 |>.upd

theorem execAnnounceTimeout_goes (b : Bool) (s : State) : Goes [.tb, .evr] s (execAnnounceTimeout b s) := by
  refine .intro ?_
  split
  · exact refl
  · exact refl.upd |>.trans (modPtp_within ..) |>.trans (.cond (planeLost_within ..) .skip)

theorem execSyncTimeout_goes (s : State) : Goes [.tb, .evr] s (execSyncTimeout s) :=
  .intro (refl.upd |>.trans (.cond .skip (.cond (tbState_within ..) .skip)))

theorem execPtpDelayReq_goes (b : Bool) (s : State) : Goes [.eth, .evr] s (execPtpDelayReq b s) := by
  refine .intro ?_
  split
  · exact refl
  · split
    · exact refl.trans (sendPtp_within ..)
    · split
      · exact refl.trans (sendPtp_within ..)
      · exact refl

theorem execPtpMasterSend_goes (b : Bool) (s : State) : Goes [.eth, .tb, .evr] s (execPtpMasterSend b s) := by
  refine .intro ?_
  extract_lets p best _ s0 s1
  have h1 : Within [.tb] s s1 := refl.upd.trans (modPtp_within s0 b _)
  exact .ite (refl.trans h1 |>.trans (sendPtp_within ..) |>.trans (sendPtp_within ..)) (refl.trans (modPtp_within ..))

theorem execGmTimeValid_goes (s : State) : Goes [.tb, .cul, .evr, .pmu, .pin, .clk, .out] s (execGmTimeValid s) := by
  refine .intro ?_
  obtain ⟨u, hu⟩ : ∃ u, passTo s (s.tb.gmAt + 2000000000) = u := ⟨_, rfl⟩
  rw [hu]
  have h0 : Within [.tb, .cul, .pmu, .pin, .clk, .out] s u := hu ▸ passTo_within ..
  exact .ite (refl.trans h0 |>.upd |>.trans (record_within ..)) refl

/-! ### Machine/BoundaryEvents.lean -/

theorem launchHandler_within (vals : List PubSig) (s : State) (h : HandlerOut) :
    Within [.cyc, .pim, .txe, .mvb, .can0, .can1, .gw, .evr, .pmu, .dram, .out] s (launchHandler vals s h) := by
  unfold launchHandler
  dsimp only
  split
  · exact refl
  · split
    · exact refl
    · exact refl.trans (pmuCount_within ..) |>.upd |>.trans (.cond (fireLaunch_within ..) .skip)

theorem handlerRecs_within (s : State) : Within [.evr] s (handlerRecs s) :=
  refl.trans (.fold (fun _ _ => .fold (fun _ _ => writeStaged_within ..) _ _) _ _)

theorem endOwn_within (s : State) (i : Instance) : Within [.pim] s (endOwn s i) := by
  unfold endOwn
  split
  · exact refl.trans (dropInst_within ..)
  · split
    · exact refl.trans (commitOuts_within ..)
    · exact refl.trans (dropInst_within ..)

theorem endAt_within (s : State) (k : Mcc) : Within [.fab, .cyc, .glb, .pim, .grp, .safe, .rst, .evr, .pmu, .out] s (endAt s k) := by
  unfold endAt
  dsimp only
  split
  · exact refl.upd |>.trans (.fold (fun _ _ => endOwn_within ..) _ _)
  · exact refl.trans (endInstances_within ..) |>.trans (.cond (enterIsland_within ..) .skip)

theorem splitAgreed_within (s : State) (k : Mcc) : Within [.pim, .grp] s (splitAgreed s k) := by
  unfold splitAgreed
  split
  · exact refl
  · exact refl.upd

theorem noteMarks_within (s : State) : Within [.grp] s (noteMarks s) :=
  refl.upd

theorem commitAt_within (s : State) (k : Mcc) : Within [.fab, .cyc, .glb, .pim, .grp, .safe, .rst, .evr, .pmu, .out] s (commitAt s k) := by
  unfold commitAt
  refine .trans ?_ (noteMarks_within ..)
  refine .upd ?_ (t := commitStaging ..)
  refine .trans ?_ (commitStaging_within ..)
  refine .trans ?_ (splitAgreed_within ..)
  refine .trans ?_ (endAt_within ..)
  refine .trans ?_ (handlerRecs_within ..)
  exact refl.upd |>.trans (applyVotes_within ..)

theorem raiseChanged_within (s : State) (k : Mcc) (l : List Sid) : Within [.glb, .evr] s (raiseChanged s k l) := by
  unfold raiseChanged
  split
  · exact refl
  · exact refl.trans (.fold (fun _ _ => (by split; exacts [.mono (raiseNoted_within ..), .mono .skip] : Within [.glb, .evr] _ _)) _ _)

theorem noReference_within (s : State) : Within [.cyc, .evr] s (noReference s) := by
  unfold noReference
  split
  · exact refl.trans (loseSync_within ..)
  · exact refl

theorem SoOk.cold {f : Safe} (h : SoOk f) : SoOk f.cold :=
  h.map rfl (fun k => absurd rfl k) (fun k => k) (fun _ k => ⟨k, fun k => absurd k Bool.false_ne_true, fun k => absurd k Bool.false_ne_true⟩)

theorem beginRun_within (s : State) (cold : Bool) :
    Within [.fab, .cyc, .glb, .pim, .arb, .can0, .can1, .grp, .safe, .rst, .cul, .evr] s (beginRun s cold) := by
  unfold beginRun
  extract_lets s1
  have h1 : Within [.fab, .cyc, .glb, .pim, .arb, .can0, .can1, .grp, .safe, .rst, .cul, .evr] s s1 := refl.trans (enterRun_within ..)
  refine .trans (.trans (.upd h1 (safe := fun h => ?_)) (noReference_within ..)) (canNmt_within ..)
  cases cold
  · exact h
  · exact h.cold

theorem dormantLapse_within (s : State) : Within [.rst, .evr] s (dormantLapse s) :=
  refl.upd |>.trans (record_within ..)

theorem takeMode_within (s : State) (x0 : ModeCmd) :
    Within [.fab, .cyc, .glb, .pim, .arb, .can0, .can1, .grp, .safe, .rst, .cul, .evr, .out] s (takeMode s x0) := by
  unfold takeMode
  split
  · split
    · exact refl.trans (beginRun_within ..)
    · exact refl
  · split
    · exact refl.trans (beginRun_within ..)
    · exact refl
  · split
    · exact refl.trans (enterStop_within ..)
    · exact refl
  · split
    · exact refl.trans (setState_within ..)
    · exact refl
  · split
    · exact refl.upd |>.trans (setState_within ..)
    · exact refl
  · split
    · exact refl.upd
    · exact refl
  · split
    · exact refl
    · split
      · exact refl.trans (dormantLapse_within ..)
      · exact refl.trans (enterDormant_within ..)

theorem modesAt_within (s : State) (k : Mcc) :
    Within [.fab, .cyc, .glb, .pim, .arb, .can0, .can1, .grp, .safe, .rst, .cul, .evr, .out] s (modesAt s k) := by
  unfold modesAt
  extract_lets _ s0 _ s1
  have h0 : Within [.fab, .cyc, .glb, .pim, .arb, .can0, .can1, .grp, .safe, .rst, .cul, .evr, .out] s s0 := refl.upd
  have h1 : Within [.fab, .cyc, .glb, .pim, .arb, .can0, .can1, .grp, .safe, .rst, .cul, .evr, .out] s s1 :=
    .ite h0 (.ite (h0.trans (ownStop_within ..)) h0.upd)
  split
  · exact .ite (h1.upd.trans (takeMode_within ..)) h1
  · exact h1

theorem drainedAt_within (s : State) : Within [.glb] s (drainedAt s) := by
  unfold drainedAt
  split
  · exact refl.upd
  · exact refl

theorem forcesAt_within (s : State) (k : Mcc) : Within [.glb, .grp] s (forcesAt s k) :=
  refl.trans (forcesEffect_within ..) |>.trans (.cond .skip (.set [.grp]))

theorem safeOutAt_within (s : State) (k : Mcc) (func was : Bool) (voted : Option (List VoteEnt)) :
    Within [.cyc] s (safeOutAt s k func was voted) := by
  unfold safeOutAt
  split
  · exact refl.trans (commitSo_within ..)
  · split
    · exact refl
    · split
      · exact refl.trans (commitSo_within ..)
      · exact refl.trans (commitSo_within ..)

theorem releaseRuntime_within (s : State) (r : TaskRec) : Within [.glb, .out] s (releaseRuntime s r) := by
  unfold releaseRuntime
  split
  · exact refl.upd
  · exact refl

theorem dumpLost_within (s : State) : Within [.pmu] s (dumpLost s) :=
  refl.upd

theorem dumpBegin_within (s : State) (k : Mcc) : Within [.txe, .evr, .pmu, .out] s (dumpBegin s k) := by
  unfold dumpBegin
  dsimp only
  split
  · exact refl.trans (dumpLost_within ..)
  · split
    · exact refl.trans (noteTags_within ..) |>.trans (dumpLost_within ..)
    · split
      · exact refl.trans (dumpLost_within ..)
      · exact refl.trans (allocTag_within ..) |>.upd

theorem dumpAt_within (s : State) (k : Mcc) : Within [.pim, .arb, .txe, .evr, .pmu, .dram, .out] s (dumpAt s k) := by
  unfold dumpAt
  split
  · exact refl
  · extract_lets t1 s1 s2
    have h1 : Within [.pim, .arb, .txe, .evr, .pmu, .dram, .out] s s1 := by
      dsimp only [s1]
      split
      · exact (refl.trans (finishTag_within s _ _ _ _ _ _)).upd.trans (dumpLost_within ..)
      · exact refl.upd.trans (dumpLost_within ..)
      · exact refl
    exact .ite refl (h1.trans (dumpBegin_within ..) |>.upd)

theorem syncPulse_within (s : State) (k : Mcc) : Within [.out] s (syncPulse s k) := by
  unfold syncPulse
  split
  · exact refl.upd
  · exact refl

theorem canModes_within (s : State) : Within [.can0, .can1] s (canModes s) :=
  refl.upd

theorem quotasAt_within (s : State) : Within [.txe, .evr] s (quotasAt s) := by
  unfold quotasAt
  split
  · exact refl
  · exact refl.upd |>.trans (.fold (fun _ _ => .cond (record_within ..) .skip) _ _)

theorem topoAt_within (s : State) : Within [.eth] s (topoAt s) := by
  unfold topoAt
  split
  · exact refl
  · split
    · exact refl.upd
    · exact refl.upd

theorem majorAt_within (s : State) (k : Mcc) : Within [.cyc, .glb, .txe, .eth] s (majorAt s k) := by
  unfold majorAt
  split
  · exact refl
  · exact refl.upd

theorem portsAt_within (s : State) : Within [.eth] s (portsAt s) :=
  refl.upd |>.trans (.fold (fun _ _ => gateStart_within ..) _ _)

theorem trainTimeAt_within (s : State) : Within [.glb, .txe, .tb, .grp, .safe, .rst, .evr, .pmu, .out] s (trainTimeAt s) :=
  refl.trans (.cond (ptpRestart_within ..) .skip) |>.trans (.cond (ptpRestart_within ..) .skip) |>.trans (.cond (stepAt_within ..) .skip)

theorem deltaAt_within (s : State) : Within [.pim, .txe, .grp, .evr, .pmu, .out] s (deltaAt s) := by
  unfold deltaAt
  split
  · exact refl.trans (buildDelta_within ..) |>.trans (sendDelta_within ..)
  · exact refl

theorem takeoverAsk_within (was : GRole) (s : State) (k : Mcc) : Within [.out] s (takeoverAsk was s k) := by
  unfold takeoverAsk
  split
  · exact refl.trans (askNeighbours_within ..)
  · exact refl

theorem openBoundary_within (s : State) :
    Within [.ci, .fab, .cyc, .glb, .pim, .arb, .txe, .eth, .mvb, .gw, .tb, .grp, .safe, .cul, .evr, .pmu, .pin, .clk, .out] s (openBoundary s) := by
  unfold openBoundary
  refine .trans ?_ (takeoverAsk_within ..)
  refine .trans ?_ (groupBoundary_within ..)
  refine .trans ?_ (majorAt_within ..)
  refine .trans ?_ (refBook_within ..)
  refine .upd ?_ (t := adoptMcc ..)
  refine .trans ?_ (adoptMcc_within ..)
  exact refl.trans (passTo_within ..) |>.trans (timedArrive_within ..) |>.upd

theorem freezeEdge_within (s : State) (k : Mcc) :
    Within [.fab, .cyc, .glb, .pim, .arb, .txe, .mvb, .can0, .can1, .gw, .grp, .safe, .rst, .cul, .evr, .pmu, .dram, .out] s (freezeEdge s k) :=
  refl.trans (commitAt_within ..) |>.trans (modesAt_within ..) |>.trans (forcesAt_within ..) |>.trans (drainedAt_within ..)
    |>.trans (safeOutAt_within ..) |>.trans (raiseChanged_within ..) |>.trans (.fold (fun _ _ => launchHandler_within ..) _ _) |>.upd
    |>.trans (packAndQueue_within ..)

theorem afterFreeze_within (s : State) (k : Mcc) (was : Bool) :
    Within [.ci, .fab, .cyc, .glb, .pim, .arb, .txe, .eth, .mvb, .can0, .can1, .gw, .tb, .grp, .safe, .tk, .upd, .pgv, .rst, .cul, .evr, .pmu, .clk,
      .dram, .host, .latches, .out] s (afterFreeze s k was) := by
  unfold afterFreeze
  extract_lets s1 s2 s3 s4 s5
  have h1 : Within [.ci, .fab, .cyc, .glb, .pim, .arb, .txe, .eth, .mvb, .can0, .can1, .gw, .tb, .grp, .safe, .tk, .upd, .pgv, .rst, .cul, .evr, .pmu,
      .clk, .dram, .host, .latches, .out] s s1 := refl.trans (swapDueAt_within ..) |>.trans (actBoundary_within ..) |>.trans (nextAct_within ..)
  have h2 : Within [.cyc, .safe, .can0, .can1, .out] s1 s2 := .ite (refl.trans (commitSo_within ..) |>.trans (canNmt_within ..)) refl
  have h3 : Within [.cyc, .eth, .txe, .glb, .tb, .grp, .safe, .rst, .evr, .pmu, .out] s2 s3 :=
    refl.trans (topoAt_within ..) |>.trans (quotasAt_within ..) |>.trans (trainTimeAt_within ..) |>.trans (correct_within ..)
  have h4 : Within [.glb, .out] s3 s4 := .fold (fun _ _ => releaseRuntime_within ..) _ _
  have h5 : Within [.pim, .arb, .txe, .eth, .can0, .can1, .gw, .grp, .evr, .pmu, .dram, .out] s4 s5 :=
    refl.trans (syncPulse_within ..) |>.trans (canModes_within ..) |>.trans (canPolls_within ..) |>.trans (pullRequests_within ..)
      |>.trans (deltaAt_within ..)
  exact h1.trans h2 |>.trans h3 |>.trans h4 |>.trans h5 |>.upd |>.trans (pairsAtBoundary_within ..) |>.trans (dumpAt_within ..)
    |>.trans (portsAt_within ..)

theorem boundary_within (s : State) :
    Within [.ci, .fab, .cyc, .glb, .pim, .arb, .txe, .eth, .mvb, .can0, .can1, .gw, .tb, .grp, .safe, .tk, .upd, .pgv, .rst, .cul, .evr, .pmu,
      .pin, .clk, .dram, .host, .latches, .out] s (boundary s) :=
  refl.trans (openBoundary_within ..) |>.trans (.fold (fun _ _ => pmuCount_within ..) _ _) |>.trans (freezeEdge_within ..)
    |>.trans (.cond .skip (afterFreeze_within ..))

theorem execBoundary_goes (s : State) :
    Goes [.ci, .fab, .cyc, .glb, .pim, .arb, .txe, .eth, .mvb, .can0, .can1, .gw, .tb, .grp, .safe, .tk, .upd, .pgv, .rst, .cul, .evr, .pmu,
      .pin, .clk, .dram, .host, .latches, .out] s (execBoundary s) := by
  refine .intro ?_
  split
  · exact refl.trans (boundary_within ..)
  · exact refl

/-! ### Machine/BusEvents.lean -/

theorem execLaunchFire_goes (q : Nat) (s : State) :
    Goes [.cyc, .pim, .txe, .mvb, .can0, .can1, .tb, .cul, .evr, .pmu, .pin, .clk, .dram, .out] s (execLaunchFire q s) := by
  refine .intro ?_
  split
  · split
    · exact refl
    · exact refl.trans (passTo_within ..) |>.trans (.cond (.seq (.set [.cyc]) (fireLaunch_within ..)) .skip)
  · split
    · exact refl
    · exact refl.trans (passTo_within ..) |>.trans (.cond (.seq (.set [.cyc]) (fireLaunch_within ..)) .skip)

/-- The pending outputs switch on only while nothing asks for off. -/
theorem SoOk.launch {f : Safe} (hc : f.cause = 0) (hs : f.failSilent = false) {l : List (SafeOut × Bool)}
    (hso : f.so = l.map (fun (o, c) => { o with cmd := c && !o.faultHigh && !o.faultLow })) : SoOk f := by
  intro o ho hf
  rw [hso] at ho
  obtain ⟨⟨x, c⟩, _, rfl⟩ := List.mem_map.1 ho
  rcases hf with k | k | k | k
  · exact absurd hc k
  · rw [hs] at k; contradiction
  · simp_all
  · simp_all

theorem execSoLaunch_goes (s : State) : Goes [.cyc, .tb, .safe, .cul, .pmu, .pin, .clk, .out] s (execSoLaunch s) := by
  refine .intro ?_
  obtain ⟨u, hu⟩ : ∃ u, passTo s (t0 s + 100000) = u := ⟨_, rfl⟩
  rw [hu]
  have h0 : Within [.tb, .cul, .pmu, .pin, .clk, .out] s u := hu ▸ passTo_within ..
  split
  · exact refl
  · extract_lets s1 _ s2
    have h2 : Within [.cyc, .tb, .safe, .cul, .pmu, .pin, .clk, .out] s s2 := refl.trans h0 |>.upd
    split
    · exact h2
    · next hn =>
      have hsafe : s2.safe = s.safe := h0.safe_eq
      simp only [not_or, Bool.not_eq_true, ne_eq, not_not] at hn
      refine h2.upd (safe := fun _ => .launch ?_ ?_ rfl)
      · exact (congrArg Safe.cause hsafe).trans hn.1
      · exact (congrArg Safe.failSilent hsafe).trans hn.2.1

theorem execMvbBasicPeriod_goes (j : Nat) (s : State) :
    Goes [.pim, .arb, .txe, .mvb, .gw, .tb, .cul, .evr, .pmu, .pin, .clk, .dram, .out] s (execMvbBasicPeriod j s) := by
  refine .intro ?_
  split
  · exact refl
  · refine .trans ?_ (.cond (.seq (.fold (fun _ _ => pollTag_within ..) _ _) (.set [.mvb])) (.set [.mvb]))
    refine .trans ?_ (endPoll_within ..)
    exact refl.trans (passTo_within ..) |>.upd

theorem keepStatus_within (s : State) (a : Nat) (data : List Byte) : Within [.mvb] s (keepStatus s a data) :=
  refl.upd

theorem execMvbPoll_goes (s : State) : Goes [.pim, .mvb, .tb, .cul, .pmu, .pin, .clk, .out] s (execMvbPoll s) := by
  refine .intro ?_
  split
  · exact refl
  · split
    · exact refl.upd
    · exact refl.trans (passTo_within ..) |>.trans (endPoll_within ..) |>.trans (pmuCount_within ..) |>.upd
        |>.trans (.cond (.cond (.seq (mvbAnswer_within ..) (keepStatus_within ..)) .skip)
        (by split; exacts [.mono (mvbAnswer_within ..), .mono .skip] : Within [.pim, .mvb, .out] _ _))

theorem execMvbMasterFrame_goes (f a : Nat) (lineA lineB : Bool) (s : State) :
    Goes [.cyc, .pim, .mvb, .evr, .pmu, .out] s (execMvbMasterFrame f a lineA lineB s) := by
  refine .intro ?_
  extract_lets s0 _ _ s1 ports low s2 _ _ s3
  have h0 : Within [.cyc, .pim, .mvb, .evr, .pmu, .out] s s0 := refl.trans (mvbLines_within ..)
  have h1 : Within [.cyc, .pim, .mvb, .evr, .pmu, .out] s s1 := (h0.trans (pmuCount_within s0 9 0x248 1)).upd
  have h2 : Within [.cyc, .pim, .mvb, .evr, .pmu, .out] s s2 := .ite (h1.trans (seeReference_within ..)) h1
  have h3 : Within [.cyc, .pim, .mvb, .evr, .pmu, .out] s s3 := (h2.trans (endPoll_within s2)).upd
  refine .ite refl (.ite h0 (.ite h1 (.ite h3 (.ite (.ite (h3.trans (mvbAnswer_within ..)) h3) ?_))))
  split
  · exact h3.trans (mvbAnswer_within ..)
  · exact h3

theorem execMvbSlaveFrame_goes (data : List Byte) (lineA lineB : Bool) (s : State) :
    Goes [.glb, .pim, .arb, .txe, .mvb, .gw, .grp, .evr, .pmu, .dram, .out] s (execMvbSlaveFrame data lineA lineB s) := by
  refine .intro ?_
  extract_lets s0 _ _ s1
  have h0 : Within [.glb, .pim, .arb, .txe, .mvb, .gw, .grp, .evr, .pmu, .dram, .out] s s0 := refl.trans (mvbLines_within ..)
  have h1 : Within [.glb, .pim, .arb, .txe, .mvb, .gw, .grp, .evr, .pmu, .dram, .out] s s1 := (h0.trans (pmuCount_within s0 9 0x248 1)).upd
  refine .ite refl (.ite h0 ?_)
  split
  · exact h1
  · refine .ite (h1.trans (keepStatus_within ..)) ?_
    split
    · exact .ite (h1.upd.trans (pollAnswered_within ..) |>.trans (gwReceive_within ..)) h1
    · exact h1.upd
    · exact h1

theorem execCanFrameReceive_goes (n : Nat) (f : CanFrame) (s : State) :
    Goes [.glb, .pim, .arb, .txe, .can0, .can1, .gw, .grp, .evr, .pmu, .dram, .out] s (execCanFrameReceive n f s) := by
  refine .intro ?_
  split
  · exact refl
  · exact refl.trans (.cond (.set [.grp]) .skip) |>.trans (.cond (.seq (pmuCount_within ..) (modCan_within ..))
      (.seq (pmuCount_within ..) (modCan_within ..))) |>.trans (.fold (fun _ _ => .seq (pollAnswered_within ..) (gwReceive_within ..)) _ _)
      |>.trans (.fold (fun _ _ => (by split; exacts [.mono (.seq (dramWrite_within ..) (finishTag_within ..)), .mono .skip] :
      Within [.pim, .arb, .txe, .evr, .pmu, .dram, .out] _ _)) _ _)

theorem execCanTxComplete_goes (n i : Nat) (s : State) :
    Goes [.pim, .arb, .txe, .can0, .can1, .tb, .cul, .evr, .pmu, .pin, .clk, .dram, .out] s (execCanTxComplete n i s) := by
  refine .intro ?_
  split
  · exact refl
  · next p _ =>
    extract_lets s1 s2
    have h1 : Within [.pim, .arb, .txe, .can0, .can1, .tb, .cul, .evr, .pmu, .pin, .clk, .dram, .out] s s1 :=
      refl.trans (passTo_within ..) |>.trans (pmuCount_within ..) |>.trans (modCan_within ..)
    have h2 : Within [.pim, .arb, .txe, .can0, .can1, .tb, .cul, .evr, .pmu, .pin, .clk, .dram, .out] s s2 := h1.trans (.set [.out])
    refine .ite refl ?_
    split
    · exact h2.trans (busDone_within ..)
    · split
      · exact h2.trans (finishTag_within ..)
      · exact h2
    · exact h2

theorem execCanTxTimeout_goes (n i : Nat) (s : State) :
    Goes [.pim, .arb, .txe, .can0, .can1, .evr, .pmu, .dram, .out] s (execCanTxTimeout n i s) := by
  refine .intro ?_
  split
  · exact refl
  · exact refl.trans (canErrors_within ..) |>.trans (modCan_within ..) |>.trans (canFail_within ..)

theorem execBusOff_goes (n : Nat) (s : State) : Goes [.pim, .arb, .txe, .can0, .can1, .evr, .pmu, .dram, .out] s (execBusOff n s) := by
  refine .intro ?_
  split
  · exact refl.trans (modCan_within ..) |>.trans (record_within ..) |>.trans (.fold (fun _ _ => canFail_within ..) _ _)
  · exact refl

theorem execBusOffRecoveryDone_goes (n : Nat) (s : State) : Goes [.can0, .can1] s (execBusOffRecoveryDone n s) :=
  .intro (refl.trans (modCan_within ..))

theorem execCanopenSync_goes (n : Nat) (s : State) : Goes [.can0, .can1, .tb, .cul, .pmu, .pin, .clk, .out] s (execCanopenSync n s) := by
  refine .intro ?_
  split
  · split
    · exact refl.trans (passTo_within ..) |>.trans (modCan_within ..) |>.trans (canQueue_within ..)
    · exact refl
  · exact refl

theorem execMvbRead_goes (q : SubReq) (port len : Nat) (addr : Word) (sem : Nat) (s : State) :
    Goes [.pim, .arb, .txe, .mvb, .can0, .can1, .gw, .evr, .pmu, .dram, .out] s (execMvbRead q port len addr sem s) := by
  refine .intro ?_
  split
  · exact refl.trans (submitBus_within ..)
  · exact refl.trans (submitRefused_within ..)

theorem execMvbWrite_goes (q : SubReq) (port len : Nat) (addr : Word) (sem : Nat) (s : State) :
    Goes [.pim, .arb, .txe, .mvb, .can0, .can1, .gw, .evr, .pmu, .dram, .out] s (execMvbWrite q port len addr sem s) := by
  refine .intro ?_
  extract_lets src
  exact .ite (refl.trans (submitBus_within ..)) (refl.trans (submitRefused_within ..))

theorem execCanSend_goes (q : SubReq) (n : Nat) (ident : Reg32) (len : Nat) (fd brs : Bool) (addr : Word) (sem : Nat) (s : State) :
    Goes [.pim, .arb, .txe, .mvb, .can0, .can1, .gw, .evr, .pmu, .dram, .out] s (execCanSend q n ident len fd brs addr sem s) := by
  refine .intro ?_
  split
  · exact refl.trans (submitBus_within ..)
  · exact refl.trans (submitRefused_within ..)

theorem execCanRecv_goes (q : SubReq) (n : Nat) (ident : Reg32) (len us : Nat) (addr : RecvTo) (s : State) :
    Goes [.pim, .arb, .txe, .mvb, .can0, .can1, .gw, .evr, .pmu, .dram, .out] s (execCanRecv q n ident len us addr s) :=
  .intro (refl.trans (submitBus_within ..))

theorem execSemAcq_goes (q : SubReq) (unit sem first last : Nat) (s : State) :
    Goes [.pim, .arb, .txe, .mvb, .can0, .can1, .gw, .evr, .pmu, .dram, .out] s (execSemAcq q unit sem first last s) :=
  .intro (refl.trans (submitBus_within ..))

theorem execSemRel_goes (q : SubReq) (sem : Nat) (s : State) :
    Goes [.pim, .arb, .txe, .mvb, .can0, .can1, .gw, .evr, .pmu, .dram, .out] s (execSemRel q sem s) :=
  .intro (refl.trans (submitBus_within ..))

/-! ### Machine/RegEvents.lean -/

theorem execRegWrite_goes (c : CallReq) (addr mask value : Reg32) (s : State) :
    Goes [.fab, .cyc, .glb, .pim, .arb, .txe, .eth, .mvb, .can0, .can1, .gw, .tb, .grp, .tk, .upd, .pgv, .rst, .cul, .evr, .pmu, .clk, .dram,
      .host, .latches, .out] s (execRegWrite c addr mask value s) :=
  .intro (refl.trans (regCall_within ..))

theorem execModuleReset_goes (c : CallReq) (s : State) :
    Goes [.fab, .cyc, .glb, .pim, .arb, .txe, .eth, .mvb, .can0, .can1, .gw, .tb, .grp, .tk, .upd, .pgv, .rst, .cul, .evr, .pmu, .clk, .dram,
      .host, .latches, .out] s (execModuleReset c s) :=
  .intro (refl.trans (regCall_within ..))

theorem execRuntimeReset_goes (c : CallReq) (s : State) :
    Goes [.fab, .cyc, .glb, .pim, .arb, .txe, .eth, .mvb, .can0, .can1, .gw, .tb, .grp, .tk, .upd, .pgv, .rst, .cul, .evr, .pmu, .clk, .dram,
      .host, .latches, .out] s (execRuntimeReset c s) :=
  .intro (refl.trans (regCall_within ..))

theorem execPortReset_goes (c : CallReq) (unit : BitVec 4) (s : State) :
    Goes [.fab, .cyc, .glb, .pim, .arb, .txe, .eth, .mvb, .can0, .can1, .gw, .tb, .grp, .tk, .upd, .pgv, .rst, .cul, .evr, .pmu, .clk, .dram,
      .host, .latches, .out] s (execPortReset c unit s) :=
  .intro (refl.trans (regCall_within ..))

theorem execPimFreeze_goes (c : CallReq) (banks : BitVec 16) (s : State) :
    Goes [.fab, .cyc, .glb, .pim, .arb, .txe, .eth, .mvb, .can0, .can1, .gw, .tb, .grp, .tk, .upd, .pgv, .rst, .cul, .evr, .pmu, .clk, .dram,
      .host, .latches, .out] s (execPimFreeze c banks s) :=
  .intro (refl.trans (regCall_within ..))

theorem execTxeQuotaWrite_goes (c : CallReq) (i : Fin 3) (lo hi : BitVec 11) (s : State) :
    Goes [.fab, .cyc, .glb, .pim, .arb, .txe, .eth, .mvb, .can0, .can1, .gw, .tb, .grp, .tk, .upd, .pgv, .rst, .cul, .evr, .pmu, .clk, .dram,
      .host, .latches, .out] s (execTxeQuotaWrite c i lo hi s) :=
  .intro (refl.trans (regCall_within ..))

theorem execPgvCapLimitWrite_goes (c : CallReq) (limit : BitVec 9) (s : State) :
    Goes [.fab, .cyc, .glb, .pim, .arb, .txe, .eth, .mvb, .can0, .can1, .gw, .tb, .grp, .tk, .upd, .pgv, .rst, .cul, .evr, .pmu, .clk, .dram,
      .host, .latches, .out] s (execPgvCapLimitWrite c limit s) :=
  .intro (refl.trans (regCall_within ..))

theorem evselWrite_within (s : State) (i n : Nat) (v : Reg32) : Within [.pmu] s (evselWrite s i n v) :=
  refl.trans (modPmu_within ..)

theorem execPmuEvselWrite_goes (core : Fin 8) (i : Fin 13) (n : Fin 8) (v : Reg32) (s : State) :
    Goes [.pmu, .host, .out] s (execPmuEvselWrite core i n v s) := by
  refine .intro ?_
  exact coreAccess_within (fun _ => refl.trans (evselWrite_within ..))

theorem execCounterClear_goes (core : Fin 8) (i : Fin 13) (s : State) : Goes [.pmu, .host, .out] s (execCounterClear core i s) := by
  refine .intro ?_
  exact coreAccess_within (fun _ => refl.trans (modPmu_within ..))

theorem dumpCtrl_within (s : State) (v : Reg32) : Within [.pmu] s (dumpCtrl s v) := by
  unfold dumpCtrl
  dsimp only
  split
  · exact refl.upd
  · split
    · exact refl
    · split
      · exact refl.upd
      · exact refl.upd

theorem execDumpArm_goes (core : Fin 8) (v : Reg32) (s : State) : Goes [.pmu, .host, .out] s (execDumpArm core v s) := by
  refine .intro ?_
  exact coreAccess_within (fun _ => refl.trans (dumpCtrl_within ..))

theorem pmuWrap_within (s : State) (i n : Nat) (spc : Word) : Within [.pmu, .out] s (pmuWrap s i n spc) :=
  refl.trans (modPmu_within ..) |>.trans (.cond .skip (.set [.pmu])) |>.trans (.cond (.set [.out]) .skip)

theorem execPmuCounterWrap_goes (i : Fin 13) (n : Fin 8) (spc : Word) (s : State) : Goes [.pmu, .out] s (execPmuCounterWrap i n spc s) := by
  refine .intro ?_
  split
  · exact refl
  · exact refl.trans (pmuWrap_within ..) |>.trans (.cond .skip (.cond (pmuWrap_within ..) (modPmu_within ..)))

theorem execDumpRecordWrite_goes (s : State) : Goes [.pim, .arb, .txe, .evr, .pmu, .dram, .out] s (execDumpRecordWrite s) := by
  refine .intro ?_
  split
  · split
    · exact refl
    · exact refl.trans (dramWrite_within ..) |>.trans (finishTag_within ..) |>.upd
  · exact refl

theorem pmuStore_within (s : State) (i off : Nat) (v : Reg32) : Within [.pmu] s (pmuStore s i off v) := by
  unfold pmuStore
  dsimp only
  split
  · exact refl.trans (modPmu_within ..)
  · split
    · exact refl.trans (modPmu_within ..)
    · split
      · exact refl.trans (modPmu_within ..)
      · split
        · exact refl.trans (modPmu_within ..)
        · split
          · exact refl.trans (modPmu_within ..)
          · split
            · exact refl.trans (modPmu_within ..)
            · split
              · exact refl.trans (modPmu_within ..)
              · split
                · exact refl.trans (evselWrite_within ..)
                · exact refl

theorem dumpStore_within (s : State) (off : Nat) (v : Reg32) : Within [.pmu] s (dumpStore s off v) := by
  unfold dumpStore
  split
  · exact refl.trans (dumpCtrl_within ..)
  · exact refl.upd
  · exact refl.upd
  · exact refl.upd
  · exact refl.upd
  · exact refl.upd
  · exact refl

theorem txeRingStore_within (s : State) (n off : Nat) (v : Reg32) : Within [.txe, .pmu, .dram, .out] s (txeRingStore s n off v) := by
  unfold txeRingStore
  split
  · exact refl.trans (modRing_within ..)
  · exact refl.trans (modRing_within ..) |>.trans (drainHeld_within ..)
  · exact refl.trans (modRing_within ..)

theorem ethStore_within (s : State) (i : EthNo) (off : Nat) (v : Reg32) : Within [.eth] s (ethStore s i off v) := by
  unfold ethStore
  split
  · exact refl.trans (modEth_within ..)
  · split
    · exact refl.trans (modEth_within ..)
    · split
      · exact refl.trans (modEth_within ..)
      · split
        · exact refl.trans (modEth_within ..)
        · split
          · exact refl.trans (modEth_within ..)
          · exact refl

theorem topoStore_within (s : State) (op : Bool) (v : Reg32) : Within [.eth, .evr] s (topoStore s op v) :=
  refl.upd |>.trans (.cond .skip (record_within ..))

theorem offloadStore_within (s : State) (off : Nat) (v : Reg32) : Within [.eth, .evr] s (offloadStore s off v) := by
  unfold offloadStore
  split
  · exact refl.trans (topoStore_within ..)
  · exact refl.trans (topoStore_within ..)
  · exact refl.upd
  · exact refl.upd
  · exact refl

theorem glStore_within (s : State) (l : GLink) (off : Nat) (v : Reg32) : Within [.grp] s (glStore s l off v) := by
  unfold glStore
  split
  · exact refl.trans (modBr_within ..)
  · exact refl.trans (modBr_within ..)
  · exact refl.trans (modBr_within ..)
  · exact refl

theorem slotStore_within (s : State) (n off : Nat) (v : Reg32) : Within [.tk] s (slotStore s n off v) := by
  unfold slotStore
  split
  · exact refl.trans (modSlot_within ..)
  · exact refl.trans (modSlot_within ..)
  · exact refl.trans (modSlot_within ..)
  · exact refl

theorem lowStore_within (s : State) (addr : Nat) (v : Reg32) :
    Within [.fab, .cyc, .glb, .pim, .arb, .txe, .tb, .upd, .pgv, .rst, .cul, .pmu, .clk, .dram, .out] s (lowStore s addr v) := by
  unfold lowStore
  split
  · exact refl.upd
  · exact refl.upd
  · exact refl.trans (requestStep_within ..)
  · exact refl.upd
  · exact refl.upd
  · exact refl.trans (fieldSet_within ..) |>.trans (cfieldWrite_within ..)
  · exact refl.upd
  · exact refl.upd
  · exact refl.upd
  · split
    · exact refl.upd
    · split
      · exact refl.trans (txeRingStore_within ..)
      · exact refl

theorem highStore_within (s : State) (addr : Nat) (v : Reg32) : Within [.eth, .mvb, .grp, .tk, .evr, .pmu] s (highStore s addr v) := by
  unfold highStore
  dsimp only
  split
  · split
    · exact refl.trans (ethStore_within ..)
    · exact refl.trans (offloadStore_within ..)
  · exact refl.trans (ethStore_within ..)
  · exact refl.trans (ethStore_within ..)
  · split
    · exact refl.upd
    · exact refl
  · exact refl.trans (glStore_within ..)
  · exact refl.trans (glStore_within ..)
  · split
    · exact refl.trans (slotStore_within ..)
    · exact refl
  · split
    · exact refl.trans (dumpStore_within ..)
    · split
      · exact refl.trans (pmuStore_within ..)
      · exact refl
  · exact refl

theorem violation_within (s : State) (addr : Nat) : Within [.tk, .evr] s (violation s addr) :=
  refl.upd |>.trans (record_within ..)

theorem protectedHit_within (s : State) (core : Fin 8) (addr : Nat) : Within [.tk, .evr, .out] s (protectedHit s core addr) :=
  refl.upd |>.trans (violation_within ..)

theorem regStore_within (s : State) (addr : Nat) (v : Reg32) :
    Within [.fab, .cyc, .glb, .pim, .arb, .txe, .eth, .mvb, .tb, .grp, .tk, .upd, .pgv, .rst, .cul, .evr, .pmu, .clk, .dram, .out] s
      (regStore s addr v) := by
  unfold regStore
  extract_lets s1
  have h1 : Within [.fab, .cyc, .glb, .pim, .arb, .txe, .eth, .mvb, .tb, .grp, .tk, .upd, .pgv, .rst, .cul, .evr, .pmu, .clk, .dram, .out] s s1 :=
    .ite (refl.trans (violation_within ..)) refl
  have hh := h1.trans (highStore_within s1 addr v)
  split
  · exact .ite h1 hh
  · exact .ite (h1.trans (lowStore_within ..)) hh

theorem execRegisterWrite_goes (core : Fin 8) (addr v : Reg32) (whole : Bool) (s : State) :
    Goes [.fab, .cyc, .glb, .pim, .arb, .txe, .eth, .mvb, .tb, .grp, .tk, .upd, .pgv, .rst, .cul, .evr, .pmu, .clk, .dram, .host,
      .out] s (execRegisterWrite core addr v whole s) := by
  refine .intro ?_
  refine coreAccess_within (fun _ => ?_)
  split
  · exact refl.upd
  · split
    · exact refl.trans (protectedHit_within ..)
    · split
      · exact refl.upd
      · exact refl.trans (regStore_within ..)

theorem execTkFieldWrite_goes (core : Fin 8) (addr v : Reg32) (s : State) :
    Goes [.fab, .cyc, .glb, .pim, .arb, .txe, .eth, .mvb, .tb, .grp, .tk, .upd, .pgv, .rst, .cul, .evr, .pmu, .clk, .dram, .host,
      .out] s (execTkFieldWrite core addr v s) := by
  refine .intro ?_
  refine coreAccess_within (fun _ => ?_)
  split
  · exact refl.trans (violation_within ..)
  · exact refl.trans (regStore_within ..)

theorem loadOf_within (s : State) (core : Fin 8) (v : Reg32) : Within [.out] s (loadOf s core v) :=
  refl.upd

theorem regLoad_within (s : State) (core : Fin 8) (a : Nat) : Within [.latches, .out] s (regLoad s core a) := by
  unfold regLoad
  split
  · exact refl.upd
  · split
    · exact refl
    · split
      · exact refl.upd |>.trans (loadOf_within ..)
      · exact refl.trans (loadOf_within ..)

theorem execProtectedAccess_goes (core : Fin 8) (addr : Word) (store : Bool) (s : State) :
    Goes [.tk, .evr, .host, .latches, .out] s (execProtectedAccess core addr store s) := by
  refine .intro ?_
  refine coreAccess_within (fun _ => ?_)
  split
  · split
    · exact refl.upd
    · exact refl
  · split
    · exact refl
    · split
      · split
        · exact refl
        · exact refl.trans (regLoad_within ..)
      · exact refl.trans (protectedHit_within ..)

theorem execSplitLoRead_goes (core : Fin 8) (addr : Reg32) (s : State) : Goes [.host, .latches, .out] s (execSplitLoRead core addr s) := by
  refine .intro ?_
  refine coreAccess_within (fun _ => ?_)
  split
  · exact refl
  · exact refl.upd |>.trans (loadOf_within ..)

theorem execSnapshotRead_goes (core : Fin 8) (off : Nat) (s : State) :
    Goes [.pim, .arb, .evr, .pmu, .host, .out] s (execSnapshotRead core off s) := by
  refine .intro ?_
  refine coreAccess_within (fun _ => ?_)
  split
  · exact refl
  · split
    · exact refl.upd
    · exact refl.trans (.cond .skip (pimMeet_within ..)) |>.trans (noteWait_within ..) |>.trans (pmuCount_within ..) |>.trans (pmuCount_within ..) |>.upd

theorem execGlbTaskRelRead_goes (core : Fin 8) (s : State) : Goes [.glb, .host, .out] s (execGlbTaskRelRead core s) := by
  refine .intro ?_
  exact coreAccess_within (fun _ => refl.upd |>.trans (loadOf_within ..))

theorem execGlbEvtStatRead_goes (core : Fin 8) (n : Fin 16) (s : State) : Goes [.glb, .host, .out] s (execGlbEvtStatRead core n s) := by
  refine .intro ?_
  exact coreAccess_within (fun _ => refl.upd |>.trans (loadOf_within ..))

theorem execFabTileMaxRead_goes (core : Fin 8) (n : TileNo) (s : State) : Goes [.fab, .host, .out] s (execFabTileMaxRead core n s) := by
  refine .intro ?_
  exact coreAccess_within (fun _ => refl.trans (modTile_within ..) |>.trans (loadOf_within ..))

theorem execPimaStgHwmRead_goes (core : Fin 8) (s : State) : Goes [.pim, .host, .out] s (execPimaStgHwmRead core s) := by
  refine .intro ?_
  exact coreAccess_within (fun _ => refl.upd |>.trans (loadOf_within ..))

theorem execPimaSnapStatRead_goes (core n : Fin 8) (s : State) : Goes [.pim, .host, .out] s (execPimaSnapStatRead core n s) := by
  refine .intro ?_
  exact coreAccess_within (fun _ => refl.upd |>.trans (loadOf_within ..))

theorem execPimaWaitRead_goes (core : Fin 8) (b : Fin 16) (s : State) : Goes [.arb, .host, .out] s (execPimaWaitRead core b s) := by
  refine .intro ?_
  exact coreAccess_within (fun _ => refl.upd |>.trans (loadOf_within ..))

theorem execSafeRespRead_goes (core : Fin 8) (s : State) : Goes [.safe, .host, .out] s (execSafeRespRead core s) := by
  refine .intro ?_
  exact coreAccess_within (fun _ => refl.upd |>.trans (loadOf_within ..))

theorem execPgvMeasRead_goes (core : Fin 8) (s : State) : Goes [.pgv, .host, .out] s (execPgvMeasRead core s) := by
  refine .intro ?_
  exact coreAccess_within (fun _ => refl.upd |>.trans (loadOf_within ..))

theorem execGlxDbRead_goes (core : Fin 8) (l : GLink) (s : State) : Goes [.grp, .host, .out] s (execGlxDbRead core l s) := by
  refine .intro ?_
  exact coreAccess_within (fun _ => refl.trans (modBr_within ..) |>.trans (loadOf_within ..))

theorem execTaskDone_goes (core : Fin 8) (task : Fin 32) (mccLo : BitVec 16) (s : State) :
    Goes [.glb, .host, .out] s (execTaskDone core task mccLo s) := by
  refine .intro ?_
  refine coreAccess_within (fun _ => ?_)
  split
  · split
    · exact refl.upd
    · exact refl
  · exact refl

theorem Goes.ofNext {w : List Part} {s : State} {o : Host.Outcome State Fault Refusal} (h : Goes w s o) : Within w s (ofNext s o) := by
  obtain ⟨t, rfl, ht⟩ := h
  exact ht

theorem replay_within (s : State) (c : Instr) :
    Within [.fab, .cyc, .glb, .pim, .arb, .txe, .eth, .mvb, .tb, .grp, .safe, .tk, .upd, .pgv, .rst, .cul, .evr, .pmu, .clk, .dram, .host,
      .latches, .out] s (replay s c) := by
  cases c
  case pmuEvselWrite => exact (execPmuEvselWrite_goes ..).ofNext.mono
  case counterClear => exact (execCounterClear_goes ..).ofNext.mono
  case dumpArm => exact (execDumpArm_goes ..).ofNext.mono
  case registerWrite => exact (execRegisterWrite_goes ..).ofNext.mono
  case tkFieldWrite => exact (execTkFieldWrite_goes ..).ofNext.mono
  case protectedAccess => exact (execProtectedAccess_goes ..).ofNext.mono
  case splitLoRead => exact (execSplitLoRead_goes ..).ofNext.mono
  case snapshotRead => exact (execSnapshotRead_goes ..).ofNext.mono
  case glbTaskRelRead => exact (execGlbTaskRelRead_goes ..).ofNext.mono
  case glbEvtStatRead => exact (execGlbEvtStatRead_goes ..).ofNext.mono
  case fabTileMaxRead => exact (execFabTileMaxRead_goes ..).ofNext.mono
  case pimaStgHwmRead => exact (execPimaStgHwmRead_goes ..).ofNext.mono
  case pimaSnapStatRead => exact (execPimaSnapStatRead_goes ..).ofNext.mono
  case pimaWaitRead => exact (execPimaWaitRead_goes ..).ofNext.mono
  case safeRespRead => exact (execSafeRespRead_goes ..).ofNext.mono
  case pgvMeasRead => exact (execPgvMeasRead_goes ..).ofNext.mono
  case glxDbRead => exact (execGlxDbRead_goes ..).ofNext.mono
  case taskDone => exact (execTaskDone_goes ..).ofNext.mono
  case evrReadRequest => exact (execEvrReadRequest_goes ..).ofNext.mono
  case acStepRequest => exact (execAcStepRequest_goes ..).ofNext.mono
  case watchdogKick => exact (execWatchdogKick_goes ..).ofNext.mono
  all_goals exact refl

theorem coresRun_within (s : State) :
    Within [.fab, .cyc, .glb, .pim, .arb, .txe, .eth, .mvb, .tb, .grp, .safe, .tk, .upd, .pgv, .rst, .cul, .evr, .pmu, .clk, .dram, .host,
      .latches, .out] s (coresRun s) := by
  unfold coresRun
  split
  · exact refl
  · exact refl.upd |>.trans (.fold (fun _ _ => replay_within ..) _ _)

theorem execClkAcStepDone_goes (locked : Bool) (s : State) :
    Goes [.fab, .cyc, .glb, .pim, .arb, .txe, .eth, .mvb, .can0, .can1, .gw, .tb, .grp, .safe, .tk, .upd, .pgv, .rst, .cul, .evr, .pmu, .clk,
      .dram, .host, .latches, .out] s (execClkAcStepDone locked s) := by
  refine .intro ?_
  split
  · exact refl
  · exact refl.upd |>.trans (.cond (coresRun_within ..) (.seq (.set [.clk]) (clockReact_within ..)))

theorem execPowerWindow_goes (input mv ma : Nat) (units : List Nat) (s : State) :
    Goes [.fab, .cyc, .glb, .pim, .arb, .txe, .eth, .mvb, .can0, .can1, .gw, .tb, .grp, .safe, .tk, .upd, .pgv, .rst, .cul, .evr, .pmu, .clk,
      .dram, .host, .latches, .out] s (execPowerWindow input mv ma units s) := by
  refine .intro ?_
  split
  · exact refl
  · split
    · exact refl.trans (powerWindow_within ..) |>.trans (coresRun_within ..)
    · exact refl.trans (powerWindow_within ..)

/-! ### Machine/TileMem.lean -/

theorem execLd_goes (n : TileNo) (f : MF) (s : State) : Goes [.fab, .glb, .rst, .evr, .pmu, .out] s (execLd n f s) := by
  refine .intro (issueMem_within _ _ _ _ _ fun t p m h hw e => ?_)
  dsimp only at e
  split at e
  · cases e
    exact hw
  · cases e

theorem execSt_goes (n : TileNo) (f : MF) (s : State) : Goes [.fab, .glb, .rst, .evr, .pmu, .out] s (execSt n f s) := by
  refine .intro (issueMem_within _ _ _ _ _ fun t p m h hw e => ?_)
  dsimp only at e
  split at e
  · cases e
    exact Mem.writeLE_wf hw _ _ _
  · cases e

theorem execLoop_goes (n : TileNo) (f : LPF) (s : State) : Goes [.fab, .glb, .rst, .evr, .pmu, .out] s (execLoop n f s) :=
  .intro (refl.trans (issue_within ..))

theorem execBr_goes (n : TileNo) (f : BF) (s : State) : Goes [.fab, .glb, .rst, .evr, .pmu, .out] s (execBr n f s) :=
  .intro (refl.trans (issue_within ..))

theorem execBrf_goes (n : TileNo) (f : BF) (s : State) : Goes [.fab, .glb, .rst, .evr, .pmu, .out] s (execBrf n f s) :=
  .intro (refl.trans (issue_within ..))

theorem execBrk_goes (n : TileNo) (f : BF) (s : State) : Goes [.fab, .glb, .rst, .evr, .pmu, .out] s (execBrk n f s) :=
  .intro (refl.trans (issue_within ..))

theorem issueIn_within (s : State) (n : TileNo) (op : Nat) (f : TFields) (handler : Bool) (h : Tile → HalfBundle) (eff : Tile → Tile)
    (he : ∀ t, TileOk t → TileOk (eff t) := by exact fun _ h => h) : Within [.fab, .glb, .rst, .evr, .pmu, .out] s
      (issueIn s n op f handler h eff) := by
  have hm : Within [.fab, .glb, .rst, .evr, .pmu, .out] s (modTile (issue s n .s0 op f h) n eff) :=
    refl.trans (issue_within ..) |>.trans (modTile_within _ _ _ fun _ => he)
  have ht : Within [.fab, .glb, .rst, .evr, .pmu, .out] s (trapWord s n .s0) := refl.trans (trapWord_within ..)
  unfold issueIn
  refine .ite refl ?_
  split
  · exact .ite hm ht
  · exact .ite ht hm



theorem execXmit_goes (n : TileNo) (xfer : BitVec 13) (s : State) : Goes [.fab, .glb, .rst, .evr, .pmu, .out] s (execXmit n xfer s) := by
  refine .intro ?_
  split
  · exact refl
  · exact refl.trans (issue_within ..) |>.trans (modTile_within ..)

theorem execLaunch_goes (n : TileNo) (ra : GReg) (s : State) : Goes [.fab, .glb, .rst, .evr, .pmu, .out] s (execLaunch n ra s) :=
  .intro (issueIn_within ..)

theorem execSlack_goes (n : TileNo) (s : State) : Goes [.fab, .glb, .rst, .evr, .pmu, .out] s (execSlack n s) := by
  unfold execSlack
  extract_lets p s1
  have h1 : Within [.fab, .glb, .rst, .evr, .pmu, .out] s s1 := issueIn_within ..
  exact .intro (.ite h1 (h1.trans (pmuCount_within ..)))

theorem execEndOp_goes (n : TileNo) (s : State) : Goes [.fab, .glb, .rst, .evr, .pmu, .out] s (execEndOp n s) :=
  .intro (issue_within ..)

theorem execEvrec_goes (n : TileNo) (f : EF) (s : State) : Goes [.fab, .glb, .rst, .evr, .pmu, .out] s (execEvrec n f s) := by
  refine .intro ?_
  extract_lets s1
  have h1 : Within [.fab, .glb, .rst, .evr, .pmu, .out] s s1 := issue_within ..
  refine .ite refl (.ite (refl.trans (trapWord_within ..)) (.ite h1 ?_))
  split
  · exact h1.trans (modTile_within ..)
  · exact h1.trans (modTile_within ..)

/-! ### Machine/TileFb.lean -/

theorem issueFb_within (s : State) (n : TileNo) (op : Nat) (f : FBF) (size : Nat) (g : Tile → Nat → Mem × Res)
    (hg : ∀ t a, t.mem.wf = true → (g t a).1.wf = true) : Within [.fab, .glb, .rst, .evr, .pmu, .out] s (issueFb s n op f size g) := by
  refine issueMem_within _ _ _ _ _ fun t p m h hw e => ?_
  rcases ite_eq_iff.1 e with ⟨_, e⟩ | ⟨_, e⟩
  · cases e
    exact hg t _ hw
  · cases e

theorem timer_wf (step : TimerSt → Bool → Int → Int → TimerSt) (f : FBF) (t : Tile) (a : Nat) (h : t.mem.wf = true) :
    (timer step f t a).1.wf = true :=
  Mem.writeLE_wf (Mem.writeLE_wf (setFld_wf h _ _) _ _ _) _ _ _

theorem execTon_goes (n : TileNo) (f : FBF) (s : State) : Goes [.fab, .glb, .rst, .evr, .pmu, .out] s (execTon n f s) :=
  .intro (issueFb_within _ _ _ _ _ _ (timer_wf _ f))

theorem execTof_goes (n : TileNo) (f : FBF) (s : State) : Goes [.fab, .glb, .rst, .evr, .pmu, .out] s (execTof n f s) :=
  .intro (issueFb_within _ _ _ _ _ _ (timer_wf _ f))

theorem execTp_goes (n : TileNo) (f : FBF) (s : State) : Goes [.fab, .glb, .rst, .evr, .pmu, .out] s (execTp n f s) :=
  .intro (issueFb_within _ _ _ _ _ _ (timer_wf _ f))

theorem edge_wf (rising : Bool) (f : FBF) (t : Tile) (a : Nat) (h : t.mem.wf = true) : (edge rising f t a).1.wf = true := Mem.write_wf h _ _

theorem execRtrig_goes (n : TileNo) (f : FBF) (s : State) : Goes [.fab, .glb, .rst, .evr, .pmu, .out] s (execRtrig n f s) :=
  .intro (issueFb_within _ _ _ _ _ _ (edge_wf _ f))

theorem execFtrig_goes (n : TileNo) (f : FBF) (s : State) : Goes [.fab, .glb, .rst, .evr, .pmu, .out] s (execFtrig n f s) :=
  .intro (issueFb_within _ _ _ _ _ _ (edge_wf _ f))

theorem counter_wf (up : Bool) (f : FBF) (t : Tile) (a : Nat) (h : t.mem.wf = true) : (counter up f t a).1.wf = true :=
  Mem.write_wf (setFld_wf h _ _) _ _

theorem execCtu_goes (n : TileNo) (f : FBF) (s : State) : Goes [.fab, .glb, .rst, .evr, .pmu, .out] s (execCtu n f s) :=
  .intro (issueFb_within _ _ _ _ _ _ (counter_wf _ f))

theorem execCtd_goes (n : TileNo) (f : FBF) (s : State) : Goes [.fab, .glb, .rst, .evr, .pmu, .out] s (execCtd n f s) :=
  .intro (issueFb_within _ _ _ _ _ _ (counter_wf _ f))

theorem pt1_wf (f : FBF) (t : Tile) (a : Nat) (h : t.mem.wf = true) : (pt1 f t a).1.wf = true := by
  have h1 := Mem.writeLE_wf h (a + 12) 4 (mccNow t).toNat
  unfold pt1
  dsimp only
  split
  · exact h1
  · exact Mem.writeLE_wf (Mem.writeLE_wf h1 _ _ _) _ _ _

theorem execPt1_goes (n : TileNo) (f : FBF) (s : State) : Goes [.fab, .glb, .rst, .evr, .pmu, .out] s (execPt1 n f s) :=
  .intro (issueFb_within _ _ _ _ _ _ (pt1_wf f))

theorem ramp_wf (f : FBF) (t : Tile) (a : Nat) (h : t.mem.wf = true) : (ramp f t a).1.wf = true := by
  have h1 := Mem.writeLE_wf h (a + 12) 4 (mccNow t).toNat
  unfold ramp
  extract_lets
  split
  · exact h1
  · exact Mem.writeLE_wf (Mem.writeLE_wf h1 _ _ _) _ _ _

theorem execRamp_goes (n : TileNo) (f : FBF) (s : State) : Goes [.fab, .glb, .rst, .evr, .pmu, .out] s (execRamp n f s) :=
  .intro (issueFb_within _ _ _ _ _ _ (ramp_wf f))

theorem pid_wf (f : FBF) (t : Tile) (a : Nat) (h : t.mem.wf = true) : (pid f t a).1.wf = true := by
  have h1 := Mem.writeLE_wf h (a + 0x24) 4 (mccNow t).toNat
  unfold pid
  extract_lets
  split
  · exact h1
  · exact Mem.writeLE_wf (Mem.writeLE_wf (Mem.writeLE_wf (Mem.writeLE_wf h1 _ _ _) _ _ _) _ _ _) _ _ _

theorem execPid_goes (n : TileNo) (f : FBF) (s : State) : Goes [.fab, .glb, .rst, .evr, .pmu, .out] s (execPid n f s) :=
  .intro (issueFb_within _ _ _ _ _ _ (pid_wf f))

/-! ### Every command -/

/-- All parts but the queue of waiting commands. -/
def Part.commands : List Part :=
  [.ci, .fab, .cyc, .glb, .pim, .arb, .txe, .eth, .mvb, .can0, .can1, .gw, .tb, .grp, .safe, .tk, .upd, .pgv, .rst, .cul, .evr, .pmu,
    .pin, .clk, .dram,
    .host, .latches, .out]

theorem Part.mem_commands {p : Part} (h : p ≠ .pending) : p ∈ commands := by
  cases p
  case pending => exact absurd rfl h
  all_goals decide

theorem Goes.command {w : List Part} {s : State} {o : Host.Outcome State Fault Refusal} (h : Goes w s o)
    (hw : w.contains .pending = false := by rfl) : Goes Part.commands s o := by
  obtain ⟨t, e, ht⟩ := h
  refine ⟨t, e, ht.mono fun p hp => Part.mem_commands fun k => ?_⟩
  rw [← k, List.contains_iff_mem.2 hp] at hw
  contradiction

theorem exec_goes (c : Instr) (s : State) : Goes Part.commands s (exec c s) := by
  cases c with
  | powerUpThreshold => exact (execPowerUpThreshold_goes ..).command
  | powerGood => exact (execPowerGood_goes ..).command
  | ledTestPhaseEnd => exact (execLedTestPhaseEnd_goes ..).command
  | trustedKernelStart => exact (execTrustedKernelStart_goes ..).command
  | activePlaneLoaded => exact (execActivePlaneLoaded_goes ..).command
  | powerFailWarning => exact (execPowerFailWarning_goes ..).command
  | overVoltageLockout => exact (execOverVoltageLockout_goes ..).command
  | warningClear => exact (execWarningClear_goes ..).command
  | holdUpCutoff => exact (execHoldUpCutoff_goes ..).command
  | overvoltageSustained => exact (execOvervoltageSustained_goes ..).command
  | wakeAccept => exact (execWakeAccept_goes ..).command
  | wakeExpiry => exact (execWakeExpiry_goes ..).command
  | rstN => exact (execRstN_goes ..).command
  | moduleResetTakeEffect => exact (execModuleResetTakeEffect_goes ..).command
  | syncInEdge => exact (execSyncInEdge_goes ..).command
  | thermalLimit => exact (execThermalLimit_goes ..).command
  | thermalDerate => exact (execThermalDerate_goes ..).command
  | clockFault => exact (execClockFault_goes ..).command
  | clkAcStepDone => exact (execClkAcStepDone_goes ..).command
  | boundary => exact (execBoundary_goes ..).command
  | settlingComplete => exact (execSettlingComplete_goes ..).command
  | taskRelease => exact (execTaskRelease_goes ..).command
  | fillEnd => exact (execFillEnd_goes ..).command
  | drainComplete => exact (execDrainComplete_goes ..).command
  | deadlineExpiry => exact (execDeadlineExpiry_goes ..).command
  | scheduledTransfer => exact (execScheduledTransfer_goes ..).command
  | eventDispatch => exact (execEventDispatch_goes ..).command
  | handlerEnd => exact (execHandlerEnd_goes ..).command
  | scratchpadScrub => exact (execScratchpadScrub_goes ..).command
  | scratchpadEccError => exact (execScratchpadEccError_goes ..).command
  | linkEccError => exact (execLinkEccError_goes ..).command
  | fabricReset => exact (execFabricReset_goes ..).command
  | fabricResetDone => exact (execFabricResetDone_goes ..).command
  | tileReset => exact (execTileReset_goes ..).command
  | tileResetDone => exact (execTileResetDone_goes ..).command
  | nop => exact (execNop_goes ..).command
  | mov => exact (execMov_goes ..).command
  | limm => exact (execLimm_goes ..).command
  | add => exact (execAdd_goes ..).command
  | addi => exact (execAddi_goes ..).command
  | sub => exact (execSub_goes ..).command
  | neg => exact (execNeg_goes ..).command
  | abs => exact (execAbs_goes ..).command
  | min => exact (execMin_goes ..).command
  | max => exact (execMax_goes ..).command
  | lim => exact (execLim_goes ..).command
  | mul => exact (execMul_goes ..).command
  | mac => exact (execMac_goes ..).command
  | div => exact (execDiv_goes ..).command
  | mod => exact (execMod_goes ..).command
  | sqrt => exact (execSqrt_goes ..).command
  | and => exact (execAnd_goes ..).command
  | or => exact (execOr_goes ..).command
  | xor => exact (execXor_goes ..).command
  | not => exact (execNot_goes ..).command
  | shl => exact (execShl_goes ..).command
  | shr => exact (execShr_goes ..).command
  | cmp => exact (execCmp_goes ..).command
  | cmpi => exact (execCmpi_goes ..).command
  | sel => exact (execSel_goes ..).command
  | cvt => exact (execCvt_goes ..).command
  | ld => exact (execLd_goes ..).command
  | st => exact (execSt_goes ..).command
  | loop => exact (execLoop_goes ..).command
  | br => exact (execBr_goes ..).command
  | brf => exact (execBrf_goes ..).command
  | brk => exact (execBrk_goes ..).command
  | ton => exact (execTon_goes ..).command
  | tof => exact (execTof_goes ..).command
  | tp => exact (execTp_goes ..).command
  | rtrig => exact (execRtrig_goes ..).command
  | ftrig => exact (execFtrig_goes ..).command
  | ctu => exact (execCtu_goes ..).command
  | ctd => exact (execCtd_goes ..).command
  | pt1 => exact (execPt1_goes ..).command
  | ramp => exact (execRamp_goes ..).command
  | pid => exact (execPid_goes ..).command
  | qmrg => exact (execQmrg_goes ..).command
  | qtst => exact (execQtst_goes ..).command
  | qset => exact (execQset_goes ..).command
  | launch => exact (execLaunch_goes ..).command
  | evrec => exact (execEvrec_goes ..).command
  | xmit => exact (execXmit_goes ..).command
  | slack => exact (execSlack_goes ..).command
  | endOp => exact (execEndOp_goes ..).command
  | getf => exact (execGetf_goes ..).command
  | launchFire => exact (execLaunchFire_goes ..).command
  | soLaunch => exact (execSoLaunch_goes ..).command
  | gateEntry => exact (execGateEntry_goes ..).command
  | frameTransmit => exact (execFrameTransmit_goes ..).command
  | frameReceive => exact (execFrameReceive_goes ..).command
  | sdtSkewTimeout => exact (execSdtSkewTimeout_goes ..).command
  | linkUp => exact (execLinkUp_goes ..).command
  | linkDown => exact (execLinkDown_goes ..).command
  | prpSupervision => exact (execPrpSupervision_goes ..).command
  | prpEntryAge => exact (execPrpEntryAge_goes ..).command
  | pdCounterForget => exact (execPdCounterForget_goes ..).command
  | arpRefresh => exact (execArpRefresh_goes ..).command
  | mdReassemblyTimeout => exact (execMdReassemblyTimeout_goes ..).command
  | hostFrameSubmit => exact (execHostFrameSubmit_goes ..).command
  | mvbBasicPeriod => exact (execMvbBasicPeriod_goes ..).command
  | mvbPoll => exact (execMvbPoll_goes ..).command
  | mvbMasterFrame => exact (execMvbMasterFrame_goes ..).command
  | mvbSlaveFrame => exact (execMvbSlaveFrame_goes ..).command
  | canFrameReceive => exact (execCanFrameReceive_goes ..).command
  | canTxComplete => exact (execCanTxComplete_goes ..).command
  | canTxTimeout => exact (execCanTxTimeout_goes ..).command
  | busOff => exact (execBusOff_goes ..).command
  | busOffRecoveryDone => exact (execBusOffRecoveryDone_goes ..).command
  | canopenSync => exact (execCanopenSync_goes ..).command
  | semaphoreRevoke => exact (execSemaphoreRevoke_goes ..).command
  | postedWriteFailure => exact (execPostedWriteFailure_goes ..).command
  | transactionComplete => exact (execTransactionComplete_goes ..).command
  | tagTimeout => exact (execTagTimeout_goes ..).command
  | retryReissue => exact (execRetryReissue_goes ..).command
  | receiveBufferDequeue => exact (execReceiveBufferDequeue_goes ..).command
  | stagingEntryFree => exact (execStagingEntryFree_goes ..).command
  | holdCutoff => exact (execHoldCutoff_goes ..).command
  | quarantineEnd => exact (execQuarantineEnd_goes ..).command
  | sigWrite => exact (execSigWrite_goes ..).command
  | sigAtomic => exact (execSigAtomic_goes ..).command
  | dmaCopy => exact (execDmaCopy_goes ..).command
  | mdReceive => exact (execMdReceive_goes ..).command
  | mdNotify => exact (execMdNotify_goes ..).command
  | mdRequest => exact (execMdRequest_goes ..).command
  | mdReply => exact (execMdReply_goes ..).command
  | mdReplyConfirm => exact (execMdReplyConfirm_goes ..).command
  | mdConfirm => exact (execMdConfirm_goes ..).command
  | mvbRead => exact (execMvbRead_goes ..).command
  | mvbWrite => exact (execMvbWrite_goes ..).command
  | canSend => exact (execCanSend_goes ..).command
  | canRecv => exact (execCanRecv_goes ..).command
  | semAcq => exact (execSemAcq_goes ..).command
  | semRel => exact (execSemRel_goes ..).command
  | glRead => exact (execGlRead_goes ..).command
  | glWrite => exact (execGlWrite_goes ..).command
  | glSemAcq => exact (execGlSemAcq_goes ..).command
  | glSemRel => exact (execGlSemRel_goes ..).command
  | glDoorbell => exact (execGlDoorbell_goes ..).command
  | snapshotRead => exact (execSnapshotRead_goes ..).command
  | splitLoRead => exact (execSplitLoRead_goes ..).command
  | taskDone => exact (execTaskDone_goes ..).command
  | glbTaskRelRead => exact (execGlbTaskRelRead_goes ..).command
  | glbEvtStatRead => exact (execGlbEvtStatRead_goes ..).command
  | fabTileMaxRead => exact (execFabTileMaxRead_goes ..).command
  | pimaStgHwmRead => exact (execPimaStgHwmRead_goes ..).command
  | pimaSnapStatRead => exact (execPimaSnapStatRead_goes ..).command
  | pimaWaitRead => exact (execPimaWaitRead_goes ..).command
  | safeRespRead => exact (execSafeRespRead_goes ..).command
  | pgvMeasRead => exact (execPgvMeasRead_goes ..).command
  | glxDbRead => exact (execGlxDbRead_goes ..).command
  | evrReadRequest => exact (execEvrReadRequest_goes ..).command
  | evrReadComplete => exact (execEvrReadComplete_goes ..).command
  | watchdogKick => exact (execWatchdogKick_goes ..).command
  | watchdogExpiry => exact (execWatchdogExpiry_goes ..).command
  | acStepRequest => exact (execAcStepRequest_goes ..).command
  | pmuEvselWrite => exact (execPmuEvselWrite_goes ..).command
  | counterClear => exact (execCounterClear_goes ..).command
  | dumpArm => exact (execDumpArm_goes ..).command
  | pmuCounterWrap => exact (execPmuCounterWrap_goes ..).command
  | dumpRecordWrite => exact (execDumpRecordWrite_goes ..).command
  | tkFieldWrite => exact (execTkFieldWrite_goes ..).command
  | protectedAccess => exact (execProtectedAccess_goes ..).command
  | registerWrite => exact (execRegisterWrite_goes ..).command
  | sessionOpen => exact (execSessionOpen_goes ..).command
  | sessionClose => exact (execSessionClose_goes ..).command
  | sigmapRead => exact (execSigmapRead_goes ..).command
  | runtimeReady => exact (execRuntimeReady_goes ..).command
  | forceList => exact (execForceList_goes ..).command
  | startWarm => exact (execStartWarm_goes ..).command
  | startCold => exact (execStartCold_goes ..).command
  | stop => exact (execStop_goes ..).command
  | hold => exact (execHold_goes ..).command
  | step => exact (execStep_goes ..).command
  | automaticStart => exact (execAutomaticStart_goes ..).command
  | dormantEnter => exact (execDormantEnter_goes ..).command
  | forceSet => exact (execForceSet_goes ..).command
  | forceClear => exact (execForceClear_goes ..).command
  | forceClearAll => exact (execForceClearAll_goes ..).command
  | timeAccept => exact (execTimeAccept_goes ..).command
  | safeAck => exact (execSafeAck_goes ..).command
  | roleSwap => exact (execRoleSwap_goes ..).command
  | groupMaintEnter => exact (execGroupMaintEnter_goes ..).command
  | groupMaintLeave => exact (execGroupMaintLeave_goes ..).command
  | groupClearLatent => exact (execGroupClearLatent_goes ..).command
  | maintEnable => exact (execMaintEnable_goes ..).command
  | maintDisable => exact (execMaintDisable_goes ..).command
  | regWrite => exact (execRegWrite_goes ..).command
  | moduleReset => exact (execModuleReset_goes ..).command
  | runtimeReset => exact (execRuntimeReset_goes ..).command
  | portReset => exact (execPortReset_goes ..).command
  | pimFreeze => exact (execPimFreeze_goes ..).command
  | txeQuotaWrite => exact (execTxeQuotaWrite_goes ..).command
  | pgvCapLimitWrite => exact (execPgvCapLimitWrite_goes ..).command
  | settingsReset => exact (execSettingsReset_goes ..).command
  | tileDebugRead => exact (execTileDebugRead_goes ..).command
  | evrClear => exact (execEvrClear_goes ..).command
  | keystoreLoad => exact (execKeystoreLoad_goes ..).command
  | updMsg => exact (execUpdMsg_goes ..).command
  | updActivate => exact (execUpdActivate_goes ..).command
  | updConfirm => exact (execUpdConfirm_goes ..).command
  | updRevert => exact (execUpdRevert_goes ..).command
  | updAbort => exact (execUpdAbort_goes ..).command
  | updSlotInfo => exact (execUpdSlotInfo_goes ..).command
  | sessionExpiry => exact (execSessionExpiry_goes ..).command
  | lockoutEnd => exact (execLockoutEnd_goes ..).command
  | shadowLoadDone => exact (execShadowLoadDone_goes ..).command
  | manifest => exact (execManifest_goes ..).command
  | manifestReply src h es => exact (execManifestReply_goes src h es s).command
  | segment => exact (execSegment_goes ..).command
  | statusReq => exact (execStatusReq_goes ..).command
  | statusReply src h es m => exact (execStatusReply_goes src h es m s).command
  | commandActivate => exact (execCommandActivate_goes ..).command
  | commandConfirm => exact (execCommandConfirm_goes ..).command
  | commandRevert => exact (execCommandRevert_goes ..).command
  | commandAbort => exact (execCommandAbort_goes ..).command
  | commandReply src h es => exact (execCommandReply_goes src h es s).command
  | verificationDone => exact (execVerificationDone_goes ..).command
  | updateSessionIdle => exact (execUpdateSessionIdle_goes ..).command
  | healthReached => exact (execHealthReached_goes ..).command
  | lehrEnd => exact (execLehrEnd_goes ..).command
  | powerWindow => exact (execPowerWindow_goes ..).command
  | retentionPoint => exact (execRetentionPoint_goes ..).command
  | countersRecordWrite => exact (execCountersRecordWrite_goes ..).command
  | flushComplete => exact (execFlushComplete_goes ..).command
  | backgroundCopy => exact (execBackgroundCopy_goes ..).command
  | timeStep => exact (execTimeStep_goes ..).command
  | announceTimeout => exact (execAnnounceTimeout_goes ..).command
  | syncTimeout => exact (execSyncTimeout_goes ..).command
  | ptpDelayReq => exact (execPtpDelayReq_goes ..).command
  | ptpMasterSend => exact (execPtpMasterSend_goes ..).command
  | gmTimeValid => exact (execGmTimeValid_goes ..).command
  | glLinkUp => exact (execGlLinkUp_goes ..).command
  | glLinkDown => exact (execGlLinkDown_goes ..).command
  | hbSend => exact (execHbSend_goes ..).command
  | hb => exact (execHb_goes ..).command
  | hbRelay => exact (execHbRelay_goes ..).command
  | heartbeatCheck => exact (execHeartbeatCheck_goes ..).command
  | failSilentIndication => exact (execFailSilentIndication_goes ..).command
  | orderTakeover => exact (execOrderTakeover_goes ..).command
  | orderExclude => exact (execOrderExclude_goes ..).command
  | orderAdoptMcc => exact (execOrderAdoptMcc_goes ..).command
  | orderRoles => exact (execOrderRoles_goes ..).command
  | ack => exact (execAck_goes ..).command
  | targetModeCommand => exact (execTargetModeCommand_goes ..).command
  | targetForceChange => exact (execTargetForceChange_goes ..).command
  | targetTimeStep => exact (execTargetTimeStep_goes ..).command
  | targetRoleSwap => exact (execTargetRoleSwap_goes ..).command
  | targetMaintEnter => exact (execTargetMaintEnter_goes ..).command
  | targetMaintLeave => exact (execTargetMaintLeave_goes ..).command
  | propose => exact (execPropose_goes ..).command
  | accept => exact (execAccept_goes ..).command
  | commit => exact (execCommit_goes ..).command
  | abort => exact (execAbort_goes ..).command
  | delta => exact (execDelta_goes ..).command
  | deltaEnd => exact (execDeltaEnd_goes ..).command
  | inputAgreement => exact (execInputAgreement_goes ..).command
  | voteSend => exact (execVoteSend_goes ..).command
  | vote => exact (execVote_goes ..).command
  | voteDecide => exact (execVoteDecide_goes ..).command
  | mirror => exact (execMirror_goes ..).command
  | rdReq => exact (execRdReq_goes ..).command
  | wrReq => exact (execWrReq_goes ..).command
  | semAcqFrame => exact (execSemAcqFrame_goes ..).command
  | semRelFrame => exact (execSemRelFrame_goes ..).command
  | doorbell => exact (execDoorbell_goes ..).command
  | xferReq => exact (execXferReq_goes ..).command
  | rdRsp => exact (execRdRsp_goes ..).command
  | wrRsp => exact (execWrRsp_goes ..).command
  | semRsp => exact (execSemRsp_goes ..).command
  | retry => exact (execRetry_goes ..).command
  | xferData => exact (execXferData_goes ..).command
  | credit => exact (execCredit_goes ..).command
  | creditReturnTimer => exact (execCreditReturnTimer_goes ..).command
  | formingTimeout => exact (execFormingTimeout_goes ..).command
  | probationEnd => exact (execProbationEnd_goes ..).command
  | rotationMinute => exact (execRotationMinute_goes ..).command
  | driveCheck => exact (execDriveCheck_goes ..).command
  | safetyTaskEnd => exact (execSafetyTaskEnd_goes ..).command
  | soReadback => exact (execSoReadback_goes ..).command
  | soTestPulse => exact (execSoTestPulse_goes ..).command
  | inputTestPulse => exact (execInputTestPulse_goes ..).command
  | safeInputChange => exact (execSafeInputChange_goes ..).command
  | inputDiscrepancyTimeout => exact (execInputDiscrepancyTimeout_goes ..).command
  | inputFaultClear => exact (execInputFaultClear_goes ..).command
  | livenessPulse => exact (execLivenessPulse_goes ..).command
  | canaryWatch => exact (execCanaryWatch_goes ..).command
  | failSilence => exact (execFailSilence_goes ..).command
  | canaryReset => exact (execCanaryReset_goes ..).command
  | sramScrub => exact (execSramScrub_goes ..).command
  | coreSelfTest => exact (execCoreSelfTest_goes ..).command
  | rstNRelease => exact (execRstNRelease_goes ..).command
  | vstbyBelowMinimum => exact (execVstbyBelowMinimum_goes ..).command
  | vstbyReturn => exact (execVstbyReturn_goes ..).command
  | portResetDone => exact (execPortResetDone_goes ..).command
  | clusterRelease => exact (execClusterRelease_goes ..).command
  | lehrLeftWrite => exact (execLehrLeftWrite_goes ..).command
  -- The call CONTINUE: its constructor's name is a keyword.
  | _ => exact (execContinue_goes ..).command

/-! ### Every step -/


/-- A step keeps what every command keeps: its queue is no part of it. -/
theorem step_within {s t : State} (h : step s = .next t) : ∃ u, Within Part.commands u t ∧ u = { s with pending := u.pending } := by
  unfold step at h
  split at h
  · cases h
    exact ⟨s, (idle_within s).mono, rfl⟩
  · next c rest _ =>
    obtain ⟨u, e, hu⟩ := exec_goes c { s with pending := rest }
    rw [e] at h
    cases h
    exact ⟨_, hu, rfl⟩

/-- Settles O3: whatever the command, it ends in a next state that it reaches without touching the queue. -/
theorem queueKept : Obligations.QueueKept := by
  unfold Obligations.QueueKept
  intro c s
  obtain ⟨t, e, h⟩ := exec_goes c s
  exact ⟨t, e, h.pending_eq⟩

/-- Settles O4. -/
theorem shapeKept : Obligations.ShapeKept := by
  unfold Obligations.ShapeKept
  intro s t ⟨hd, hf⟩ h
  obtain ⟨u, hu, e⟩ := step_within h
  rw [e] at hu
  exact ⟨hu.dramWf hd, hu.fabOk hf⟩

/-- Settles O5. -/
theorem safeOutputsKept : Obligations.SafeOutputsKept := by
  unfold Obligations.SafeOutputsKept
  intro s t hs h
  obtain ⟨u, hu, e⟩ := step_within h
  rw [e] at hu
  exact hu.soOk hs

/-- Settles O6. -/
theorem boundsKept : Obligations.BoundsKept := by
  unfold Obligations.BoundsKept
  intro s t ⟨hr, hring, hpend, hlog⟩ h
  obtain ⟨u, hu, e⟩ := step_within h
  rw [e] at hu
  obtain ⟨hring', hpend'⟩ := hu.evrOk ⟨hring, hpend⟩
  exact ⟨hu.ringLe hr, hring', hpend', hu.logLe hlog⟩

end Sys2Proof.Machine

namespace Sys2Proof.Machine

-- One declaration after another: elaborated side by side, their terms together pass the memory that the check allows.
set_option Elab.async false

/-! ## The step and the reset -/

/-- Settles O1, by the queue's case of the step. -/
theorem stepRunsFront : Obligations.StepRunsFront := by
  intro s c rest h
  rw [step, h]

theorem passTime_ttc (s : State) (n : Nat) : (passTime s n).tb.ttc = s.tb.ttc + BitVec.ofNat 64 n := by
  simp [passTime]

/-- Settles O2: an idle step lets the time of one tick pass, which reaches none of the parts named. -/
theorem emptyQueueTicks : Obligations.EmptyQueueTicks := by
  intro s h
  refine ⟨idle s, by rw [step, h], ?_⟩
  unfold idle
  by_cases hp : s.pin.powerGood = true ∧ s.glb.state ≠ .dormant
  · simp [hp, passTime_ttc]
  · have hb : (s.pin.powerGood && s.glb.state != .dormant) = false := by simpa [not_and] using hp
    simp [hb, hp]

/-- Settles O7: an empty DRAM, 48 equal tiles and empty stores. -/
theorem resetMeetsAll : Obligations.ResetMeetsAll := by
  refine ⟨⟨rfl, ?_⟩, ?_, ?_, rfl⟩
  · exact ⟨by decide, fun t ht => by cases List.eq_of_mem_replicate ht; exact ⟨rfl, rfl⟩⟩
  · unfold SoOk; decide
  · unfold Bounded; decide

/-- Settles O8, by the values themselves. -/
theorem resetValues : Obligations.ResetValues := by
  unfold Obligations.ResetValues
  decide

/-- Settles O10, by decoding the words. -/
theorem tileWordExamples : Obligations.TileWordExamples := by
  unfold Obligations.TileWordExamples
  decide


/-! ## Tile words (R124, R127) -/

/-- The format of an instruction's operands. -/
def fmtOf : TFields → Fmt
  | .z => .Z
  | .rr _ => .RR
  | .ri _ => .RI
  | .ci _ => .CI
  | .l _ => .L
  | .m _ => .M
  | .b _ => .B
  | .lp _ => .LP
  | .fb _ => .FB
  | .a _ => .A
  | .x _ => .X
  | .e _ => .E

/-- The operands of a defined instruction are of the format that its opcode has. -/
theorem fmtOf_of_fieldsOk {op : Nat} {f : TFields} (h : fieldsOk op f = true) : ∃ r, opRow op = some r ∧ r.fmt = fmtOf f := by
  unfold fieldsOk at h
  cases hr : opRow op with
  | none => simp [hr] at h
  | some r =>
    refine ⟨r, rfl, ?_⟩
    cases hf : r.fmt <;> cases f <;> simp_all [fmtOf]

theorem opcode_encodeTile (op : BitVec 6) (f : TFields) : (encodeTile op f).1.extractLsb' 26 6 = op := by
  cases f <;> exact BitVec.extractLsb'_append_eq_left

/-- A field above the lower part of a packed word is a field of the upper part.
The widths are explicit because the ones of a packed word are numbers. -/
theorem field_upper (v w : Nat) {x : BitVec v} {y : BitVec w} {i k : Nat} (h : w ≤ i) : (x ++ y).extractLsb' i k = x.extractLsb' (i - w) k :=
  BitVec.extractLsb'_append_eq_of_le h

/-- A field within the lower part of a packed word is a field of the lower part. -/
theorem field_lower (v w : Nat) {x : BitVec v} {y : BitVec w} {i k : Nat} (h : i + k ≤ w) : (x ++ y).extractLsb' i k = y.extractLsb' i k :=
  BitVec.extractLsb'_append_eq_of_add_le h

/-- Taking a packed word apart gives its operands back. -/
theorem fieldsOf_encodeTile (op : BitVec 6) (f : TFields) (hi : Reg32) :
    fieldsOf (fmtOf f) (encodeTile op f).1 ((encodeTile op f).2.getD hi) = some f := by
  cases f with
  | z => simp (disch := decide) [fieldsOf, encodeTile, fmtOf, packOp, field_lower 6 26]
  | rr f =>
    simp (disch := decide) [fieldsOf, encodeTile, fmtOf, packOp, field_lower 6 26, field_upper 19 7, field_lower 19 7, field_upper 15 4,
      field_lower 15 4, field_upper 10 5, field_lower 10 5,
      field_upper 5 5, field_lower 5 5]
  | ri f =>
    simp (disch := decide) [fieldsOf, encodeTile, fmtOf, packOp, field_lower 6 26, field_upper 14 12, field_lower 14 12, field_upper 10 4,
      field_lower 10 4, field_upper 5 5, field_lower 5 5]
  | ci f =>
    simp (disch := decide) [fieldsOf, encodeTile, fmtOf, packOp, field_lower 6 26, field_upper 17 9, field_lower 17 9, field_upper 14 3,
      field_lower 14 3, field_upper 10 4, field_lower 10 4,
      field_upper 5 5, field_lower 5 5]
  | l f =>
    have himm : f.imm.extractLsb' 32 16 ++ f.imm.extractLsb' 0 32 = f.imm := BitVec.extractLsb'_append_extractLsb'
    simp (disch := decide) [fieldsOf, encodeTile, fmtOf, packOp, field_lower 6 26, field_upper 10 16, field_lower 10 16, field_upper 5 5,
      field_lower 5 5]
    rw [himm]
  | m f =>
    simp (disch := decide) [fieldsOf, encodeTile, fmtOf, packOp, field_lower 6 26, field_upper 14 12, field_lower 14 12, field_upper 10 4,
      field_lower 10 4, field_upper 5 5, field_lower 5 5]
  | b f => simp (disch := decide) [fieldsOf, encodeTile, fmtOf, packOp, field_lower 6 26, field_upper 10 16, field_lower 10 16,
    field_upper 5 5, field_lower 5 5]
  | lp f => simp (disch := decide) [fieldsOf, encodeTile, fmtOf, packOp, field_lower 6 26, field_upper 16 10, field_lower 16 10,
    field_upper 5 11, field_lower 5 11]
  | fb f =>
    simp (disch := decide) [fieldsOf, encodeTile, fmtOf, packOp, field_lower 6 26, field_upper 15 11, field_lower 15 11, field_upper 10 5,
      field_lower 10 5, field_upper 5 5, field_lower 5 5]
  | a ra => simp (disch := decide) [fieldsOf, encodeTile, fmtOf, packOp, field_lower 6 26, field_upper 5 21, field_lower 5 21]
  | x n => simp (disch := decide) [fieldsOf, encodeTile, fmtOf, packOp, field_lower 6 26, field_upper 13 13, field_lower 13 13]
  | e f =>
    simp (disch := decide) [fieldsOf, encodeTile, fmtOf, packOp, field_lower 6 26, field_upper 10 16, field_lower 10 16, field_upper 8 2,
      field_lower 8 2, field_upper 5 3, field_lower 5 3]

/-- Two neighbouring fields of a word are one field. -/
theorem fields_joined {n : Nat} (w : BitVec n) (i k l : Nat) : w.extractLsb' (i + k) l ++ w.extractLsb' i k = w.extractLsb' i (l + k) :=
  BitVec.extractLsb'_append_extractLsb'_eq_extractLsb' rfl

/-- Packing the fields of a word gives the word back. -/
theorem encodeTile_fieldsOf {fmt : Fmt} {w hi : Reg32} {f : TFields} (h : fieldsOf fmt w hi = some f) :
    (encodeTile (w.extractLsb' 26 6) f).1 = w ∧ ∀ x, (encodeTile (w.extractLsb' 26 6) f).2 = some x → x = hi := by
  have hw : w.extractLsb' 26 6 ++ w.extractLsb' 0 26 = w := BitVec.extractLsb'_append_extractLsb'
  cases fmt with
  | Z =>
    obtain ⟨h0, hf⟩ := Option.ite_none_right_eq_some.1 h
    cases Option.some.inj hf
    refine ⟨?_, fun x hx => nomatch hx⟩
    simp only [encodeTile, packOp]
    rw [← h0]
    exact hw
  | RR =>
    cases Option.some.inj h
    refine ⟨?_, fun x hx => nomatch hx⟩
    simp only [encodeTile, packOp]
    rw [fields_joined w 16 5 5, fields_joined w 11 5 10, fields_joined w 7 4 15, fields_joined w 0 7 19]
    exact hw
  | RI =>
    cases Option.some.inj h
    refine ⟨?_, fun x hx => nomatch hx⟩
    simp only [encodeTile, packOp]
    rw [fields_joined w 16 5 5, fields_joined w 12 4 10, fields_joined w 0 12 14]
    exact hw
  | CI =>
    cases Option.some.inj h
    refine ⟨?_, fun x hx => nomatch hx⟩
    simp only [encodeTile, packOp]
    rw [fields_joined w 16 5 5, fields_joined w 12 4 10, fields_joined w 9 3 14, fields_joined w 0 9 17]
    exact hw
  | L =>
    obtain ⟨h0, hf⟩ := Option.ite_none_right_eq_some.1 h
    cases Option.some.inj hf
    refine ⟨?_, fun x hx => ?_⟩
    · simp only [encodeTile, packOp]
      rw [field_upper 16 32 (by decide), show 0#5 = w.extractLsb' 16 5 from h0.symm, fields_joined w 16 5 5, BitVec.extractLsb'_eq_self,
        fields_joined w 0 16 10]
      exact hw
    · simp only [encodeTile] at hx
      rw [← Option.some.inj hx]
      exact BitVec.extractLsb'_append_eq_right
  | M =>
    cases Option.some.inj h
    refine ⟨?_, fun x hx => nomatch hx⟩
    simp only [encodeTile, packOp]
    rw [fields_joined w 16 5 5, fields_joined w 12 4 10, fields_joined w 0 12 14]
    exact hw
  | B =>
    obtain ⟨h0, hf⟩ := Option.ite_none_right_eq_some.1 h
    cases Option.some.inj hf
    refine ⟨?_, fun x hx => nomatch hx⟩
    simp only [encodeTile, packOp]
    rw [show 0#5 = w.extractLsb' 16 5 from h0.symm, fields_joined w 16 5 5, fields_joined w 0 16 10]
    exact hw
  | LP =>
    cases Option.some.inj h
    refine ⟨?_, fun x hx => nomatch hx⟩
    simp only [encodeTile, packOp]
    rw [fields_joined w 10 11 5, fields_joined w 0 10 16]
    exact hw
  | FB =>
    cases Option.some.inj h
    refine ⟨?_, fun x hx => nomatch hx⟩
    simp only [encodeTile, packOp]
    rw [fields_joined w 16 5 5, fields_joined w 11 5 10, fields_joined w 0 11 15]
    exact hw
  | A =>
    obtain ⟨h0, hf⟩ := Option.ite_none_right_eq_some.1 h
    cases Option.some.inj hf
    refine ⟨?_, fun x hx => nomatch hx⟩
    simp only [encodeTile, packOp]
    rw [show 0#21 = w.extractLsb' 0 21 from h0.symm, fields_joined w 0 21 5]
    exact hw
  | X =>
    obtain ⟨h0, hf⟩ := Option.ite_none_right_eq_some.1 h
    cases Option.some.inj hf
    refine ⟨?_, fun x hx => nomatch hx⟩
    simp only [encodeTile, packOp]
    rw [show 0#13 = w.extractLsb' 13 13 from h0.symm, fields_joined w 0 13 13]
    exact hw
  | E =>
    obtain ⟨h0, hf⟩ := Option.ite_none_right_eq_some.1 h
    cases Option.some.inj hf
    refine ⟨?_, fun x hx => nomatch hx⟩
    simp only [encodeTile, packOp]
    rw [show 0#2 = w.extractLsb' 16 2 from h0.symm, fields_joined w 18 3 5, fields_joined w 16 2 8, fields_joined w 0 16 10]
    exact hw

/-- Settles O9: packing and taking apart are inverse to each other in each format. -/
theorem tileWordRoundTrip : Obligations.TileWordRoundTrip := by
  refine ⟨fun op f hi h => ?_, fun w hi i h => ?_⟩
  · obtain ⟨r, hr, hf⟩ := fmtOf_of_fieldsOk h
    simp only [decodeTile, opcode_encodeTile, hr, hf, fieldsOf_encodeTile, h, if_true]
  · unfold decodeTile at h
    dsimp only at h
    split at h
    · cases h
    · split at h
      · cases h
      · rename_i f hf
        split at h
        · rename_i hok
          cases h
          obtain ⟨h1, h2⟩ := encodeTile_fieldsOf hf
          exact ⟨h1, h2, hok⟩
        · cases h


/-! ## Integer arithmetic of the tiles (R128) -/

theorem tyWidth_pos (ty : BitVec 4) : 0 < tyWidth ty := by revert ty; decide

theorem tyWidth_le (ty : BitVec 4) : tyWidth ty ≤ 64 := by revert ty; decide

/-- The bits of its type are all that wrapping keeps of a number. -/
theorem setWidth_wrapTo (ty : BitVec 4) (i : Int) : (wrapTo ty i).setWidth (tyWidth ty) = BitVec.ofInt (tyWidth ty) i := by
  have hw := tyWidth_le ty
  unfold wrapTo
  split
  · ext k hk
    have : k < 64 := by omega
    simp [BitVec.getElem_signExtend, hk, this]
  · rw [BitVec.setWidth_setWidth_of_le _ hw, BitVec.setWidth_eq]

/-- The number that a wrapped one shows: its residue of the type's width. -/
theorem opnd_wrapTo (ty : BitVec 4) (i : Int) :
    opnd ty (wrapTo ty i) = if tySigned ty then i.bmod (2 ^ tyWidth ty) else i % ((2 ^ tyWidth ty : Nat) : Int) := by
  unfold opnd
  rw [setWidth_wrapTo]
  split
  · exact BitVec.toInt_ofInt i
  · rw [BitVec.toNat_ofInt]
    exact Int.toNat_of_nonneg (Int.emod_nonneg _ (by positivity))

theorem tyMin_le_tyMax (ty : BitVec 4) : tyMin ty ≤ tyMax ty := by revert ty; decide

/-- A number of the type's range is shown as it is. -/
theorem opnd_wrapTo_of_range {ty : BitVec 4} {i : Int} (h1 : tyMin ty ≤ i) (h2 : i ≤ tyMax ty) : opnd ty (wrapTo ty i) = i := by
  have hp : ((2 ^ tyWidth ty : Nat) : Int) = 2 * 2 ^ (tyWidth ty - 1) := by
    have := tyWidth_pos ty
    obtain ⟨k, hk⟩ : ∃ k, tyWidth ty = k + 1 := ⟨tyWidth ty - 1, by omega⟩
    rw [hk]
    push_cast
    simp [pow_succ, mul_comm]
  rw [opnd_wrapTo]
  unfold tyMin at h1
  unfold tyMax at h2
  split
  · rename_i hs
    simp only [hs, if_true] at h1 h2
    exact Int.bmod_eq_of_le_mul_two (by omega) (by omega)
  · rename_i hs
    simp only [hs, if_false, Bool.false_eq_true] at h1 h2
    exact Int.emod_eq_of_lt h1 (by push_cast at *; omega)

theorem opnd_satRes (ty : BitVec 4) (i : Int) : opnd ty (satRes ty i).1 = clampInt i (tyMin ty) (tyMax ty) := by
  have := tyMin_le_tyMax ty
  exact opnd_wrapTo_of_range (by unfold clampInt; omega) (by unfold clampInt; omega)

theorem opnd_wrapRes_emod (ty : BitVec 4) (i : Int) : (opnd ty (wrapRes ty i).1 - i) % 2 ^ tyWidth ty = 0 := by
  have h : (opnd ty (wrapTo ty i) - i) % ((2 ^ tyWidth ty : Nat) : Int) = 0 := by
    rw [opnd_wrapTo]
    split
    · rw [Int.sub_emod, Int.bmod_emod, Int.sub_self, Int.zero_emod]
    · rw [Int.sub_emod, Int.emod_emod, Int.sub_self, Int.zero_emod]
  rw [Nat.cast_pow, Nat.cast_ofNat] at h
  exact h

theorem outOf_iff (ty : BitVec 4) (i : Int) : outOf ty i = false ↔ tyMin ty ≤ i ∧ i ≤ tyMax ty := by
  simp [outOf]

/-! ### Shifts -/

theorem retype_zero {ty : BitVec 4} (h : tyClass ty ≠ .float) : retype ty 0 = 0 := by
  have : ∀ ty : BitVec 4, tyClass ty ≠ .float → retype ty 0 = 0 := by decide
  exact this ty h

/-- Only the bits of its type count in a number that an instruction writes. -/
theorem retype_congr {ty : BitVec 4} (h : tyClass ty ≠ .float) {a b : Word} (hab : a.setWidth (tyWidth ty) = b.setWidth (tyWidth ty)) :
    retype ty a = retype ty b := by
  unfold retype
  split
  · exact absurd ‹_› h
  · unfold opnd
    rw [hab]

/-- A negative number shifted past the type's width leaves all sign bits. -/
theorem retype_sshiftRight_of_msb {ty : BitVec 4} (h : tyClass ty ≠ .float) {x : BitVec (tyWidth ty)} {n : Nat} (hm : x.msb = true)
    (hn : tyWidth ty ≤ n) : retype ty ((x.sshiftRight n).setWidth 64) = retype ty (-1) := by
  refine retype_congr h ?_
  rw [BitVec.sshiftRight_eq_of_msb_true hm, BitVec.ushiftRight_eq_zero hn, BitVec.setWidth_setWidth_of_le _ (tyWidth_le ty), BitVec.setWidth_eq]
  have hw := tyWidth_le ty
  ext k hk
  have h1 : (-1 : Word) = BitVec.allOnes 64 := by decide
  have : k < 64 := by omega
  rw [h1, BitVec.getElem_setWidth, BitVec.getLsbD_allOnes]
  simp [this]

/-- Settles O15: the numbers of a type are the residues that wrapping keeps, and its range is where it keeps the number itself. -/
theorem integerArithmetic : Obligations.IntegerArithmetic := by
  intro f a b
  refine ⟨fun hf hn => ⟨fun h0 => ⟨?_, ?_⟩, fun h1 => ?_⟩, fun hi => ⟨fun h0 => ?_, fun h1 => ?_, ?_, ?_, ?_, ?_, ?_, ?_, ?_, ?_, ?_⟩⟩
  · simp only [resShl, h0]
    rw [if_neg (by decide), BitVec.shiftLeft_eq_zero hn, BitVec.setWidth_zero]
    exact retype_zero hf
  · simp only [resShr, h0]
    rw [if_neg (by decide), if_neg (by decide), BitVec.ushiftRight_eq_zero hn, BitVec.setWidth_zero]
    exact retype_zero hf
  · simp only [resShr, h1]
    rw [if_neg (by decide), if_pos trivial]
    cases hm : (a.setWidth (tyWidth f.ty)).msb with
    | true => exact retype_sshiftRight_of_msb hf hm hn
    | false =>
      rw [BitVec.sshiftRight_eq_of_msb_false hm, BitVec.ushiftRight_eq_zero hn, BitVec.setWidth_zero]
      exact retype_zero hf
  · have hb : bit (0 : BitVec 7) 0 = false := by decide
    simp only [resAdd, resSub, resMac, resMul, hi, h0, hb, intRes, Bool.false_eq_true, if_false, implies_true, and_self]
  · have hb : bit (1 : BitVec 7) 0 = true := by decide
    simp only [resAdd, resSub, resMac, resMul, hi, h1, hb, intRes, if_true, implies_true, and_self]
  · intro i h
    have : outOf f.ty i = true := by rw [← Bool.not_eq_false, outOf_iff]; exact h
    simp [wrapRes, satRes, this, flagIf]
  · intro i h1 h2
    have ho : outOf f.ty i = false := (outOf_iff _ _).2 ⟨h1, h2⟩
    have hc : clampInt i (tyMin f.ty) (tyMax f.ty) = i := by unfold clampInt; omega
    exact ⟨opnd_wrapTo_of_range h1 h2, by rw [wrapRes, satRes, hc], by rw [satRes, ho]; rfl⟩
  · intro i h
    rw [opnd_satRes]
    have := tyMin_le_tyMax f.ty
    unfold clampInt
    omega
  · intro i h
    rw [opnd_satRes]
    have := tyMin_le_tyMax f.ty
    unfold clampInt
    omega
  · exact opnd_wrapRes_emod f.ty
  · simp only [resNeg, hi]
  · simp only [resAbs, hi]
    congr 1
    split <;> omega
  · intro hb
    have h0 : tyMin f.ty ≤ 0 ∧ 0 ≤ tyMax f.ty := by
      have : ∀ ty : BitVec 4, tyMin ty ≤ 0 ∧ 0 ≤ tyMax ty := by decide
      exact this _
    simp only [resDiv, resMod, hi, hb, if_true, true_and]
    apply opnd_wrapTo_of_range <;> split_ifs <;> omega
  · intro hb
    simp only [resDiv, resMod, hi, hb, if_false, and_self]


/-! ## Instructions of the tiles: what a bundle's halves do (R122, R123, R132) -/

theorem modNth_congr {α : Type} {l : List α} {i : Nat} {f g : α → α} (d : α) (h : f (nthD l i d) = g (nthD l i d)) :
    modNth l i f = modNth l i g := by
  induction l generalizing i with
  | nil => rfl
  | cons x l ih =>
    cases i with
    | zero => exact congrArg (· :: l) h
    | succ i => exact congrArg (x :: ·) (ih h)

/-- Only what a change makes of the tile itself counts. -/
theorem modTile_congr {s : State} {n : TileNo} {g k : Tile → Tile} (h : g (s.fab.tile n) = k (s.fab.tile n)) : modTile s n g = modTile s n k := by
  unfold modTile Fabric.modTile
  rw [modNth_congr _ h]

theorem setNth_eq_modNth {α : Type} (l : List α) (i : Nat) (v : α) : setNth l i v = modNth l i (fun _ => v) := by
  induction l generalizing i with
  | nil => rfl
  | cons x l ih =>
    cases i with
    | zero => rfl
    | succ i => exact congrArg (x :: ·) (ih i)

theorem nthD_setNth_self {α : Type} (l : List α) {i : Nat} (v d : α) (h : i < l.length) : nthD (setNth l i v) i d = v := by
  rw [setNth_eq_modNth]
  exact nthD_modNth_self l i _ d h

theorem nthD_setNth_ne {α : Type} (l : List α) {i j : Nat} (v d : α) (h : j ≠ i) : nthD (setNth l i v) j d = nthD l j d := by
  rw [setNth_eq_modNth]
  exact nthD_modNth_ne l _ d h

/-! ### Registers -/

theorem wr_eq (t : Tile) (w : Option (GReg × Word)) : t.wr w = { t with regs := (t.wr w).regs } := by
  unfold Tile.wr
  split
  · unfold Tile.setReg
    split <;> rfl
  · rfl

theorem reg_setReg {t : Tile} (h : t.regs.length = 32) (d r : GReg) (v : Word) :
    (t.setReg d v).reg r = if r = 0 then 0 else if d = r then v else t.reg r := by
  by_cases hr : r = 0
  · simp [Tile.reg, hr]
  by_cases hd : d = 0
  · have : (0 : GReg) ≠ r := fun e => hr e.symm
    rw [Tile.setReg, if_pos hd, if_neg hr, hd, if_neg this]
  have hl : d.toNat < t.regs.length := by rw [h]; exact d.isLt
  rw [Tile.setReg, if_neg hd, if_neg hr, Tile.reg, if_neg hr]
  by_cases e : d = r
  · rw [if_pos e, ← e]
    exact nthD_setNth_self _ _ _ hl
  · rw [if_neg e, Tile.reg, if_neg hr]
    exact nthD_setNth_ne _ _ _ (fun x => e (BitVec.eq_of_toNat_eq x.symm))

theorem wr_regs_length (t : Tile) (w : Option (GReg × Word)) : (t.wr w).regs.length = t.regs.length := by
  unfold Tile.wr
  split
  · unfold Tile.setReg
    split
    · rfl
    · exact setNth_length ..
  · rfl

/-- A register after the two writes of a bundle. -/
theorem reg_wr_wr {t : Tile} (h : t.regs.length = 32) (a b : Option (GReg × Word)) (r : GReg) :
    ((t.wr a).wr b).reg r = regAfter t a b r := by
  have ha : ((t.wr a).regs).length = 32 := by rw [wr_regs_length, h]
  have h0 : t.reg 0 = 0 := by simp [Tile.reg]
  unfold regAfter
  cases b with
  | none =>
    cases a with
    | none =>
      show t.reg r = _
      split <;> simp_all
    | some a => exact reg_setReg h a.1 r a.2
  | some b =>
    show ((t.wr a).setReg b.1 b.2).reg r = _
    rw [reg_setReg ha]
    cases a with
    | none => rfl
    | some a =>
      show (if r = 0 then 0 else if b.1 = r then b.2 else (t.setReg a.1 a.2).reg r) = _
      rw [reg_setReg h]
      split
      · rfl
      · rfl

/-! ### The program that holds a tile -/

theorem hand_of_handler {t : Tile} {k : HandlerRun} (h : t.runner = .handler k) : t.hand = some k ∧ k.ended = false := by
  unfold Tile.runner at h
  cases hh : t.hand with
  | none =>
    simp only [hh] at h
    split at h <;> cases h
  | some j =>
    by_cases e : j.ended = true
    · simp [hh, e] at h
    · simp_all

theorem hand_of_main {t : Tile} (h : t.runner = .main) : t.hand = none := by
  unfold Tile.runner at h
  cases hh : t.hand with
  | none => rfl
  | some j => simp [hh] at h; split at h <;> simp at h

/-- The flags are those of the program that holds the tile, unless that is a handler at its end. -/
theorem flags_eq_marks {t : Tile} (h : ∀ k, t.hand = some k → k.ended = false) : t.flags = t.marks := by
  unfold Tile.flags Tile.marks Tile.runner
  cases hh : t.hand with
  | none =>
    dsimp only
    split_ifs <;> rfl
  | some k => simp [h k hh]

theorem endBundle_main {t : Tile} (h : t.runner = .main) (a b : HalfBundle) :
    t.endBundle a b =
      { t with
        regs := ((t.wr a.wr).wr b.wr).regs, open0 := none, tsf := flagsAfter t.tsf a b
        pc := (advance t.pc t.loops a.ctl).1, loops := (advance t.pc t.loops a.ctl).2
        cyc := t.cyc + max a.cyc b.cyc, deadline := t.deadline - max a.cyc b.cyc
        phase := if a.ctl = .stop then .drain else t.phase } := by
  unfold Tile.endBundle
  rw [wr_eq (t.wr a.wr), wr_eq t]
  simp only [h]

/-- What a bundle leaves of the run of a handler. -/
def HandlerRun.bundle (k : HandlerRun) (a b : HalfBundle) : HandlerRun :=
  { k with
    tsf := flagsAfter k.tsf a b, pc := (advance k.pc k.loops a.ctl).1, loops := (advance k.pc k.loops a.ctl).2
    cyc := k.cyc + max a.cyc b.cyc, ended := a.ctl == .stop }

theorem endBundle_handler {t : Tile} {k : HandlerRun} (h : t.runner = .handler k) (a b : HalfBundle) :
    t.endBundle a b = { t with regs := ((t.wr a.wr).wr b.wr).regs, open0 := none, hand := some (HandlerRun.bundle k a b) } := by
  unfold Tile.endBundle
  rw [wr_eq (t.wr a.wr), wr_eq t]
  simp only [h, (hand_of_handler h).1, Option.map_some]
  rfl

/-- A bundle ended: both halves' writes, the flags gathered, control moved; memory stays. -/
theorem endBundle_ends {t : Tile} (hl : t.regs.length = 32) (hr : t.runner ≠ .none) (a b : HalfBundle) :
    (∀ r, (t.endBundle a b).reg r = regAfter t a.wr b.wr r) ∧ (t.endBundle a b).marks = flagsAfter t.marks a b ∧
      (t.endBundle a b).place = advance t.place.1 t.place.2 a.ctl ∧ (t.endBundle a b).open0 = none ∧ (t.endBundle a b).mem = t.mem := by
  cases h : t.runner with
  | none => exact absurd h hr
  | main =>
    have hh := hand_of_main h
    rw [endBundle_main h]
    exact ⟨reg_wr_wr hl a.wr b.wr, by simp [Tile.marks, hh], by simp [Tile.place, hh], rfl, rfl⟩
  | handler k =>
    obtain ⟨hh, -⟩ := hand_of_handler h
    rw [endBundle_handler h]
    exact ⟨reg_wr_wr hl a.wr b.wr, by simp [Tile.marks, hh, HandlerRun.bundle], by simp [Tile.place, hh, HandlerRun.bundle], rfl, rfl⟩

theorem hand_open {t : Tile} (hr : t.runner ≠ .none) : ∀ k, t.hand = some k → k.ended = false := by
  intro k hk
  simpa [Tile.runner, hk] using hr

theorem hand_endBundle {t : Tile} (hr : t.runner ≠ .none) {a b : HalfBundle} (ha : a.ctl ≠ .stop) :
    ∀ k, (t.endBundle a b).hand = some k → k.ended = false := by
  intro k hk
  cases h : t.runner with
  | none => exact absurd h hr
  | main =>
    rw [endBundle_main h] at hk
    exact absurd ((hand_of_main h).symm.trans hk) (by simp)
  | handler j =>
    rw [endBundle_handler h] at hk
    cases Option.some.inj hk
    simpa [HandlerRun.bundle] using ha

/-! ### Halves taken in either slot -/

theorem runner_of_ready {t : Tile} {sl : Slot} (h : t.ready sl = true) : t.runner ≠ .none := by
  intro e
  simp [Tile.ready, e] at h

theorem leaveSlack_open0 (t : Tile) (sl : Slot) : (t.leaveSlack sl).open0 = t.open0 := by
  unfold Tile.leaveSlack
  split
  · rfl
  · split <;> rfl

/-- An instruction of slot 0 whose operands are defined opens a bundle. -/
theorem issue_opens {s : State} {n : TileNo} {op : Nat} {f : TFields} (h : Tile → HalfBundle) (hr : (s.fab.tile n).ready .s0 = true)
    (hf : fieldsOk op f = true) : Opens s n h (.next (issue s n .s0 op f h)) := by
  have ho : (s.fab.tile n).open0 = none := by
    have : (s.fab.tile n).open0.isNone = true := (Bool.and_eq_true_iff.1 hr).2
    exact Option.isNone_iff_eq_none.1 this
  have : issue s n .s0 op f h = modTile s n (fun t => (t.leaveSlack .s0).take .s0 (h (t.leaveSlack .s0))) := by
    simp [issue, hr, hf, bundleCount]
  rw [Opens, this, modTile_congr]
  unfold Tile.take
  simp only [leaveSlack_open0, ho]

theorem leaveSlack_eq (t : Tile) (sl : Slot) : t.leaveSlack sl = { t with phase := (t.leaveSlack sl).phase } := by
  unfold Tile.leaveSlack
  split
  · rfl
  · split <;> rfl

theorem runner_leaveSlack (t : Tile) (sl : Slot) : (t.leaveSlack sl).runner = t.runner := by
  by_cases hsl : sl = .s1
  · simp [Tile.leaveSlack, hsl]
  cases h : t.runner with
  | main =>
    have hh := hand_of_main h
    have hi : t.inst = true ∧ 0 < t.deadline := by
      simp only [Tile.runner, hh] at h
      split at h
      · rename_i hp
        exact hp.2
      · cases h
    have hl : t.leaveSlack sl = { t with phase := .program } := by rw [Tile.leaveSlack, if_neg hsl, h]
    rw [hl]
    simp [Tile.runner, hh, hi]
  | none => simp [Tile.leaveSlack, hsl, h]
  | handler k => simp [Tile.leaveSlack, hsl, h]

/-- A change of one tile with the count of an executed bundle: that tile, the others, the rest of the machine. -/
theorem bundleCount_modTile {s : State} (hs : FabOk s.fab) (n : TileNo) (g : Tile → Tile) :
    let t := bundleCount (modTile s n g) .s1
    t.fab.tile n = g (s.fab.tile n) ∧ (∀ m, m ≠ n → t.fab.tile m = s.fab.tile m) ∧
      t = { s with fab := { s.fab with tiles := t.fab.tiles }, pmu := t.pmu } := by
  have hc : bundleCount (modTile s n g) .s1 = pmuCount (modTile s n g) 8 0x201 1 := rfl
  refine ⟨?_, fun m hm => ?_, ?_⟩
  · rw [← tile_modTile_self hs.1 g, hc, pmuCount_fab]
  · have hk := tile_modTile_ne (s := s) hm g
    rw [← hk, hc, pmuCount_fab]
  · rw [hc, pmuCount_eq (by decide)]
    rfl

/-- A bundle ended on one tile, with the count of an executed bundle. -/
theorem ends_of_endBundle {s : State} {n : TileNo} (hs : FabOk s.fab) {a b : HalfBundle} {h : Tile → HalfBundle} (hb : h (s.fab.tile n) = b)
    (hr : (s.fab.tile n).runner ≠ .none) {g : Tile → Tile} (hg : g (s.fab.tile n) = (s.fab.tile n).endBundle a b) :
    Ends s n a h (.next (bundleCount (modTile s n g) .s1)) := by
  obtain ⟨hreg, hmarks, hplace, hopen, hmem⟩ := endBundle_ends (hs.tile n).2 hr a b
  obtain ⟨ht, hne, heq⟩ := bundleCount_modTile hs n g
  rw [← hg, ← ht] at hreg hmarks hplace hopen hmem
  rw [← hb] at hreg hmarks
  exact ⟨_, rfl, hreg, hmarks, hplace, hopen, hmem, hne, heq⟩

/-- An instruction of slot 1 whose operands are defined ends the bundle. -/
theorem issue_ends {s : State} (hs : FabOk s.fab) {n : TileNo} {op : Nat} {f : TFields} (h : Tile → HalfBundle) {a : HalfBundle}
    (hr : (s.fab.tile n).ready .s1 = true) (ho : (s.fab.tile n).open0 = some a) (hf : fieldsOk op f = true) :
    Ends s n a h (.next (issue s n .s1 op f h)) := by
  have : issue s n .s1 op f h = bundleCount (modTile s n (fun t => (t.leaveSlack .s1).take .s1 (h (t.leaveSlack .s1)))) .s1 := by
    simp [issue, hr, hf]
  rw [this]
  refine ends_of_endBundle hs rfl (runner_of_ready hr) ?_
  simp [Tile.leaveSlack, Tile.take, ho]

/-- An instruction that is issued in either slot has the half bundle with which it is issued. -/
theorem either_of_issue {c : Slot → Instr} {n : TileNo} {op : Nat} {f : TFields} {h : Tile → HalfBundle}
    (hc : ∀ sl s, exec (c sl) s = .next (issue s n sl op f h)) : Either c n op f h := by
  intro s hs hf
  refine ⟨fun hr => ?_, fun a hr ho => ?_⟩
  · rw [hc]; exact issue_opens h hr hf
  · rw [hc]; exact issue_ends hs h hr ho hf

theorem slot0_of_issue {c : Instr} {n : TileNo} {op : Nat} {f : TFields} {h : Tile → HalfBundle}
    (hc : ∀ s, exec c s = .next (issue s n .s0 op f h)) : Slot0 c n op f h := by
  intro s hr hf
  rw [hc]
  exact issue_opens h hr hf

/-- Settles O11: every arithmetic instruction is issued with the half bundle it has. -/
theorem tileArithmetic : Obligations.TileArithmetic := by
  intro n f g
  refine ⟨?_, ?_, ?_, ?_, ?_, ?_, ?_, ?_, ?_, ?_, ?_, ?_, ?_⟩
  iterate 10 exact either_of_issue fun _ _ => rfl
  all_goals exact slot0_of_issue fun _ => rfl

/-- Settles O13: branches and loops are issued in slot 0 with the control they order. -/
theorem tileControl : Obligations.TileControl := by
  intro n b l
  refine ⟨?_, ?_, ?_, ?_⟩
  all_goals exact slot0_of_issue fun _ => rfl

/-- Settles O12: all but LIMM are issued with their half bundle; LIMM ends a bundle of its own. -/
theorem tileLogic : Obligations.TileLogic := by
  intro n f g k l
  refine ⟨?_, ?_, ?_, ?_, ?_, ?_, ?_, ?_, ?_, ?_, ?_, ?_, ?_, ?_, ?_, ?_, fun s hs hr => ?_⟩
  iterate 16 exact either_of_issue fun _ _ => rfl
  let u := (s.fab.tile n).leaveSlack .s0
  have hu : u = { s.fab.tile n with phase := u.phase } := leaveSlack_eq _ _
  have hreg (r : GReg) : u.reg r = (s.fab.tile n).reg r := by rw [hu]; rfl
  have hmem : u.mem = (s.fab.tile n).mem := by rw [hu]
  have hflags : u.flags = (s.fab.tile n).flags := by
    unfold Tile.flags
    rw [runner_leaveSlack, hu]
  have hl : u.regs.length = 32 := by rw [hu]; exact (hs.tile n).2
  have hrun : u.runner ≠ .none := by
    rw [runner_leaveSlack]
    exact runner_of_ready hr
  obtain ⟨hreg', hmarks', -, hopen', hmem'⟩ := endBundle_ends hl hrun (half l.rd 1 (l.imm.signExtend 64, 0)) {}
  obtain ⟨ht, hne, heq⟩ := bundleCount_modTile hs n (fun t => (t.leaveSlack .s0).endBundle (half l.rd 1 (l.imm.signExtend 64, 0)) {})
  have hx : exec (.limm n l) s = .next (bundleCount (modTile s n (fun t => (t.leaveSlack .s0).endBundle
    (half l.rd 1 (l.imm.signExtend 64, 0)) {})) .s1) := by
    show execLimm n l s = _
    simp [execLimm, hr]
  refine ⟨_, hx, fun r => ?_, ?_, ?_, ?_, hne, heq⟩
  · rw [ht]
    refine (hreg' r).trans ?_
    simp [regAfter, half, hreg]
  · rw [ht, ← hflags, flags_eq_marks (hand_open hrun), flags_eq_marks (hand_endBundle hrun (by simp [half]))]
    exact hmarks'.trans (by simp [flagsAfter, half])
  · rw [ht]
    exact hmem'.trans hmem
  · rw [ht]
    exact hopen'

/-- Settles O14. -/
theorem loopRules : Obligations.LoopRules := by
  unfold Obligations.LoopRules
  refine ⟨fun pc d => rfl, fun pc len => rfl, fun pc ls len c hc => ?_, fun pc ls f hf h1 => ?_, fun pc f hf h1 => ?_,
    fun pc ls f hf => ?_, fun pc f => ?_, ?_, ?_, ?_⟩
  · have : c ≠ 0 := by omega
    simp [advance, this]
  · simp [advance, loopBack, hf, h1]
  · have : ¬ 1 < f.left := by omega
    simp [advance, loopBack, hf, this]
  · have : pc ≠ f.last := fun e => hf e.symm
    simp [advance, loopBack, this]
  · rfl
  · intro t l h0 h1
    simp only [loopCount, h0, if_false]
    omega
  · intro t l
    unfold loopCount
    split <;> omega
  · intro t l h0
    simp [loopCount, h0]

/-! ## Records that stand behind later ones -/

/-- A record among the k newest is among the k + 1 newest after another one. -/
theorem recent_recordAs {s : State} {x : Rec} {k : Nat} (r : Rec) (hk : k < 16384) (h : x ∈ s.evr.ring.take k) :
    x ∈ (recordAs s r).evr.ring.take (k + 1) := by
  simp only [recordAs, Evr.write, decide_eq_true_eq]
  rw [List.take_succ_cons]
  refine List.mem_cons_of_mem _ ?_
  split
  · rw [List.dropLast_eq_take, List.take_take, Nat.min_eq_left (by omega)]
    exact h
  · exact h

/-- The record that `record` writes is the newest. -/
theorem record_recent (s : State) (sev : Sev) (src : BitVec 12) (code : BitVec 16) (subj : Nat) (d : List Byte) :
    mkRec s sev src code s.cyc.mcc (BitVec.ofNat 32 subj) d ∈ (record s sev src code subj d).evr.ring.take 1 := by
  obtain ⟨l, h, -⟩ := recordAs_ring s (mkRec s sev src code s.cyc.mcc (BitVec.ofNat 32 subj) d)
  rw [record, h]
  exact .head _

/-- The record of a state's next SEQ is among the k newest of another state. -/
def Wrote (k : Nat) (s t : State) (sev : Sev) (src : BitVec 12) (code : BitVec 16) : Prop :=
  ∃ r ∈ t.evr.ring.take k, r.seq = s.evr.nextSeq ∧ r.sev = sev ∧ r.src = src ∧ r.code = code

section
variable {k : Nat} {s t u : State} {sev : Sev} {src : BitVec 12} {code : BitVec 16}

theorem Wrote.records (h : Wrote k s t sev src code) : Records s t sev src code := by
  obtain ⟨r, hr, hx⟩ := h
  exact ⟨r, List.mem_of_mem_take hr, hx⟩

theorem Wrote.mono (h : Wrote k s t sev src code) {j : Nat} (hj : k ≤ j) : Wrote j s t sev src code := by
  obtain ⟨r, hr, hx⟩ := h
  exact ⟨r, List.take_subset_take_left _ hj hr, hx⟩

/-- What leaves the recorder as it is leaves the record there. -/
theorem Wrote.keep (h : Wrote k s t sev src code) (he : u.evr = t.evr) : Wrote k s u sev src code := by
  rw [Wrote, he]
  exact h

theorem Wrote.ring (h : Wrote k s t sev src code) (he : u.evr.ring = t.evr.ring) : Wrote k s u sev src code := by
  rw [Wrote, he]
  exact h

theorem Wrote.recordAs (h : Wrote k s t sev src code) (hk : k < 16384) (r : Rec) : Wrote (k + 1) s (recordAs t r) sev src code := by
  obtain ⟨x, hx, hr⟩ := h
  exact ⟨x, recent_recordAs r hk hx, hr⟩

theorem Wrote.record (h : Wrote k s t sev src code) (hk : k < 16384) (sev' : Sev) (src' : BitVec 12) (code' : BitVec 16) (subj : Nat) (d :
    List Byte) :
    Wrote (k + 1) s (record t sev' src' code' subj d) sev src code := h.recordAs hk _

/-- A record written on a state with the recorder of s. -/
theorem wrote_record (he : t.evr = s.evr) (sev : Sev) (src : BitVec 12) (code : BitVec 16) (subj : Nat) (d : List Byte) :
    Wrote 1 s (Machine.record t sev src code subj d) sev src code :=
  ⟨_, record_recent t sev src code subj d, congrArg Evr.nextSeq he, rfl, rfl, rfl⟩

end

/-! ## Resets of tiles and of the fabric (R115 to R119) -/

theorem nthD_map {α β : Type} (l : List α) (i : Nat) (f : α → β) (d : α) (e : β) (h : i < l.length) :
    nthD (l.map f) i e = f (nthD l i d) := by
  induction l generalizing i with
  | nil => simp at h
  | cons x l ih =>
    cases i with
    | zero => rfl
    | succ i => exact ih i (by simpa using h)

theorem fabricHold_tile {s : State} (h : FabOk s.fab) (esc : Bool) (m : TileNo) : (fabricHold s esc).fab.tile m = (s.fab.tile m).held := by
  have : m.val < s.fab.tiles.length := by rw [h.1]; exact m.isLt
  exact nthD_map s.fab.tiles m.val Tile.held {} {} this

theorem fabricEscalate_tile {s : State} (h : FabOk s.fab) (m : TileNo) : (fabricEscalate s).fab.tile m = (s.fab.tile m).held := by
  rw [← fabricHold_tile h true m]
  unfold fabricEscalate
  dsimp only
  split_ifs <;> rfl

theorem fabricEscalate_fault (s : State) : (fabricEscalate s).fab.fault = s.fab.fault := by
  unfold fabricEscalate
  dsimp only
  split_ifs <;> rfl

theorem fabricEscalate_wrote {k : Nat} {s0 s : State} {sev : Sev} {src : BitVec 12} {code : BitVec 16} (h : Wrote k s0 s sev src code)
    (hk : k < 16384) : Wrote (k + 1) s0 (fabricEscalate s) sev src code := by
  unfold fabricEscalate
  dsimp only
  split_ifs
  · exact Wrote.record (h.keep rfl) hk ..
  · exact (h.keep rfl).mono (by omega)

/-- The state with tile n held, before what its third reset within 60 s does to the fabric. -/
def heldTile (s : State) (n : TileNo) : State :=
  let t := s.fab.tile n
  let g := match t.hand with
    | some h => requeue s.glb h
    | none => s.glb
  pmuCount { s with
    glb := if t.inst then breakTask g t.task.toNat else g
    fab := { (s.fab.modTile n (fun t => { t.held with resets := s.cul.optime.toNat :: within60 s.cul.optime (s.fab.tile n).resets })) with
      fault := setBit s.fab.fault n.val } } 8 0x209 1

theorem resetTile_eq (s : State) (n : TileNo) :
    resetTile s n = if 2 ≤ (within60 s.cul.optime (s.fab.tile n).resets).length then fabricEscalate (heldTile s n) else heldTile s n := by
  have h : (s.cul.optime.toNat :: within60 s.cul.optime (s.fab.tile n).resets).length ≥ 3 ↔
      2 ≤ (within60 s.cul.optime (s.fab.tile n).resets).length := by
    simp
  unfold resetTile
  dsimp only
  simp only [h]
  rfl

section
variable {s : State} (hs : FabOk s.fab) (n : TileNo)
include hs

theorem heldTile_self : (heldTile s n).fab.tile n =
    { (s.fab.tile n).held with resets := s.cul.optime.toNat :: within60 s.cul.optime (s.fab.tile n).resets } := by
  unfold heldTile
  dsimp only
  rw [pmuCount_fab]
  exact tile_modTile_self hs.1 _

omit hs in
theorem heldTile_ne {m : TileNo} (hm : m ≠ n) : (heldTile s n).fab.tile m = s.fab.tile m := by
  unfold heldTile
  dsimp only
  rw [pmuCount_fab]
  exact tile_modTile_ne hm _

theorem heldTile_ok : FabOk (heldTile s n).fab := by
  unfold heldTile
  dsimp only
  rw [pmuCount_fab]
  exact FabOk_modTile hs fun t ht => ht

end

theorem heldTile_fault (s : State) (n : TileNo) : (heldTile s n).fab.fault = setBit s.fab.fault n.val := by
  simp [heldTile]

theorem bit_setBit_self {w : Nat} (x : BitVec w) {i : Nat} (h : i < w) : bit (setBit x i) i = true := by
  simp [bit, setBit, h]

/-- A tile that is reset is held, whether or not its reset takes the fabric with it. -/
theorem resetTile_held {s : State} (hs : FabOk s.fab) (n : TileNo) : TileHeld s (resetTile s n) n := by
  have hb : bit (heldTile s n).fab.fault n.val = true := by
    rw [heldTile_fault]
    exact bit_setBit_self _ n.isLt
  rw [resetTile_eq]
  split
  · rw [TileHeld, fabricEscalate_tile (heldTile_ok hs n), heldTile_self hs, fabricEscalate_fault]
    exact ⟨rfl, rfl, rfl, hb, rfl⟩
  · rw [TileHeld, heldTile_self hs]
    exact ⟨rfl, rfl, rfl, hb, rfl⟩

theorem tileResetRecord_fab (s : State) (n : TileNo) (c : Bool) : (tileResetRecord s n c).fab = s.fab := by
  unfold tileResetRecord
  dsimp only
  split_ifs <;> simp

theorem tileReset_held {s : State} (hs : FabOk s.fab) (hh : s.fab.state ≠ .halted) (n : TileNo) (src : ResetSource) :
    TileHeld s (tileReset s n src) n := by
  have h := tileResetRecord_fab { s with rst := { s.rst with source := src, kind := 6 } } n (src == .command)
  rw [tileReset, if_neg hh]
  have := resetTile_held (h ▸ hs) n
  rw [TileHeld, h] at this
  exact this

theorem heldTile_evr (s : State) (n : TileNo) : (heldTile s n).evr = s.evr := by
  simp [heldTile]

section
variable {k : Nat} {s0 s : State} {sev : Sev} {src : BitVec 12} {code : BitVec 16} (h : Wrote k s0 s sev src code) (n : TileNo)
include h

theorem resetTile_wrote (hk : k < 16384) : Wrote (k + 1) s0 (resetTile s n) sev src code := by
  have h1 : Wrote k s0 (heldTile s n) sev src code := h.keep (heldTile_evr s n)
  rw [resetTile_eq]
  split
  · exact fabricEscalate_wrote h1 hk
  · exact h1.mono (by omega)

theorem tileResetRecord_wrote (hk : k < 16384) (c : Bool) : Wrote (k + 1) s0 (tileResetRecord s n c) sev src code := by
  unfold tileResetRecord
  dsimp only
  split_ifs
  · exact h.record hk ..
  · exact h.record hk ..
  · exact h.record hk ..
  · exact h.mono (by omega)

/-- A record written before a tile's reset is still there after it. -/
theorem tileReset_wrote (hk : k + 1 < 16384) (src' : ResetSource) : Wrote (k + 2) s0 (tileReset s n src') sev src code := by
  have h1 : Wrote k s0 { s with rst := { s.rst with source := src', kind := 6 } } sev src code := h.keep rfl
  unfold tileReset
  split
  · exact h.mono (by omega)
  · exact resetTile_wrote (tileResetRecord_wrote h1 n (by omega) _) n hk

end

/-- A trap holds the tile and leaves its ERROR record (R116). -/
theorem tileTrap_holds {s : State} (hs : FabOk s.fab) (hh : s.fab.state ≠ .halted) (n : TileNo) (addr : Nat) :
    TileHeld s (tileTrap s n addr) n ∧ Records s (tileTrap s n addr) .error (srcTile n) (cFault 0) := by
  have hf : (record s .error (srcTile n) (cFault 0) n.val (beBytes 4 addr)).fab = s.fab := by
    simp
  refine ⟨?_, (tileReset_wrote (wrote_record rfl ..) n (by decide) _).records⟩
  have := tileReset_held (s := record s .error (srcTile n) (cFault 0) n.val (beBytes 4 addr)) (hf ▸ hs) (hf ▸ hh) n .deadline
  rw [TileHeld, hf] at this
  exact this

/-! ## Loads, stores and function blocks (R130, R133, R134) -/

theorem open0_of_ready {t : Tile} (h : t.ready .s0 = true) : t.open0 = none :=
  Option.isNone_iff_eq_none.1 (Bool.and_eq_true_iff.1 h).2

theorem take_leaveSlack {t : Tile} (h : t.ready .s0 = true) (b : HalfBundle) :
    (t.leaveSlack .s0).take .s0 b = { t.leaveSlack .s0 with open0 := some b } := by
  unfold Tile.take
  simp only [leaveSlack_open0, open0_of_ready h]

theorem codeHalf_leaveSlack (t : Tile) (sl : Slot) : (t.leaveSlack sl).codeHalf = t.codeHalf := by
  rw [leaveSlack_eq]

section
variable {s : State} {n : TileNo} {op : Nat} {f : TFields} {g : Tile → TileProg → Except Nat (Mem × HalfBundle)}
  (hr : (s.fab.tile n).ready .s0 = true) (hf : fieldsOk op f = true)
include hr hf

theorem issueMem_error {a : Nat} (hg : g ((s.fab.tile n).leaveSlack .s0) (tileProg s n (s.fab.tile n).codeHalf) = .error a) :
    issueMem s n op f g = tileTrap s n a := by
  simp [issueMem, hr, hf, codeHalf_leaveSlack, hg]

theorem issueMem_ok {m : Mem} {h : HalfBundle}
    (hg : g ((s.fab.tile n).leaveSlack .s0) (tileProg s n (s.fab.tile n).codeHalf) = .ok (m, h)) :
    issueMem s n op f g = modTile s n (fun t => { (t.leaveSlack .s0) with open0 := some h, mem := m }) := by
  unfold issueMem
  dsimp only
  rw [hr, hf, codeHalf_leaveSlack, hg]
  exact modTile_congr (by rw [take_leaveSlack hr])

/-- What an access within the rules leaves: the half bundle waits, the memory is the one it made; registers, other tiles and the rest stay. -/
theorem issueMem_leaves (hs : FabOk s.fab) {m : Mem} {h : HalfBundle}
    (hg : g ((s.fab.tile n).leaveSlack .s0) (tileProg s n (s.fab.tile n).codeHalf) = .ok (m, h)) :
    ∃ t, issueMem s n op f g = t ∧ (t.fab.tile n).open0 = some h ∧ (t.fab.tile n).mem = m ∧ (t.fab.tile n).regs = (s.fab.tile n).regs ∧
      (∀ m, m ≠ n → t.fab.tile m = s.fab.tile m) ∧ t = { s with fab := { s.fab with tiles := t.fab.tiles } } := by
  refine ⟨_, issueMem_ok hr hf hg, ?_, ?_, ?_, fun m hm => tile_modTile_ne hm _, rfl⟩
  · rw [tile_modTile_self hs.1]
  · rw [tile_modTile_self hs.1]
  · rw [tile_modTile_self hs.1, leaveSlack_eq]

end

theorem mem_leaveSlack (t : Tile) (sl : Slot) : (t.leaveSlack sl).mem = t.mem := by
  rw [leaveSlack_eq]

/-- Settles O16: within the access rules LD opens its bundle and ST stores, outside them the access traps. -/
theorem tileLoadStore : Obligations.TileLoadStore := by
  intro n f s hs hr t0 p a
  have hld : fieldsOk 0x1A (.m f) = true := rfl
  have hst : fieldsOk 0x1B (.m f) = true := rfl
  have hw : t0.mem.wf = true := by
    rw [mem_leaveSlack]
    exact (hs.tile n).1
  refine ⟨fun h => ?_, fun h => ?_, fun h hh => ?_, fun h hh => ?_⟩
  · show Opens s n _ (execLd n f s)
    rw [Opens, execLd, issueMem_ok hr hld (by rw [if_pos h])]
    exact congrArg _ (modTile_congr rfl)
  · obtain ⟨t, ht, hopen, hmem, hregs, hne, heq⟩ := issueMem_leaves hr hst hs (g := fun t p =>
      if mayAccess (tileImg s n) n t p true (mAddr t f) (tySize f.ty) then
        .ok (t.mem.writeLE (mAddr t f) (tySize f.ty) (storeAs f.ty (t.reg f.r)), { cyc := 1 })
      else .error (mAddr t f)) (if_pos h)
    refine ⟨t, congrArg Host.Outcome.next ht, hopen, ?_, fun x hx => ?_, hregs, hne, heq⟩
    · rw [hmem]
      exact Mem.readLE_writeLE hw ..
    · rw [hmem, Mem.read_writeLE_out hw _ _ hx, mem_leaveSlack]
  · have e : execLd n f s = .next (tileTrap s n a) := by
      rw [execLd, issueMem_error (a := a) hr hld (if_neg (ne_true_of_eq_false h))]
    exact ⟨_, e, tileTrap_holds hs hh n a⟩
  · have e : execSt n f s = .next (tileTrap s n a) := by
      rw [execSt, issueMem_error (a := a) hr hst (if_neg (ne_true_of_eq_false h))]
    exact ⟨_, e, tileTrap_holds hs hh n a⟩

/-! ### Function blocks -/

/-- A block that writes within its instance is issued with its result, and no byte outside the instance changes. -/
theorem issueFb_leaves {s : State} (hs : FabOk s.fab) {n : TileNo} (hr : (s.fab.tile n).ready .s0 = true) {op : Nat} {f : FBF}
    (hf : fieldsOk op (.fb f) = true) {size : Nat} {g : Tile → Nat → Mem × Res}
    (hg : ∀ (t : Tile) (a x : Nat), t.mem.wf = true → x < a ∨ a + size ≤ x → (g t a).1.read x = t.mem.read x)
    (may : (match ((s.fab.tile n).leaveSlack .s0).runner with
      | .handler h => handMay (tileProg s n (s.fab.tile n).codeHalf) h.task true (instAddr f) size
      | _ => mainMay true (instAddr f) size) = true) :
    ∃ t, issueFb s n op f size g = t ∧
      (t.fab.tile n).open0 = some (half f.rd (cyc op 0) (g ((s.fab.tile n).leaveSlack .s0) (instAddr f)).2) ∧
      (t.fab.tile n).mem = (g ((s.fab.tile n).leaveSlack .s0) (instAddr f)).1 ∧
      (∀ x, (x < instAddr f ∨ instAddr f + size ≤ x) → (t.fab.tile n).mem.read x = (s.fab.tile n).mem.read x) ∧
      (t.fab.tile n).regs = (s.fab.tile n).regs ∧ (∀ m, m ≠ n → t.fab.tile m = s.fab.tile m) ∧
      t = { s with fab := { s.fab with tiles := t.fab.tiles } } := by
  have hw : ((s.fab.tile n).leaveSlack .s0).mem.wf = true := by
    rw [mem_leaveSlack]
    exact (hs.tile n).1
  obtain ⟨t, ht, hopen, hmem, hregs, hne, heq⟩ := issueMem_leaves hr hf hs (g := fun t p =>
    if (match t.runner with
        | .handler h => handMay p h.task true (instAddr f) size
        | _ => mainMay true (instAddr f) size) then
      .ok ((g t (instAddr f)).1, half f.rd (cyc op 0) (g t (instAddr f)).2)
    else .error (instAddr f)) (if_pos may)
  refine ⟨t, ht, hopen, hmem, fun x hx => ?_, hregs, hne, heq⟩
  rw [hmem]
  exact (hg _ _ x hw hx).trans (by rw [mem_leaveSlack])

section
variable {t : Tile} (w : t.mem.wf = true) (f : FBF) (a : Nat) {x : Nat}
include w

theorem timer_read_out (step : TimerSt → Bool → Int → Int → TimerSt) (h : x < a + 4 ∨ a + 16 ≤ x) :
    (timer step f t a).1.read x = t.mem.read x := by
  have w1 := setFld_wf w (a + 4)
  unfold timer
  dsimp only
  rw [Mem.read_writeLE_out (Mem.writeLE_wf (w1 _) ..) _ _ (by omega), Mem.read_writeLE_out (w1 _) _ _ (by omega), read_setFld_out w _ (by omega)]

theorem pt1_read_out (h : x < a ∨ a + 32 ≤ x) : (pt1 f t a).1.read x = t.mem.read x := by
  have w1 := Mem.writeLE_wf w (a + 12) 4 (mccNow t).toNat
  unfold pt1
  dsimp only
  split
  · exact Mem.read_writeLE_out w _ _ (by omega)
  · rw [Mem.read_writeLE_out (Mem.writeLE_wf w1 ..) _ _ (by omega), Mem.read_writeLE_out w1 _ _ (by omega), Mem.read_writeLE_out w _ _ (by omega)]

theorem ramp_read_out (h : x < a ∨ a + 32 ≤ x) : (ramp f t a).1.read x = t.mem.read x := by
  have w1 := Mem.writeLE_wf w (a + 12) 4 (mccNow t).toNat
  unfold ramp
  dsimp only
  split
  · exact Mem.read_writeLE_out w _ _ (by omega)
  · rw [Mem.read_writeLE_out (Mem.writeLE_wf w1 ..) _ _ (by omega), Mem.read_writeLE_out w1 _ _ (by omega), Mem.read_writeLE_out w _ _ (by omega)]

theorem pid_read_out (h : x < a ∨ a + 64 ≤ x) : (pid f t a).1.read x = t.mem.read x := by
  have w1 := Mem.writeLE_wf w (a + 0x24) 4 (mccNow t).toNat
  have w2 := Mem.writeLE_wf w1 (a + 0x18) 4
  have w3 (i : Nat) := Mem.writeLE_wf (w2 i) (a + 0x1C) 4
  unfold pid
  dsimp only
  split
  · exact Mem.read_writeLE_out w _ _ (by omega)
  · rw [Mem.read_writeLE_out (Mem.writeLE_wf (w3 _ _) ..) _ _ (by omega), Mem.read_writeLE_out (w3 _ _) _ _ (by omega),
      Mem.read_writeLE_out (w2 _) _ _ (by omega), Mem.read_writeLE_out w1 _ _ (by omega), Mem.read_writeLE_out w _ _ (by omega)]

end

/-- Settles O17: no block writes outside its instance. -/
theorem functionBlocks : Obligations.FunctionBlocks := by
  intro n f s hs hr t0 p may done
  have hdone {c : Instr} {op size : Nat} {g : Tile → Nat → Mem × Res} (hc : exec c s = .next (issueFb s n op f size g))
      (hg : ∀ (t : Tile) (a x : Nat), t.mem.wf = true → x < a ∨ a + size ≤ x → (g t a).1.read x = t.mem.read x) : done c op size g := by
    intro hm hf
    obtain ⟨t, ht, h⟩ := issueFb_leaves hs hr hf hg hm
    exact ⟨t, by rw [hc, ht], h⟩
  have htimer (step) (t : Tile) (a x : Nat) (w : t.mem.wf = true) (h : x < a ∨ a + 32 ≤ x) : (timer step f t a).1.read x = t.mem.read x :=
    timer_read_out w f a step (by omega)
  have hedge (rising) (t : Tile) (a x : Nat) (w : t.mem.wf = true) (h : x < a ∨ a + 32 ≤ x) : (edge rising f t a).1.read x = t.mem.read x :=
    edge_read_out w rising f a (by omega)
  have hcounter (up) (t : Tile) (a x : Nat) (w : t.mem.wf = true) (h : x < a ∨ a + 32 ≤ x) : (counter up f t a).1.read x = t.mem.read x :=
    counter_read_out w up f a (by omega)
  exact ⟨hdone rfl (htimer tonStep), hdone rfl (htimer tofStep), hdone rfl (htimer tpStep), hdone rfl (hedge true), hdone rfl (hedge false),
    hdone rfl (hcounter true), hdone rfl (hcounter false), hdone rfl fun t a x w => pt1_read_out w f a, hdone rfl fun t a x w => ramp_read_out w f a,
    hdone rfl fun t a x w => pid_read_out w f a⟩

/-! ## Timers (R134) -/

theorem read_writeLE_first {m : Mem} (w : m.wf = true) (a n v : Nat) : (m.writeLE a (n + 1) v).read a = BitVec.ofNat 8 (v % 256) := by
  rw [Mem.writeLE, Mem.read_writeLE_out (Mem.write_wf w ..) _ _ (.inl (Nat.lt_succ_self a)), Mem.read_write w, if_pos rfl]

/-- The bits of a number's first byte are those of the byte. -/
theorem readLE_bit (m : Mem) (a n : Nat) {i : Nat} (hi : i < 8) : (m.readLE a (n + 1) / 2 ^ i % 2 == 1) = bit (m.read a) i := by
  have h : m.readLE a (n + 1) = (m.read a).toNat + 2 ^ i * (2 ^ (8 - i) * m.readLE (a + 1) n) := by
    rw [← Nat.mul_assoc, ← Nat.pow_add, Nat.add_sub_cancel' hi.le]
    rfl
  obtain ⟨k, hk⟩ : ∃ k, 2 ^ (8 - i) = 2 * k := ⟨2 ^ (7 - i), by rw [← Nat.pow_succ']; congr 1; omega⟩
  rw [bit, ← BitVec.testBit_toNat, Nat.testBit_eq_decide_div_mod_eq, h, Nat.add_mul_div_left _ _ (by positivity), hk, Nat.mul_assoc,
    Nat.add_mul_mod_self_left]
  rfl

/-- The state that a timer's instance holds: its status bits and the elapsed time. -/
def timerSt (t : Tile) (a : Nat) : TimerSt :=
  ⟨bit (t.mem.read (a + 12)) 0, bit (t.mem.read (a + 12)) 1, bit (t.mem.read (a + 12)) 2, fld t.mem (a + 4)⟩

/-- The state that a timer writes back. -/
def timerNext (step : TimerSt → Bool → Int → Int → TimerSt) (f : FBF) (t : Tile) (a : Nat) : TimerSt :=
  step (timerSt t a) (isTrue (t.reg f.ra)) (dtUs t a 8 (bit (t.mem.read (a + 12)) 3)) (timerPt t f a)

/-- The status byte of a timer's instance, with VALID. -/
def timerByte (y : TimerSt) : Nat := (if y.prev then 1 else 0) + (if y.q then 2 else 0) + (if y.run then 4 else 0) + 8

theorem timer_eq (step : TimerSt → Bool → Int → Int → TimerSt) (f : FBF) (t : Tile) (a : Nat) :
    timer step f t a =
      (((setFld t.mem (a + 4) (timerNext step f t a).et).writeLE (a + 8) 4 (mccNow t).toNat).writeLE (a + 12) 4 (timerByte (timerNext step f t a)),
        boolRes (timerNext step f t a).q) := by
  have h0 := readLE_bit t.mem (a + 12) 3 (i := 0) (by decide)
  have h1 := readLE_bit t.mem (a + 12) 3 (i := 1) (by decide)
  have h2 := readLE_bit t.mem (a + 12) 3 (i := 2) (by decide)
  have h3 := readLE_bit t.mem (a + 12) 3 (i := 3) (by decide)
  simp only [Nat.reducePow, Nat.div_one] at h0 h1 h2 h3
  simp only [timer, timerNext, timerSt, timerByte, h0, h1, h2, h3]
  rfl

theorem bit_timerByte (y : TimerSt) : bit (BitVec.ofNat 8 (timerByte y % 256)) 0 = y.prev ∧ bit (BitVec.ofNat 8 (timerByte y % 256)) 1 = y.q ∧
    bit (BitVec.ofNat 8 (timerByte y % 256)) 2 = y.run ∧ bit (BitVec.ofNat 8 (timerByte y % 256)) 3 = true := by
  have h : ∀ p q r : Bool, let b := BitVec.ofNat 8 (((if p then 1 else 0) + (if q then 2 else 0) + (if r then 4 else 0) + 8) % 256)
      bit b 0 = p ∧ bit b 1 = q ∧ bit b 2 = r ∧ bit b 3 = true := by decide
  exact h y.prev y.q y.run

/-- What a timer leaves in its instance. -/
theorem timer_leaves (step : TimerSt → Bool → Int → Int → TimerSt) (f : FBF) {t : Tile} (a : Nat) (w : t.mem.wf = true)
    (lo : -(2 ^ 31) ≤ (timerNext step f t a).et) (hi : (timerNext step f t a).et ≤ 2 ^ 31 - 1) :
    fld (timer step f t a).1 (a + 4) = (timerNext step f t a).et ∧
      bit ((timer step f t a).1.read (a + 12)) 0 = (timerNext step f t a).prev ∧
        bit ((timer step f t a).1.read (a + 12)) 1 = (timerNext step f t a).q ∧
      bit ((timer step f t a).1.read (a + 12)) 2 = (timerNext step f t a).run ∧ bit ((timer step f t a).1.read (a + 12)) 3 = true ∧
      (timer step f t a).1.readLE (a + 8) 4 = (mccNow t).toNat ∧
      (timer step f t a).2 = boolRes (bit ((timer step f t a).1.read (a + 12)) 1) := by
  have w1 := setFld_wf w (a + 4) (timerNext step f t a).et
  have w2 := Mem.writeLE_wf w1 (a + 8) 4 (mccNow t).toNat
  have hb := bit_timerByte (timerNext step f t a)
  rw [← read_writeLE_first w2 (a + 12) 3] at hb
  obtain ⟨h0, h1, h2, h3⟩ := hb
  rw [timer_eq]
  refine ⟨?_, h0, h1, h2, h3, ?_, congrArg boolRes h1.symm⟩
  · refine Eq.trans ?_ (fld_setFld w (a + 4) lo hi)
    unfold fld
    rw [Mem.readLE_congr fun y h h' => ?_]
    rw [Mem.read_writeLE_out w2 _ _ (by omega), Mem.read_writeLE_out w1 _ _ (by omega)]
  · rw [Mem.readLE_congr fun y h h' => Mem.read_writeLE_out w2 _ _ (by omega), Mem.readLE_writeLE w1]
    exact Nat.mod_eq_of_lt (mccNow t).isLt

theorem timerPt_bounds (t : Tile) (f : FBF) (a : Nat) : 0 ≤ timerPt t f a ∧ timerPt t f a ≤ 2 ^ 31 - 1 := by
  have h1 := fld_bounds t.mem a
  have h2 : opnd 0xB (t.reg f.rb) ≤ 2 ^ 31 - 1 := Int.le_sub_one_of_lt BitVec.toInt_lt
  unfold timerPt
  split <;> omega

theorem dtUs_nonneg (t : Tile) (a o : Nat) (v : Bool) : 0 ≤ dtUs t a o v := by
  unfold dtUs
  dsimp only
  split <;> omega

/-- The elapsed time that a step shows stays within a TIME. -/
theorem step_bounds {x : TimerSt} {i : Bool} {dt pt : Int} (hx : -(2 ^ 31) ≤ x.et ∧ x.et ≤ 2 ^ 31 - 1) (hd : 0 ≤ dt)
    (hp : 0 ≤ pt ∧ pt ≤ 2 ^ 31 - 1) :
    (-(2 ^ 31) ≤ (tonStep x i dt pt).et ∧ (tonStep x i dt pt).et ≤ 2 ^ 31 - 1) ∧
    (-(2 ^ 31) ≤ (tofStep x i dt pt).et ∧ (tofStep x i dt pt).et ≤ 2 ^ 31 - 1) ∧
    (-(2 ^ 31) ≤ (tpStep x i dt pt).et ∧ (tpStep x i dt pt).et ≤ 2 ^ 31 - 1) := by
  refine ⟨?_, ?_, ?_⟩
  · unfold tonStep
    dsimp only
    split_ifs <;> dsimp only <;> omega
  · unfold tofStep
    dsimp only
    split_ifs <;> dsimp only <;> omega
  · unfold tpStep
    dsimp only
    split_ifs <;> dsimp only <;> omega

/-! ### The steps of the three timers -/

section
variable (x : TimerSt) (i : Bool) (dt pt : Int)

theorem tonStep_eq : tonStep x i dt pt =
    { prev := i, q := i && decide (pt ≤ if x.prev then min (x.et + dt) pt else 0), run := x.run
      et := if i then (if x.prev then min (x.et + dt) pt else 0) else 0 } := by
  cases i <;> rfl

theorem tofStep_eq : tofStep x i dt pt =
    { prev := i, q := i || decide ((if x.prev then 0 else if x.q then min (x.et + dt) pt else x.et) < pt), run := x.run
      et := if i || x.prev then 0 else if x.q then min (x.et + dt) pt else x.et } := by
  cases i with
  | true => rfl
  | false =>
    simp only [tofStep, Bool.false_or, Bool.false_eq_true, if_false]

theorem tpStep_prev : (tpStep x i dt pt).prev = i := by
  unfold tpStep
  dsimp only
  split_ifs <;> rfl

theorem tpStep_start (hp : x.prev = false) (hr : x.run = false) :
    (tpStep x true dt pt).et = 0 ∧ (tpStep x true dt pt).q = decide (0 < pt) ∧ (tpStep x true dt pt).run = decide (0 < pt) := by
  by_cases h : pt ≤ 0
  · have : ¬ 0 < pt := by omega
    simp [tpStep, hp, hr, h, this]
  · have : 0 < pt := by omega
    simp [tpStep, hp, hr, h, this]

theorem tpStep_ends (hr : x.run = true) (h : pt ≤ min (x.et + dt) pt) :
    tpStep x i dt pt = { prev := i, q := false, run := false, et := if i then min (x.et + dt) pt else 0 } := by
  simp only [tpStep, hr, h, Bool.not_true, Bool.and_false, Bool.false_eq_true, if_false, if_true, Bool.or_true, decide_true, Bool.and_self]

theorem tpStep_goes (hr : x.run = true) (h : min (x.et + dt) pt < pt) :
    tpStep x i dt pt = { prev := i, q := x.q, run := true, et := min (x.et + dt) pt } := by
  have : ¬ pt ≤ min (x.et + dt) pt := by omega
  simp only [tpStep, hr, this, Bool.not_true, Bool.and_false, Bool.false_eq_true, if_false, if_true, Bool.or_true, decide_false]

theorem tpStep_rests (hr : x.run = false) (h : i = false ∨ x.prev = true) :
    tpStep x i dt pt = { prev := i, q := x.q, run := false, et := if i then x.et else 0 } := by
  have : (i && !x.prev && !false) = false := by rcases h with h | h <;> simp [h]
  simp only [tpStep, hr, this, Bool.or_self, Bool.false_and, Bool.false_eq_true, if_false]

end

/-- Settles O18: what each timer's step makes of the instance's state. -/
theorem timers : Obligations.Timers := by
  intro t f a w x st was q run et pt grown kept on off tp
  have hx : -(2 ^ 31) ≤ (timerSt t a).et ∧ (timerSt t a).et ≤ 2 ^ 31 - 1 := fld_bounds t.mem (a + 4)
  have hpt : timerPt t f a = pt := by
    unfold timerPt
    exact apply_ite (max 0) ..
  have hp0 : 0 ≤ pt := hpt ▸ (timerPt_bounds t f a).1
  obtain ⟨⟨lo1, hi1⟩, ⟨lo2, hi2⟩, lo3, hi3⟩ := step_bounds (i := x) hx (dtUs_nonneg t a 8 (st t.mem 3)) (timerPt_bounds t f a)
  obtain ⟨e1, p1, q1, r1, v1, m1, s1⟩ := timer_leaves tonStep f a w lo1 hi1
  obtain ⟨e2, p2, q2, r2, v2, m2, s2⟩ := timer_leaves tofStep f a w lo2 hi2
  obtain ⟨e3, p3, q3, r3, v3, m3, s3⟩ := timer_leaves tpStep f a w lo3 hi3
  have n1 := tonStep_eq (timerSt t a) x (dtUs t a 8 (st t.mem 3)) pt
  have n2 := tofStep_eq (timerSt t a) x (dtUs t a 8 (st t.mem 3)) pt
  have h1 : timerNext tonStep f t a = tonStep (timerSt t a) x (dtUs t a 8 (st t.mem 3)) pt := by rw [← hpt]; rfl
  have h2 : timerNext tofStep f t a = tofStep (timerSt t a) x (dtUs t a 8 (st t.mem 3)) pt := by rw [← hpt]; rfl
  have h3 : timerNext tpStep f t a = tpStep (timerSt t a) x (dtUs t a 8 (st t.mem 3)) pt := by rw [← hpt]; rfl
  rw [h1, n1] at e1 p1 q1 r1
  rw [h2, n2] at e2 p2 q2 r2
  rw [h3] at e3 p3 q3 r3
  have out (step) (z : Nat) (h : z < a + 4 ∨ a + 16 ≤ z) : (timer step f t a).1.read z = t.mem.read z := timer_read_out w f a step h
  refine ⟨⟨p1, v1, s1, m1, out _⟩, ⟨p2, v2, s2, m2, out _⟩, ⟨p3.trans (tpStep_prev ..), v3, s3, m3, out _⟩, e1, ?_, r1,
    fun h0 het => ?_, e2, ?_, r2,
    fun hx hwas hrun => ?_, fun hrun => ⟨?_, fun hg => ?_, fun hg => ?_⟩, fun hx hrun => ?_, fun hx hwas hrun => ?_⟩
  · show bit _ 1 = _
    rw [q1, e1]
    by_cases h : x = true <;> simp [h]
  · show bit _ 1 = _
    rw [q1]
    have hd := dtUs_nonneg t a 8 (st t.mem 3)
    have : pt ≤ if (timerSt t a).prev = true then min ((timerSt t a).et + dtUs t a 8 (st t.mem 3)) pt else 0 := by
      rw [h0]
      split
      · exact le_min (add_nonneg het hd) le_rfl
      · exact le_rfl
    rw [decide_eq_true this, Bool.and_true]
  · show bit _ 1 = _
    rw [q2, e2]
    by_cases h : x = true <;> simp [h]
  · have h := tpStep_start (timerSt t a) (dtUs t a 8 (st t.mem 3)) pt hwas hrun
    rw [hx] at e3 q3 r3
    exact ⟨e3.trans h.1, q3.trans h.2.1, r3.trans h.2.2⟩
  · rcases le_or_gt pt grown with hg | hg
    · rw [tpStep_ends (timerSt t a) x _ pt hrun hg] at e3
      refine e3.trans ?_
      by_cases h : x = true <;> simp [h, hg]
      rfl
    · rw [tpStep_goes (timerSt t a) x _ pt hrun hg] at e3
      exact e3.trans (if_neg fun h => by omega).symm
  · rw [tpStep_ends (timerSt t a) x _ pt hrun hg] at q3 r3
    exact ⟨q3, r3⟩
  · rw [tpStep_goes (timerSt t a) x _ pt hrun hg] at q3 r3
    exact ⟨q3, r3⟩
  · rw [tpStep_rests (timerSt t a) x _ pt hrun (.inl hx)] at e3 q3 r3
    exact ⟨e3.trans (if_neg (by simp [hx])), q3, r3⟩
  · rw [tpStep_rests (timerSt t a) x _ pt hrun (.inr hwas)] at e3 q3 r3
    exact ⟨e3.trans (if_pos hx), q3, r3⟩

/-! ## System instructions of the tiles (R136 to R141) -/

theorem modTile_modTile (s : State) (n : TileNo) (g k : Tile → Tile) : modTile (modTile s n g) n k = modTile s n (fun t => k (g t)) := by
  unfold modTile Fabric.modTile
  rw [modNth_modNth]

theorem issue_s0 {s : State} {n : TileNo} {op : Nat} {f : TFields} (h : Tile → HalfBundle) (hr : (s.fab.tile n).ready .s0 = true)
    (hf : fieldsOk op f = true) :
    issue s n .s0 op f h = modTile s n (fun t => { (t.leaveSlack .s0) with open0 := some (h (t.leaveSlack .s0)) }) :=
  Host.Outcome.next.inj (issue_opens h hr hf)

/-- A word that the running program may not contain traps. -/
theorem trapWord_holds {s : State} (hs : FabOk s.fab) (hh : s.fab.state ≠ .halted) (n : TileNo) (sl : Slot) :
    TileHeld s (trapWord s n sl) n ∧ Records s (trapWord s n sl) .error (srcTile n) (cFault 0) :=
  tileTrap_holds hs hh n _

theorem regs_leaveSlack (t : Tile) (sl : Slot) : (t.leaveSlack sl).regs = t.regs := by
  rw [leaveSlack_eq]

theorem hand_leaveSlack (t : Tile) (sl : Slot) : (t.leaveSlack sl).hand = t.hand := by
  rw [leaveSlack_eq]

theorem reg_leaveSlack (t : Tile) (sl : Slot) (r : GReg) : (t.leaveSlack sl).reg r = t.reg r := by
  rw [Tile.reg, regs_leaveSlack, Tile.reg]

/-- The bundle of END ended: the main program drains, a handler is at its end (R140). -/
theorem endBundle_stop {t : Tile} (hr : t.runner ≠ .none) {a : HalfBundle} (ha : a.ctl = .stop) (b : HalfBundle) :
    (t.endBundle a b).mem = t.mem ∧ (t.endBundle a b).runner = .none ∧ (t.runner = .main → (t.endBundle a b).phase = .drain) ∧
      ∀ h, t.runner = .handler h → (t.endBundle a b).phase = t.phase ∧
        ∃ k, (t.endBundle a b).hand = some k ∧ k.ended = true ∧ k.task = h.task ∧ k.recs = h.recs ∧ k.launch = h.launch := by
  cases h : t.runner with
  | none => exact absurd h hr
  | main =>
    rw [endBundle_main h]
    refine ⟨rfl, ?_, fun _ => if_pos ha, nofun⟩
    simp [Tile.runner, hand_of_main h, ha]
  | handler j =>
    rw [endBundle_handler h]
    refine ⟨rfl, ?_, nofun, fun k hk => ?_⟩
    · simp [Tile.runner, HandlerRun.bundle, ha]
    · cases hk
      exact ⟨rfl, _, rfl, by simp [HandlerRun.bundle, ha], rfl, rfl, rfl⟩

section
variable {s : State} {n : TileNo} {op : Nat} {f : TFields} (h : Tile → HalfBundle) (eff : Tile → Tile) (hr : (s.fab.tile n).ready .s0 = true)
include hr

theorem issueIn_main (hf : fieldsOk op f = true) (hm : (s.fab.tile n).runner = .main) :
    issueIn s n op f false h eff = modTile s n (fun t => eff { (t.leaveSlack .s0) with open0 := some (h (t.leaveSlack .s0)) }) := by
  unfold issueIn
  dsimp only
  rw [hr, hm, issue_s0 h hr hf, modTile_modTile]
  rfl

theorem issueIn_handler (hf : fieldsOk op f = true) {k : HandlerRun} (hk : (s.fab.tile n).runner = .handler k) :
    issueIn s n op f true h eff = modTile s n (fun t => eff { (t.leaveSlack .s0) with open0 := some (h (t.leaveSlack .s0)) }) := by
  unfold issueIn
  dsimp only
  rw [hr, hk, issue_s0 h hr hf, modTile_modTile]
  rfl

theorem issueIn_trap_main (hm : (s.fab.tile n).runner = .main) : issueIn s n op f true h eff = trapWord s n .s0 := by
  unfold issueIn
  dsimp only
  rw [hr, hm]
  rfl

theorem issueIn_trap_handler {k : HandlerRun} (hk : (s.fab.tile n).runner = .handler k) : issueIn s n op f false h eff = trapWord s n .s0 := by
  unfold issueIn
  dsimp only
  rw [hr, hk]
  rfl

end

theorem fieldsOk_evrec {f : EF} (h : f.sev.toNat ≤ 4) : fieldsOk 0x2E (.e f) = true := decide_eq_true h

section
variable {s : State} {n : TileNo} {f : EF} (hr : (s.fab.tile n).ready .s0 = true)
include hr

/-- EVREC of the main program stages its record while fewer than 4 are staged. -/
theorem evrec_main (hm : (s.fab.tile n).runner = .main) (hf : f.sev.toNat ≤ 4) :
    execEvrec n f s = .next (if (s.fab.tile n).recs.length < 4 then
      modTile s n (fun t => { (t.leaveSlack .s0) with
        open0 := some { cyc := 4, set := flagIf false fEVDROP }
        recs := (t.leaveSlack .s0).recs ++ [⟨f.sev.toNat, f.code, (s.fab.tile n).reg f.ra⟩] })
      else modTile s n (fun t => { (t.leaveSlack .s0) with open0 := some { cyc := 4, set := flagIf true fEVDROP } })) := by
  unfold execEvrec
  dsimp only
  rw [hr, hm, fieldsOk_evrec hf, issue_s0 _ hr (fieldsOk_evrec hf)]
  by_cases h4 : (s.fab.tile n).recs.length < 4
  · simp [h4, Nat.not_le.2 h4, modTile_modTile]
  · simp [h4, Nat.not_lt.1 h4]

/-- EVREC of a handler stages its record with the handler. -/
theorem evrec_handler {h : HandlerRun} (hk : (s.fab.tile n).runner = .handler h) (hf : f.sev.toNat ≤ 4) :
    execEvrec n f s = .next (if h.recs.length < 4 then
      modTile s n (fun t => { (t.leaveSlack .s0) with
        open0 := some { cyc := 4, set := flagIf false fEVDROP }
        hand := (t.leaveSlack .s0).hand.map (fun h => { h with recs := h.recs ++ [⟨f.sev.toNat, f.code, (s.fab.tile n).reg f.ra⟩] }) })
      else modTile s n (fun t => { (t.leaveSlack .s0) with open0 := some { cyc := 4, set := flagIf true fEVDROP } })) := by
  unfold execEvrec
  dsimp only
  rw [hr, hk, fieldsOk_evrec hf, issue_s0 _ hr (fieldsOk_evrec hf)]
  by_cases h4 : h.recs.length < 4
  · simp [h4, Nat.not_le.2 h4, modTile_modTile]
  · simp [h4, Nat.not_lt.1 h4]

end

/-- Settles O20: each is issued, with its effect on the tile, by the program that may contain it, and traps in the other. -/
theorem tileSystem : Obligations.TileSystem := by
  intro n s hs
  refine ⟨fun sl a hsl hr ho ha => ?_, fun hr => ⟨fun x => ?_, fun hm => ?_, ?_, fun h ra hk => ?_, fun ra hm hh => ?_, fun f hm hf => ?_,
    fun f h hk hf => ?_,
    fun h hk hh => ?_⟩⟩
  · subst hsl
    have he : issue s n .s1 0x00 .z (fun _ => { cyc := 1 }) =
        bundleCount (modTile s n (fun t => (t.leaveSlack .s1).take .s1 { cyc := 1 })) .s1 := by
      have hz : fieldsOk 0x00 .z = true := rfl
      simp [issue, hr, hz]
    obtain ⟨ht, -, heq⟩ := bundleCount_modTile hs n (fun t => (t.leaveSlack .s1).take .s1 { cyc := 1 })
    have hb : ((s.fab.tile n).leaveSlack .s1).take .s1 { cyc := 1 } = (s.fab.tile n).endBundle a { cyc := 1 } := by
      simp [Tile.leaveSlack, Tile.take, ho]
    rw [hb] at ht
    obtain ⟨h1, h2, h3, h4⟩ := endBundle_stop (runner_of_ready hr) ha { cyc := 1 }
    rw [← ht] at h1 h2 h3 h4
    exact ⟨_, congrArg Host.Outcome.next he, h1, h2, h3, h4, heq⟩
  · have he : execXmit n x s = .next (modTile s n (fun t => { (t.leaveSlack .s0) with open0 := some { cyc := 1 }, sent := x.toNat :: t.sent })) := by
      rw [execXmit, issue_s0 _ hr rfl, modTile_modTile]
      simp only [hr]
      exact congrArg _ (modTile_congr (by rw [leaveSlack_eq]))
    refine ⟨_, he, ?_, ?_, rfl⟩ <;> rw [tile_modTile_self hs.1]
  · let p := tileProg s n (s.fab.tile n).codeHalf
    have he := issueIn_main (op := 0x30) (f := .z) (fun _ => { cyc := p.slackCyc })
      (fun t => { t with phase := .slack, windows := t.windows + 1, winStart := t.now, winLeft := p.slackCyc }) hr rfl hm
    obtain ⟨u, hu⟩ : ∃ u, issueIn s n 0x30 .z false (fun _ => { cyc := p.slackCyc })
      (fun t => { t with phase := .slack, windows := t.windows + 1, winStart := t.now, winLeft := p.slackCyc }) = u := ⟨_, rfl⟩
    rw [hu] at he
    have ht := congrArg (·.fab.tile n) he
    rw [tile_modTile_self hs.1] at ht
    have hw : (u.fab.tile n).windows ≠ (s.fab.tile n).windows := by
      rw [ht]
      show ((s.fab.tile n).leaveSlack .s0).windows + 1 ≠ _
      rw [leaveSlack_eq]
      exact fun e => absurd (left_eq_add.1 e.symm) (by decide)
    have hx : execSlack n s = .next (pmuCount u 8 0x202 1) := by
      unfold execSlack
      dsimp only
      rw [hu, if_neg hw]
    refine ⟨_, hx, ?_, ?_, ?_⟩
    · rw [pmuCount_fab, ht]
    · rw [pmuCount_fab, ht]
    · rw [pmuCount_eq (by decide), he]
      rfl
  · refine ⟨_, congrArg Host.Outcome.next (issue_s0 _ hr rfl), ?_, ?_, ?_, rfl⟩ <;> rw [tile_modTile_self hs.1]
    · exact mem_leaveSlack ..
    · exact regs_leaveSlack ..
  · refine ⟨_, congrArg Host.Outcome.next (issueIn_handler _ _ hr rfl hk), ?_, ?_⟩ <;> rw [tile_modTile_self hs.1]
    · refine ⟨if launchOk ((s.fab.tile n).reg ra) h.startTtc then { h with launch := some ((s.fab.tile n).reg ra) } else h, ?_, by split <;> rfl⟩
      show ((s.fab.tile n).leaveSlack .s0).hand.map (fun h =>
        if launchOk (((s.fab.tile n).leaveSlack .s0).reg ra) h.startTtc then
          { h with launch := some (((s.fab.tile n).leaveSlack .s0).reg ra) }
        else h) = _
      rw [hand_leaveSlack, (hand_of_handler hk).1, reg_leaveSlack]
      rfl
    · rw [hand_leaveSlack, (hand_of_handler hk).1, reg_leaveSlack]
  · exact ⟨_, congrArg Host.Outcome.next (issueIn_trap_main _ _ hr hm), trapWord_holds hs hh n _⟩
  · have hx := evrec_main hr hm hf
    split at hx
    · next h4 =>
      refine ⟨_, hx, ?_, ?_, rfl⟩ <;> rw [tile_modTile_self hs.1]
      · rw [if_pos h4, leaveSlack_eq]
      · rw [decide_eq_false (by omega)]
    · next h4 =>
      refine ⟨_, hx, ?_, ?_, rfl⟩ <;> rw [tile_modTile_self hs.1]
      · rw [if_neg h4, leaveSlack_eq]
      · rw [decide_eq_true (by omega)]
  · have hx := evrec_handler hr hk hf
    have hh : ((s.fab.tile n).leaveSlack .s0).hand = some h := (hand_leaveSlack ..).trans (hand_of_handler hk).1
    split at hx
    · next h4 =>
      refine ⟨_, hx, ?_, ?_⟩ <;> rw [tile_modTile_self hs.1]
      · exact ⟨{ h with recs := h.recs ++ [⟨f.sev.toNat, f.code, (s.fab.tile n).reg f.ra⟩] }, congrArg (Option.map _) hh, (if_pos h4).symm⟩
      · rw [decide_eq_false (by omega)]
    · next h4 =>
      refine ⟨_, hx, ?_, ?_⟩ <;> rw [tile_modTile_self hs.1]
      · exact ⟨h, hh, (if_neg h4).symm⟩
      · rw [decide_eq_true (by omega)]
  · obtain ⟨hheld, hrec⟩ := trapWord_holds hs hh n .s0
    show ∃ t, execSlack n s = .next t ∧ _
    unfold execSlack
    dsimp only
    rw [issueIn_trap_handler _ _ hr hk]
    split
    · exact ⟨_, rfl, hheld, hrec⟩
    · exact ⟨_, rfl, by rw [TileHeld, pmuCount_fab]; exact hheld, by rw [Records, pmuCount_evr]; exact hrec⟩

/-! ## Scheduled transfers and ECC errors (R110, R115) -/

/-- A transfer of tile 0 in the configuration in force, and another of tile 1 under the same number in the one before it, whose program tile 1 still
runs and has sent: the transfer that takes place is the old one. -/
def oldTransfer : State :=
  { State.reset with
    ci := { State.reset.ci with
      act := { State.reset.ci.act with xfers := [⟨0, 0, 3, false, 0, 1, 1, 0, 0, 0⟩] }
      shd := { State.reset.ci.shd with xfers := [⟨0, 1, 2, false, 0, 1, 1, 0, 0, 0⟩] } }
    fab := { State.reset.fab with
      state := .running
      tiles := {} :: { phase := .idle, codeHalf := 1, sent := [0] } :: { phase := .idle } :: List.replicate 45 {} } }

theorem oldTransfer_ok : FabOk oldTransfer.fab := by
  refine ⟨by decide, fun t ht => ?_⟩
  simp only [oldTransfer, List.mem_cons, List.mem_replicate] at ht
  rcases ht with rfl | rfl | rfl | ⟨-, rfl⟩ <;> exact ⟨rfl, rfl⟩

/-- Refutes O24: tile 0 has sent nothing, yet the number names the transfer of the configuration before,
  which tile 1 has sent and which takes place. -/
theorem not_transferMovesWords : ¬ Obligations.TransferMovesWords := by
  intro h
  have := (h 0 oldTransfer ⟨0, 0, 3, false, 0, 1, 1, 0, 0, 0⟩ (by decide) (by decide) oldTransfer_ok rfl).2 (by decide)
  have hs := congrArg (fun o => match o with | .next t => (t.fab.tile 1).sent | _ => []) this
  revert hs
  decide

/-- Refutes O26: an uncorrectable error of the old transfer resets its destination, tile 2, and not tile 3, to which the number leads now. -/
theorem not_fabricEcc : ¬ Obligations.FabricEcc := by
  intro h
  obtain ⟨-, -, -, -, t, ht, -, -, h⟩ := h 0 oldTransfer 0 0 0 oldTransfer_ok
  have hh := (h ⟨0, 0, 3, false, 0, 1, 1, 0, 0, 0⟩ (by decide) rfl (by decide)).2.2.2.1
  have hb : bit (match exec (.linkEccError 0 false) oldTransfer with | .next t => t.fab.fault | _ => 0) 3 = false := by decide
  rw [ht] at hb
  exact absurd (hh.symm.trans hb) (by decide)

/-! ## TILE and FABRIC resets (R115 to R120) -/

theorem nthD_eq_getElem {α : Type} (l : List α) {i : Nat} (d : α) (h : i < l.length) : nthD l i d = l[i] := by
  induction l generalizing i with
  | nil => simp at h
  | cons x l ih =>
    cases i with
    | zero => rfl
    | succ i => exact ih (by simpa using h)

theorem nthD_of_le {α : Type} (l : List α) {i : Nat} (d : α) (h : l.length ≤ i) : nthD l i d = d := by
  induction l generalizing i with
  | nil => rfl
  | cons x l ih =>
    cases i with
    | zero => simp at h
    | succ i => exact ih (by simpa using h)

/-- An element of a list whose elements are changed each by its position. -/
theorem nthD_zip_range_map {α β : Type} (l : List α) {n i : Nat} (f : Nat × α → β) (d : α) (e : β) (h : i < l.length) (hn : i < n) :
    nthD (((List.range n).zip l).map f) i e = f (i, nthD l i d) := by
  have hl : i < (((List.range n).zip l).map f).length := by simp [h, hn]
  rw [nthD_eq_getElem _ _ hl, nthD_eq_getElem _ _ h]
  simp

theorem foldl_requeue (l : List HandlerRun) (g : Glb) : l.foldl requeue g = { g with evts := (l.foldl requeue g).evts } := by
  induction l generalizing g with
  | nil => rfl
  | cons h l ih =>
    rw [List.foldl_cons, ih (requeue g h)]
    rfl

theorem fabricHold_haltStop (s : State) (esc : Bool) : (fabricHold s esc).glb.haltStop = s.glb.haltStop := by
  unfold fabricHold
  dsimp only
  rw [foldl_requeue]

/-- An instance that a reset of the fabric leaves is the one that was there, unfinished ones of the fabric broken (R118). -/
theorem mem_fabricHold_inst {s : State} {esc : Bool} {i : Instance} (h : i ∈ (fabricHold s esc).glb.inst) :
    ∃ j ∈ s.glb.inst, i.task = j.task ∧ i.complete = j.complete ∧ (j.broken = true → i.broken = true) ∧
      ∀ r, taskRec s.ci.act j.task = some r → r.engine = 0 → j.complete = true ∨ i.broken = true := by
  unfold fabricHold at h
  dsimp only at h
  rw [foldl_requeue] at h
  obtain ⟨j, hj, rfl⟩ := List.mem_map.1 h
  refine ⟨j, hj, ?_⟩
  split_ifs with hc
  · exact ⟨rfl, rfl, fun _ => rfl, fun _ _ _ => .inr rfl⟩
  · refine ⟨rfl, rfl, id, fun r hr he => .inl ?_⟩
    simpa [hr, he] using hc

/-! ### The escalation -/

section
variable (s : State)

theorem fabricEscalate_epoch : (fabricEscalate s).fab.epoch = s.fab.epoch + 1 := by
  unfold fabricEscalate
  dsimp only
  split_ifs <;> simp [fabricHold]

theorem fabricEscalate_inst : (fabricEscalate s).glb.inst = (fabricHold s true).glb.inst := by
  unfold fabricEscalate
  dsimp only
  split_ifs <;> simp

variable {s}

/-- A second escalation within 60 s halts the fabric. -/
theorem fabricEscalate_again {o : Nat} (h : s.fab.lastEsc = some o) (ho : s.cul.optime.toNat < o + 600) :
    (fabricEscalate s).fab.state = .halted ∧ (fabricEscalate s).glb.haltStop = true := by
  unfold fabricEscalate
  simp [h, ho]

theorem fabricEscalate_first (h : ∀ o, s.fab.lastEsc = some o → o + 600 ≤ s.cul.optime.toNat) :
    (fabricEscalate s).fab.state = .loading ∧ (fabricEscalate s).glb.haltStop = s.glb.haltStop := by
  have hf := fabricHold_haltStop s true
  unfold fabricEscalate
  cases hl : s.fab.lastEsc with
  | none => exact ⟨by simp [fabricHold], by simpa using hf⟩
  | some o =>
    have := h o hl
    simp [Nat.not_lt.2 this, hf]
    rfl

end

/-! ### The end of a reset -/

theorem restart_phase (t : Tile) (g : ConfImage) (n : TileNo) (p : TileProg) (h : BitVec 1) :
    (t.restart g n p h).phase = .idle ∨ (t.restart g n p h).phase = .unused := by
  unfold Tile.restart
  dsimp only
  split
  · exact .inr rfl
  · exact .inl rfl

/-! ### What a TILE reset does -/

/-- The state after a commanded reset's record. -/
theorem tileResetRecord_command (s : State) (n : TileNo) : tileResetRecord s n true = record s
    (if (s.fab.tile n).hand.isSome = true then .warning else if (s.fab.tile n).inst = true then .error else .notice) (srcTile n)
      (cFault 0) n.val := by
  unfold tileResetRecord
  dsimp only
  cases (s.fab.tile n).hand.isSome <;> cases (s.fab.tile n).inst <;> rfl

theorem mem_heldTile_inst {s : State} {n : TileNo} (h : (s.fab.tile n).inst = true) {i : Instance} (hi : i ∈ (heldTile s n).glb.inst)
    (ht : i.task = (s.fab.tile n).task.toNat) : i.broken = true := by
  unfold heldTile at hi
  dsimp only at hi
  rw [pmuCount_glb] at hi
  simp only [h, if_true, breakTask] at hi
  obtain ⟨j, -, rfl⟩ := List.mem_map.1 hi
  by_cases e : j.task = (s.fab.tile n).task.toNat
  · simp [e]
  · simp [e] at ht

theorem heldTile_fab (s : State) (n : TileNo) :
    (heldTile s n).fab = { s.fab with tiles := (heldTile s n).fab.tiles, fault := setBit s.fab.fault n.val } := by
  simp [heldTile, Fabric.modTile]

theorem heldTile_cul (s : State) (n : TileNo) : (heldTile s n).cul = s.cul := by
  simp [heldTile]

theorem heldTile_rst (s : State) (n : TileNo) : (heldTile s n).rst = s.rst := by
  simp [heldTile]

theorem heldTile_haltStop (s : State) (n : TileNo) : (heldTile s n).glb.haltStop = s.glb.haltStop := by
  simp only [heldTile, pmuCount_glb]
  split <;> split <;> rfl

/-- Settles O27: a commanded reset is recorded, holds the tile and escalates at the third within 60 s; its end restarts the tile. -/
theorem tileResets : Obligations.TileResets := by
  intro n s hs
  refine ⟨fun hh => ?_, fun hp hst => ?_, fun hp => ?_⟩
  · let s1 : State := { s with rst := { s.rst with source := .command, kind := 6 } }
    obtain ⟨u, hu⟩ : ∃ u, tileResetRecord s1 n true = u := ⟨_, rfl⟩
    have hrec := (tileResetRecord_command s1 n).symm.trans hu
    have hw : Wrote 1 s u _ (srcTile n) (cFault 0) := hrec ▸ wrote_record (s := s) (t := s1) rfl ..
    have hfab : u.fab = s.fab := by rw [← hrec]; simp [s1]
    have hcul : u.cul = s.cul := by rw [← hrec]; simp [s1]
    have hrst : u.rst = s1.rst := by rw [← hrec]; simp [s1]
    have hglb : u.glb = s.glb := by rw [← hrec]; simp [s1]
    have hx : exec (.tileReset n) s = .next (resetTile u n) := by
      show Host.Outcome.next (tileReset s n .command) = _
      rw [tileReset, if_neg hh, ← hu]
      rfl
    have hheld := resetTile_held (hfab ▸ hs) n
    rw [TileHeld, hfab] at hheld
    refine ⟨_, hx, hheld, (resetTile_wrote hw n (by decide)).records, fun he => ?_, fun hi i hmem ht => ?_, fun h2 => ?_, fun h2 => ?_⟩
    · have hlt : ¬ 2 ≤ (within60 u.cul.optime (u.fab.tile n).resets).length := by
        intro h2
        rw [resetTile_eq, if_pos h2, fabricEscalate_epoch, heldTile_fab, hfab] at he
        exact absurd (left_eq_add.1 he.symm) (by decide)
      rw [resetTile_eq, if_neg hlt, heldTile_rst, hrst]
      exact ⟨rfl, rfl⟩
    · rw [← hfab] at hi ht
      rw [resetTile_eq] at hmem
      split at hmem
      · rw [fabricEscalate_inst] at hmem
        obtain ⟨j, hj, htask, -, hb, -⟩ := mem_fabricHold_inst hmem
        exact hb (mem_heldTile_inst hi hj (htask ▸ ht))
      · exact mem_heldTile_inst hi hmem ht
    · rw [← hfab, ← hcul] at h2
      rw [resetTile_eq, if_pos h2]
      refine ⟨fun m => ?_, ?_, fun o ho ht => ?_, fun ho => ?_⟩
      · rw [fabricEscalate_tile (heldTile_ok (hfab ▸ hs) n)]
        rfl
      · rw [fabricEscalate_epoch, heldTile_fab, hfab]
      · exact fabricEscalate_again (o := o) (by rw [heldTile_fab, hfab]; exact ho) (by rw [heldTile_cul, hcul]; exact ht)
      · have := fabricEscalate_first (s := heldTile u n) (by rw [heldTile_fab, hfab, heldTile_cul, hcul]; exact ho)
        rw [heldTile_haltStop, hglb] at this
        exact this
    · rw [← hfab, ← hcul] at h2
      rw [resetTile_eq, if_neg (by omega)]
      refine ⟨by rw [heldTile_fab, hfab], by rw [heldTile_fab, hfab], fun m hm => ?_⟩
      rw [heldTile_ne n hm, hfab]
  · have hx : execTileResetDone n s = .next (modTile s n
        (fun t => { (t.restart s.ci.act n (tileProg s n s.ci.plane) s.ci.plane) with winStart := s.tb.ttc })) := by
      unfold execTileResetDone
      exact congrArg _ (if_pos ⟨hp, hst⟩)
    refine ⟨_, hx, ?_, ?_, ?_, ?_, ?_, onlyTile_mod ..⟩ <;> rw [tile_modTile_self hs.1]
    · rfl
    · exact restart_phase (s.fab.tile n) s.ci.act n (tileProg s n s.ci.plane) s.ci.plane
    · rfl
    · rfl
    · rfl
  · exact congrArg Host.Outcome.next (if_neg fun h => hp h.1)

theorem fabricReset_done {s : State} {act : Bool} (hh : s.fab.state ≠ .halted) (hn : ¬(act = true ∧ inGroup s = true ∧ s.grp.role = .active)) :
    ∃ t, fabricReset s act = t ∧ t.fab = (fabricHold s false).fab ∧ t.glb = (fabricHold s false).glb ∧ t.rst.kind = 5 ∧ t.pim = s.pim ∧
      t.safe = s.safe ∧
      t.cyc = s.cyc ∧ t.ci = s.ci := by
  have hc : (act && inGroup s && s.grp.role == .active) = false := by
    cases act <;> cases hg : inGroup s <;> simp_all
  refine ⟨_, rfl, ?_⟩
  unfold fabricReset
  dsimp only
  rw [if_neg hh, hc]
  simp only [Bool.false_eq_true, if_false]
  split <;> simp [fabricHold]

/-- Settles O28: a reset holds every tile and breaks what is unfinished; its end restarts every tile. -/
theorem fabricResets : Obligations.FabricResets := by
  intro act s hs
  refine ⟨fun hh hn => ?_, fun hh ha hg hr => ?_, fun hh => ?_, fun hl => ?_, fun hl => ?_⟩
  · obtain ⟨t, ht, hfab, hglb, hk, hpim, hsafe, hcyc, hci⟩ := fabricReset_done (act := act) hh hn
    refine ⟨t, congrArg Host.Outcome.next ht, by rw [hfab]; rfl, by rw [hfab]; rfl, fun m => ?_,
      fun i hi r hr he => ?_, hk, hpim, hsafe, hcyc, hci⟩
    · rw [hfab, fabricHold_tile hs]
      exact ⟨rfl, rfl⟩
    · rw [hglb] at hi
      obtain ⟨j, -, htask, hcomp, -, h⟩ := mem_fabricHold_inst hi
      rw [hcomp]
      exact h r (htask ▸ hr) he
  · have hx : fabricReset s act = record s .warning srcFab (cRefused .refusedPolicy) := by
      simp [fabricReset, hh, ha, hg, hr]
    exact ⟨_, congrArg Host.Outcome.next hx, rfl, record_records ..⟩
  · exact congrArg Host.Outcome.next (if_pos hh)
  · have hx : execFabricResetDone s = .next { restartTasks (restartTiles s) with
        fab := { (restartTasks (restartTiles s)).fab with escalated := false } } := congrArg _ (if_pos hl)
    refine ⟨_, hx, fun m => ?_, rfl, fun e he => ?_, fun k r hr hk he => ?_, rfl⟩
    · have hl : m.val < s.fab.tiles.length := by rw [hs.1]; exact m.isLt
      have ht : (restartTiles s).fab.tile m = { ((s.fab.tile m).restart s.ci.act m (tileProg s m s.ci.plane) s.ci.plane) with winStart :=
        s.tb.ttc } := by
        unfold restartTiles Fabric.tile
        dsimp only
        rw [nthD_zip_range_map s.fab.tiles _ {} _ hl m.isLt]
        exact dif_pos m.isLt
      have ht' : ({ restartTasks (restartTiles s) with fab := { (restartTasks (restartTiles s)).fab with escalated := false } } : State).fab.tile m =
        (restartTiles s).fab.tile m := rfl
      rw [ht', ht]
      exact ⟨rfl, restart_phase (s.fab.tile m) s.ci.act m (tileProg s m s.ci.plane) s.ci.plane, rfl⟩
    · obtain ⟨e', -, rfl⟩ := List.mem_map.1 he
      rfl
    · have hlen : (restartTasks (restartTiles s)).glb.tasks.length = s.glb.tasks.length := by simp [restartTasks, restartTiles]
      rcases Nat.lt_or_ge k s.glb.tasks.length with hk' | hk'
      · have htask : nthD (restartTasks (restartTiles s)).glb.tasks k {} =
            { nthD s.glb.tasks k {} with consec := 0, overrunning := false, reacted := false, substNow := false } := by
          unfold restartTasks restartTiles
          dsimp only
          rw [nthD_zip_range_map s.glb.tasks _ {} _ hk' hk']
          simp [hr, hk, he]
        exact ⟨congrArg TaskStat.consec htask, congrArg TaskStat.reacted htask⟩
      · have htask : nthD (restartTasks (restartTiles s)).glb.tasks k {} = {} := nthD_of_le _ _ (by rw [hlen]; exact hk')
        exact ⟨congrArg TaskStat.consec htask, congrArg TaskStat.reacted htask⟩
  · exact congrArg Host.Outcome.next (if_neg hl)

/-! ## Supplies and pins (R29 to R36, R445 to R449) -/

/-- Settles O29: each command by its own equation. -/
theorem supplyPins : Obligations.SupplyPins := by
  intro s
  refine ⟨⟨_, rfl, rfl, rfl, fun hp h => ?_, fun hd hc hw => ?_⟩, fun hd hp hv hc => ⟨_,
    congrArg Host.Outcome.next (if_pos ⟨hd, hp, hv, hc⟩), rfl, rfl, rfl⟩,
    fun h => ?_, fun h => ?_, fun h => ?_, ⟨_, rfl, rfl, fun h => ?_, rfl⟩, rfl, rfl, fun h1 h4 => ?_, fun h => ?_⟩
  · have hgo : (!(s.glb.state == .dormant && !s.pin.cutOff) || s.pin.wakeAccepted) = true := by
      rcases h with h | h | h <;> simp [h]
    show (s.pin.qualifying || (!s.pin.powerGood && (!(s.glb.state == .dormant && !s.pin.cutOff) || s.pin.wakeAccepted))) = true
    rw [hp, hgo]
    simp
  · simp [hd, hc, hw]
  · refine congrArg Host.Outcome.next (if_neg fun hn => ?_)
    rcases h with h | h
    · exact h hn.1
    · exact Bool.noConfusion (h.symm.trans hn.2.2.1)
  · exact congrArg Host.Outcome.next (if_neg (by simp [h]))
  · exact congrArg Host.Outcome.next (if_pos h)
  · simp [h]
  · refine ⟨_, congrArg Host.Outcome.next (if_neg (by omega)), ?_, rfl⟩
    show (s.pin.ledPhase + 1) % 5 = _
    split <;> omega
  · exact ⟨_, congrArg Host.Outcome.next (if_pos h), record_records .., rfl⟩

/-! ## Fail-silence (R37, R187, R390) -/

theorem linksSilent_down (s : State) : (linksSilent s).grp.brL.up = false ∧ (linksSilent s).grp.brR.up = false := by
  unfold linksSilent
  simp only [List.foldl_cons, List.foldl_nil]
  split_ifs <;> simp_all [modBr, Grp.modBr, Grp.br]

/-- The state in which fail-silence has begun, before the operating state follows. -/
def silentState (s : State) (cause : Byte) (island : Bool) : State :=
  let s1 := linksSilent (soOff s)
  let s2 := { s1 with safe := { s1.safe with
    failSilent := true, silentAt := s1.tb.ttc, running := false, t1 := false, t2 := false, canaryLatch := cause, canaryNew :=
      true, canaryCounted := island, faultLed := true } }
  if island then countCanary s2 cause else s2

theorem failSilence_eq {s : State} (hf : s.safe.failSilent = false) (hp : s.pin.powerGood = true) (cause : Byte) (island : Bool) :
    failSilence s cause island =
      let u := silentState s cause island
      let v := if u.glb.state == .config || u.glb.state == .stop || u.glb.state == .run || u.glb.state == .hold then enterSafeHalt u else u
      { v with evr := { v.evr with flushing := true } } := by
  simp only [failSilence, hf, hp, Bool.not_true, Bool.or_self, Bool.false_eq_true, if_false]
  rfl

section
variable (s : State) (cause : Byte) (island : Bool)

theorem silentState_safe : (silentState s cause island).safe = { s.safe with
    so := s.safe.so.map (fun o => { o with cmd := false }), failSilent := true, silentAt := s.tb.ttc, running := false, t1 := false, t2 := false
    canaryLatch := cause, canaryNew := true, canaryCounted := island, faultLed := true } := by
  have h := linksSilent_within (soOff s)
  have h1 : (linksSilent (soOff s)).safe = (soOff s).safe := h.safe_eq
  have h2 : (linksSilent (soOff s)).tb = s.tb := h.tb_eq
  have h0 : (silentState s cause island).safe = { (linksSilent (soOff s)).safe with
      failSilent := true, silentAt := (linksSilent (soOff s)).tb.ttc, running := false, t1 := false, t2 := false, canaryLatch :=
        cause, canaryNew := true
      canaryCounted := island, faultLed := true } := by
    unfold silentState
    split <;> rfl
  rw [h0, h1, h2]
  rfl

theorem silentState_grp : (silentState s cause island).grp = (linksSilent (soOff s)).grp := by
  unfold silentState
  split <;> rfl

theorem silentState_glb : (silentState s cause island).glb = s.glb := by
  have h : (linksSilent (soOff s)).glb = s.glb := (linksSilent_within (soOff s)).glb_eq
  unfold silentState
  split <;> exact h

end

theorem enterSafeHalt_halts (s : State) : (enterSafeHalt s).glb.state = .safeHalt ∧ (enterSafeHalt s).cyc.running = false ∧
    (enterSafeHalt s).glb.inst = [] := by
  simp [enterSafeHalt, setState]

theorem failSilence_silenced {s : State} (hf : s.safe.failSilent = false) (hp : s.pin.powerGood = true) (cause : Byte) (island : Bool) :
    Silenced s (failSilence s cause island) cause := by
  have hw := failSilence_within s cause island
  have hkeep : (failSilence s cause island).fab = s.fab ∧ (failSilence s cause island).pim = s.pim ∧ (failSilence s cause island).eth = s.eth ∧
      (failSilence s cause island).txe = s.txe ∧ (failSilence s cause island).ci = s.ci ∧ (failSilence s cause island).dram = s.dram :=
    ⟨hw.fab_eq, hw.pim_eq, hw.eth_eq, hw.txe_eq, hw.ci_eq, hw.dram_eq⟩
  rw [failSilence_eq hf hp] at hkeep ⊢
  obtain ⟨u, hu⟩ : ∃ u, silentState s cause island = u := ⟨_, rfl⟩
  have hsafe := silentState_safe s cause island
  have hgrp := silentState_grp s cause island
  have hglb := silentState_glb s cause island
  have hdown := linksSilent_down (soOff s)
  rw [← hgrp] at hdown
  rw [hu] at hkeep hsafe hglb hdown ⊢
  have hhalt := enterSafeHalt_halts u
  have hsafe' : (enterSafeHalt u).safe = u.safe := (enterSafeHalt_within u).safe_eq
  have hgrp' : (enterSafeHalt u).grp = u.grp := (enterSafeHalt_within u).grp_eq
  have hoff : ∀ o ∈ u.safe.so, o.cmd = false := by
    rw [hsafe]
    intro o ho
    obtain ⟨x, -, rfl⟩ := List.mem_map.1 ho
    rfl
  dsimp only at hkeep ⊢
  by_cases hc : (u.glb.state == .config || u.glb.state == .stop || u.glb.state == .run || u.glb.state == .hold) = true
  · rw [if_pos hc] at hkeep ⊢
    unfold Silenced
    dsimp only at hkeep ⊢
    rw [hsafe', hgrp']
    exact ⟨by rw [hsafe], by rw [hsafe], by rw [hsafe], by rw [hsafe], by rw [hsafe], by rw [hsafe], hoff,
      hdown.1, hdown.2, rfl,
      fun _ => hhalt, hkeep⟩
  · rw [if_neg hc] at hkeep ⊢
    refine ⟨by rw [hsafe], by rw [hsafe], by rw [hsafe], by rw [hsafe], by rw [hsafe], by rw [hsafe], hoff,
      hdown.1, hdown.2, rfl, fun h => ?_, hkeep⟩
    refine absurd ?_ hc
    rw [hglb]
    rcases h with h | h | h | h <;> simp [h]

theorem Silenced.of_eq {s u t : State} {cause : Byte} (h : Silenced u t cause) (hst : u.glb.state = s.glb.state) (hfab : u.fab = s.fab)
    (hpim : u.pim = s.pim)
    (heth : u.eth = s.eth) (htxe : u.txe = s.txe) (hci : u.ci = s.ci) (hdram : u.dram = s.dram) : Silenced s t cause := by
  rw [Silenced, hst, hfab, hpim, heth, htxe, hci, hdram] at h
  exact h

section
variable {k : Nat} {s0 s : State} {sev : Sev} {src : BitVec 12} {code : BitVec 16} (h : Wrote k s0 s sev src code) (hk : k + 1 < 16384)
include h hk

theorem enterSafeHalt_wrote : Wrote (k + 2) s0 (enterSafeHalt s) sev src code := by
  have hl : Wrote (k + 1) s0 (lapse s) sev src code := by
    unfold lapse
    split
    · exact h.mono (by omega)
    · exact (h.keep (u := { s with glb := { s.glb with pendCmd := none }, rst := _ }) rfl).record (by omega) ..
  have hset (u : State) (hu : u.evr = (lapse s).evr) : Wrote (k + 2) s0 (setState u .safeHalt) sev src code :=
    ((hl.keep hu).keep rfl).record hk ..
  exact hset _ rfl

/-- A record written before fail-silence is still there after it. -/
theorem failSilence_wrote (cause : Byte) (island : Bool) : Wrote (k + 2) s0 (failSilence s cause island) sev src code := by
  by_cases hc : s.safe.failSilent = true ∨ s.pin.powerGood = false
  · have : failSilence s cause island = s := if_pos (by rcases hc with h | h <;> simp [h])
    rw [this]
    exact h.mono (by omega)
  · obtain ⟨hf, hp⟩ := not_or.1 hc
    rw [failSilence_eq (by simpa using hf) (by simpa using hp)]
    have hu : Wrote k s0 (silentState s cause island) sev src code := h.keep (by
      unfold silentState
      split <;> exact (linksSilent_within (soOff s)).evr_eq)
    dsimp only
    split
    · exact (enterSafeHalt_wrote hu hk).ring rfl
    · exact (hu.ring rfl).mono (by omega)

end

theorem writeLehr_cur (s : State) : (writeLehr s).cul.cur = s.cul.cur := by
  unfold writeLehr
  dsimp only
  split <;> rfl

/-- What a failing input has written before the module loses its power. -/
theorem powerFail_leaves (s : State) (ov : Bool) (since : Word) :
    (powerFail s ov since).cul.cur.cleanEnd = true ∧ (powerFail s ov since).cul.cur.lastTime = s.tb.ttc ∧
      (powerFail s ov since).evr = { s.evr with flushing := true } ∧
      (s.ci.activeValid = true → (powerFail s ov since).rst.retainMcc = pubLatest s.pim) := by
  have hr := retentionPoint_within s
  have hl := writeLehr_within (writeCounters (retentionPoint s) (fun c => { c with cleanEnd := true }))
  unfold powerFail
  dsimp only
  refine ⟨?_, ?_, ?_, fun ha => ?_⟩
  · rw [writeLehr_cur]
    rfl
  · rw [writeLehr_cur]
    exact congrArg (·.ttc) hr.tb_eq
  · rw [hl.evr_eq]
    exact congrArg (fun e : Evr => { e with flushing := true }) hr.evr_eq
  · rw [hl.rst_eq]
    simp [writeCounters, retentionPoint, ha]

theorem powerFail_powerGood (s : State) (ov : Bool) (since : Word) : (powerFail s ov since).pin.powerGood = s.pin.powerGood := by
  have hr := retentionPoint_within s
  have hl := writeLehr_within (writeCounters (retentionPoint s) (fun c => { c with cleanEnd := true }))
  unfold powerFail
  dsimp only
  rw [hl.pin_eq]
  exact congrArg Pin.powerGood hr.pin_eq

/-- Settles O30: what the warning, its clearing and the cut-off write. -/
theorem powerFailure : Obligations.PowerFailure := by
  intro s hp
  refine ⟨fun hw => ⟨?_, ?_⟩, fun w hw => ⟨?_, ?_, fun hf => ?_⟩⟩
  · have h := powerFail_within s false (s.tb.ttc - 200000)
    obtain ⟨hclean, hlast, hevr, hret⟩ := powerFail_leaves s false (s.tb.ttc - 200000)
    exact ⟨_, congrArg Host.Outcome.next (if_pos (by simp [hp, hw])), rfl, hevr, hclean, hlast, (powerFail_powerGood ..).trans hp,
      h.glb_eq, h.fab_eq, h.pim_eq,
      h.cyc_eq, h.safe_eq, hret⟩
  · have h := powerFail_within s true s.tb.ttc
    obtain ⟨hclean, -, hevr, -⟩ := powerFail_leaves s true s.tb.ttc
    exact ⟨_, congrArg Host.Outcome.next (if_pos (by simp [hp, hw])), rfl, hevr, hclean, (powerFail_powerGood ..).trans hp, h.glb_eq,
      h.fab_eq, h.pim_eq,
      h.cyc_eq, h.safe_eq⟩
  · exact congrArg Host.Outcome.next (if_neg (by simp [hw]))
  · have hx : execWarningClear s = .next (record (writeCounters { s with pin := { s.pin with warn := none, supplyHigh := true } }
      (fun c => { c with cleanEnd := false }))
        .notice srcPgv (cCleared 0) 0 (beBytes 4 ((s.tb.ttc - w.since).toNat / 1000 - 1000))) := by
      unfold execWarningClear
      rw [hw]
    exact ⟨_, hx, rfl, rfl, record_records .., rfl⟩
  · have hc : (s.pin.powerGood && s.pin.warn.isSome) = true := by simp [hp, hw]
    exact ⟨_, congrArg Host.Outcome.next (if_pos hc), failSilence_silenced hf hp 0x07 true, rfl, rfl, rfl⟩

theorem bit_clrBit_self {w : Nat} (x : BitVec w) (i : Nat) : bit (clrBit x i) i = false := by
  simp only [bit, clrBit, BitVec.getLsbD_and, BitVec.getLsbD_not, BitVec.getLsbD_shiftLeft]
  by_cases h : i < w <;> simp [h]
  omega

theorem clockNote_marks (s : State) (i : Nat) : (clockNote s i).clk.fault = s.clk.fault ∧ (clockNote s i).clk.ok = s.clk.ok := ⟨rfl, rfl⟩

theorem clockRec_marks (s : State) (sev : Sev) (i : Nat) : (clockRec s sev i).clk.fault = s.clk.fault ∧ (clockRec s sev i).clk.ok = s.clk.ok := by
  unfold clockRec
  dsimp only
  split
  · exact ⟨rfl, rfl⟩
  · simp [clockNote]

/-- A clock fault is noted in the clocks' registers. -/
def clockLost (s : State) (i : Nat) : State := { s with clk := { s.clk with ok := clrBit s.clk.ok i, fault := setBit s.clk.fault i } }

/-- A clock fault that is only noted or recorded before the module goes silent. -/
theorem silenced_of_clock {s u : State} (hf : s.safe.failSilent = false) (hp : s.pin.powerGood = true) {i : Nat} (hi : i < 19)
    (hu : Within [.evr, .clk] (clockLost s i) u)
    (hm : u.clk.fault = (clockLost s i).clk.fault ∧ u.clk.ok = (clockLost s i).clk.ok) (island : Bool) :
    Silenced s (failSilence u 0x05 island) 0x05 ∧ bit (failSilence u 0x05 island).clk.fault i = true ∧
      bit (failSilence u 0x05 island).clk.ok i = false := by
  have hs := failSilence_silenced (s := u) (by rw [hu.safe_eq]; exact hf) (by rw [hu.pin_eq]; exact hp) 0x05 island
  have hclk : (failSilence u 0x05 island).clk = u.clk := (failSilence_within u 0x05 island).clk_eq
  have hglb : u.glb = s.glb := hu.glb_eq
  refine ⟨hs.of_eq (by rw [hglb]) hu.fab_eq hu.pim_eq hu.eth_eq hu.txe_eq hu.ci_eq hu.dram_eq, ?_, ?_⟩
  · rw [hclk, hm.1]
    exact bit_setBit_self _ hi
  · rw [hclk, hm.2]
    exact bit_clrBit_self _ _

theorem clockReact_silences (s : State) {i : Nat} (hi : i ≤ 4) :
    ∃ u island, clockReact (clockLost s i) i = failSilence u 0x05 island ∧ Within [.evr, .clk] (clockLost s i) u ∧
      u.clk.fault = (clockLost s i).clk.fault ∧ u.clk.ok = (clockLost s i).clk.ok := by
  have hrec (i : Nat) : Within [.evr, .clk] (clockLost s i) (clockRec (clockLost s i) .critical i) ∧
      (clockRec (clockLost s i) .critical i).clk.fault = (clockLost s i).clk.fault ∧
        (clockRec (clockLost s i) .critical i).clk.ok = (clockLost s i).clk.ok :=
    ⟨clockRec_within .., clockRec_marks ..⟩
  match i, hi with
  | 0, _ => exact ⟨_, true, rfl, hrec 0⟩
  | 1, _ =>
    refine ⟨_, false, rfl, ?_⟩
    split
    · exact ⟨.refl, rfl, rfl⟩
    · exact ⟨(clockNote_within ..).mono, clockNote_marks ..⟩
  | 2, _ => exact ⟨_, true, rfl, hrec 2⟩
  | 3, _ => exact ⟨_, true, rfl, hrec 3⟩
  | 4, _ => exact ⟨_, true, rfl, hrec 4⟩

end Sys2Proof.Machine

namespace Sys2Proof

open Machine in
/-- Settles O31: each cause ends in the same fail-silence, with what it records and notes before. -/
theorem failSilence : Obligations.FailSilence := by
  intro s hf hp
  refine ⟨?_, fun c h1 h8 => ?_, ⟨_, rfl, failSilence_silenced hf hp 0x01 false⟩, ⟨_, rfl, failSilence_silenced hf hp 0x08 true⟩, rfl,
    rfl, fun i hi => ?_⟩
  · have hx : execThermalLimit s = .next (Machine.failSilence (record s .critical srcCanary (cFault 6)) 0x06 true) := by
      simp [execThermalLimit, hf, hp]
    have hs := failSilence_silenced (s := record s .critical srcCanary (cFault 6)) hf hp 0x06 true
    exact ⟨_, hx, hs, (failSilence_wrote (wrote_record rfl ..) (by decide) _ _).records⟩
  · have hx : canaryFail s c = Machine.failSilence s c (decide (3 < c.toNat)) := if_pos ⟨h1, h8⟩
    have hs := hx ▸ failSilence_silenced hf hp c (decide (3 < c.toNat))
    exact ⟨⟨_, rfl, hs⟩, _, rfl, hs⟩
  · obtain ⟨u, island, hx, hu, hm⟩ := clockReact_silences s hi
    have h5 : ¬(i = 5 ∧ s.clk.acMask = true) := fun h => by
      rw [h.1] at hi
      exact absurd hi (by decide)
    have hc : execClockFault i s = .next (Machine.failSilence u 0x05 island) := by
      rw [execClockFault, if_neg h5]
      exact congrArg _ hx
    exact ⟨_, hc, silenced_of_clock hf hp i.isLt hu hm island⟩

end Sys2Proof

namespace Sys2Proof.Machine

-- One declaration after another: elaborated side by side, their terms together pass the memory that the check allows.
set_option Elab.async false

/-! ## The CANARY reset (R37, R451) -/

/-- A module that fell silent one second ago, with the flush of its records still under way. -/
def silentFlushing : State :=
  { State.reset with
    safe := { State.reset.safe with failSilent := true, armed := true, canaryCounted := true, silentAt := 5 - 1000000000 }
    pin := { State.reset.pin with powerGood := true }
    tb := { State.reset.tb with ttc := 5 }
    evr := { State.reset.evr with flushing := true }
    ci := { State.reset.ci with act := { State.reset.ci.act with safety := { State.reset.ci.act.safety with canaryRestart := 1 } } } }

/-- Refutes O33: before a CANARY reset the flush that was under way ends, which writes a counters record with the present time; the boot starts from
that time and not from the one last known before. -/
theorem not_resetsReachAll : ¬ Obligations.ResetsReachAll := by
  intro h
  obtain ⟨t, ht, ⟨-, -, -, -, -, -, -, -, -, -, -, -, -, -, -, -, -, httc, -⟩, -⟩ :=
    (h silentFlushing).2.2.2.1 rfl rfl rfl rfl (.inl (by decide))
  have hn : (match exec .canaryReset silentFlushing with | .next t => t.tb.ttc | _ => 0) = 5 := by decide +kernel
  rw [ht] at hn
  exact absurd (httc.symm.trans hn) (by decide)

/-! ## The boot (R410 to R420) -/

/-- The generator and the operating state stay. -/
def SameRun (s t : State) : Prop :=
  t.cyc.running = s.cyc.running ∧ t.cyc.started = s.cyc.started ∧ t.cyc.mcc = s.cyc.mcc ∧ t.glb.state = s.glb.state

theorem SameRun.refl (s : State) : SameRun s s := ⟨rfl, rfl, rfl, rfl⟩

theorem SameRun.trans {s t u : State} (h : SameRun s t) (k : SameRun t u) : SameRun s u := by
  obtain ⟨h1, h2, h3, h4⟩ := h
  obtain ⟨k1, k2, k3, k4⟩ := k
  exact ⟨k1.trans h1, k2.trans h2, k3.trans h3, k4.trans h4⟩

theorem SameRun.of_eq {s t : State} (hc : t.cyc = s.cyc) (hg : t.glb = s.glb) : SameRun s t := by
  rw [SameRun, hc, hg]
  exact ⟨rfl, rfl, rfl, rfl⟩

theorem SameRun.fold {α : Type} {f : State → α → State} (h : ∀ s x, SameRun s (f s x)) (l : List α) (s : State) :
    SameRun s (l.foldl f s) := by
  induction l generalizing s with
  | nil => exact .refl s
  | cons x l ih => exact (h s x).trans (ih _)

theorem fieldSet_sameRun (s : State) (a : Nat) (v : Reg32) : SameRun s (fieldSet s a v) := by
  unfold fieldSet
  split
  all_goals exact ⟨rfl, rfl, rfl, rfl⟩

theorem applySettings_sameRun (s : State) : SameRun s (applySettings s) := by
  have hone (s : State) (x : SettingRec) : SameRun s (applySetting s x) := by
    unfold applySetting
    dsimp only
    split_ifs
    · exact .refl s
    · exact (fieldSet_sameRun ..).trans ⟨rfl, rfl, rfl, rfl⟩
  exact (SameRun.fold hone s.ci.act.settings s).trans (.refl _)

theorem fieldSet_tk (s : State) (a : Nat) (v : Reg32) : (fieldSet s a v).tk = s.tk := (fieldSet_within s a v).tk_eq

theorem bootSettings_keeps (s : State) : SameRun s (bootSettings s) ∧ (bootSettings s).tk.running = s.tk.running ∧
    (bootSettings s).safe = s.safe := by
  have htk (l : List CField) (s : State) : (l.foldl (fun s c => fieldPut s c.addr.toNat c.written c.value) s).tk = s.tk :=
    foldl_keeps State.tk (fun s (c : CField) => fieldPut s c.addr.toNat c.written c.value) (fun s c => fieldSet_tk ..) l s
  refine ⟨?_, ?_, (bootSettings_within s).safe_eq⟩
  · unfold bootSettings
    dsimp only
    refine SameRun.trans ?_ (.refl _)
    split_ifs
    · exact (SameRun.refl _).trans (SameRun.fold (fun s c => fieldSet_sameRun ..) _ _)
    · exact SameRun.fold (fun s c => fieldSet_sameRun ..) _ _
  · unfold bootSettings
    dsimp only
    split_ifs <;> rw [htk]

/-- The generator runs at MCC 0 once a plane is loaded (R414). -/
theorem loadPlane_runs (s : State) (g : ConfImage) (fw : Bool) :
    (loadPlane s g fw).cyc.running = true ∧ (loadPlane s g fw).cyc.started = false ∧ (loadPlane s g fw).cyc.mcc = 0 ∧
      (loadPlane s g fw).ci.activeValid = true := by
  have hset (u : State) : SameRun u (applySettings u) ∧ (applySettings u).ci = u.ci := ⟨applySettings_sameRun u, (applySettings_within u).ci_eq⟩
  have hports (l : List Port) (u : State) : SameRun u (l.foldl (fun s p => startPort s fw p) u) ∧
    (l.foldl (fun s p => startPort s fw p) u).ci = u.ci :=
    ⟨.fold (fun s p => .of_eq (startPort_within s fw p).cyc_eq (startPort_within s fw p).glb_eq) l u,
      foldl_keeps State.ci (fun s p => startPort s fw p) (fun s p => (startPort_within s fw p).ci_eq) l u⟩
  have hrec (u : State) (c : Prop) [Decidable c] : SameRun u (if c then record u .error srcGlb (cRefused .refusedCapacity) else u) ∧
      (if c then record u .error srcGlb (cRefused .refusedCapacity) else u).ci = u.ci := by
    split
    · exact ⟨⟨rfl, rfl, rfl, rfl⟩, rfl⟩
    · exact ⟨.refl u, rfl⟩
  unfold loadPlane
  extract_lets sref _ _ _ _ _ _ s1 s2 s3 s4
  have h2 := hset s1
  have h3 := hports Port.all s2
  have h4 := hrec s3 (131068 < (g.sigs.filter (·.retained)).length)
  obtain ⟨hr, hs, hm, -⟩ := (h2.1.trans h3.1).trans h4.1
  refine ⟨hr, hs, hm, ?_⟩
  show s4.ci.activeValid = true
  rw [h4.2, h3.2, h2.2]

theorem bootCanary_safe (s : State) : (bootCanary s).safe.running = s.safe.running ∧ (bootCanary s).safe.canaryNew = false := by
  refine ⟨?_, rfl⟩
  unfold bootCanary
  dsimp only
  split_ifs <;> rfl

/-- The trusted kernel started: CONFIG, the island running, the Canary's report taken (R412). -/
theorem tkStart_starts (s : State) :
    (tkStart s).tk.running = true ∧ (tkStart s).glb.state = .config ∧ (tkStart s).safe.running = true ∧ (tkStart s).safe.canaryNew = false := by
  unfold tkStart
  extract_lets img _ _ _ s1 s2 s3
  obtain ⟨-, hrun, hsafe⟩ := bootSettings_keeps s3
  have htk : s3.tk = s1.tk := by
    show (bootEngine s2).tk = _
    rw [(bootEngine_within s2).tk_eq]
    exact (bootCanary_within _).tk_eq.trans ((repairCullet_within _).tk_eq.trans (storeScan_within s1).tk_eq)
  have hs3 : s3.safe = s2.safe := (bootEngine_within s2).safe_eq
  have hs1 : (repairCullet (storeScan s1)).safe = s1.safe := (repairCullet_within _).safe_eq.trans (storeScan_within s1).safe_eq
  obtain ⟨hcr, hcn⟩ := bootCanary_safe (repairCullet (storeScan s1))
  refine ⟨?_, rfl, ?_, ?_⟩
  · show (bootSettings s3).tk.running = true
    rw [hrun, htk]
    exact congrArg (·.running) (pimTest_within _).tk_eq
  · show (bootSettings s3).safe.running = true
    rw [hsafe, hs3, hcr, hs1]
    exact congrArg (·.running) (pimTest_within _).safe_eq
  · show (bootSettings s3).safe.canaryNew = false
    rw [hsafe, hs3]
    exact hcn

/-- A boot that finds nothing to start stays in BOOT, silent and with its outputs off (R416). -/
theorem bootStuck_silent (s : State) : (bootStuck s).tk = s.tk ∧ (bootStuck s).glb = s.glb ∧ (bootStuck s).safe.failSilent = true ∧
    (bootStuck s).safe.faultLed = true ∧ ∀ o ∈ (bootStuck s).safe.so, o.cmd = false := by
  refine ⟨rfl, rfl, rfl, rfl, fun o ho => ?_⟩
  obtain ⟨x, -, rfl⟩ := List.mem_map.1 ho
  rfl

theorem canNmt_setState (u : State) (m : MState) : (canNmt (setState u m) 0x80).glb.state = m ∧ (canNmt (setState u m) 0x80).cyc = u.cyc ∧
    (canNmt (setState u m) 0x80).ci = u.ci := by
  have hk := canNmt_within (setState u m) 0x80
  exact ⟨congrArg (·.state) hk.glb_eq, hk.cyc_eq, hk.ci_eq⟩

theorem firstStop_stops (s : State) : (firstStop s).glb.state = .stop ∧ (firstStop s).cyc = s.cyc ∧ (firstStop s).ci = s.ci := by
  unfold firstStop
  dsimp only
  split
  · exact canNmt_setState _ _
  · exact canNmt_setState _ _

theorem requestStep_ok (s : State) (st : Nat) : (requestStep s st).clk.ok = s.clk.ok := by
  unfold requestStep setStep
  dsimp only
  split_ifs <;> rfl

theorem bit_setBit_of {w : Nat} {x : BitVec w} {i j : Nat} (h : bit x i = true) : bit (setBit x j) i = true := by
  simp only [bit, setBit, BitVec.getLsbD_or] at *
  rw [h, Bool.true_or]

theorem bootStore_running (s : State) : (bootStore s).1.tk.running = s.tk.running := by
  unfold bootStore
  split_ifs <;> rfl

theorem ciCheck_activeValid (s : State) : (ciCheck s).ci.activeValid = s.ci.activeValid := by
  have hone (s : State) (g : ConfImage) : (ciCheckOne s g).ci.activeValid = s.ci.activeValid := by
    unfold ciCheckOne
    split <;> rfl
  unfold ciCheck
  dsimp only
  split_ifs <;> simp [hone]

/-- Settles O34: each boot step where its images verify and where they do not. -/
theorem bootSteps : Obligations.BootSteps := by
  intro s
  refine ⟨fun hp hr hst htk hf => ⟨fun h1 h2 => ?_, fun h => ?_⟩, fun htk hst hci => ⟨fun h1 h2 => ?_, fun h1 => ?_⟩,
    fun htk hh hl hd hf => ⟨fun h1 => ?_, fun h1 => ?_⟩,
    fun hl => ?_⟩
  · have hx : execTrustedKernelStart s = .next (tkStart (bootTk (bootStore s).1).1) := by
      simp [execTrustedKernelStart, hp, hr, hst, htk, hf, h1, h2]
    exact ⟨_, hx, tkStart_starts _⟩
  · have hstore := bootStore_within s
    have hboot := bootTk_within (bootStore s).1
    have hrun : (bootStore s).1.tk.running = s.tk.running := bootStore_running s
    obtain ⟨u, hx, hut, hug⟩ : ∃ u, execTrustedKernelStart s = .next (bootStuck u) ∧ u.tk.running = s.tk.running ∧ u.glb = s.glb := by
      by_cases h1 : (bootStore s).2 = true
      · have h2 : (bootTk (bootStore s).1).2 = false := h.resolve_left (by simp [h1])
        refine ⟨(bootTk (bootStore s).1).1, ?_, by rw [hboot.tk_eq, hrun], hboot.glb_eq.trans hstore.glb_eq⟩
        simp [execTrustedKernelStart, hp, hr, hst, htk, hf, h1, h2]
      · refine ⟨(bootStore s).1, ?_, hrun, hstore.glb_eq⟩
        simp [execTrustedKernelStart, hp, hr, hst, htk, hf, h1]
    obtain ⟨h1, h2, h3⟩ := bootStuck_silent u
    exact ⟨_, hx, by rw [h1, hut, htk], by rw [h2, hug, hst], h3⟩
  · have hx : ∃ u g fw, execActivePlaneLoaded s = .next (firstStop (loadPlane u g fw)) := by
      simp only [execActivePlaneLoaded, htk, hst, hci, h1, h2, Bool.not_true, bne_self_eq_false, Bool.or_self, Bool.false_eq_true, if_false]
      exact ⟨_, _, _, rfl⟩
    obtain ⟨u, g, fw, hx⟩ := hx
    obtain ⟨hstate, hcyc, hci'⟩ := firstStop_stops (loadPlane u g fw)
    obtain ⟨hrun, hstart, hmcc, hvalid⟩ := loadPlane_runs u g fw
    exact ⟨_, hx, hstate, by rw [hci', hvalid], by rw [hcyc, hrun], by rw [hcyc, hstart], by rw [hcyc, hmcc]⟩
  · have hx : execActivePlaneLoaded s = .next (record (bootSlotOf (ciCheck s) .ci).1 .critical srcGlb (cFailed .checkFailed) 5) := by
      simp [execActivePlaneLoaded, htk, hst, hci, h1]
    obtain ⟨r, hr, -, hsev, hsrc, -⟩ := record_records (bootSlotOf (ciCheck s) .ci).1 .critical srcGlb (cFailed .checkFailed) 5 []
    have hslot := bootSlotOf_within (ciCheck s) .ci
    refine ⟨_, hx, ?_, ?_, r, hr, hsev, hsrc⟩
    · show (bootSlotOf (ciCheck s) .ci).1.glb.state = _
      rw [hslot.glb_eq, (ciCheck_within s).glb_eq, hst]
    · show (bootSlotOf (ciCheck s) .ci).1.ci.activeValid = _
      rw [hslot.ci_eq, ciCheck_activeValid, hci]
  · have hx : execClusterRelease s = .next (requestStep { clkGood (clkGood (bootSlotOf s .ur).1 5) 6 with
        rst := { (bootSlotOf s .ur).1.rst with clusterHeld := false, faultLed1Hz := false }
        tk := { (bootSlotOf s .ur).1.tk with urVersion := (activeSlot (clkGood (clkGood (bootSlotOf s .ur).1 5) 6) .ur).img.version } }
          (bootSlotOf s .ur).1.pgv.step.toNat) := by
      simp [execClusterRelease, htk, hh, hl, hd, hf, h1]
      rfl
    refine ⟨_, hx, ?_, ?_, ?_⟩
    · rw [(requestStep_within ..).rst_eq]
    · rw [requestStep_ok]
      exact bit_setBit_of (bit_setBit_self _ (by decide))
    · rw [requestStep_ok]
      exact bit_setBit_self _ (by decide)
  · have hx : execClusterRelease s = .next (record { (bootSlotOf s .ur).1 with rst := { (bootSlotOf s .ur).1.rst with faultLed1Hz := true } }
        .error srcTk (cFailed .signatureFailed) 2) := by
      simp [execClusterRelease, htk, hh, hl, hd, hf, h1]
    refine ⟨_, hx, ?_, rfl⟩
    show (bootSlotOf s .ur).1.rst.clusterHeld = true
    rw [(bootSlotOf_within s .ur).rst_eq, hh]
  · exact congrArg Host.Outcome.next (if_pos (by simp [hl]))

/-! ## The end of a PORT reset (R452) -/

theorem bit_clrBit_ne {w : Nat} (x : BitVec w) {i j : Nat} (h : j ≠ i) : bit (clrBit x i) j = bit x j := by
  simp only [bit, clrBit, BitVec.getLsbD_and, BitVec.getLsbD_not, BitVec.getLsbD_shiftLeft]
  by_cases hj : j < w
  · by_cases hji : j < i
    · simp [hj, hji]
    · have h1 : j - i ≠ 0 := by omega
      simp [hj, h1]
  · simp [hj, BitVec.getLsbD_of_ge x j (by omega)]

/-- Outside an activation of port firmware a PORT reset ends with the unit's clock shown good and its configuration loaded. -/
theorem portDone_eq {s : State} {u : Nat} (hu : u ≤ 8) (hh : bit s.rst.portHeld u = true) (hv : s.ci.activeValid = true) (hr :
    bit s.pgv.portRefused u = false)
    (hf : bit s.rst.portNoFw u = false) (hq : s.upd.portSeq = []) :
    ∃ s0, Within [.clk] s s0 ∧ portDone s u = loadPort { s0 with rst := { s0.rst with portHeld := clrBit s0.rst.portHeld u } } u := by
  unfold portDone
  rw [if_neg (by simp [hh, hv, hr, hf]; omega)]
  extract_lets s0 _ s1
  have h0 : Within [.clk] s s0 := by
    dsimp only [s0]
    split
    · exact clkGood_within ..
    · exact .refl
  have hseq : s1.upd.portSeq = [] := by
    rw [(loadPort_within ..).upd_eq, ← hq]
    exact congrArg (·.portSeq) h0.upd_eq
  refine ⟨s0, h0, ?_⟩
  rw [hseq]

/-- Settles O36: the unit's reset is cleared, its clock shown good and its configuration loaded. -/
theorem portResetEnds : Obligations.PortResetEnds := by
  intro s u hu hh hv hr hf hq
  obtain ⟨s0, h0, hx⟩ := portDone_eq hu hh hv hr hf hq
  have hw : Within [.clk, .rst, .eth, .can0, .can1] s (loadPort { s0 with rst := { s0.rst with portHeld := clrBit s0.rst.portHeld u } } u) :=
    h0.mono.upd.trans (loadPort_within ..)
  have hrst : (loadPort { s0 with rst := { s0.rst with portHeld := clrBit s0.rst.portHeld u } } u).rst.portHeld = clrBit s.rst.portHeld u := by
    rw [(loadPort_within ..).rst_eq, h0.rst_eq]
  refine ⟨_, congrArg Host.Outcome.next hx, ?_, fun v hvu => ?_, hw.fab_eq, hw.pim_eq, hw.txe_eq, hw.cyc_eq, hw.safe_eq⟩
  · rw [hrst, bit_clrBit_self]
  · rw [hrst, bit_clrBit_ne _ hvu]

/-! ## The timed writes of the Cullet (R458, R461, R422) -/

/-- The Lehr's time left of an entry in TRIAL, d seconds later. -/
def lehrDown (d : Nat) (e : BootEnt) : BootEnt := if e.state = 1 then { e with lehrLeft := BitVec.ofNat 32 (e.lehrLeft.toNat - d) } else e

theorem map_lehrDown_of_no_trial {l : List BootEnt} {d : Nat} (h : l.any (fun e => e.state == 1) = false) : l.map (lehrDown d) = l := by
  refine (List.map_congr_left fun e he => ?_).trans (List.map_id l)
  have : e.state ≠ 1 := by
    intro hs
    have := List.any_eq_false.1 h e he
    simp [hs] at this
  exact if_neg this

theorem writeLehr_leaves (s : State) : (writeLehr s).upd.lehrTick = s.cul.optime.toNat ∧
    (writeLehr s).cul.boot = s.cul.boot.map (lehrDown (s.cul.optime.toNat - s.upd.lehrTick)) ∧
    (writeLehr s).fab = s.fab ∧ (writeLehr s).glb = s.glb ∧ (writeLehr s).evr = s.evr := by
  unfold writeLehr
  dsimp only
  split
  · exact ⟨rfl, rfl, rfl, rfl, rfl⟩
  · next h => exact ⟨rfl, (map_lehrDown_of_no_trial (by simpa using h)).symm, rfl, rfl, rfl⟩

/-- Settles O38: the generation, the counters record and the Lehr's time left are written, and nothing else. -/
theorem culletWrites : Obligations.CulletWrites := by
  intro s htk
  refine ⟨fun hci hd => ?_, fun hd => ?_, fun hg => ?_, fun hg => ?_, ?_⟩
  · have hx : execRetentionPoint s = .next { s with
        cul := { s.cul with retained := s.cul.retained.write (retGen s) }, rst := { s.rst with retainMcc := pubLatest s.pim } } := by
      rw [execRetentionPoint, htk, hd, Bool.and_self, if_pos rfl, retentionPoint, if_pos hci]
    exact ⟨_, hx, rfl, rfl, rfl⟩
  · exact congrArg Host.Outcome.next (if_neg (by simp [hd]))
  · exact congrArg Host.Outcome.next (if_neg (by simp [hg]))
  · have hx : execCountersRecordWrite s = .next (writeCounters { s with grp := { s.grp with probLeft := s.grp.probLeft - 1 } } id) :=
      congrArg Host.Outcome.next (if_pos (by simp [htk, hg]))
    exact ⟨_, hx, rfl, rfl, rfl, rfl, rfl, rfl, rfl⟩
  · exact ⟨_, congrArg Host.Outcome.next (if_pos htk), writeLehr_leaves s⟩

/-! ## Accesses of the cores (R58, R449) -/

/-- A command that is an access of a core, whatever the access does once it is made. -/
theorem access_held_or_waits {s : State} {core : Fin 8} {c : Instr} {k : State → State} (h : exec c s = .next (coreAccess s core c k)) :
    (s.rst.clusterHeld = true → exec c s = .next { s with out := Out.busError core.val :: s.out }) ∧
      (s.rst.clusterHeld = false → coresStopped s = true → exec c s = .next { s with host := s.host ++ [c] }) :=
  ⟨fun hh => h.trans (congrArg _ (coreAccess_held hh)), fun hh hs => h.trans (congrArg _ (coreAccess_waits hh hs))⟩

/-- Settles O47: every access of a core goes through the one rule of a held and of a stopped cluster. -/
theorem heldClusterAccess : Obligations.HeldClusterAccess := by
  intro s k a v n i j m l u tk lo w b q e
  exact ⟨access_held_or_waits rfl, access_held_or_waits rfl, access_held_or_waits rfl, access_held_or_waits rfl, access_held_or_waits rfl,
    access_held_or_waits rfl,
    access_held_or_waits rfl, access_held_or_waits rfl, access_held_or_waits rfl, access_held_or_waits rfl, access_held_or_waits rfl,
      access_held_or_waits rfl,
    access_held_or_waits rfl, access_held_or_waits rfl, access_held_or_waits rfl, access_held_or_waits rfl, access_held_or_waits rfl,
      access_held_or_waits rfl,
    access_held_or_waits rfl⟩

/-! ## Loads with an effect (R250, R254, R485, R505) -/

/-- A monitor whose first counter counts reads of the snapshot window, stands at its last value and asks for an interrupt at its wrap. -/
def fullMonitor : PmuInst :=
  { en := 1, evsel := 0x210C :: List.replicate 7 0, cnt := BitVec.allOnes 48 :: List.replicate 7 0 }

/-- A module whose core 0 has a full monitor. -/
def monitorFull : State :=
  { State.reset with
    rst := { State.reset.rst with clusterHeld := false }
    pmu := { State.reset.pmu with inst := setNth State.reset.pmu.inst 0 fullMonitor } }

/-- Refutes O48: a load of the snapshot window at which a monitor counter wraps raises that counter's interrupt too, so the word loaded is not all
that the load adds to the outputs. -/
theorem not_registerReads : ¬ Obligations.RegisterReads := by
  intro h
  obtain ⟨-, -, -, -, -, -, -, -, -, -, hsnap⟩ := h monitorFull 0 rfl rfl
  obtain ⟨t, ht, hout, -⟩ := hsnap 0 (by decide) rfl rfl rfl rfl
  have hbad (v : Mcc) : badOf monitorFull.pim v = [] := rfl
  have hfrozen (i : Nat) : bit monitorFull.arb.freeze i = false := BitVec.getLsbD_zero
  have hn : ∃ u, exec (.snapshotRead 0 0) monitorFull = .next u ∧ u.out.length = 2 := by
    refine ⟨_, congrArg Host.Outcome.next (coreAccess_runs rfl rfl), ?_⟩
    simp only [hfrozen, pimMeet, hbad, List.map_nil, List.eraseDups_nil, List.filter_nil, List.foldl_nil]
    decide +kernel
  obtain ⟨u, hu, hn⟩ := hn
  obtain rfl : t = u := Host.Outcome.next.inj (ht.symm.trans hu)
  have hlen : t.out.length = 1 := congrArg List.length hout
  omega

/-! ## Performance monitors (R481 to R492) -/

/-- An event select that the instance defines and that asks for no missing filter is stored as written, but for the bits the counter does not have. -/
theorem evselStored_good {i : Nat} (n : Nat) {v : Reg32} (h : pmuDefines i (v.extractLsb' 0 10 : BitVec 10).toNat = true) (hf : bit v 11 = false) :
    (evselStored i n v).1.extractLsb' 0 10 = v.extractLsb' 0 10 ∧ (evselStored i n v).2 = false := by
  have hb : (evselStored i n v).2 = false := by
    show (!pmuDefines i (v.extractLsb' 0 10 : BitVec 10).toNat || (bit v 11 && !hasFilter i)) = false
    rw [h, hf]
    rfl
  refine ⟨?_, hb⟩
  unfold evselStored at hb ⊢
  dsimp only at hb ⊢
  rw [hb, if_neg (by simp)]
  split_ifs
  all_goals
    ext j hj
    simp only [BitVec.getElem_extractLsb', BitVec.getLsbD_and, BitVec.getLsbD_or]
    interval_cases j <;> simp

/-- An event select that the instance does not define is stored as event 0. -/
theorem evselStored_undefined {i : Nat} (n : Nat) {v : Reg32} (h : pmuDefines i (v.extractLsb' 0 10 : BitVec 10).toNat = false) :
    (evselStored i n v).1.extractLsb' 0 12 = 0 ∧ (evselStored i n v).2 = true := by
  have hb : (evselStored i n v).2 = true := by
    show (!pmuDefines i (v.extractLsb' 0 10 : BitVec 10).toNat || (bit v 11 && !hasFilter i)) = true
    rw [h]
    rfl
  refine ⟨?_, hb⟩
  unfold evselStored at hb ⊢
  dsimp only at hb ⊢
  rw [hb, if_pos rfl]
  ext j hj
  simp only [BitVec.getElem_extractLsb', BitVec.getLsbD_and]
  interval_cases j <;> simp

/-- A wrap clears the counter, sets its OVF and, on a core's counter with IRQ, raises the interrupt (R485). -/
theorem pmuWrap_wraps {s : State} {i n : Nat} (spc : Word) (hi : i < s.pmu.inst.length) (hn : n < (nthD s.pmu.inst i {}).cnt.length) (hn8 : n < 8) :
    nthD (nthD (pmuWrap s i n spc).pmu.inst i {}).cnt n 0 = 0 ∧ bit (nthD (pmuWrap s i n spc).pmu.inst i {}).ovf n = true ∧
      (∀ m, m ≠ n → nthD (nthD (pmuWrap s i n spc).pmu.inst i {}).cnt m 0 = nthD (nthD s.pmu.inst i {}).cnt m 0) ∧
      (i < 8 → bit (nthD (nthD s.pmu.inst i {}).evsel n 0) 13 = true →
        (nthD (pmuWrap s i n spc).pmu.inst i {}).irq = true ∧ (nthD (pmuWrap s i n spc).pmu.inst i {}).spc = spc ∧
          (pmuWrap s i n spc).out = .irqPmu i :: s.out) ∧
      (8 ≤ i → (pmuWrap s i n spc).out = s.out ∧ (nthD (pmuWrap s i n spc).pmu.inst i {}).irq = (nthD s.pmu.inst i {}).irq) ∧
      (∀ j, j ≠ i → nthD (pmuWrap s i n spc).pmu.inst j {} = nthD s.pmu.inst j {}) := by
  have hinst : (pmuWrap s i n spc).pmu.inst = modNth s.pmu.inst i (fun p => { p with
      cnt := setNth p.cnt n 0, ovf := setBit p.ovf n, irq := p.irq || (isAc i && bit (nthD (nthD s.pmu.inst i {}).evsel n 0) 13),
      spc := if (isAc i && bit (nthD (nthD s.pmu.inst i {}).evsel n 0) 13) = true then spc else p.spc }) := by
    unfold pmuWrap
    dsimp only
    split_ifs <;> rfl
  have hout : (pmuWrap s i n spc).out = if (isAc i && bit (nthD (nthD s.pmu.inst i {}).evsel n 0) 13) = true then .irqPmu i :: s.out else s.out := by
    unfold pmuWrap
    dsimp only
    split_ifs <;> rfl
  rw [hinst, hout, nthD_modNth_self _ _ _ _ hi]
  generalize nthD s.pmu.inst i {} = q at hn
  refine ⟨nthD_setNth_self _ _ _ hn, bit_setBit_self _ hn8, fun m hm => nthD_setNth_ne _ _ _ hm, fun h8 h13 => ?_, fun h8 => ?_,
    fun j hj => nthD_modNth_ne _ _ _ hj⟩
  · have : (isAc i && bit (nthD q.evsel n 0) 13) = true := by rw [h13, isAc, decide_eq_true h8, Bool.and_self]
    simp only [this, Bool.or_true, if_true, and_self]
  · have : isAc i = false := by simp [isAc, h8]
    simp [this]

theorem pmuWrap_eq (s : State) (i n : Nat) (spc : Word) : pmuWrap s i n spc =
    { s with pmu := (pmuWrap s i n spc).pmu, out := (pmuWrap s i n spc).out } := by
  unfold pmuWrap
  dsimp only
  split_ifs <;> rfl

/-- A count changes the counters only, not the dump engine. -/
theorem pmuCount_dump (s : State) (i ev n : Nat) : (pmuCount s i ev n).pmu.tail = s.pmu.tail ∧ (pmuCount s i ev n).pmu.seq = s.pmu.seq := by
  unfold pmuCount
  dsimp only
  split_ifs <;> exact ⟨rfl, rfl⟩

/-- The end of a tag of no ring that is not posted: it leaves the tags in flight, and only the TxE and the arbiter are told. -/
theorem finishTag_ok {s : State} {t : TagEnt} (hr : t.ring = none) (hp : t.posted = false) :
    (finishTag s t .ok).txe.tags = s.txe.tags.filter (fun x => x.tag != t.tag) ∧
      finishTag s t .ok = { s with txe := (finishTag s t .ok).txe, arb := (finishTag s t .ok).arb } := by
  unfold finishTag
  rw [hp, hr]
  exact ⟨rfl, rfl⟩

theorem dramWrite_dram (s : State) (a : Word) (l : List Byte) (h : inDram a l.length = true) : (dramWrite s a l).dram = s.dram.writeList a.toNat l ∧
    (dramWrite s a l).pmu.tail = s.pmu.tail ∧ (dramWrite s a l).pmu.seq = s.pmu.seq := by
  rw [dramWrite, if_pos h]
  exact ⟨pmuCount_dram .., pmuCount_dump ..⟩

/-- The dump engine after a record of the ring is written (R490). -/
def dumpNext (u : State) : State := { u with pmu := { u.pmu with active := none, tail := u.pmu.tail + 1, seq := u.pmu.seq + 1 } }

/-- Settles O50: each monitor command's effect on its instance, and the record that a dump leaves. -/
theorem monitors : Obligations.Monitors := by
  intro s k i n hl hp p
  have hi : i.val < s.pmu.inst.length := by omega
  obtain ⟨he, hc⟩ := hp p (nthD_mem {} hi)
  have hself (f : PmuInst → PmuInst) : nthD (modNth s.pmu.inst i.val f) i.val {} = f p := nthD_modNth_self _ _ _ _ hi
  refine ⟨fun hh hs => ?_, fun spc hen => ?_, fun spc hen hch => ?_, fun r e hact hfind hpause hring hpost hin hwf => ?_, fun hact => ?_⟩
  · have hrun (c : Instr) (f : State → State) : Host.Outcome.next (coreAccess s k c f) = (.next (f s) : Host.Outcome State Fault Refusal) :=
      congrArg _ (coreAccess_runs hh hs)
    refine ⟨fun v => ?_, ⟨_, hrun _ _, hself _, fun j hj => nthD_modNth_ne _ _ _ hj, rfl⟩, fun v hv => ?_, fun v hv ha h4 h16 hd => ?_,
      fun v hv ha => ?_⟩
    · have hev : (nthD (evselWrite s i.val n.val v).pmu.inst i.val {}).evsel = setNth p.evsel n.val (evselStored i.val n.val v).1 :=
        congrArg (·.evsel) (hself _)
      have hbad : (nthD (evselWrite s i.val n.val v).pmu.inst i.val {}).badsel = (p.badsel || (evselStored i.val n.val v).2) :=
        congrArg (·.badsel) (hself _)
      have hn : nthD (setNth p.evsel n.val (evselStored i.val n.val v).1) n.val 0 = (evselStored i.val n.val v).1 := nthD_setNth_self _ _ _ (by omega)
      refine ⟨_, hrun _ _, congrArg (·.gen) (hself _), congrArg (·.cnt) (hself _), fun hd hf => ?_, fun hd => ?_, fun m hm => ?_,
        fun j hj => nthD_modNth_ne _ _ _ hj, rfl⟩
      · obtain ⟨h1, h2⟩ := evselStored_good n.val hd hf
        exact ⟨by rw [hev, hn, h1], by rw [hbad, h2, Bool.or_false]⟩
      · obtain ⟨h1, h2⟩ := evselStored_undefined n.val hd
        exact ⟨by rw [hev, hn, h1], by rw [hbad, h2, Bool.or_true]⟩
      · rw [hev]
        exact nthD_setNth_ne _ _ _ hm
    · have hx : dumpCtrl s v = { s with pmu := { s.pmu with
          arm := false, interval := if s.pmu.arm then s.pmu.interval else v.extractLsb' 0 16, next := none } } :=
        if_pos (by rw [hv]; rfl)
      exact ⟨_, (hrun _ _).trans (congrArg _ hx), rfl, rfl, fun ha => if_neg (by simp [ha]), rfl, rfl⟩
    · have hsize : (within s.pmu.size.toNat 4 16 && inDram s.pmu.base (dumpLen s.pmu * 2 ^ s.pmu.size.toNat)) = true := by
        rw [hd]
        simp [within, h4, h16]
      have hx : dumpCtrl s v = { s with pmu := { s.pmu with
          arm := true, interval := if s.pmu.arm then s.pmu.interval else v.extractLsb' 0 16
          seq := 0, prev := [], ovfSince := [], next := some (nextMcc s) } } := by
        unfold dumpCtrl
        dsimp only
        rw [if_neg (by simp [hv]), if_neg (by simp [ha])]
        exact if_pos hsize
      exact ⟨_, (hrun _ _).trans (congrArg _ hx), rfl, rfl, rfl, if_neg (by simp [ha]), rfl, rfl⟩
    · have hx : dumpCtrl s v = s := by
        unfold dumpCtrl
        dsimp only
        rw [if_neg (by simp [hv]), if_pos ha]
      exact (hrun _ _).trans (congrArg _ hx)
  · exact congrArg Host.Outcome.next (if_pos (by rw [hen]; rfl))
  · have hx : execPmuCounterWrap i n spc s = .next (pmuWrap s i.val n.val spc) := by
      have hchain : (n.val % 2 == 0 && bit (nthD p.evsel (n.val + 1) 0) 12 && bit p.en (n.val + 1)) = false := by
        rcases hch with h | h
        · rw [h]
          rfl
        · rw [h, Bool.and_false, Bool.false_and]
      unfold execPmuCounterWrap
      dsimp only
      rw [if_neg (by rw [hen]; decide), hchain]
      rfl
    obtain ⟨h1, h2, h3, h4, h5, h6⟩ := pmuWrap_wraps spc hi (show n.val < p.cnt.length by omega) n.isLt
    exact ⟨_, hx, h1, h2, h3, h4, h5, h6, pmuWrap_eq ..⟩
  · have hx : execDumpRecordWrite s = .next (dumpNext (finishTag (dramWrite s r.addr r.bytes) e .ok)) := by
      unfold execDumpRecordWrite
      rw [hact, hfind]
      dsimp only
      rw [if_neg (by rw [hpause]; decide)]
      rfl
    obtain ⟨htags, hfin⟩ := finishTag_ok (s := dramWrite s r.addr r.bytes) hring hpost
    obtain ⟨hdram, htail, hseq⟩ := dramWrite_dram s r.addr r.bytes hin
    have hd : (finishTag (dramWrite s r.addr r.bytes) e .ok).dram = s.dram.writeList r.addr.toNat r.bytes := by rw [hfin, ← hdram]
    have hkeep : (finishTag (dramWrite s r.addr r.bytes) e .ok).fab = s.fab ∧ (finishTag (dramWrite s r.addr r.bytes) e .ok).cyc = s.cyc ∧
        (finishTag (dramWrite s r.addr r.bytes) e .ok).pim = s.pim := by
      have hw := dramWrite_within s r.addr r.bytes
      rw [hfin]
      exact ⟨hw.fab_eq, hw.cyc_eq, hw.pim_eq⟩
    refine ⟨_, hx, ?_, fun a ha => ?_, rfl, ?_, ?_, fun x hxm => ?_, hkeep⟩
    · show (finishTag (dramWrite s r.addr r.bytes) e .ok).dram.readList _ _ = _
      rw [hd, Mem.readList_writeList hwf]
    · show (finishTag (dramWrite s r.addr r.bytes) e .ok).dram.read a = _
      rw [hd, Mem.read_writeList_out hwf ha]
    · show (finishTag (dramWrite s r.addr r.bytes) e .ok).pmu.tail + 1 = _
      rw [hfin, ← htail]
    · show (finishTag (dramWrite s r.addr r.bytes) e .ok).pmu.seq + 1 = _
      rw [hfin, ← hseq]
    · have hmem : x ∈ (dramWrite s r.addr r.bytes).txe.tags.filter (fun x => x.tag != e.tag) := htags ▸ hxm
      simpa using (List.mem_filter.1 hmem).2
  · show Host.Outcome.next _ = _
    rw [hact]

/-! ## The end of a flush (R459, R474) -/

/-- A module that goes DORMANT, with the flush of its records under way and a test output of the safety island on. -/
def dormantFlushing : State :=
  { State.reset with
    glb := { State.reset.glb with state := .dormant }
    safe := { State.reset.safe with t1 := true }
    evr := { State.reset.evr with flushing := true } }

/-- Refutes O51: in DORMANT the end of the flush cuts the domains off, which changes the safety island's part of the state. -/
theorem not_eventRecorder : ¬ Obligations.EventRecorder := by
  intro h
  obtain ⟨-, -, -, hflush, -⟩ := h dormantFlushing rfl
  obtain ⟨t, ht, -, -, -, -, -, -, -, -, hsafe⟩ := hflush rfl rfl (by decide)
  have hx : exec .flushComplete dormantFlushing = .next (finishDormant (flushDone dormantFlushing)) := rfl
  obtain rfl : t = finishDormant (flushDone dormantFlushing) := Host.Outcome.next.inj (ht.symm.trans hx)
  have hoff : (finishDormant (flushDone dormantFlushing)).safe.t1 = false := rfl
  have hon : (finishDormant (flushDone dormantFlushing)).safe.t1 = true := congrArg (·.t1) hsafe
  exact absurd (hoff.symm.trans hon) (by decide)

/-! ## A confirmed step of the time (R308) -/

/-- A module without tiles whose confirmed step of 8 ns is due. -/
def tilelessStep : State :=
  { State.reset with
    fab := { State.reset.fab with tiles := [] }
    cyc := { State.reset.cyc with started := true }
    tb := { State.reset.tb with stepDue := some { target := 0, refusedCase := 0 }, confirmed := some 8 } }

/-- Refutes O42: a step moves the release times of the tiles that the fabric holds; a position that holds none keeps release time 0, and so its
distance from the time changes. -/
theorem not_timeBaseEvents : ¬ Obligations.TimeBaseEvents := by
  intro h
  obtain ⟨hstep, -⟩ := h tilelessStep false
  obtain ⟨t, ht, -, -, -, -, -, httc, -, -, -, -, -, -, htile⟩ := hstep { target := 0, refusedCase := 0 } 8 rfl rfl rfl (by decide)
  have hn : (match exec .timeStep tilelessStep with | .next t => t.fab.tiles.length | _ => 1) = 0 := by decide +kernel
  rw [ht] at hn
  have hnil : t.fab.tiles = [] := List.length_eq_zero_iff.1 hn
  have hrel : (t.fab.tile 0).relTtc = 0 := by rw [Fabric.tile, hnil]; rfl
  obtain ⟨h0, -⟩ := htile 0
  rw [hrel, httc] at h0
  generalize (passTo tilelessStep (t0 tilelessStep + 100000)).tb.ttc = p at h0
  have h8 : (0 : Word) - (p - BitVec.ofInt 64 8) = 0 - p := h0
  bv_omega

/-! ## Boundaries (R146, R84) -/

/-- A module in RUN whose group takes a swap back at the next major boundary, with a shadow image of class 3. -/
def swapsBack : State :=
  { State.reset with
    cyc := { State.reset.cyc with running := true }
    pin := { State.reset.pin with powerGood := true }
    glb := { State.reset.glb with state := .run }
    grp := { State.reset.grp with swapBack := true }
    ci := { State.reset.ci with shadow := .valid, shd := { State.reset.ci.shd with hdr := { State.reset.ci.shd.hdr with declaredClass := 3 } } } }

/-- Refutes O39: a swap taken back with class 3 stops the module at a boundary that no mode command waits for. -/
theorem not_modeBoundaries : ¬ Obligations.ModeBoundaries := by
  intro h
  obtain ⟨hb, -⟩ := h swapsBack
  obtain ⟨t, ht, -, -, -, -, -, -, hmode⟩ := hb rfl rfl rfl rfl
  obtain ⟨hnone, -⟩ := hmode rfl rfl rfl rfl rfl
  obtain ⟨hstate, -⟩ := hnone rfl
  have hn : (match exec .boundary swapsBack with | .next t => decide (t.glb.state = .run) | _ => true) = false := by decide +kernel
  rw [ht] at hn
  exact absurd hstate (of_decide_eq_false hn)

/-! ## Frames of the host (R254, R487) -/

/-- A monitor whose first counter counts the bursts to DRAM. -/
def burstMonitor : PmuInst := { en := 1, evsel := 0x2C5 :: List.replicate 7 0 }

/-- A module whose host queue of port 0 holds an entry in DRAM, with a monitor that counts the bursts to DRAM. -/
def hostSubmits : State :=
  { State.reset with
    eth := { State.reset.eth with
      ports := modNth State.reset.eth.ports 0 (fun x => { x with hqTx := { x.hqTx with enable := true, base := 0x100000000, sqTail := 1 } }) }
    pmu := { State.reset.pmu with inst := setNth State.reset.pmu.inst 11 burstMonitor } }

/-- Refutes O43: the completion of a host frame that is too long is a write to DRAM, which a performance monitor counts. -/
theorem not_ethernet : ¬ Obligations.Ethernet := by
  intro h
  obtain ⟨-, -, -, -, -, -, -, hlong, -⟩ := h hostSubmits 0 (by decide) (by decide)
  obtain ⟨t, ht, -, -, heq⟩ := hlong 0 1515 0 (by decide) (by decide) rfl (by decide)
  have hn : (match exec (.hostFrameSubmit 0 0 1515 0) hostSubmits with
      | .next t => (nthD (nthD t.pmu.inst 11 {}).cnt 0 0).toNat
      | _ => 0) = 1 := by decide +kernel
  rw [ht] at hn
  have hpmu := congrArg State.pmu heq
  have hz : (nthD (nthD hostSubmits.pmu.inst 11 {}).cnt 0 0).toNat = 0 := by decide
  dsimp only at hn
  rw [hpmu] at hn
  exact absurd (hz.symm.trans hn) (by decide)

/-! ## Stores of the cores (R7, R503 to R506) -/

/-- The registers that hold a TK field: those of a block, and the debug enables of the tiles. -/
theorem tkMask_addr {a : Nat} (h : tkMask a ≠ 0) :
    a ∈ [0xF000020C, 0xF0200000, 0xF0300000, 0xF030001C, 0xF13F0010, 0xF2000000, 0xF2000004, 0xF2100004, 0xF2100008, 0xF210000C,
      0xF4000020, 0xF4000024, 0xF4000028,
        0xF410000C, 0xF5300004, 0xF3200004] ∨ (0xF1000000 ≤ a ∧ a < 0xF1300000 ∧ a % 0x10000 = 0x1C) := by
  unfold tkMask tkFields at h
  split at h
  case h_17 =>
    split at h
    · next hd => exact .inr hd
    · exact absurd rfl h
  all_goals exact .inl (by decide)

theorem lowStore_tileDebug (s : State) {a : Nat} (v : Reg32) (h : 0xF1000000 ≤ a ∧ a < 0xF1300000 ∧ a % 0x10000 = 0x1C) :
    lowStore s a v = s := by
  obtain ⟨h1, h2, h3⟩ := h
  unfold lowStore
  split
  case h_10 => rw [if_neg (by omega), if_neg (by omega)]
  all_goals omega

/-- A store to a register with a TK field changes nothing that is not one. -/
theorem regStore_tk (s : State) {a : Nat} (v : Reg32) (h : tkMask a ≠ 0) :
    regStore s a v = if tkViolated s a v = true then violation s a else s := by
  unfold regStore
  extract_lets s1
  rcases tkMask_addr h with hl | hd
  · fin_cases hl
    -- The address 0xF3200004, where a store looks at the port's reset first.
    on_goal 16 =>
      show (if bit s1.rst.portHeld 2 then s1 else s1) = s1
      exact ite_self s1
    all_goals rfl
  · have hp : portBlock a = none := by
      have h1 : a / 0x10000 ≠ 0xF340 := by omega
      have h2 : a / 0x10000 ≠ 0xF341 := by omega
      have h3 : a / 0x10000 / 0x10 < 0xF30 := by omega
      unfold portBlock
      split
      · omega
      · omega
      · split
        case h_8 => rfl
        all_goals omega
    rw [hp]
    dsimp only
    rw [if_pos (by omega), lowStore_tileDebug s1 v hd]

theorem regStore_sqTail (s : State) (v : Reg32) : regStore s 0xF210012C v = modRing s 1 (fun r => { r with sqTail := v.extractLsb' 0 16 }) := by
  simp [regStore, tkViolated, tkFields, portBlock, lowStore, txeRingStore]

theorem fieldGet_violation (s : State) (a b : Nat) : fieldGet (violation s a) b = fieldGet s b := by
  unfold fieldGet
  split <;> rfl

theorem violation_records (s : State) (a : Nat) : Records s (violation s a) .security srcTkmb (cRefused .refusedPolicy) :=
    (wrote_record (s := s) rfl ..).records

theorem modInst_complete {g : Glb} {i : Instance} (hi : i ∈ g.inst) (hone : ∀ j ∈ g.inst, j.task = i.task →
    j.rel.setWidth 16 = i.rel.setWidth 16 → j = i) :
    { i with complete := true } ∈ (modInst g i.task i.rel (fun i => { i with complete := true })).inst ∧
      ∀ j ∈ g.inst, j ≠ i → j ∈ (modInst g i.task i.rel (fun i => { i with complete := true })).inst := by
  refine ⟨List.mem_map.2 ⟨i, hi, if_pos ⟨rfl, rfl⟩⟩, fun j hj hne => List.mem_map.2 ⟨j, hj, if_neg ?_⟩⟩
  rintro ⟨ht, hr⟩
  exact hne (hone j hj ht (by rw [hr]))

theorem exec_taskDone {s : State} {k : Fin 8} {n : Fin 32} {i : Instance} {r : TaskRec} (hh : s.rst.clusterHeld = false) (hs : coresStopped s = false)
    (hr : taskRec s.ci.act n.val = some r) (he : r.engine = 2) (hi : i ∈ s.glb.inst) (ht : i.task = n.val)
    (hone : ∀ j ∈ s.glb.inst, j.task = n.val → j.rel.setWidth 16 = i.rel.setWidth 16 → j = i) :
    exec (.taskDone k n (i.rel.setWidth 16)) s = .next { s with glb := modInst s.glb i.task i.rel (fun i => { i with complete := true }) } := by
  have hfind : s.glb.inst.find? (fun j => j.task == n.val && j.rel.setWidth 16 == (i.rel.setWidth 16 : BitVec 16)) = some i := by
    cases hx : s.glb.inst.find? (fun j => j.task == n.val && j.rel.setWidth 16 == (i.rel.setWidth 16 : BitVec 16)) with
    | none => exact absurd (List.find?_eq_none.1 hx i hi) (by simp [ht])
    | some j =>
      have hp := List.find?_some hx
      simp only [Bool.and_eq_true, beq_iff_eq] at hp
      rw [hone j (List.mem_of_find?_eq_some hx) hp.1 hp.2]
  have hrun : execTaskDone k n (i.rel.setWidth 16) s = _ := congrArg Host.Outcome.next (coreAccess_runs hh hs)
  rw [hr, hfind] at hrun
  exact hrun.trans (congrArg _ (if_pos he))

theorem exec_taskDone_none {s : State} {k : Fin 8} {n : Fin 32} {lo : BitVec 16} (hh : s.rst.clusterHeld = false) (hs : coresStopped s = false)
    (hno : ∀ i ∈ s.glb.inst, ¬(i.task = n.val ∧ i.rel.setWidth 16 = lo)) : exec (.taskDone k n lo) s = .next s := by
  have hfind : s.glb.inst.find? (fun j => j.task == n.val && j.rel.setWidth 16 == lo) = none :=
    List.find?_eq_none.2 fun i hi => by simpa using hno i hi
  have hrun : execTaskDone k n lo s = _ := congrArg Host.Outcome.next (coreAccess_runs hh hs)
  rw [hfind] at hrun
  cases hr : taskRec s.ci.act n.val <;> rw [hr] at hrun <;> exact hrun

/-- What a load of an assigned address shows where the load itself changes nothing: the half that this core's load of the other captured,
  or the register. -/
theorem regLoad_plain {s : State} {k : Fin 8} {a : Nat} (h4 : a % 4 = 0) (hl : loadActs a = false) :
    ((∀ x ∈ s.latches, ¬(x.1 = k.val ∧ x.2.1 + 4 = a)) → regLoad s k a = { s with out := .loaded k.val (regView s a) :: s.out }) ∧
      ∀ x, s.latches.find? (fun y => y.1 == k.val && y.2.1 + 4 == a) = some x →
        regLoad s k a = { s with latches := s.latches.filter (fun y => y.1 != k.val || y.2.1 + 4 != a), out := .loaded k.val x.2.2 :: s.out } := by
  unfold regLoad
  rw [if_neg (by simp [h4]), if_neg (by simp [hl])]
  refine ⟨fun hno => ?_, fun x hx => ?_⟩
  · have hfind : s.latches.find? (fun y => y.1 == k.val && y.2.1 + 4 == a) = none :=
      List.find?_eq_none.2 fun y hy => by simpa using hno y hy
    rw [hfind]
    rfl
  · rw [hx]
    rfl

/-- Settles O49: each class of store and load of a core, by its address. -/
theorem registerStores : Obligations.RegisterStores := by
  intro s k hh hs
  have hrun (c : Instr) (f : State → State) : Host.Outcome.next (coreAccess s k c f) = (.next (f s) : Host.Outcome State Fault Refusal) :=
    congrArg _ (coreAccess_runs hh hs)
  have htk (a v : Reg32) (hm : tkMask a.toNat ≠ 0) : exec (.tkFieldWrite k a v) s = .next (violation s a.toNat) := by
    refine (hrun _ _).trans (congrArg _ ?_)
    by_cases hv : tkViolated s a.toNat v = true
    · rw [if_neg (by simp [hv]), regStore_tk s v hm, if_pos hv]
    · rw [if_pos (by simpa [hv] using hm)]
  have hstore (a v : Reg32) (w : Bool) (ha : assigned a.toNat = true) (hsn : inSnapWindow a.toNat = false) (hx : w = false ∨ a.toNat % 4 ≠ 0) :
      exec (.registerWrite k a v w) s = .next { s with out := .busError k.val :: s.out } := by
    refine (hrun _ _).trans (congrArg _ ?_)
    rw [if_neg (by simp [hsn]), if_neg (by simp [ha]), if_pos (by rcases hx with h | h <;> simp [h])]
  have hreg (a v : Reg32) (ha : assigned a.toNat = true) (hsn : inSnapWindow a.toNat = false ∧ a.toNat % 4 = 0) :
      exec (.registerWrite k a v true) s = .next (regStore s a.toNat v) := by
    refine (hrun _ _).trans (congrArg _ ?_)
    rw [if_neg (by simp [hsn]), if_neg (by simp [ha]), if_neg (by simp [hsn])]
  refine ⟨fun a v hm _ => ⟨_, htk a v hm, rfl, violation_records .., rfl⟩,
    fun a v hm => ⟨_, htk a v hm, rfl, violation_records .., by rw [fieldGet_violation], rfl, rfl, rfl⟩, fun a b h1 h2 h3 => ?_,
      fun a b h1 h2 h3 => ?_,
    fun a h1 h2 h3 h4 => ?_, fun a h => ?_, fun a v h1 h2 => ⟨hstore a v false h1 h2 (.inl rfl), fun h => hstore a v true h1 h2 (.inr h)⟩,
      fun a v h1 h2 => ?_,
    fun v => hreg _ v (by decide) (by decide), fun v => hreg _ v (by decide) (by decide),
      fun v _ => (hreg _ v (by decide) (by decide)).trans (congrArg _ (regStore_sqTail s v)), fun n lo r i hr he _ hi ht hlo hone => ?_,
      fun n lo hno => exec_taskDone_none hh hs hno⟩
  · have hx : exec (.protectedAccess k a b) s = .next (protectedHit s k a.toNat) := by
      refine (hrun _ _).trans (congrArg _ ?_)
      rw [if_neg (by simp [h1]), if_neg h2, if_neg (by tauto)]
    exact ⟨_, hx, rfl, rfl, (wrote_record (s := s) rfl ..).records, rfl⟩
  · refine (hrun _ _).trans (congrArg _ ?_)
    rw [if_neg (by simp [h1]), if_pos ⟨h2, h3⟩]
  · have hx (b : Bool) : exec (.protectedAccess k a b) s = .next (if b then s else regLoad s k a.toNat) := by
      refine (hrun _ _).trans (congrArg _ ?_)
      rw [if_neg (by simp [h1]), if_neg (by omega), if_pos ⟨h2, h3, h4⟩]
    have hodd (h : a.toNat % 4 ≠ 0) : regLoad s k a.toNat = { s with out := .busError k.val :: s.out } := if_pos (by simp [h])
    refine ⟨hx true, fun h => (hx false).trans (congrArg _ (hodd h)), fun h0 hl => ?_⟩
    obtain ⟨hreg, hlatch⟩ := regLoad_plain (s := s) (k := k) h0 hl
    exact ⟨fun hno => (hx false).trans (congrArg _ (hreg hno)), fun x hfind => ⟨_, (hx false).trans (congrArg _ (hlatch x hfind)), rfl, rfl⟩⟩
  · have hx (b : Bool) : exec (.protectedAccess k a b) s = .next (if b then { s with out := .busError k.val :: s.out } else s) := by
      refine (hrun _ _).trans (congrArg _ ?_)
      rw [if_pos h]
    exact ⟨hx true, hx false⟩
  · have hx : exec (.registerWrite k a v true) s = .next (protectedHit s k a.toNat) := by
      refine (hrun _ _).trans (congrArg _ ?_)
      rw [if_neg (by simp [h2]), if_pos (by simp [h1])]
    exact ⟨_, hx, rfl, (wrote_record (s := s) rfl ..).records, rfl⟩
  · subst hlo
    have hone' : ∀ j ∈ s.glb.inst, j.task = i.task → j.rel.setWidth 16 = i.rel.setWidth 16 → j = i := fun j hj h => hone j hj (h.trans ht)
    obtain ⟨hm, hk⟩ := modInst_complete hi hone'
    exact ⟨_, exec_taskDone hh hs hr he hi ht hone, hm, hk, rfl⟩

/-! ## Submissions (R226, R228) -/

theorem eraseDups_of_nodup {α : Type} [BEq α] [LawfulBEq α] : ∀ {l : List α}, l.Nodup → l.eraseDups = l
  | [], _ => rfl
  | a :: l, h => by
    obtain ⟨ha, hl⟩ := List.nodup_cons.1 h
    have hfilter : l.filter (fun b => !b == a) = l := List.filter_eq_self.2 (fun b hb => by
      have hne : b ≠ a := fun hba => ha (hba ▸ hb)
      simpa using hne)
    rw [List.eraseDups_cons, hfilter, eraseDups_of_nodup hl]

/-- The first `m` tag numbers, cooling until a time of 1,000 ns. -/
def coolingTags (m : Nat) : List (Nat × Word) := (List.range m).map (fun n => (n, 1000))

theorem coolNow_of_coolingTags {s : State} {m : Nat} (htags : s.txe.tags = []) (hcool : s.txe.cool = coolingTags m)
    (httc : s.tb.ttc = 0) : coolNow s = m := by
  have hall : (coolingTags m).filter (fun c => decide (0 < (c.2 - (0 : Word)).toInt)) = coolingTags m := by
    refine List.filter_eq_self.2 (fun c hc => ?_)
    obtain ⟨n, -, rfl⟩ := List.mem_map.1 hc
    simp
  have hnumbers : (coolingTags m).map (·.1) = List.range m := by simp [coolingTags, Function.comp_def]
  have hkept (l : List Nat) : l.filter (fun n => !([] : List TagEnt).any (fun t => t.tag.toNat % 1024 == n)) = l :=
    List.filter_eq_self.2 (fun _ _ => rfl)
  rw [coolNow, hcool, httc, htags, hall, hnumbers, eraseDups_of_nodup List.nodup_range, hkept, List.length_range]

/-- While every tag number cools no class finds a free one. -/
theorem tagFree_of_coolingTags {s : State} (htags : s.txe.tags = []) (hcool : s.txe.cool = coolingTags 1024)
    (httc : s.tb.ttc = 0) (c : TxClass) : tagFree s c = false := by
  rw [tagFree, coolNow_of_coolingTags htags hcool httc, htags]
  exact Bool.and_false _

/-- A submission that finds no free tag and does not wait is refused. -/
theorem submit_of_no_tag {s : State} {n : Nat} {c : TxClass} (req : BitVec 16) (u : TUnit) (run : State → State)
    (hentry : (!(nthD s.txe.rings n {}).enable || (nthD s.txe.rings n {}).sqHead == (nthD s.txe.rings n {}).sqTail) = false)
    (hfree : tagFree s c = false) :
    submit s n req false u c run = refuseEntry (noteTags s c .refusedCapacity) n req u.num .refusedCapacity := by
  simp only [submit, hentry, hfree, Bool.false_eq_true, if_false]

/-- A module whose ring 1 holds an entry while every tag number cools. -/
def allTagsCool : State :=
  { State.reset with
    txe := { State.reset.txe with
      rings := modNth State.reset.txe.rings 1 (fun r => { r with enable := true, sqTail := 1 })
      cool := coolingTags 1024 } }

/-- Refutes O45: with every tag number cooling no tag is free, although none is in flight, and the submission is refused. -/
theorem not_submissions : ¬ Obligations.Submissions := by
  intro h
  obtain ⟨hsub, -⟩ := h allTagsCool { req := 0 } rfl
  obtain ⟨-, -, -, -, -, -, -, -, -, -, -, -, hrel, -⟩ := hsub ⟨by decide, by decide, by decide⟩ (by decide) (by decide)
    (by decide) (by decide)
  obtain ⟨t, ht, -, halloc, -⟩ := hrel 0
  have hrefused : exec (.semRel { req := 0 } 0) allTagsCool =
      .next (refuseEntry (noteTags allTagsCool .bridge .refusedCapacity) 1 0 TUnit.gw.num .refusedCapacity) :=
    congrArg Host.Outcome.next (submit_of_no_tag _ _ _ rfl (tagFree_of_coolingTags rfl (by simp only [allTagsCool]) rfl _))
  rw [Host.Outcome.next.inj (ht.symm.trans hrefused)] at halloc
  exact absurd halloc (by decide +kernel)

/-! ## The end of a quarantine (R243) -/

/-- A module with a received frame without writes in flight under tag 0. -/
def receptionWaits : State :=
  { State.reset with
    txe := { State.reset.txe with
      tags := [{ tag := 0, unit := .ethA, cls := .pd, req := .reception { port := .ecnA, cls := .pd, writes := [] } }] } }

/-- Refutes O46: at the end of a quarantine the receptions that may go on complete, so more than the quarantine changes. -/
theorem not_tagsInFlight : ¬ Obligations.TagsInFlight := by
  intro h
  obtain ⟨-, -, -, -, -, -, -, hquar, -⟩ := h receptionWaits
  obtain ⟨t, ht, -, -, heq⟩ := hquar 0
  have hn : (match exec (.quarantineEnd 0) receptionWaits with | .next t => t.txe.tags.length | _ => 1) = 0 := by decide +kernel
  rw [ht] at hn
  have htxe := congrArg State.txe heq
  dsimp only at hn
  rw [htxe] at hn
  exact absurd hn (show receptionWaits.txe.tags.length ≠ 0 by decide)

/-! ## The trusted kernel's calls: a new key store (R410) -/

/-- A module with a session of a maintainer. -/
def maintainerHere : State :=
  { State.reset with
    rst := { State.reset.rst with clusterHeld := false }
    tk := { State.reset.tk with sessions := [{ handle := 1, role := .maintainer, tokenId := 0, keyId := 0, notAfter := 0 }] } }

/-- A key store that is signed as it must be but holds a key of a class that no key has. -/
def oddClassStore : KeyStore :=
  { seq := 1, keys := [{ id := 0, cls := 9 }], root := 1, sig := { magicOk := true, keyClass := 5, ecdsaOk := true, mldsaOk := true } }

/-- Refutes O53: a key store whose keys have a class outside 1 to 4 fails its form check, which the statement does not ask for. -/
theorem not_otherCalls : ¬ Obligations.OtherCalls := by
  intro h
  obtain ⟨-, -, -, -, hmaint, -⟩ := h maintainerHere { session := 1 } rfl
  obtain ⟨-, -, -, -, hload⟩ := hmaint ⟨by decide, by decide, by decide, by decide⟩
  obtain ⟨t, ht, ⟨hcode, -⟩, -⟩ := hload oddClassStore 0 rfl (by decide) (by decide) (by decide) rfl rfl rfl rfl rfl rfl (by decide) rfl rfl
  have hn : (match exec (.keystoreLoad { session := 1 } oddClassStore) maintainerHere with
    | .next t => (nthD t.tk.slots 0 {}).status | _ => Status.ok.code) = Status.checkFailed.code := by decide +kernel
  rw [ht] at hn
  exact absurd (hcode.symm.trans hn) (by decide)

/-! ## The trusted kernel's calls: the reset register (R405) -/

/-- A module with a session of an engineer whose reset register shows a unit that does not exist. -/
def unitNine : State :=
  { State.reset with
    pin := { State.reset.pin with powerGood := true }
    rst := { State.reset.rst with clusterHeld := false, ctrlUnit := 9 }
    tk := { State.reset.tk with sessions := [{ handle := 1, role := .engineer, tokenId := 0, keyId := 0, notAfter := 0 }] } }

/-- Refutes O54: MODULE_RESET writes the reset register with the unit that it shows; where that is none of the 9, the register's own rule refuses
the write. -/
theorem not_registerCalls : ¬ Obligations.RegisterCalls := by
  intro h
  obtain ⟨heng, -⟩ := h unitNine { session := 1 } rfl
  obtain ⟨-, -, -, -, -, hmod, -⟩ := heng ⟨by decide, by decide, by decide, by decide⟩
  obtain ⟨t, ht, ⟨hcode, -⟩, -⟩ := hmod rfl rfl rfl (by decide)
  have hn : (match exec (.moduleReset { session := 1 }) unitNine with
    | .next t => (nthD t.tk.slots 0 {}).status | _ => Status.ok.code) = Status.refusedPolicy.code := by decide +kernel
  rw [ht] at hn
  exact absurd (hcode.symm.trans hn) (by decide)

/-! ## A revert that is refused (R437, R438) -/

/-- The ACTIVE member of a group, with a session of a maintainer. -/
def activeMaintained : State :=
  { maintainerHere with
    ci := { State.reset.ci with act := { State.reset.ci.act with group := { State.reset.ci.act.group with group := true } } }
    grp := { State.reset.grp with role := .active } }

/-- Refutes O56: the ACTIVE member of a group notes the refusal of a trusted kernel's revert with a record. -/
theorem not_activations : ¬ Obligations.Activations := by
  intro h
  obtain ⟨-, -, hcall, -⟩ := h activeMaintained (.ecn 0) {} .tk rfl rfl rfl
  obtain ⟨-, -, -, -, -, hrev⟩ := hcall { session := 1 } rfl
  obtain ⟨u, hu, -, -, -, -, heq⟩ := hrev ⟨by decide, by decide, by decide, by decide⟩ (by decide)
  have hn : (match exec (.updRevert { session := 1 } .tk) activeMaintained with | .next u => u.evr.ring.length | _ => 0) = 1 := by decide +kernel
  rw [hu] at hn
  have hevr := congrArg State.evr heq
  dsimp only at hn
  rw [hevr] at hn
  exact absurd hn (show activeMaintained.evr.ring.length ≠ 1 by decide)

/-! ## The end of a safety task (R367) -/

/-- The instance of the safety task of low priority. -/
def lowInstance : Instance := { task := 1, rel := 0, fin := 1 }

/-- A module with two safety tasks in flight, of which task 2 runs first. -/
def twoSafetyTasks : State :=
  { State.reset with
    ci := { State.reset.ci with act := { State.reset.ci.act with
      tasks := [{ id := 1, engine := 1, priority := 5 }, { id := 2, engine := 1, priority := 1 }], sigs := [{ sid := 1, writer := 1 }] } }
    glb := { State.reset.glb with inst := [lowInstance, { task := 2, rel := 0, fin := 1 }] }
    cyc := { State.reset.cyc with timerTtc := 20000000 }
    tb := { State.reset.tb with ttc := 19900000 }
    safe := { State.reset.safe with failSilent := false } }

/-- Refutes O57: an instance cannot end while one of a higher priority is in flight on the same engine, so it leaves no token. -/
theorem not_safetyIsland : ¬ Obligations.SafetyIsland := by
  intro h
  obtain ⟨hend, -⟩ := h twoSafetyTasks
  obtain ⟨⟨t, ht, -, -, -, htok, -⟩, -⟩ := hend 1 { id := 1, engine := 1, priority := 5 } lowInstance 0 [] 1 0 0 { sid := 1, writer := 1 }
    (by decide) (by decide) rfl rfl (by decide) rfl (by decide) (by decide) (by decide) (by decide +kernel)
  have hn : (match exec (.safetyTaskEnd 1 [(1, 0, 0)] 0 [] true) twoSafetyTasks with | .next t => t.safe.tokens.length | _ => 1) = 0 :=
    by decide +kernel
  rw [ht] at hn
  rw [List.length_eq_zero_iff.1 hn] at htok
  exact absurd htok List.not_mem_nil

/-! ## Training of a group link (R328, R448) -/

/-- A member of a group at reset, before its power is good. -/
def unpoweredMember : State :=
  { State.reset with
    ci := { State.reset.ci with act := { State.reset.ci.act with group := { State.reset.ci.act.group with group := true } } }
    rst := { State.reset.rst with portHeld := 0 } }

/-- Refutes O58: without power a group link does not train, although its unit is not held. -/
theorem not_groupLinks : ¬ Obligations.GroupLinks := by
  intro h
  obtain ⟨hup, -⟩ := h unpoweredMember .left {}
  obtain ⟨t, ht, hlink, -⟩ := hup rfl (by decide)
  have hn : exec (.glLinkUp .left) unpoweredMember = .next unpoweredMember := congrArg Host.Outcome.next (if_neg (by decide))
  obtain rfl : t = unpoweredMember := Host.Outcome.next.inj (ht.symm.trans hn)
  exact absurd hlink (by decide)

/-! ## Remote access without a free tag (R345, R228) -/

/-- A group member at position 1 with its left link up, while the quotas reserve every tag for another class. -/
def memberWithoutTags : State :=
  { State.reset with
    ci := { State.reset.ci with act := { State.reset.ci.act with group := { State.reset.ci.act.group with group := true } } }
    pin := { State.reset.pin with latched := some { gpos := 1 } }
    grp := { State.reset.grp with brL := { State.reset.grp.brL with up := true } }
    txe := { State.reset.txe with quota := [1024, 0, 0, 0, 0, 0] } }

theorem memberWithoutTags_tagFree : tagFree memberWithoutTags .group = false := by decide +kernel

/-- The request's lack of a tag leaves a record. -/
theorem memberWithoutTags_records :
    (match exec (.rdReq .left { src := peerPos memberWithoutTags .left } 0 0 0) memberWithoutTags with
      | .next t => t.evr.ring.length
      | _ => 0) = 1 := by decide +kernel

/-- Refutes O60: a request that finds no free tag is asked to come again, and the lack of a tag is recorded. -/
theorem not_groupAgreement : ¬ Obligations.GroupAgreement := by
  intro h
  obtain ⟨-, -, -, -, -, -, hhear, -⟩ := h memberWithoutTags .left { src := peerPos memberWithoutTags .left } 0 0 .ok
  obtain ⟨-, -, -, -, -, -, -, -, -, -, -, -, -, -, -, hfull, -⟩ :=
    hhear ⟨by decide, rfl, rfl, .inl rfl, by decide, by decide⟩ (by decide) rfl
  obtain ⟨⟨t, ht, hlinks, -⟩, -⟩ := hfull memberWithoutTags_tagFree 0
  have hn := memberWithoutTags_records
  rw [ht] at hn
  have hring : t.evr.ring = [] := by rw [show t = _ from hlinks]; rfl
  exact absurd (show t.evr.ring.length = 1 from hn) (by rw [hring]; decide)

/-! ## A full ring loses its oldest records (R463): the clusters' clocks (R63, R459) -/

/-- The ring holds no more than its size, and its newest `n` records satisfy `P`. -/
def Newest (P : Rec → Prop) (n : Nat) (ring : List Rec) : Prop :=
  ring.length ≤ 16384 ∧ ∀ r ∈ ring.take n, P r

/-- Writing a record that satisfies `P` adds one to the newest ones that do. -/
theorem Newest.write {P : Rec → Prop} {n : Nat} {e : Evr} {r : Rec} (h : Newest P n e.ring) (hr : P r) :
    Newest P (n + 1) (e.write r).ring := by
  obtain ⟨hlen, hall⟩ := h
  have hring : (e.write r).ring = r :: if e.ring.length ≥ 16384 then e.ring.dropLast else e.ring := by
    simp [Evr.write]
  rw [hring]
  refine ⟨?_, ?_⟩
  · split <;> simp <;> omega
  · intro x hx
    rw [List.take_succ_cons, List.mem_cons] at hx
    obtain rfl | hx := hx
    · exact hr
    · refine hall x ?_
      split at hx
      · rw [List.dropLast_eq_take, List.take_take] at hx
        exact List.take_subset_take_left _ (Nat.min_le_left ..) hx
      · exact hx

theorem Newest.record {P : Rec → Prop} {n : Nat} {s : State} (h : Newest P n s.evr.ring) (sev : Sev) (src : BitVec 12)
    (code : BitVec 16) (subject : Nat) (detail : List Byte)
    (hr : P (mkRec s sev src code s.cyc.mcc (BitVec.ofNat 32 subject) detail)) :
    Newest P (n + 1) (record s sev src code subject detail).evr.ring :=
  h.write hr

/-- Once the newest 16,384 records satisfy `P`, every record of the ring does. -/
theorem Newest.forall {P : Rec → Prop} {n : Nat} {ring : List Rec} (h : Newest P n ring) (hn : 16384 ≤ n) : ∀ r ∈ ring, P r := by
  intro r hr
  exact h.2 r (by rwa [List.take_of_length_le (h.1.trans hn)])

/-- A record below ERROR. -/
def NotError (r : Rec) : Prop := r.sev ≠ .error

/-- A session whose call is in progress ends with a NOTICE record (R424). -/
theorem endSession_newest {s : State} {n : Nat} {h : BitVec 16} (hr : Newest NotError n s.evr.ring)
    (hslot : (s.tk.slots.find? (fun x => x.busy && x.session == h)).isSome = true) :
    Newest NotError (n + 1) (endSession s h).evr.ring := by
  obtain ⟨x, hx⟩ := Option.isSome_iff_exists.1 hslot
  simp only [endSession, hx]
  refine Newest.record ?_ _ _ _ _ _ (by simp [NotError, mkRec])
  split
  · exact hr
  · exact hr

theorem endSession_slots (s : State) (h : BitVec 16) : (endSession s h).tk.slots = s.tk.slots := by
  unfold endSession
  split <;> simp <;> split <;> rfl

/-- The end of sessions that all name a call in progress writes a record for each. -/
theorem endSessions_newest {h : BitVec 16} : ∀ (l : List Session) {s : State} {n : Nat}, (∀ x ∈ l, x.handle = h) →
    Newest NotError n s.evr.ring → (s.tk.slots.find? (fun x => x.busy && x.session == h)).isSome = true →
    Newest NotError (n + l.length) (l.foldl (fun s x => endSession s x.handle) s).evr.ring
  | [], _, _, _, hr, _ => hr
  | x :: l, s, n, hl, hr, hslot => by
    rw [List.foldl_cons, List.length_cons, Nat.add_comm l.length, ← Nat.add_assoc, hl x (.head _)]
    exact endSessions_newest l (fun y hy => hl y (.tail _ hy)) (endSession_newest hr hslot) (by rwa [endSession_slots])

/-- Without a tag in flight the release of the cluster's tags writes no record. -/
theorem unitResetRings_of_no_tags {s : State} (h : s.txe.tags = []) :
    (unitResetRings s).evr = s.evr ∧ (unitResetRings s).tk = s.tk ∧ (unitResetRings s).txe = s.txe := by
  simp [unitResetRings, runtimeEnds, h, dropFrames]

theorem runtimeTags_of_no_tags {s : State} (h : s.txe.tags = []) : (runtimeTags s).evr = s.evr := by
  simp [runtimeTags, runtimeEnds, h, dropFrames]

/-- A RUNTIME reset after a fault leaves NOTICE records as the newest, one for each session that names a call in progress. -/
theorem runtimeFault_newest {s : State} {src : ResetSource} {h : BitVec 16} (htags : s.txe.tags = [])
    (hl : ∀ x ∈ s.tk.sessions, x.handle = h) (hslot : (s.tk.slots.find? (fun x => x.busy && x.session == h)).isSome = true)
    (hring : s.evr.ring.length ≤ 16384) : Newest NotError (s.tk.sessions.length + 1) (runtimeFault s src).evr.ring := by
  have hends : Newest NotError (0 + s.tk.sessions.length) (endSessions s).evr.ring :=
    endSessions_newest _ hl ⟨hring, by simp⟩ hslot
  have htxe : (endSessions s).txe = s.txe := (endSessions_within s).txe_eq
  have hevr : (runtimeTags (maintOff (endSessions s))).evr = (endSessions s).evr :=
    runtimeTags_of_no_tags (show (endSessions s).txe.tags = [] by rw [htxe, htags])
  rw [← hevr, Nat.zero_add] at hends
  exact Newest.record hends _ _ _ _ _ (by simp [NotError, mkRec])

theorem clockRec_txe (s : State) (sev : Sev) (i : Nat) : (clockRec s sev i).txe = s.txe := (clockRec_within s sev i).txe_eq

theorem clockRec_tk (s : State) (sev : Sev) (i : Nat) : (clockRec s sev i).tk = s.tk := (clockRec_within s sev i).tk_eq

theorem clusterFault_eq (s : State) (i : Nat) : clusterFault s i =
    runtimeFault { unitResetRings (clockRec s .error i) with
      rst := { (unitResetRings (clockRec s .error i)).rst with faultLed1Hz := true } } .clockFault := rfl

/-- So does a fault of the cluster's clocks (R63, R459). -/
theorem clusterFault_newest {s : State} {i : Nat} {h : BitVec 16} (htags : s.txe.tags = [])
    (hl : ∀ x ∈ s.tk.sessions, x.handle = h) (hslot : (s.tk.slots.find? (fun x => x.busy && x.session == h)).isSome = true)
    (hring : (clockRec s .error i).evr.ring.length ≤ 16384) : Newest NotError (s.tk.sessions.length + 1) (clusterFault s i).evr.ring := by
  have hu := unitResetRings_of_no_tags (s := clockRec s .error i) (by rw [clockRec_txe, htags])
  rw [clockRec_tk, clockRec_txe] at hu
  rw [clusterFault_eq]
  generalize unitResetRings (clockRec s .error i) = u at hu ⊢
  obtain ⟨hevr, htk, htxe⟩ := hu
  rw [← htk] at hl hslot ⊢
  exact runtimeFault_newest (by rw [htxe, htags]) hl hslot (by rw [hevr]; exact hring)

/-- A kernel with `m` sessions of one handle, which a call in progress names. -/
def crowdedKernel (m : Nat) : State :=
  { State.reset with
    tk := { State.reset.tk with
      slots := [{ busy := true, session := 1 }]
      sessions := List.replicate m { handle := 1, role := .viewer, tokenId := 0, keyId := 0, notAfter := 0 } } }

/-- The state as the clock at position `i` of CLK_STATUS stops. -/
def clockStops (s : State) (i : Fin 19) : State :=
  { s with clk := { s.clk with ok := clrBit s.clk.ok i.val, fault := setBit s.clk.fault i.val } }

/-- The fault of clock 6 is a fault of the cluster (R63). -/
theorem exec_clockFault_six (s : State) : exec (.clockFault 6) s = .next (clusterFault (clockStops s 6) 6) :=
  congrArg Host.Outcome.next (if_neg (fun h => absurd h.1 (by decide)))

/-- After a fault of clock 6 the newest records are below ERROR, one for each session. -/
theorem crowdedKernel_newest (m : Nat) : Newest NotError (m + 1) (clusterFault (clockStops (crowdedKernel m) 6) 6).evr.ring := by
  have h := clusterFault_newest (s := clockStops (crowdedKernel m) 6) (i := 6) (h := 1) rfl
    (fun x hx => (List.eq_of_mem_replicate hx) ▸ rfl) rfl (Nat.le_of_ble_eq_true rfl)
  rwa [show (clockStops (crowdedKernel m) 6).tk.sessions.length = m from List.length_replicate ..] at h

/-- Refutes O32: the records of 16,384 sessions that end with the cluster push the clock's ERROR record out of the ring. -/
theorem not_clockFaults : ¬ Obligations.ClockFaults := by
  intro h
  obtain ⟨-, hcluster, -⟩ := h (crowdedKernel 16384) 6
  obtain ⟨t, ht, -, -, -, hrec⟩ := hcluster (.inr rfl)
  obtain ⟨r, hr, -, hsev, -⟩ := hrec rfl
  rw [Host.Outcome.next.inj (ht.symm.trans (exec_clockFault_six _))] at hr
  exact (crowdedKernel_newest 16384).forall (Nat.le_succ _) r hr hsev

/-! ## Bus-off of a CAN port (R303, R228) -/

/-- A record with another code than FAULT 0. -/
def NotFaultZero (r : Rec) : Prop := r.code ≠ cFault 0

/-- A failed posted write leaves one record of its status. -/
theorem failPosted_newest {s : State} {n : Nat} (e : FailEnt) (marks : List Sid) (req : BitVec 16) (hr : Newest NotFaultZero n s.evr.ring)
    (hst : cFailed e.status ≠ cFault 0) : Newest NotFaultZero (n + 1) (failPosted s e marks req).evr.ring := by
  have hmail : (mailFail { s with txe := logFail s.txe e } e req).evr = s.evr := (mailFail_within _ e req false 0).evr_eq
  have hbefore : Newest NotFaultZero n (mailFail { s with txe := logFail s.txe e } e req).evr.ring := by rwa [hmail]
  exact Newest.record hbefore _ _ _ _ _ hst

/-- A frame that fails leaves a record for each writer of its signals. -/
theorem busFail_newest {s : State} {n : Nat} (u : TUnit) (bus frame : Nat) (addr : Reg32) (st : Status) (x : Issue)
    (hr : Newest NotFaultZero n s.evr.ring) (hst : cFailed st ≠ cFault 0) :
    Newest NotFaultZero (n + (writersOf s.ci.act (sidsTo s.ci.act bus frame)).length) (busFail s u bus frame addr st x).evr.ring := by
  unfold busFail
  generalize hg : s.ci.act = g
  dsimp only
  generalize writersOf g (sidsTo g bus frame) = l
  clear hg
  induction l generalizing s n with
  | nil => exact hr
  | cons w l ih =>
    rw [List.foldl_cons, List.length_cons, Nat.add_comm l.length, ← Nat.add_assoc]
    exact ih (failPosted_newest _ _ _ hr hst)

/-- So do frames of one gateway record that all fail with their CAN port. -/
theorem canFail_newest {n i : Nat} : ∀ (l : List CanPend) {s : State} {m : Nat},
    (∀ p ∈ l, p.src = .record i) → Newest NotFaultZero m s.evr.ring →
    Newest NotFaultZero (m + l.length * (writersOf s.ci.act (sidsTo s.ci.act (n + 1) i)).length)
      (l.foldl (fun s p => canFail s n p .timeout) s).evr.ring
  | [], _, _, _, hr => by simpa using hr
  | p :: l, s, m, hl, hr => by
    have hone : Newest NotFaultZero (m + (writersOf s.ci.act (sidsTo s.ci.act (n + 1) i)).length) (canFail s n p .timeout).evr.ring := by
      have h := busFail_newest (s := modCan s n (fun c => { c with txFailed := satInc c.txFailed })) (canPort n).unit (n + 1) i
        (p.frame.ident.setWidth 32) .timeout p.iss (by rwa [modCan_evr]) (by decide)
      rw [modCan_ci] at h
      simpa only [canFail, hl p (.head _)] using h
    have hci : (canFail s n p .timeout).ci = s.ci := (canFail_within s n p .timeout).ci_eq
    have h := canFail_newest (n := n) l (fun q hq => hl q (.tail _ hq)) hone
    rw [hci] at h
    rw [List.foldl_cons, List.length_cons, Nat.succ_mul]
    convert h using 1
    omega

/-- Sixteen signals of as many writers in the frame of gateway record 0 on CAN port 0. -/
def sixteenWriters : ConfImage :=
  { State.reset.ci.act with
    sigs := (List.range 16).map (fun i => { sid := BitVec.ofNat _ i, writer := BitVec.ofNat 8 i })
    gwmap := (List.range 16).map (fun i => { sid := BitVec.ofNat _ i, bus := 1, toBus := true }) }

theorem sixteenWriters_writersOf : (writersOf sixteenWriters (sidsTo sixteenWriters 1 0)).length = 16 := by decide +kernel

/-- That frame, `m` times. -/
def waitingFrames (m : Nat) : List CanPend := List.replicate m { frame := { ident := 0 }, src := .record 0 }

/-- A CAN port on which that frame waits `m` times. -/
def framesWait (m : Nat) : State :=
  { State.reset with
    ci := { State.reset.ci with act := sixteenWriters }
    can0 := { State.reset.can0 with enabled := true, pend := waitingFrames m } }

/-- The port at bus-off, its record written, before its frames fail. -/
def portOff (s : State) : State :=
  record (modCan s 0 (fun c => { c with busOff := true, busOffCnt := satInc c.busOffCnt, pend := [] })) .warning Port.can0.src (cFault 0)
    Port.can0.num

theorem exec_busOff_framesWait (m : Nat) : exec (.busOff 0) (framesWait m) =
    .next ((waitingFrames m).foldl (fun s p => canFail s 0 p .timeout) (portOff (framesWait m))) :=
  rfl

theorem framesWait_newest (m : Nat) : Newest NotFaultZero (m * 16)
    ((waitingFrames m).foldl (fun s p => canFail s 0 p .timeout) (portOff (framesWait m))).evr.ring := by
  have h := canFail_newest (n := 0) (i := 0) (m := 0) (s := portOff (framesWait m))
    (waitingFrames m) (fun p hp => (List.eq_of_mem_replicate hp) ▸ rfl)
    ⟨Nat.le_of_ble_eq_true rfl, by simp⟩
  rwa [show (portOff (framesWait m)).ci.act = sixteenWriters from rfl, sixteenWriters_writersOf, waitingFrames,
    List.length_replicate, Nat.zero_add] at h

/-- Refutes O44: 1,024 frames that fail with their port, each of sixteen writers, push the record of the bus-off out of the ring. -/
theorem not_legacyBuses : ¬ Obligations.LegacyBuses := by
  intro h
  obtain ⟨-, -, -, -, -, -, -, hcan⟩ := h (framesWait 1024)
  obtain ⟨-, -, -, -, hoff, -⟩ := hcan 0 (by decide)
  obtain ⟨t, ht, -, -, -, hrec, -⟩ := hoff rfl rfl
  obtain ⟨r, hr, -, -, -, hcode⟩ := hrec (List.length_replicate ..).le
  rw [Host.Outcome.next.inj (ht.symm.trans (exec_busOff_framesWait 1024))] at hr
  exact (framesWait_newest 1024).forall (by decide) r hr hcode

/-! ## Calls of the trusted kernel: the slot, the response, the answer (R411, R420) -/

/-- The state in which a call runs: its slot taken. -/
def slotTaken (s : State) (c : CallReq) (call : Nat) : State :=
  modSlot s c.slot (fun x => { x with call := BitVec.ofNat 16 call, seq := c.seq, session := c.session, interim := false, frame := none })

/-- What a call's own rule answered, with AUTH_REQUIRED counted (R424). -/
def authCounted (r : CallRes) : State :=
  if r.2.1 = .authRequired then { r.1 with tk := { r.1.tk with authFail := satInc r.1.tk.authFail } } else r.1

/-- A call that a ready slot makes with its role runs and is answered. -/
theorem callOn_of_ready {s : State} {c : CallReq} {need : Role} (h : CallReady s c need) (call : Nat) (k : State → CallRes) :
    callOn s c call need k =
      answer (authCounted (k (slotTaken s c call))) c.slot (k (slotTaken s c call)).2.1 ((k (slotTaken s c call)).2.2.take c.respMax) := by
  obtain ⟨-, hheld, hbusy, hrank⟩ := h
  have hrole : ¬ (roleOf (slotTaken s c call) c.session).rank < need.rank := Nat.not_lt.2 hrank
  have hgo : callOn s c call need k =
      (let r : CallRes := if (roleOf (slotTaken s c call) c.session).rank < need.rank then (slotTaken s c call, .authRequired, []) else k
        (slotTaken s c call)
       answer (authCounted r) c.slot r.2.1 (r.2.2.take c.respMax)) := by
    unfold callOn
    simp only [hheld, hbusy, Bool.false_eq_true, if_false]
    rfl
  rw [hgo, if_neg hrole]

theorem dramWrite_eq (s : State) (a : Word) (l : List Byte) :
    dramWrite s a l = { s with dram := (dramWrite s a l).dram, pmu := (dramWrite s a l).pmu } := by
  unfold dramWrite
  split
  · rw [pmuCount_eq (by decide)]
  · rfl

/-- A write to DRAM changes its own bytes only, if any. -/
theorem dramWrite_read {s : State} (hwf : s.dram.wf = true) (w : Word) (l : List Byte) {a : Nat} (ha : a < w.toNat ∨ w.toNat + l.length ≤ a) :
    (dramWrite s w l).dram.read a = s.dram.read a := by
  unfold dramWrite
  split
  · rw [pmuCount_dram]
    exact Mem.read_writeList_out hwf ha
  · rfl

theorem leBytes_length : ∀ n v : Nat, (leBytes n v).length = n
  | 0, _ => rfl
  | n + 1, v => congrArg (· + 1) (leBytes_length n (v / 256))

theorem respBytes_length (st : Status) (seq : Reg32) (data : List Byte) : (respBytes st seq data).length = 32 + data.length := by
  simp only [respBytes, List.length_append, List.length_cons, List.length_nil, List.length_replicate, leBytes_length]

/-- A slot that is answered (R411). -/
def slotAnswered (st : Status) (x : CallSlot) : CallSlot :=
  { x with status := st.code, done := true, interim := st == .deferred, busy := st == .deferred }

/-- The state after a call's answer: what the answer changes. -/
theorem answer_eq (s : State) (n : Nat) (st : Status) (data : List Byte) : answer s n st data =
    { s with tk := { s.tk with slots := modNth s.tk.slots n (slotAnswered st) }, dram := (answer s n st data).dram
             pmu := (answer s n st data).pmu, out := .irqCall n :: s.out } := by
  unfold answer
  dsimp only
  rw [dramWrite_eq]
  rfl

/-- The answer's bytes lie in the response buffer. -/
theorem answer_read {s : State} (hwf : s.dram.wf = true) (n : Nat) (st : Status) (data : List Byte) {a : Nat}
    (ha : a < (nthD s.tk.slots n {}).addr.toNat ∨ (nthD s.tk.slots n {}).addr.toNat + 32 + data.length ≤ a) :
    (answer s n st data).dram.read a = s.dram.read a := by
  have h := dramWrite_read (s := modSlot s n (slotAnswered st)) hwf (nthD s.tk.slots n {}).addr
    (respBytes st (nthD s.tk.slots n {}).seq data) (a := a) (by rw [respBytes_length]; omega)
  exact h

theorem irqCall_mem_newOut {s t : State} {n : Nat} {l : List Out} (h : t.out = .irqCall n :: (l ++ s.out)) : .irqCall n ∈ newOut s t := by
  have hlen : t.out.length - s.out.length = l.length + 1 := by rw [h]; simp; omega
  rw [newOut, hlen, h]
  exact .head _

/-- A call's slot after the answer. -/
theorem answered_of_slot {w : State} {c : CallReq} {st : Status} (data : List Byte) (hlen : c.slot < w.tk.slots.length)
    (hseq : (nthD w.tk.slots c.slot {}).seq = c.seq) (hsession : (nthD w.tk.slots c.slot {}).session = c.session) :
    Answered (answer w c.slot st data) c st := by
  have hslot : nthD (answer w c.slot st data).tk.slots c.slot {} = slotAnswered st (nthD w.tk.slots c.slot {}) := by
    rw [answer_eq]
    exact nthD_modNth_self _ _ _ _ hlen
  rw [Answered, hslot]
  exact ⟨rfl, rfl, rfl, hseq, hsession⟩

/-- A call whose own rule goes over to `u`, besides its slot and what is shown, and answers `st` replies so (R411). -/
theorem callOn_replies {s u : State} {c : CallReq} {need : Role} {call : Nat} {k : State → CallRes} {st : Status} (h : CallReady s c need)
    (hwf : s.dram.wf = true) (hst : (k (slotTaken s c call)).2.1 = st) (hauth : st ≠ .authRequired)
    (hk : (k (slotTaken s c call)).1 =
      { u with tk := { u.tk with slots := (slotTaken s c call).tk.slots }, out := (k (slotTaken s c call)).1.out })
    (hslots : u.tk.slots = s.tk.slots) (hdram : u.dram = s.dram) (hout : ∃ l, (k (slotTaken s c call)).1.out = l ++ s.out) :
    Replies s u (callOn s c call need k) c st := by
  obtain ⟨hlen, -⟩ := id h
  rw [callOn_of_ready h call k, hst, authCounted, hst, if_neg hauth]
  generalize hw : (k (slotTaken s c call)).1 = w at hk hout
  obtain ⟨l, hl⟩ := hout
  have hwslots : w.tk.slots = (slotTaken s c call).tk.slots := by rw [hk]
  have hslot : nthD w.tk.slots c.slot {} = { nthD s.tk.slots c.slot {} with
      call := BitVec.ofNat 16 call, seq := c.seq, session := c.session, interim := false, frame := none } := by
    rw [hwslots]
    exact nthD_modNth_self _ _ _ _ hlen
  have hwdram : w.dram = s.dram := by rw [hk]; exact hdram
  refine ⟨answered_of_slot _ (by rw [hwslots]; exact (modNth_length ..).symm ▸ hlen) (by rw [hslot]) (by rw [hslot]), ?_, ?_, ?_, ?_⟩
  · intro n hn
    rw [answer_eq, hslots]
    refine (nthD_modNth_ne _ _ _ hn).trans ?_
    rw [hwslots]
    exact nthD_modNth_ne _ _ _ hn
  · intro a ha
    rw [hdram, ← hwdram]
    refine answer_read (by rw [hwdram, hwf]) _ _ _ ?_
    rw [hslot]
    have := List.length_take_le c.respMax (k (slotTaken s c call)).2.2
    dsimp only
    omega
  · exact irqCall_mem_newOut (l := l) (by rw [answer_eq, ← hl])
  · rw [answer_eq, hk]

/-! ## Mode calls (R185 to R190, R392) -/

section
variable {s : State} {m : ModeCmd} (hg : inGroup s = false)
include hg

/-- A mode command that is pending or in effect is repeated without an effect (R185). -/
theorem modeCommand_of_repeated (h : s.glb.pendCmd = some m ∨ alreadyIn s m = true) : modeCommand s m = (s, .ok) := by
  have hrepeat : (decide (s.glb.pendCmd = some m) || alreadyIn s m) = true := by simpa using h
  unfold modeCommand
  simp [hg, hrepeat]

theorem modeCommand_of_not_accepted (hp : s.glb.pendCmd ≠ some m) (ha : alreadyIn s m = false) (hacc : acceptedIn s m = false) :
    modeCommand s m = (s, .refusedPolicy) := by
  unfold modeCommand
  simp [hg, hp, ha, hacc]

/-- A mode command accepted in its state becomes the pending one (R185). -/
theorem modeCommand_of_accepted (hp : s.glb.pendCmd ≠ some m) (ha : alreadyIn s m = false) (hacc : acceptedIn s m = true)
    (hstep : ∀ n, m = .step n → s.glb.stepping = false) : modeCommand s m = (setPending s m (boundaryAfter s (leadNs s m)), .ok) := by
  unfold modeCommand
  cases m with
  | step n => simp [hg, hp, ha, hacc, hstep n rfl]
  | _ => simp [hg, hp, ha, hacc]

theorem modeCommand_step_again {n : Nat} (hp : s.glb.pendCmd ≠ some (.step n)) (hacc : acceptedIn s (.step n) = true) (hstep :
    s.glb.stepping = true) :
    modeCommand s (.step n) = (s, .retry) := by
  unfold modeCommand
  simp [hg, hp, alreadyIn, hacc, hstep]

end

/-- A mode call of a standalone module replies as its command's rule says. -/
theorem modeCall_replies {s u : State} {c : CallReq} {m : ModeCmd} {st : Status} (h : CallReady s c m.role) (hwf : s.dram.wf = true)
    (hg : inGroup s = false) {w : State} (hcmd : modeCommand (slotTaken s c m.call) m = (w, st)) (hauth : st ≠ .authRequired)
    (hw : w = { u with tk := { u.tk with slots := (slotTaken s c m.call).tk.slots }, out := w.out })
    (hslots : u.tk.slots = s.tk.slots) (hdram : u.dram = s.dram) (hout : ∃ l, w.out = l ++ s.out) :
    Replies s u (modeCall s c m) c st := by
  have hgroup : inGroup (slotTaken s c m.call) = false := hg
  refine callOn_replies h hwf ?_ hauth ?_ hslots hdram ?_
  · simp only [hgroup, Bool.false_eq_true, if_false, hcmd]
  · simpa only [hgroup, Bool.false_eq_true, if_false, hcmd] using hw
  · simpa only [hgroup, Bool.false_eq_true, if_false, hcmd] using hout

section
variable {s : State} {c : CallReq} {m : ModeCmd} (hwf : s.dram.wf = true) (hg : inGroup s = false) (h : CallReady s c m.role)
include hwf hg h

/-- A mode call without an effect replies with its status only. -/
theorem modeCall_keeps {st : Status} (hcmd : modeCommand (slotTaken s c m.call) m = (slotTaken s c m.call, st)) (hauth : st ≠ .authRequired) :
    Replies s s (modeCall s c m) c st :=
  modeCall_replies h hwf hg hcmd hauth rfl rfl rfl ⟨[], rfl⟩

/-- A mode call that repeats the pending command or the present state is OK without an effect (R185). -/
theorem modeCall_repeats (hrep : s.glb.pendCmd = some m ∨ alreadyIn (slotTaken s c m.call) m = true) : Replies s s (modeCall s c m) c .ok :=
  modeCall_keeps hwf hg h (modeCommand_of_repeated hg hrep) (by decide)

/-- A mode call in another state is refused (R185). -/
theorem modeCall_refuses (hp : s.glb.pendCmd ≠ some m) (ha : alreadyIn (slotTaken s c m.call) m = false)
    (hacc : acceptedIn (slotTaken s c m.call) m = false) : Replies s s (modeCall s c m) c .refusedPolicy :=
  modeCall_keeps hwf hg h (modeCommand_of_not_accepted hg hp ha hacc) (by decide)

/-- A mode call in its state makes its command the pending one (R185). -/
theorem modeCall_pends {ns : Nat} (hm : m ≠ .dormant) (hp : s.glb.pendCmd ≠ some m) (ha : alreadyIn (slotTaken s c m.call) m = false)
    (hacc : acceptedIn (slotTaken s c m.call) m = true) (hstep : ∀ n, m = .step n → s.glb.stepping = false)
    (hlead : leadNs (slotTaken s c m.call) m = ns) : Replies s (Pends s m ns) (modeCall s c m) c .ok := by
  refine modeCall_replies h hwf hg (modeCommand_of_accepted hg hp ha hacc hstep) (by decide) ?_ rfl rfl ⟨[], ?_⟩
  · rw [hlead]
    simp only [setPending, if_neg hm]
    rfl
  · simp only [setPending, if_neg hm]
    rfl

end

theorem callReady_mono {s : State} {c : CallReq} {a b : Role} (h : CallReady s c a) (hab : b.rank ≤ a.rank) : CallReady s c b := by
  obtain ⟨hlen, hheld, hbusy, hrank⟩ := h
  exact ⟨hlen, hheld, hbusy, hab.trans hrank⟩

/-- What a call shows: its slot's interrupt on what its own rule shows. -/
theorem callOn_out {s : State} {c : CallReq} {need : Role} (h : CallReady s c need) (call : Nat) (k : State → CallRes) :
    (callOn s c call need k).out = .irqCall c.slot :: (k (slotTaken s c call)).1.out := by
  have hauth (r : CallRes) : (authCounted r).out = r.1.out := by unfold authCounted; split <;> rfl
  rw [callOn_of_ready h, answer_eq]
  exact congrArg (_ :: ·) (hauth _)

theorem mem_newOut_of_append {s t : State} {o : Out} {l : List Out} (h : t.out = l ++ s.out) (ho : o ∈ l) : o ∈ newOut s t := by
  have hlen : t.out.length - s.out.length = l.length := by rw [h, List.length_append]; omega
  rwa [newOut, hlen, h, List.take_left]

/-- DORMANT_ENTER in its state waits for its boundary and tells the cluster (R392). -/
theorem dormantCall_pends {s : State} {c : CallReq} (hwf : s.dram.wf = true) (hg : inGroup s = false) (h : CallReady s c .maintainer)
    (hp : s.glb.pendCmd ≠ some .dormant) (hacc : dormantOk s = true) :
    (modeCall s c .dormant).rst.dormantPending = true ∧ (modeCall s c .dormant).rst.dormantMcc = boundaryAfter s 1000000000 ∧
      Replies s { Pends s .dormant 1000000000 with rst := (modeCall s c .dormant).rst } (modeCall s c .dormant) c .ok ∧
      .irqDormant (boundaryAfter s 1000000000) ∈ newOut s (modeCall s c .dormant) := by
  have hcmd : modeCommand (slotTaken s c ModeCmd.dormant.call) .dormant =
      (setPending (slotTaken s c ModeCmd.dormant.call) .dormant (boundaryAfter s 1000000000), .ok) :=
    modeCommand_of_accepted hg hp rfl hacc (by simp)
  have hreplies : Replies s { Pends s .dormant 1000000000 with
      rst := { s.rst with dormantPending := true, dormantMcc := boundaryAfter s 1000000000 } } (modeCall s c .dormant) c .ok :=
    modeCall_replies h hwf hg hcmd (by decide) rfl rfl rfl ⟨[.irqDormant (boundaryAfter s 1000000000)], rfl⟩
  have hrst : (modeCall s c .dormant).rst = { s.rst with dormantPending := true, dormantMcc := boundaryAfter s 1000000000 } := by
    obtain ⟨-, -, -, -, heq⟩ := hreplies
    rw [heq]
  refine ⟨by rw [hrst], by rw [hrst], by rw [hrst]; exact hreplies, ?_⟩
  refine mem_newOut_of_append (l := [.irqCall c.slot, .irqDormant (boundaryAfter s 1000000000)]) ?_ (.tail _ (.head _))
  refine (callOn_out h _ _).trans ?_
  simp only [show inGroup (slotTaken s c ModeCmd.dormant.call) = false from hg, Bool.false_eq_true, if_false, hcmd]
  rfl

/-- In a group that has not formed a mode call is refused. -/
theorem modeCall_unformed {s : State} {c : CallReq} {m : ModeCmd} (hwf : s.dram.wf = true) (h : CallReady s c m.role) (hg : inGroup s = true)
    (hf : s.grp.formed = false) : Replies s s (modeCall s c m) c .refusedPolicy := by
  have hgroup : inGroup (slotTaken s c m.call) = true := hg
  have hshut : groupShut (slotTaken s c m.call) = true := by
    simp [groupShut, hgroup, show (slotTaken s c m.call).grp.formed = false from hf]
  refine callOn_replies h hwf ?_ (by decide) ?_ rfl rfl ⟨[], ?_⟩ <;> simp only [hgroup, if_true, groupCall, hshut] <;> rfl

/-- A slot that notes the frame with which its call went to the ACTIVE member. -/
def slotFramed (s : State) (x : CallSlot) : CallSlot := { x with frame := some (nextFrameId s (activePos s) 0) }

/-- A member that is not ACTIVE hands a group call to the ACTIVE member (R339). -/
theorem groupCall_of_passive {s : State} (slot : Nat) (a : TargetArg) (act : State → State × Status) (hf : s.grp.formed = true)
    (hrole : s.grp.role = .standby ∨ s.grp.role = .arbiter) :
    groupCall s slot a act = (sendPeer (modSlot s slot (slotFramed s)) (activePos s) (.target 0 a), .deferred, []) := by
  have hshut : groupShut s = false := by obtain hr | hr := hrole <;> simp [groupShut, hf, hr]
  have hactive : (s.grp.role == .active) = false := by obtain hr | hr := hrole <;> simp [hr]
  unfold groupCall
  simp only [hshut, hactive, Bool.false_eq_true, if_false]
  rfl

/-- A member of a formed group that is not ACTIVE defers a mode call (R339). -/
theorem modeCall_deferred {s : State} {c : CallReq} {m : ModeCmd} (h : CallReady s c m.role) (hg : inGroup s = true)
    (hf : s.grp.formed = true) (hrole : s.grp.role = .standby ∨ s.grp.role = .arbiter) :
    Answered (modeCall s c m) c .deferred ∧ (modeCall s c m).glb = s.glb ∧ (modeCall s c m).fab = s.fab ∧
      (modeCall s c m).cyc = s.cyc ∧ (modeCall s c m).pim = s.pim := by
  have hgroup : inGroup (slotTaken s c m.call) = true := hg
  obtain ⟨hlen, -⟩ := id h
  unfold modeCall
  rw [callOn_of_ready h]
  simp only [hgroup, if_true, groupCall_of_passive (s := slotTaken s c m.call) _ _ _ hf hrole, authCounted, reduceCtorEq, if_false]
  have hslot (x : CallSlot) : (slotFramed (slotTaken s c m.call) x).seq = x.seq ∧ (slotFramed (slotTaken s c m.call) x).session = x.session :=
    ⟨rfl, rfl⟩
  generalize slotFramed (slotTaken s c m.call) = f at hslot ⊢
  generalize hv : modSlot (slotTaken s c m.call) c.slot f = v
  have hsent := sendPeer_within v (activePos (slotTaken s c m.call)) (.target 0 (.mode m))
  generalize sendPeer v (activePos (slotTaken s c m.call)) (.target 0 (.mode m)) = w at hsent
  have hanswer := answer_within w c.slot .deferred (List.take c.respMax [])
  have hslots : w.tk.slots = modNth (slotTaken s c m.call).tk.slots c.slot f := by rw [hsent.tk_eq, ← hv]; rfl
  have hmine : nthD w.tk.slots c.slot {} = f (nthD (slotTaken s c m.call).tk.slots c.slot {}) := by
    rw [hslots]
    exact nthD_modNth_self _ _ _ _ ((modNth_length ..).symm ▸ hlen)
  have htaken : nthD (slotTaken s c m.call).tk.slots c.slot {} = _ := nthD_modNth_self _ _ _ _ hlen
  refine ⟨answered_of_slot _ ?_ ?_ ?_, ?_, ?_, ?_, ?_⟩
  · rw [hslots, modNth_length]
    exact (modNth_length ..).symm ▸ hlen
  · rw [hmine, (hslot _).1, htaken]
  · rw [hmine, (hslot _).2, htaken]
  · rw [hanswer.glb_eq, hsent.glb_eq, ← hv]; rfl
  · rw [hanswer.fab_eq, hsent.fab_eq, ← hv]; rfl
  · rw [hanswer.cyc_eq, hsent.cyc_eq, ← hv]; rfl
  · rw [hanswer.pim_eq, hsent.pim_eq, ← hv]; rfl

/-! ## Force calls (R198 to R203) -/

section
variable {s : State} (hstate : s.glb.state = .run ∨ s.glb.state = .stop ∨ s.glb.state = .hold) (hg : inGroup s = false)
include hg

theorem forceChange_standalone (slot : Nat) (cs : List ForceCmd) :
    forceChange s slot cs = (cs.foldl (fun s x => addForceCmd s { x with eff := forceBoundary s }) s, .ok, []) := by
  rw [forceChange, hg]
  rfl

theorem forceBoundary_standalone : forceBoundary s = boundaryAfter s 10000 := by
  rw [forceBoundary, hg]
  rfl

include hstate

theorem forceState_standalone : forceState s = true := by
  obtain h | h | h := hstate <;> simp [forceState, groupShut, h, hg]

end

/-- A force call whose own rule changes the forces to come and leaves a record replies OK. -/
theorem forceCall_done {s : State} {c : CallReq} {call : Nat} {k : State → CallRes} {g : Glb} {sev : Sev} {code : BitVec 16} {subj : Nat}
    {detail : List Byte} (h : CallReady s c .engineer) (hwf : s.dram.wf = true)
    (hk : k (slotTaken s c call) = (record { slotTaken s c call with glb := g } sev srcGlb code subj detail, .ok, [])) :
    (callOn s c call .engineer k).glb = g ∧ Records s (callOn s c call .engineer k) sev srcGlb code ∧
      Replies s { s with glb := (callOn s c call .engineer k).glb, evr := (callOn s c call .engineer k).evr }
        (callOn s c call .engineer k) c .ok := by
  have hrec := record_records { slotTaken s c call with glb := g } sev srcGlb code subj detail
  have hreplies : Replies s { s with glb := g, evr := (record { slotTaken s c call with glb := g } sev srcGlb code subj detail).evr }
      (callOn s c call .engineer k) c .ok :=
    callOn_replies h hwf (by rw [hk]) (by decide) (by rw [hk]; rfl) rfl rfl (by rw [hk]; exact ⟨[], rfl⟩)
  obtain ⟨-, -, -, -, heq⟩ := id hreplies
  have hglb : (callOn s c call .engineer k).glb = g := by rw [heq]
  have hevr : (callOn s c call .engineer k).evr = (record { slotTaken s c call with glb := g } sev srcGlb code subj detail).evr := by rw [heq]
  refine ⟨hglb, ?_, by rw [hglb, hevr]; exact hreplies⟩
  rw [Records, hevr]
  exact hrec

/-- A force call whose own rule has no effect replies with its status only. -/
theorem forceCall_keeps {s : State} {c : CallReq} {call : Nat} {k : State → CallRes} {st : Status} (h : CallReady s c .engineer)
    (hwf : s.dram.wf = true) (hk : k (slotTaken s c call) = (slotTaken s c call, st, [])) (hauth : st ≠ .authRequired) :
    Replies s s (callOn s c call .engineer k) c st :=
  callOn_replies h hwf (by rw [hk]) hauth (by rw [hk]; rfl) rfl rfl (by rw [hk]; exact ⟨[], rfl⟩)

section
variable {s : State}

/-- FORCE_SET of a SID that may be forced: the role of a safe one, then the capacity (R198, R200). -/
theorem forceStatus_allowed {r : SigRec} {sid : Sid} {x : Word} {code : BitVec 4} {role : Role} (hsig : sigRec s.ci.act sid = some r)
    (hallowed : r.forceAllowed = true) (hvoted : r.voted = false) (hrange : outOfRange r x = false)
    (hcode : code ∈ [qGood, qUninit, qStale, qCommLost, qSubst, qInvalid]) :
    forceStatus s role sid x code = if r.safe && role != .safetyEngineer then .authRequired
      else if !willBeForced s sid && decide (1024 ≤ heldForces s) then .refusedCapacity else .ok := by
  have hcodes : forceCodes.contains code = true := List.contains_iff_mem.2 hcode
  simp only [forceStatus, hsig, hallowed, hvoted, hrange, hcodes, Bool.not_true, Bool.or_self, Bool.false_eq_true, if_false]

theorem forceRec_eq {r : SigRec} {sid : Sid} (hsig : sigRec s.ci.act sid = some r) (call : Nat) (x : Word) (code : BitVec 4) (hd : BitVec 16) :
    forceRec s call sid x code hd = record s (if r.safe then .safety else .notice) srcGlb (cCommand call) sid.toNat
      (beBytes 8 x.toNat ++ [code.setWidth 8] ++ beBytes 16 (keyOf s hd).toNat) := by
  simp only [forceRec, hsig]

end

section
variable {s : State} {c : CallReq} (hwf : s.dram.wf = true) (h : CallReady s c .engineer) (hg : inGroup s = false)
  (hstate : s.glb.state = .run ∨ s.glb.state = .stop ∨ s.glb.state = .hold)
include hwf h hg hstate

/-- FORCE_SET of a SID that the image does not hold is refused (R198). -/
theorem forceSet_unknown {sid : Sid} (v : Word) (code : BitVec 4) (hsig : sigRec s.ci.act sid = none) :
    ∃ t, exec (.forceSet c sid v code) s = .next t ∧ Replies s s t c .refusedPolicy := by
  have hfs : forceState (slotTaken s c 0x20) = true := forceState_standalone hstate hg
  have hst (x : Word) : forceStatus (slotTaken s c 0x20) (roleOf (slotTaken s c 0x20) c.session) sid x code = .refusedPolicy := by
    rw [forceStatus, show sigRec (slotTaken s c 0x20).ci.act sid = none from hsig]
  exact ⟨_, rfl, forceCall_keeps h hwf (by simp only [hfs, Bool.not_true, Bool.false_eq_true, if_false, hst]) (by decide)⟩

omit hwf in
/-- FORCE_SET of a safe SID asks for the safety engineer (R200). -/
theorem forceSet_needs_role {sid : Sid} {v : Word} {code : BitVec 4} {r : SigRec} (hsig : sigRec s.ci.act sid = some r)
    (hallowed : r.forceAllowed = true) (hvoted : r.voted = false) (hrange : outOfRange r (rawOf r.t v) = false)
    (hcode : code ∈ [qGood, qUninit, qStale, qCommLost, qSubst, qInvalid]) (hsafe : r.safe = true)
    (hrole : roleOf s c.session ≠ .safetyEngineer) :
    ∃ t, exec (.forceSet c sid v code) s = .next t ∧ Answered t c .authRequired ∧ t.glb = s.glb := by
  have hfs : forceState (slotTaken s c 0x20) = true := forceState_standalone hstate hg
  have hsig1 : sigRec (slotTaken s c 0x20).ci.act sid = some r := hsig
  have hst : forceStatus (slotTaken s c 0x20) (roleOf (slotTaken s c 0x20) c.session) sid (rawOf r.t v) code = .authRequired := by
    rw [forceStatus_allowed hsig1 hallowed hvoted hrange hcode, hsafe]
    have hrole1 : (true && roleOf (slotTaken s c 0x20) c.session != .safetyEngineer) = true := by
      simpa using show roleOf (slotTaken s c 0x20) c.session ≠ .safetyEngineer from hrole
    exact if_pos hrole1
  obtain ⟨hlen, -⟩ := id h
  refine ⟨_, rfl, ?_⟩
  rw [callOn_of_ready h]
  simp only [hsig1, hfs, hst, Bool.not_true, Bool.false_eq_true, if_false, authCounted, if_true]
  have htaken : nthD (slotTaken s c 0x20).tk.slots c.slot {} = _ := nthD_modNth_self _ _ _ _ hlen
  refine ⟨answered_of_slot _ ?_ ?_ ?_, (answer_within ..).glb_eq⟩
  · exact (modNth_length ..).symm ▸ hlen
  · exact congrArg CallSlot.seq htaken
  · exact congrArg CallSlot.session htaken

/-- FORCE_SET of a SID that may be forced waits for its boundary and leaves its record (R198, R203). -/
theorem forceSet_done {sid : Sid} {v : Word} {code : BitVec 4} {r : SigRec} (hsig : sigRec s.ci.act sid = some r)
    (hallowed : r.forceAllowed = true) (hvoted : r.voted = false) (hrange : outOfRange r (rawOf r.t v) = false)
    (hcode : code ∈ [qGood, qUninit, qStale, qCommLost, qSubst, qInvalid]) (hsafe : r.safe = true → roleOf s c.session = .safetyEngineer)
    (hroom : willBeForced s sid = true ∨ heldForces s < 1024) :
    ∃ t, exec (.forceSet c sid v code) s = .next t ∧
      t.glb = { s.glb with forceCmds := (s.glb.forceCmds.filter (·.sid != sid)) ++ [⟨sid, some (rawOf r.t v, code), boundaryAfter s 10000⟩] } ∧
      Records s t (if r.safe then .safety else .notice) srcGlb (cCommand 0x20) ∧ Replies s { s with glb := t.glb, evr := t.evr } t c .ok := by
  have hfs : forceState (slotTaken s c 0x20) = true := forceState_standalone hstate hg
  have hsig1 : sigRec (slotTaken s c 0x20).ci.act sid = some r := hsig
  have hst : forceStatus (slotTaken s c 0x20) (roleOf (slotTaken s c 0x20) c.session) sid (rawOf r.t v) code = .ok := by
    rw [forceStatus_allowed hsig1 hallowed hvoted hrange hcode, if_neg, if_neg]
    · show ¬ (!willBeForced s sid && decide (1024 ≤ heldForces s)) = true
      obtain hw | hw := hroom <;> simp [hw]
    · show ¬ (r.safe && roleOf s c.session != .safetyEngineer) = true
      cases hs : r.safe
      · simp
      · simp [hsafe hs]
  refine ⟨_, rfl, forceCall_done (subj := sid.toNat)
    (detail := beBytes 8 (rawOf r.t v).toNat ++ [code.setWidth 8] ++ beBytes 16 (keyOf (slotTaken s c 0x20) c.session).toNat) h hwf ?_⟩
  simp only [hsig1, hfs, hst, Bool.not_true, Bool.false_eq_true, if_false, forceChange_standalone (s := slotTaken s c 0x20) hg, forceDone, true_or,
    if_true, List.foldl_cons, List.foldl_nil, forceBoundary_standalone (s := slotTaken s c 0x20) hg]
  rw [forceRec_eq (r := r) (by exact hsig)]
  rfl

/-- FORCE_CLEAR of a forced SID waits for its boundary and leaves its record (R199, R203). -/
theorem forceClear_done {sid : Sid} {r : SigRec} (hsig : sigRec s.ci.act sid = some r)
    (hsafe : r.safe = true → roleOf s c.session = .safetyEngineer) (hforced : willBeForced s sid = true) :
    ∃ t, exec (.forceClear c sid) s = .next t ∧
      t.glb = { s.glb with forceCmds := (s.glb.forceCmds.filter (·.sid != sid)) ++ [⟨sid, none, boundaryAfter s 10000⟩] } ∧
      Records s t (if r.safe then .safety else .notice) srcGlb (cCommand 0x21) ∧ Replies s { s with glb := t.glb, evr := t.evr } t c .ok := by
  have hfs : forceState (slotTaken s c 0x21) = true := forceState_standalone hstate hg
  have hsig1 : sigRec (slotTaken s c 0x21).ci.act sid = some r := hsig
  have hrole : (r.safe && roleOf (slotTaken s c 0x21) c.session != .safetyEngineer) = false := by
    cases hs : r.safe
    · rfl
    · simp [show roleOf (slotTaken s c 0x21) c.session = .safetyEngineer from hsafe hs]
  have hw : willBeForced (slotTaken s c 0x21) sid = true := hforced
  let f := forceNow (slotTaken s c 0x21) sid
  refine ⟨_, rfl, forceCall_done (subj := sid.toNat)
    (detail := beBytes 8 f.1.toNat ++ [f.2.setWidth 8] ++ beBytes 16 (keyOf (slotTaken s c 0x21) c.session).toNat) h hwf ?_⟩
  simp only [hsig1, hfs, hrole, hw, Bool.not_true, Bool.false_eq_true, if_false, forceChange_standalone (s := slotTaken s c 0x21) hg, forceDone,
    true_or, if_true, List.foldl_cons, List.foldl_nil, forceBoundary_standalone (s := slotTaken s c 0x21) hg]
  rw [forceRec_eq (r := r) (by exact hsig)]
  rfl

/-- FORCE_CLEAR of a SID that is not forced is OK without an effect. -/
theorem forceClear_unforced {sid : Sid} (hforced : willBeForced s sid = false) (hsafe : ∀ r, sigRec s.ci.act sid = some r → r.safe = false) :
    ∃ t, exec (.forceClear c sid) s = .next t ∧ Replies s s t c .ok := by
  have hfs : forceState (slotTaken s c 0x21) = true := forceState_standalone hstate hg
  have hw : willBeForced (slotTaken s c 0x21) sid = false := hforced
  refine ⟨_, rfl, forceCall_keeps h hwf ?_ (by decide)⟩
  cases hsig : sigRec s.ci.act sid with
  | none =>
    simp only [show sigRec (slotTaken s c 0x21).ci.act sid = none from hsig, hfs, hw, Bool.not_true, Bool.false_eq_true, if_false,
      Bool.false_and, Bool.not_false, if_true]
  | some r =>
    simp only [show sigRec (slotTaken s c 0x21).ci.act sid = some r from hsig, hsafe r hsig, hfs, hw, Bool.not_true, Bool.false_eq_true,
      if_false, Bool.false_and, Bool.not_false, if_true]

end

/-- The commands for one SID after one more command. -/
theorem addForceCmd_filter (s : State) (c : ForceCmd) (x : Sid) : (addForceCmd s c).glb.forceCmds.filter (fun d => d.sid == x) =
    if x = c.sid then [c] else s.glb.forceCmds.filter (fun d => d.sid == x) := by
  unfold addForceCmd
  dsimp only
  rw [List.filter_append, List.filter_filter]
  by_cases h : x = c.sid
  · subst h
    simp
  · have hkeep : (fun d : ForceCmd => d.sid == x && d.sid != c.sid) = (fun d => d.sid == x) := by
      funext d
      by_cases hd : d.sid = x
      · simp [hd, h]
      · simp [hd]
    rw [hkeep, if_neg h]
    simp [Ne.symm h]

/-- A command that clears a SID's force decides for that SID only. -/
theorem willBeForced_addForceCmd_clear (s : State) (sid x : Sid) (e : Mcc) :
    willBeForced (addForceCmd s ⟨sid, none, e⟩) x = if x = sid then false else willBeForced s x := by
  unfold willBeForced
  rw [addForceCmd_filter]
  by_cases h : x = sid
  · rw [if_pos h, if_pos h]
    rfl
  · rw [if_neg h, if_neg h]
    rfl

/-- The forces after commands that clear those of `go`. -/
def forcesCleared (s : State) (go : List Sid) : State :=
  (go.map (fun sid => (⟨sid, none, 0⟩ : ForceCmd))).foldl (fun s x => addForceCmd s { x with eff := forceBoundary s }) s

theorem forcesCleared_eq (s : State) (go : List Sid) :
    forcesCleared s go = { s with glb := { s.glb with forceCmds := (forcesCleared s go).glb.forceCmds } } := by
  induction go generalizing s with
  | nil => rfl
  | cons sid go ih =>
    have h := ih (addForceCmd s ⟨sid, none, forceBoundary s⟩)
    exact h

theorem willBeForced_forcesCleared (s : State) (go : List Sid) (x : Sid) :
    willBeForced (forcesCleared s go) x = if x ∈ go then false else willBeForced s x := by
  induction go generalizing s with
  | nil => rfl
  | cons sid go ih =>
    have h := ih (addForceCmd s ⟨sid, none, forceBoundary s⟩)
    rw [willBeForced_addForceCmd_clear] at h
    refine h.trans ?_
    by_cases hgo : x ∈ go
    · simp [hgo]
    · simp [hgo]

/-- A SID with a force to come is among those of the forces in force and the commands. -/
theorem mem_held_of_willBeForced {s : State} {x : Sid} (h : willBeForced s x = true) :
    x ∈ ((s.glb.forces.map (·.sid)) ++ (s.glb.forceCmds.map (·.sid))).eraseDups.filter (willBeForced s) := by
  refine List.mem_filter.2 ⟨List.mem_eraseDups.2 ?_, h⟩
  unfold willBeForced at h
  split at h
  next c hc =>
    have hmem := List.mem_filter.1 (List.mem_of_getLast? hc)
    exact List.mem_append_right _ (List.mem_map.2 ⟨c, hmem.1, by simpa using hmem.2⟩)
  next =>
    obtain ⟨f, hf⟩ := Option.isSome_iff_exists.1 h
    have hsid := List.find?_some hf
    exact List.mem_append_left _ (List.mem_map.2 ⟨f, List.mem_of_find?_eq_some hf, by simpa using hsid⟩)

/-- The forced SIDs of which the caller may clear the force (R199, R200). -/
def clearable (s : State) (c : CallReq) : List Sid :=
  (((s.glb.forces.map (·.sid)) ++ (s.glb.forceCmds.map (·.sid))).eraseDups.filter (willBeForced s)).filter (fun sid =>
    roleOf s c.session == .safetyEngineer || !(match sigRec s.ci.act sid with
      | some r => r.safe
      | none => false))

section
variable {s : State} {c : CallReq} (hwf : s.dram.wf = true)
include hwf

/-- A call that clears the forces that the caller may clear: those stay that only the safety engineer clears. -/
theorem forceClearAll_of_rule {k : State → CallRes} {detail : List Byte} (h : CallReady s c .engineer)
    (hk : k (slotTaken s c 0x22) = (record (forcesCleared (slotTaken s c 0x22) (clearable (slotTaken s c 0x22) c)) .notice srcGlb
      (cCommand 0x22) 0 detail, .ok, [])) :
    (callOn s c 0x22 .engineer k).glb = { s.glb with forceCmds := (callOn s c 0x22 .engineer k).glb.forceCmds } ∧
      Records s (callOn s c 0x22 .engineer k) .notice srcGlb (cCommand 0x22) ∧
      (roleOf s c.session = .safetyEngineer → ∀ x, willBeForced (callOn s c 0x22 .engineer k) x = false) ∧
      (∀ x r, sigRec s.ci.act x = some r → r.safe = true → roleOf s c.session ≠ .safetyEngineer →
        willBeForced (callOn s c 0x22 .engineer k) x = willBeForced s x) ∧
      Replies s { s with glb := (callOn s c 0x22 .engineer k).glb, evr := (callOn s c 0x22 .engineer k).evr }
        (callOn s c 0x22 .engineer k) c .ok := by
  rw [forcesCleared_eq] at hk
  obtain ⟨hglb, hrec, hreplies⟩ := forceCall_done h hwf hk
  generalize callOn s c 0x22 .engineer k = t at hglb hrec hreplies ⊢
  have hforced (x : Sid) : willBeForced t x = if x ∈ clearable s c then false else willBeForced s x := by
    refine Eq.trans ?_ (willBeForced_forcesCleared (slotTaken s c 0x22) (clearable (slotTaken s c 0x22) c) x)
    rw [forcesCleared_eq]
    unfold willBeForced forceOf
    rw [hglb]
  refine ⟨by rw [hglb]; rfl, hrec, ?_, ?_, hreplies⟩
  · intro hrole x
    rw [hforced]
    split
    · rfl
    next hx =>
      by_contra hw
      exact hx (List.mem_filter.2 ⟨mem_held_of_willBeForced (by simpa using hw), by simp [hrole]⟩)
  · intro x r hsig hsafe hrole
    rw [hforced, if_neg]
    intro hx
    have hmay := (List.mem_filter.1 hx).2
    rw [hsig] at hmay
    simp [hsafe, hrole] at hmay

/-- FORCE_CLEAR_ALL clears every force that the caller may clear and leaves its record (R199, R203). -/
theorem forceClearAll_done (h : CallReady s c .engineer) (hg : inGroup s = false)
    (hstate : s.glb.state = .run ∨ s.glb.state = .stop ∨ s.glb.state = .hold) :
    ∃ t, exec (.forceClearAll c) s = .next t ∧ t.glb = { s.glb with forceCmds := t.glb.forceCmds } ∧
      Records s t .notice srcGlb (cCommand 0x22) ∧
      (roleOf s c.session = .safetyEngineer → ∀ x, willBeForced t x = false) ∧
      (∀ x r, sigRec s.ci.act x = some r → r.safe = true → roleOf s c.session ≠ .safetyEngineer → willBeForced t x = willBeForced s x) ∧
      Replies s { s with glb := t.glb, evr := t.evr } t c .ok := by
  have hfs : forceState (slotTaken s c 0x22) = true := forceState_standalone hstate hg
  refine ⟨_, rfl, forceClearAll_of_rule hwf h (detail := ?_) ?_⟩
  rotate_left
  · simp only [hfs, Bool.not_true, Bool.false_eq_true, if_false, forceChange_standalone (s := slotTaken s c 0x22) hg, forceDone, true_or, if_true]
    rfl

end

/-! ## FORCE_LIST, and the mode and force calls together (R198, R205) -/

theorem Mem.readList_add (m : Mem) (a n k : Nat) : m.readList a (n + k) = m.readList a n ++ m.readList (a + n) k := by
  induction n generalizing a with
  | zero => simp [Mem.readList]
  | succ n ih =>
    rw [Nat.succ_add]
    simp only [Mem.readList, ih, List.cons_append, Nat.add_assoc, Nat.add_comm 1 n]

/-- A part of a list written is read where it stands. -/
theorem Mem.readList_writeList_part {m : Mem} (w : m.wf = true) (a : Nat) (p q r : List Byte) :
    (m.writeList a (p ++ (q ++ r))).readList (a + p.length) q.length = q := by
  have h := Mem.readList_writeList w a (p ++ (q ++ r))
  rw [List.length_append, List.length_append, Mem.readList_add, Mem.readList_add] at h
  have hqr := (List.append_inj h (Mem.readList_length ..)).2
  exact (List.append_inj hqr (Mem.readList_length ..)).1

/-- The response data of an answer, as far as it goes (R420). -/
theorem answer_data {s : State} {n : Nat} {st : Status} {p r : List Byte} (hwf : s.dram.wf = true)
    (hin : inDram (nthD s.tk.slots n {}).addr (32 + (p ++ r).length) = true) :
    (answer s n st (p ++ r)).dram.readList ((nthD s.tk.slots n {}).addr.toNat + 32) p.length = p := by
  have hdram : (answer s n st (p ++ r)).dram =
      s.dram.writeList (nthD s.tk.slots n {}).addr.toNat (respBytes st (nthD s.tk.slots n {}).seq (p ++ r)) :=
    (dramWrite_dram (modSlot s n (slotAnswered st)) _ _ (by rw [respBytes_length]; exact hin)).1
  obtain ⟨head, hlen, hparts⟩ : ∃ head, head.length = 32 ∧ respBytes st (nthD s.tk.slots n {}).seq (p ++ r) = head ++ (p ++ r) :=
    ⟨[st.code, 0, 0, 0] ++ leBytes 4 (nthD s.tk.slots n {}).seq.toNat ++ leBytes 4 (p ++ r).length ++ List.replicate 20 0,
      by simp only [List.length_append, leBytes_length, List.length_cons, List.length_nil, List.length_replicate], rfl⟩
  have hread := Mem.readList_writeList_part hwf (nthD s.tk.slots n {}).addr.toNat head p r
  rw [hlen] at hread
  rwa [hdram, hparts]

theorem inDram_mono {a : Word} {n k : Nat} (h : inDram a n = true) (hk : k ≤ n) : inDram a k = true := by
  simp only [inDram, Bool.and_eq_true, decide_eq_true_eq] at h ⊢
  omega

/-- The data of a call's response, as far as the caller's buffer holds it (R420). -/
theorem callOn_data {s : State} {c : CallReq} {need : Role} {call : Nat} {k : State → CallRes} {st : Status} {p : List Byte}
    (hwf : s.dram.wf = true) (h : CallReady s c need) (hin : inDram (nthD s.tk.slots c.slot {}).addr (32 + c.respMax) = true)
    (hp : p.length ≤ c.respMax) (hk : ∃ r, k (slotTaken s c call) = (slotTaken s c call, st, p ++ r)) (hst : st ≠ .authRequired) :
    respData s (callOn s c call need k) c p.length = p := by
  obtain ⟨hlen, -⟩ := id h
  obtain ⟨r, hk⟩ := hk
  have htake : (p ++ r).take c.respMax = p ++ r.take (c.respMax - p.length) := by
    rw [List.take_append, List.take_of_length_le hp]
  have haddr : (nthD (slotTaken s c call).tk.slots c.slot {}).addr = (nthD s.tk.slots c.slot {}).addr :=
    (congrArg CallSlot.addr (nthD_modNth_self s.tk.slots c.slot _ {} hlen)).trans rfl
  rw [callOn_of_ready h, hk, authCounted, if_neg hst, htake, respData, ← haddr]
  refine answer_data hwf ?_
  rw [haddr]
  refine inDram_mono hin ?_
  rw [List.length_append, List.length_take]
  omega

/-- FORCE_LIST lists the forces, each with its SID and value first (R205). -/
theorem forceList_lists {s : State} {c : CallReq} (hwf : s.dram.wf = true) (h : CallReady s c .viewer)
    (hin : inDram (nthD s.tk.slots c.slot {}).addr (32 + c.respMax) = true) (hroom : 24 ≤ c.respMax) :
    ∃ t, exec (.forceList c) s = .next t ∧ Replies s s t c .ok ∧
      (∀ f fs, s.glb.forces = f :: fs → respData s t c 12 = leBytes 4 f.sid.toNat ++ leBytes 8 f.val.toNat) := by
  refine ⟨_, rfl, callOn_replies h hwf rfl (by decide) rfl rfl rfl ⟨[], rfl⟩, ?_⟩
  intro f fs hf
  have hlen : (leBytes 4 f.sid.toNat ++ leBytes 8 f.val.toNat).length = 12 := by rw [List.length_append, leBytes_length, leBytes_length]
  rw [← hlen]
  refine callOn_data (st := .ok) hwf h hin ?_ ?_ (by decide)
  · rw [hlen]
    omega
  · simp only [show (slotTaken s c 0x05).glb.forces = f :: fs from hf, List.flatMap_cons, List.append_assoc]
    exact ⟨_, rfl⟩

/-- A mode command of a standalone module in each state of R185. -/
theorem modeCalls_standalone {s : State} {c : CallReq} (hwf : s.dram.wf = true) (h : CallReady s c .maintainer) (hg : inGroup s = false) :
    (s.glb.state = .stop →
      (s.glb.pendCmd ≠ some .startWarm → ∃ t, exec (.startWarm c) s = .next t ∧ Replies s (Pends s .startWarm 1000000) t c .ok) ∧
      (s.glb.pendCmd ≠ some .startCold → ∃ t, exec (.startCold c) s = .next t ∧ Replies s (Pends s .startCold 1000000) t c .ok) ∧
      (s.glb.pendCmd ≠ some .dormant → s.pin.vstbyLow = false → s.upd.act = none → s.upd.waiting = [] →
        ∃ t, exec (.dormantEnter c) s = .next t ∧ t.rst.dormantPending = true ∧ t.rst.dormantMcc = boundaryAfter s 1000000000 ∧
          Replies s { Pends s .dormant 1000000000 with rst := t.rst } t c .ok ∧ .irqDormant (boundaryAfter s 1000000000) ∈ newOut s t) ∧
      (s.glb.pendCmd ≠ some .dormant → s.pin.vstbyLow = true ∨ s.upd.act ≠ none → ∃ t, exec (.dormantEnter c) s = .next t ∧
        Replies s s t c .refusedPolicy) ∧
      (s.glb.pendCmd = none → ∃ t, exec (.stop c) s = .next t ∧ Replies s s t c .ok)) ∧
    (s.glb.state = .run ∨ s.glb.state = .hold →
      (s.glb.pendCmd ≠ some .stop → ∃ t, exec (.stop c) s = .next t ∧ Replies s (Pends s .stop 10000) t c .ok) ∧
      (s.glb.pendCmd ≠ some .dormant → ∃ t, exec (.dormantEnter c) s = .next t ∧ Replies s s t c .refusedPolicy)) ∧
    (s.glb.state = .hold → s.glb.pendCmd = none → ∃ t, exec (.startWarm c) s = .next t ∧ Replies s s t c .refusedPolicy) := by
  have hglb (call : Nat) : (slotTaken s c call).glb = s.glb := rfl
  refine ⟨fun hs => ⟨fun hp => ⟨_, rfl, modeCall_pends hwf hg h (by decide) hp ?_ ?_ (by simp) rfl⟩,
    fun hp => ⟨_, rfl, modeCall_pends hwf hg h (by decide) hp ?_ ?_ (by simp) rfl⟩,
    fun hp hlow hact hwait => ⟨_, rfl, dormantCall_pends hwf hg h hp ?_⟩,
    fun hp hno => ⟨_, rfl, modeCall_refuses hwf hg h hp rfl ?_⟩,
    fun hp => ⟨_, rfl, modeCall_repeats hwf hg h (.inr ?_)⟩⟩,
    fun hs => ⟨fun hp => ⟨_, rfl, modeCall_pends hwf hg h (by decide) hp ?_ ?_ (by simp) ?_⟩,
      fun hp => ⟨_, rfl, modeCall_refuses hwf hg h hp rfl ?_⟩⟩,
    fun hs hp => ⟨_, rfl, modeCall_refuses hwf hg h (by simp [hp]) ?_ ?_⟩⟩
  · simp [alreadyIn, hglb, hs]
  · simp [acceptedIn, hglb, hs]
  · simp [alreadyIn, hglb, hs]
  · simp [acceptedIn, hglb, hs]
  · simp [dormantOk, hs, hlow, hact, hwait, hg]
  · show dormantOk s = false
    obtain hlow | hact := hno
    · simp [dormantOk, hlow]
    · simp [dormantOk, Option.isNone_eq_false_iff.2 (Option.isSome_iff_ne_none.2 hact)]
  · simp [alreadyIn, hglb, hs, hp]
  · obtain hs | hs := hs <;> simp [alreadyIn, hglb, hs]
  · obtain hs | hs := hs <;> simp [acceptedIn, hglb, hs]
  · simp [leadNs, show inGroup (slotTaken s c ModeCmd.stop.call) = false from hg]
  · show dormantOk s = false
    obtain hs | hs := hs <;> simp [dormantOk, hs]
  · simp [alreadyIn, hglb, hs]
  · simp [acceptedIn, hglb, hs]

/-- The mode commands of an engineer in each state of R185 to R189. -/
theorem stepCalls_standalone {s : State} {c : CallReq} (hwf : s.dram.wf = true) (h : CallReady s c .engineer) (hg : inGroup s = false) :
    (∀ m, s.glb.pendCmd = some m → ∃ t, exec (match m with
      | .startWarm => .startWarm c | .startCold => .startCold c | .stop => .stop c | .hold => .hold c | .cont => .continue c
      | .step n => .step c n | .dormant => .dormantEnter c) s = .next t ∧ Replies s s t c .ok) ∧
    (s.glb.state = .run → s.glb.pendCmd ≠ some .hold → ∃ t, exec (.hold c) s = .next t ∧ Replies s (Pends s .hold 10000) t c .ok) ∧
    (s.glb.state = .hold → s.glb.pendCmd ≠ some .cont → ∃ t, exec (.continue c) s = .next t ∧ Replies s (Pends s .cont 10000) t c .ok) ∧
    (∀ n, s.glb.state = .hold → s.glb.pendCmd ≠ some (.step n) → 1 ≤ n → n ≤ 1024 →
      (s.glb.holdDrained = true → s.glb.stepping = false → ∃ t, exec (.step c n) s = .next t ∧
        Replies s (Pends s (.step n) 10000) t c .ok) ∧
      (s.glb.stepping = true → ∃ t, exec (.step c n) s = .next t ∧ Replies s s t c .retry)) ∧
    (∀ n, s.glb.state = .hold → s.glb.pendCmd ≠ some (.step n) → n = 0 ∨ 1024 < n → ∃ t, exec (.step c n) s = .next t ∧
      Replies s s t c .refusedPolicy) := by
  have hglb (call : Nat) : (slotTaken s c call).glb = s.glb := rfl
  have hlead (call : Nat) : inGroup (slotTaken s c call) = false := hg
  have hlow : CallReady s c .maintainer := callReady_mono h (by decide)
  refine ⟨fun m hp => ?_, fun hs hp => ⟨_, rfl, modeCall_pends hwf hg h (by decide) hp ?_ ?_ (by simp) ?_⟩,
    fun hs hp => ⟨_, rfl, modeCall_pends hwf hg h (by decide) hp ?_ ?_ (by simp) ?_⟩,
    fun n hs hp h1 h2 => ⟨fun hd hst => ⟨_, rfl, modeCall_pends hwf hg h (by simp) hp rfl ?_ (fun _ _ => hst) ?_⟩,
      fun hst => ⟨_, rfl, modeCall_keeps hwf hg h (modeCommand_step_again (s := slotTaken s c _) hg hp ?_ hst) (by decide)⟩⟩,
    fun n hs hp hn => ⟨_, rfl, modeCall_refuses hwf hg h hp rfl ?_⟩⟩
  · cases m with
    | startWarm | startCold | stop | dormant => exact ⟨_, rfl, modeCall_repeats hwf hg hlow (.inl hp)⟩
    | hold | cont | step n => exact ⟨_, rfl, modeCall_repeats hwf hg h (.inl hp)⟩
  · simp [alreadyIn, hglb, hs]
  · simp [acceptedIn, hglb, hlead, hs]
  · simp [leadNs, hlead]
  · simp [alreadyIn, hglb, hs]
  · simp [acceptedIn, hglb, hs]
  · simp [leadNs, hlead]
  · simp [acceptedIn, hglb, hs, hd, h1, h2]
  · simp [leadNs, hlead]
  · simp [acceptedIn, hglb, hs, hst, h1, h2]
  · obtain rfl | hn := hn
    · simp [acceptedIn]
    · simp [acceptedIn, Nat.not_le.2 hn]

/-- Settles O52: the mode commands in their states, the force calls with their records, and the calls that a member hands over. -/
theorem modeCalls : Obligations.ModeCalls := by
  intro s c hwf
  refine ⟨fun h hg => modeCalls_standalone hwf h hg, fun h hg => stepCalls_standalone hwf h hg,
    fun h hg hf => ⟨_, rfl, modeCall_unformed hwf h hg hf⟩,
    fun h hg hf hrole => ⟨⟨_, rfl, modeCall_deferred h hg hf hrole⟩, ⟨_, rfl, modeCall_deferred h hg hf hrole⟩⟩,
    fun h hg hstate => ?_, fun h hin hroom => forceList_lists hwf h hin hroom⟩
  have hstate : s.glb.state = .run ∨ s.glb.state = .stop ∨ s.glb.state = .hold := hstate
  refine ⟨fun sid v code r hsig ha hv hr hc => ⟨fun hsafe hrole => forceSet_needs_role h hg hstate hsig ha hv hr hc hsafe hrole,
      fun hsafe hroom => forceSet_done hwf h hg hstate hsig ha hv hr hc hsafe hroom⟩,
    fun sid v code hsig => forceSet_unknown hwf h hg hstate v code hsig,
    fun sid r hsig hsafe hw => forceClear_done hwf h hg hstate hsig hsafe hw,
    fun sid hw hsafe => forceClear_unforced hwf h hg hstate hw hsafe, forceClearAll_done hwf h hg hstate⟩

/-! ## Update sessions and slots (R421 to R432) -/

theorem ImgType.idx_lt (t : ImgType) : t.idx < 5 := by cases t <;> decide

theorem ImgType.idx_ne {k t : ImgType} (h : k ≠ t) : k.idx ≠ t.idx := by
  revert h
  cases k <;> cases t <;> decide

theorem updSession_setSession_self {s : State} (hl : s.upd.sessions.length = 5) (t : ImgType) (x : Option UpdSession) :
    updSession (setSession s t x) t = x :=
  nthD_setNth_self _ _ _ (hl ▸ t.idx_lt)

theorem updSession_setSession_ne (s : State) {k t : ImgType} (x : Option UpdSession) (h : k ≠ t) :
    updSession (setSession s t x) k = updSession s k :=
  nthD_setNth_ne _ _ _ (ImgType.idx_ne h)

theorem otherSlot_modOther {s : State} (hl : s.upd.slots.length = 5) (t : ImgType) (f : UpdSlot → UpdSlot) :
    otherSlot (modOther s t f) t = f (otherSlot s t) := by
  have hslot : nthD (modOther s t f).upd.slots t.idx ({}, {}) = _ := nthD_modNth_self s.upd.slots t.idx _ _ (hl ▸ t.idx_lt)
  have hent : entOf (modOther s t f) t = entOf s t := rfl
  unfold otherSlot updSlot
  rw [hslot, hent]
  cases (entOf s t).slotB <;> rfl

theorem activeSlot_modOther {s : State} (hl : s.upd.slots.length = 5) (t : ImgType) (f : UpdSlot → UpdSlot) :
    activeSlot (modOther s t f) t = activeSlot s t := by
  have hslot : nthD (modOther s t f).upd.slots t.idx ({}, {}) = _ := nthD_modNth_self s.upd.slots t.idx _ _ (hl ▸ t.idx_lt)
  have hent : entOf (modOther s t f) t = entOf s t := rfl
  unfold activeSlot updSlot
  rw [hslot, hent]
  cases (entOf s t).slotB <;> rfl

theorem updSession_congr {u v : State} (h : u.upd.sessions = v.upd.sessions) (t : ImgType) : updSession u t = updSession v t := by
  unfold updSession
  rw [h]

theorem otherSlot_congr {u v : State} (h : u.upd.slots = v.upd.slots) (hc : u.cul = v.cul) (t : ImgType) : otherSlot u t = otherSlot v t := by
  unfold otherSlot updSlot entOf
  rw [h, hc]

theorem activeSlot_congr {u v : State} (h : u.upd.slots = v.upd.slots) (hc : u.cul = v.cul) (t : ImgType) : activeSlot u t = activeSlot v t := by
  unfold activeSlot updSlot entOf
  rw [h, hc]

/-- A slot whose session ends. -/
def slotEnds (st : SlotSt) (o : UpdSlot) : UpdSlot :=
  { o with st, manifest := if st = .empty then none else o.manifest, blocks := if st = .empty then [] else o.blocks }

/-- A session that ends leaves its slot in the state named, and a record of it (R430). -/
theorem endUpdSession_ends {s : State} (hs : s.upd.slots.length = 5) (hl : s.upd.sessions.length = 5) (t : ImgType) (st : SlotSt) (sev : Sev) :
    updSession (endUpdSession s t st sev) t = none ∧ otherSlot (endUpdSession s t st sev) t = slotEnds st (otherSlot s t) ∧
      activeSlot (endUpdSession s t st sev) t = activeSlot s t ∧ Records s (endUpdSession s t st sev) sev srcUpd (cState st.num) ∧
      (∀ k, k ≠ t → updSession (endUpdSession s t st sev) k = updSession s k) ∧
      endUpdSession s t st sev = { s with upd := (endUpdSession s t st sev).upd, evr := (endUpdSession s t st sev).evr } := by
  refine ⟨updSession_setSession_self hl t none, ?_, ?_, record_records (modOther (setSession s t none) t (slotEnds st)) _ _ _ _ _,
    fun _ hk => updSession_setSession_ne s none hk, rfl⟩
  · exact otherSlot_modOther (s := setSession s t none) hs t (slotEnds st)
  · exact activeSlot_modOther (s := setSession s t none) hs t (slotEnds st)

theorem updAnswer_eq (s : State) {st : Status} (hb : st ≠ .busyOtherImage) (hf : st ≠ .versionFloor) :
    updAnswer s st = { s with upd := { s.upd with lastStatus := st.code } } := by
  rw [updAnswer, if_neg hb, if_neg hf]

/-! ## What the update chain sends (R425) -/

theorem chainReply_eq (s : State) (src : ChainSrc) (m : ChainMsg) : chainReply s src m = { s with out := (chainReply s src m).out } := by
  unfold chainReply
  split <;> rfl

theorem toNeighbours_eq (s : State) (m : ChainMsg) : toNeighbours s m = { s with out := (toNeighbours s m).out } := by
  have hfold (l : List (Ip4 × Nat)) (u : State) :
      l.foldl (fun s (ip, mask) => { s with out := .chainOut (.ecn ip) mask m :: s.out }) u =
        { u with out := (l.foldl (fun s (ip, mask) => { s with out := .chainOut (.ecn ip) mask m :: s.out }) u).out } := by
    induction l generalizing u with
    | nil => rfl
    | cons x l ih => exact ih { u with out := .chainOut (.ecn x.1) x.2 m :: u.out }
  unfold toNeighbours
  split
  · exact hfold _ s
  · rfl

theorem passTag_eq (s : State) : passTag s = { tagged 1 s with pmu := (passTag s).pmu } := by
  unfold passTag
  rw [pmuCount_eq (by decide)]
  rfl

/-! ## Manifests (R422, R425, R426) -/

/-- The state in which a manifest that passed its form is judged: passed on to the neighbours. -/
def manifestSeen (s : State) (m : Manifest) : State :=
  toNeighbours { s with upd := { s.upd with fwdPkgs := (m :: s.upd.fwdPkgs.filter (fun x => !samePkg x m)).take 64 } } (.manifest (hdrOf m) m)

theorem manifestSeen_eq (s : State) (m : Manifest) : manifestSeen s m =
    { s with upd := { s.upd with fwdPkgs := (manifestSeen s m).upd.fwdPkgs }, out := (manifestSeen s m).out } := by
  unfold manifestSeen
  rw [toNeighbours_eq]

theorem exec_manifest_running {s : State} (hrun : s.tk.running = true) (src : ChainSrc) (h : ChainHdr) (m : Manifest) :
    exec (.manifest src h m) s = .next (chainReply (takeManifest s src h m).1 src
      (.manifestReply { hdrOf m with status := (takeManifest s src h m).2 }
        (entsFor (takeManifest s src h m).1 m.typeCode (takeManifest s src h m).2))) := by
  refine congrArg Host.Outcome.next (if_neg ?_)
  simp [hrun]

/-- A manifest of good form is judged by what its type allows (R426). -/
theorem takeManifest_of_form {s : State} {src : ChainSrc} {h : ChainHdr} {m : Manifest} {t : ImgType} {st : Status} {new : Bool}
    (hform : manifestForm s h m = .ok) (ht : imgTypeOf m.typeCode = some t) (hfits : manifestFits s t m = (st, new)) :
    takeManifest s src h m =
      (if new then openSession (updAnswer (manifestRecord (manifestSeen s m) m st) st) t src m
        else updAnswer (manifestRecord (manifestSeen s m) m st) st, st) := by
  have hseen : manifestFits (manifestSeen s m) t m = (st, new) := by
    rw [← hfits, manifestSeen_eq]
    rfl
  unfold takeManifest
  simp only [hform, ht, ne_eq, not_true, if_false]
  unfold manifestSeen at hseen ⊢
  rw [hseen]

/-! ## Downloads: manifests (R422 to R426) -/

/-- A new session: its slot is PARTIAL and holds the manifest (R425). -/
theorem openSession_new {v : State} {t : ImgType} (src : ChainSrc) (m : Manifest) (hs : v.upd.slots.length = 5) (hl : v.upd.sessions.length = 5)
    (hnone : updSession v t = none) :
    updSession (openSession v t src m) t = some { manifest := m, owner := src, lastUse := v.cul.optime.toNat } ∧
      otherSlot (openSession v t src m) t = { otherSlot v t with st := .partly, manifest := some m, blocks := [] } ∧
      activeSlot (openSession v t src m) t = activeSlot v t ∧ (∀ k, k ≠ t → updSession (openSession v t src m) k = updSession v k) ∧
      (openSession v t src m).upd.lastStatus = v.upd.lastStatus ∧ openSession v t src m = { v with upd := (openSession v t src m).upd } := by
  let f (o : UpdSlot) : UpdSlot := { o with st := .partly, manifest := some m, blocks := [] }
  let x : UpdSession := { manifest := m, owner := src, lastUse := v.cul.optime.toNat }
  have hopen : openSession v t src m = setHave (setSession (modOther v t f) t (some x)) t x := by
    simp only [openSession, hnone]
    rfl
  rw [hopen]
  exact ⟨updSession_setSession_self (s := modOther v t f) hl t (some x), otherSlot_modOther hs t f, activeSlot_modOther hs t f,
    fun _ hk => updSession_setSession_ne (modOther v t f) (some x) hk, rfl, rfl⟩

section
variable {s : State} {src : ChainSrc} {h : ChainHdr} {m : Manifest} {t : ImgType} (hrun : s.tk.running = true)
include hrun

/-- An acceptable manifest opens the session of its type (R425, R426). -/
theorem manifest_opens (hs : s.upd.slots.length = 5) (hl : s.upd.sessions.length = 5) (ht : imgTypeOf m.typeCode = some t)
    (hform : manifestForm s h m = .ok) (hfloor : (entOf s t).floor ≤ m.version) (hdelta : m.delta = false) (hstate : (entOf s t).state ≠ 1)
    (hact : activating s t = false) (hnone : updSession s t = none) (hempty : (otherSlot s t).st = .empty)
    (hnew : (activeSlot s t).img.version ≠ m.version ∨ (activeSlot s t).img.hash ≠ m.targetHash) (hlen : m.targetLen ≤ t.size)
    (hpkg : m.pkgLen ≤ t.size) :
    ∃ u, exec (.manifest src h m) s = .next u ∧ updSession u t = some { manifest := m, owner := src, lastUse := s.cul.optime.toNat } ∧
      (otherSlot u t).st = .partly ∧ (otherSlot u t).manifest = some m ∧ u.upd.lastStatus = Status.ok.code ∧ activeSlot u t = activeSlot s t ∧
      (∀ k, k ≠ t → updSession u k = updSession s k) ∧ u = { s with upd := u.upd, out := u.out } := by
  have hfits : manifestFits s t m = (.ok, true) := by
    have hsame : ((activeSlot s t).img.version == m.version && (activeSlot s t).img.hash == m.targetHash) = false := by
      obtain hv | hv := hnew <;> simp [hv]
    simp [manifestFits, hfloor, hdelta, hstate, hact, hnone, hsame, hempty, Nat.not_lt.2 hlen, Nat.not_lt.2 hpkg]
  have hv := manifestSeen_eq s m
  have hvl : (updAnswer (manifestSeen s m) .ok).upd.sessions = s.upd.sessions := by rw [hv]; rfl
  have hvs : (updAnswer (manifestSeen s m) .ok).upd.slots = s.upd.slots := by rw [hv]; rfl
  have hvc : (updAnswer (manifestSeen s m) .ok).cul = s.cul := by rw [hv]; rfl
  obtain ⟨hses, hother, hactive, hrest, hlast, heq⟩ := openSession_new (v := updAnswer (manifestSeen s m) .ok) src m (hvs ▸ hs) (hvl ▸ hl)
    ((updSession_congr hvl t).trans hnone)
  have htake : takeManifest s src h m = (openSession (updAnswer (manifestSeen s m) .ok) t src m, .ok) := takeManifest_of_form hform ht hfits
  refine ⟨_, exec_manifest_running hrun src h m, ?_⟩
  rw [chainReply_eq, htake]
  generalize openSession (updAnswer (manifestSeen s m) .ok) t src m = w at *
  refine ⟨hses.trans (by rw [hvc]), congrArg UpdSlot.st hother, congrArg UpdSlot.manifest hother, hlast, hactive.trans (activeSlot_congr hvs hvc t),
    fun k hk => (hrest k hk).trans (updSession_congr hvl k), ?_⟩
  rw [heq, hv]
  rfl

/-- A manifest below the floor is refused (R426, R439). -/
theorem manifest_below_floor (ht : imgTypeOf m.typeCode = some t) (hform : manifestForm s h m = .ok) (hfloor : m.version < (entOf s t).floor) :
    ∃ u, exec (.manifest src h m) s = .next u ∧ u.upd.slots = s.upd.slots ∧ u.upd.sessions = s.upd.sessions ∧
      u.upd.lastStatus = Status.versionFloor.code ∧ Records s u .warning srcUpd (cRefused .versionFloor) ∧
      u = { s with upd := u.upd, evr := u.evr, out := u.out } := by
  have hfits : manifestFits s t m = (.versionFloor, false) := by simp [manifestFits, hfloor]
  have htake := takeManifest_of_form (src := src) hform ht hfits
  refine ⟨_, exec_manifest_running hrun src h m, ?_⟩
  rw [chainReply_eq, htake, manifestSeen_eq]
  exact ⟨rfl, rfl, rfl, record_records _ _ _ _ _ _, rfl⟩

/-- A manifest of bad form is refused (R422). -/
theorem manifest_bad_form (hform : m.formOk = false) :
    ∃ u, exec (.manifest src h m) s = .next u ∧ u.upd.slots = s.upd.slots ∧ u.upd.sessions = s.upd.sessions ∧
      u.upd.lastStatus = Status.checkFailed.code ∧ Records s u .warning srcUpd (cRefused .checkFailed) ∧
      u = { s with upd := u.upd, evr := u.evr, out := u.out } := by
  have hbad : manifestForm s h m = .checkFailed := by simp [manifestForm, hform]
  have htake : takeManifest s src h m = (updAnswer (manifestRecord s m .checkFailed) .checkFailed, .checkFailed) := by
    simp only [takeManifest, hbad, ne_eq, reduceCtorEq, not_false_eq_true, if_true]
  refine ⟨_, exec_manifest_running hrun src h m, ?_⟩
  rw [chainReply_eq, htake]
  exact ⟨rfl, rfl, rfl, record_records _ _ _ _ _ _, rfl⟩

end

/-! ## Downloads: segments and blocks (R427, R428) -/

theorem passTag_upd (s : State) : (passTag s).upd = s.upd := by rw [passTag_eq]; rfl

theorem passTag_cul (s : State) : (passTag s).cul = s.cul := by rw [passTag_eq]; rfl

theorem revokedSession_passTag (s : State) (t : ImgType) : revokedSession (passTag s) t = revokedSession s t := by rw [passTag_eq]; rfl

theorem slotRevoked_passTag (s : State) (t : ImgType) (h : ChainHdr) : slotRevoked (passTag s) t h = slotRevoked s t h := by rw [passTag_eq]; rfl

theorem neighbours_passTag (s : State) : neighbours (passTag s) = neighbours s := by rw [passTag_eq]; rfl

section
variable {s : State} {h : ChainHdr} {e : SegEnt} {t : ImgType} {x : UpdSession}

/-- A segment of the package that its type's session downloads goes to that session (R427). -/
theorem takeSegment_of_session (ht : imgTypeOf h.typeCode = some t) (hform : h.formOk = true) (hx : updSession s t = some x)
    (hrev : revokedSession s t = false) (hslot : slotRevoked s t h = false) (hver : x.manifest.version = h.version)
    (htgt : x.manifest.targetHash = h.target) (hpart : (otherSlot s t).st = .partly) :
    takeSegment s h e = sessionSegment (passTag s) t x e := by
  have hend : endIfRevoked (passTag s) t = passTag s := by
    rw [endIfRevoked, revokedSession_passTag, hrev]
    rfl
  have hx1 : updSession (passTag s) t = some x := (updSession_congr (by rw [passTag_upd]) t).trans hx
  have hother : otherSlot (passTag s) t = otherSlot s t := otherSlot_congr (by rw [passTag_upd]) (passTag_cul s) t
  unfold takeSegment
  simp only [hform, if_true, ht, hend, slotRevoked_passTag, hslot, Bool.false_eq_true, if_false, hx1, hver, htgt, hother, hpart, and_self]

end

section
variable {s : State} {e : SegEnt} {x : UpdSession} (t : ImgType) (hres : x.resumed = false) (hgot : e.block ∉ x.got)
  (hblk : e.block < x.manifest.blockCount) (hseg : e.seg < 4) (hnew : ∀ y ∈ x.segs, ¬ (y.block = e.block ∧ y.seg = e.seg))
include hres hgot hblk hseg hnew

/-- A new segment joins the session's segments (R427). -/
theorem sessionSegment_incomplete (hall : allSegs (x.segs ++ [e]) e.block = false) :
    sessionSegment s t x e = setSession s t (some { x with lastUse := s.cul.optime.toNat, segs := x.segs ++ [e] }) := by
  have hany : x.segs.any (fun y => y.block == e.block && y.seg == e.seg) = false := by simpa using hnew
  obtain ⟨manifest, owner, got, segs, lastUse, resumed⟩ := x
  dsimp only at hres hgot hblk hany hall
  subst hres
  simp only [sessionSegment, hgot, Nat.not_le.2 hblk, Nat.not_le.2 hseg, hany, hall, List.contains_eq_mem, decide_false, Bool.or_self,
    Bool.false_eq_true, Bool.not_false, if_false, if_true]

/-- The last segment of a good block writes it (R428). -/
theorem sessionSegment_whole {data : List Byte} (hall : allSegs (x.segs ++ [e]) e.block = true)
    (hw : wholeBlock (x.segs ++ [e]) x.manifest e.block = some data) (hn : neighbours s = []) :
    sessionSegment s t x e = blockWritten s t { x with lastUse := s.cul.optime.toNat, segs := x.segs ++ [e] } e.block data := by
  have hany : x.segs.any (fun y => y.block == e.block && y.seg == e.seg) = false := by simpa using hnew
  have hforward (y : UpdSession) (m : Manifest) : forwardBlock (blockWritten s t y e.block data) m e.block data true =
    blockWritten s t y e.block data := by
    have hnone : (neighbours (blockWritten s t y e.block data)).isEmpty = true := List.isEmpty_iff.2 hn
    rw [forwardBlock, hnone, Bool.or_true, if_pos rfl]
  obtain ⟨manifest, owner, got, segs, lastUse, resumed⟩ := x
  dsimp only at hres hgot hblk hany hall hw
  subst hres
  simp only [sessionSegment, hgot, Nat.not_le.2 hblk, Nat.not_le.2 hseg, hany, hall, hw, hforward, List.contains_eq_mem, decide_false, Bool.or_self,
    Bool.false_eq_true, Bool.not_true, if_false]

/-- The last segment of a bad block discards its segments (R428). -/
theorem sessionSegment_bad (hall : allSegs (x.segs ++ [e]) e.block = true) (hw : wholeBlock (x.segs ++ [e]) x.manifest e.block = none) :
    sessionSegment s t x e = setSession s t (some { x with lastUse := s.cul.optime.toNat
                                                           segs := (x.segs ++ [e]).filter (fun y => y.block != e.block) }) := by
  have hany : x.segs.any (fun y => y.block == e.block && y.seg == e.seg) = false := by simpa using hnew
  obtain ⟨manifest, owner, got, segs, lastUse, resumed⟩ := x
  dsimp only at hres hgot hblk hany hall hw
  subst hres
  simp only [sessionSegment, hgot, Nat.not_le.2 hblk, Nat.not_le.2 hseg, hany, hall, hw, List.contains_eq_mem, decide_false, Bool.or_self,
    Bool.false_eq_true, Bool.not_true, if_false]

end

section
variable {s : State} {t : ImgType} {x : UpdSession}

/-- A whole block that is good is written, and the session ends its download with the last one (R428). -/
theorem blockWritten_facts (hs : s.upd.slots.length = 5) (hl : s.upd.sessions.length = 5) (blk : Nat) (data : List Byte) :
    updSession (blockWritten s t x blk data) t = some { x with got := x.got ++ [blk], segs := x.segs.filter (fun e => e.block != blk) } ∧
      otherSlot (blockWritten s t x blk data) t = { otherSlot s t with
        st := if x.got.length + 1 = x.manifest.blockCount then .verifying else (otherSlot s t).st
        blocks := (blk, data) :: (otherSlot s t).blocks } ∧
      activeSlot (blockWritten s t x blk data) t = activeSlot s t ∧ blockWritten s t x blk data =
        { s with upd := (blockWritten s t x blk data).upd } := by
  let y : UpdSession := { x with got := x.got ++ [blk], segs := x.segs.filter (fun e => e.block != blk) }
  let f (o : UpdSlot) : UpdSlot :=
    { o with st := if (x.got ++ [blk]).length = x.manifest.blockCount then .verifying else o.st, blocks := (blk, data) :: o.blocks }
  have hwrite : blockWritten s t x blk data = modOther (setHave (setSession s t (some y)) t y) t f := rfl
  rw [hwrite]
  refine ⟨updSession_setSession_self hl t (some y), ?_, activeSlot_modOther (s := setHave (setSession s t (some y)) t y) hs t f, rfl⟩
  refine (otherSlot_modOther (s := setHave (setSession s t (some y)) t y) hs t f).trans ?_
  show f (otherSlot s t) = _
  simp only [f, List.length_append, List.length_cons, List.length_nil]

end

theorem mem_filter_block {l : List SegEnt} {b : Nat} {z : SegEnt} (h : z ∈ l.filter (fun y => y.block != b)) : z.block ≠ b := by
  simpa using (List.mem_filter.1 h).2

section
variable {s : State} {h : ChainHdr} {e : SegEnt} {t : ImgType} {x : UpdSession} (hl : s.upd.sessions.length = 5)
include hl

/-- A state that counts one tag and changes one session. -/
theorem setSession_passTag_facts (y : Option UpdSession) : updSession (setSession (passTag s) t y) t = y ∧
    (∀ k, k ≠ t → updSession (setSession (passTag s) t y) k = updSession s k) ∧
    setSession (passTag s) t y = { tagged 1 s with upd := { s.upd with sessions := (setSession (passTag s) t y).upd.sessions }
                                                   pmu := (setSession (passTag s) t y).pmu } := by
  rw [passTag_eq]
  exact ⟨updSession_setSession_self (s := { tagged 1 s with pmu := (passTag s).pmu }) hl t y,
    fun k hk => updSession_setSession_ne { tagged 1 s with pmu := (passTag s).pmu } y hk, rfl⟩

end

/-- The download of a block that is good, seen from the state before its tag was counted. -/
theorem blockWritten_passTag_facts {s : State} (hs : s.upd.slots.length = 5) (hl : s.upd.sessions.length = 5) (t : ImgType) (x : UpdSession)
    (blk : Nat) (data : List Byte) :
    updSession (blockWritten (passTag s) t x blk data) t = some { x with got := x.got ++ [blk], segs := x.segs.filter (fun e => e.block != blk) } ∧
      otherSlot (blockWritten (passTag s) t x blk data) t = { otherSlot s t with
        st := if x.got.length + 1 = x.manifest.blockCount then .verifying else (otherSlot s t).st
        blocks := (blk, data) :: (otherSlot s t).blocks } ∧
      activeSlot (blockWritten (passTag s) t x blk data) t = activeSlot s t ∧
      blockWritten (passTag s) t x blk data = { tagged 1 s with upd := (blockWritten (passTag s) t x blk data).upd
                                                                pmu := (blockWritten (passTag s) t x blk data).pmu } := by
  rw [passTag_eq]
  obtain ⟨hses, hblocks, hact, heq⟩ := blockWritten_facts (s := { tagged 1 s with pmu := (passTag s).pmu }) (t := t) (x := x) hs hl blk data
  exact ⟨hses, hblocks, hact, rfl⟩

section
variable {s : State} {h : ChainHdr} {e : SegEnt} {t : ImgType} {x : UpdSession} (hs : s.upd.slots.length = 5) (hl : s.upd.sessions.length = 5)
  (hexec : exec (.segment h e) s = .next (sessionSegment (passTag s) t x e)) (hres : x.resumed = false) (hgot : e.block ∉ x.got)
  (hblk : e.block < x.manifest.blockCount) (hseg : e.seg < 4) (hnew : ∀ y ∈ x.segs, ¬ (y.block = e.block ∧ y.seg = e.seg))
include hl hexec hres hgot hblk hseg hnew

theorem segment_joins (hall : allSegs (x.segs ++ [e]) e.block = false) :
    ∃ u, exec (.segment h e) s = .next u ∧ updSession u t = some { x with lastUse := s.cul.optime.toNat, segs := x.segs ++ [e] } ∧
      (∀ k, k ≠ t → updSession u k = updSession s k) ∧
      u = { tagged 1 s with upd := { s.upd with sessions := u.upd.sessions }, pmu := u.pmu } := by
  rw [sessionSegment_incomplete t hres hgot hblk hseg hnew hall, passTag_cul] at hexec
  exact ⟨_, hexec, setSession_passTag_facts hl _⟩

theorem segment_discards (hw : wholeBlock (x.segs ++ [e]) x.manifest e.block = none) (hall : allSegs (x.segs ++ [e]) e.block = true) :
    ∃ u y, exec (.segment h e) s = .next u ∧ updSession u t = some y ∧ y.got = x.got ∧ (∀ z ∈ y.segs, z.block ≠ e.block) ∧
      u = { tagged 1 s with upd := { s.upd with sessions := u.upd.sessions }, pmu := u.pmu } := by
  rw [sessionSegment_bad t hres hgot hblk hseg hnew hall hw] at hexec
  obtain ⟨hses, -, heq⟩ := setSession_passTag_facts (t := t) hl (some { x with
    lastUse := (passTag s).cul.optime.toNat, segs := (x.segs ++ [e]).filter (fun y => y.block != e.block) })
  exact ⟨_, _, hexec, hses, rfl, fun z hz => mem_filter_block hz, heq⟩

include hs in
theorem segment_completes {data : List Byte} (hpart : (otherSlot s t).st = .partly)
    (hw : wholeBlock (x.segs ++ [e]) x.manifest e.block = some data) (hall : allSegs (x.segs ++ [e]) e.block = true) (hn : neighbours s = []) :
    ∃ u y, exec (.segment h e) s = .next u ∧ updSession u t = some y ∧ y.got = x.got ++ [e.block] ∧
      (otherSlot u t).blocks = (e.block, data) :: (otherSlot s t).blocks ∧
      (∀ z ∈ y.segs, z.block ≠ e.block) ∧ (otherSlot u t).st = (if x.got.length + 1 = x.manifest.blockCount then .verifying else .partly) ∧
      activeSlot u t = activeSlot s t ∧ u = { tagged 1 s with upd := u.upd, pmu := u.pmu } := by
  rw [sessionSegment_whole t hres hgot hblk hseg hnew hall hw ((neighbours_passTag s).trans hn)] at hexec
  obtain ⟨hses, hblocks, hact, heq⟩ := blockWritten_passTag_facts hs hl t
    { x with lastUse := (passTag s).cul.optime.toNat, segs := x.segs ++ [e] } e.block data
  refine ⟨_, _, hexec, hses, rfl, by rw [hblocks], fun z hz => mem_filter_block hz, ?_, hact, heq⟩
  rw [hblocks, hpart]

end

/-! ## Downloads: status questions, commands, verification, idle sessions (R426 to R432) -/

section
variable {s : State} {src : ChainSrc} {h : ChainHdr}

/-- Before the trusted kernel runs nothing of the chain is taken (R421). -/
theorem chain_without_kernel (hrun : s.tk.running = false) (m : Manifest) (e : SegEnt) (ts : List Token) (es : List MemberEnt) :
    exec (.manifest src h m) s = .next s ∧ exec (.segment h e) s = .next s ∧ exec (.statusReq src h) s = .next s ∧
      exec (.statusReply src h es []) s = .next s ∧ exec (.commandAbort src h ts) s = .next s := by
  have hstop : ¬ s.tk.running = true := by simp [hrun]
  have hnot : (!s.tk.running) = true := by simp [hrun]
  exact ⟨congrArg Host.Outcome.next (if_pos hnot), congrArg Host.Outcome.next (if_neg hstop), congrArg Host.Outcome.next (if_neg hstop),
    congrArg Host.Outcome.next (if_neg hstop), congrArg Host.Outcome.next (if_pos hnot)⟩

/-- A status question is answered where its source can be (R431). -/
theorem statusReq_answered (hrun : s.tk.running = true) :
    ∃ u, exec (.statusReq src h) s = .next u ∧ u = { s with out := u.out } ∧
      (src ≠ .runtime → answers s src = true → u.out.length = s.out.length + 1) := by
  refine ⟨_, congrArg Host.Outcome.next (if_pos hrun), chainReply_eq s src _, fun hsrc hans => ?_⟩
  rw [chainReply, if_pos ⟨hsrc, hans⟩]
  rfl

/-- Sending a list one by one. -/
theorem foldl_send {α : Type} (f : α → Out) (l : List α) (s : State) :
    l.foldl (fun s a => { s with out := f a :: s.out }) s = { s with out := (l.map f).reverse ++ s.out } := by
  induction l generalizing s with
  | nil => rfl
  | cons a l ih => rw [List.foldl_cons, ih]; simp

theorem foldl_send_lists {α β : Type} (f : α → Out) (g : β → List α) (l : List β) (s : State) :
    l.foldl (fun s b => (g b).foldl (fun s a => { s with out := f a :: s.out }) s) s =
      { s with out := ((l.flatMap g).map f).reverse ++ s.out } := by
  induction l generalizing s with
  | nil => rfl
  | cons b l ih => rw [List.foldl_cons, foldl_send, ih]; simp

/-- The segments of the held blocks that were asked for. -/
def askedSegs (s : State) (h : ChainHdr) (l : List (List Nat)) : List SegEnt :=
  ((heldBlocks s h).filter (fun b => l.flatten.contains b.1)).flatMap (fun b => blockSegs b.1 b.2)

/-- What is sent again: each held block that was asked for, segment by segment (R431). -/
theorem resend_of_answers {s : State} {src : ChainSrc} (h : ChainHdr) (l : List (List Nat)) (hans : answers s src = true) :
    resend s src h l = { s with
      out := ((askedSegs s h l).map (fun e => Out.chainOut src (srcPlanes src) (.segment { h with status := .ok } e))).reverse ++ s.out } := by
  unfold resend
  simp only [hans, Bool.not_true, Bool.false_eq_true, if_false]
  exact foldl_send_lists (fun e => Out.chainOut src (srcPlanes src) (.segment { h with status := .ok } e))
    (fun b : Nat × List Byte => blockSegs b.1 b.2) _ s

theorem resend_of_silent {s : State} {src : ChainSrc} (h : ChainHdr) (l : List (List Nat)) (hans : answers s src = false) :
    resend s src h l = s := by
  unfold resend
  simp only [hans, Bool.not_false, if_true]

/-- A status reply is answered with the blocks that are held here (R431). -/
theorem statusReply_resends (hrun : s.tk.running = true) (es : List MemberEnt) (l : List (List Nat)) :
    ∃ u, exec (.statusReply src h es l) s = .next u ∧ u = { s with out := u.out } ∧
      (answers s src = true → ∀ b ∈ heldBlocks s h, b.1 ∈ l.flatten → ∀ e ∈ blockSegs b.1 b.2,
        .chainOut src (srcPlanes src) (.segment { h with status := .ok } e) ∈ u.out) := by
  refine ⟨_, congrArg Host.Outcome.next (if_pos hrun), ?_⟩
  cases hans : answers s src with
  | false =>
    rw [resend_of_silent h l hans]
    exact ⟨rfl, fun hno => absurd hno (by simp)⟩
  | true =>
    rw [resend_of_answers h l hans]
    refine ⟨rfl, fun _ b hb hasked e he => List.mem_append_left _ (List.mem_reverse.2 (List.mem_map.2 ⟨e, ?_, rfl⟩))⟩
    exact List.mem_flatMap.2 ⟨b, List.mem_filter.2 ⟨hb, by simpa using hasked⟩, he⟩

end

/-! ### Commands -/

section
variable {s : State} {src : ChainSrc} {h : ChainHdr} {t : ImgType} {ts : List Token} (hrun : s.tk.running = true) (hform : h.formOk = true)
  (ht : imgTypeOf h.typeCode = some t) (hts : 1 ≤ ts.length) (hts8 : ts.length ≤ 8)
include hrun hform ht hts hts8

/-- A command of a package whose key was revoked gets SIGNATURE_FAILED (R423, R429). -/
theorem chainCommand_revoked (hslot : slotRevoked s t h = true) (op : ChainOp) :
    chainCommand s src h op ts =
      { s with upd := { s.upd with lastStatus := Status.signatureFailed.code }, out := (chainCommand s src h op ts).out } := by
  have hlist : ts.isEmpty = false := by simp; rintro rfl; simp at hts
  have htake : takeCommand s src h op ts none = (updAnswer s .signatureFailed, .signatureFailed) := by
    simp only [takeCommand, hform, hlist, Nat.not_lt.2 hts8, ht, hslot, Bool.not_true, Bool.or_self, decide_false, Bool.false_eq_true, if_false,
      if_true]
  have hreplied : replied h op .signatureFailed = false := by simp [replied]
  unfold chainCommand
  simp only [htake, hrun, hreplied, Bool.not_true, Bool.false_eq_true, if_false]
  rw [chainReply_eq]
  rfl

/-- A command with its role, of a package whose key stands, runs (R429). -/
theorem chainCommand_runs {r : Role} {tok : Word} (hslot : slotRevoked s t h = false) (hcr : commandRole s ts = (s, r, tok)) (op : ChainOp)
    {w : State} {st : Status} (hrunc : commandRun (touchSession s t h) src h op t r tok none = (w, st)) (hreplied : replied h op st = false) :
    ∃ u, chainCommand s src h op ts = u ∧ u = { w with out := u.out } := by
  have hlist : ts.isEmpty = false := by simp; rintro rfl; simp at hts
  have htake : takeCommand s src h op ts none = (w, st) := by
    simp only [takeCommand, hform, hlist, Nat.not_lt.2 hts8, ht, hslot, hcr, hrunc, Bool.not_true, Bool.or_self, decide_false, Bool.false_eq_true,
      if_false]
  refine ⟨_, rfl, ?_⟩
  unfold chainCommand
  simp only [htake, hrun, hreplied, Bool.not_true, Bool.false_eq_true, if_false]
  exact chainReply_eq ..

end

/-- The abort by the session's owner ends it (R430). -/
theorem abortCmd_of_owner {s : State} {t : ImgType} {src : Option ChainSrc} {x : UpdSession} (hx : updSession s t = some x)
    (hsrc : (src.isNone || src == some x.owner) = true) : abortCmd s t src = (updAnswer (endUpdSession s t .empty .notice) .ok, .ok) := by
  simp only [abortCmd, hx, hsrc, if_true]

theorem abortCmd_of_other {s : State} {t : ImgType} {src : Option ChainSrc} {x : UpdSession} (hx : updSession s t = some x)
    (hsrc : (src.isNone || src == some x.owner) = false) : abortCmd s t src = (updAnswer s .refusedPolicy, .refusedPolicy) := by
  simp only [abortCmd, hx, hsrc, Bool.false_eq_true, if_false]

theorem commandRun_abort {s : State} {src : ChainSrc} {h : ChainHdr} {t : ImgType} {r : Role} {tok : Word} {slot : Option Nat}
    (hr : Role.maintainer.rank ≤ r.rank) : commandRun s src h .abort t r tok slot = abortCmd s t (some src) :=
  if_neg (Nat.not_lt.2 hr)

/-- A command of a session's package only touches that session (R427). -/
theorem touchSession_facts {s : State} {t : ImgType} {x : UpdSession} (hl : s.upd.sessions.length = 5) (hx : updSession s t = some x) (h : ChainHdr) :
    (∃ y, updSession (touchSession s t h) t = some y ∧ y.owner = x.owner) ∧ (touchSession s t h).upd.sessions.length = 5 ∧
      touchSession s t h = { s with upd := { s.upd with sessions := (touchSession s t h).upd.sessions } } := by
  unfold touchSession
  rw [hx]
  dsimp only
  split
  · exact ⟨⟨_, updSession_setSession_self hl t _, rfl⟩, by simp [setSession, setNth_length, hl], rfl⟩
  · exact ⟨⟨x, hx, rfl⟩, hl, rfl⟩

section
variable {s : State} {src : ChainSrc} {h : ChainHdr} {t : ImgType} {ts : List Token} {r : Role} {tok : Word} {x : UpdSession}
  (hs : s.upd.slots.length = 5) (hl : s.upd.sessions.length = 5) (hrun : s.tk.running = true) (hform : h.formOk = true)
  (ht : imgTypeOf h.typeCode = some t) (hts : 1 ≤ ts.length) (hts8 : ts.length ≤ 8) (hcr : commandRole s ts = (s, r, tok))
  (hslot : slotRevoked s t h = false) (hr : Role.maintainer.rank ≤ r.rank) (hx : updSession s t = some x)
include hl hrun hform ht hts hts8 hcr hslot hr hx

include hs in
/-- ABORT by the session's owner empties the slot (R430). -/
theorem commandAbort_ends (hown : x.owner = src) :
    ∃ u, exec (.commandAbort src h ts) s = .next u ∧ updSession u t = none ∧ (otherSlot u t).st = .empty ∧
      activeSlot u t = activeSlot s t ∧ Records s u .notice srcUpd (cState SlotSt.empty.num) ∧
        u = { s with upd := u.upd, evr := u.evr, out := u.out } := by
  obtain ⟨⟨y, hy, hyo⟩, hlen, htouch⟩ := touchSession_facts hl hx h
  have hcmd : commandRun (touchSession s t h) src h .abort t r tok none =
      (updAnswer (endUpdSession (touchSession s t h) t .empty .notice) .ok, .ok) := by
    rw [commandRun_abort hr, abortCmd_of_owner hy (by simp [hyo, hown])]
  obtain ⟨u, hu, heq⟩ := chainCommand_runs (src := src) hrun hform ht hts hts8 hslot hcr .abort hcmd rfl
  have hslots : (touchSession s t h).upd.slots = s.upd.slots := by rw [htouch]
  obtain ⟨hses, hother, hact, hrec, -, hend⟩ := endUpdSession_ends (hslots ▸ hs) hlen t .empty .notice
  refine ⟨u, congrArg Host.Outcome.next hu, ?_⟩
  rw [heq]
  refine ⟨hses, congrArg UpdSlot.st hother, hact.trans (activeSlot_congr hslots (by rw [htouch]) t), ?_, ?_⟩
  · obtain ⟨rec, hmem, hseq, hkind⟩ := hrec
    exact ⟨rec, hmem, hseq.trans (by rw [htouch]), hkind⟩
  · rw [updAnswer_eq _ (by decide) (by decide), hend, htouch]

/-- ABORT by another than the session's owner is refused (R430). -/
theorem commandAbort_refused (hown : x.owner ≠ src) :
    ∃ u, exec (.commandAbort src h ts) s = .next u ∧ (updSession u t).isSome = true ∧ u.upd.slots = s.upd.slots ∧
      u.upd.lastStatus = Status.refusedPolicy.code ∧ u = { s with upd := u.upd, out := u.out } := by
  obtain ⟨⟨y, hy, hyo⟩, hlen, htouch⟩ := touchSession_facts hl hx h
  have hcmd : commandRun (touchSession s t h) src h .abort t r tok none = (updAnswer (touchSession s t h) .refusedPolicy, .refusedPolicy) := by
    rw [commandRun_abort hr, abortCmd_of_other hy (by simpa [hyo] using Ne.symm hown)]
  obtain ⟨u, hu, heq⟩ := chainCommand_runs (src := src) hrun hform ht hts hts8 hslot hcr .abort hcmd rfl
  refine ⟨u, congrArg Host.Outcome.next hu, ?_⟩
  rw [heq]
  refine ⟨Option.isSome_iff_exists.2 ⟨y, hy⟩, ?_, rfl, ?_⟩
  · show (touchSession s t h).upd.slots = _
    rw [htouch]
  · rw [updAnswer_eq _ (by decide) (by decide), htouch]

end

/-! ## Downloads: verification, idle sessions, the update calls (R428 to R433) -/

theorem nextAct_of_none {s : State} (h : s.upd.waiting = []) : nextAct s = s := by
  simp only [nextAct, h]

section
variable {s : State} {t : ImgType} (hs : s.upd.slots.length = 5)
include hs

/-- A package that verifies makes its slot VERIFIED (R428). -/
theorem verificationDone_good {v : Verified} {m : Manifest} (hm : (otherSlot s t).manifest = some m) (hst : (otherSlot s t).st = .verifying)
    (hw : s.upd.waiting = []) (hv : verifyStatus s t m v = .ok) :
    ∃ u, exec (.verificationDone t v) s = .next u ∧ (otherSlot u t).st = .verified ∧ (otherSlot u t).img = foundImage t v ∧
      activeSlot u t = activeSlot s t ∧ u.upd.sessions = s.upd.sessions ∧ u = { s with upd := u.upd } := by
  let f (o : UpdSlot) : UpdSlot := { o with st := .verified, img := foundImage t v }
  have hgood : verified s t v = modOther s t f := by
    simp only [verified, hm, hst, hv, ne_eq, not_true, false_and, if_false]
    exact nextAct_of_none hw
  have hother := otherSlot_modOther hs t f
  refine ⟨_, congrArg Host.Outcome.next hgood, congrArg UpdSlot.st hother, congrArg UpdSlot.img hother, activeSlot_modOther hs t f, rfl, rfl⟩

/-- One that does not makes it INVALID, ends its session and leaves a record (R428). -/
theorem verificationDone_bad (hl : s.upd.sessions.length = 5) {v : Verified} {m : Manifest} (hm : (otherSlot s t).manifest = some m)
    (hst : (otherSlot s t).st = .verifying) (hw : s.upd.waiting = []) (hv : verifyStatus s t m v ≠ .ok) :
    ∃ u, exec (.verificationDone t v) s = .next u ∧ (otherSlot u t).st = .invalid ∧ updSession u t = none ∧
      activeSlot u t = activeSlot s t ∧ Records s u .error srcUpd (cFailed (verifyStatus s t m v)) ∧
      u = { s with upd := u.upd, evr := u.evr } := by
  let f (o : UpdSlot) : UpdSlot := { o with st := .invalid }
  let u := updAnswer (record (setSession (modOther s t f) t none) .error srcUpd (cFailed (verifyStatus s t m v)) t.code) (verifyStatus s t m v)
  have hbad : verified s t v = nextAct u := by
    simp only [verified, hm, hst, ne_eq, not_true, false_and, if_false]
    rfl
  have hbad : verified s t v = u := hbad.trans (nextAct_of_none (s := u) (show s.upd.waiting = [] from hw))
  have hother := otherSlot_modOther hs t f
  exact ⟨u, congrArg Host.Outcome.next hbad, congrArg UpdSlot.st hother, updSession_setSession_self (s := modOther s t f) hl t none,
    activeSlot_modOther hs t f, record_records _ _ _ _ _ _, rfl⟩

end

/-- Without a package in the slot there is nothing to verify. -/
theorem verificationDone_none {s : State} {t : ImgType} (v : Verified) (hm : (otherSlot s t).manifest = none) :
    exec (.verificationDone t v) s = .next s := by
  refine congrArg Host.Outcome.next ?_
  simp only [verified, hm]

section
variable {s : State} {t : ImgType} {x : UpdSession} (hx : updSession s t = some x)
include hx

theorem sessionIdle_busy (hu : s.cul.optime.toNat < x.lastUse + 6000) : exec (.updateSessionIdle t) s = .next s := by
  refine congrArg Host.Outcome.next ?_
  simp only [hx, hu, if_true]

/-- A session that nothing used for 10 minutes ends; a resumed one empties its slot (R430). -/
theorem sessionIdle_ends (hs : s.upd.slots.length = 5) (hl : s.upd.sessions.length = 5) (hu : x.lastUse + 6000 ≤ s.cul.optime.toNat) :
    ∃ u, exec (.updateSessionIdle t) s = .next u ∧ updSession u t = none ∧
      (∀ k, k ≠ t → updSession u k = updSession s k) ∧ activeSlot u t = activeSlot s t ∧
      (x.resumed = false → u.upd.slots = s.upd.slots ∧ u.evr = s.evr) ∧
      (x.resumed = true → (otherSlot u t).st = .empty ∧ Records s u .notice srcUpd (cState SlotSt.empty.num)) ∧
      u = { s with upd := u.upd, evr := u.evr } := by
  have hexec : exec (.updateSessionIdle t) s = .next (if x.resumed then endUpdSession s t .empty .notice else setSession s t none) := by
    refine congrArg Host.Outcome.next ?_
    simp only [hx, Nat.not_lt.2 hu, if_false]
  refine ⟨_, hexec, ?_⟩
  cases hres : x.resumed with
  | true =>
    obtain ⟨hses, hother, hact, hrec, hrest, heq⟩ := endUpdSession_ends hs hl t .empty .notice
    exact ⟨hses, hrest, hact, fun hno => absurd hno (by simp), fun _ => ⟨congrArg UpdSlot.st hother, hrec⟩, heq⟩
  | false =>
    exact ⟨updSession_setSession_self hl t none, fun k hk => updSession_setSession_ne s none hk, rfl, fun _ => ⟨rfl, rfl⟩,
      fun hno => absurd hno (by simp), rfl⟩

end

/-! ### The update calls (R433) -/

section
variable {s : State} {c : CallReq} {t : ImgType} (hwf : s.dram.wf = true) (h : CallReady s c .maintainer)
include hwf h

/-- An update call of a maintainer whose own rule changes the update state and the recorder only replies with its status. -/
theorem updCall_replies {k : State → State × Status} {call : Nat} {w : State} {st : Status} (hk : k (slotTaken s c call) = (w, st))
    (hw : w = { slotTaken s c call with upd := w.upd, evr := w.evr }) (hauth : st ≠ .authRequired) :
    (updCall s c call .maintainer k).upd = w.upd ∧ (updCall s c call .maintainer k).evr = w.evr ∧
      Replies s { s with upd := (updCall s c call .maintainer k).upd, evr := (updCall s c call .maintainer k).evr }
        (updCall s c call .maintainer k) c st := by
  obtain ⟨-, -, -, hrank⟩ := id h
  have hrole : ¬ (roleOf (slotTaken s c call) c.session).rank < Role.maintainer.rank := Nat.not_lt.2 hrank
  have hreplies : Replies s { s with upd := w.upd, evr := w.evr } (updCall s c call .maintainer k) c st := by
    refine callOn_replies (callReady_mono h (by decide)) hwf ?_ hauth ?_ rfl rfl ?_
    · simp only [hrole, if_false, hk]
    · simp only [hrole, if_false, hk]
      rw [hw]
      rfl
    · simp only [hrole, if_false, hk]
      exact ⟨[], by rw [hw]; rfl⟩
  obtain ⟨-, -, -, -, heq⟩ := id hreplies
  have hupd : (updCall s c call .maintainer k).upd = w.upd := by rw [heq]
  have hevr : (updCall s c call .maintainer k).evr = w.evr := by rw [heq]
  exact ⟨hupd, hevr, by rw [hupd, hevr]; exact hreplies⟩

/-- UPD_ABORT ends the session of its type (R430, R433). -/
theorem updAbort_ends (hs : s.upd.slots.length = 5) (hl : s.upd.sessions.length = 5) {x : UpdSession} (hx : updSession s t = some x) :
    ∃ u, exec (.updAbort c t) s = .next u ∧ updSession u t = none ∧ (otherSlot u t).st = .empty ∧ activeSlot u t = activeSlot s t ∧
      Records s u .notice srcUpd (cState SlotSt.empty.num) ∧ Replies s { s with upd := u.upd, evr := u.evr } u c .ok := by
  obtain ⟨hses, hother, hact, hrec, -, hend⟩ := endUpdSession_ends (s := slotTaken s c 0x104) hs hl t .empty .notice
  have hcmd : abortCmd (slotTaken s c 0x104) t none = (updAnswer (endUpdSession (slotTaken s c 0x104) t .empty .notice) .ok, .ok) :=
    abortCmd_of_owner hx rfl
  obtain ⟨hupd, hevr, hreplies⟩ := updCall_replies hwf h (k := fun s => abortCmd s t none) hcmd rfl (by decide)
  have hcul : (updCall s c 0x104 .maintainer (fun s => abortCmd s t none)).cul = s.cul := by
    obtain ⟨-, -, -, -, heq⟩ := hreplies
    rw [heq]
  have hslots : (updCall s c 0x104 .maintainer (fun s => abortCmd s t none)).upd.slots =
      (endUpdSession (slotTaken s c 0x104) t .empty .notice).upd.slots := by rw [hupd]; rfl
  have hsessions : (updCall s c 0x104 .maintainer (fun s => abortCmd s t none)).upd.sessions =
      (endUpdSession (slotTaken s c 0x104) t .empty .notice).upd.sessions := by rw [hupd]; rfl
  refine ⟨_, rfl, (updSession_congr hsessions t).trans hses, ?_, (activeSlot_congr hslots hcul t).trans hact, ?_, hreplies⟩
  · rw [otherSlot_congr (v := endUpdSession (slotTaken s c 0x104) t .empty .notice) hslots hcul, hother]
    rfl
  · rw [Records, hevr]
    exact hrec

/-- UPD_ABORT without a session is refused (R433). -/
theorem updAbort_refused (hx : updSession s t = none) : ∃ u, exec (.updAbort c t) s = .next u ∧
    u.upd.slots = s.upd.slots ∧ Replies s { s with upd := { s.upd with lastStatus := Status.refusedPolicy.code } } u c .refusedPolicy := by
  have hcmd : abortCmd (slotTaken s c 0x104) t none = (updAnswer (slotTaken s c 0x104) .refusedPolicy, .refusedPolicy) := by
    simp only [abortCmd, show updSession (slotTaken s c 0x104) t = none from hx]
  obtain ⟨hupd, hevr, hreplies⟩ := updCall_replies hwf h (k := fun s => abortCmd s t none) hcmd rfl (by decide)
  refine ⟨_, rfl, by rw [hupd]; rfl, ?_⟩
  rw [hupd, hevr] at hreplies
  exact hreplies

end

/-! ## Downloads: the update calls' messages (R433) -/

/-- A state with other call slots. -/
def withSlots (s : State) (l : List CallSlot) : State := { s with tk := { s.tk with slots := l } }

section
variable (s : State) (l : List CallSlot)

theorem pmuCount_withSlots (i ev n : Nat) : pmuCount (withSlots s l) i ev n = withSlots (pmuCount s i ev n) l := by
  unfold pmuCount
  dsimp only [withSlots, modPmu]
  generalize pmuEvent i ev n (Config.spcFree s.tb.ttc) _ = q
  split_ifs <;> rfl

theorem passTag_withSlots : passTag (withSlots s l) = withSlots (passTag s) l := by
  unfold passTag
  rw [pmuCount_withSlots]
  rfl

theorem endIfRevoked_withSlots (t : ImgType) : endIfRevoked (withSlots s l) t = withSlots (endIfRevoked s t) l := by
  have hrev : revokedSession (withSlots s l) t = revokedSession s t := rfl
  unfold endIfRevoked
  rw [hrev]
  split <;> rfl

theorem toNeighbours_withSlots (m : ChainMsg) : toNeighbours (withSlots s l) m = withSlots (toNeighbours s m) l := by
  have hfold (ns : List (Ip4 × Nat)) (u : State) :
      ns.foldl (fun s (ip, mask) => { s with out := .chainOut (.ecn ip) mask m :: s.out }) (withSlots u l) =
        withSlots (ns.foldl (fun s (ip, mask) => { s with out := .chainOut (.ecn ip) mask m :: s.out }) u) l := by
    induction ns generalizing u with
    | nil => rfl
    | cons x ns ih => exact ih { u with out := .chainOut (.ecn x.1) x.2 m :: u.out }
  have hdrives : drives (withSlots s l) = drives s := rfl
  unfold toNeighbours
  rw [hdrives]
  split
  · exact hfold _ s
  · rfl

theorem foldl_toNeighbours_withSlots (f : SegEnt → ChainMsg) (es : List SegEnt) :
    es.foldl (fun s e => toNeighbours s (f e)) (withSlots s l) = withSlots (es.foldl (fun s e => toNeighbours s (f e)) s) l := by
  induction es generalizing s with
  | nil => rfl
  | cons e es ih => rw [List.foldl_cons, List.foldl_cons, toNeighbours_withSlots, ih]

/-- A state that counts a block passed on (R425). -/
def forwardCounted (s : State) (m : Manifest) (blk : Nat) (data : List Byte) (kept : Bool) : State :=
  { s with upd := { s.upd with
      forwarded := s.upd.forwarded + 1, fwd := if kept then s.upd.fwd else ((m.targetHash, blk, data) :: s.upd.fwd).take 64 } }

theorem forwardBlock_withSlots (m : Manifest) (blk : Nat) (data : List Byte) (kept : Bool) :
    forwardBlock (withSlots s l) m blk data kept = withSlots (forwardBlock s m blk data kept) l := by
  have hsilent : (!drives (withSlots s l) || (neighbours (withSlots s l)).isEmpty) = (!drives s || (neighbours s).isEmpty) := rfl
  unfold forwardBlock
  rw [hsilent, foldl_toNeighbours_withSlots]
  split
  · rfl
  · dsimp only
    generalize (blockSegs blk data).foldl _ s = v
    split
    · exact toNeighbours_withSlots (forwardCounted v m blk data kept) l _
    · rfl

theorem blockWritten_withSlots (t : ImgType) (x : UpdSession) (blk : Nat) (data : List Byte) :
    blockWritten (withSlots s l) t x blk data = withSlots (blockWritten s t x blk data) l := rfl

theorem sessionSegment_withSlots (t : ImgType) (x : UpdSession) (e : SegEnt) :
    sessionSegment (withSlots s l) t x e = withSlots (sessionSegment s t x e) l := by
  have hresumed : (if x.resumed then record (withSlots s l) .notice srcUpd (cState SlotSt.partly.num) t.code else withSlots s l) =
      withSlots (if x.resumed then record s .notice srcUpd (cState SlotSt.partly.num) t.code else s) l := by
    split <;> rfl
  unfold sessionSegment
  dsimp only
  rw [hresumed, show (withSlots s l).cul = s.cul from rfl]
  generalize (if x.resumed then record s .notice srcUpd (cState SlotSt.partly.num) t.code else s) = u
  split
  · rfl
  split
  · rfl
  split
  · rw [blockWritten_withSlots, forwardBlock_withSlots]
  · rfl

theorem touchSession_withSlots (t : ImgType) (h : ChainHdr) : touchSession (withSlots s l) t h = withSlots (touchSession s t h) l := by
  have hses : updSession (withSlots s l) t = updSession s t := rfl
  unfold touchSession
  rw [hses]
  split
  · split <;> rfl
  · rfl

/-- A state with other segments to pass on. -/
def withFwdSegs (s : State) (l : List (Hash × SegEnt)) : State := { s with upd := { s.upd with fwdSegs := l } }

theorem passSegment_withSlots (t : ImgType) (h : ChainHdr) (e : SegEnt) : passSegment (withSlots s l) t h e = withSlots (passSegment s t h e) l := by
  unfold passSegment
  rw [show (withSlots s l).upd = s.upd from rfl]
  split
  · rfl
  next m _ =>
    rw [show drives (withSlots s l) = drives s from rfl, show neighbours (withSlots s l) = neighbours s from rfl,
      show holdsBlock (withSlots s l) t m e.block = holdsBlock s t m e.block from rfl]
    split
    · rfl
    dsimp only
    split
    · rfl
    have hfwd (fs : List (Hash × SegEnt)) (data : List Byte) :
        forwardBlock { withSlots s l with upd := { s.upd with fwdSegs := fs } } m e.block data false =
          withSlots (forwardBlock { s with upd := { s.upd with fwdSegs := fs } } m e.block data false) l :=
      forwardBlock_withSlots (withFwdSegs s fs) l m e.block data false
    split
    · exact hfwd _ _
    · rfl

theorem takeSegment_withSlots (h : ChainHdr) (e : SegEnt) : takeSegment (withSlots s l) h e = withSlots (takeSegment s h e) l := by
  unfold takeSegment
  split
  · rfl
  next t _ =>
    dsimp only
    rw [passTag_withSlots, endIfRevoked_withSlots]
    generalize endIfRevoked (passTag s) t = u
    have hrev : slotRevoked (withSlots u l) t h = slotRevoked u t h := rfl
    have hses : updSession (withSlots u l) t = updSession u t := rfl
    have hother : otherSlot (withSlots u l) t = otherSlot u t := rfl
    rw [hrev, hses, hother]
    split
    · rfl
    split
    · split
      · exact sessionSegment_withSlots ..
      · rw [touchSession_withSlots, passSegment_withSlots]
    · exact passSegment_withSlots ..

end

/-! ## Downloads: every clause together (R421 to R433) -/

/-- The status of a status question (R431). -/
theorem statusQuestion_status (s : State) (h : ChainHdr) :
    (if !h.formOk then Status.checkFailed else match imgTypeOf h.typeCode with
      | none => .incompatible
      | some t => if slotRevoked s t h then .signatureFailed else .ok) =
    (if h.formOk = false then .checkFailed else match imgTypeOf h.typeCode with
      | none => .incompatible
      | some k => if slotRevoked s k h then .signatureFailed else .ok) := by
  cases h.formOk <;> rfl

section
variable {s : State} {c : CallReq} (hwf : s.dram.wf = true)
include hwf

/-- UPD_MSG with a status question is answered (R431, R433). -/
theorem updMsg_statusReq (hc : CallReady s c .maintainer) (h : ChainHdr) : ∃ u, exec (.updMsg c (.statusReq h)) s = .next u ∧
    Replies s s u c (if h.formOk = false then .checkFailed else match imgTypeOf h.typeCode with
      | none => .incompatible
      | some k => if slotRevoked s k h then .signatureFailed else .ok) := by
  rw [← statusQuestion_status]
  refine ⟨_, rfl, callOn_replies hc hwf rfl ?_ rfl rfl rfl ⟨[], rfl⟩⟩
  split
  · simp
  split
  · simp
  · split <;> simp

omit hwf in
/-- UPD_MSG with a segment takes it as the chain does (R427, R433). -/
theorem updMsg_segment (hc : CallReady s c .maintainer) (hrun : s.tk.running = true) {h : ChainHdr} {e : SegEnt} {w : State}
    (hw : exec (.segment h e) s = .next w) :
    ∃ u, exec (.updMsg c (.segment h e)) s = .next u ∧ u.upd = w.upd ∧ Answered u c .ok ∧ u.fab = s.fab ∧
      u.glb = s.glb ∧ u.cul = s.cul := by
  obtain ⟨hlen, -⟩ := id hc
  obtain rfl : w = takeSegment s h e := (Host.Outcome.next.inj (hw.symm.trans (congrArg Host.Outcome.next (if_pos hrun))))
  have htake : takeSegment (slotTaken s c 0x100) h e = withSlots (takeSegment s h e) (slotTaken s c 0x100).tk.slots :=
    takeSegment_withSlots s (slotTaken s c 0x100).tk.slots h e
  have hcall : callOn s c 0x100 .maintainer (fun s => runtimeMsg s c.slot (.segment h e)) =
      answer (withSlots (takeSegment s h e) (slotTaken s c 0x100).tk.slots) c.slot .ok (List.take c.respMax []) := by
    rw [callOn_of_ready hc, ← htake]
    rfl
  have hanswer := answer_within (withSlots (takeSegment s h e) (slotTaken s c 0x100).tk.slots) c.slot .ok (List.take c.respMax [])
  have hseg := takeSegment_within s h e
  have htaken : nthD (slotTaken s c 0x100).tk.slots c.slot {} = _ := nthD_modNth_self s.tk.slots c.slot _ {} hlen
  refine ⟨_, congrArg Host.Outcome.next hcall, hanswer.upd_eq, answered_of_slot _ ?_ ?_ ?_, ?_, ?_, ?_⟩
  · exact (modNth_length ..).symm ▸ hlen
  · exact congrArg CallSlot.seq htaken
  · exact congrArg CallSlot.session htaken
  · exact hanswer.fab_eq.trans hseg.fab_eq
  · exact hanswer.glb_eq.trans hseg.glb_eq
  · exact hanswer.cul_eq.trans hseg.cul_eq

/-- UPD_SLOT_INFO shows the manifest of the first slot (R433). -/
theorem updSlotInfo_shows (hc : CallReady s c .viewer) {t : ImgType} {m : Manifest}
    (hin : inDram (nthD s.tk.slots c.slot {}).addr (32 + c.respMax) = true) (hroom : 7 ≤ c.respMax) (hm : (updSlot s t false).manifest = some m) :
    ∃ u, exec (.updSlotInfo c t) s = .next u ∧ Replies s s u c .ok ∧
      respData s u c 7 = [0x53, 0x56, 0x4D, 0x46, 0x01, BitVec.ofNat 8 m.typeCode, if m.delta then 1 else 0] := by
  refine ⟨_, rfl, callOn_replies hc hwf rfl (by decide) rfl rfl rfl ⟨[], rfl⟩, ?_⟩
  refine callOn_data (p := [0x53, 0x56, 0x4D, 0x46, 0x01, BitVec.ofNat 8 m.typeCode, if m.delta then 1 else 0]) (st :=
    .ok) hwf hc hin hroom ?_ (by decide)
  simp only [show (updSlot (slotTaken s c 0x105) t false).manifest = some m from hm, manifestBytes, List.append_assoc, List.cons_append]
  exact ⟨_, rfl⟩

end

/-- A segment of a package whose key was revoked only gets SIGNATURE_FAILED (R423, R427). -/
theorem segment_revoked {s : State} {h : ChainHdr} {t : ImgType} (hslot : slotRevoked s t h = true) (hnone : updSession s t = none)
    (hrun : s.tk.running = true) (hform : h.formOk = true) (ht : imgTypeOf h.typeCode = some t) (e : SegEnt) :
    ∃ u, exec (.segment h e) s = .next u ∧ u.upd = { s.upd with lastStatus := Status.signatureFailed.code } ∧ u.evr = s.evr := by
  have hrev : revokedSession (passTag s) t = false := by
    rw [revokedSession_passTag, revokedSession, hnone]
  have htake : takeSegment s h e = updAnswer (passTag s) .signatureFailed := by
    simp only [takeSegment, hform, if_true, ht, endIfRevoked, hrev, Bool.false_eq_true, if_false, slotRevoked_passTag, hslot]
  refine ⟨_, congrArg Host.Outcome.next ((if_pos hrun).trans htake), ?_, ?_⟩
  · rw [updAnswer_eq _ (by decide) (by decide), passTag_upd]
  · rw [passTag_eq]
    rfl

/-- Settles O55: each message of the update chain in the states that its rule names. -/
theorem downloads : Obligations.Downloads := by
  intro s src h t hs hl _
  refine ⟨fun hrun m e ts es => chain_without_kernel hrun m e ts es, fun m hrun ht => ⟨?_, ?_, ?_⟩, fun es => ⟨rfl, rfl⟩, ?_,
    fun hrun => statusReq_answered hrun, fun hrun es l => statusReply_resends hrun es l, ?_, ?_, fun v hm => verificationDone_none v hm, ?_, ?_,
    fun c x hwf hc hx => updAbort_ends hwf hc hs hl hx, fun c hwf hc hx => updAbort_refused hwf hc hx,
    fun c hwf hc => ⟨updMsg_statusReq hwf hc h, fun e w hrun hw => updMsg_segment hc hrun hw⟩,
    fun c m hwf hc hin hroom hm => updSlotInfo_shows hwf hc hin hroom hm⟩
  · exact fun hform hfloor hdelta hstate hact hnone hempty hnew hlen hpkg =>
      manifest_opens hrun hs hl ht hform hfloor hdelta hstate hact hnone hempty hnew hlen hpkg
  · exact fun hform hfloor => manifest_below_floor hrun ht hform hfloor
  · exact fun hform => manifest_bad_form hrun hform
  · intro x e hrun ht hform hx hrev hslot hver htgt hpart hres hgot hblk hseg hnew
    have hexec : exec (.segment h e) s = .next (sessionSegment (passTag s) t x e) :=
      congrArg Host.Outcome.next ((if_pos hrun).trans (takeSegment_of_session ht hform hx hrev hslot hver htgt hpart))
    exact ⟨fun hall => segment_joins hl hexec hres hgot hblk hseg hnew hall,
      fun data hw hall hn => segment_completes hs hl hexec hres hgot hblk hseg hnew hpart hw hall hn,
      fun hw hall => segment_discards hl hexec hres hgot hblk hseg hnew hw hall⟩
  · intro hslot hnone hrun hform ht
    refine ⟨fun e => ?_, fun ts hts hts8 i hi => ?_⟩
    · exact segment_revoked hslot hnone hrun hform ht e
    · simp only [List.mem_cons, List.not_mem_nil, or_false] at hi
      obtain rfl | rfl | rfl | rfl := hi <;> exact ⟨_, rfl, chainCommand_revoked hrun hform ht hts hts8 hslot _⟩
  · exact fun v m hm hst hw => ⟨fun hv => verificationDone_good hs hm hst hw hv, fun hv => verificationDone_bad hs hl hm hst hw hv⟩
  · exact fun x hx => ⟨fun hu => sessionIdle_busy hx hu, fun hu => sessionIdle_ends hx hs hl hu⟩
  · exact fun ts r tok x hrun hform ht hts hts8 hcr hslot hr hx =>
      ⟨fun hown => commandAbort_ends hs hl hrun hform ht hts hts8 hcr hslot hr hx hown,
        fun hown => commandAbort_refused hl hrun hform ht hts hts8 hcr hslot hr hx hown⟩

/-! ## Group links: frames wait or leave, none is lost (R321 to R327) -/

/-- A frame as it leaves: stamped with its length, sequence number and credits. -/
def LeavesAs (f g : GlFrame) : Prop :=
  g.body = f.body ∧ g.hdr.src = f.hdr.src ∧ g.hdr.dst = f.hdr.dst ∧ g.hdr.epoch = f.hdr.epoch ∧ g.hdr.relayed = f.hdr.relayed ∧
    g.hdr.mcc = f.hdr.mcc

theorem LeavesAs.refl (f : GlFrame) : LeavesAs f f := ⟨rfl, rfl, rfl, rfl, rfl, rfl⟩

theorem LeavesAs.trans {f g k : GlFrame} (h : LeavesAs f g) (hk : LeavesAs g k) : LeavesAs f k := by
  obtain ⟨a1, a2, a3, a4, a5, a6⟩ := h
  obtain ⟨b1, b2, b3, b4, b5, b6⟩ := hk
  exact ⟨b1.trans a1, b2.trans a2, b3.trans a3, b4.trans a4, b5.trans a5, b6.trans a6⟩

/-- A step in which each link's frames leave or go on waiting, and the links keep what else they hold. -/
structure LinkSteps (s t : State) : Prop where
  frames : ∃ o, t.out = o ++ s.out ∧ ∀ l, ∀ f ∈ (s.grp.br l).queues.flatten,
    ∃ g, LeavesAs f g ∧ (Out.gl l g ∈ o ∨ g ∈ (t.grp.br l).queues.flatten)
  bridge : ∀ l, t.grp.br l = { s.grp.br l with txSeq := (t.grp.br l).txSeq, txFrames := (t.grp.br l).txFrames, queues := (t.grp.br l).queues }
  length : ∀ l, (t.grp.br l).queues.length = (s.grp.br l).queues.length

namespace LinkSteps

theorem of_same {s t : State} (hbr : ∀ l, t.grp.br l = s.grp.br l) (hout : ∃ o, t.out = o ++ s.out) : LinkSteps s t := by
  obtain ⟨o, ho⟩ := hout
  refine ⟨⟨o, ho, fun l f hf => ⟨f, .refl f, .inr (by rwa [hbr])⟩⟩, fun l => ?_, fun l => by rw [hbr]⟩
  rw [hbr]

theorem refl (s : State) : LinkSteps s s := of_same (fun _ => rfl) ⟨[], rfl⟩

theorem trans {s t u : State} (h : LinkSteps s t) (k : LinkSteps t u) : LinkSteps s u := by
  obtain ⟨⟨o, ho, hf⟩, hb, hl⟩ := h
  obtain ⟨⟨p, hp, kf⟩, kb, kl⟩ := k
  refine ⟨⟨p ++ o, by rw [hp, ho, List.append_assoc], fun l f hfl => ?_⟩, fun l => ?_, fun l => (kl l).trans (hl l)⟩
  · obtain ⟨g, hg, hgo | hgq⟩ := hf l f hfl
    · exact ⟨g, hg, .inl (List.mem_append_right _ hgo)⟩
    · obtain ⟨k, hk, hko | hkq⟩ := kf l g hgq
      · exact ⟨k, hg.trans hk, .inl (List.mem_append_left _ hko)⟩
      · exact ⟨k, hg.trans hk, .inr hkq⟩
  · rw [kb l, hb l]

end LinkSteps

theorem modBr_br_self (s : State) (l : GLink) (f : Bridge → Bridge) : (modBr s l f).grp.br l = f (s.grp.br l) := by cases l <;> rfl

theorem modBr_br_other (s : State) {l k : GLink} (h : k ≠ l) (f : Bridge → Bridge) : (modBr s l f).grp.br k = s.grp.br k := by
  cases l with
  | left => cases k with
    | left => exact absurd rfl h
    | right => rfl
  | right => cases k with
    | left => rfl
    | right => exact absurd rfl h

theorem mem_flatten_iff_nthD {α : Type} {qs : List (List α)} {f : α} : f ∈ qs.flatten ↔ ∃ i, i < qs.length ∧ f ∈ nthD qs i [] := by
  rw [List.mem_flatten]
  constructor
  · rintro ⟨q, hq, hf⟩
    obtain ⟨i, hi, rfl⟩ := List.mem_iff_getElem.1 hq
    exact ⟨i, hi, by rwa [nthD_eq_getElem _ _ hi]⟩
  · rintro ⟨i, hi, hf⟩
    exact ⟨_, nthD_mem [] hi, hf⟩

/-- After one virtual channel's queue is replaced, a frame waits that stood in another channel's queue or stands in the new one. -/
theorem mem_flatten_setNth {α : Type} {qs : List (List α)} {vc i : Nat} {r : List α} {f : α} (hi : i < qs.length)
    (hf : if i = vc then f ∈ r else f ∈ nthD qs i []) : f ∈ (setNth qs vc r).flatten := by
  refine mem_flatten_iff_nthD.2 ⟨i, by rwa [setNth_length], ?_⟩
  split at hf
  next h =>
    subst h
    rwa [nthD_setNth_self _ _ _ hi]
  next h => rwa [nthD_setNth_ne _ _ _ h]

/-- A frame with the stamp that it leaves with (R326). -/
def stamped (s : State) (l : GLink) (vc : Nat) (f : GlFrame) : GlFrame :=
  { f with hdr := { f.hdr with len := f.body.len, vseq := nthD (s.grp.br l).txSeq vc 0, cred := (s.grp.br l).freed } }

/-- What sending a channel's queue does: its frames leave while there is credit, the rest goes on waiting. -/
theorem pumpVc_spec (l : GLink) (vc : Nat) : ∀ (q : List GlFrame) (s : State), ∃ o rest, (pumpVc l vc q s).out = o ++ s.out ∧
    (∀ f ∈ q, (∃ g, LeavesAs f g ∧ Out.gl l g ∈ o) ∨ f ∈ rest) ∧
    (pumpVc l vc q s).grp.br l = { s.grp.br l with
      txSeq := ((pumpVc l vc q s).grp.br l).txSeq, txFrames := ((pumpVc l vc q s).grp.br l).txFrames
      queues := setNth (s.grp.br l).queues vc rest } ∧
    ∀ k, k ≠ l → (pumpVc l vc q s).grp.br k = s.grp.br k
  | [], s => ⟨[], [], by cases l <;> rfl, by simp, by rw [pumpVc, modBr_br_self], fun k hk => by rw [pumpVc, modBr_br_other s hk]⟩
  | f :: fs, s => by
    unfold pumpVc
    split
    · have hout : ∃ g, LeavesAs f g ∧ (emitFrame s l vc f).out = [Out.gl l g] ++ s.out := by
        refine ⟨stamped s l vc f, ⟨rfl, rfl, rfl, rfl, rfl, rfl⟩, ?_⟩
        unfold emitFrame
        dsimp only
        rw [pmuCount_eq (by decide)]
        cases l <;> rfl
      have hpmu : (pmuCount s 12 0x300 1).grp = s.grp := pmuCount_grp ..
      have hself : (emitFrame s l vc f).grp.br l = { s.grp.br l with
          txSeq := ((emitFrame s l vc f).grp.br l).txSeq, txFrames := ((emitFrame s l vc f).grp.br l).txFrames } := by
        have h : (emitFrame s l vc f).grp.br l = _ := modBr_br_self (pmuCount s 12 0x300 1) l _
        rw [h, hpmu]
      have hother (k : GLink) (hk : k ≠ l) : (emitFrame s l vc f).grp.br k = s.grp.br k := by
        have h : (emitFrame s l vc f).grp.br k = _ := modBr_br_other (pmuCount s 12 0x300 1) hk _
        rw [h, hpmu]
      obtain ⟨o, rest, ho, hf, hb, hk⟩ := pumpVc_spec l vc fs (emitFrame s l vc f)
      obtain ⟨g, hg, hgo⟩ := hout
      refine ⟨o ++ [Out.gl l g], rest, by rw [ho, hgo, List.append_assoc], ?_, ?_, fun k hkl => (hk k hkl).trans (hother k hkl)⟩
      · intro x hx
        obtain rfl | hx := List.mem_cons.1 hx
        · exact .inl ⟨g, hg, List.mem_append_right _ (.head _)⟩
        · obtain ⟨y, hy, hyo⟩ | hr := hf x hx
          · exact .inl ⟨y, hy, List.mem_append_left _ hyo⟩
          · exact .inr hr
      · rw [hb, hself]
    · exact ⟨[], f :: fs, by cases l <;> rfl, fun x hx => .inr hx, by rw [modBr_br_self], fun k hk => modBr_br_other s hk _⟩

/-- Sending a channel's queue loses no frame. -/
theorem linkSteps_pumpVc (s : State) (l : GLink) (vc : Nat) : LinkSteps s (pumpVc l vc (nthD (s.grp.br l).queues vc []) s) := by
  obtain ⟨o, rest, ho, hf, hb, hk⟩ := pumpVc_spec l vc (nthD (s.grp.br l).queues vc []) s
  generalize pumpVc l vc (nthD (s.grp.br l).queues vc []) s = t at *
  refine ⟨⟨o, ho, fun k f hfk => ?_⟩, fun k => ?_, fun k => ?_⟩
  · by_cases hkl : k = l
    · subst hkl
      obtain ⟨i, hi, hfi⟩ := mem_flatten_iff_nthD.1 hfk
      by_cases hiv : i = vc
      · subst hiv
        obtain ⟨g, hg, hgo⟩ | hr := hf f hfi
        · exact ⟨g, hg, .inl hgo⟩
        · refine ⟨f, .refl f, .inr ?_⟩
          rw [hb]
          exact mem_flatten_setNth hi (by rwa [if_pos rfl])
      · refine ⟨f, .refl f, .inr ?_⟩
        rw [hb]
        exact mem_flatten_setNth hi (by rwa [if_neg hiv])
    · exact ⟨f, .refl f, .inr (by rwa [hk k hkl])⟩
  · by_cases hkl : k = l
    · subst hkl
      rw [hb]
    · rw [hk k hkl]
  · by_cases hkl : k = l
    · subst hkl
      rw [hb]
      exact setNth_length ..
    · rw [hk k hkl]

theorem linkSteps_pump (s : State) (l : GLink) : LinkSteps s (pump s l) := by
  unfold pump
  simp only [List.foldl]
  exact (((linkSteps_pumpVc s l 0).trans (linkSteps_pumpVc _ l 1)).trans (linkSteps_pumpVc _ l 3)).trans (linkSteps_pumpVc _ l 2)

/-- A frame that joins a queue. -/
theorem linkSteps_enqueue (s : State) (l : GLink) (vc : Nat) (f : GlFrame) :
    LinkSteps s (modBr s l (fun b => { b with queues := modNth b.queues vc (· ++ [f]) })) := by
  have hself := modBr_br_self s l (fun b => { b with queues := modNth b.queues vc (· ++ [f]) })
  have hother (k : GLink) (hk : k ≠ l) := modBr_br_other s hk (fun b => { b with queues := modNth b.queues vc (· ++ [f]) })
  have hout : (modBr s l (fun b => { b with queues := modNth b.queues vc (· ++ [f]) })).out = s.out := by cases l <;> rfl
  generalize modBr s l (fun b => { b with queues := modNth b.queues vc (· ++ [f]) }) = t at *
  refine ⟨⟨[], hout, fun k x hx => ⟨x, .refl x, .inr ?_⟩⟩, fun k => ?_, fun k => ?_⟩
  · by_cases hkl : k = l
    · subst hkl
      obtain ⟨i, hi, hxi⟩ := mem_flatten_iff_nthD.1 hx
      rw [hself]
      refine mem_flatten_iff_nthD.2 ⟨i, by rwa [modNth_length], ?_⟩
      by_cases hiv : i = vc
      · subst hiv
        rw [nthD_modNth_self _ _ _ _ hi]
        exact List.mem_append_left _ hxi
      · rwa [nthD_modNth_ne _ _ _ hiv]
    · rwa [hother k hkl]
  · by_cases hkl : k = l
    · subst hkl
      rw [hself]
    · rw [hother k hkl]
  · by_cases hkl : k = l
    · subst hkl
      rw [hself]
      exact modNth_length ..
    · rw [hother k hkl]

theorem linkSteps_putFrame (s : State) (l : GLink) (f : GlFrame) : LinkSteps s (putFrame s l f) := by
  unfold putFrame
  split
  · exact (linkSteps_enqueue s l _ f).trans (linkSteps_pump _ l)
  · exact .refl s

theorem linkSteps_passTag (s : State) : LinkSteps s (passTag s) := by
  rw [passTag_eq]
  exact .of_same (fun _ => rfl) ⟨[], rfl⟩

theorem linkSteps_glSend (s : State) (l : GLink) (dst : Nat) (b : GlBody) (tag : BitVec 18) : LinkSteps s (glSend s l dst b tag) := by
  unfold glSend
  split
  · exact (linkSteps_passTag s).trans (linkSteps_putFrame _ l _)
  · exact linkSteps_putFrame s l _

theorem linkSteps_sendPeer (s : State) (pos : Nat) (b : GlBody) : LinkSteps s (sendPeer s pos b) := linkSteps_glSend ..

/-- A frame given to a link that passes frames is on its way: it left or waits. -/
theorem putFrame_sends {s : State} {l : GLink} {f : GlFrame} (hl : linkOk s l = true) (hvc : f.body.vc < (s.grp.br l).queues.length) :
    ∃ o, (putFrame s l f).out = o ++ s.out ∧ ∃ g, LeavesAs f g ∧ (Out.gl l g ∈ o ∨ g ∈ ((putFrame s l f).grp.br l).queues.flatten) := by
  have hself := modBr_br_self s l (fun b => { b with queues := modNth b.queues f.body.vc (· ++ [f]) })
  have hout : (modBr s l (fun b => { b with queues := modNth b.queues f.body.vc (· ++ [f]) })).out = s.out := by cases l <;> rfl
  have hin : f ∈ ((modBr s l (fun b => { b with queues := modNth b.queues f.body.vc (· ++ [f]) })).grp.br l).queues.flatten := by
    rw [hself]
    refine mem_flatten_iff_nthD.2 ⟨f.body.vc, by rwa [modNth_length], ?_⟩
    rw [nthD_modNth_self _ _ _ _ hvc]
    exact List.mem_append_right _ (.head _)
  obtain ⟨o, ho, hf⟩ := (linkSteps_pump (modBr s l (fun b => { b with queues := modNth b.queues f.body.vc (· ++ [f]) })) l).frames
  unfold putFrame
  rw [if_pos hl]
  exact ⟨o, by rw [ho, hout], hf l f hin⟩

/-! ## Group links: a frame heard, and the frames that answer it (R322, R326, R341) -/

/-- Frame `f`, given to link `l` since state `s`, left or waits in `t`. -/
def OnWay (s t : State) (l : GLink) (f : GlFrame) : Prop :=
  ∃ o, t.out = o ++ s.out ∧ ∃ g, LeavesAs f g ∧ (Out.gl l g ∈ o ∨ g ∈ (t.grp.br l).queues.flatten)

theorem newOut_of_append {s t : State} {o : List Out} (h : t.out = o ++ s.out) : newOut s t = o := by
  have hlen : t.out.length - s.out.length = o.length := by rw [h, List.length_append]; omega
  rw [newOut, hlen, h, List.take_left]

namespace OnWay

theorem mem_framesOn {s t : State} {l : GLink} {f : GlFrame} (h : OnWay s t l f) : ∃ g ∈ framesOn s t l, LeavesAs f g := by
  obtain ⟨o, ho, g, hg, hgo⟩ := h
  refine ⟨g, ?_, hg⟩
  rw [framesOn, newOut_of_append ho]
  obtain hgo | hgq := hgo
  · exact List.mem_append_left _ (List.mem_filterMap.2 ⟨_, hgo, if_pos rfl⟩)
  · exact List.mem_append_right _ hgq

theorem then_ {s t u : State} {l : GLink} {f : GlFrame} (h : OnWay s t l f) (k : LinkSteps t u) : OnWay s u l f := by
  obtain ⟨o, ho, g, hg, hgo⟩ := h
  obtain ⟨⟨p, hp, hf⟩, -, -⟩ := k
  refine ⟨p ++ o, by rw [hp, ho, List.append_assoc], ?_⟩
  obtain hgo | hgq := hgo
  · exact ⟨g, hg, .inl (List.mem_append_right _ hgo)⟩
  · obtain ⟨x, hx, hxo | hxq⟩ := hf l g hgq
    · exact ⟨x, hg.trans hx, .inl (List.mem_append_left _ hxo)⟩
    · exact ⟨x, hg.trans hx, .inr hxq⟩

theorem since {s t u : State} {l : GLink} {f : GlFrame} (hout : ∃ o, t.out = o ++ s.out) (h : OnWay t u l f) : OnWay s u l f := by
  obtain ⟨o, ho⟩ := hout
  obtain ⟨p, hp, g, hg, hgo⟩ := h
  refine ⟨p ++ o, by rw [hp, ho, List.append_assoc], g, hg, ?_⟩
  obtain hgo | hgq := hgo
  · exact .inl (List.mem_append_left _ hgo)
  · exact .inr hgq

theorem sends {s t : State} {l : GLink} {dst : Nat} {b : GlBody} {tag : BitVec 18} {mcc : Mcc} {p : GlBody → Bool}
    (h : OnWay s t l { hdr := { src := ownPos s, dst, epoch := s.cul.cur.epoch, tag, mcc }, body := b }) (hp : p b = true) : Sends s t l dst p := by
  obtain ⟨g, hg, hbody, hsrc, hdst, hepoch, -, -⟩ := h.mem_framesOn
  exact ⟨g, hg, hsrc, hdst, hepoch, by rwa [hbody]⟩

end OnWay

theorem glSend_onWay {s : State} {l : GLink} (dst : Nat) {b : GlBody} (tag : BitVec 18) (hl : linkOk s l = true)
    (hvc : b.vc < (s.grp.br l).queues.length) :
    OnWay s (glSend s l dst b tag) l { hdr := { src := ownPos s, dst, epoch := s.cul.cur.epoch, tag, mcc := s.cyc.mcc }, body := b } := by
  unfold glSend
  split
  · have hpass := putFrame_sends (s := passTag s) (l := l)
      (f := { hdr := { src := ownPos s, dst, epoch := s.cul.cur.epoch, tag, mcc := s.cyc.mcc }, body := b })
      (by rw [passTag_eq]; exact hl) (by rw [passTag_eq]; exact hvc)
    exact OnWay.since ⟨[], by rw [passTag_eq]; rfl⟩ hpass
  · exact putFrame_sends hl hvc

theorem ownPos_le (s : State) : ownPos s ≤ 3 := by
  unfold ownPos
  split
  · split_ifs <;> simp
  · simp

/-- A member's link to the peer over a link is that link. -/
theorem linkTo_peerPos {s : State} (h : ownPos s ≠ 0) (l : GLink) : linkTo (ownPos s) (peerPos s l) = l := by
  have hle := ownPos_le s
  unfold peerPos
  generalize ownPos s = p at *
  obtain rfl | rfl | rfl : p = 1 ∨ p = 2 ∨ p = 3 := by omega
  all_goals cases l <;> rfl

theorem sendPeer_over {s : State} {l : GLink} (hown : ownPos s ≠ 0) (hl : linkOk s l = true) (b : GlBody) :
    sendPeer s (peerPos s l) b = glSend s l (peerPos s l) b := by
  unfold sendPeer
  dsimp only
  rw [linkTo_peerPos hown, if_pos hl]

theorem sendPeer_onWay {s : State} {l : GLink} (hown : ownPos s ≠ 0) (hl : linkOk s l = true) {b : GlBody}
    (hvc : b.vc < (s.grp.br l).queues.length) : OnWay s (sendPeer s (peerPos s l) b) l
      { hdr := { src := ownPos s, dst := peerPos s l, epoch := s.cul.cur.epoch, tag := 0, mcc := s.cyc.mcc }, body := b } := by
  rw [sendPeer_over hown hl]
  exact glSend_onWay _ 0 hl hvc

/-! ### The state after a frame is heard -/

/-- The state as a frame leaves it before it does anything (R322, R326). -/
def heard (s : State) (l : GLink) (h : GlHdr) (b : GlBody) : State :=
  pump (modBr (pmuCount s 12 0x301 1) l (fun x => { x with
    rxFrames := x.rxFrames + 1, farFreed := h.cred, freed := setNth x.freed b.vc (h.vseq + 1) })) l

/-- What holds of the links after a frame is heard on `l`. -/
structure AfterFrame (s r : State) (l : GLink) (h : GlHdr) (vc : Nat) : Prop where
  links : LinksOnly s r
  out : ∃ o, r.out = o ++ s.out
  got : Got s r l h vc
  length : ∀ k, (r.grp.br k).queues.length = (s.grp.br k).queues.length
  passes : ∀ k, (r.grp.br k).up = (s.grp.br k).up ∧ (r.grp.br k).wrong = (s.grp.br k).wrong

theorem LinkSteps.passes {s t : State} (h : LinkSteps s t) (l : GLink) : (t.grp.br l).up = (s.grp.br l).up ∧
    (t.grp.br l).wrong = (s.grp.br l).wrong := by
  rw [h.bridge l]
  exact ⟨rfl, rfl⟩

/-- Later sending keeps what holds after the frame. -/
theorem Got.then_ {s r t : State} {l : GLink} {h : GlHdr} {vc : Nat} (hr : Got s r l h vc) (k : LinkSteps r t) : Got s t l h vc := by
  obtain ⟨hrx, hfar, hfreed⟩ := hr
  rw [Got, k.bridge l]
  exact ⟨hrx, hfar, hfreed⟩

theorem afterFrame_heard (s : State) (l : GLink) (h : GlHdr) (b : GlBody) : AfterFrame s (heard s l h b) l h b.vc := by
  let f (x : Bridge) : Bridge := { x with rxFrames := x.rxFrames + 1, farFreed := h.cred, freed := setNth x.freed b.vc (h.vseq + 1) }
  have hgrp : (pmuCount s 12 0x301 1).grp = s.grp := pmuCount_grp ..
  have hsteps : LinkSteps (modBr (pmuCount s 12 0x301 1) l f) (heard s l h b) := linkSteps_pump _ l
  have hout : (modBr (pmuCount s 12 0x301 1) l f).out = s.out := by
    rw [pmuCount_eq (by decide)]
    cases l <;> rfl
  have hself : (modBr (pmuCount s 12 0x301 1) l f).grp.br l = f (s.grp.br l) := by rw [modBr_br_self, hgrp]
  have hother (k : GLink) (hk : k ≠ l) : (modBr (pmuCount s 12 0x301 1) l f).grp.br k = s.grp.br k := by rw [modBr_br_other _ hk, hgrp]
  have hkept (k : GLink) : ((modBr (pmuCount s 12 0x301 1) l f).grp.br k).queues = (s.grp.br k).queues ∧
      ((modBr (pmuCount s 12 0x301 1) l f).grp.br k).up = (s.grp.br k).up ∧
        ((modBr (pmuCount s 12 0x301 1) l f).grp.br k).wrong = (s.grp.br k).wrong := by
    by_cases hk : k = l
    · subst hk
      rw [hself]
      exact ⟨rfl, rfl, rfl⟩
    · rw [hother k hk]
      exact ⟨rfl, rfl, rfl⟩
  refine ⟨linksOnly_received s l f, ?_, ?_, fun k => (hsteps.length k).trans (by rw [(hkept k).1]), fun k => ?_⟩
  · obtain ⟨o, ho, -⟩ := hsteps.frames
    exact ⟨o, by rw [ho, hout]⟩
  · refine Got.then_ ?_ hsteps
    rw [Got, hself]
    exact ⟨rfl, rfl, rfl⟩
  · obtain ⟨hup, hwrong⟩ := hsteps.passes k
    exact ⟨hup.trans (hkept k).2.1, hwrong.trans (hkept k).2.2⟩

/-- A state with other links, monitors and outputs. -/
def withLinks (s : State) (bl br : Bridge) (p : Pmu) (o : List Out) : State :=
  { s with grp := { s.grp with brL := bl, brR := br }, pmu := p, out := o }

theorem linksOnly_iff {s t : State} : LinksOnly s t ↔ ∃ bl br p o, t = withLinks s bl br p o := by
  constructor
  · exact fun h => ⟨_, _, _, _, h⟩
  · rintro ⟨bl, br, p, o, rfl⟩
    rfl

/-! ## Group links: a peer lost, answers to orders and targets (R335, R338, R341) -/

theorem pushCompl_out (s : State) (n : Nat) (rec : List Byte) : (pushCompl s n rec).out = s.out := by
  unfold pushCompl
  dsimp only
  split
  · rfl
  split
  · rw [dramWrite_eq]
    rfl
  · rfl

theorem mailFail_out (s : State) (e : FailEnt) (req : BitVec 16) (drop : Bool) (retries : Nat) : (mailFail s e req drop retries).out = s.out := by
  unfold mailFail
  dsimp only
  split
  · split <;> rfl
  split
  · split <;> rfl
  split
  · split
    · rfl
    · exact pushCompl_out ..
  · rfl

/-- A failed posted write that marks no signal leaves the image and the outputs. -/
theorem failPosted_quiet (s : State) (e : FailEnt) (req : BitVec 16) (drop : Bool) (retries : Nat) :
    (failPosted s e [] req drop retries).out = s.out ∧ (failPosted s e [] req drop retries).pim = s.pim := by
  have hmail := (mailFail_within { s with txe := logFail s.txe e } e req drop retries).pim_eq
  have hpim : (failPosted s e [] req drop retries).pim = (mailFail { s with txe := logFail s.txe e } e req drop retries).pim := by
    unfold failPosted
    simp
  exact ⟨mailFail_out { s with txe := logFail s.txe e } e req drop retries, hpim.trans hmail⟩

/-- A tag that ends leaves the image and the outputs. -/
theorem finishTag_quiet (s : State) (t : TagEnt) (st : Status) (target : Mcc) (sid : Sid) (len : Nat) (split : Bool) :
    (finishTag s t st target sid len split).out = s.out ∧ (finishTag s t st target sid len split).pim = s.pim := by
  unfold finishTag
  extract_lets _ _ s1
  split
  · split
    · exact failPosted_quiet s1 _ _ _ _
    · exact ⟨rfl, rfl⟩
  · split
    · exact ⟨rfl, rfl⟩
    · split
      · exact ⟨rfl, rfl⟩
      · exact ⟨pushCompl_out s1 _ _, (complete_within s1 _ _).pim_eq⟩

theorem resetTags_quiet (s : State) (u : TUnit) : (resetTags s u).out = s.out ∧ (resetTags s u).pim = s.pim := by
  have hfold (l : List TagEnt) (v : State) :
      (l.foldl (fun s t => finishTag s t .unitReset) v).out = v.out ∧ (l.foldl (fun s t => finishTag s t .unitReset) v).pim = v.pim := by
    induction l generalizing v with
    | nil => exact ⟨rfl, rfl⟩
    | cons t l ih =>
      obtain ⟨hout, hpim⟩ := ih (finishTag v t .unitReset)
      obtain ⟨h1, h2⟩ := finishTag_quiet v t .unitReset 0 0 0 false
      exact ⟨hout.trans h1, hpim.trans h2⟩
  exact hfold _ s

/-- A peer that is lost ends the tags of its link; the roles, the orders and the links stay (R338). -/
theorem peerLost_keeps (s : State) (pos : Nat) : LinkSteps s (peerLost s pos) ∧ (peerLost s pos).pim = s.pim ∧
    (peerLost s pos).grp.roles = s.grp.roles ∧ (peerLost s pos).grp.role = s.grp.role ∧ (peerLost s pos).grp.swapDue = s.grp.swapDue := by
  unfold peerLost
  dsimp only
  split
  · exact ⟨.refl s, rfl, rfl, rfl, rfl⟩
  · generalize linkTo (ownPos s) pos = l
    have hgrp : (bumpEpoch (modPeer s l (fun p => { p with lost := true })) l.peer).grp = (modPeer s l (fun p => { p with lost := true })).grp :=
      (bumpEpoch_within ..).grp_eq
    obtain ⟨hout, hpim⟩ := resetTags_quiet
      { modPeer s l (fun p => { p with lost := true }) with
        txe := { s.txe with epochs := modNth s.txe.epochs (l.peer.num - 1) (· + 1) } } l.peer
    refine ⟨.of_same (fun k => by rw [hgrp]; cases l <;> cases k <;> rfl) ⟨[], ?_⟩, ?_, ?_, ?_, ?_⟩
    · exact hout.trans (by cases l <;> rfl)
    · exact hpim.trans (by cases l <;> rfl)
    all_goals
      rw [hgrp]
      cases l <;> rfl

/-! ### Answers -/

/-- Since `s` the frame with body `b` for position `dst` was given to link `l`. -/
def Answers (s t : State) (l : GLink) (dst : Nat) (b : GlBody) : Prop :=
  ∃ tag mcc, OnWay s t l { hdr := { src := ownPos s, dst, epoch := s.cul.cur.epoch, tag, mcc }, body := b }

namespace Answers

theorem then_ {s t u : State} {l : GLink} {dst : Nat} {b : GlBody} (h : Answers s t l dst b) (k : LinkSteps t u) : Answers s u l dst b := by
  obtain ⟨tag, mcc, h⟩ := h
  exact ⟨tag, mcc, h.then_ k⟩

theorem sends {s t : State} {l : GLink} {dst : Nat} {b : GlBody} {p : GlBody → Bool} (h : Answers s t l dst b) (hp : p b = true) :
    Sends s t l dst p := by
  obtain ⟨tag, mcc, h⟩ := h
  exact h.sends hp

end Answers

/-- What a later state must keep for a frame to be sent from it as from `s`. -/
structure SameSender (s u : State) (l : GLink) : Prop where
  out : ∃ o, u.out = o ++ s.out
  own : ownPos u = ownPos s
  epoch : u.cul.cur.epoch = s.cul.cur.epoch
  passes : linkOk u l = linkOk s l
  length : (u.grp.br l).queues.length = (s.grp.br l).queues.length

/-- A frame sent to the peer over a link that passes frames is on its way. -/
theorem sendPeer_answers {s u : State} {l : GLink} (hu : SameSender s u l) (hl : linkOk s l = true) (hown : ownPos s ≠ 0)
    (hlen : (s.grp.br l).queues.length = 4) {b : GlBody} (hvc : b.vc < 4) : Answers s (sendPeer u (peerPos s l) b) l (peerPos s l) b := by
  obtain ⟨hout, how, hep, hok, hq⟩ := hu
  have hpeer : peerPos u l = peerPos s l := by rw [peerPos, peerPos, how]
  have h := sendPeer_onWay (s := u) (l := l) (b := b) (by rwa [how]) (by rwa [hok]) (by rw [hq, hlen]; exact hvc)
  rw [how, hep, hpeer] at h
  exact ⟨0, u.cyc.mcc, h.since hout⟩

theorem SameSender.then_ {s u v : State} {l : GLink} (h : SameSender s u l) (k : LinkSteps u v) (hpin : v.pin = u.pin) (hcul : v.cul = u.cul)
    (hci : v.ci = u.ci) : SameSender s v l := by
  obtain ⟨⟨o, ho⟩, how, hep, hok, hq⟩ := h
  obtain ⟨⟨p, hp, -⟩, -, hlen⟩ := id k
  refine ⟨⟨p ++ o, by rw [hp, ho, List.append_assoc]⟩, ?_, by rw [hcul, hep], ?_, (hlen l).trans hq⟩
  · rw [← how, ownPos, ownPos, hpin]
  · obtain ⟨hup, hwrong⟩ := k.passes l
    rw [← hok, linkOk, linkOk, inGroup, inGroup, hci, hup, hwrong]

theorem AfterFrame.sameSender {s r : State} {l : GLink} {h : GlHdr} {vc : Nat} (hr : AfterFrame s r l h vc) (k : GLink) : SameSender s r k := by
  obtain ⟨hlinks, hout, -, hlen, hpass⟩ := hr
  obtain ⟨bl, br, p, o, rfl⟩ := linksOnly_iff.1 hlinks
  refine ⟨hout, rfl, rfl, ?_, hlen k⟩
  obtain ⟨hup, hwrong⟩ := hpass k
  rw [linkOk, linkOk, hup, hwrong]
  rfl

theorem linksOnly_sendPeer (s : State) (pos : Nat) (b : GlBody) : LinksOnly (if b.begins then tagged 1 s else s) (sendPeer s pos b) :=
  linksOnly_glSend ..

theorem linksOnly_ackFrame (s : State) (h : GlHdr) (b : GlBody) (st : Status) : LinksOnly s (ackFrame s h b st) :=
  linksOnly_sendPeer ..

theorem linksOnly_tagged {s t : State} (h : LinksOnly s t) (n : Nat) : LinksOnly (tagged n s) (tagged n t) := by
  obtain ⟨bl, br, p, o, rfl⟩ := linksOnly_iff.1 h
  rfl

/-- An exchange begun with both peers takes a tag for each. -/
theorem linksOnly_sendPeers (s : State) {b : GlBody} (hb : b.begins = true) : LinksOnly (tagged 2 s) (sendPeers s b) := by
  have h1 := linksOnly_sendPeer s (peerPos s .left) b
  have h2 := linksOnly_sendPeer (sendPeer s (peerPos s .left) b) (peerPos s .right) b
  rw [if_pos hb] at h1 h2
  exact (linksOnly_tagged h1 1).trans h2

/-! ## Group links: frames for another position are relayed (R322) -/

theorem pump_br_other (s : State) {l k : GLink} (h : k ≠ l) : (pump s l).grp.br k = s.grp.br k := by
  have hvc (s : State) (vc : Nat) : (pumpVc l vc (nthD (s.grp.br l).queues vc []) s).grp.br k = s.grp.br k := by
    obtain ⟨-, -, -, -, -, hk⟩ := pumpVc_spec l vc (nthD (s.grp.br l).queues vc []) s
    exact hk k h
  unfold pump
  simp only [List.foldl]
  rw [hvc, hvc, hvc, hvc]

theorem heard_br_other (s : State) {l k : GLink} (hk : k ≠ l) (h : GlHdr) (b : GlBody) : (heard s l h b).grp.br k = s.grp.br k := by
  rw [heard, pump_br_other _ hk, modBr_br_other _ hk, pmuCount_grp]

theorem GLink.other_ne (l : GLink) : l.other ≠ l := by cases l <;> decide

/-- A frame for another position goes to the relay. -/
theorem glRecv_relays {s : State} {l : GLink} {h : GlHdr} {b : GlBody} (k : State → State) (hl : linkOk s l = true) (hcrc : h.crcOk = true)
    (hlisted : h.listed = true) (hdst : h.dst ≠ 0) (hown : h.dst ≠ ownPos s) (hvc : b.vc ≤ 1) :
    glRecv s l h b k = relay (heard s l h b) l h b := by
  have hgo : (decide (b.vc ≤ 1) && h.dst != 0 && h.dst != ownPos s) = true := by simp [hvc, hdst, hown]
  simp [glRecv, hl, hcrc, hlisted, hgo, heard]

/-- The states that remember no relayed frame but this one more. -/
def withHop (s : State) (x : HopId) : State := { s with grp := { s.grp with hopIds := (x :: s.grp.hopIds).take 16 } }

/-- The identifier that a relayed frame gets on the link it goes out on. -/
def hopId (s : State) (l : GLink) (h : GlHdr) (b : GlBody) : HopId := ⟨GlHdr.id { h with vseq := (s.grp.br l.other).nextSeq b.vc }, h.id⟩

theorem relay_of_request {b : GlBody} (s : State) (l : GLink) (h : GlHdr) (hb : ∀ type id st, b ≠ .ack type id st) :
    relay s l h b = putFrame (withHop s (hopId s l h b)) l.other { hdr := { h with relayed := true }, body := b } := by
  cases b
  case ack type id st => exact absurd rfl (hb type id st)
  all_goals rfl

theorem relays_request {s : State} {l : GLink} {h : GlHdr} {b : GlBody} (k : State → State) (hb : ∀ type id st, b ≠ .ack type id st)
    (hl : linkOk s l = true) (hcrc : h.crcOk = true) (hlisted : h.listed = true) (hdst : h.dst ≠ 0) (hown : h.dst ≠ ownPos s)
    (hvc : b.vc ≤ 1) (hq : (s.grp.br l.other).queues.length = 4) : Relays s (glRecv s l h b k) l h b := by
  have hr := afterFrame_heard s l h b
  have hother := heard_br_other s l.other_ne h b
  rw [glRecv_relays k hl hcrc hlisted hdst hown hvc, relay_of_request _ l h hb]
  have hhop : hopId (heard s l h b) l h b = hopId s l h b := by rw [hopId, hopId, hother]
  rw [hhop]
  have hlen := hr.length l.other
  have hok := (hr.sameSender l.other).passes
  obtain ⟨hlinks, hout, hgot, -, -⟩ := hr
  generalize heard s l h b = r at *
  have hsteps := linkSteps_putFrame (withHop r (hopId s l h b)) l.other { hdr := { h with relayed := true }, body := b }
  have hput := linksOnly_putFrame (withHop r (hopId s l h b)) l.other { hdr := { h with relayed := true }, body := b }
  have hsend := putFrame_sends (s := withHop r (hopId s l h b)) (l := l.other) (f := { hdr := { h with relayed := true }, body := b })
  generalize putFrame (withHop r (hopId s l h b)) l.other { hdr := { h with relayed := true }, body := b } = t at *
  have hids : t.grp.hopIds = (hopId s l h b :: s.grp.hopIds).take 16 := by
    obtain ⟨bl, br, p, o, rfl⟩ := linksOnly_iff.1 hlinks
    obtain ⟨bl', br', p', o', rfl⟩ := linksOnly_iff.1 hput
    rfl
  refine ⟨?_, ?_, hids, fun hpass => ?_⟩
  · obtain ⟨bl, br, p, o, rfl⟩ := linksOnly_iff.1 hlinks
    obtain ⟨bl', br', p', o', rfl⟩ := linksOnly_iff.1 hput
    rfl
  · have hw : Got s (withHop r (hopId s l h b)) l h b.vc := by cases l <;> exact hgot
    exact hw.then_ hsteps
  · have hw : (withHop r (hopId s l h b)).grp.br l.other = r.grp.br l.other := by cases l <;> rfl
    obtain ⟨g, hg, hbody, hsrc, hdst, -, hrel, hmcc⟩ := OnWay.mem_framesOn
      (OnWay.since hout (hsend (by rw [← hpass, ← hok]; cases l <;> rfl) (by rw [hw, hlen, hq]; exact Nat.lt_of_le_of_lt hvc (by decide))))
    exact ⟨g, hg, hsrc, hdst, hrel, hmcc, hbody⟩

@[simp] theorem ack_vc (type : Nat) (id : Reg32) (st : Status) : (GlBody.ack type id st).vc = 0 := by
  simp [GlBody.vc, GlBody.type]

theorem relays_ack {s : State} {l : GLink} {h : GlHdr} {type : Nat} {id : Reg32} {st : Status} (k : State → State)
    (hl : linkOk s l = true) (hcrc : h.crcOk = true) (hlisted : h.listed = true) (hdst : h.dst ≠ 0) (hown : h.dst ≠ ownPos s)
    (hq : (s.grp.br l.other).queues.length = 4) : RelaysAck s (glRecv s l h (.ack type id st) k) l h type id st := by
  have hr := afterFrame_heard s l h (.ack type id st)
  have hvc : (GlBody.ack type id st).vc ≤ 1 := by simp
  rw [glRecv_relays k hl hcrc hlisted hdst hown hvc]
  have hlen := hr.length l.other
  have hok := (hr.sameSender l.other).passes
  obtain ⟨hlinks, hout, hgot, -, -⟩ := hr
  generalize heard s l h (.ack type id st) = r at *
  have hids : r.grp.hopIds = s.grp.hopIds := by
    obtain ⟨bl, br, p, o, rfl⟩ := linksOnly_iff.1 hlinks
    rfl
  rw [ack_vc] at hgot
  refine ⟨hlinks.trans (linksOnly_putFrame ..), hgot.then_ (linkSteps_putFrame ..), fun hpass => ?_⟩
  obtain ⟨g, hg, hbody, hsrc, hdst, -, hrel, -⟩ := OnWay.mem_framesOn (OnWay.since hout (putFrame_sends (s := r) (l := l.other)
    (f := { hdr := { h with relayed := true }
            body := .ack type ((r.grp.hopIds.find? (fun x => x.given == id)).elim id HopId.came) st })
    (hok.trans hpass) (by simp [hlen, hq])))
  refine ⟨g, hg, hsrc, hdst, hrel, _, hbody, fun x hx => ?_⟩
  rw [hids, hx, List.find?_singleton]
  by_cases hgiven : x.given = id
  · simp [hgiven]
  · simp [hgiven]

/-! ## Orders (R335, R338) -/

/-- What a frame for this module is taken on. -/
theorem glRecv_heard {s : State} {l : GLink} {h : GlHdr} (b : GlBody) (k : State → State) (hh : Hears s l h) :
    glRecv s l h b k = k (heard s l h b) := glRecv_hears b k hh

@[simp] theorem order_vc (k : OrderKind) (o : OrderMsg) : (GlBody.order k o).vc = 0 := by simp [GlBody.vc, GlBody.type]

@[simp] theorem target_vc (m : Mcc) (a : TargetArg) : (GlBody.target m a).vc = 0 := by simp [GlBody.vc, GlBody.type]

theorem linkSteps_ackFrame (s : State) (h : GlHdr) (b : GlBody) (st : Status) : LinkSteps s (ackFrame s h b st) := linkSteps_sendPeer ..

/-- An answer to the peer over a link that passes frames is on its way. -/
theorem ackFrame_answers {s u : State} {l : GLink} {h : GlHdr} {b : GlBody} {st : Status} (hu : SameSender s u l) (hh : Hears s l h)
    (hown : ownPos s ≠ 0) (hsrc : h.src = peerPos s l) : Answers s (ackFrame u h b st) l h.src (.ack b.type h.id st) := by
  obtain ⟨hl, -, -, -, hq, -⟩ := hh
  rw [ackFrame, hsrc]
  exact sendPeer_answers hu hl hown hq (by simp)

/-- The state with the role swap withdrawn. -/
def withoutSwap (s : State) : State := { s with grp := { s.grp with swapDue := none } }

/-- The state with roles due at a boundary. -/
def withDue (s : State) (d : RolesDue) : State := { s with grp := { s.grp with due := some d } }

theorem linkSteps_withoutSwap (s : State) : LinkSteps s (withoutSwap s) := .of_same (fun l => by cases l <;> rfl) ⟨[], rfl⟩

theorem linkSteps_withDue (s : State) (d : RolesDue) : LinkSteps s (withDue s d) := .of_same (fun l => by cases l <;> rfl) ⟨[], rfl⟩

/-- The roles that an order brings at its boundary. -/
def rolesOf (s : State) (k : OrderKind) (o : OrderMsg) : RolesDue :=
  { at_ := o.target, roles := orderRoles s.grp.roles o, takeover := k == .takeover, repeat_ := k == .takeover && releasePassed s }

/-- A member loses the peer that an order names, not itself. -/
def losing (s : State) (pos : Nat) : State := if pos = ownPos s then s else peerLost s pos

theorem losing_keeps (s : State) (pos : Nat) : LinkSteps s (losing s pos) ∧ (losing s pos).pim = s.pim ∧
    (losing s pos).grp.roles = s.grp.roles ∧ (losing s pos).grp.role = s.grp.role ∧ (losing s pos).grp.swapDue = s.grp.swapDue := by
  unfold losing
  split
  · exact ⟨.refl s, rfl, rfl, rfl, rfl⟩
  · exact peerLost_keeps s pos

theorem takeOrder_taken {s r : State} {h : GlHdr} {k : OrderKind} {o : OrderMsg} (hr : LinksOnly s r) (harg : o.arg ≠ 0xFFFFFFFF)
    (hcheck : s.grp.check = none) (hdue : s.grp.due = none) :
    takeOrder r h k o = withDue (losing (withoutSwap (ackFrame r h (.order k o) .ok)) o.subject) (rolesOf s k o) := by
  have hack := hr.trans (linksOnly_ackFrame r h (.order k o) .ok)
  have hrdue : r.grp.due = none := by
    obtain ⟨bl, br, p, q, rfl⟩ := linksOnly_iff.1 hr
    exact hdue
  have hrel : releasePassed r = releasePassed s := by
    obtain ⟨bl, br, p, q, rfl⟩ := linksOnly_iff.1 hr
    rfl
  have hown : ownPos r = ownPos (withoutSwap (ackFrame r h (.order k o) .ok)) := by
    obtain ⟨bl, br, p, q, hrq⟩ := linksOnly_iff.1 hr
    obtain ⟨bl', br', p', q', hq⟩ := linksOnly_iff.1 hack
    rw [hq, hrq]
    rfl
  have hdrop : dropSwap (ackFrame r h (.order k o) .ok) = withoutSwap (ackFrame r h (.order k o) .ok) := by
    have hc : (ackFrame r h (.order k o) .ok).grp.check = none := by
      obtain ⟨bl, br, p, q, hq⟩ := linksOnly_iff.1 hack
      rw [hq]
      exact hcheck
    rw [dropSwap, hc]
    rfl
  have hroles : (withoutSwap (ackFrame r h (.order k o) .ok)).grp.roles = s.grp.roles := by
    obtain ⟨bl, br, p, q, hq⟩ := linksOnly_iff.1 hack
    rw [hq]
    rfl
  unfold takeOrder
  rw [if_neg harg]
  dsimp only
  rw [hrdue, hdrop, hroles, hrel, hown]
  rfl

/-- What an order to take over or to exclude does, apart from the one that only indicates a fault. -/
structure OrderTaken (s t : State) (l : GLink) (h : GlHdr) (k : OrderKind) (o : OrderMsg) : Prop where
  got : Got s t l h 0
  swapDue : t.grp.swapDue = none
  roles : t.grp.roles = s.grp.roles
  role : t.grp.role = s.grp.role
  due : t.grp.due = some (rolesOf s k o)
  answers : Answers s t l h.src (.ack 3 h.id .ok)
  fab : t.fab = s.fab
  cyc : t.cyc = s.cyc
  glb : t.glb = s.glb
  pim : t.pim = s.pim
  safe : t.safe = s.safe
  own : o.subject = ownPos s → LinksOnly { s with grp := { s.grp with due := t.grp.due, swapDue := none } } t

theorem glRecv_orderTaken {s : State} {l : GLink} {h : GlHdr} (hh : Hears s l h) (hown : ownPos s ≠ 0) (hsrc : h.src = peerPos s l)
    {o : OrderMsg} (harg : o.arg ≠ 0xFFFFFFFF) (hcheck : s.grp.check = none) (hdue : s.grp.due = none) (k : OrderKind) :
    OrderTaken s (glRecv s l h (.order k o) (fun s => takeOrder s h k o)) l h k o := by
  rw [glRecv_heard _ _ hh]
  have hr := afterFrame_heard s l h (.order k o)
  have hans := ackFrame_answers (b := .order k o) (st := .ok) (hr.sameSender l) hh hown hsrc
  obtain ⟨hlinks, -, hgot, -, -⟩ := hr
  rw [order_vc] at hgot
  rw [takeOrder_taken hlinks harg hcheck hdue]
  have hack := hlinks.trans (linksOnly_ackFrame (heard s l h (.order k o)) h (.order k o) .ok)
  have hgot1 := hgot.then_ (linkSteps_ackFrame (heard s l h (.order k o)) h (.order k o) .ok)
  generalize ackFrame (heard s l h (.order k o)) h (.order k o) .ok = u at *
  obtain ⟨hsteps, hpim, hroles, hrole, hswap⟩ := losing_keeps (withoutSwap u) o.subject
  have hall := ((linkSteps_withoutSwap u).trans hsteps).trans (linkSteps_withDue _ (rolesOf s k o))
  have hlose : Within [.txe, .evr, .pmu, .dram, .out, .pim, .arb, .grp] (withoutSwap u) (losing (withoutSwap u) o.subject) := by
    unfold losing
    exact .ite .refl ((peerLost_within ..).mono)
  obtain ⟨bl, br, p, q, rfl⟩ := linksOnly_iff.1 hack
  refine ⟨hgot1.then_ hall, hswap, hroles, hrole, rfl, hans.then_ hall, hlose.fab_eq,
    hlose.cyc_eq, hlose.glb_eq, hpim, hlose.safe_eq, fun hsub => ?_⟩
  have hsame : losing (withoutSwap (withLinks s bl br p q)) o.subject = withoutSwap (withLinks s bl br p q) := if_pos hsub
  rw [hsame]
  rfl

/-! ## Orders of the count and of a returning member, and acknowledgements (R337, R341, R345) -/

theorem glRecv_excludesItself {s : State} {l : GLink} {h : GlHdr} (hh : Hears s l h) {o : OrderMsg} (harg : o.arg = 0xFFFFFFFF)
    (hsub : o.subject = ownPos s) : LinksOnly s (glRecv s l h (.order .exclude o) (fun s => takeOrder s h .exclude o)) ∧
      Got s (glRecv s l h (.order .exclude o) (fun s => takeOrder s h .exclude o)) l h 0 := by
  rw [glRecv_heard _ _ hh]
  obtain ⟨hlinks, -, hgot, -, -⟩ := afterFrame_heard s l h (.order .exclude o)
  rw [order_vc] at hgot
  generalize heard s l h (.order .exclude o) = r at *
  have hsame : takeOrder r h .exclude o = r := by
    obtain ⟨bl, br, p, q, rfl⟩ := linksOnly_iff.1 hlinks
    exact (if_pos harg).trans (if_pos hsub)
  rw [hsame]
  exact ⟨hlinks, hgot⟩

/-- The state with a count to adopt at a boundary. -/
def adopting (s : State) (m : Mcc) (count : Reg32) : State := { s with grp := { s.grp with adoptDue := some (m, count) } }

/-- What an order that brings a count to a forming member leaves. -/
theorem adoptMcc_taken {s : State} {l : GLink} {h : GlHdr} (hh : Hears s l h) (hown : ownPos s ≠ 0) (hsrc : h.src = peerPos s l)
    {o : OrderMsg} (hformed : s.grp.formed = false) (m : Bool) (hm : (matchedHb s).any (fun x => x.position == o.issuer) = m) :
    ∃ t, exec (.orderAdoptMcc l h o) s = .next t ∧
      LinksOnly (if m then { s with grp := { s.grp with adoptDue := some (s.cyc.mcc + 16, o.arg) } } else s) t ∧ Got s t l h 0 ∧
      Answers s t l h.src (.ack 3 h.id (if m then .ok else .refusedPolicy)) := by
  refine ⟨_, rfl, ?_⟩
  rw [glRecv_heard _ _ hh]
  have hr := afterFrame_heard s l h (.order .adoptMcc o)
  have hans := ackFrame_answers (b := .order .adoptMcc o) (st := if m then .ok else .refusedPolicy) (hr.sameSender l) hh hown hsrc
  obtain ⟨hlinks, -, hgot, -, -⟩ := hr
  rw [order_vc] at hgot
  generalize heard s l h (.order .adoptMcc o) = r at *
  have hmr : (matchedHb r).any (fun x => x.position == o.issuer) = m := by
    rw [← hm]
    obtain ⟨bl, br, p, q, rfl⟩ := linksOnly_iff.1 hlinks
    rfl
  have hf : r.grp.formed = false := by
    obtain ⟨bl, br, p, q, rfl⟩ := linksOnly_iff.1 hlinks
    exact hformed
  have hcount : r.cyc.mcc = s.cyc.mcc := by
    obtain ⟨bl, br, p, q, rfl⟩ := linksOnly_iff.1 hlinks
    rfl
  have hack := hlinks.trans (linksOnly_ackFrame r h (.order .adoptMcc o) (if m then .ok else .refusedPolicy))
  have hgot1 := hgot.then_ (linkSteps_ackFrame r h (.order .adoptMcc o) (if m then .ok else .refusedPolicy))
  dsimp only
  rw [hmr, hf, hcount]
  cases m with
  | false => exact ⟨hack, hgot1, hans⟩
  | true =>
    generalize ackFrame r h (.order .adoptMcc o) (if true then .ok else .refusedPolicy) = u at *
    have hset : LinkSteps u (adopting u (s.cyc.mcc + 16) o.arg) := .of_same (fun k => by cases k <;> rfl) ⟨[], rfl⟩
    refine ⟨?_, hgot1.then_ hset, hans.then_ hset⟩
    obtain ⟨bl, br, p, q, rfl⟩ := linksOnly_iff.1 hack
    rfl

/-- The roles that an order gives a returning member, with its own place in PROBATION. -/
def probationDue (s : State) (o : OrderMsg) : RolesDue :=
  { at_ := o.target, roles := setNth (orderRoles s.grp.roles o) (ownPos s - 1) GRole.probation }

theorem roleAt_probationDue {s : State} {o : OrderMsg} (hown : ownPos s ≠ 0) :
    roleAt (probationDue s o).roles (ownPos s) = .probation := by
  have hle := ownPos_le s
  have hlen : (orderRoles s.grp.roles o).length = 3 := rfl
  unfold roleAt probationDue
  rw [if_neg hown]
  exact nthD_setNth_self _ _ _ (by rw [hlen]; omega)

theorem roles_taken {s : State} {l : GLink} {h : GlHdr} (hh : Hears s l h) (hown : ownPos s ≠ 0) (hsrc : h.src = peerPos s l) (o : OrderMsg) :
    ∃ t, exec (.orderRoles l h o) s = .next t ∧ Got s t l h 0 ∧ Answers s t l h.src (.ack 3 h.id .ok) ∧
      LinksOnly (if o.subject = ownPos s ∧ s.grp.xferAsked = true then withDue s (probationDue s o) else s) t := by
  refine ⟨_, rfl, ?_⟩
  rw [glRecv_heard _ _ hh]
  have hr := afterFrame_heard s l h (.order .roles o)
  have hans := ackFrame_answers (b := .order .roles o) (st := .ok) (hr.sameSender l) hh hown hsrc
  obtain ⟨hlinks, -, hgot, -, -⟩ := hr
  rw [order_vc] at hgot
  generalize heard s l h (.order .roles o) = r at *
  have hack := hlinks.trans (linksOnly_ackFrame r h (.order .roles o) .ok)
  have hgot1 := hgot.then_ (linkSteps_ackFrame r h (.order .roles o) .ok)
  have hasked : (o.subject = ownPos r ∧ r.grp.xferAsked = true) = (o.subject = ownPos s ∧ s.grp.xferAsked = true) := by
    obtain ⟨bl, br, p, q, rfl⟩ := linksOnly_iff.1 hlinks
    rfl
  have hdue : probationDue r o = probationDue s o := by
    obtain ⟨bl, br, p, q, rfl⟩ := linksOnly_iff.1 hlinks
    rfl
  generalize ackFrame r h (.order .roles o) .ok = u at *
  by_cases hme : o.subject = ownPos s ∧ s.grp.xferAsked = true
  · have hset := linkSteps_withDue u (probationDue s o)
    rw [if_pos hme, if_pos (hasked ▸ hme)]
    change Got s (withDue u (probationDue r o)) l h 0 ∧ Answers s (withDue u (probationDue r o)) l h.src _ ∧
      LinksOnly _ (withDue u (probationDue r o))
    rw [hdue]
    refine ⟨hgot1.then_ hset, hans.then_ hset, ?_⟩
    obtain ⟨bl, br, p, q, rfl⟩ := linksOnly_iff.1 hack
    rfl
  · rw [if_neg hme, if_neg (hasked ▸ hme)]
    exact ⟨hgot1, hans, hack⟩

/-- An acknowledgement that ends no call of this member does nothing more than a frame heard. -/
theorem ack_unheeded {s : State} {l : GLink} {h : GlHdr} (hh : Hears s l h) {type : Nat} (id : Reg32) (st : Status)
    (hother : type ≠ 5 ∨ s.grp.role = .active) : ∃ t, exec (.ack l h type id st) s = .next t ∧ LinksOnly s t ∧ Got s t l h 0 := by
  refine ⟨_, rfl, ?_⟩
  rw [glRecv_heard _ _ hh]
  obtain ⟨hlinks, -, hgot, -, -⟩ := afterFrame_heard s l h (.ack type id st)
  rw [ack_vc] at hgot
  generalize heard s l h (.ack type id st) = r at *
  have hno : ¬ (type = 5 ∧ r.grp.role ≠ .active) := by
    obtain ⟨bl, br, p, q, rfl⟩ := linksOnly_iff.1 hlinks
    rintro ⟨ht, hrole⟩
    exact hother.elim (fun h => h ht) hrole
  rw [if_neg hno]
  exact ⟨hlinks, hgot⟩

/-! ## Acknowledgements that end calls (R341, R411) -/

/-- One slot's part of an acknowledgement. -/
def ackSlot (id : Reg32) (st : Status) (s : State) (n : Nat) : State :=
  if ackEnds (nthD s.tk.slots n {}) id st then answer s n st [] else s

/-- A step that reaches the call slots, the DRAM, the monitors and what is shown only. -/
def SlotsOnly (s t : State) : Prop :=
  t = { s with tk := { s.tk with slots := t.tk.slots }, dram := t.dram, pmu := t.pmu, out := t.out }

theorem SlotsOnly.trans {s t u : State} (h : SlotsOnly s t) (k : SlotsOnly t u) : SlotsOnly s u := by
  unfold SlotsOnly at *
  rw [k, h]

theorem ackSlot_slotsOnly (id : Reg32) (st : Status) (s : State) (n : Nat) : SlotsOnly s (ackSlot id st s n) := by
  unfold ackSlot
  split
  · have h := answer_eq s n st []
    generalize answer s n st [] = t at *
    rw [SlotsOnly, h]
  · rfl

/-- A slot after an acknowledgement: answered where it waits for it. -/
def acked (id : Reg32) (st : Status) (x : CallSlot) : CallSlot := if ackEnds x id st then slotAnswered st x else x

theorem ackSlot_slot (id : Reg32) (st : Status) (s : State) {n : Nat} (hn : n < s.tk.slots.length) (k : Nat) :
    nthD (ackSlot id st s n).tk.slots k {} = if k = n then acked id st (nthD s.tk.slots k {}) else nthD s.tk.slots k {} := by
  unfold ackSlot
  by_cases hkn : k = n
  · subst hkn
    rw [if_pos rfl, acked]
    split
    · rw [answer_eq]
      exact nthD_modNth_self _ _ _ _ hn
    · rfl
  · rw [if_neg hkn]
    split
    · rw [answer_eq]
      exact nthD_modNth_ne _ _ _ hkn
    · rfl

theorem ackSlot_length (id : Reg32) (st : Status) (s : State) (n : Nat) : (ackSlot id st s n).tk.slots.length = s.tk.slots.length := by
  unfold ackSlot
  split
  · rw [answer_eq]
    exact modNth_length ..
  · rfl

/-- An acknowledgement over several slots treats each of them once. -/
theorem foldl_ackSlot (id : Reg32) (st : Status) : ∀ (ns : List Nat) (s : State), ns.Nodup → (∀ n ∈ ns, n < s.tk.slots.length) →
    SlotsOnly s (ns.foldl (ackSlot id st) s) ∧ ∀ k, nthD (ns.foldl (ackSlot id st) s).tk.slots k {} =
      if k ∈ ns then acked id st (nthD s.tk.slots k {}) else nthD s.tk.slots k {}
  | [], s, _, _ => ⟨rfl, fun k => by simp⟩
  | n :: ns, s, hnodup, hlen => by
    obtain ⟨hnot, hrest⟩ := List.nodup_cons.1 hnodup
    obtain ⟨honly, hslots⟩ := foldl_ackSlot id st ns (ackSlot id st s n) hrest
      (fun m hm => by rw [ackSlot_length]; exact hlen m (List.mem_cons_of_mem _ hm))
    refine ⟨(ackSlot_slotsOnly id st s n).trans honly, fun k => ?_⟩
    rw [List.foldl_cons, hslots k, ackSlot_slot id st s (hlen n (.head _)) k]
    by_cases hkn : k = n
    · subst hkn
      simp [hnot]
    · simp [hkn]

theorem exec_ack_heeded {s : State} {l : GLink} {h : GlHdr} (hh : Hears s l h) (id : Reg32) (st : Status) (hrole : s.grp.role ≠ .active) :
    exec (.ack l h 5 id st) s = .next (ackSlots (heard s l h (.ack 5 id st)) id st) := by
  obtain ⟨hlinks, -, -, -, -⟩ := afterFrame_heard s l h (.ack 5 id st)
  have hr : (heard s l h (.ack 5 id st)).grp.role ≠ .active := by
    obtain ⟨bl, br, p, q, hq⟩ := linksOnly_iff.1 hlinks
    rw [hq]
    exact hrole
  exact congrArg Host.Outcome.next ((glRecv_heard _ _ hh).trans (if_pos ⟨rfl, hr⟩))

theorem ackSlots_eq (s : State) (id : Reg32) (st : Status) : ackSlots s id st = (List.range 8).foldl (ackSlot id st) s := rfl

theorem ack_ends_calls {s : State} {l : GLink} {h : GlHdr} (hh : Hears s l h) (id : Reg32) {st : Status} (hrole : s.grp.role ≠ .active)
    (hdef : st ≠ .deferred) (hlen : s.tk.slots.length = 8) : ∃ t, exec (.ack l h 5 id st) s = .next t ∧
      (∀ n < 8, ackEnds (nthD s.tk.slots n {}) id st = true → (nthD t.tk.slots n {}).busy = false ∧ (nthD t.tk.slots n {}).done = true ∧
        (nthD t.tk.slots n {}).status = st.code) ∧
      (∀ n < 8, ackEnds (nthD s.tk.slots n {}) id st = false → nthD t.tk.slots n {} = nthD s.tk.slots n {}) ∧
      LinksOnly { s with tk := { s.tk with slots := t.tk.slots }, dram := t.dram } t := by
  rw [exec_ack_heeded hh id st hrole, ackSlots_eq]
  obtain ⟨hlinks, -, -, -, -⟩ := afterFrame_heard s l h (.ack 5 id st)
  generalize heard s l h (.ack 5 id st) = r at *
  have htk : r.tk = s.tk := by
    obtain ⟨bl, br, p, q, rfl⟩ := linksOnly_iff.1 hlinks
    rfl
  obtain ⟨honly, hslots⟩ := foldl_ackSlot id st (List.range 8) r List.nodup_range
    (fun n hn => by rw [htk, hlen]; exact List.mem_range.1 hn)
  generalize (List.range 8).foldl (ackSlot id st) r = v at *
  have hslot (n : Nat) (hn : n < 8) : nthD v.tk.slots n {} = acked id st (nthD s.tk.slots n {}) := by
    rw [hslots n, if_pos (List.mem_range.2 hn), htk]
  refine ⟨v, rfl, fun n hn hends => ?_, fun n hn hstays => ?_, ?_⟩
  · rw [hslot n hn, acked, if_pos hends]
    exact ⟨beq_false_of_ne hdef, rfl, rfl⟩
  · rw [hslot n hn, acked, hstays]
    rfl
  · obtain ⟨bl, br, p, q, rfl⟩ := linksOnly_iff.1 hlinks
    rw [SlotsOnly] at honly
    rw [honly]
    rfl

/-! ## Targets: held until their boundary, sent by the ACTIVE (R341) -/

theorem holdTarget_force (s : State) (m : Mcc) (cs : List ForceCmd) : holdTarget s m (.force cs) = { s with glb := { s.glb with
    forceCmds := cs.foldl (fun l c => l.filter (fun x => x.sid != c.sid) ++ [{ c with eff := m }]) s.glb.forceCmds } } := by
  have hfold (cs : List ForceCmd) (s : State) : cs.foldl (fun s c => addForceCmd s { c with eff := m }) s = { s with glb := { s.glb with
      forceCmds := cs.foldl (fun l c => l.filter (fun x => x.sid != c.sid) ++ [{ c with eff := m }]) s.glb.forceCmds } } := by
    induction cs generalizing s with
    | nil => rfl
    | cons c cs ih => exact ih _
  exact hfold cs s

/-- What holds of a state that holds a target, besides the target. -/
structure TargetHeld (s u : State) : Prop where
  links : ∀ k, u.grp.br k = s.grp.br k
  out : u.out = s.out
  pin : u.pin = s.pin
  cul : u.cul = s.cul
  ci : u.ci = s.ci

theorem holdTarget_held (s : State) (m : Mcc) {a : TargetArg} (ha : a ≠ .mode .dormant) : TargetHeld s (holdTarget s m a) := by
  cases a
  case mode c =>
    have hout : (setPending s c m).out = s.out := if_neg (fun h => ha (by rw [h]))
    exact ⟨fun k => by cases k <;> rfl, hout, rfl, rfl, rfl⟩
  case force cs =>
    rw [holdTarget_force]
    exact ⟨fun k => by cases k <;> rfl, rfl, rfl, rfl, rfl⟩
  all_goals exact ⟨fun k => by cases k <;> rfl, rfl, rfl, rfl, rfl⟩

/-- A target is held whatever waits on the links. -/
theorem holdTarget_withLinks (s : State) (bl br : Bridge) (p : Pmu) (o : List Out) (m : Mcc) {a : TargetArg} (ha : a ≠ .mode .dormant) :
    holdTarget (withLinks s bl br p o) m a = withLinks (holdTarget s m a) bl br p o := by
  cases a
  case mode c =>
    have hc : c ≠ .dormant := fun h => ha (by rw [h])
    simp [holdTarget, setPending, withLinks, hc]
  case force cs => rw [holdTarget_force, holdTarget_force]; rfl
  all_goals rfl

theorem TargetHeld.linkSteps {s u : State} (h : TargetHeld s u) : LinkSteps s u := .of_same h.links ⟨[], h.out⟩

theorem TargetHeld.sameSender {s r u : State} {l : GLink} (h : TargetHeld r u) (hr : SameSender s r l) : SameSender s u l :=
  hr.then_ h.linkSteps h.pin h.cul h.ci

/-- A target that the ACTIVE sends is held until its boundary and acknowledged. -/
theorem glRecv_targetHeld {s : State} {l : GLink} {h : GlHdr} (hh : Hears s l h) (hown : ownPos s ≠ 0) (hsrc : h.src = peerPos s l)
    (hrole : s.grp.role ≠ .active) (m : Mcc) {a : TargetArg} (ha : a ≠ .mode .dormant) :
    Got s (glRecv s l h (.target m a) (fun s => takeTarget s h m a)) l h 0 ∧
    Sends s (glRecv s l h (.target m a) (fun s => takeTarget s h m a)) l h.src (· == .ack 5 h.id .ok) ∧
    LinksOnly (holdTarget s m a) (glRecv s l h (.target m a) (fun s => takeTarget s h m a)) := by
  rw [glRecv_heard _ _ hh]
  have hr := afterFrame_heard s l h (.target m a)
  generalize heard s l h (.target m a) = r at *
  have hheld := holdTarget_held r m ha
  have hans := ackFrame_answers (b := .target m a) (st := .ok) (hheld.sameSender (hr.sameSender l)) hh hown hsrc
  have hsteps := hheld.linkSteps.trans (linkSteps_ackFrame _ h (.target m a) .ok)
  obtain ⟨hlinks, -, hgot, -, -⟩ := hr
  rw [target_vc] at hgot
  obtain ⟨bl, br, p, q, rfl⟩ := linksOnly_iff.1 hlinks
  have htake : takeTarget (withLinks s bl br p q) h m a = ackFrame (holdTarget (withLinks s bl br p q) m a) h (.target m a) .ok := if_neg hrole
  rw [htake]
  refine ⟨hgot.then_ hsteps, hans.sends (beq_self_eq_true _), ?_⟩
  have hlinks : LinksOnly (holdTarget s m a) (holdTarget (withLinks s bl br p q) m a) := by
    rw [holdTarget_withLinks _ _ _ _ _ _ ha]
    exact linksOnly_iff.2 ⟨bl, br, p, q, rfl⟩
  exact hlinks.trans (linksOnly_ackFrame ..)

/-! ### Targets that the ACTIVE sends -/

theorem SameSender.sendPeer {s u : State} {l : GLink} (h : SameSender s u l) (pos : Nat) (b : GlBody) : SameSender s (sendPeer u pos b) l := by
  have hlinks := linksOnly_sendPeer u pos b
  refine h.then_ (linkSteps_sendPeer u pos b) ?_ ?_ ?_ <;>
  · obtain ⟨bl, br, p, q, hq⟩ := linksOnly_iff.1 hlinks
    rw [hq]
    split <;> rfl

/-- A frame for both peers is on its way over each link that passes frames. -/
theorem sendPeers_answers {s u : State} {l : GLink} (hu : SameSender s u l) (hl : linkOk s l = true) (hown : ownPos s ≠ 0)
    (hlen : (s.grp.br l).queues.length = 4) {b : GlBody} (hvc : b.vc < 4) : Answers s (sendPeers u b) l (peerPos s l) b := by
  have hpeer (k : GLink) : peerPos u k = peerPos s k := by rw [peerPos, peerPos, hu.own]
  unfold sendPeers
  cases l with
  | left =>
    rw [hpeer]
    exact (sendPeer_answers hu hl hown hlen hvc).then_ (linkSteps_sendPeer ..)
  | right =>
    rw [hpeer .right]
    exact sendPeer_answers (hu.sendPeer _ b) hl hown hlen hvc

/-- A target that the ACTIVE sets is held and sent to both peers. -/
theorem setTarget_sets {s r : State} {l : GLink} {m : Mcc} {a : TargetArg} (ha : a ≠ .mode .dormant) (hr : LinksOnly s r)
    (hsame : SameSender s r l) : LinksOnly (tagged 2 (holdTarget s m a)) (setTarget r m a) ∧ SameSender s (setTarget r m a) l ∧
      (linkOk s l = true → ownPos s ≠ 0 → (s.grp.br l).queues.length = 4 → Answers s (setTarget r m a) l (peerPos s l) (.target m a)) := by
  have hheld := (holdTarget_held r m ha).sameSender hsame
  refine ⟨?_, (hheld.sendPeer _ _).sendPeer _ _, fun hl hown hlen => sendPeers_answers hheld hl hown hlen (by simp)⟩
  obtain ⟨bl, br, p, q, rfl⟩ := linksOnly_iff.1 hr
  have hlinks : LinksOnly (tagged 2 (holdTarget s m a)) (tagged 2 (holdTarget (withLinks s bl br p q) m a)) := by
    rw [holdTarget_withLinks _ _ _ _ _ _ ha]
    exact linksOnly_iff.2 ⟨bl, br, p, q, rfl⟩
  exact hlinks.trans (linksOnly_sendPeers _ rfl)

/-- What the ACTIVE does with a target that a peer asks for and that it sets for count `m`. -/
theorem glRecv_targetSet {s : State} {l : GLink} {h : GlHdr} (hh : Hears s l h) (hown : ownPos s ≠ 0) (hsrc : h.src = peerPos s l)
    (hrole : s.grp.role = .active) {m0 m : Mcc} {a : TargetArg} (ha : a ≠ .mode .dormant)
    (hcall : ∀ r, LinksOnly s r → activeCall r a = (setTarget r m a, .ok)) :
    LinksOnly (tagged 2 (holdTarget s m a)) (glRecv s l h (.target m0 a) (fun s => takeTarget s h m0 a)) ∧
    Sends s (glRecv s l h (.target m0 a) (fun s => takeTarget s h m0 a)) l h.src (· == .target m a) ∧
    Sends s (glRecv s l h (.target m0 a) (fun s => takeTarget s h m0 a)) l h.src (· == .ack 5 h.id .ok) := by
  rw [glRecv_heard _ _ hh]
  have hr := afterFrame_heard s l h (.target m0 a)
  generalize heard s l h (.target m0 a) = r at *
  have hactive : r.grp.role = .active := by
    obtain ⟨bl, br, p, q, rfl⟩ := linksOnly_iff.1 hr.links
    exact hrole
  have htake : takeTarget r h m0 a = ackFrame (setTarget r m a) h (.target m0 a) .ok := by
    rw [takeTarget, if_pos hactive, hcall r hr.links]
  rw [htake]
  obtain ⟨hset, hsame, hsent⟩ := setTarget_sets (m := m) ha hr.links (hr.sameSender l)
  have hans := ackFrame_answers (b := .target m0 a) (st := .ok) hsame hh hown hsrc
  obtain ⟨hl, -, -, -, hlen, -⟩ := hh
  have hsent1 := (hsent hl hown hlen).then_ (linkSteps_ackFrame _ h (.target m0 a) .ok)
  rw [← hsrc] at hsent1
  exact ⟨hset.trans (linksOnly_ackFrame ..), hsent1.sends (beq_self_eq_true _), hans.sends (beq_self_eq_true _)⟩

/-- A target that the ACTIVE refuses is answered so and changes nothing. -/
theorem glRecv_targetRefused {s : State} {l : GLink} {h : GlHdr} (hh : Hears s l h) (hown : ownPos s ≠ 0) (hsrc : h.src = peerPos s l)
    (hrole : s.grp.role = .active) {m0 : Mcc} {a : TargetArg} {st : Status} (hcall : ∀ r, LinksOnly s r → activeCall r a = (r, st)) :
    LinksOnly s (glRecv s l h (.target m0 a) (fun s => takeTarget s h m0 a)) ∧
    Sends s (glRecv s l h (.target m0 a) (fun s => takeTarget s h m0 a)) l h.src (· == .ack 5 h.id st) := by
  rw [glRecv_heard _ _ hh]
  have hr := afterFrame_heard s l h (.target m0 a)
  generalize heard s l h (.target m0 a) = r at *
  have hactive : r.grp.role = .active := by
    obtain ⟨bl, br, p, q, rfl⟩ := linksOnly_iff.1 hr.links
    exact hrole
  have htake : takeTarget r h m0 a = ackFrame r h (.target m0 a) st := by rw [takeTarget, if_pos hactive, hcall r hr.links]
  rw [htake]
  exact ⟨hr.links.trans (linksOnly_ackFrame ..), (ackFrame_answers (hr.sameSender l) hh hown hsrc).sends (beq_self_eq_true _)⟩

/-! ## The steps of formation, probation, rotation and the drive check (R331, R337, R339, R347) -/

theorem formingTimeout_elapsed {s : State} {z : Nat} (hfirst : s.grp.firstOp = some z) (hin : inGroup s = true) (hformed : s.grp.formed = false)
    (hz : z + 100 ≤ s.cul.optime.toNat) : exec .formingTimeout s = .next { s with grp := { s.grp with formTimeout := true } } := by
  show execFormingTimeout s = _
  simp [execFormingTimeout, hfirst, hin, hformed, hz]

theorem formingTimeout_idle {s : State} (h : inGroup s = false ∨ s.grp.formed = true ∨ s.grp.firstOp = none) :
    exec .formingTimeout s = .next s := by
  show execFormingTimeout s = _
  rcases h with h | h | h <;> simp [execFormingTimeout, h]

theorem formingTimeout_early {s : State} {z : Nat} (hfirst : s.grp.firstOp = some z) (hz : s.cul.optime.toNat < z + 100) :
    exec .formingTimeout s = .next s := by
  show execFormingTimeout s = _
  simp [execFormingTimeout, hfirst, Nat.not_le.2 hz]

theorem probationEnd_own {s : State} (hleft : s.grp.probLeft ≠ 0) : exec (.probationEnd (ownPos s)) s = .next s := by
  show execProbationEnd (ownPos s) s = _
  simp [execProbationEnd, hleft]

theorem probationEnd_other {s : State} {p : Nat} (h : roleAt s.grp.roles p ≠ .probation) : exec (.probationEnd p) s = .next s := by
  show execProbationEnd p s = _
  simp [execProbationEnd, h]

theorem probationEnd_ends {s : State} {p : Nat} (hin : inGroup s = true) (hformed : s.grp.formed = true)
    (hrole : roleAt s.grp.roles p = .probation) (hlatent : bit s.grp.latent (p - 1) = false) (hp : p ≠ ownPos s ∨ s.grp.probLeft = 0) :
    exec (.probationEnd p) s = .next (if s.grp.state = .maintenance ∨ s.grp.due.isSome ∨ s.grp.swapDue.isSome then
      { s with grp := { s.grp with probWait := p :: s.grp.probWait.filter (· != p), probLeft := if p = ownPos s then 0 else s.grp.probLeft } }
    else { reassign s p with grp := { (reassign s p).grp with probLeft := if p = ownPos s then 0 else s.grp.probLeft } }) := by
  have hgo : ((p != ownPos s || s.grp.probLeft == 0) && inGroup s && s.grp.formed && roleAt s.grp.roles p == .probation &&
      !bit s.grp.latent (p - 1)) = true := by
    rw [hin, hformed, hrole, hlatent]
    simpa using hp
  show execProbationEnd p s = _
  rw [execProbationEnd, if_pos hgo]

/-- The minutes left until the next rotation, one less. -/
def rotated (s : State) : State := { s with grp := { s.grp with rotLeft := if s.grp.rotLeft = 0 then 0 else s.grp.rotLeft - 1 } }

theorem rotated_left (s : State) : (rotated s).grp.rotLeft.toNat = s.grp.rotLeft.toNat - 1 := by
  unfold rotated
  dsimp only
  split
  next h => simp [h]
  next h => bv_omega

theorem rotationMinute_idle {s : State} (h : s.grp.formed = false ∨ s.grp.state = .maintenance ∨ s.grp.state = .single ∨
    s.tk.running = false ∨ s.glb.state = .dormant) : exec .rotationMinute s = .next s := by
  show execRotationMinute s = _
  rcases h with h | h | h | h | h <;> simp [execRotationMinute, h]

theorem rotationMinute_counts {s : State} (hformed : s.grp.formed = true) (hstate : s.grp.state = .nominal ∨ s.grp.state = .degraded2)
    (hrun : s.tk.running = true) (hpower : s.glb.state ≠ .dormant) : exec .rotationMinute s =
      .next (if (rotated s).grp.rotLeft = 0 ∧ s.grp.role = .active ∧ s.grp.swapDue.isNone then
        setTarget (rotated s) (swapTarget (rotated s)) .roleSwap else rotated s) := by
  have hgo : (s.tk.running && s.glb.state != .dormant && s.grp.formed && (s.grp.state == .nominal || s.grp.state == .degraded2)) = true := by
    rw [hrun, hformed]
    simpa [hpower] using hstate
  show execRotationMinute s = _
  rw [execRotationMinute, if_pos hgo]
  rfl

/-- The state in which no minute is left until the rotation. -/
def rotationDue (s : State) : State := { s with grp := { s.grp with rotLeft := 0 } }

theorem rotated_of_last {s : State} (hleft : s.grp.rotLeft.toNat ≤ 1) : rotated s = rotationDue s := by
  have hzero : (rotated s).grp.rotLeft = 0 := by
    have h := rotated_left s
    apply BitVec.eq_of_toNat_eq
    rw [h]
    simp
    omega
  have hsame : rotated s = { s with grp := { s.grp with rotLeft := (rotated s).grp.rotLeft } } := rfl
  rw [hsame, hzero]
  rfl

theorem SameSender.refl (s : State) (l : GLink) : SameSender s s l := ⟨⟨[], rfl⟩, rfl, rfl, rfl, rfl⟩

theorem rotationMinute_swaps {s : State} (l : GLink) (hformed : s.grp.formed = true) (hstate : s.grp.state = .nominal ∨ s.grp.state = .degraded2)
    (hrun : s.tk.running = true) (hpower : s.glb.state ≠ .dormant) (hleft : s.grp.rotLeft.toNat ≤ 1) (hrole : s.grp.role = .active)
    (hdue : s.grp.swapDue = none) : ∃ t, exec .rotationMinute s = .next t ∧ t.grp.rotLeft = 0 ∧ t.grp.swapDue = some (swapTarget s) ∧
      (linkOk s l = true → ownPos s ≠ 0 → s.grp.brL.queues.length = 4 → s.grp.brR.queues.length = 4 →
        Sends s t l (peerPos s l) (· == .target (swapTarget s) .roleSwap)) ∧
      LinksOnly (tagged 2 { s with grp := { s.grp with rotLeft := 0, swapDue := some (swapTarget s) } }) t := by
  have hswap : (rotationDue s).grp.rotLeft = 0 ∧ s.grp.role = .active ∧ s.grp.swapDue.isNone = true := ⟨rfl, hrole, by rw [hdue]; rfl⟩
  have hexec := rotationMinute_counts hformed hstate hrun hpower
  rw [rotated_of_last hleft, if_pos hswap] at hexec
  obtain ⟨honly, -, hsent⟩ := setTarget_sets (m := swapTarget s) (a := .roleSwap) nofun (LinksOnly.refl (rotationDue s))
    (SameSender.refl (rotationDue s) l)
  refine ⟨_, hexec, ?_, ?_, fun hl hown hleft hright => ?_, honly⟩
  · exact congrArg (fun t : State => t.grp.rotLeft) honly
  · exact congrArg (fun t : State => t.grp.swapDue) honly
  · exact (hsent (by cases l <;> exact hl) hown (by cases l <;> assumption)).sends
      (p := (· == .target (swapTarget s) .roleSwap)) (beq_self_eq_true _)

theorem driveCheck_none {s : State} (h : s.grp.check = none) : exec .driveCheck s = .next s := by
  show execDriveCheck s = _
  rw [execDriveCheck, h]

theorem driveCheck_runs {s : State} {c : SwapCheck} (h : s.grp.check = some c)
    (hb : before s.cyc.mcc (c.at_ + BitVec.ofNat 32 (checkWindow s.ci.act)) = true) : exec .driveCheck s = .next s := by
  show execDriveCheck s = _
  rw [execDriveCheck, h]
  exact congrArg Host.Outcome.next (if_pos hb)

theorem driveCheck_passed {s : State} {c : SwapCheck} (h : s.grp.check = some c)
    (hb : before s.cyc.mcc (c.at_ + BitVec.ofNat 32 (checkWindow s.ci.act)) = false) (hseen : transmitPorts s.ci.act &&& ~~~c.seen = 0) :
    exec .driveCheck s = .next { s with grp := { s.grp with check := none } } := by
  show execDriveCheck s = _
  rw [execDriveCheck, h]
  dsimp only
  rw [hb, if_neg Bool.false_ne_true, if_pos hseen]

/-- The roles that undo a swap whose drive check failed, with the failed ACTIVE marked (R347). -/
def undoDue (s : State) (c : SwapCheck) : RolesDue :=
  { at_ := nextMcc s, roles := assignRoles c.oldSeq (setBit s.grp.latent (activePos s - 1)) (voters c.oldRoles) c.oldRoles
    undo := true, marked := activePos s }

/-- The state after a failed drive check, before its record. -/
def undone (s : State) (c : SwapCheck) : State :=
  { s with grp := { s.grp with check := none, rotSeq := c.oldSeq, due := some (undoDue s c) } }

theorem driveCheck_failed {s : State} {c : SwapCheck} (h : s.grp.check = some c)
    (hb : before s.cyc.mcc (c.at_ + BitVec.ofNat 32 (checkWindow s.ci.act)) = false) (hseen : transmitPorts s.ci.act &&& ~~~c.seen ≠ 0) :
    exec .driveCheck s = .next (if activePos s = ownPos s then record (undone s c) .error srcGrp (cFault 0) (activePos s) else undone s c) := by
  show execDriveCheck s = _
  rw [execDriveCheck, h]
  dsimp only
  rw [hb, if_neg Bool.false_ne_true, if_neg hseen]
  rfl

theorem driveCheck_undoes {s : State} {c : SwapCheck} (h : s.grp.check = some c)
    (hb : before s.cyc.mcc (c.at_ + BitVec.ofNat 32 (checkWindow s.ci.act)) = false) (hseen : transmitPorts s.ci.act &&& ~~~c.seen ≠ 0) :
    ∃ t, exec .driveCheck s = .next t ∧ t.grp.check = none ∧ t.grp.rotSeq = c.oldSeq ∧ t.grp.roles = s.grp.roles ∧
      t.grp.due = some (undoDue s c) ∧ (activePos s = ownPos s → Records s t .error srcGrp (cFault 0)) ∧
      t = { s with grp := { s.grp with check := none, rotSeq := c.oldSeq, due := t.grp.due }, evr := t.evr } := by
  refine ⟨_, driveCheck_failed h hb hseen, ?_⟩
  by_cases hown : activePos s = ownPos s
  · rw [if_pos hown]
    exact ⟨rfl, rfl, rfl, rfl, fun _ => record_records (undone s c) .error srcGrp (cFault 0) (activePos s) [], rfl⟩
  · rw [if_neg hown]
    exact ⟨rfl, rfl, rfl, rfl, fun h => absurd h hown, rfl⟩

/-! ## Orders, targets and the steps of formation (O59) -/

theorem orders_linkDown {s : State} {l : GLink} (h : GlHdr) (hl : linkOk s l = false) (o : OrderMsg) (st : Status) (m : Mcc) (id : Reg32)
    (cause : Nat) (key : BitVec 128) :
    exec (.orderTakeover l h o) s = .next s ∧ exec (.orderExclude l h o) s = .next s ∧ exec (.orderAdoptMcc l h o) s = .next s ∧
    exec (.orderRoles l h o) s = .next s ∧ exec (.ack l h 5 id st) s = .next s ∧ exec (.targetModeCommand l h m (.mode .hold)) s = .next s ∧
    exec (.targetForceChange l h m []) s = .next s ∧ exec (.targetTimeStep l h ⟨m, cause, key⟩) s = .next s ∧
    exec (.targetRoleSwap l h m) s = .next s ∧ exec (.targetMaintEnter l h m) s = .next s ∧ exec (.targetMaintLeave l h m) s = .next s := by
  have hdown (b : GlBody) (k : State → State) : Host.Outcome.next (glRecv s l h b k) = (.next s : Host.Outcome State Fault Refusal) :=
    congrArg _ (glRecv_down h b k hl)
  exact ⟨hdown .., hdown .., hdown .., hdown .., hdown .., hdown (.target m (.mode .hold)) (fun s => takeTarget s h m (.mode .hold)),
    hdown .., hdown .., hdown .., hdown .., hdown ..⟩

theorem orders_relayed {s : State} {l : GLink} {h : GlHdr} (hl : linkOk s l = true) (hcrc : h.crcOk = true) (hlisted : h.listed = true)
    (hdst : h.dst ≠ 0) (hown : h.dst ≠ ownPos s) (hq : (s.grp.br l.other).queues.length = 4) (o : OrderMsg) (st : Status) (m : Mcc) (id : Reg32) :
    (∃ t, exec (.orderTakeover l h o) s = .next t ∧ Relays s t l h (.order .takeover o)) ∧
    (∃ t, exec (.orderExclude l h o) s = .next t ∧ Relays s t l h (.order .exclude o)) ∧
    (∃ t, exec (.orderAdoptMcc l h o) s = .next t ∧ Relays s t l h (.order .adoptMcc o)) ∧
    (∃ t, exec (.orderRoles l h o) s = .next t ∧ Relays s t l h (.order .roles o)) ∧
    (∃ t, exec (.ack l h 5 id st) s = .next t ∧ RelaysAck s t l h 5 id st) ∧
    (∃ t, exec (.targetRoleSwap l h m) s = .next t ∧ Relays s t l h (.target m .roleSwap)) := by
  have horder (k : OrderKind) (f : State → State) : Relays s (glRecv s l h (.order k o) f) l h (.order k o) :=
    relays_request f nofun hl hcrc hlisted hdst hown (by simp) hq
  exact ⟨⟨_, rfl, horder ..⟩, ⟨_, rfl, horder ..⟩, ⟨_, rfl, horder ..⟩, ⟨_, rfl, horder ..⟩,
    ⟨_, rfl, relays_ack _ hl hcrc hlisted hdst hown hq⟩, ⟨_, rfl, relays_request _ nofun hl hcrc hlisted hdst hown (by simp) hq⟩⟩

theorem roles_ordered {s : State} {l : GLink} {h : GlHdr} (hh : Hears s l h) (hown : ownPos s ≠ 0) (hsrc : h.src = peerPos s l) (o : OrderMsg) :
    (o.subject = ownPos s → s.grp.xferAsked = true → ∃ t, exec (.orderRoles l h o) s = .next t ∧
      LinksOnly { s with grp := { s.grp with due := t.grp.due } } t ∧ Got s t l h 0 ∧ Sends s t l h.src (· == .ack 3 h.id .ok) ∧
      ∀ d, t.grp.due = some d → d.at_ = o.target ∧ (s.grp.roles.length = 3 → roleAt d.roles (ownPos s) = .probation)) ∧
    (o.subject ≠ ownPos s ∨ s.grp.xferAsked = false → ∃ t, exec (.orderRoles l h o) s = .next t ∧ LinksOnly s t ∧ Got s t l h 0 ∧
      Sends s t l h.src (· == .ack 3 h.id .ok)) := by
  obtain ⟨t, hexec, hgot, hans, honly⟩ := roles_taken hh hown hsrc o
  have hsends : Sends s t l h.src (· == .ack 3 h.id .ok) := hans.sends (beq_self_eq_true _)
  refine ⟨fun hsub hasked => ?_, fun hother => ?_⟩
  · rw [if_pos ⟨hsub, hasked⟩] at honly
    have hdue : t.grp.due = some (probationDue s o) := congrArg (fun t : State => t.grp.due) honly
    refine ⟨t, hexec, by rw [hdue]; exact honly, hgot, hsends, fun d hd => ?_⟩
    obtain rfl : probationDue s o = d := Option.some.inj (hdue.symm.trans hd)
    exact ⟨rfl, fun _ => roleAt_probationDue hown⟩
  · have hno : ¬ (o.subject = ownPos s ∧ s.grp.xferAsked = true) := by
      rintro ⟨hsub, hasked⟩
      obtain hsub' | hasked' := hother
      · exact hsub' hsub
      · rw [hasked] at hasked'
        exact absurd hasked' (by decide)
    rw [if_neg hno] at honly
    exact ⟨t, hexec, honly, hgot, hsends⟩

theorem adoptMcc_ordered {s : State} {l : GLink} {h : GlHdr} (hh : Hears s l h) (hown : ownPos s ≠ 0) (hsrc : h.src = peerPos s l)
    (o : OrderMsg) (hformed : s.grp.formed = false) :
    ((∃ x ∈ matchedHb s, x.position = o.issuer) → ∃ t, exec (.orderAdoptMcc l h o) s = .next t ∧
      LinksOnly { s with grp := { s.grp with adoptDue := some (s.cyc.mcc + 16, o.arg) } } t ∧ Got s t l h 0 ∧
      Sends s t l h.src (· == .ack 3 h.id .ok)) ∧
    ((∀ x ∈ matchedHb s, x.position ≠ o.issuer) → ∃ t, exec (.orderAdoptMcc l h o) s = .next t ∧ LinksOnly s t ∧ Got s t l h 0 ∧
      Sends s t l h.src (· == .ack 3 h.id .refusedPolicy)) := by
  refine ⟨fun hissuer => ?_, fun hnone => ?_⟩
  · obtain ⟨t, hexec, honly, hgot, hans⟩ := adoptMcc_taken hh hown hsrc (o := o) hformed true (by simpa using hissuer)
    exact ⟨t, hexec, honly, hgot, hans.sends (beq_self_eq_true _)⟩
  · obtain ⟨t, hexec, honly, hgot, hans⟩ := adoptMcc_taken hh hown hsrc (o := o) hformed false (by simpa using hnone)
    exact ⟨t, hexec, honly, hgot, hans.sends (beq_self_eq_true _)⟩

theorem targets_held {s : State} {l : GLink} {h : GlHdr} (hh : Hears s l h) (hown : ownPos s ≠ 0) (hsrc : h.src = peerPos s l)
    (hrole : s.grp.role ≠ .active) (m : Mcc) :
    (∀ c : ModeCmd, c ≠ .dormant → ∃ t, exec (.targetModeCommand l h m (.mode c)) s = .next t ∧ Got s t l h 0 ∧
      Sends s t l h.src (· == .ack 5 h.id .ok) ∧
      LinksOnly { s with glb := { s.glb with pendCmd := some c, tgtMcc := m }, rst := { s.rst with dormantPending := false } } t) ∧
    (∃ t, exec (.targetModeCommand l h m .safeAck) s = .next t ∧ LinksOnly { s with safe := { s.safe with ackDue := some m } } t) ∧
    (∀ p : Nat, ∃ t, exec (.targetModeCommand l h m (.clearLatent p)) s = .next t ∧
      LinksOnly { s with grp := { s.grp with latentDue := some (m, p) } } t) ∧
    (∀ c : ForceCmd, ∃ t, exec (.targetForceChange l h m [c]) s = .next t ∧ Got s t l h 0 ∧ Sends s t l h.src (· == .ack 5 h.id .ok) ∧
      LinksOnly { s with glb := { s.glb with forceCmds := s.glb.forceCmds.filter (fun x => x.sid != c.sid) ++ [{ c with eff := m }] } } t) ∧
    (∀ (cause : Nat) (key : BitVec 128), ∃ t, exec (.targetTimeStep l h ⟨m, cause, key⟩) s = .next t ∧ Got s t l h 0 ∧
      Sends s t l h.src (· == .ack 5 h.id .ok) ∧
      LinksOnly { s with tb := { s.tb with
        stepDue := some { target := m - countAhead s, refusedCase := cause, keyId := key }
        acceptPending := s.tb.acceptPending || cause == 1 } } t) ∧
    (∃ t, exec (.targetRoleSwap l h m) s = .next t ∧ Got s t l h 0 ∧ Sends s t l h.src (· == .ack 5 h.id .ok) ∧
      LinksOnly { s with grp := { s.grp with swapDue := some m } } t) ∧
    (∃ t, exec (.targetMaintEnter l h m) s = .next t ∧ Got s t l h 0 ∧ Sends s t l h.src (· == .ack 5 h.id .ok) ∧
      LinksOnly { s with grp := { s.grp with maintDue := some (m, true) } } t) ∧
    (∃ t, exec (.targetMaintLeave l h m) s = .next t ∧ Got s t l h 0 ∧ Sends s t l h.src (· == .ack 5 h.id .ok) ∧
      LinksOnly { s with grp := { s.grp with maintDue := some (m, false) } } t) := by
  have hheld (a : TargetArg) (ha : a ≠ .mode .dormant) := glRecv_targetHeld hh hown hsrc hrole m ha
  obtain ⟨-, -, hsafe⟩ := hheld .safeAck nofun
  refine ⟨fun c hc => ?_, ⟨_, rfl, hsafe⟩, fun p => ?_, fun c => ⟨_, rfl, hheld (.force [c]) nofun⟩,
    fun cause key => ⟨_, rfl, hheld (.timeStep cause key) nofun⟩, ⟨_, rfl, hheld .roleSwap nofun⟩, ⟨_, rfl, hheld .maintEnter nofun⟩,
    ⟨_, rfl, hheld .maintLeave nofun⟩⟩
  case refine_2 =>
    obtain ⟨-, -, hclear⟩ := hheld (.clearLatent p) nofun
    exact ⟨_, rfl, hclear⟩
  obtain ⟨hgot, hsends, honly⟩ := hheld (.mode c) (fun h => hc (TargetArg.mode.inj h))
  have hpending : holdTarget s m (.mode c) =
      { s with glb := { s.glb with pendCmd := some c, tgtMcc := m }, rst := { s.rst with dormantPending := false } } := by
    simp [holdTarget, setPending, hc]
  exact ⟨_, rfl, hgot, hsends, hpending ▸ honly⟩

theorem targets_set {s : State} {l : GLink} {h : GlHdr} (hh : Hears s l h) (hown : ownPos s ≠ 0) (hsrc : h.src = peerPos s l)
    (hrole : s.grp.role = .active) :
    (s.grp.state = .nominal → (∃ t, exec (.targetRoleSwap l h 0) s = .next t ∧
        LinksOnly (tagged 2 { s with grp := { s.grp with swapDue := some (swapTarget s) } }) t ∧
        Sends s t l h.src (· == .target (swapTarget s) .roleSwap) ∧ Sends s t l h.src (· == .ack 5 h.id .ok)) ∧
      (∃ t, exec (.targetMaintEnter l h 0) s = .next t ∧
        LinksOnly (tagged 2 { s with grp := { s.grp with maintDue := some (groupTarget s, true) } }) t ∧
        Sends s t l h.src (· == .target (groupTarget s) .maintEnter))) ∧
    (s.grp.state ≠ .nominal → ∃ t, exec (.targetMaintEnter l h 0) s = .next t ∧ LinksOnly s t ∧
      Sends s t l h.src (· == .ack 5 h.id .refusedPolicy)) := by
  refine ⟨fun hnom => ⟨?_, ?_⟩, fun hnot => ?_⟩
  · have hcall (r : State) (hr : LinksOnly s r) : activeCall r .roleSwap = (setTarget r (swapTarget s) .roleSwap, .ok) := by
      obtain ⟨bl, br, p, q, rfl⟩ := linksOnly_iff.1 hr
      exact if_pos (Bool.or_eq_true_iff.2 (.inl (beq_iff_eq.2 hnom)))
    exact ⟨_, rfl, glRecv_targetSet hh hown hsrc hrole (m0 := 0) (a := .roleSwap) nofun hcall⟩
  · have hcall (r : State) (hr : LinksOnly s r) : activeCall r .maintEnter = (setTarget r (groupTarget s) .maintEnter, .ok) := by
      obtain ⟨bl, br, p, q, rfl⟩ := linksOnly_iff.1 hr
      exact if_pos (beq_iff_eq.2 hnom)
    obtain ⟨honly, hsends, -⟩ := glRecv_targetSet hh hown hsrc hrole (m0 := 0) (a := .maintEnter) nofun hcall
    exact ⟨_, rfl, honly, hsends⟩
  · have hcall (r : State) (hr : LinksOnly s r) : activeCall r .maintEnter = (r, .refusedPolicy) := by
      obtain ⟨bl, br, p, q, rfl⟩ := linksOnly_iff.1 hr
      exact if_neg (fun h => hnot (beq_iff_eq.1 h))
    exact ⟨_, rfl, glRecv_targetRefused hh hown hsrc hrole (m0 := 0) (a := .maintEnter) hcall⟩

/-- Settles O59: a frame that is heard reaches its links first (`afterFrame_heard`); an answer or target given to a link leaves or waits there
whatever is sent after it (`OnWay`, `LinkSteps`), and what the frame asks changes its own field only. -/
theorem groupOrders : Obligations.GroupOrders := by
  unfold Obligations.GroupOrders
  intro s l h
  refine ⟨fun o st m id cause key => ⟨fun hl => orders_linkDown h hl o st m id cause key,
    fun hl hcrc hlisted hdst hown _ hq => orders_relayed hl hcrc hlisted hdst hown hq o st m id⟩,
    fun hh hown hsrc => ⟨fun o harg hsub hcheck hdue => ?_, fun o harg hsub => ?_, fun o hformed => adoptMcc_ordered hh hown hsrc o hformed,
      fun o => roles_ordered hh hown hsrc o, fun type id st hother => ack_unheeded hh id st hother,
      fun id st hrole hdef _ hlen => ack_ends_calls hh id hrole hdef hlen, fun m hrole _ => targets_held hh hown hsrc hrole m,
      fun hrole => targets_set hh hown hsrc hrole⟩,
    fun z hz hin hformed hle => formingTimeout_elapsed hz hin hformed hle, fun hidle => formingTimeout_idle hidle,
    fun z hz hlt => formingTimeout_early hz hlt, fun _ hleft => probationEnd_own hleft,
    fun p hin hformed hrole hlatent hp => ⟨fun hwait => ?_, fun hstate hdue hswap => ?_⟩, fun p hrole => probationEnd_other hrole,
    fun hformed hstate hrun hpower => ⟨fun hno => ?_, fun hleft hrole hdue =>
      rotationMinute_swaps l hformed hstate hrun hpower hleft hrole hdue⟩,
    fun hidle => rotationMinute_idle hidle, fun hnone => driveCheck_none hnone, fun c hc hb => driveCheck_runs hc hb,
    fun c hc hb => ⟨fun hseen => driveCheck_passed hc hb hseen, fun hseen => ?_⟩⟩
  · obtain ⟨h1, h2, h3, h4, h5, h6, h7, h8, h9, h10, h11, h12⟩ := glRecv_orderTaken hh hown hsrc harg hcheck hdue .takeover
    obtain ⟨e1, e2, e3, e4, e5, e6, e7, e8, e9, e10, e11, e12⟩ := glRecv_orderTaken hh hown hsrc harg hcheck hdue .exclude
    exact ⟨⟨_, rfl, h1, h2, h3, h4, h5, h6.sends (beq_self_eq_true _), h7, h8, h9, h10, h11, h12⟩,
      ⟨_, rfl, e1, e2, e3, e4, e5, e6.sends (beq_self_eq_true _), e7, e8, e9, e10, e11, e12⟩⟩
  · exact ⟨_, rfl, glRecv_excludesItself hh harg hsub⟩
  · refine ⟨_, (probationEnd_ends hin hformed hrole hlatent hp).trans (congrArg _ (if_pos hwait)), .head _, rfl⟩
  · have hgo : ¬ (s.grp.state = .maintenance ∨ s.grp.due.isSome ∨ s.grp.swapDue.isSome) := by simp [hstate, hdue, hswap]
    exact ⟨_, (probationEnd_ends hin hformed hrole hlatent hp).trans (congrArg _ (if_neg hgo)), ⟨_, rfl, rfl, rfl⟩, rfl⟩
  · have hstay : ¬ ((rotated s).grp.rotLeft = 0 ∧ s.grp.role = .active ∧ s.grp.swapDue.isNone = true) := by
      rintro ⟨hzero, hrole, hdue⟩
      obtain htwo | hother | hsome := hno
      · have hleft := rotated_left s
        rw [hzero] at hleft
        have hz : (0 : Reg32).toNat = 0 := rfl
        omega
      · exact hother hrole
      · rw [Option.isNone_iff_eq_none] at hdue
        rw [hdue] at hsome
        exact absurd hsome (by decide)
    exact ⟨_, (rotationMinute_counts hformed hstate hrun hpower).trans (congrArg _ (if_neg hstay)), rotated_left s, rfl⟩
  · obtain ⟨t, hexec, hcheck, hseq, hroles, hdue, hrec, hframe⟩ := driveCheck_undoes hc hb hseen
    exact ⟨t, hexec, hcheck, hseq, hroles, ⟨_, hdue, rfl, rfl, rfl, rfl⟩, hrec, hframe⟩

/-! ## The power governor: what a window does whatever accesses wait in the HOST port FIFO (R58, R449)

No part of a window's work reads the accesses that wait for the cores: each function commutes with a change of them. -/

/-- A state with other accesses waiting in the HOST port FIFO. -/
def withHost (s : State) (h : List Instr) : State := { s with host := h }

theorem withHost_ite {h : List Instr} {c c' : Prop} [Decidable c] [Decidable c'] {a b a' b' : State} (hc : c' = c)
    (ha : a' = withHost a h) (hb : b' = withHost b h) : (if c' then a' else b') = withHost (if c then a else b) h := by
  subst hc
  split
  · exact ha
  · exact hb

theorem foldl_withHost {α : Type} {h : List Instr} {f g : State → α → State}
    (hf : ∀ s x, f (withHost s h) x = withHost (g s x) h) (l : List α) (s : State) : l.foldl f (withHost s h) = withHost (l.foldl g s) h := by
  induction l generalizing s with
  | nil => rfl
  | cons x l ih => rw [List.foldl_cons, List.foldl_cons, hf, ih]

section
variable (s : State) (h : List Instr)

theorem pmuCount_withHost (i ev n : Nat) : pmuCount (withHost s h) i ev n = withHost (pmuCount s i ev n) h := by
  unfold pmuCount
  dsimp only [withHost, modPmu]
  generalize pmuEvent i ev n (Config.spcFree s.tb.ttc) _ = q
  split_ifs <;> rfl

theorem dramWrite_withHost (a : Word) (l : List Byte) : dramWrite (withHost s h) a l = withHost (dramWrite s a l) h :=
  withHost_ite rfl (pmuCount_withHost { s with dram := s.dram.writeList a.toNat l } h ..) rfl

theorem pushCompl_withHost (n : Nat) (rec : List Byte) : pushCompl (withHost s h) n rec = withHost (pushCompl s n rec) h :=
  withHost_ite rfl rfl (withHost_ite rfl (congrArg (modRing · n _) (dramWrite_withHost s h ..)) rfl)

theorem complete_withHost (n : Nat) (c : Compl) : complete (withHost s h) n c = withHost (complete s n c) h := pushCompl_withHost ..

/-! ### Tags that end -/

theorem mailFail_withHost (e : FailEnt) (req : BitVec 16) (drop : Bool) (retries : Nat) :
    mailFail (withHost s h) e req drop retries = withHost (mailFail s e req drop retries) h :=
  withHost_ite rfl (withHost_ite rfl rfl rfl) (withHost_ite rfl (withHost_ite rfl rfl rfl)
    (withHost_ite rfl (withHost_ite rfl rfl (complete_withHost ..)) rfl))

/-- A failed posted write's record and the signals that it marks. -/
def failNoted (s : State) (e : FailEnt) (marks : List Sid) : State :=
  record { s with pim := { s.pim with wfPend := s.pim.wfPend ++ marks, wfClear := s.pim.wfClear.filter (fun x => !marks.contains x) } } .warning
    (unitSrc e.unit) (cFailed e.status) e.sid.toNat

theorem failPosted_withHost (e : FailEnt) (marks : List Sid) (req : BitVec 16) (drop : Bool) (retries : Nat) :
    failPosted (withHost s h) e marks req drop retries = withHost (failPosted s e marks req drop retries) h :=
  congrArg (failNoted · e marks) (mailFail_withHost { s with txe := logFail s.txe e } h e req drop retries)

/-- The state with a tag out of the tags in flight. -/
def tagOut (s : State) (t : TagEnt) (st : Status) : State :=
  { s with
    txe := { s.txe with
      tags := s.txe.tags.filter (fun x => x.tag != t.tag)
      unitReset := if st = .unitReset then satInc s.txe.unitReset else s.txe.unitReset
      timeout := if st = .timeout then satInc s.txe.timeout else s.txe.timeout
      refused := if st = .refusedCapacity then satInc s.txe.refused else s.txe.refused
      cool := if st = .unitReset ∨ st = .timeout then (t.tag.toNat % 1024, ttcIn s 2000000) :: s.txe.cool else s.txe.cool }
    arb := if t.hold then
        { s.arb with idle := s.arb.freeze &&& ~~~holdBanks s (s.txe.tags.filter (fun x => x.tag != t.tag)) } else s.arb }

theorem finishTag_withHost (t : TagEnt) (st : Status) (target : Mcc) (sid : Sid) (len : Nat) (split : Bool) :
    finishTag (withHost s h) t st target sid len split = withHost (finishTag s t st target sid len split) h := by
  refine withHost_ite rfl (withHost_ite rfl (failPosted_withHost (tagOut s t st) h ..) rfl) ?_
  cases t.ring with
  | none => rfl
  | some r => exact withHost_ite rfl rfl (complete_withHost (tagOut s t st) h ..)

theorem resetTags_withHost (u : TUnit) : resetTags (withHost s h) u = withHost (resetTags s u) h :=
  foldl_withHost (fun s t => finishTag_withHost s h t ..) _ s

theorem bumpEpoch_withHost (u : TUnit) : bumpEpoch (withHost s h) u = withHost (bumpEpoch s u) h :=
  resetTags_withHost { s with txe := { s.txe with epochs := modNth s.txe.epochs (u.num - 1) (· + 1) } } h u

end

/-! ## The HOST port FIFO and receptions -/

section
variable (s : State) (h : List Instr)

theorem passTag_withHost : passTag (withHost s h) = withHost (passTag s) h := by
  unfold passTag
  rw [pmuCount_withHost]
  rfl

theorem raiseEvent_withHost (n : Nat) (v : SigVal) (doorbell : Bool) :
    raiseEvent (withHost s h) n v doorbell = withHost (raiseEvent s n v doorbell) h :=
  withHost_ite rfl (withHost_ite rfl rfl (withHost_ite rfl rfl rfl)) rfl

theorem raiseFor_withHost (sid : Sid) (v : SigVal) (doorbell : Bool) :
    raiseFor (withHost s h) sid v doorbell = withHost (raiseFor s sid v doorbell) h :=
  foldl_withHost (fun s n => raiseEvent_withHost s h n v doorbell) _ s

theorem ringBell_withHost (sid : Sid) : ringBell (withHost s h) sid = withHost (ringBell s sid) h := by
  have hgroup : inGroup (withHost s h) = inGroup s := rfl
  unfold ringBell
  rw [hgroup]
  cases inGroup s with
  | true => rfl
  | false => exact raiseFor_withHost s h sid _ true

theorem ringBells_withHost (ws : List RxWrite) : ringBells (withHost s h) ws = withHost (ringBells s ws) h :=
  foldl_withHost (fun s w => ringBell_withHost s h w.sid) _ s

theorem noteWait_withHost (fab : Bool) (words : List Nat) : noteWait (withHost s h) fab words = withHost (noteWait s fab words) h :=
  foldl_withHost (fun _ _ => rfl) _ s

theorem raiseNoted_withHost (sid : Sid) (v : SigVal) (m : Mcc) : raiseNoted (withHost s h) sid v m = withHost (raiseNoted s sid v m) h := by
  unfold raiseNoted
  rw [raiseFor_withHost]
  rfl

theorem acceptWrite_withHost (e : StgEnt) : acceptWrite (withHost s h) e = withHost (acceptWrite s e) h :=
  withHost_ite rfl rfl (raiseNoted_withHost (addStaging s [e]) h ..)

theorem acceptAll_withHost (es : List StgEnt) : acceptAll (withHost s h) es = withHost (acceptAll s es) h :=
  foldl_withHost (fun s e => acceptWrite_withHost s h e) _ s

/-- A reception's copy in the staging image. -/
def copyStaged (s : State) (x : RxWait) : State := noteUsed { s with pim := { s.pim with copyStg := s.pim.copyStg ++ x.copy.toList } }

theorem arriveOwn_withHost (x : RxWait) : arriveOwn (withHost s h) x = withHost (arriveOwn s x) h := by
  have haccept : acceptAll (copyStaged (withHost s h) x) (rxEnts (withHost s h) x.writes) =
      withHost (acceptAll (copyStaged s x) (rxEnts s x.writes)) h := acceptAll_withHost (copyStaged s x) h _
  have hwords : rxWords (withHost s h) x = rxWords s x := rfl
  show ringBells (noteWait (acceptAll (copyStaged (withHost s h) x) (rxEnts (withHost s h) x.writes)) false (rxWords (withHost s h) x)) x.writes = _
  rw [haccept, hwords, noteWait_withHost, ringBells_withHost]
  rfl

theorem refuseForeign_withHost (x : RxWait) : refuseForeign (withHost s h) x = withHost (refuseForeign s x) h :=
  foldl_withHost (fun _ _ => rfl) _ s

theorem arrive_withHost (x : RxWait) : arrive (withHost s h) x = withHost (arrive s x) h := by
  have hown : ownPart (withHost s h) x = ownPart s x := rfl
  unfold arrive
  rw [refuseForeign_withHost, hown, arriveOwn_withHost]

theorem allocTag_withHost (u : TUnit) (c : TxClass) (q : TagReq) (ring : Option (Nat × BitVec 16)) (posted : Bool) (due : Option Word) :
    allocTag (withHost s h) u c q ring posted due =
      (withHost (allocTag s u c q ring posted due).1 h, (allocTag s u c q ring posted due).2) := by
  unfold allocTag
  rw [pmuCount_withHost]
  rfl

/-- The state in which a reception that has to wait holds a tag. -/
def rxTagged (s : State) (x : RxWait) : State :=
  modTag (allocTag s x.port.unit x.cls (.reception x) none false none).1 (allocTag s x.port.unit x.cls (.reception x) none false none).2
    (fun t => { t with again := true })

/-- The counts of a reception that has to wait. -/
def rxDeferred (p : Pim) (s : State) : State := noteDeferred { s with pim := { p with defer := satInc p.defer } }

theorem deliverRx_withHost (x : RxWait) : deliverRx (withHost s h) x = withHost (deliverRx s x) h := by
  refine withHost_ite rfl (passTag_withHost s h) (withHost_ite rfl ?_ ?_)
  · rw [passTag_withHost, arrive_withHost]
  · rw [allocTag_withHost]
    refine withHost_ite rfl rfl ?_
    exact congrArg (rxDeferred (rxTagged s x).pim) (pmuCount_withHost (rxTagged s x) h 10 0x286 1)

theorem noteTags_withHost (c : TxClass) (st : Status) : noteTags (withHost s h) c st = withHost (noteTags s c st) h := by
  unfold noteTags
  rw [pmuCount_withHost]
  exact withHost_ite rfl rfl rfl

/-- The state with a reception at the end of those that wait for a tag. -/
def rxQueued (s : State) (x : RxWait) : State := { s with txe := { s.txe with rx := s.txe.rx ++ [x] } }

theorem carryOwn_withHost (x : RxWait) : carryOwn (withHost s h) x = withHost (carryOwn s x) h :=
  withHost_ite rfl rfl (withHost_ite rfl (deliverRx_withHost s h x)
    (withHost_ite rfl (congrArg (rxQueued · x) (noteTags_withHost s h x.cls .deferred)) (withHost_ite rfl rfl rfl)))

theorem carryRx_withHost (x : RxWait) : carryRx (withHost s h) x = withHost (carryRx s x) h := by
  have hown : ownPart (withHost s h) x = ownPart s x := rfl
  unfold carryRx
  rw [refuseForeign_withHost, hown, carryOwn_withHost]

end

/-! ## The HOST port FIFO and the resets of the ports -/

section
variable (s : State) (h : List Instr)

/-! ### Ethernet -/

/-- A timed signal's reception is no longer held. -/
def timedTaken (s : State) : State :=
  { s with eth := { s.eth with timedHeld := s.eth.timedHeld.filter (fun x => !atOrBefore x.1 (ltAt (s.tb.ttc - 1))) } }

theorem timedArrive_withHost : timedArrive (withHost s h) = withHost (timedArrive s) h :=
  foldl_withHost (fun s x => carryRx_withHost s h x.2) _ (timedTaken s)

theorem noteSender_withHost (i : Nat) (c : SubCfg) (src : Ip4) (seq : Reg32) (planeB : Bool) :
    noteSender (withHost s h) i c src seq planeB = withHost (noteSender s i c src seq planeB) h :=
  withHost_ite rfl rfl rfl

theorem answerPull_withHost (i : Nat) (pp : Bool) : answerPull (withHost s h) i pp = withHost (answerPull s i pp) h := by
  have hfind : (withHost s h).txe.tags.find? (fun t => pp && t.req == .pull i) = s.txe.tags.find? (fun t => pp && t.req == .pull i) := rfl
  unfold answerPull
  rw [hfind]
  cases s.txe.tags.find? (fun t => pp && t.req == .pull i) with
  | none => rfl
  | some t => exact finishTag_withHost s h t ..

theorem timedAct_withHost (c : SubCfg) (data : List Byte) (x : RxWait) : timedAct (withHost s h) c data x = withHost (timedAct s c data x) h :=
  withHost_ite rfl (carryRx_withHost s h x)
    (withHost_ite rfl (carryRx_withHost { s with eth := { s.eth with timedLate := satInc s.eth.timedLate } } h x) rfl)

/-- A telegram's stamp and header in its subscription's status. -/
def pdStamped (s : State) (i : Nat) (c : SubCfg) (x : HeldCopy) : State :=
  modSub s i (fun y => { y with
    cnt := y.cnt + 1, stamp := x.stamp
    hdrFlags := if c.timed then nthD x.data 3 0 else y.hdrFlags
    mcc := if c.timed then BitVec.ofNat 32 (leNat ((x.data.drop 8).take 4).reverse) else y.mcc })

/-- A telegram's own reception, counted and carried on. -/
def pdCarried (s : State) (i : Nat) (c : SubCfg) (x : HeldCopy) (code : BitVec 4) : State :=
  timedAct (pmuCount s 9 0x240 1) c x.data
    { port := planePort x.planeB, cls := .pd, writes := pdWrites s c x.data code
      copy := if c.sdt then some { index := i, data := x.data, tr := x.tr } else none }

theorem acceptPd_eq (i : Nat) (c : SubCfg) (x : HeldCopy) (code : BitVec 4) : acceptPd s i c x code =
    pdCarried (answerPull (pdStamped (timedArrive (noteSender s i c x.src x.seq x.planeB)) i c x) i x.pp) i c x code := rfl

theorem acceptPd_withHost (i : Nat) (c : SubCfg) (x : HeldCopy) (code : BitVec 4) :
    acceptPd (withHost s h) i c x code = withHost (acceptPd s i c x code) h := by
  have hstamp (u : State) : pdStamped (withHost u h) i c x = withHost (pdStamped u i c x) h := rfl
  have hwrites (u : State) : pdWrites (withHost u h) c x.data code = pdWrites u c x.data code := rfl
  rw [acceptPd_eq, noteSender_withHost, timedArrive_withHost, hstamp, answerPull_withHost, pdCarried, hwrites, pmuCount_withHost, timedAct_withHost]
  rfl

/-- The state with a held telegram consumed on one plane, and the fault that a row of them makes. -/
def singleNoted (s : State) (i : Nat) (c : SubCfg) (x : HeldCopy) : State :=
  let y := subOf s i
  let n := (if x.planeB then y.singleA else y.singleB) + 1
  let had := if x.planeB then y.pfA else y.pfB
  let fault := decide (s.ci.act.safety.sdtSingleMax ≤ n)
  let s1 := modSub { s with eth := { s.eth with single := satInc s.eth.single } } i (fun y =>
    if x.planeB then { y with held := none, consumed := some x.ssc, singleA := n, pfA := y.pfA || fault }
    else { y with held := none, consumed := some x.ssc, singleB := n, pfB := y.pfB || fault })
  if fault && !had then
    record { s1 with eth := { s1.eth with sdtFault := setBit s1.eth.sdtFault (if x.planeB then 0 else 1) } } .error (planePort !x.planeB).src
      (cFault 0) c.comId
  else s1

theorem sdtSingle_eq (i : Nat) (c : SubCfg) (x : HeldCopy) :
    sdtSingle s i c x = acceptPd (pmuCount (singleNoted s i c x) 9 0x242 1) i c x qSinglePlane := rfl

theorem singleNoted_withHost (i : Nat) (c : SubCfg) (x : HeldCopy) : singleNoted (withHost s h) i c x = withHost (singleNoted s i c x) h :=
  withHost_ite rfl rfl rfl

theorem sdtSingle_withHost (i : Nat) (c : SubCfg) (x : HeldCopy) : sdtSingle (withHost s h) i c x = withHost (sdtSingle s i c x) h := by
  rw [sdtSingle_eq, singleNoted_withHost, pmuCount_withHost, acceptPd_withHost, ← sdtSingle_eq]

theorem sdtRelease_withHost (i : Nat) : sdtRelease (withHost s h) i = withHost (sdtRelease s i) h := by
  have hheld : (subOf (withHost s h) i).held = (subOf s i).held := rfl
  have hcfg : subCfg (withHost s h).ci.act i = subCfg s.ci.act i := rfl
  unfold sdtRelease
  rw [hheld, hcfg]
  split
  · exact sdtSingle_withHost ..
  · rfl

theorem releasePlane_withHost (b : Bool) : releasePlane (withHost s h) b = withHost (releasePlane s b) h := by
  refine foldl_withHost (fun s j => ?_) _ s
  have hheld : (subOf (withHost s h) j).held = (subOf s j).held := rfl
  rw [hheld]
  cases (subOf s j).held with
  | none => rfl
  | some x => exact withHost_ite rfl (sdtRelease_withHost s h j) rfl

/-! ### The time base's planes -/

theorem modPtp_withHost (b : Bool) (f : PtpPlane → PtpPlane) : modPtp (withHost s h) b f = withHost (modPtp s b f) h := by
  cases b <;> rfl

theorem tbState_withHost (x : TbState) : tbState (withHost s h) x = withHost (tbState s x) h := withHost_ite rfl rfl rfl

theorem masterTaken_withHost : masterTaken (withHost s h) = withHost (masterTaken s) h :=
  withHost_ite rfl (tbState_withHost (freshRun s) h .acquiring) rfl

theorem planeLost_withHost : planeLost (withHost s h) = withHost (planeLost s) h := by
  refine withHost_ite ?_ (masterTaken_withHost (record { s with tb := { s.tb with selB := !s.tb.selB } } .notice srcTime (cChange 0)
    (if !s.tb.selB then 1 else 0)) h) (withHost_ite rfl (tbState_withHost s h .holdover) rfl)
  rfl

/-- The state with a plane's clock started anew. -/
def planeFresh (s : State) (b : Bool) : State :=
  modPtp s b (fun _ => { egress := (ptpOf s b).egress, ingress := (ptpOf s b).ingress, path := (ptpOf s b).path, gmId := (ptpOf s b).gmId })

theorem ptpRestart_withHost (b : Bool) : ptpRestart (withHost s h) b = withHost (ptpRestart s b) h := by
  have hfresh : planeFresh (withHost s h) b = withHost (planeFresh s b) h := modPtp_withHost ..
  refine withHost_ite rfl ?_ hfresh
  exact (congrArg (fun u => planeLost (record u .warning srcTime (cFault 0) (if b then 1 else 0))) hfresh).trans
    (planeLost_withHost (record (planeFresh s b) .warning srcTime (cFault 0) (if b then 1 else 0)) h)

end

/-! ## The HOST port FIFO and a PORT reset -/

section
variable (s : State) (h : List Instr)

/-- An Ethernet port with its link down and its queues empty. -/
def ethCleared (s : State) (i : EthNo) : State :=
  rxClk (modEth s i (fun p => { p with
    up := false, speed := 0, enable := false, gclCur := 0, gclEndTtc := 0, gclSel := 0, txOk := false
    queues := List.replicate 8 [], hqTx := {}, hqRx := {} })) i.val false

/-- A process data port without what its plane held. -/
def planeCleared (s : State) (i : EthNo) : State :=
  let s2 := forgetPlane (releasePlane (ethCleared s i) (!(i == 1))) (i == 1)
  if i = 0 then resetOffload s2 else s2

theorem planeCleared_withHost (i : EthNo) : planeCleared (withHost s h) i = withHost (planeCleared s i) h := by
  have hrelease : releasePlane (ethCleared (withHost s h) i) (!(i == 1)) = withHost (releasePlane (ethCleared s i) (!(i == 1))) h :=
    releasePlane_withHost (ethCleared s i) h _
  exact withHost_ite rfl (congrArg (fun u => resetOffload (forgetPlane u (i == 1))) hrelease) (congrArg (forgetPlane · (i == 1)) hrelease)

theorem resetEth_withHost (i : EthNo) : resetEth (withHost s h) i = withHost (resetEth s i) h := by
  refine withHost_ite rfl rfl ?_
  show ptpRestart (modPtp (planeCleared (withHost s h) i) (i == 1) _) (i == 1) = _
  rw [planeCleared_withHost, modPtp_withHost, ptpRestart_withHost]
  rfl

theorem busFail_withHost (u : TUnit) (bus frame : Nat) (addr : Reg32) (st : Status) (x : Issue) :
    busFail (withHost s h) u bus frame addr st x = withHost (busFail s u bus frame addr st x) h :=
  foldl_withHost (fun s _ => failPosted_withHost s h ..) _ s

theorem failItem_withHost (x : LaunchItem) : failItem (withHost s h) x = withHost (failItem s x) h := by
  cases x with
  | mvb a _ iss => exact busFail_withHost s h ..
  | can i _ iss =>
    have hframe : canFrameOf (withHost s h).ci.act i [] = canFrameOf s.ci.act i [] := rfl
    unfold failItem
    dsimp only
    rw [hframe]
    cases canFrameOf s.ci.act i [] with
    | none => rfl
    | some x => exact busFail_withHost s h ..

theorem failLaunches_withHost (p : LaunchItem → Bool) : failLaunches (withHost s h) p = withHost (failLaunches s p) h :=
  foldl_withHost (fun s x => failItem_withHost s h x) _ (dropLaunches s p)

/-- The MVB unit without its traffic. -/
def mvbCleared (s : State) : State :=
  { s with mvb := { s.mvb with
      lineA := { s.mvb.lineA with fault := false, good := 0, bad := 0 }
      lineB := { s.mvb.lineB with fault := false, good := 0, bad := 0 }
      bp := 0, dstatSel := 0, dstat := [], bufs := [], rxBufs := [], poll := none, due := [], launched := [] } }

theorem resetMvb_withHost : resetMvb (withHost s h) = withHost (resetMvb s) h := by
  unfold resetMvb
  rw [failLaunches_withHost]
  generalize failLaunches s _ = u
  have hfold : u.mvb.launched.foldl (fun s a => failItem s (.mvb a.1 [] a.2)) (withHost u h) =
      withHost (u.mvb.launched.foldl (fun s a => failItem s (.mvb a.1 [] a.2)) u) h :=
    foldl_withHost (fun s a => failItem_withHost s h (.mvb a.1 [] a.2)) _ u
  exact congrArg (fun v => mvbCleared (dropBells v 0)) hfold

theorem modCan_withHost (n : Nat) (f : Can → Can) : modCan (withHost s h) n f = withHost (modCan s n f) h := withHost_ite rfl rfl rfl

theorem canFail_withHost (n : Nat) (p : CanPend) (st : Status) : canFail (withHost s h) n p st = withHost (canFail s n p st) h := by
  unfold canFail
  rw [modCan_withHost]
  generalize modCan s n _ = u
  cases p.src
  case record i => exact busFail_withHost u h ..
  case raw t =>
    have htag : tagOf (withHost u h) t = tagOf u t := rfl
    dsimp only
    rw [htag]
    cases tagOf u t with
    | none => rfl
    | some x =>
      have hfrom : (if x.posted = true then withHost u h else withHost s h) = withHost (if x.posted = true then u else s) h :=
        withHost_ite rfl rfl rfl
      exact (congrArg (fun v => finishTag v x st) hfrom).trans (finishTag_withHost _ h ..)
  all_goals rfl

/-- The CAN controller without its traffic. -/
def canCleared (s : State) (n : Nat) : State :=
  modCan s n (fun c => { c with
    enabled := false, monitor := false, txErr := 0, rxErr := 0, busOff := false, lastNmt := 0, pend := [] })

theorem resetCan_withHost (n : Nat) : resetCan (withHost s h) n = withHost (resetCan s n) h := by
  have hitem : isCanItem (withHost s h).ci.act n = isCanItem s.ci.act n := rfl
  unfold resetCan
  rw [hitem, failLaunches_withHost]
  generalize failLaunches s _ = u
  have hcleared : canCleared (withHost u h) n = withHost (canCleared u n) h := modCan_withHost u h n _
  have hfold : (canOf u n).pend.foldl (fun s p => canFail s n p .unitReset) (canCleared (withHost u h) n) =
      withHost ((canOf u n).pend.foldl (fun s p => canFail s n p .unitReset) (canCleared u n)) h := by
    rw [hcleared]
    exact foldl_withHost (fun s p => canFail_withHost s h n p .unitReset) _ _
  exact congrArg (dropBells · (n + 1)) hfold

/-- A bridge as its reset leaves it. -/
def bridgeCleared (b : Bridge) : Bridge :=
  { b with
    sems := List.replicate 64 {}, sharedBase := 0, sharedEn := false, deltaRx := 0, deltaTx := 0, bells := []
    txSeq := [0, 0, 0, 0], farFreed := [0, 0, 0, 0], freed := [0, 0, 0, 0], queues := [[], [], [], []], crcRun := 0
    peerEpoch := 0, peerPos := 0 }

theorem resetGl_withHost (l : GLink) : resetGl (withHost s h) l = withHost (resetGl s l) h := by
  have hdown : (if ((withHost s h).grp.br l).up then linkDown (withHost s h) l else withHost s h) =
      withHost (if (s.grp.br l).up then linkDown s l else s) h := withHost_ite rfl rfl rfl
  exact congrArg (modBr · l bridgeCleared) hdown

theorem resetBlock_withHost (u : Nat) : resetBlock (withHost s h) u = withHost (resetBlock s u) h := by
  unfold resetBlock
  split
  · exact resetEth_withHost ..
  · exact resetEth_withHost ..
  · exact resetEth_withHost ..
  · exact resetMvb_withHost ..
  · exact resetCan_withHost ..
  · exact resetCan_withHost ..
  · exact resetGl_withHost ..
  · exact resetGl_withHost ..
  · rfl

/-- The reset's state and record of a port whose block is reset. -/
def portHeldAt (s : State) (u : Nat) (src : ResetSource) : State :=
  record { s with rst := { s.rst with portHeld := setBit s.rst.portHeld u, portCnt := satInc s.rst.portCnt, source := src, kind := 7 } } .warning
    (resetSrc u) (cFault src.num) u

theorem portReset_withHost (u : Nat) (src : ResetSource) : portReset (withHost s h) u src = withHost (portReset s u src) h := by
  refine withHost_ite rfl rfl ?_
  have hfresh : (if u < 8 then freshUnit (withHost s h) (u + 7) else withHost s h) =
      withHost (if u < 8 then freshUnit s (u + 7) else s) h := withHost_ite rfl rfl rfl
  have hblock : resetBlock (bumpEpoch (if u < 8 then freshUnit (withHost s h) (u + 7) else withHost s h) (resetUnit u)) u =
      withHost (resetBlock (bumpEpoch (if u < 8 then freshUnit s (u + 7) else s) (resetUnit u)) u) h := by
    rw [hfresh, bumpEpoch_withHost, resetBlock_withHost]
  exact congrArg (fun v => portHeldAt (dropReceptions v u) u src) hblock

end

/-! ## The power governor's window (R449, R452) -/

section
variable (s : State) (h : List Instr)

theorem pauseDma_withHost : pauseDma (withHost s h) = withHost (pauseDma s) h := by
  have htag : ((dmaTags (withHost s h)).take (dmaRunning (withHost s h))).getLast? = ((dmaTags s).take (dmaRunning s)).getLast? := rfl
  unfold pauseDma
  rw [htag]
  cases ((dmaTags s).take (dmaRunning s)).getLast? with
  | none => rfl
  | some t =>
    dsimp only
    cases t.ring with
    | none => rfl
    | some r => exact withHost_ite rfl rfl (complete_withHost { s with pgv := { s.pgv with dmaPaused := s.pgv.dmaPaused + 1 } } h ..)

theorem setStep_withHost (st : Nat) : setStep (withHost s h) st = withHost (setStep s st) h := withHost_ite rfl rfl rfl

/-- A port that is shed, before its reset. -/
def portUnpowered (s : State) (p : Nat) : State :=
  { s with pgv := { s.pgv with
    portPowered := clrBit s.pgv.portPowered p, portRefused := setBit s.pgv.portRefused p, portSheds := satInc s.pgv.portSheds } }

/-- A port that is shed. -/
def portShed (s : State) (p : Nat) : State :=
  record (freshUnit (portReset (portUnpowered s p) p .shedding) (p + 7)) .notice srcPgv (cFault ResetSource.shedding.num) p

theorem portShed_withHost (p : Nat) : portShed (withHost s h) p = withHost (portShed s p) h :=
  congrArg (fun u => record (freshUnit u (p + 7)) .notice srcPgv (cFault ResetSource.shedding.num) p)
    (portReset_withHost (portUnpowered s p) h p .shedding)

theorem shedStep_withHost : shedStep (withHost s h) = withHost (shedStep s) h := by
  refine withHost_ite rfl (setStep_withHost { s with pgv := { s.pgv with acDown := satInc s.pgv.acDown } } h _)
    (withHost_ite rfl rfl (withHost_ite rfl (pauseDma_withHost s h) ?_))
  have hports : sheddable (withHost s h) = sheddable s := rfl
  rw [hports]
  cases sheddable s with
  | nil => rfl
  | cons p ps => exact portShed_withHost s h p

theorem powerPort_withHost (p : Nat) : powerPort (withHost s h) p = withHost (powerPort s p) h :=
  withHost_ite rfl rfl (withHost_ite rfl rfl rfl)

theorem restore_withHost (r : Restore) : restore (withHost s h) r = withHost (restore s r) h := by
  cases r with
  | port p => exact powerPort_withHost { s with pgv := { s.pgv with portRefused := clrBit s.pgv.portRefused p } } h p
  | dma => rfl
  | unstall => rfl
  | step => exact setStep_withHost { s with pgv := { s.pgv with
      acStatus := if s.pgv.granted.toNat + 1 = s.pgv.step.toNat then Status.ok.code else s.pgv.acStatus } } h _

/-- The state in which the windows with headroom are counted anew. -/
def unsettled (s : State) : State := { s with pgv := { s.pgv with stable := 0 } }

theorem govern_withHost : govern (withHost s h) = withHost (govern s) h := by
  refine withHost_ite rfl (shedStep_withHost (unsettled s) h) ?_
  have hnext : nextRestore (withHost s h) = nextRestore s := rfl
  rw [hnext]
  cases nextRestore s with
  | none => rfl
  | some x => exact withHost_ite rfl rfl (withHost_ite rfl (restore_withHost (unsettled s) h _) rfl)

theorem noteStreams_withHost : noteStreams (withHost s h) = withHost (noteStreams s) h := withHost_ite rfl rfl rfl

theorem measureUnit_withHost (u m : Nat) : measureUnit (withHost s h) u m = withHost (measureUnit s u m) h := withHost_ite rfl rfl rfl

end

/-! ### The window's parts -/

/-- The state with a window's measurements (R452). -/
def measured (s : State) (input mv ma : Nat) : State :=
  let i := BitVec.ofNat 9 (min input 511)
  { s with pgv := { s.pgv with
    input := i, peak := if s.pgv.peak < i then i else s.pgv.peak
    voltMv := BitVec.ofNat 16 (min mv 65535), currentMa := BitVec.ofNat 16 (min ma 65535)
    overRun := if capTokens s < input then s.pgv.overRun + 1 else 0 } }

theorem powerWindow_eq (s : State) (input mv ma : Nat) (units : List Nat) : powerWindow s input mv ma units =
    pgvView (govern (((List.range 18).zip units).foldl (fun s x => measureUnit s x.1 x.2) (noteStreams (measured s input mv ma)))) := rfl

theorem powerWindow_withHost (s : State) (h : List Instr) (input mv ma : Nat) (units : List Nat) :
    powerWindow (withHost s h) input mv ma units = withHost (powerWindow s input mv ma units) h := by
  have hmeas : measured (withHost s h) input mv ma = withHost (measured s input mv ma) h := rfl
  have hview (u : State) : pgvView (withHost u h) = withHost (pgvView u) h := rfl
  rw [powerWindow_eq, hmeas, noteStreams_withHost, foldl_withHost (fun s x => measureUnit_withHost s h x.1 x.2), govern_withHost, hview]
  rfl

theorem withHost_same {w : State} {h : List Instr} (hw : w.host = h) : withHost w h = w := by
  subst hw
  rfl

theorem coresRun_of_empty {w : State} (hw : w.host = []) : coresRun w = w := by
  unfold coresRun
  rw [hw]
  split
  · rfl
  · exact withHost_same hw

theorem coresRun_withHost {w : State} (h : List Instr) (hw : w.host = []) :
    coresRun (withHost w h) = if coresStopped w = true then withHost w h else h.foldl replay w := by
  have hrun : coresRun (withHost w h) = if coresStopped w = true then withHost w h else h.foldl replay (withHost w []) := rfl
  rw [hrun, withHost_same hw]

theorem exec_powerWindow_off {s : State} (i mv ma : Nat) (us : List Nat) (hpower : s.pin.powerGood = false) :
    exec (.powerWindow i mv ma us) s = .next s := by
  show execPowerWindow i mv ma us s = _
  rw [execPowerWindow, hpower]
  rfl

theorem exec_powerWindow_stalled {s : State} (i mv ma : Nat) (us : List Nat) (hpower : s.pin.powerGood = true)
    (hstall : s.pgv.stalled = true) : exec (.powerWindow i mv ma us) s = .next (coresRun (powerWindow s i mv ma us)) := by
  show execPowerWindow i mv ma us s = _
  rw [execPowerWindow, hpower, hstall]
  exact congrArg _ ((if_neg (by decide)).trans (if_pos rfl))

theorem exec_powerWindow_running {s : State} (i mv ma : Nat) (us : List Nat) (hpower : s.pin.powerGood = true)
    (hstall : s.pgv.stalled = false) : exec (.powerWindow i mv ma us) s = .next (powerWindow s i mv ma us) := by
  show execPowerWindow i mv ma us s = _
  rw [execPowerWindow, hpower, hstall]
  exact congrArg _ ((if_neg (by decide)).trans (if_neg Bool.false_ne_true))

theorem powerWindow_host (s : State) (i mv ma : Nat) (us : List Nat) : (powerWindow s i mv ma us).host = s.host :=
  (powerWindow_within s i mv ma us).host_eq

/-- A window that ends a stall lets the accesses that waited be carried out in their order. -/
theorem powerWindow_stalled {s : State} (i mv ma : Nat) (us : List Nat) (hpower : s.pin.powerGood = true) (hstall : s.pgv.stalled = true) :
    ∃ w, exec (.powerWindow i mv ma us) (withHost s []) = .next w ∧ exec (.powerWindow i mv ma us) s =
      .next (if coresStopped w = true then withHost w s.host else s.host.foldl replay w) := by
  have hempty : (powerWindow (withHost s []) i mv ma us).host = [] := powerWindow_host ..
  have hfull : powerWindow s i mv ma us = withHost (powerWindow (withHost s []) i mv ma us) s.host :=
    powerWindow_withHost (withHost s []) s.host i mv ma us
  refine ⟨_, exec_powerWindow_stalled i mv ma us (s := withHost s []) hpower hstall, ?_⟩
  rw [exec_powerWindow_stalled i mv ma us hpower hstall, hfull, coresRun_of_empty hempty, coresRun_withHost s.host hempty]

/-! ## What the governor shows of a window (R452) -/

/-- What a window's measurement shows: the input, its peak, the voltage and the current. -/
def shown (p : Pgv) : BitVec 9 × BitVec 9 × BitVec 16 × BitVec 16 := (p.input, p.peak, p.voltMv, p.currentMa)

theorem shown_setStep (s : State) (st : Nat) : shown (setStep s st).pgv = shown s.pgv := by
  unfold setStep
  split <;> rfl

theorem shown_pauseDma (s : State) : shown (pauseDma s).pgv = shown s.pgv := by
  unfold pauseDma
  dsimp only
  split
  · split
    · split
      · rfl
      · rw [(complete_within ..).pgv_eq]
        rfl
    · rfl
  · rfl

theorem shown_resetEth (s : State) (i : EthNo) : shown (resetEth s i).pgv = shown s.pgv := by
  unfold resetEth
  dsimp only
  split
  · rfl
  · have hrelease := (releasePlane_within (ethCleared s i) (!(i == 1))).pgv_eq
    rw [(ptpRestart_within ..).pgv_eq, (modPtp_within ..).pgv_eq]
    split <;> exact congrArg shown hrelease

theorem shown_resetBlock (s : State) (u : Nat) : shown (resetBlock s u).pgv = shown s.pgv := by
  unfold resetBlock
  split
  · exact shown_resetEth s 0
  · exact shown_resetEth s 1
  · exact shown_resetEth s 2
  · exact congrArg shown (resetMvb_within s).pgv_eq
  · exact congrArg shown (resetCan_within s 0).pgv_eq
  · exact congrArg shown (resetCan_within s 1).pgv_eq
  · exact congrArg shown (resetGl_within s .left).pgv_eq
  · exact congrArg shown (resetGl_within s .right).pgv_eq
  · rfl

theorem shown_portReset (s : State) (u : Nat) (src : ResetSource) : shown (portReset s u src).pgv = shown s.pgv := by
  unfold portReset
  split
  · rfl
  · have hblock := shown_resetBlock (bumpEpoch (if u < 8 then freshUnit s (u + 7) else s) (resetUnit u)) u
    have hepoch := (bumpEpoch_within (if u < 8 then freshUnit s (u + 7) else s) (resetUnit u)).pgv_eq
    have hfresh : shown (if u < 8 then freshUnit s (u + 7) else s).pgv = shown s.pgv := by split <;> rfl
    exact hblock.trans ((congrArg shown hepoch).trans hfresh)

theorem shown_recorded (s : State) (u : Nat) (sev : Sev) (src : BitVec 12) (code : BitVec 16) (subject : Nat) :
    shown (record (freshUnit s u) sev src code subject).pgv = shown s.pgv := rfl

theorem shown_portShed (s : State) (p : Nat) : shown (portShed s p).pgv = shown s.pgv :=
  (shown_recorded ..).trans (shown_portReset (portUnpowered s p) p .shedding)

theorem shown_shedStep (s : State) : shown (shedStep s).pgv = shown s.pgv := by
  unfold shedStep
  split
  · exact shown_setStep _ _
  · split
    · rfl
    · split
      · exact shown_pauseDma s
      · split
        · exact shown_portShed s _
        · rfl

theorem shown_powerPort (s : State) (p : Nat) : shown (powerPort s p).pgv = shown s.pgv := by
  unfold powerPort
  split
  · rfl
  · split <;> rfl

theorem shown_restore (s : State) (r : Restore) : shown (restore s r).pgv = shown s.pgv := by
  cases r with
  | port p => exact shown_powerPort _ p
  | dma => rfl
  | unstall => rfl
  | step => exact shown_setStep _ _

theorem shown_govern (s : State) : shown (govern s).pgv = shown s.pgv := by
  unfold govern
  split
  · exact shown_shedStep (unsettled s)
  · split
    · rfl
    · split
      · rfl
      · split
        · exact shown_restore (unsettled s) _
        · rfl

theorem shown_measureUnits (l : List (Nat × Nat)) (s : State) : shown (l.foldl (fun s x => measureUnit s x.1 x.2) s).pgv = shown s.pgv := by
  induction l generalizing s with
  | nil => rfl
  | cons x l ih =>
    refine (ih _).trans ?_
    unfold measureUnit
    dsimp only
    split <;> rfl

theorem shown_noteStreams (s : State) : shown (noteStreams s).pgv = shown s.pgv := by
  unfold noteStreams
  dsimp only
  split <;> rfl

theorem shown_pgvView (s : State) : shown (pgvView s).pgv = shown s.pgv := rfl

theorem shown_powerWindow (s : State) (input mv ma : Nat) (units : List Nat) :
    shown (powerWindow s input mv ma units).pgv = shown (measured s input mv ma).pgv := by
  rw [powerWindow_eq, shown_pgvView, shown_govern, shown_measureUnits, shown_noteStreams]

theorem powerWindow_shows (s : State) (input mv ma : Nat) (units : List Nat) :
    (powerWindow s input mv ma units).pgv.input.toNat = min input 511 ∧
    (powerWindow s input mv ma units).pgv.peak.toNat = max s.pgv.peak.toNat (min input 511) ∧
    (powerWindow s input mv ma units).pgv.voltMv.toNat = min mv 65535 ∧
    (powerWindow s input mv ma units).pgv.currentMa.toNat = min ma 65535 := by
  have hshown := shown_powerWindow s input mv ma units
  obtain ⟨hinput, hpeak, hvolt, hcurrent⟩ : _ = _ ∧ _ = _ ∧ _ = _ ∧ _ = _ := by simpa [shown, measured] using hshown
  have hi : (BitVec.ofNat 9 (min input 511)).toNat = min input 511 := by
    rw [BitVec.toNat_ofNat]
    omega
  refine ⟨by rw [hinput, hi], ?_, ?_, ?_⟩
  · rw [hpeak]
    split
    next hlt => rw [BitVec.lt_def, hi] at hlt; rw [hi]; omega
    next hle => rw [BitVec.lt_def, hi] at hle; omega
  · rw [hvolt, BitVec.toNat_ofNat]
    omega
  · rw [hcurrent, BitVec.toNat_ofNat]
    omega

/-! ## Steps of the cores' clock and derating (R447, R450) -/

theorem setStep_granted (s : State) {st : Nat} (hst : st < 8) : (setStep s st).pgv.granted.toNat = st := by
  unfold setStep
  split
  next h => exact h
  · show (BitVec.ofNat 3 st).toNat = st
    rw [BitVec.toNat_ofNat, Nat.mod_eq_of_lt (by omega)]

/-- A new step reaches the governor's own state and the clock's mask only. -/
theorem setStep_frame (s : State) (st : Nat) : setStep s st = { s with
    pgv := { s.pgv with granted := (setStep s st).pgv.granted, units := (setStep s st).pgv.units }, clk := (setStep s st).clk } := by
  unfold setStep
  split <;> rfl

theorem bestStep_le (s : State) (lim : Nat) : bestStep s lim ≤ lim := by
  unfold bestStep
  cases hlast : ((List.range 8).filter (fun i => decide (i ≤ lim) && stepFits s i)).getLast? with
  | none => exact Nat.zero_le _
  | some i =>
    have hi := (List.mem_filter.1 (List.mem_of_getLast? hlast)).2
    exact of_decide_eq_true (Bool.and_eq_true_iff.1 hi).1

/-! ## Steps of the cores' clock and derating: what they reach (R447, R450) -/

/-- What reaches the governor and the clocks only. -/
theorem Within.frame_pgv_clk {s t : State} (h : Within [.pgv, .clk] s t) : t = { s with pgv := t.pgv, clk := t.clk } := h.frame

theorem exec_acStep_taken {s : State} (st : BitVec 3) (hheld : s.rst.clusterHeld = false) (hstop : coresStopped s = false) :
    exec (.acStepRequest st) s = .next (requestStep s st.toNat) := by
  show execAcStepRequest st s = _
  rw [execAcStepRequest, coreStall, hheld, hstop]
  exact congrArg _ ((if_neg Bool.false_ne_true).trans (if_neg Bool.false_ne_true))

theorem acStep_held {s : State} (st : BitVec 3) (hheld : s.rst.clusterHeld = true) : exec (.acStepRequest st) s = .next s := by
  show execAcStepRequest st s = _
  rw [execAcStepRequest, coreStall, hheld]
  exact congrArg _ (if_pos rfl)

theorem acStep_waits {s : State} (st : BitVec 3) (hheld : s.rst.clusterHeld = false) (hstop : coresStopped s = true) :
    exec (.acStepRequest st) s = .next { s with host := s.host ++ [.acStepRequest st] } := by
  show execAcStepRequest st s = _
  rw [execAcStepRequest, coreStall, hheld, hstop]
  exact congrArg _ ((if_neg Bool.false_ne_true).trans (if_pos rfl))

/-- A request above the configured step is refused (R447). -/
theorem acStep_refused {s : State} (st : BitVec 3) (hheld : s.rst.clusterHeld = false) (hstop : coresStopped s = false)
    (hmax : s.ci.act.power.acMaxStep < st.toNat) : ∃ t, exec (.acStepRequest st) s = .next t ∧
      t.pgv.acStatus = Status.refusedPolicy.code ∧ t.pgv.granted = s.pgv.granted ∧ t = { s with pgv := t.pgv } := by
  refine ⟨_, exec_acStep_taken st hheld hstop, ?_⟩
  rw [requestStep, if_pos hmax]
  exact ⟨rfl, rfl, rfl⟩

/-- The state that the cores' step `g` is granted in. -/
def stepGranted (s : State) (st g : Nat) : State := setStep { s with pgv := { s.pgv with step := BitVec.ofNat 3 st } } g

theorem acStep_granted {s : State} (st : BitVec 3) (hheld : s.rst.clusterHeld = false) (hstop : coresStopped s = false)
    (hmax : st.toNat ≤ s.ci.act.power.acMaxStep) : ∃ t, exec (.acStepRequest st) s = .next t ∧ t.pgv.step = st ∧
      t.pgv.granted.toNat ≤ st.toNat ∧ t.pgv.granted.toNat ≤ maxStep s ∧ (t.pgv.acStatus = Status.ok.code ↔ t.pgv.granted = st) ∧
      t.pgv.granted.toNat = bestStep s (min st.toNat (maxStep s)) ∧ t = { s with pgv := t.pgv, clk := t.clk } := by
  have hbest := bestStep_le s (min st.toNat (maxStep s))
  have hst := st.isLt
  have hreach := (requestStep_within s st.toNat).frame_pgv_clk
  refine ⟨_, exec_acStep_taken st hheld hstop, ?_⟩
  rw [requestStep, if_neg (Nat.not_lt.2 hmax)] at hreach ⊢
  dsimp only at hreach ⊢
  generalize bestStep s (min st.toNat (maxStep s)) = g at *
  have hgranted : (stepGranted s st.toNat g).pgv.granted.toNat = g := setStep_granted _ (by omega)
  have hiff : g = st.toNat ↔ (stepGranted s st.toNat g).pgv.granted = st := by rw [← BitVec.toNat_inj, hgranted]
  have hframe := setStep_frame { s with pgv := { s.pgv with step := BitVec.ofNat 3 st.toNat } } g
  have hstep : (stepGranted s st.toNat g).pgv.step = st :=
    (congrArg (fun t : State => t.pgv.step) hframe).trans (BitVec.eq_of_toNat_eq (by simp))
  change (stepGranted s st.toNat g).pgv.step = st ∧ (stepGranted s st.toNat g).pgv.granted.toNat ≤ _ ∧
    (stepGranted s st.toNat g).pgv.granted.toNat ≤ _ ∧
    ((if g = st.toNat then Status.ok.code else Status.deferred.code) = _ ↔ (stepGranted s st.toNat g).pgv.granted = st) ∧
    (stepGranted s st.toNat g).pgv.granted.toNat = g ∧ _
  refine ⟨hstep, by omega, by omega, ?_, hgranted, hreach⟩
  rw [← hiff]
  by_cases heq : g = st.toNat
  · simp [heq]
  · rw [if_neg heq]
    exact ⟨fun hok => absurd hok (by decide), fun h => absurd h heq⟩

/-! ## Derating by the card edge's temperature (R450) -/

/-- The greatest step that the card edge's temperature allows. -/
def edgeStep (s : State) (x : Int) : Nat :=
  if thermOn s x 80 0 then 0 else if thermOn s x 75 3 then 3 else if thermOn s x 70 5 then 5 else 7

theorem thermOn_iff (s : State) (x t : Int) (n : Nat) : thermOn s x t n = true ↔ t < x ∨ s.pgv.thermStep.toNat ≤ n ∧ t - 2 < x := by
  simp [thermOn]

theorem edgeStep_lt (s : State) (x : Int) : edgeStep s x < 8 := by
  unfold edgeStep
  split_ifs <;> decide

theorem ofNat_edgeStep (s : State) (x : Int) : BitVec.ofNat 3 (edgeStep s x) =
    if 80 < x ∨ s.pgv.thermStep.toNat = 0 ∧ 78 < x then 0
    else if 75 < x ∨ s.pgv.thermStep.toNat ≤ 3 ∧ 73 < x then 3
    else if 70 < x ∨ s.pgv.thermStep.toNat ≤ 5 ∧ 68 < x then 5 else 7 := by
  have h80 : thermOn s x 80 0 = true ↔ 80 < x ∨ s.pgv.thermStep.toNat = 0 ∧ 78 < x := by rw [thermOn_iff, Nat.le_zero]; rfl
  have h75 : thermOn s x 75 3 = true ↔ 75 < x ∨ s.pgv.thermStep.toNat ≤ 3 ∧ 73 < x := thermOn_iff ..
  have h70 : thermOn s x 70 5 = true ↔ 70 < x ∨ s.pgv.thermStep.toNat ≤ 5 ∧ 68 < x := thermOn_iff ..
  unfold edgeStep
  simp only [h80, h75, h70]
  split_ifs <;> rfl

/-- The state with the card edge's temperature and the step that it allows. -/
def edgeNoted (s : State) (c : BitVec 8) (st : Nat) : State :=
  { s with pgv := { s.pgv with edgeC := c, thermStep := BitVec.ofNat 3 st, derating := decide (st < 7) } }

/-- The state with a granted step above the greatest one taken back. -/
def derated (s : State) : State := if maxStep s < s.pgv.granted.toNat then setStep s (maxStep s) else s

theorem derated_granted (s : State) : (derated s).pgv.granted.toNat = min s.pgv.granted.toNat (maxStep s) := by
  have hlt := s.pgv.granted.isLt
  unfold derated
  split
  · rw [setStep_granted _ (by omega)]
    omega
  · omega

/-- Derating keeps what the governor holds besides the granted step and its units. -/
theorem derated_frame (s : State) : derated s = { s with
    pgv := { s.pgv with granted := (derated s).pgv.granted, units := (derated s).pgv.units }, clk := (derated s).clk } := by
  unfold derated
  split
  · exact setStep_frame ..
  · rfl

theorem derated_evr (s : State) : (derated s).evr = s.evr := by
  unfold derated
  split
  · exact (setStep_within ..).evr_eq
  · rfl

theorem exec_thermalDerate (s : State) (c : BitVec 8) : exec (.thermalDerate c) s =
    .next (if s.pgv.thermStep.toNat = edgeStep s c.toInt then derated (edgeNoted s c (edgeStep s c.toInt))
      else record (pgvView (derated (edgeNoted s c (edgeStep s c.toInt)))) .notice srcPgv (cState (edgeStep s c.toInt)) c.toNat) := rfl

/-- What a new temperature leaves, whether the step that it allows is another one or not. -/
structure Derates (s t : State) (c : BitVec 8) (st : Nat) : Prop where
  edgeC : t.pgv.edgeC = c
  thermStep : t.pgv.thermStep = BitVec.ofNat 3 st
  derating : t.pgv.derating = decide (st < 7)
  granted : t.pgv.granted.toNat = min s.pgv.granted.toNat (min s.ci.act.power.acMaxStep (BitVec.ofNat 3 st).toNat)
  step : t.pgv.step = s.pgv.step
  frame : t = { s with pgv := t.pgv, clk := t.clk, evr := t.evr }

theorem derates_derated (s : State) (c : BitVec 8) (st : Nat) : Derates s (derated (edgeNoted s c st)) c st := by
  have hgranted := derated_granted (edgeNoted s c st)
  have hframe := derated_frame (edgeNoted s c st)
  generalize derated (edgeNoted s c st) = t at *
  refine ⟨?_, ?_, ?_, hgranted, ?_, ?_⟩ <;>
  · rw [hframe]
    rfl

theorem Derates.recorded {s t : State} {c : BitVec 8} {st : Nat} (h : Derates s t c st) (code : BitVec 16) (subject : Nat) :
    Derates s (record (pgvView t) .notice srcPgv code subject) c st := by
  obtain ⟨hedge, htherm, hderating, hgranted, hstep, hframe⟩ := h
  refine ⟨hedge, htherm, hderating, hgranted, hstep, ?_⟩
  obtain ⟨p, k, e, rfl⟩ : ∃ p k e, t = { s with pgv := p, clk := k, evr := e } := ⟨_, _, _, hframe⟩
  rfl

theorem thermalDerate_derates (s : State) (c : BitVec 8) : ∃ t, exec (.thermalDerate c) s = .next t ∧ Derates s t c (edgeStep s c.toInt) ∧
    (t.pgv.thermStep ≠ s.pgv.thermStep → Records s t .notice srcPgv (cState (edgeStep s c.toInt))) ∧
    (t.pgv.thermStep = s.pgv.thermStep → t.evr = s.evr) := by
  have hlt := edgeStep_lt s c.toInt
  have hexec := exec_thermalDerate s c
  generalize edgeStep s c.toInt = st at *
  have hder := derates_derated s c st
  have hevr : (derated (edgeNoted s c st)).evr = s.evr := derated_evr (edgeNoted s c st)
  generalize derated (edgeNoted s c st) = u at *
  have hsame : BitVec.ofNat 3 st = s.pgv.thermStep ↔ s.pgv.thermStep.toNat = st := by
    rw [← BitVec.toNat_inj, BitVec.toNat_ofNat, Nat.mod_eq_of_lt (by omega)]
    exact eq_comm
  by_cases hst : s.pgv.thermStep.toNat = st
  · rw [if_pos hst] at hexec
    exact ⟨u, hexec, hder, fun hne => absurd (hder.thermStep.trans (hsame.2 hst)) hne, fun _ => hevr⟩
  · rw [if_neg hst] at hexec
    have hrec := record_records (pgvView u) .notice srcPgv (cState st) c.toNat []
    have hseq : (pgvView u).evr.nextSeq = s.evr.nextSeq := congrArg (fun e => e.nextSeq) hevr
    refine ⟨_, hexec, hder.recorded .., fun _ => ?_, fun heq => absurd (hsame.1 ?_) hst⟩
    · obtain ⟨r, hr, hrseq, hrest⟩ := hrec
      exact ⟨r, hr, hrseq.trans hseq, hrest⟩
    · exact (hder.recorded (cState st) c.toNat).thermStep.symm.trans heq

/-! ## The power governor (O37) -/

/-- Settles O37: a window's work reads no access that waits for the cores (`powerWindow_withHost`) and keeps what it measured (`shown_powerWindow`);
steps and derating take the least of the limits (`bestStep_le`, `derated_granted`). -/
theorem powerGovernor : Obligations.PowerGovernor := by
  unfold Obligations.PowerGovernor
  intro s
  refine ⟨fun st hheld => acStep_held st hheld, fun st hheld hstop => acStep_waits st hheld hstop,
    fun st hheld hstop hmax => acStep_refused st hheld hstop hmax, fun st hheld hstop hmax => acStep_granted st hheld hstop hmax, fun c => ?_,
    fun i mv ma us hpower => exec_powerWindow_off i mv ma us hpower, fun i mv ma us hpower hstall => powerWindow_stalled i mv ma us hpower hstall,
    fun i mv ma us hpower hready => ?_⟩
  · have hlt := edgeStep_lt s c.toInt
    have hstep := ofNat_edgeStep s c.toInt
    obtain ⟨t, hexec, ⟨hedge, htherm, hderating, hgranted, hkept, hframe⟩, hrec, hevr⟩ := thermalDerate_derates s c
    have hnat : t.pgv.thermStep.toNat = edgeStep s c.toInt := by
      rw [htherm, BitVec.toNat_ofNat, Nat.mod_eq_of_lt hlt]
    refine ⟨t, hexec, hedge, htherm.trans hstep, ?_, by rw [hgranted, htherm], hkept, by rw [hnat]; exact hrec, hevr, hframe⟩
    rw [hderating, decide_eq_decide, ← hnat]
    constructor <;> intro h <;> bv_omega
  · have hexec : exec (.powerWindow i mv ma us) s = .next (powerWindow s i mv ma us) := by
      cases hstall : s.pgv.stalled with
      | false => exact exec_powerWindow_running i mv ma us hpower hstall
      | true =>
        have hhost : s.host = [] := hready.resolve_left (by rw [hstall]; decide)
        rw [exec_powerWindow_stalled i mv ma us hpower hstall, coresRun_of_empty ((powerWindow_host s i mv ma us).trans hhost)]
    have hreach := powerWindow_within s i mv ma us
    obtain ⟨hinput, hpeak, hvolt, hcurrent⟩ := powerWindow_shows s i mv ma us
    exact ⟨_, hexec, hinput, hpeak, hvolt, hcurrent, hreach.fab_eq, hreach.safe_eq, hreach.ci_eq⟩

end Sys2Proof.Machine
